-- ==== Sys2Proof/Word.lean ====
section
/-! DEFINITION. The plain number types of the Krovion KV4 hub: bytes, 64-bit register words, sparse tables. -/

namespace Sys2Proof

/-- A byte of memory, of a packet or of a message. -/
abbrev Byte := BitVec 8

/-- A 64-bit register, table entry or record word (R64). -/
abbrev Word := BitVec 64

/-- A sparse table by number: pairs with strictly rising keys; a key that is not listed holds the
table's default, and no listed entry equals it. -/
abbrev Tab (α : Type) := List (Nat × α)

end Sys2Proof
end

