-- ==== Sys2Proof/Types.lean ====
section
/-! DEFINITION. The data types that commands carry and that the state holds beside plain numbers:
register fields, packet headers, access kinds. -/

namespace Sys2Proof

/-- The register access codes of R11. -/
inductive Access where
  | ro | rw | w1c | w1s | wo | rwl | rsv
deriving DecidableEq, Repr

/-- One field of a register (R11, R13): its byte offset within its page, its lowest bit, its width in
bits, its access code and its reset value. -/
structure Field where
  off : Nat
  lo : Nat
  width : Nat
  acc : Access
  reset : Nat
deriving DecidableEq, Repr

/-- The header unit of a torus packet (R44). A node is numbered (x + 8y) * 16 + port (R41); the data
fields stand as the numbers their bits spell. -/
structure Header where
  ctx : Nat := 0
  prio : Nat := 0
  sclass : Nat := 0
  opcode : Nat := 0
  dst : Nat := 0
  src : Nat := 0
  tag : Nat := 0
  len : Nat := 0
  dpsel : Bool := false
  addr : Nat := 0
  xlated : Bool := false
  hint : Nat := 0
  sealedSrc : Bool := false
  lastRead : Bool := false
  invWrite : Bool := false
  noResp : Bool := false
  issueTs : Nat := 0
  beSummary : Nat := 0
  dstSub : Nat := 0
  srcSub : Nat := 0
  opArg : Nat := 0
  opData : Nat := 0
  inlineData : List Byte := []
deriving DecidableEq, Repr

/-- The data of one data unit (R50): 256 bytes, and the byte enables when `BE_PRESENT` is 1 (none: every
byte enabled). -/
structure Unit256 where
  bytes : List Byte := []
  be : Option (List Bool) := none
deriving DecidableEq, Repr

/-- Which of the two header planes a packet uses (R43): requests or responses. -/
inductive Plane where
  | req | rsp
deriving DecidableEq, Repr

/-- Why an endpoint is down (R59). -/
inductive DownCause where
  | powerOff | fenced | retired
deriving DecidableEq, Repr

/-- What a receiver finds in one beat (R55): every word clean, single-bit errors in this many words, or
an uncorrectable word. -/
inductive BeatCheck where
  | clean
  | corrected (words : Nat)
  | uncorrectable
deriving DecidableEq, Repr

/-- What the symbol code finds in one sector of an access (R209). -/
inductive SectorCheck where
  | clean
  | corrected (symbol : Nat)
  | uncorrectable
deriving DecidableEq, Repr

/-- The envelope of a posted sealed-window message (R304): the length posted, the header's fields, and
whether the tag verifies under the session's key. -/
structure Envelope where
  posted : Nat := 0
  encrypted : Bool := true
  bodyLen : Nat := 0
  seq : Nat := 0
  session : Nat := 0
  verifies : Bool := true
deriving DecidableEq, Repr

/-- What a guest's SPDM answer holds, as R360 judges it: step by step. -/
inductive SpdmAnswer where
  | version (has13 : Bool)
  | capabilities (certCap chalCap measSigned : Bool)
  | algorithms (p521 sha512 : Bool)
  | certificate (chain : List Byte)
  | challengeAuth (body signature : List Byte)
  | measurements (blocks signature : List Byte)
  | error
deriving DecidableEq, Repr, Inhabited

/-- A KPP flit as its receiver takes it (R347): whether its CRC is good, its header fields, the six credit
returns in R351's order, and its payload. -/
structure Flit where
  crcOk : Bool := true
  seq : Nat := 0
  ack : Nat := 0
  nak : Bool := false
  ackValid : Bool := false
  credits : List Nat := []
  validSlots : Nat := 0
  payload : List Byte := []
deriving DecidableEq, Repr

/-- What a Plarus packet's transport header says (R410), whether its tag verifies under the session's key of its
`KEY_PHASE` (R415), and the low 32 bits of the timebase nanoseconds at its arrival. -/
structure PlrHdr where
  session : Nat := 0
  keyPhase : Nat := 0
  ce : Bool := false
  ece : Bool := false
  ackPresent : Bool := false
  pn : Nat := 0
  txTs : Nat := 0
  echoTs : Nat := 0
  ackDelay : Nat := 0
  ackLargest : Nat := 0
  ackMap : Nat := 0
  firstUnit : Nat := 0
  authentic : Bool := true
  arrival : Nat := 0
deriving DecidableEq, Repr

/-- The items of an `INIT` or `RESP` (R417). -/
structure Handshake where
  nonce : List Byte := []
  ephemeral : List Byte := []
  attKey : List Byte := []
  session : Nat := 0
  ctx : Nat := 0
  peerCtx : Nat := 0
  lifeCycle : Nat := 0
  debug : Nat := 0
  signature : List Byte := []
deriving DecidableEq, Repr

/-- A received Ethernet frame (R409, R425): its addresses, EtherType, 802.1Q priority (none: untagged) and VID, for UDP
over IPv6 its ports' match and flow label and ECN field, whether it is a MAC control frame, whether its checks hold, and
what follows the Ethernet or UDP header. -/
structure Frame where
  dst : Nat := 0
  src : Nat := 0
  etherType : Nat := 0
  pcp : Option Nat := none
  vid : Nat := 0
  udpPort : Nat := 0
  flow : Nat := 0
  ecn : Nat := 0
  control : Bool := false
  checksOk : Bool := true
  body : List Byte := []
deriving DecidableEq, Repr

/-- A PTP message as a port's engine takes it (R431, R432): an announcement's data set, a `Sync` with the offset from the
master and the path delay it gives in ps, the delay mechanisms' messages, or any other. -/
inductive PtpMsg where
  | announce (dataSet : List Nat)
  | sync (offsetPs : Int) (pathPs : Nat)
  | delayReq
  | delayResp (pathPs : Nat)
  | pdelayReq
  | pdelayResp (pathPs : Nat)
  | other
deriving DecidableEq, Repr

/-- An inbound request that no function serves (R383): outside every enabled BAR, or to a function without Memory Space
Enable; an I/O or AtomicOp request; a poisoned write; a vendor-defined message. -/
inductive Unserved where
  | outside (posted : Bool)
  | io
  | atomicOp
  | poisonedWrite
  | vendorMessage
deriving DecidableEq, Repr

/-- A data object for the DOE mailbox (R395, R458): discovery, an SPDM request, or an IDE_KM message of the secured
session, with the items the hub acts on. -/
inductive DoeReq where
  | discovery (index : Nat)
  | getVersion
  | getCapabilities
  | negotiate (p521 sha512 : Bool)
  | getDigests
  | getCertificate (slot offset length : Nat)
  | challenge (slot : Nat) (nonce : List Byte)
  /-- One block, or all of them; signed or not. -/
  | getMeasurements (block : Option Nat) (sign : Bool) (nonce : List Byte)
  | keyExchange (slot : Nat) (key : List Byte)
  | finish (verifies : Bool)
  | keyProg (stream : Nat)
  | keySetGo (stream : Nat)
  | keySetStop (stream : Nat)
  | other
deriving DecidableEq, Repr

/-- What a peat port finds on its way into service (R397): slot power good, the link's rate code (0: not trained), width
and flit size, the device's IDs, whether it is a supported Type 3 device, its volatile bytes, whether IDE was established. -/
structure PeatStart where
  powerOk : Bool := true
  rate : Nat := 2
  width : Nat := 16
  flit256 : Bool := true
  device : Nat := 0
  supported : Bool := true
  bytes : Nat := 0
  ide : Bool := true
deriving DecidableEq, Repr

/-- What an expander answers to a CXL.mem request (R397, R398): clean data or completion, poisoned data, or nothing yet. -/
inductive CxlAnswer where
  | clean | poison | pending
deriving DecidableEq, Repr

/-- An item of `OTP_PROGRAM` (R37, R38): a per-site state, or a site's or a stack's repair record, which checks or not. -/
inductive OtpItem where
  | siteState (site value : Nat)
  | siteRepair (site slot : Nat) (valid : Bool)
  | hbmRepair (stack slot : Nat) (valid : Bool)
deriving DecidableEq, Repr, Inhabited

/-- An image in boot flash (R441): the directory's type and slot, the 512-byte header, the body. -/
structure BootImage where
  itype : Nat
  slot : Nat
  header : List Byte
  body : List Byte
deriving DecidableEq, Repr

/-- What a bring-up step finds outside the hub (R465, R476): rails in mV, VPP, boot flash, whether every torus link trains,
which stacks train, which sites a chiplet is present at, the peat slots' findings, and the step's length in ms. -/
structure BringUp where
  vinCoreMv : Nat := 1800
  vinIoMv : Nat := 1200
  vpp : Bool := false
  images : List BootImage := []
  links : Bool := true
  stackSet : Nat := 0xFFF
  present : Nat := 0
  peats : List (Option PeatStart) := []
  ms : Nat := 0
deriving DecidableEq, Repr

/-- A JTAG instruction (R519). -/
inductive JtagInstr where
  | bypass | idcode | sample | preload | extest
  | privateInstr (code : Nat)
deriving DecidableEq, Repr

/-- What the board controller asks over I3C (R518). -/
inductive BoardMsg where
  | temperature (sensor : Nat)
  | inputPower
  | rail (vinIo : Bool)
  | bootStatus
  | latched (index word : Nat)
  | provisionalId
  | other
deriving DecidableEq, Repr

end Sys2Proof
end

