-- ==== Sys2Proof/Syntax.lean ====
section
/-! DEFINITION. The commands of the block, one constructor per row of the opcode table; the operands stand in the order
in which the meaning takes them. -/

namespace Sys2Proof

/-- A command from outside the block, or an event of one of its engines. -/
inductive Instr where
  /-- INJECT_HEADER (R49). -/
  | injectHeader (src : Nat) (plane : Plane) (h : Header) (units : List Unit256)
  /-- ROUTER_ARBITRATE (R53). -/
  | routerArbitrate (router out : Nat) (plane : Plane)
  /-- ARBITRATION_STARVATION (R52). -/
  | arbitrationStarvation (router out : Nat) (plane : Plane)
  /-- ENDPOINT_DOWN (R59). -/
  | endpointDown (node : Nat) (cause : DownCause)
  /-- LINK_BEAT_RECEIVE (R55). -/
  | linkBeatReceive (router dir : Nat) (check : BeatCheck)
  /-- CREDIT_RETURN (R54). -/
  | creditReturn (buffer : Nat)
  /-- RESPONSE_ARRIVAL (R45). -/
  | responseArrival (node : Nat) (h : Header) (units : List Unit256) (clock age : Nat)
  /-- REGISTER_WRITE (R11). -/
  | registerWrite (fn page off width data : Nat)
  /-- BAD_ACCESS (R67). -/
  | badAccess (fn page off : Nat) (write : Bool)
  /-- UNASSIGNED_ACCESS (R66). -/
  | unassignedAccess (fn page off : Nat) (write : Bool)
  /-- PROGRESS_SHADOW_READ (R78). -/
  | progressShadowRead (fn page : Nat)
  /-- PROGRESS_UPPER_READ (R78). -/
  | progressUpperRead (fn page : Nat)
  /-- REG_RD (R70). -/
  | regRd (fn page off width : Nat)
  /-- REG_WR (R70). -/
  | regWr (fn page off width data : Nat)
  /-- ERR_RECORD (R70). -/
  | errRecord
  /-- IRQ_RAISE (R70). -/
  | irqRaise
  /-- MGMT_MSG (R70). -/
  | mgmtMsg (h : Header)
  /-- MGMT_BULK (R70). -/
  | mgmtBulk (h : Header) (units : List Unit256)
  /-- QUEUE_REPORT (R282). -/
  | queueReport (page : Nat) (occupancy : List Nat)
  /-- IRQ_STATUS_CLEAR (R74). -/
  | irqStatusClear (page mask : Nat)
  /-- IRQ_FORCE (R73). -/
  | irqForce (page mask : Nat)
  /-- ERR_SUMMARY_CLEAR (R75). -/
  | errSummaryClear (page mask : Nat)
  /-- PAGE_RESET (R82). -/
  | pageReset (page : Nat)
  /-- OP_ABORT (R79). -/
  | opAbort (page : Nat)
  /-- QUEUED_OP_START (R79). -/
  | queuedOpStart (page : Nat)
  /-- FEEDER_ISSUE (R90). -/
  | feederIssue (tile : Nat) (ready : Bool) (codes scales : List Nat)
  /-- STATIONARY_LOAD (R87). -/
  | stationaryLoad (tile : Nat) (rows scales : List (List Nat))
  /-- ACCUMULATOR_WRITE (R86). -/
  | accumulatorWrite (tile : Nat)
  /-- EPILOGUE_ROW (R92). -/
  | epilogueRow (tile : Nat)
  /-- THROTTLE_WINDOW (R97). -/
  | throttleWindow (tile : Nat) (vector : Bool)
  /-- PREEMPT_REQUEST (R98). -/
  | preemptRequest (tile : Nat)
  /-- ARRAY_DRAIN_DONE (R98). -/
  | arrayDrainDone (tile : Nat)
  /-- ARRAY_FROZEN (R99). -/
  | arrayFrozen (tile : Nat)
  /-- ARRAY_RESUME (R100). -/
  | arrayResume (tile : Nat) (slot : Option Nat)
  /-- ARRAY_FAULT (R101). -/
  | arrayFault (tile check row col accRow word : Nat)
  /-- TILE_FAULT_ASH (R102). -/
  | tileFaultAsh (tile : Nat)
  /-- SRAM_CORRECTED (R105). -/
  | sramCorrected (tile : Nat) (accumulator : Bool) (accRow word : Nat)
  /-- TILE_SELF_TEST (R105). -/
  | tileSelfTest (tile : Nat) (force : Bool)
  /-- SELF_TEST_END (R105). -/
  | selfTestEnd (tile : Nat) (passed : Bool)
  /-- DRAUGHT_FREEZE (R132). -/
  | draughtFreeze (fn ctx : Nat)
  /-- DRAUGHT_UNFREEZE (R132). -/
  | draughtUnfreeze (fn ctx : Nat)
  /-- DRAUGHT_OVERRIDE (R132). -/
  | draughtOverride (fn ctx value : Nat)
  /-- DRAUGHT_RESET_TAG (R132). -/
  | draughtResetTag (fn ctx : Nat)
  /-- RING_DOORBELL (R136). -/
  | ringDoorbell (fn ctx ring tail : Nat)
  /-- CQ_DOORBELL (R138). -/
  | cqDoorbell (fn ctx head : Nat)
  /-- RING_ENABLE (R135). -/
  | ringEnable (fn ctx ring log2Size : Nat)
  /-- RING_DISABLE (R140). -/
  | ringDisable (fn ctx ring : Nat)
  /-- RING_ABORT (R140). -/
  | ringAbort (fn ctx ring : Nat)
  /-- RING_CONFIG_WRITE (R135). -/
  | ringConfigWrite (fn ctx ring : Nat) (isBase : Bool) (value : Nat)
  /-- CQ_ENABLE (R135). -/
  | cqEnable (fn ctx log2Size : Nat) (irqEn : Bool)
  /-- CQ_DISABLE (R135). -/
  | cqDisable (fn ctx : Nat)
  /-- FENCE_VALUE (R141). -/
  | fenceValue (fn ctx num value : Nat) (error : Bool)
  /-- FENCE_ADD (R141). -/
  | fenceAdd (fn ctx num add : Nat)
  /-- DESCRIPTOR_FETCH (R137). -/
  | descriptorFetch (ctx : Nat)
  /-- FENCE_WAIT_SATISFIED (R142). -/
  | fenceWaitSatisfied (pass : Nat)
  /-- PIECE_DISPATCH (R157). -/
  | pieceDispatch (ctx exec : Nat)
  /-- PIECE_REISSUE (R492). -/
  | pieceReissue (ctx exec : Nat)
  /-- PASS_COMPLETE (R145). -/
  | passComplete (pass : Nat)
  /-- MATMUL (R166). -/
  | matmul (pass : Nat)
  /-- ATTEND (R170). -/
  | attend (pass : Nat)
  /-- VECTOR (R174). -/
  | vector (pass : Nat)
  /-- REDUCE (R176). -/
  | reduce (pass : Nat)
  /-- GATHER (R179). -/
  | gather (pass : Nat)
  /-- SCATTER (R180). -/
  | scatter (pass : Nat)
  /-- HISTO (R182). -/
  | histo (pass : Nat)
  /-- TREES (R186). -/
  | trees (pass : Nat)
  /-- CONVERT (R187). -/
  | convert (pass : Nat)
  /-- COPY (R188). -/
  | copy (pass : Nat)
  /-- LAYOUT (R189). -/
  | layout (pass : Nat)
  /-- COLLECTIVE (R190). -/
  | collective (pass : Nat)
  /-- KILN_PUT (R192). -/
  | kilnPut (pass : Nat)
  /-- KILN_TAKE (R193). -/
  | kilnTake (pass : Nat)
  /-- FENCE (R194). -/
  | fence (pass : Nat)
  /-- EMBER_POINT (R195). -/
  | emberPoint (pass : Nat)
  /-- RD (R218). -/
  | rd (h : Header)
  /-- WR (R218). -/
  | wr (h : Header) (units : List Unit256)
  /-- RD_NARROW (R219). -/
  | rdNarrow (h : Header)
  /-- WR_NARROW (R219). -/
  | wrNarrow (h : Header)
  /-- ADD_NARROW (R219). -/
  | addNarrow (h : Header)
  /-- FILL (R218). -/
  | fill (h : Header) (check : SectorCheck)
  /-- WRITEBACK (R218). -/
  | writeback (h : Header) (units : List Unit256)
  /-- MC_RD32 (R218). -/
  | mcRd32 (h : Header) (check : SectorCheck)
  /-- MC_WR32 (R218). -/
  | mcWr32 (h : Header) (add : Bool) (check : SectorCheck)
  /-- PATROL_SCRUB (R209). -/
  | patrolScrub (pa : Nat) (check : SectorCheck)
  /-- CE_THRESHOLD (R211). -/
  | ceThreshold (channel : Nat)
  /-- HBM_TEMP_READ (R220). -/
  | hbmTempRead (stack : Nat) (reading : Option Int)
  /-- HBM_THROTTLE_DECISION (R220). -/
  | hbmThrottleDecision (stack : Nat)
  /-- HBM_STACK_RETURN (R221). -/
  | hbmStackReturn (stack : Nat)
  /-- PERIODIC_RETRAIN (R222). -/
  | periodicRetrain (stack : Nat)
  /-- RETRAIN_PAUSE (R222). -/
  | retrainPause (channel : Nat)
  /-- RETRAIN_OVERRUN (R222). -/
  | retrainOverrun (channel : Nat)
  /-- CAL_TRIM_OVERRIDE (R222). -/
  | calTrimOverride (stack read write : Nat)
  /-- IMMEDIATE_RETRAIN (R234). -/
  | immediateRetrain (stack channel : Nat)
  /-- HBM_LANE_CHECK (R223). -/
  | hbmLaneCheck (stack channel failed : Nat)
  /-- CHANNEL_EVACUATION (R224). -/
  | channelEvacuation (stack channel : Nat)
  /-- EVACUATION_DEQUEUE (R224). -/
  | evacuationDequeue
  /-- EVAC_BLOCK_COPIED (R225). -/
  | evacBlockCopied (block : Nat) (lost : Option Nat)
  /-- EVAC_SWITCH (R225). -/
  | evacSwitch
  /-- PLACEMENT_INTERVAL (R231). -/
  | placementInterval (ctx : Nat)
  /-- MIGRATION_COPY_DONE (R232). -/
  | migrationCopyDone (ctx : Nat)
  /-- MIGRATION_INSTALL (R232). -/
  | migrationInstall (ctx : Nat)
  /-- PLACE_HOLD_HBM (R236). -/
  | placeHoldHbm (ctx region : Nat)
  /-- PLACE_HOLD_PEAT (R236). -/
  | placeHoldPeat (ctx region : Nat)
  /-- PLACE_RELEASE_HOLD (R236). -/
  | placeReleaseHold (ctx region : Nat)
  /-- WAY_MASK_WRITE (R217). -/
  | wayMaskWrite (ctx mask : Nat)
  /-- RD_SHARED (R243). -/
  | rdShared (h : Header)
  /-- RD_OWN (R243). -/
  | rdOwn (h : Header)
  /-- UPGRADE (R243). -/
  | upgrade (h : Header)
  /-- EVICT_CLEAN (R243). -/
  | evictClean (h : Header)
  /-- EVICT_DIRTY (R243). -/
  | evictDirty (h : Header) (units : List Unit256)
  /-- SNP_SHARED (R242). -/
  | snpShared (agent pa : Nat)
  /-- SNP_INV (R242). -/
  | snpInv (agent pa : Nat)
  /-- SNOOP_ANSWER (R243). -/
  | snoopAnswer (agent pa status state : Nat) (withData : Bool) (dirty : Nat) (data : List Byte)
  /-- FILL_DATA (R243). -/
  | fillData (pa status mask : Nat) (data : List Byte)
  /-- CORE_LOAD (R242). -/
  | coreLoad (core pa : Nat)
  /-- CORE_STORE (R242). -/
  | coreStore (core pa : Nat) (data : List Byte)
  /-- CORE_REPLACE (R242). -/
  | coreReplace (core pa : Nat)
  /-- GRANT (R242). -/
  | grant (agent pa status state : Nat) (withData : Bool) (data : List Byte)
  /-- EVICTION_ACK (R242). -/
  | evictionAck (agent pa : Nat)
  /-- HOLD_RELEASE (R246). -/
  | holdRelease (agent pa : Nat)
  /-- SNOOP_ANSWER_TIMEOUT (R247). -/
  | snoopAnswerTimeout (agent pa : Nat)
  /-- WALK_RD (R259). -/
  | walkRd (h : Header)
  /-- PTE_UPDATE (R257). -/
  | pteUpdate (h : Header)
  /-- XLATE_REQ (R259). -/
  | xlateReq (holder sub : Nat) (h : Header)
  /-- XLATE_INV (R267). -/
  | xlateInv (holder : Nat) (h : Header) (placement : Bool)
  /-- DIRTY_SET (R259). -/
  | dirtySet (holder sub : Nat) (h : Header)
  /-- RESUME (R259). -/
  | resume (holder : Nat) (h : Header)
  /-- COUNT_ADD (R272). -/
  | countAdd (h : Header)
  /-- FAULT_RESUME (R264). -/
  | faultResume (fn ctx id action : Nat)
  /-- INV_CMD (R266). -/
  | invCmd (fn ctx epoch signal : Nat) (signalEn : Bool)
  /-- INV_COMPLETE (R266). -/
  | invComplete (ctx : Nat)
  /-- XLATE_ROOT_WRITE (R274). -/
  | xlateRootWrite (fn ctx : Nat) (valid : Bool) (table : Nat)
  /-- FQ_ENABLE (R274). -/
  | fqEnable (fn ctx log2Size : Nat) (irqEn : Bool)
  /-- FQ_DISABLE (R274). -/
  | fqDisable (fn ctx : Nat)
  /-- FQ_DOORBELL (R274). -/
  | fqDoorbell (fn ctx head : Nat)
  /-- FAULT_TIMEOUT (R265). -/
  | faultTimeout (ctx id : Nat)
  /-- GUEST_INV_LATE (R268). -/
  | guestInvLate (site ctx epoch : Nat)
  /-- ROOT_SET (R273). -/
  | rootSet (ctx : Nat) (env : Envelope) (word : Nat)
  /-- INVALIDATE (R273). -/
  | invalidate (ctx : Nat) (env : Envelope) (base pages cmd : Nat)
  /-- SEALED_RESUME (R273). -/
  | sealedResume (ctx : Nat) (env : Envelope) (word : Nat)
  /-- PLACE_SET (R273). -/
  | placeSet (ctx : Nat) (env : Envelope) (present ctrl list cnt cmd : Nat)
  /-- RATE_RECOMPUTE (R281). -/
  | rateRecompute
  /-- QUEUE_STARVATION (R283). -/
  | queueStarvation (page queue : Nat)
  /-- GUARANTEE_WRITE (R285). -/
  | guaranteeWrite (ctx cls gbs : Nat)
  /-- RANGE_ENABLE_WRITE (R279). -/
  | rangeEnableWrite (range cls base : Nat)
  /-- CLASS_POOL_WRITE (R279). -/
  | classPoolWrite (value : Nat)
  /-- SLOT_BOUNDARY (R289). -/
  | slotBoundary (channel slot : Nat)
  /-- SEALED_RESPONSE_RELEASE (R302). -/
  | sealedResponseRelease (ctx tag age : Nat)
  /-- CTX_CREATE (R298). -/
  | ctxCreate (ctx : Nat)
  /-- CTX_SEAL (R300). -/
  | ctxSeal (ctx : Nat)
  /-- CTX_START (R297). -/
  | ctxStart (ctx : Nat)
  /-- CTX_PAUSE (R298). -/
  | ctxPause (ctx : Nat)
  /-- CTX_PARK (R298). -/
  | ctxPark (ctx : Nat)
  /-- CTX_RESUME (R298). -/
  | ctxResume (ctx : Nat)
  /-- CTX_END (R299). -/
  | ctxEnd (ctx : Nat)
  /-- ENDING_ASH_DONE (R299). -/
  | endingAshDone (ctx : Nat)
  /-- COPPICE_TILE (R310). -/
  | coppiceTile (ctx tile target : Nat) (park : Bool)
  /-- COPPICE_FRAMES (R310). -/
  | coppiceFrames (ctx first count target : Nat)
  /-- COPPICE_WAYS (R310). -/
  | coppiceWays (ctx first count target : Nat)
  /-- COPPICE_SITE (R310). -/
  | coppiceSite (ctx site target : Nat)
  /-- COPPICE_SESSION (R310). -/
  | coppiceSession (ctx session target : Nat)
  /-- COPPICE_KILN_ROUND (R310). -/
  | coppiceKilnRound (ctx handle target : Nat)
  /-- COPPICE_STEP_DONE (R310). -/
  | coppiceStepDone (ctx : Nat)
  /-- KEY_EXCHANGE (R305). -/
  | keyExchange (ctx : Nat) (env : Envelope) (nonce key : List Byte)
  /-- TENANT_START (R306). -/
  | tenantStart (ctx : Nat) (env : Envelope)
  /-- REPORT_REQ (R306). -/
  | reportReq (ctx : Nat) (env : Envelope) (nonce : List Byte)
  /-- TENANT_END (R299). -/
  | tenantEnd (ctx : Nat) (env : Envelope)
  /-- PARK_SET (R306). -/
  | parkSet (ctx : Nat) (env : Envelope) (word : Nat)
  /-- WINDOW_REKEY (R305). -/
  | windowRekey (ctx : Nat) (env : Envelope) (nonce key : List Byte)
  /-- LOG_REQ (R306). -/
  | logReq (ctx : Nat) (env : Envelope) (first : Nat)
  /-- OUT_ACK_RELEASE (R303). -/
  | outAckRelease (fn ctx : Nat) (release : Bool)
  /-- ASH_FRAMES (R316). -/
  | ashFrames (h : Header)
  /-- ASH_INVAL (R316). -/
  | ashInval (h : Header)
  /-- ASH_SRAM (R316). -/
  | ashSram (h : Header)
  /-- ASH_XLATE (R316). -/
  | ashXlate (h : Header)
  /-- ASH_WAYS (R316). -/
  | ashWays (h : Header)
  /-- KILN_POOL_ADD (R324). -/
  | kilnPoolAdd (engine first : Nat)
  /-- KILN_POOL_REMOVE (R324). -/
  | kilnPoolRemove (engine first : Nat)
  /-- KILN_JOIN (R329). -/
  | kilnJoin (ctx : Nat) (env : Envelope) (body : List Byte)
  /-- KILN_QUERY (R342). -/
  | kilnQuery (ctx : Nat) (env : Envelope) (head : List Byte)
  /-- KLN_SIG (R331). -/
  | klnSig (h : Header) (units : List Unit256)
  /-- KLN_OPEN (R332). -/
  | klnOpen (h : Header)
  /-- KLN_PART (R334). -/
  | klnPart (h : Header) (units : List Unit256)
  /-- KLN_PART_END (R336). -/
  | klnPartEnd (h : Header)
  /-- KLN_REL (R334). -/
  | klnRel (h : Header) (units : List Unit256)
  /-- KLN_REL_END (R341). -/
  | klnRelEnd (h : Header)
  /-- KLN_NOTICE (R335). -/
  | klnNotice (h : Header)
  /-- KILN_COMMIT (R336). -/
  | kilnCommit (engine : Nat)
  /-- KILN_NOISE_DONE (R341). -/
  | kilnNoiseDone (slot : Nat)
  /-- KILN_DEADLINE (R332). -/
  | kilnDeadline (slot : Nat)
  /-- KILN_MARGIN (R333). -/
  | kilnMargin (slot : Nat)
  /-- KILN_WAIT_EXPIRY (R332). -/
  | kilnWaitExpiry (slot : Nat)
  /-- KILN_RETAIN_EXPIRY (R335). -/
  | kilnRetainExpiry (slot : Nat)
  /-- KILN_SIG_RESEND (R334). -/
  | kilnSigResend (slot : Nat)
  /-- KILN_ROUND_ASH_DONE (R332). -/
  | kilnRoundAshDone (slot : Nat)
  /-- IDLE (R348). -/
  | idle (site : Nat) (f : Flit)
  /-- PACKET (R349). -/
  | packet (site clock : Nat) (f : Flit)
  /-- MGMT (R352). -/
  | mgmt (site : Nat) (f : Flit)
  /-- KPP_ACK_TIMER (R350). -/
  | kppAckTimer (site : Nat)
  /-- KPP_RETRAIN (R365). -/
  | kppRetrain (site : Nat)
  /-- HELLO (R354). -/
  | hello (site : Nat) (body : List Byte)
  /-- SPDM (R360). -/
  | spdm (site : Nat) (answer : SpdmAnswer)
  /-- CLEAR_DONE (R362). -/
  | clearDone (site gen : Nat)
  /-- PAUSED (R364). -/
  | paused (site : Nat)
  /-- PIECE_BEAT (R358). -/
  | pieceBeat (site id : Nat)
  /-- PIECE_DONE (R358). -/
  | pieceDone (site id status : Nat) (nonfinite saturated : Option (Nat × Nat)) (hist : List Nat)
  /-- REG_RSP (R357). -/
  | regRsp (site : Nat) (data : Option Nat)
  /-- PWR_ACK (R372). -/
  | pwrAck (site state : Nat)
  /-- KPP_ERROR (R353). -/
  | kppError (site severity code : Nat)
  /-- GUEST_REG_ACCESS (R357). -/
  | guestRegAccess (fn site off width : Nat) (write : Bool) (data : Nat)
  /-- GUEST_REG_TIMEOUT (R357). -/
  | guestRegTimeout (site : Nat)
  /-- PIECE_BEAT_TIMEOUT (R358). -/
  | pieceBeatTimeout (site : Nat)
  /-- STOP_BOUND_TIMEOUT (R364). -/
  | stopBoundTimeout (site : Nat)
  /-- CLEAR_BOUND_TIMEOUT (R362). -/
  | clearBoundTimeout (site : Nat)
  /-- SPDM_TIMEOUT (R361). -/
  | spdmTimeout (site : Nat)
  /-- SITE_START_TIMEOUT (R370). -/
  | siteStartTimeout (site : Nat)
  /-- LANE_FAILURE (R367). -/
  | laneFailure (site module dir lane : Nat)
  /-- SITE_RETURN (R370). -/
  | siteReturn (site : Nat) (present : Bool)
  /-- SITE_ATTEST (R361). -/
  | siteAttest (site : Nat) (force : Bool)
  /-- SITE_LANE_CHECK (R365). -/
  | siteLaneCheck (site : Nat) (force : Bool) (modes spares : List Nat) (rechosen : Nat)
  /-- SITE_RAIL_GOOD (R28). -/
  | siteRailGood (site mv : Nat)
  /-- SITE_RESET_RELEASE (R371). -/
  | siteResetRelease (site : Nat)
  /-- SITE_OVERCURRENT (R29). -/
  | siteOvercurrent (site : Nat)
  /-- SITE_UNDERVOLTAGE (R29). -/
  | siteUndervoltage (site : Nat)
  /-- GS_THERM (R371). -/
  | gsTherm (site : Nat)
  /-- SITE_IDLE (R372). -/
  | siteIdle (site : Nat)
  /-- CONFIG_REQUEST (R391). -/
  | configRequest (stream : Option Nat) (bus fn tag off : Nat) (write : Bool) (data be : Nat)
  /-- PF0_APERTURE_ACCESS (R380). -/
  | pf0ApertureAccess (stream : Option Nat) (tag off : Nat) (write : Bool) (len : Nat) (data : List Byte) (en : List Bool)
  /-- VF_APERTURE_ACCESS (R381). -/
  | vfApertureAccess (stream : Option Nat) (fn tag off : Nat) (write : Bool) (len : Nat) (data : List Byte) (en : List Bool)
  /-- INBOUND_UNSUPPORTED (R383). -/
  | inboundUnsupported (fn tag : Nat) (what : Unserved)
  /-- PT_RD (R385). -/
  | ptRd (port : Nat) (h : Header) (answer : CxlAnswer)
  /-- PT_WR (R385). -/
  | ptWr (port : Nat) (h : Header) (units : List Unit256) (answer : CxlAnswer)
  /-- PT_RD_NARROW (R385). -/
  | ptRdNarrow (port : Nat) (h : Header) (answer : CxlAnswer)
  /-- PT_WR_NARROW (R385). -/
  | ptWrNarrow (port : Nat) (h : Header) (answer : CxlAnswer)
  /-- PT_ADD_NARROW (R385). -/
  | ptAddNarrow (port : Nat) (h : Header) (answer : CxlAnswer)
  /-- HM_RD (R385). -/
  | hmRd (h : Header)
  /-- HM_WR (R387). -/
  | hmWr (h : Header) (units : List Unit256)
  /-- HM_RD_NARROW (R385). -/
  | hmRdNarrow (h : Header)
  /-- HM_WR_NARROW (R385). -/
  | hmWrNarrow (h : Header)
  /-- HM_ADD_NARROW (R385). -/
  | hmAddNarrow (h : Header)
  /-- HM_FLUSH (R387). -/
  | hmFlush (h : Header)
  /-- HOST_COMPLETION (R389). -/
  | hostCompletion (tag status : Nat) (poisoned : Bool) (byteCount lower : Nat) (data : List Byte)
  /-- COMPLETION_TIMEOUT (R389). -/
  | completionTimeout (tag : Nat)
  /-- TAG_QUARANTINE_END (R389). -/
  | tagQuarantineEnd (tag : Nat)
  /-- HOT_RESET (R390). -/
  | hotReset
  /-- HOST_LINK_DOWN (R390). -/
  | hostLinkDown
  /-- PF0_FLR (R390). -/
  | pf0Flr
  /-- VF_FLR (R390). -/
  | vfFlr (fn : Nat)
  /-- VF_ENABLE_CLEAR (R377). -/
  | vfEnableClear
  /-- NUMVFS_WRITE (R377). -/
  | numvfsWrite (value : Nat)
  /-- BAR_RESIZE (R378). -/
  | barResize (size : Nat)
  /-- IDE_INTEGRITY_FAILURE (R393). -/
  | ideIntegrityFailure (stream : Nat)
  /-- PTM_REQUEST (R394). -/
  | ptmRequest (delay : Nat)
  /-- DOE_REQUEST (R458). -/
  | doeRequest (req : DoeReq)
  /-- DOE_ABORT (R395). -/
  | doeAbort
  /-- MSIX_UNMASK (R384). -/
  | msixUnmask (fn vec : Nat)
  /-- PEAT_ENTER_SERVICE (R397). -/
  | peatEnterService (port : Nat) (found : Option PeatStart)
  /-- PEAT_FRAME_ASHED (R397). -/
  | peatFrameAshed (port : Nat)
  /-- PEAT_REMOVAL (R400). -/
  | peatRemoval (port : Nat)
  /-- SURPRISE_REMOVAL (R401). -/
  | surpriseRemoval (port cause : Nat)
  /-- PRESENCE_CHANGE (R399). -/
  | presenceChange (port : Nat) (present : Bool)
  /-- ATTN_BUTTON (R399). -/
  | attnButton (port : Nat)
  /-- PEAT_REQUEST_TIMEOUT (R398). -/
  | peatRequestTimeout (port : Nat)
  /-- EXPANDER_EVENT (R398). -/
  | expanderEvent (port : Nat)
  /-- PORT_MODE_WRITE (R406). -/
  | portModeWrite (port mode : Nat)
  /-- PORT_LINK_DOWN (R408). -/
  | portLinkDown (port : Nat)
  /-- PORT_LINK_UP (R408). -/
  | portLinkUp (port : Nat)
  /-- PORT_RETRAIN (R408). -/
  | portRetrain (port : Nat)
  /-- RETRAIN_DRAIN_DONE (R408). -/
  | retrainDrainDone (port left : Nat)
  /-- FRAME_RECEIVE (R425). -/
  | frameReceive (port : Nat) (f : Frame) (domain : Nat) (msg : PtpMsg) (full : Bool) (queued : Nat)
  /-- DATA (R412). -/
  | data (h : PlrHdr) (plane : Plane) (hd : Header) (units : List Unit256)
  /-- ACK (R421). -/
  | ack (h : PlrHdr)
  /-- INIT (R417). -/
  | init (hs : Handshake)
  /-- RESP (R417). -/
  | resp (session : Nat) (hs : Handshake)
  /-- REKEY (R418). -/
  | rekey (h : PlrHdr) (nonce key : List Byte)
  /-- REKEY_ACK (R418). -/
  | rekeyAck (h : PlrHdr) (nonce key : List Byte)
  /-- FIN (R419). -/
  | fin (h : PlrHdr)
  /-- FIN_ACK (R419). -/
  | finAck (h : PlrHdr)
  /-- INIT_RESEND (R417). -/
  | initResend (session : Nat)
  /-- HANDSHAKE_TIMEOUT (R417). -/
  | handshakeTimeout (session : Nat)
  /-- RTO_EXPIRY (R421). -/
  | rtoExpiry (session pn : Nat)
  /-- TRANSPORT_ACK_TIMER (R421). -/
  | transportAckTimer (session : Nat)
  /-- CC_UPDATE (R422). -/
  | ccUpdate (session : Nat)
  /-- CLOSING_TIMEOUT (R419). -/
  | closingTimeout (session : Nat)
  /-- REKEY_TRIGGER (R418). -/
  | rekeyTrigger (session : Nat)
  /-- KEY_LIMIT (R418). -/
  | keyLimit (session : Nat)
  /-- OLD_PHASE_EXPIRY (R418). -/
  | oldPhaseExpiry (session : Nat)
  /-- RM_RD (R423). -/
  | rmRd (fromPeer : Bool) (session : Nat) (h : Header)
  /-- RM_WR (R423). -/
  | rmWr (fromPeer : Bool) (session : Nat) (h : Header) (units : List Unit256)
  /-- RM_RD32 (R423). -/
  | rmRd32 (fromPeer : Bool) (session : Nat) (h : Header)
  /-- RM_WR32 (R423). -/
  | rmWr32 (fromPeer : Bool) (session : Nat) (h : Header)
  /-- COLL_DATA (R423). -/
  | collData (session group seq rank shape offset : Nat) (total : Option Nat) (units : List Unit256)
  /-- KILN_SESSION_BIND (R414). -/
  | kilnSessionBind (index : Nat)
  /-- KILN_SESSION_RELEASE (R414). -/
  | kilnSessionRelease (index : Nat)
  /-- SESSION_CFG_WRITE (R414). -/
  | sessionCfgWrite (session word value : Nat)
  /-- GROUP_CFG_WRITE (R424). -/
  | groupCfgWrite (handle value : Nat)
  /-- PPS_IN_EDGE (R428). -/
  | ppsInEdge (rawPs : Int)
  /-- PPS_MISSED (R428). -/
  | ppsMissed
  /-- HOLDOVER_ENTRY (R429). -/
  | holdoverEntry
  /-- LOCK_ACHIEVED (R429). -/
  | lockAchieved
  /-- PHASE_JUMP (R430). -/
  | phaseJump
  /-- TIMEBASE_STEP (R430). -/
  | timebaseStep
  /-- TIME_EPOCH (R433). -/
  | timeEpoch
  /-- TB_SET (R428). -/
  | tbSet (ns sec : Nat)
  /-- TB_CAPTURE (R439). -/
  | tbCapture
  /-- TB_SOURCE_WRITE (R429). -/
  | tbSourceWrite (source : Nat)
  /-- PTP_MESSAGE (R431). -/
  | ptpMessage (port domain : Nat) (l2 : Bool) (msg : PtpMsg)
  /-- PTP_SYNC_TIMER (R431). -/
  | ptpSyncTimer (port : Nat)
  /-- GUEST_TIME_MESSAGE (R434). -/
  | guestTimeMessage (site : Nat)
  /-- PPS_OUT_PULSE (R435). -/
  | ppsOutPulse (high : Bool)
  /-- EXTEND (R445). -/
  | extend (len arg : Nat)
  /-- ROLLBACK_COMMIT (R462). -/
  | rollbackCommit (len arg : Nat)
  /-- TRANSITION (R454). -/
  | transition (len : Nat) (lost : Option Nat)
  /-- DEBUG_POLICY (R457). -/
  | debugPolicy (len : Nat)
  /-- REVOKE_KEY (R453). -/
  | revokeKey (len : Nat)
  /-- DEBUG_TOKEN (R460). -/
  | debugToken (len : Nat)
  /-- OTP_PROGRAM (R37). -/
  | otpProgram (item : OtpItem)
  /-- GET_CERT (R462). -/
  | getCert (len : Nat)
  /-- DEBUG_ERASE (R459). -/
  | debugErase
  /-- DEBUG_NEW_NONCE (R460). -/
  | debugNewNonce
  /-- POWER_ON (R475). -/
  | powerOn
  /-- VAUX_LOSS (R32). -/
  | vauxLoss
  /-- PERST_ASSERT (R475). -/
  | perstAssert
  /-- RAIL_LOSS (R467). -/
  | railLoss (vinIo : Bool)
  /-- RAILS_RESTORED (R475). -/
  | railsRestored
  /-- BRINGUP_STEP (R476). -/
  | bringupStep (b : BringUp)
  /-- PLL_LOCK_LOSS (R479). -/
  | pllLockLoss (pll : Nat)
  /-- PLL_RELOCK (R479). -/
  | pllRelock (pll : Nat)
  /-- TILE_SETPOINT_LOOP (R471). -/
  | tileSetpointLoop (tile slack : Nat)
  /-- DROOP_DETECT (R471). -/
  | droopDetect (tile : Nat)
  /-- POWER_LIMIT_DECISION (R473). -/
  | powerLimitDecision (inputW tileDynW : Nat)
  /-- TILE_IDLE_GATE (R470). -/
  | tileIdleGate (tile : Nat)
  /-- PERIODIC_SELF_TEST (R481). -/
  | periodicSelfTest
  /-- TEMP_SAMPLE (R30). -/
  | tempSample (readings : List Int)
  /-- ERRLOG_ENABLE (R489). -/
  | errlogEnable (log2Size : Nat)
  /-- ERRLOG_DISABLE (R489). -/
  | errlogDisable
  /-- ERRLOG_DOORBELL (R489). -/
  | errlogDoorbell (head : Nat)
  /-- ERRQ_ENABLE (R489). -/
  | errqEnable (ctx log2Size : Nat) (irqEn : Bool)
  /-- ERRQ_DISABLE (R489). -/
  | errqDisable (ctx : Nat)
  /-- ERRQ_DOORBELL (R489). -/
  | errqDoorbell (ctx head : Nat)
  /-- ERR_LATCH_CLEAR (R506). -/
  | errLatchClear
  /-- WATCHDOG_EXPIRY (R494). -/
  | watchdogExpiry (core : Nat)
  /-- CORE_RESTART (R494). -/
  | coreRestart (core : Nat)
  /-- CORE_RESTART_DONE (R494). -/
  | coreRestartDone (core ms : Nat)
  /-- EMBER_JOURNAL_START (R498). -/
  | emberJournalStart (ctx : Nat)
  /-- EMBER_JOURNAL_STOP (R499). -/
  | emberJournalStop (ctx : Nat)
  /-- EMBER_PROMOTE_OP (R504). -/
  | emberPromoteOp (ctx : Nat)
  /-- EMBER_SET (R505). -/
  | emberSet (ctx : Nat) (env : Envelope) (cfg log : Nat)
  /-- EMBER_START (R505). -/
  | emberStart (ctx : Nat) (env : Envelope)
  /-- EMBER_STOP (R505). -/
  | emberStop (ctx : Nat) (env : Envelope)
  /-- EMBER_PROMOTE (R505). -/
  | emberPromote (ctx : Nat) (env : Envelope)
  /-- EMBER_STREAM (R500). -/
  | emberStream (ctx va : Nat)
  /-- EMB_DATA (R500). -/
  | embData (h : Header) (units : List Unit256)
  /-- EMB_STATE (R501). -/
  | embState (h : Header) (units : List Unit256)
  /-- EMB_COMMIT (R501). -/
  | embCommit (h : Header)
  /-- EMB_ACK (R501). -/
  | embAck (h : Header)
  /-- EMBER_APPLY (R501). -/
  | emberApply (ctx : Nat)
  /-- I3C_MCTP_MESSAGE (R518). -/
  | i3cMctpMessage (msg : BoardMsg)
  /-- JTAG_INSTRUCTION (R519). -/
  | jtagInstruction (instr : JtagInstr)
  /-- PERST_DEASSERT (R477). -/
  | perstDeassert
  /-- HOST_LINK_UP (R403). -/
  | hostLinkUp (rate width : Nat) (flit : Bool)
  /-- SITE_SIDEBAND_UP (R371). -/
  | siteSidebandUp (site : Nat)
  /-- SITE_LINK_TRAINED (R371). -/
  | siteLinkTrained (site rate : Nat) (modes spares : List Nat) (rechosen : Nat)
  /-- REF10M_IN_CHANGE (R429). -/
  | ref10mInChange (present : Bool)
  /-- CORE_SRAM_ERROR (R494). -/
  | coreSramError (core : Nat)
  /-- IN_POST_DISCARD (R304). -/
  | inPostDiscard (ctx : Nat) (env : Envelope)
  /-- RETRAIN_END (R222). -/
  | retrainEnd (channel read write : Nat)
  /-- PEAT_IDE_FAILURE (R405). -/
  | peatIdeFailure (port : Nat)
deriving DecidableEq, Repr

end Sys2Proof
end

