-- ==== Sys2Proof/Decode.lean ====
section
/-! DEFINITION. The words of commands. The opcode table gives no row any bits: the block has no instruction decoder, and a
command arrives with its operands. -/

namespace Sys2Proof

/-- The command a word spells by the table's bits: no row has bits, so no word spells one. -/
def decodeTableWord (_nbits _w : Nat) : Option Instr := none

end Sys2Proof
end

