-- ==== Sys2Proof/Config.lean ====
section
/-! DEFINITION. What the spec leaves open or to mathematics outside it: the free values and the
uninterpreted functions. None has a body, so no proof can see a value (log entries 2 to 4). -/

namespace Sys2Proof.Config

/-- A free number, by the state's counter of free values: keys, nonces, IDs drawn from the DRBG. -/
opaque freeNat : Nat → Nat

/-- A free byte by counter and position: random message bytes, park images, noise. -/
opaque freeByte : Nat → Nat → Byte

/-- What a byte of memory reads as after its frame has been ashed or all memory wiped, until it is
written (R208): by wipes of all memory, ashes of the frame, and address. -/
opaque ashByte : Nat → Nat → Nat → Byte

/-- How far a bounded function lands from the nearest code, in units in the last place, by counter,
position and input (R165, R172, R175): limited to the stated bound where it is used. -/
opaque ulpOffset : Nat → Nat → Nat → Int

/-- A free FP32 code by counter and position, taken for a sum only where it meets the spec's bound
(R126, R172, R177). -/
opaque freeF32 : Nat → Nat → Nat

/-- SHA-512 of a message (R308, R445), as a number of 512 bits. -/
opaque sha512 : List Byte → Nat

/-- ECDSA P-521 verification: key (as its hash or slot material), message, signature (R446). -/
opaque ecdsaVerify : List Byte → List Byte → List Byte → Bool

/-- An ECDSA P-521 signature of the hub by a key number over a message: 132 bytes. -/
opaque ecdsaSign : Nat → List Byte → List Byte

/-- The public key of the leaf certificate of a chain (R360). -/
opaque chainKey : List Byte → List Byte

/-- The SHA-512 hash of the root certificate of a chain (R360). -/
opaque chainRoot : List Byte → Nat

/-- What an SPDM 1.3 message of a guest says, by that standard's formats (R360). -/
opaque spdmAnswer : List Byte → SpdmAnswer

/-- Whether an AES-256-GCM tag verifies under key material, nonce, associated data and text (R304, R413). -/
opaque gcmVerify : Nat → Nat → List Byte → List Byte → Bool

/-- The plaintext of an AES-256-GCM text under key material and nonce. -/
opaque gcmOpen : Nat → Nat → List Byte → List Byte

/-- An AES-256-GCM text with its 16-byte tag under key material, nonce and associated data, of a plaintext. -/
opaque gcmSeal : Nat → Nat → List Byte → List Byte → List Byte

/-- Key material derived from a shared secret (HKDF-SHA-512 over ECDH P-521): own secret number, the
peer's public key, salt and label number (R305, R417). -/
opaque deriveKeys : Nat → List Byte → List Byte → Nat → Nat

/-- The public key of an ephemeral secret: 133 bytes (R305). -/
opaque publicKey : Nat → List Byte

/-- The hub's forwarding hash over a frame's flow (R425). -/
opaque flowHash : List Byte → Nat

/-- The hub's slot 0 certificate chain for an attestation key (R447, R458). -/
opaque certChain : List Byte → List Byte

/-- SHA-512 hashes of the vendor keys that stack test wrote into OTP, by slot (R446). -/
opaque vendorKey : Nat → Nat

/-- SHA-512 of the Kindling ROM (R445). -/
opaque kindlingHash : Nat

/-- The device identity public key (R447) and the Device Serial Number (R378). -/
opaque identityKey : List Byte
opaque deviceSerial : Nat

/-- The times of the Readiness Time Reporting capability as PCIe encodes them (R378). -/
opaque readinessTimes : Nat

/-- The item a mailbox body of `OTP_PROGRAM` spells: the spec gives the body no layout (R462). -/
opaque otpBody : List Byte → OtpItem

/-- Phases of a switched domain for which the spec gives no number (R468). -/
opaque domainPhases : Nat → Nat

end Sys2Proof.Config
end

