-- ==== Sys2Proof/Machine/Bits.lean ====
section
/-! DEFINITION. Bit fields of numbers, sign extension, byte order, and sparse tables. -/

namespace Sys2Proof

/-- The entry of a sparse table at `k`: the listed one, else the default `d`. -/
def Tab.get {α : Type} (d : α) : Tab α → Nat → α
  | [], _ => d
  | (j, v) :: t, k => if j = k then v else if k < j then d else Tab.get d t k

/-- Removes the entry at `k`, keeping the order. In a table in order no entry behind it has a key as small. -/
def Tab.del {α : Type} : Tab α → Nat → Tab α
  | [], _ => []
  | (j, v) :: t, k => if j = k then t.dropWhile (fun e => decide (e.1 ≤ k)) else if k < j then (j, v) :: t else (j, v) :: Tab.del t k

/-- Lists `v` at `k`, in order, whatever `v` is. -/
def Tab.ins {α : Type} : Tab α → Nat → α → Tab α
  | [], k, v => [(k, v)]
  | (j, w) :: t, k, v =>
    if j = k then (k, v) :: t else if k < j then (k, v) :: (j, w) :: t else (j, w) :: Tab.ins t k v

/-- Sets the entry at `k`: an entry equal to the default is not listed. -/
def Tab.put {α : Type} [DecidableEq α] (d : α) (t : Tab α) (k : Nat) (v : α) : Tab α :=
  if v = d then Tab.del t k else Tab.ins t k v

/-- Applies `f` to the entry at `k`. -/
def Tab.mod {α : Type} [DecidableEq α] (d : α) (t : Tab α) (k : Nat) (f : α → α) : Tab α :=
  Tab.put d t k (f (Tab.get d t k))

/-- The keys of a table rise strictly and all exceed `lb`. -/
def Tab.sortedFrom {α : Type} : Nat → Tab α → Bool
  | _, [] => true
  | lb, (j, _) :: t => decide (lb ≤ j) && Tab.sortedFrom (j + 1) t

/-- The keys of a table rise strictly: its canonical order. -/
def Tab.wf {α : Type} (t : Tab α) : Bool := Tab.sortedFrom 0 t

/-- Bits [hi:lo] of a number (R9's way of writing bit ranges). -/
def bits (n hi lo : Nat) : Nat := (n >>> lo) % 2 ^ (hi + 1 - lo)

/-- Bit i of a number, 0 or 1. -/
def bit (n i : Nat) : Nat := (n >>> i) % 2

/-- Bit i of a number is 1. -/
def tst (n i : Nat) : Bool := (n >>> i) % 2 = 1

/-- The number with bit i set. -/
def setBit (n i : Nat) : Nat := n ||| (1 <<< i)

/-- The number with bit i cleared. -/
def clrBit (n i : Nat) : Nat := if tst n i then n - 1 <<< i else n

/-- 1 for true, 0 for false. -/
def b2n (b : Bool) : Nat := if b then 1 else 0

/-- The set bits of `n` below `w`, lowest first. -/
def setBits (n w : Nat) : List Nat := (List.range w).filter (tst n)

/-- How many of the low `w` bits of `n` are set. -/
def popCount (n w : Nat) : Nat := (setBits n w).length

/-- The two's complement value of a `w`-bit number. -/
def sext (w n : Nat) : Int := if n < 2 ^ (w - 1) then (n : Int) else (n : Int) - (2 ^ w : Nat)

/-- The `w`-bit two's complement code of an integer. -/
def tc (w : Nat) (i : Int) : Nat := (i % (2 ^ w : Nat)).toNat

/-- `x` limited to the range from `lo` to `hi`. -/
def clampI (lo hi x : Int) : Int := if x < lo then lo else if hi < x then hi else x

/-- `n` bytes of a number, least significant first. -/
def leBytes : Nat → Nat → List Byte
  | 0, _ => []
  | n + 1, v => BitVec.ofNat 8 v :: leBytes n (v / 256)

/-- The number that bytes spell, least significant first. -/
def ofBytes : List Byte → Nat
  | [] => 0
  | b :: t => b.toNat + 256 * ofBytes t

/-- `n` bytes of a list from offset `o`, zero beyond its end. -/
def slice (l : List Byte) (o n : Nat) : List Byte :=
  (List.range n).map (fun i => (l.drop (o + i)).headD 0)

/-- The little-endian number in `n` bytes of a list at offset `o`. -/
def leAt (l : List Byte) (o n : Nat) : Nat := ofBytes (slice l o n)

/-- Little-endian 64-bit word `i` of a list of bytes. -/
def word64 (l : List Byte) (i : Nat) : Nat := leAt l (8 * i) 8

/-- The bytes of a list of 64-bit words. -/
def ofWords (ws : List Nat) : List Byte := (ws.map (leBytes 8)).flatten

/-- The first element of a list that satisfies `p`, and the list without it. -/
def takeFirst {α : Type} (p : α → Bool) : List α → Option (α × List α)
  | [] => none
  | a :: t => if p a then some (a, t) else (takeFirst p t).map (fun r => (r.1, a :: r.2))

/-- The list with its element i replaced by `f` of it. -/
def modAt {α : Type} : List α → Nat → (α → α) → List α
  | [], _, _ => []
  | a :: t, 0, f => f a :: t
  | a :: t, i + 1, f => a :: modAt t i f

/-- Adds an element at the end unless it is listed already. -/
def addNew {α : Type} [DecidableEq α] (l : List α) (a : α) : List α := if a ∈ l then l else l ++ [a]

/-- Puts a number into a rising list. -/
def insertNat (x : Nat) : List Nat → List Nat
  | [] => [x]
  | y :: t => if x ≤ y then x :: y :: t else y :: insertNat x t

/-- The numbers of a list in rising order. -/
def sortNat (l : List Nat) : List Nat := l.foldr insertNat []

/-- `n` rounded up to a multiple of `m`, divided by `m`. -/
def ceilDiv (n m : Nat) : Nat := (n + m - 1) / m

end Sys2Proof
end

