-- ==== Sys2Proof/Machine/Numerics.lean ====
section
/-! DEFINITION. Number formats and numeric behaviour (R108 to R127): decoding, exact products and
sums, the one rounding mode, conversion with its flags, block scales, the histogram bins. -/

namespace Sys2Proof.Num

/-- A value that an operand, an accumulator or a result holds: a NaN (R110), an infinity, or exactly
plus or minus `mag` times 2 to the power `exp` (zeros keep their sign). -/
inductive Val where
  | nan
  | inf (neg : Bool)
  | fin (neg : Bool) (mag : Nat) (exp : Int)
deriving DecidableEq, Repr

/-- Positive zero. -/
def Val.zero : Val := .fin false 0 0

/-- The exact value of an integer. -/
def ofInt (i : Int) : Val := .fin (decide (i < 0)) i.natAbs 0

/-- The shape of a floating-point format (R109): exponent and mantissa bits, bias, the largest finite
code without its sign, and whether infinities and NaNs are encoded. -/
structure FloatFmt where
  ebits : Nat
  mbits : Nat
  bias : Nat
  maxCode : Nat
  hasInf : Bool
  hasNan : Bool
deriving DecidableEq, Repr

def fp32 : FloatFmt := ⟨8, 23, 127, 0x7F7FFFFF, true, true⟩
def bf16 : FloatFmt := ⟨8, 7, 127, 0x7F7F, true, true⟩
def fp16 : FloatFmt := ⟨5, 10, 15, 0x7BFF, true, true⟩
def e4m3 : FloatFmt := ⟨4, 3, 7, 0x7E, false, true⟩
def e5m2 : FloatFmt := ⟨5, 2, 15, 0x7B, true, true⟩
def e3m2 : FloatFmt := ⟨3, 2, 3, 0x1F, false, false⟩
def e2m3 : FloatFmt := ⟨2, 3, 1, 0x1F, false, false⟩
def e2m1 : FloatFmt := ⟨2, 1, 1, 0x7, false, false⟩

/-- The floating-point shape of a format code (R108); none for the integer formats and reserved codes. -/
def floatOf : Nat → Option FloatFmt
  | 0x0 => some fp32 | 0x1 => some bf16 | 0x2 => some fp16
  | 0x3 | 0x5 => some e4m3 | 0x4 | 0x6 => some e5m2
  | 0x7 => some e3m2 | 0x8 => some e2m3 | 0x9 => some e2m1
  | _ => none

/-- Element bits of a format code (R108); 0 for reserved codes. -/
def elemBits : Nat → Nat
  | 0x0 | 0xC => 32 | 0x1 | 0x2 => 16
  | 0x3 | 0x4 | 0x5 | 0x6 | 0xA | 0xB | 0xD => 8
  | 0x7 | 0x8 => 6 | 0x9 => 4 | _ => 0

/-- The formats with an E8M0 scale per block of 32 (R108). -/
def isMX (f : Nat) : Bool := decide (0x5 ≤ f) && decide (f ≤ 0xA)

/-- The exponent of the least bit of the subnormals of a format: the weight of one step near zero. -/
def FloatFmt.qmin (f : FloatFmt) : Int := 1 - (f.bias : Int) - f.mbits

/-- Reads an element of a floating-point format (R109, R110). -/
def FloatFmt.decode (f : FloatFmt) (code : Nat) : Val :=
  let neg := tst code (f.ebits + f.mbits)
  let c := code % 2 ^ (f.ebits + f.mbits)
  let e := c >>> f.mbits
  let m := c % 2 ^ f.mbits
  if f.maxCode < c then
    if f.hasInf && m == 0 then .inf neg else if f.hasNan then .nan else .fin neg m f.qmin
  else if e = 0 then .fin neg m f.qmin
  else .fin neg (2 ^ f.mbits + m) (f.qmin + e - 1)

/-- Reads an element, its block scale apart (R109). MXINT8 elements weigh 2 to the power -6. -/
def decode (fmt code : Nat) : Val :=
  match floatOf fmt with
  | some f => f.decode code
  | none =>
    if fmt = 0xA then
      let i := sext 8 (code % 256); .fin (decide (i < 0)) i.natAbs (-6)
    else if fmt = 0xB then ofInt (sext 8 (code % 256))
    else if fmt = 0xC then ofInt (sext 32 (code % 2 ^ 32))
    else ofInt (code % 256 : Nat)

/-- Exact multiplication by 2 to the power k. -/
def scaleBy (k : Int) : Val → Val
  | .fin n m e => .fin n m (e + k)
  | v => v

/-- Applies an E8M0 block scale code to an element (R111, R113). -/
def applyScale (code : Nat) (v : Val) : Val :=
  if code = 0xFF then .nan else scaleBy ((code : Int) - 127) v

/-- The value with its sign changed. -/
def neg : Val → Val
  | .nan => .nan
  | .inf n => .inf (!n)
  | .fin n m e => .fin (!n) m e

/-- The magnitude of a value. -/
def abs : Val → Val
  | .nan => .nan
  | .inf _ => .inf false
  | .fin _ m e => .fin false m e

/-- The value is a zero of either sign. -/
def isZero : Val → Bool
  | .fin _ 0 _ => true
  | _ => false

/-- The exact product (R114). -/
def mul : Val → Val → Val
  | .nan, _ => .nan
  | _, .nan => .nan
  | .inf a, .inf b => .inf (a ^^ b)
  | .inf a, .fin b m _ => if m = 0 then .nan else .inf (a ^^ b)
  | .fin a m _, .inf b => if m = 0 then .nan else .inf (a ^^ b)
  | .fin a m e, .fin b n f => .fin (a ^^ b) (m * n) (e + f)

/-- A finite value as an integer multiple of 2 to the power q, for q no greater than its exponent. -/
def atExp (neg : Bool) (m : Nat) (e q : Int) : Int :=
  let x : Int := (m <<< (e - q).toNat : Nat)
  if neg then -x else x

/-- The exact sum (R114): NaN of opposite infinities, and -0 only from two -0. -/
def add : Val → Val → Val
  | .nan, _ => .nan
  | _, .nan => .nan
  | .inf a, .inf b => if a = b then .inf a else .nan
  | .inf a, _ => .inf a
  | _, .inf b => .inf b
  | .fin a m e, .fin b n f =>
    let q := min e f
    let x := atExp a m e q + atExp b n f q
    if x = 0 then .fin (a && b && m == 0 && n == 0) 0 0 else .fin (decide (x < 0)) x.natAbs q

/-- The exact sum of a list; an empty sum is +0. -/
def sum : List Val → Val
  | [] => .zero
  | v :: t => t.foldl add v

/-- Exact comparison of two values that are not NaN: less than. -/
def lt : Val → Val → Bool
  | .nan, _ => false
  | _, .nan => false
  | .inf a, .inf b => a && !b
  | .inf a, _ => a
  | _, .inf b => !b
  | .fin a m e, .fin b n f =>
    let q := min e f
    decide (atExp a m e q < atExp b n f q)

/-- Equal in value, neither being NaN (both zeros are equal). -/
def eqv (a b : Val) : Bool :=
  match a, b with
  | .nan, _ => false
  | _, .nan => false
  | a, b => !lt a b && !lt b a

/-- The integer nearest to `mag` times 2^(e - q), ties to even (R119). -/
def rne (mag : Nat) (e q : Int) : Nat :=
  if q ≤ e then mag <<< (e - q).toNat
  else
    let sh := (q - e).toNat
    let fl := mag >>> sh
    let rem := mag - (fl <<< sh)
    let half := 1 <<< (sh - 1)
    if half < rem ∨ (rem = half ∧ fl % 2 = 1) then fl + 1 else fl

/-- floor(log2) of `mag` times 2^e, for `mag` not zero. -/
def ilog (mag : Nat) (e : Int) : Int := (Nat.log2 mag : Int) + e

/-- Rounds to nearest even at `p` significant bits, with an unbounded exponent (R116's wide accumulator). -/
def roundSig (p : Nat) : Val → Val
  | .fin n m e =>
    if m = 0 then .fin n 0 0
    else let q := ilog m e - (p - 1 : Nat); .fin n (rne m e q) q
  | v => v

/-- The code, without its sign, nearest to a magnitude in a format whose exponent is not bounded above
(R119): a code above the format's largest finite code is out of range. -/
def FloatFmt.roundCode (f : FloatFmt) (m : Nat) (e : Int) : Nat :=
  if m = 0 then 0
  else
    let q := max (ilog m e - f.mbits) f.qmin
    let n := rne m e q
    if n < 2 ^ f.mbits then n else (q - f.qmin).toNat * 2 ^ f.mbits + n

/-- The canonical NaN of a format (R110). -/
def canonNan : Nat → Nat
  | 0x0 => 0x7FC00000 | 0x1 => 0x7FC0 | 0x2 => 0x7E00 | 0x3 | 0x5 => 0x7F | 0x4 | 0x6 => 0x7E | _ => 0

/-- What a conversion gives: the element code and the two flags of R123. -/
structure Conv where
  code : Nat
  nonfinite : Bool := false
  saturated : Bool := false
deriving DecidableEq, Repr

/-- The sign bit of a code of `w` bits. -/
def signed (w : Nat) (n : Bool) (c : Nat) : Nat := if n then c + 2 ^ (w - 1) else c

/-- Rounds to an integer and limits it to `lo`..`hi` (R121: the integer targets always saturate). -/
def convInt (w : Nat) (lo hi : Int) (q : Int) : Val → Conv
  | .nan => ⟨0, true, false⟩
  | .inf n => ⟨tc w (if n then lo else hi), true, true⟩
  | .fin n m e =>
    let x : Int := if n then -(rne m e q : Int) else rne m e q
    ⟨tc w (clampI lo hi x), false, decide (x < lo ∨ hi < x)⟩

/-- The code of an infinity where the format has one, its NaN otherwise (R121, R122). -/
def infCode (fmt : Nat) (f : FloatFmt) (n : Bool) : Nat :=
  if f.hasInf then signed (elemBits fmt) n ((2 ^ f.ebits - 1) * 2 ^ f.mbits) else canonNan fmt

/-- Converts a value to an element of the format, `sat` being the output mode (R119, R121, R122). For an
MX format the value is the one already divided by its block's scale. -/
def convert (fmt : Nat) (sat : Bool) (v : Val) : Conv :=
  match floatOf fmt with
  | some f =>
    match v with
    | .nan => ⟨canonNan fmt, true, false⟩
    | .inf n => ⟨infCode fmt f n, true, false⟩
    | .fin n m e =>
      let c := f.roundCode m e
      if c ≤ f.maxCode then ⟨signed (elemBits fmt) n c, false, false⟩
      else if !f.hasNan then ⟨signed (elemBits fmt) n f.maxCode, false, true⟩
      else if sat then ⟨signed (elemBits fmt) n f.maxCode, false, true⟩
      else ⟨infCode fmt f n, true, false⟩
  | none =>
    if fmt = 0xA then convInt 8 (-128) 127 (-6) v
    else if fmt = 0xC then convInt 32 (-(2 ^ 31)) (2 ^ 31 - 1) 0 v
    else if fmt = 0xD then convInt 8 0 255 0 v
    else convInt 8 (-128) 127 0 v

/-- The value of an FP32 code. -/
def ofF32 (c : Nat) : Val := fp32.decode c

/-- The FP32 code nearest to a value, with IEEE overflow (R119). -/
def toF32 (v : Val) : Nat := (convert 0 false v).code

/-- A value rounded once to FP32, with IEEE overflow. -/
def round32 (v : Val) : Val := ofF32 (toF32 v)

/-- The emax of an MX element format (R109). -/
def emaxOf : Nat → Int
  | 0x5 => 8 | 0x6 => 15 | 0x7 => 4 | 0x8 => 2 | 0x9 => 2 | _ => 0

/-- A magnitude rounded to the element format exceeds its largest finite value (R120). -/
def mxExceeds (fmt m : Nat) (e : Int) : Bool :=
  match floatOf fmt with
  | some f => decide (f.maxCode < f.roundCode m e)
  | none => decide (127 < rne m e (-6))

/-- The larger of the largest magnitude so far and a value's, NaN and Inf taking no part (R120). -/
def maxMag (a : Nat × Int) : Val → Nat × Int
  | .fin _ m e => if lt (.fin false a.1 a.2) (.fin false m e) then (m, e) else a
  | _ => a

/-- The exponent X of a block's scale (R120), from the block's values. -/
def blockExp (fmt : Nat) (vs : List Val) : Int :=
  let a := vs.foldl maxMag (0, 0)
  if a.1 = 0 then 0
  else
    let x := ilog a.1 a.2 - emaxOf fmt
    let x := if mxExceeds fmt a.1 (a.2 - x) then x + 1 else x
    clampI (-127) 127 x

/-- Whether a value has no encoding in the elements of an MX format (R122), so the block is written NaN. -/
def blockNan (fmt : Nat) (vs : List Val) : Bool :=
  decide (0x7 ≤ fmt) && vs.any (fun v => match v with | .fin .. => false | _ => true)

/-- Converts a block of up to 32 values to an MX format (R120 to R122): the scale code and the elements. -/
def convBlock (fmt : Nat) (sat : Bool) (vs : List Val) : Nat × List Conv :=
  if blockNan fmt vs then (0xFF, vs.map (fun _ => ⟨0, true, false⟩))
  else
    let x := blockExp fmt vs
    ((x + 127).toNat, vs.map (fun v => convert fmt sat (scaleBy (-x) v)))

/-- The exponent of the smallest normal of the format used for bin 67 (R127): the target's, and FP32's
for MX and integer targets. -/
def normalExp (fmt : Nat) : Int :=
  if isMX fmt then -126
  else match floatOf fmt with
    | some f => 1 - (f.bias : Int)
    | none => -126

/-- The histogram bin of a value presented to conversion, under window base `base` (R127). -/
def histBin (fmt : Nat) (base : Int) : Val → Nat
  | .nan => 69
  | .inf _ => 68
  | .fin _ m e =>
    if m = 0 then 66
    else
      let x := ilog m e
      if x < normalExp fmt then 67
      else if x < base then 64
      else if base + 63 < x then 65
      else (x - base).toNat

/-- One count more, saturating at 2^32 - 1 (R127). -/
def satInc (n : Nat) : Nat := min (n + 1) (2 ^ 32 - 1)

/-- A histogram of 72 zero counts. -/
def emptyHist : List Nat := List.replicate 72 0

/-- Counts one element: its bin, bin 70 when its conversion saturated, and bin 71 (R127). -/
def countHist (h : List Nat) (bin : Nat) (saturated : Bool) : List Nat :=
  let h := modAt h bin satInc
  let h := if saturated then modAt h 70 satInc else h
  modAt h 71 satInc

/-- The exact value of the draught bias: a result times 2^-b (R128). -/
def applyBias (b : Int) (v : Val) : Val := scaleBy (-b) v

/-- The segment sum of 16-bit mode (R115): the exact sum, truncated toward zero at 2^(E - 47), E being the
largest product exponent in the segment. -/
def segSum16 (ps : List Val) : Val :=
  match sum ps with
  | .fin n m e =>
    let es := ps.filterMap (fun p => match p with
      | .fin _ k f => if k = 0 then none else some (ilog k f) | _ => none)
    match es with
    | [] => .fin n m e
    | a :: t =>
      let q := t.foldl max a - 47
      if q ≤ e then .fin n m e else .fin n (m >>> (q - e).toNat) q
  | v => v

/-- The three ways of a column's arithmetic (R85, R115): exact, 16-bit with truncation, integer. -/
inductive Mode where
  | exact | half | integer
deriving DecidableEq, Repr

/-- The array's mode for a pair of operand formats; none where R85 lists no such pair. -/
def pairMode (a b : Nat) : Option Mode :=
  let e8 (f : Nat) : Bool := decide (3 ≤ f) && decide (f ≤ 0xA)
  let e16 (f : Nat) : Bool := decide (f = 1 ∨ f = 2)
  if a = 0xB ∧ b = 0xB then some .integer
  else if e8 a && e8 b then some .exact
  else if (e16 a && (e16 b || e8 b)) || (e16 b && e8 a) then some .half
  else none

/-- K elements of one K block (R84): 256 in the paired 4-bit mode, 128 otherwise. -/
def kBlockLen (a b : Nat) : Nat := if a = 9 ∧ b = 9 then 256 else 128

/-- One segment of a column (R115, R116): the products summed, scaled by both block scales, rounded to
48 significant bits. -/
def segment (md : Mode) (sa sb : Nat) (xs ws : List Val) : Val :=
  if sa = 0xFF ∨ sb = 0xFF then .nan
  else
    let ps := List.zipWith mul xs ws
    let s := if md = .half then segSum16 ps else sum ps
    if md = .integer then s
    else roundSig 48 (scaleBy ((sa : Int) - 127 + ((sb : Int) - 127)) s)

/-- The wide value of one column over one K block (R116): the segments added in order, each add rounded
to 48 significant bits. Each element of `segs` is the moving scale, the stationary scale, and the
moving and stationary elements of one segment. -/
def columnWide (md : Mode) (segs : List (Nat × Nat × List Val × List Val)) : Val :=
  let vs := segs.map (fun g => segment md g.1 g.2.1 g.2.2.1 g.2.2.2)
  match vs with
  | [] => .zero
  | v :: t => t.foldl (fun a x => if md = .integer then add a x else roundSig 48 (add a x)) v

/-- One write of an FP32 accumulator entry (R117): the first K block is rounded once, a later one is
added exactly and the sum rounded once, under the output mode. -/
def accWrite (first : Bool) (sat : Bool) (entry : Nat) (wide : Val) : Conv :=
  convert 0 sat (if first then wide else add (ofF32 entry) wide)

/-- One write of an INT32 accumulator entry (R118): saturating in both modes. -/
def accWriteInt (first : Bool) (entry : Nat) (wide : Val) : Conv :=
  convert 0xC true (if first then wide else add (decode 0xC entry) wide)

end Sys2Proof.Num
end

