-- ==== Sys2Proof/Machine/Functions.lean ====
section
/-! DEFINITION. The functions of R165 and R175: correctly rounded division and square root, and the
transcendental functions, computed to hundreds of bits and then placed within the stated error. -/

namespace Sys2Proof.Num

/-- Working precision of the functions, in bits. -/
def wp : Nat := 512

/-- Integer square root by bits, from bit `n` down. -/
def isqrtBits (v : Nat) : Nat → Nat → Nat
  | 0, r => r
  | n + 1, r =>
    let c := r + 2 ^ n
    isqrtBits v n (if c * c ≤ v then c else r)

/-- Integer square root. -/
def isqrt (v : Nat) : Nat := isqrtBits v (Nat.log2 v / 2 + 1) 0

/-- Square root with at least `wp` significant bits and a sticky last bit; NaN of a negative value. -/
def sqrt : Val → Val
  | .nan => .nan
  | .inf n => if n then .nan else .inf false
  | .fin n m e =>
    if m = 0 then .fin n 0 0
    else if n then .nan
    else
      let m' := if e % 2 = 0 then m else 2 * m
      let e' := if e % 2 = 0 then e else e - 1
      let v := m' <<< (2 * wp)
      let r := isqrt v
      .fin false (2 * r + b2n (decide (r * r ≠ v))) (e' / 2 - wp - 1)

/-- Quotient with at least `wp` significant bits and a sticky last bit (IEEE special cases). -/
def div : Val → Val → Val
  | .nan, _ => .nan
  | _, .nan => .nan
  | .inf a, .inf _ => let _ := a; .nan
  | .inf a, .fin b _ _ => .inf (a ^^ b)
  | .fin a _ _, .inf b => .fin (a ^^ b) 0 0
  | .fin a m e, .fin b n f =>
    if n = 0 then if m = 0 then .nan else .inf (a ^^ b)
    else
      let v := m <<< (wp + Nat.log2 n + 1)
      let q := v / n
      .fin (a ^^ b) (2 * q + b2n (decide (q * n ≠ v))) (e - f - (wp + Nat.log2 n + 1 : Nat) - 1)

/-- A value as a fixed-point integer with `wp` fraction bits, truncated. -/
def toFix : Val → Int
  | .fin n m e =>
    let k := e + wp
    let x : Int := if 0 ≤ k then (m <<< k.toNat : Nat) else (m >>> (-k).toNat : Nat)
    if n then -x else x
  | _ => 0

/-- A fixed-point integer as a value. -/
def ofFix (x : Int) : Val := .fin (decide (x < 0)) x.natAbs (-(wp : Int))

/-- Fixed-point product. -/
def fmul (a b : Int) : Int := a * b / (2 ^ wp : Nat)

/-- Taylor terms of e^x from term `i`: the sum of t, t x/i, ... -/
def expTerms (x : Int) : Nat → Nat → Int → Int
  | 0, _, _ => 0
  | n + 1, i, t => t + expTerms x n (i + 1) (fmul t x / (i : Int))

/-- The sum of 1/(n 2^n): ln 2, fixed point. -/
def ln2Terms : Nat → Nat → Int
  | 0, _ => 0
  | n + 1, i => (2 ^ wp / (i * 2 ^ i) : Nat) + ln2Terms n (i + 1)

def ln2 : Int := ln2Terms 600 1

/-- Terms of atan(1/q) from power `i`, alternating, fixed point: `p` is 1/q^i. -/
def atanTerms (q : Nat) : Nat → Nat → Int → Bool → Int
  | 0, _, _, _ => 0
  | n + 1, i, p, s =>
    let t := p / (i : Int)
    (if s then -t else t) + atanTerms q n (i + 2) (p / ((q * q : Nat) : Int)) (!s)

/-- Pi, fixed point, by Machin's formula. -/
def pi : Int :=
  16 * atanTerms 5 240 1 ((2 ^ wp / 5 : Nat) : Int) false
    - 4 * atanTerms 239 80 1 ((2 ^ wp / 239 : Nat) : Int) false

/-- e^x of a finite value; far outside FP32's range the result is a power of two beyond it. -/
def expR (v : Val) : Val :=
  match v with
  | .nan => .nan
  | .inf n => if n then .zero else .inf false
  | .fin n m e =>
    if m ≠ 0 ∧ 9 < ilog m e then .fin false 1 (if n then -100000 else 100000)
    else
      let x := toFix v
      let k := x / ln2
      .fin false (expTerms (x - k * ln2) 120 1 ((2 ^ wp : Nat) : Int)).toNat (k - wp)

/-- Terms of atanh(z) from power `i`. -/
def atanhTerms (z2 : Int) : Nat → Nat → Int → Int
  | 0, _, _ => 0
  | n + 1, i, p => p / (i : Int) + atanhTerms z2 n (i + 2) (fmul p z2)

/-- ln of a value (IEEE special cases). -/
def lnR : Val → Val
  | .nan => .nan
  | .inf n => if n then .nan else .inf false
  | .fin n m e =>
    if m = 0 then .inf true
    else if n then .nan
    else
      let k := ilog m e
      let y := toFix (.fin false m (e - k))
      let one : Int := (2 ^ wp : Nat)
      let z := (y - one) * one / (y + one)
      ofFix (k * ln2 + 2 * atanhTerms (fmul z z) 170 1 z)

/-- The value limited to `wp` significant bits. -/
def trim (v : Val) : Val := roundSig wp v

/-- 1 / (1 + e^-x). -/
def sigmoidR (v : Val) : Val :=
  match v with
  | .nan => .nan
  | .inf n => if n then .zero else ofInt 1
  | v => trim (div (ofInt 1) (add (ofInt 1) (expR (neg v))))

/-- tanh x = (e^2x - 1) / (e^2x + 1). -/
def tanhR (v : Val) : Val :=
  match v with
  | .nan => .nan
  | .inf n => ofInt (if n then -1 else 1)
  | .fin n m e =>
    if m = 0 then .fin n m e
    else
      let t := expR (scaleBy 1 v)
      trim (div (add t (ofInt (-1))) (add t (ofInt 1)))

/-- Terms of the sum over n of (-1)^n x^(2n+1) / (n! (2n+1)), `p` being x^(2n+1)/n!. -/
def erfTerms (x2 : Int) : Nat → Nat → Int → Bool → Int
  | 0, _, _, _ => 0
  | n + 1, i, p, s =>
    let t := p / ((2 * i + 1 : Nat) : Int)
    (if s then -t else t) + erfTerms x2 n (i + 1) (fmul p x2 / ((i + 1 : Nat) : Int)) (!s)

/-- 1 + erf(v / sqrt 2), for |v| up to 15; 0 below and 2 above. -/
def onePlusErf (v : Val) : Val :=
  if lt v (ofInt (-15)) then .zero
  else if lt (ofInt 15) v then ofInt 2
  else
    let x := toFix (div v (sqrt (ofInt 2)))
    let c := toFix (div (ofInt 2) (sqrt (ofFix pi)))
    ofFix ((2 ^ wp : Nat) + fmul c (erfTerms (fmul x x) 700 0 x false))

/-- The exact function of an activation code (R165), to working precision; infinite inputs give the
limit exactly. -/
def actExact (code : Nat) (v : Val) : Val :=
  match code, v with
  | 0, v => v
  | _, .nan => .nan
  | 1, v => if lt .zero v then v else .zero
  | 5, v => sigmoidR v
  | 6, v => tanhR v
  | _, .inf n => if n then .fin true 0 0 else .inf false
  | 2, v =>
    let c := div (ofInt 44715) (ofInt 1000000)
    let r := sqrt (div (ofInt 2) (ofFix pi))
    let u := trim (mul r (add v (trim (mul c (mul v (mul v v))))))
    trim (mul v (sigmoidR (scaleBy 1 u)))
  | 3, v => trim (scaleBy (-1) (mul v (onePlusErf v)))
  | _, v => trim (mul v (sigmoidR v))

/-- The error of an activation code in ulp (R165). -/
def actUlp : Nat → Int
  | 0 | 1 => 0 | 5 | 6 => 2 | _ => 4

/-- The FP32 number n codes away from the code nearest `v`, in the order of the real numbers, not
leaving the finite numbers; special values stay. -/
def nearbyF32 (v : Val) (n : Int) : Nat :=
  let c := toF32 v
  match ofF32 c with
  | .fin .. =>
    let line : Int := if c < 2 ^ 31 then c else -((c - 2 ^ 31 : Nat) : Int)
    let x := clampI (-0x7F7FFFFF) 0x7F7FFFFF (line + n)
    if x < 0 then 2 ^ 31 + x.natAbs else if x = 0 ∧ 2 ^ 31 ≤ c then 2 ^ 31 else x.toNat
  | _ => c

/-- A function's result in FP32, within `k` ulp of the exact value: the free offset, limited to k. Exact
when k is 0. `seed` and `pos` name the free value. -/
def bounded (k : Int) (seed pos : Nat) (input : Nat) (v : Val) : Val :=
  if k = 0 then round32 v
  else match v with
    | .fin _ 0 _ => round32 v
    | _ => ofF32 (nearbyF32 v (clampI (-k) k (Config.ulpOffset seed pos input)))

/-- An activation of an FP32 value (R165). -/
def act (code seed pos : Nat) (v : Val) : Val :=
  match v with
  | .inf _ => actExact code v
  | v => bounded (actUlp code) seed pos (toF32 v) (actExact code v)

/-- A free FP32 value taken where it lies within `bound` of the exact sum, else the value given (R126,
R177): nothing but the bound is promised. -/
def freeWithin (seed pos : Nat) (exact bound fallback : Val) : Val :=
  let c := ofF32 (Config.freeF32 seed pos % 2 ^ 32)
  match exact, c, fallback with
  | .fin .., .fin .., .fin .. => if lt bound (abs (add c (neg exact))) then fallback else c
  | _, _, _ => fallback

/-- The bound of R177: 1.01 (ceil(N / 256) + 8) 2^-24 S. -/
def reduceBound (n : Nat) (s : Val) : Val :=
  trim (mul (div (ofInt 101) (ofInt 100)) (mul (ofInt (ceilDiv n 256 + 8 : Nat)) (scaleBy (-24) s)))

/-- The bound of R126: (1.01 n 2^-24 + 2^-42) S + n 2^-150. -/
def matBound (n : Nat) (s : Val) : Val :=
  add (trim (add (mul (div (ofInt 101) (ofInt 100)) (mul (ofInt (n : Nat)) (scaleBy (-24) s))) (scaleBy (-42) s)))
    (scaleBy (-150) (ofInt (n : Nat)))

/-- A sum in FP32 under the reduction bound of R177. -/
def reduceSum (seed pos : Nat) (ts : List Val) : Val :=
  let x := sum ts
  freeWithin seed pos x (reduceBound ts.length (sum (ts.map abs))) (round32 x)

end Sys2Proof.Num
end

