-- ==== Sys2Proof/Machine/Registers.lean ====
section
/-! DEFINITION. Every register field of the spec's register tables (R11, R13), by the name the spec gives it,
and the table of the fields of each kind of page (R65, R71). An array field stands for its entry 0; entry i
lies `i` strides further (`Field.at`). Generated from the tables of spec/. -/

namespace Sys2Proof

/-- The kinds of register page: the common header (R73), the blocks of R65, and the four pages of a
context page (R71): `tenant` control, sealed-message `window`, contract `info`, `scoped` telemetry. -/
inductive PageKind where
  | telemetry | tile | common | global_ | owner | tenant | info | hbm | walker | regulator | window | scoped | kiln | site | hostPort | peat | plarus | plarusPort | timebase | mailbox | lifeCycle | debug | resetPage | clock | power | core | ember
deriving DecidableEq, Repr

/-- Entry i of an array of fields whose entries lie `stride` bytes apart. -/
def Field.at (f : Field) (stride i : Nat) : Field := { f with off := f.off + stride * i }

/-- The field of the same shape whose lowest bit lies `n` bits higher. -/
def Field.up (f : Field) (n : Nat) : Field := { f with lo := f.lo + n }

namespace Reg
/-- R34 `TEMP[i].NOW`, entries 8 apart. -/
def TEMP_NOW : Field := ⟨0x100, 0, 12, .ro, 0x0⟩
/-- R34 `TEMP[i].PEAK`, entries 8 apart. -/
def TEMP_PEAK : Field := ⟨0x100, 16, 12, .ro, 0x0⟩
/-- R34 `TEMP[i].VALID`, entries 8 apart. -/
def TEMP_VALID : Field := ⟨0x100, 31, 1, .ro, 0x0⟩
/-- R34 `TEMP_HOTTEST.INDEX`. -/
def TEMP_HOTTEST_INDEX : Field := ⟨0x580, 0, 8, .ro, 0x0⟩
/-- R34 `TEMP_HOTTEST.VALUE`. -/
def TEMP_HOTTEST_VALUE : Field := ⟨0x580, 16, 12, .ro, 0x0⟩
/-- R34 `TEMP_ALERT.THRESHOLD`. -/
def TEMP_ALERT_THRESHOLD : Field := ⟨0x588, 0, 8, .rw, 0x6E⟩
/-- R63 `ROUTER_STATUS.LINK_UP`. -/
def ROUTER_STATUS_LINK_UP : Field := ⟨0xC00, 0, 4, .ro, 0x0⟩
/-- R63 `ROUTER_STATUS.LINK_FAILED`. -/
def ROUTER_STATUS_LINK_FAILED : Field := ⟨0xC00, 4, 4, .ro, 0x0⟩
/-- R63 `ROUTER_STATUS.EDGE_DOWN`. -/
def ROUTER_STATUS_EDGE_DOWN : Field := ⟨0xC00, 8, 4, .ro, 0x0⟩
/-- R63 `ROUTER_DROP.NODE_DOWN`. -/
def ROUTER_DROP_NODE_DOWN : Field := ⟨0xC08, 0, 32, .ro, 0x0⟩
/-- R63 `ROUTER_DROP.MALFORMED`. -/
def ROUTER_DROP_MALFORMED : Field := ⟨0xC08, 32, 32, .ro, 0x0⟩
/-- R63 `ROUTER_UNEXPECTED.COUNT`. -/
def ROUTER_UNEXPECTED_COUNT : Field := ⟨0xC10, 0, 32, .ro, 0x0⟩
/-- R63 `LINK_CORRECTED`. -/
def LINK_CORRECTED : Field := ⟨0xC18, 0, 64, .ro, 0x0⟩
/-- R63 `LINK_REPLAYS`. -/
def LINK_REPLAYS : Field := ⟨0xC20, 0, 64, .ro, 0x0⟩
/-- R73 `PAGE_ID.INDEX`. -/
def PAGE_ID_INDEX : Field := ⟨0x0, 0, 10, .ro, 0x0⟩
/-- R73 `PAGE_ID.TYPE`. -/
def PAGE_ID_TYPE : Field := ⟨0x0, 16, 8, .ro, 0x0⟩
/-- R73 `PAGE_ID.INSTANCE`. -/
def PAGE_ID_INSTANCE : Field := ⟨0x0, 24, 8, .ro, 0x0⟩
/-- R73 `PAGE_ID.LAYOUT`. -/
def PAGE_ID_LAYOUT : Field := ⟨0x0, 32, 16, .ro, 0x1⟩
/-- R73 `PAGE_ID.SIGNATURE`. -/
def PAGE_ID_SIGNATURE : Field := ⟨0x0, 48, 16, .ro, 0x4B56⟩
/-- R73 `PAGE_CAP.BINDABLE`. -/
def PAGE_CAP_BINDABLE : Field := ⟨0x8, 0, 1, .ro, 0x0⟩
/-- R73 `PAGE_CAP.HAS_OPS`. -/
def PAGE_CAP_HAS_OPS : Field := ⟨0x8, 1, 1, .ro, 0x0⟩
/-- R73 `PAGE_CAP.SEALED_MASKS`. -/
def PAGE_CAP_SEALED_MASKS : Field := ⟨0x8, 2, 1, .ro, 0x0⟩
/-- R73 `PAGE_CAP.IRQ_SOURCES`. -/
def PAGE_CAP_IRQ_SOURCES : Field := ⟨0x8, 8, 8, .ro, 0x0⟩
/-- R73 `PAGE_CAP.BLOCK_CAP`. -/
def PAGE_CAP_BLOCK_CAP : Field := ⟨0x8, 32, 32, .ro, 0x0⟩
/-- R73 `PAGE_CTRL.PAGE_RESET`. -/
def PAGE_CTRL_PAGE_RESET : Field := ⟨0x10, 0, 1, .wo, 0x0⟩
/-- R73 `PAGE_CTRL.IRQ_MASTER_EN`. -/
def PAGE_CTRL_IRQ_MASTER_EN : Field := ⟨0x10, 1, 1, .rw, 0x0⟩
/-- R73 `PAGE_CTRL.COUNTER_FREEZE`. -/
def PAGE_CTRL_COUNTER_FREEZE : Field := ⟨0x10, 2, 1, .rw, 0x0⟩
/-- R73 `PAGE_STATUS.IN_SERVICE`. -/
def PAGE_STATUS_IN_SERVICE : Field := ⟨0x18, 0, 1, .ro, 0x0⟩
/-- R73 `PAGE_STATUS.POWERED`. -/
def PAGE_STATUS_POWERED : Field := ⟨0x18, 1, 1, .ro, 0x0⟩
/-- R73 `PAGE_STATUS.FENCED`. -/
def PAGE_STATUS_FENCED : Field := ⟨0x18, 2, 1, .ro, 0x0⟩
/-- R73 `PAGE_STATUS.DEGRADED`. -/
def PAGE_STATUS_DEGRADED : Field := ⟨0x18, 3, 1, .ro, 0x0⟩
/-- R73 `PAGE_STATUS.OP_ACTIVE`. -/
def PAGE_STATUS_OP_ACTIVE : Field := ⟨0x18, 4, 1, .ro, 0x0⟩
/-- R73 `IRQ_STATUS.BLOCK`. -/
def IRQ_STATUS_BLOCK : Field := ⟨0x20, 0, 62, .w1c, 0x0⟩
/-- R73 `IRQ_STATUS.OP_DONE`. -/
def IRQ_STATUS_OP_DONE : Field := ⟨0x20, 62, 1, .w1c, 0x0⟩
/-- R73 `IRQ_STATUS.ERR`. -/
def IRQ_STATUS_ERR : Field := ⟨0x20, 63, 1, .w1c, 0x0⟩
/-- R73 `IRQ_ENABLE`. -/
def IRQ_ENABLE : Field := ⟨0x28, 0, 64, .rw, 0x0⟩
/-- R73 `IRQ_FORCE`. -/
def IRQ_FORCE : Field := ⟨0x30, 0, 64, .wo, 0x0⟩
/-- R73 `ERR_SUMMARY.LOCKED_WRITE`. -/
def ERR_SUMMARY_LOCKED_WRITE : Field := ⟨0x38, 0, 1, .w1c, 0x0⟩
/-- R73 `ERR_SUMMARY.BAD_ACCESS`. -/
def ERR_SUMMARY_BAD_ACCESS : Field := ⟨0x38, 1, 1, .w1c, 0x0⟩
/-- R73 `ERR_SUMMARY.OP_REFUSED`. -/
def ERR_SUMMARY_OP_REFUSED : Field := ⟨0x38, 2, 1, .w1c, 0x0⟩
/-- R73 `ERR_SUMMARY.OVERFLOW`. -/
def ERR_SUMMARY_OVERFLOW : Field := ⟨0x38, 3, 1, .w1c, 0x0⟩
/-- R73 `ERR_SUMMARY.FIRST_VALID`. -/
def ERR_SUMMARY_FIRST_VALID : Field := ⟨0x38, 4, 1, .w1c, 0x0⟩
/-- R73 `ERR_SUMMARY.SEEN`. -/
def ERR_SUMMARY_SEEN : Field := ⟨0x38, 8, 4, .w1c, 0x0⟩
/-- R73 `ERR_SUMMARY.COUNT`. -/
def ERR_SUMMARY_COUNT : Field := ⟨0x38, 32, 16, .ro, 0x0⟩
/-- R73 `ERR_FIRST_TIME.NS`. -/
def ERR_FIRST_TIME_NS : Field := ⟨0x40, 0, 30, .ro, 0x0⟩
/-- R73 `ERR_FIRST_TIME.SEC`. -/
def ERR_FIRST_TIME_SEC : Field := ⟨0x40, 30, 34, .ro, 0x0⟩
/-- R73 `ERR_FIRST_SRC.PAGE`. -/
def ERR_FIRST_SRC_PAGE : Field := ⟨0x48, 0, 10, .ro, 0x0⟩
/-- R73 `ERR_FIRST_SRC.CTX`. -/
def ERR_FIRST_SRC_CTX : Field := ⟨0x48, 10, 8, .ro, 0x0⟩
/-- R73 `ERR_FIRST_SRC.SEVERITY`. -/
def ERR_FIRST_SRC_SEVERITY : Field := ⟨0x48, 18, 2, .ro, 0x0⟩
/-- R73 `ERR_FIRST_SRC.CLASS`. -/
def ERR_FIRST_SRC_CLASS : Field := ⟨0x48, 20, 12, .ro, 0x0⟩
/-- R73 `ERR_FIRST_SRC.SEQ`. -/
def ERR_FIRST_SRC_SEQ : Field := ⟨0x48, 32, 32, .ro, 0x0⟩
/-- R73 `ERR_FIRST_ADDR.ADDR`. -/
def ERR_FIRST_ADDR_ADDR : Field := ⟨0x50, 0, 55, .ro, 0x0⟩
/-- R73 `ERR_FIRST_ADDR.VIRT`. -/
def ERR_FIRST_ADDR_VIRT : Field := ⟨0x50, 62, 1, .ro, 0x0⟩
/-- R73 `ERR_FIRST_ADDR.VALID`. -/
def ERR_FIRST_ADDR_VALID : Field := ⟨0x50, 63, 1, .ro, 0x0⟩
/-- R73 `ERR_FIRST_DETAIL`. -/
def ERR_FIRST_DETAIL : Field := ⟨0x58, 0, 64, .ro, 0x0⟩
/-- R73 `PROGRESS.PERCENT`. -/
def PROGRESS_PERCENT : Field := ⟨0x60, 0, 7, .ro, 0x0⟩
/-- R73 `PROGRESS.VALID`. -/
def PROGRESS_VALID : Field := ⟨0x60, 7, 1, .ro, 0x0⟩
/-- R73 `PROGRESS.OPCODE`. -/
def PROGRESS_OPCODE : Field := ⟨0x60, 8, 8, .ro, 0x0⟩
/-- R73 `PROGRESS.POSITION`. -/
def PROGRESS_POSITION : Field := ⟨0x60, 16, 48, .ro, 0x0⟩
/-- R73 `OP_CONTROL.OP`. -/
def OP_CONTROL_OP : Field := ⟨0x68, 0, 7, .wo, 0x0⟩
/-- R73 `OP_CONTROL.START`. -/
def OP_CONTROL_START : Field := ⟨0x68, 8, 1, .wo, 0x0⟩
/-- R73 `OP_CONTROL.ABORT`. -/
def OP_CONTROL_ABORT : Field := ⟨0x68, 9, 1, .wo, 0x0⟩
/-- R73 `OP_CONTROL.FORCE`. -/
def OP_CONTROL_FORCE : Field := ⟨0x68, 10, 1, .wo, 0x0⟩
/-- R73 `OP_CONTROL.RESULT`. -/
def OP_CONTROL_RESULT : Field := ⟨0x68, 12, 4, .ro, 0x0⟩
/-- R73 `OP_CONTROL.ARG`. -/
def OP_CONTROL_ARG : Field := ⟨0x68, 32, 32, .rw, 0x0⟩
/-- R73 `BINDING.CTX`. -/
def BINDING_CTX : Field := ⟨0x70, 0, 8, .ro, 0xFF⟩
/-- R73 `BINDING.STATE`. -/
def BINDING_STATE : Field := ⟨0x70, 8, 3, .ro, 0x0⟩
/-- R73 `BINDING.SEALED`. -/
def BINDING_SEALED : Field := ⟨0x70, 11, 1, .ro, 0x0⟩
/-- R73 `BINDING.GENERATION`. -/
def BINDING_GENERATION : Field := ⟨0x70, 16, 16, .ro, 0x0⟩
/-- R73 `PAGE_SCRATCH`. -/
def PAGE_SCRATCH : Field := ⟨0x78, 0, 64, .rw, 0x0⟩
/-- R83 `DEVICE_ID.PART`. -/
def DEVICE_ID_PART : Field := ⟨0x100, 0, 16, .ro, 0x4⟩
/-- R83 `DEVICE_ID.GRADE`. -/
def DEVICE_ID_GRADE : Field := ⟨0x100, 16, 8, .ro, 0x40⟩
/-- R83 `DEVICE_ID.SPEED_BIN`. -/
def DEVICE_ID_SPEED_BIN : Field := ⟨0x100, 24, 4, .ro, 0x1⟩
/-- R83 `DEVICE_ID.STEPPING`. -/
def DEVICE_ID_STEPPING : Field := ⟨0x100, 32, 8, .ro, 0x0⟩
/-- R83 `DEVICE_ID.ARRAYS`. -/
def DEVICE_ID_ARRAYS : Field := ⟨0x100, 40, 8, .ro, 0x40⟩
/-- R83 `ARRAYS_IN_SERVICE`. -/
def ARRAYS_IN_SERVICE : Field := ⟨0x108, 0, 64, .ro, 0xFFFFFFFFFFFFFFFF⟩
/-- R83 `ARRAYS_NARROW`. -/
def ARRAYS_NARROW : Field := ⟨0x110, 0, 64, .ro, 0x0⟩
/-- R83 `ARRAYS_SPARED`. -/
def ARRAYS_SPARED : Field := ⟨0x118, 0, 64, .ro, 0x0⟩
/-- R83 `UNASSIGNED_ACCESS.COUNT`. -/
def UNASSIGNED_ACCESS_COUNT : Field := ⟨0x120, 0, 32, .ro, 0x0⟩
/-- R83 `UNASSIGNED_ACCESS.LAST_PAGE`. -/
def UNASSIGNED_ACCESS_LAST_PAGE : Field := ⟨0x120, 32, 10, .ro, 0x0⟩
/-- R106 `TILE_CAP.ROWS`. -/
def TILE_CAP_ROWS : Field := ⟨0x100, 0, 8, .ro, 0x80⟩
/-- R106 `TILE_CAP.COLUMNS`. -/
def TILE_CAP_COLUMNS : Field := ⟨0x100, 8, 8, .ro, 0x80⟩
/-- R106 `TILE_CAP.LATENCY`. -/
def TILE_CAP_LATENCY : Field := ⟨0x100, 16, 9, .ro, 0x100⟩
/-- R106 `TILE_CAP.SPARED`. -/
def TILE_CAP_SPARED : Field := ⟨0x100, 25, 1, .ro, 0x0⟩
/-- R106 `TILE_CAP.NARROW`. -/
def TILE_CAP_NARROW : Field := ⟨0x100, 26, 1, .ro, 0x0⟩
/-- R106 `TILE_CAP.ARRAY_PRESENT`. -/
def TILE_CAP_ARRAY_PRESENT : Field := ⟨0x100, 27, 1, .ro, 0x1⟩
/-- R106 `TILE_CAP.FORMAT_MASK`. -/
def TILE_CAP_FORMAT_MASK : Field := ⟨0x100, 32, 16, .ro, 0xFFE⟩
/-- R106 `TILE_CAP.MAX_M`. -/
def TILE_CAP_MAX_M : Field := ⟨0x100, 48, 13, .ro, 0x1000⟩
/-- R106 `TILE_REPAIR.SPARE_ROW`. -/
def TILE_REPAIR_SPARE_ROW : Field := ⟨0x108, 0, 8, .ro, 0xFF⟩
/-- R106 `TILE_REPAIR.BYPASS_COL`. -/
def TILE_REPAIR_BYPASS_COL : Field := ⟨0x108, 8, 8, .ro, 0xFF⟩
/-- R106 `TILE_REPAIR.MAP_CHECKED`. -/
def TILE_REPAIR_MAP_CHECKED : Field := ⟨0x108, 16, 1, .ro, 0x0⟩
/-- R106 `ARRAY_STATE.STATE`. -/
def ARRAY_STATE_STATE : Field := ⟨0x110, 0, 4, .ro, 0x0⟩
/-- R106 `ARRAY_STATE.EPILOGUE`. -/
def ARRAY_STATE_EPILOGUE : Field := ⟨0x110, 4, 1, .ro, 0x0⟩
/-- R106 `ARRAY_STATE.PASSES`. -/
def ARRAY_STATE_PASSES : Field := ⟨0x110, 8, 2, .ro, 0x0⟩
/-- R106 `LEAD_POSITION.K_BLOCK`. -/
def LEAD_POSITION_K_BLOCK : Field := ⟨0x118, 0, 16, .ro, 0x0⟩
/-- R106 `LEAD_POSITION.M_ROW`. -/
def LEAD_POSITION_M_ROW : Field := ⟨0x118, 16, 13, .ro, 0x0⟩
/-- R106 `LEAD_POSITION.VALID`. -/
def LEAD_POSITION_VALID : Field := ⟨0x118, 31, 1, .ro, 0x0⟩
/-- R106 `TRAIL_POSITION.ROW`. -/
def TRAIL_POSITION_ROW : Field := ⟨0x120, 0, 13, .ro, 0x0⟩
/-- R106 `TRAIL_POSITION.VALID`. -/
def TRAIL_POSITION_VALID : Field := ⟨0x120, 31, 1, .ro, 0x0⟩
/-- R106 `THROTTLE.DUTY`. -/
def THROTTLE_DUTY : Field := ⟨0x128, 0, 7, .ro, 0x40⟩
/-- R106 `ZERO_FRACTION.LAST_PASS`. -/
def ZERO_FRACTION_LAST_PASS : Field := ⟨0x130, 0, 16, .ro, 0x0⟩
/-- R106 `PASS_COUNT`. -/
def PASS_COUNT : Field := ⟨0x138, 0, 48, .ro, 0x0⟩
/-- R106 `BUBBLES.FEEDER`. -/
def BUBBLES_FEEDER : Field := ⟨0x140, 0, 32, .ro, 0x0⟩
/-- R106 `BUBBLES.DRAIN`. -/
def BUBBLES_DRAIN : Field := ⟨0x140, 32, 32, .ro, 0x0⟩
/-- R106 `CHECK_COUNTS.RESIDUE`. -/
def CHECK_COUNTS_RESIDUE : Field := ⟨0x148, 0, 16, .ro, 0x0⟩
/-- R106 `CHECK_COUNTS.SRAM_CORRECTED`. -/
def CHECK_COUNTS_SRAM_CORRECTED : Field := ⟨0x148, 16, 16, .ro, 0x0⟩
/-- R106 `CHECK_COUNTS.SRAM_UNCORRECTED`. -/
def CHECK_COUNTS_SRAM_UNCORRECTED : Field := ⟨0x148, 32, 16, .ro, 0x0⟩
/-- R106 `PREEMPT_LAST.CYCLES`. -/
def PREEMPT_LAST_CYCLES : Field := ⟨0x150, 0, 10, .ro, 0x0⟩
/-- R106 `PREEMPT_LAST.COUNT`. -/
def PREEMPT_LAST_COUNT : Field := ⟨0x150, 32, 32, .ro, 0x0⟩
/-- R131 `DRAUGHT_LIMIT.BIAS_MIN`. -/
def DRAUGHT_LIMIT_BIAS_MIN : Field := ⟨0x800, 0, 8, .rw, 0xE0⟩
/-- R131 `DRAUGHT_LIMIT.BIAS_MAX`. -/
def DRAUGHT_LIMIT_BIAS_MAX : Field := ⟨0x800, 8, 8, .rw, 0x20⟩
/-- R131 `DRAUGHT_LIMIT.STEP_MAX`. -/
def DRAUGHT_LIMIT_STEP_MAX : Field := ⟨0x800, 16, 4, .rw, 0x4⟩
/-- R131 `DRAUGHT_LIMIT.FREEZE_ALL`. -/
def DRAUGHT_LIMIT_FREEZE_ALL : Field := ⟨0x800, 24, 1, .rw, 0x0⟩
/-- R131 `DRAUGHT_STATS.UPDATES`. -/
def DRAUGHT_STATS_UPDATES : Field := ⟨0x808, 0, 32, .ro, 0x0⟩
/-- R131 `DRAUGHT_STATS.CLAMPED`. -/
def DRAUGHT_STATS_CLAMPED : Field := ⟨0x808, 32, 32, .ro, 0x0⟩
/-- R132 `DRAUGHT_SELECT.TAG`. -/
def DRAUGHT_SELECT_TAG : Field := ⟨0x8000, 0, 12, .rw, 0x0⟩
/-- R132 `DRAUGHT_STATE.NEXT_BIAS`. -/
def DRAUGHT_STATE_NEXT_BIAS : Field := ⟨0x8008, 0, 8, .ro, 0x0⟩
/-- R132 `DRAUGHT_STATE.APPLIED_BIAS`. -/
def DRAUGHT_STATE_APPLIED_BIAS : Field := ⟨0x8008, 8, 8, .ro, 0x0⟩
/-- R132 `DRAUGHT_STATE.FROZEN`. -/
def DRAUGHT_STATE_FROZEN : Field := ⟨0x8008, 16, 1, .ro, 0x0⟩
/-- R132 `DRAUGHT_STATE.OVERRIDDEN`. -/
def DRAUGHT_STATE_OVERRIDDEN : Field := ⟨0x8008, 17, 1, .ro, 0x0⟩
/-- R132 `DRAUGHT_STATE.WRITTEN`. -/
def DRAUGHT_STATE_WRITTEN : Field := ⟨0x8008, 18, 1, .ro, 0x0⟩
/-- R132 `DRAUGHT_STATE.LAST_TOP`. -/
def DRAUGHT_STATE_LAST_TOP : Field := ⟨0x8008, 24, 8, .ro, 0x80⟩
/-- R132 `DRAUGHT_STATE.UPDATES`. -/
def DRAUGHT_STATE_UPDATES : Field := ⟨0x8008, 32, 32, .ro, 0x0⟩
/-- R132 `DRAUGHT_CONFIG.BASE`. -/
def DRAUGHT_CONFIG_BASE : Field := ⟨0x8010, 0, 8, .rw, 0xD0⟩
/-- R132 `DRAUGHT_CONFIG.HEADROOM`. -/
def DRAUGHT_CONFIG_HEADROOM : Field := ⟨0x8010, 8, 4, .rw, 0x2⟩
/-- R132 `DRAUGHT_CONFIG.STEP`. -/
def DRAUGHT_CONFIG_STEP : Field := ⟨0x8010, 12, 4, .rw, 0x2⟩
/-- R132 `DRAUGHT_CONFIG.DEADBAND`. -/
def DRAUGHT_CONFIG_DEADBAND : Field := ⟨0x8010, 16, 4, .rw, 0x1⟩
/-- R132 `DRAUGHT_CMD.OP`. -/
def DRAUGHT_CMD_OP : Field := ⟨0x8018, 0, 2, .wo, 0x0⟩
/-- R132 `DRAUGHT_CMD.VALUE`. -/
def DRAUGHT_CMD_VALUE : Field := ⟨0x8018, 8, 8, .wo, 0x0⟩
/-- R132 `DRAUGHT_CMD.RESET_TAG`. -/
def DRAUGHT_CMD_RESET_TAG : Field := ⟨0x8018, 16, 1, .wo, 0x0⟩
/-- R134 `DOORBELL[r].TAIL`, entries 8 apart. -/
def DOORBELL_TAIL : Field := ⟨0x0, 0, 16, .wo, 0x0⟩
/-- R134 `CQ_DOORBELL.HEAD`. -/
def CQ_DOORBELL_HEAD : Field := ⟨0x80, 0, 16, .wo, 0x0⟩
/-- R134 `DISPATCH_STATUS.WAITING_EXEC`. -/
def DISPATCH_STATUS_WAITING_EXEC : Field := ⟨0x88, 0, 16, .ro, 0x0⟩
/-- R134 `DISPATCH_STATUS.WAITING_FENCE`. -/
def DISPATCH_STATUS_WAITING_FENCE : Field := ⟨0x88, 16, 16, .ro, 0x0⟩
/-- R134 `RING_BASE[r].ADDR`, entries 32 apart. -/
def RING_BASE_ADDR : Field := ⟨0x100, 12, 43, .rw, 0x0⟩
/-- R134 `RING_CFG[r].LOG2_SIZE`, entries 32 apart. -/
def RING_CFG_LOG2_SIZE : Field := ⟨0x108, 0, 5, .rw, 0x0⟩
/-- R134 `RING_CFG[r].ENABLE`, entries 32 apart. -/
def RING_CFG_ENABLE : Field := ⟨0x108, 8, 1, .rw, 0x0⟩
/-- R134 `RING_CFG[r].ABORT`, entries 32 apart. -/
def RING_CFG_ABORT : Field := ⟨0x108, 9, 1, .wo, 0x0⟩
/-- R134 `RING_STATUS[r].HEAD`, entries 32 apart. -/
def RING_STATUS_HEAD : Field := ⟨0x110, 0, 16, .ro, 0x0⟩
/-- R134 `RING_STATUS[r].TAIL`, entries 32 apart. -/
def RING_STATUS_TAIL : Field := ⟨0x110, 16, 16, .ro, 0x0⟩
/-- R134 `RING_STATUS[r].OUTSTANDING`, entries 32 apart. -/
def RING_STATUS_OUTSTANDING : Field := ⟨0x110, 32, 9, .ro, 0x0⟩
/-- R134 `RING_STATUS[r].BAD_DOORBELL`, entries 32 apart. -/
def RING_STATUS_BAD_DOORBELL : Field := ⟨0x110, 48, 1, .w1c, 0x0⟩
/-- R134 `RING_STATUS[r].CONFIG_REFUSED`, entries 32 apart. -/
def RING_STATUS_CONFIG_REFUSED : Field := ⟨0x110, 49, 1, .w1c, 0x0⟩
/-- R134 `CQ_BASE.ADDR`. -/
def CQ_BASE_ADDR : Field := ⟨0x300, 12, 43, .rw, 0x0⟩
/-- R134 `CQ_CFG.LOG2_SIZE`. -/
def CQ_CFG_LOG2_SIZE : Field := ⟨0x308, 0, 5, .rw, 0x0⟩
/-- R134 `CQ_CFG.ENABLE`. -/
def CQ_CFG_ENABLE : Field := ⟨0x308, 8, 1, .rw, 0x0⟩
/-- R134 `CQ_CFG.IRQ_EN`. -/
def CQ_CFG_IRQ_EN : Field := ⟨0x308, 9, 1, .rw, 0x0⟩
/-- R134 `CQ_STATUS.TAIL`. -/
def CQ_STATUS_TAIL : Field := ⟨0x310, 0, 16, .ro, 0x0⟩
/-- R134 `CQ_STATUS.HEAD`. -/
def CQ_STATUS_HEAD : Field := ⟨0x310, 16, 16, .ro, 0x0⟩
/-- R134 `CQ_STATUS.RESERVED`. -/
def CQ_STATUS_RESERVED : Field := ⟨0x310, 32, 13, .ro, 0x0⟩
/-- R134 `CQ_STATUS.PHASE`. -/
def CQ_STATUS_PHASE : Field := ⟨0x310, 48, 1, .ro, 0x0⟩
/-- R134 `CQ_STATUS.BAD_DOORBELL`. -/
def CQ_STATUS_BAD_DOORBELL : Field := ⟨0x310, 49, 1, .w1c, 0x0⟩
/-- R134 `CQ_STATUS.CONFIG_REFUSED`. -/
def CQ_STATUS_CONFIG_REFUSED : Field := ⟨0x310, 50, 1, .w1c, 0x0⟩
/-- R134 `CQ_STATUS.FULL`. -/
def CQ_STATUS_FULL : Field := ⟨0x310, 51, 1, .ro, 0x0⟩
/-- R134 `FENCE_VALUE[i].VALUE`, entries 8 apart. -/
def FENCE_VALUE_VALUE : Field := ⟨0x1000, 0, 48, .rw, 0x0⟩
/-- R134 `FENCE_VALUE[i].ERROR`, entries 8 apart. -/
def FENCE_VALUE_ERROR : Field := ⟨0x1000, 48, 1, .rw, 0x0⟩
/-- R134 `FENCE_ADD[i].ADD`, entries 8 apart. -/
def FENCE_ADD_ADD : Field := ⟨0x1200, 0, 48, .wo, 0x0⟩
/-- R154 `CI_VERSION.MINOR`. -/
def CI_VERSION_MINOR : Field := ⟨0x0, 0, 8, .ro, 0x0⟩
/-- R154 `CI_VERSION.MAJOR`. -/
def CI_VERSION_MAJOR : Field := ⟨0x0, 8, 8, .ro, 0x1⟩
/-- R154 `CI_CLASSES`. -/
def CI_CLASSES : Field := ⟨0x8, 0, 64, .ro, 0x1FFFE⟩
/-- R154 `CI_FORMATS`. -/
def CI_FORMATS : Field := ⟨0x10, 0, 16, .ro, 0x3FFF⟩
/-- R154 `CI_LIMITS.RINGS`. -/
def CI_LIMITS_RINGS : Field := ⟨0x18, 0, 5, .ro, 0x10⟩
/-- R154 `CI_LIMITS.MAX_LOG2_RING`. -/
def CI_LIMITS_MAX_LOG2_RING : Field := ⟨0x18, 8, 5, .ro, 0x10⟩
/-- R154 `CI_LIMITS.FENCES`. -/
def CI_LIMITS_FENCES : Field := ⟨0x18, 16, 7, .ro, 0x40⟩
/-- R154 `CI_LIMITS.TAGS`. -/
def CI_LIMITS_TAGS : Field := ⟨0x18, 24, 13, .ro, 0x1000⟩
/-- R154 `CI_LIMITS.OUTSTANDING`. -/
def CI_LIMITS_OUTSTANDING : Field := ⟨0x18, 48, 9, .ro, 0x100⟩
/-- R154 `CI_EXEC.NATIVE`. -/
def CI_EXEC_NATIVE : Field := ⟨0x20, 0, 8, .ro, 0x0⟩
/-- R154 `CI_EXEC.MIN_COLUMNS`. -/
def CI_EXEC_MIN_COLUMNS : Field := ⟨0x20, 8, 8, .ro, 0x0⟩
/-- R154 `CI_EXEC.GUESTS`. -/
def CI_EXEC_GUESTS : Field := ⟨0x20, 16, 4, .ro, 0x0⟩
/-- R154 `CI_OP_FEATURES[c]`, entries 8 apart. -/
def CI_OP_FEATURES : Field := ⟨0x40, 0, 64, .ro, 0x0⟩
/-- R154 `CI_GUEST[g].SITE`, entries 32 apart. -/
def CI_GUEST_SITE : Field := ⟨0x400, 0, 3, .ro, 0x0⟩
/-- R154 `CI_GUEST[g].VALID`, entries 32 apart. -/
def CI_GUEST_VALID : Field := ⟨0x400, 7, 1, .ro, 0x0⟩
/-- R154 `CI_GUEST_CLASSES[g]`, entries 32 apart. -/
def CI_GUEST_CLASSES : Field := ⟨0x408, 0, 64, .ro, 0x0⟩
/-- R154 `CI_GUEST_FORMATS[g]`, entries 32 apart. -/
def CI_GUEST_FORMATS : Field := ⟨0x410, 0, 16, .ro, 0x0⟩
/-- R234 `HBM_CAP.CHANNELS_PRESENT`. -/
def HBM_CAP_CHANNELS_PRESENT : Field := ⟨0x100, 0, 32, .ro, 0xFFFFFFFF⟩
/-- R234 `HBM_CAP.GIB`. -/
def HBM_CAP_GIB : Field := ⟨0x100, 32, 8, .ro, 0x40⟩
/-- R234 `CHANNEL_LIVE`. -/
def CHANNEL_LIVE : Field := ⟨0x108, 0, 32, .ro, 0xFFFFFFFF⟩
/-- R234 `THERMAL.TEMP`. -/
def THERMAL_TEMP : Field := ⟨0x110, 0, 8, .ro, 0x0⟩
/-- R234 `THERMAL.LEVEL`. -/
def THERMAL_LEVEL : Field := ⟨0x110, 8, 3, .ro, 0x0⟩
/-- R234 `THERMAL.REFRESH_2X`. -/
def THERMAL_REFRESH_2X : Field := ⟨0x110, 11, 1, .ro, 0x0⟩
/-- R234 `THERMAL.FENCED`. -/
def THERMAL_FENCED : Field := ⟨0x110, 12, 1, .ro, 0x0⟩
/-- R234 `ECC_COUNTS.CORRECTED`. -/
def ECC_COUNTS_CORRECTED : Field := ⟨0x118, 0, 32, .ro, 0x0⟩
/-- R234 `ECC_COUNTS.UNCORRECTED`. -/
def ECC_COUNTS_UNCORRECTED : Field := ⟨0x118, 32, 16, .ro, 0x0⟩
/-- R234 `CE_POLICY.THRESHOLD`. -/
def CE_POLICY_THRESHOLD : Field := ⟨0x120, 0, 16, .rw, 0x400⟩
/-- R234 `CE_POLICY.AUTO_EVAC`. -/
def CE_POLICY_AUTO_EVAC : Field := ⟨0x120, 16, 1, .rw, 0x1⟩
/-- R234 `CAL_CTRL.FREEZE`. -/
def CAL_CTRL_FREEZE : Field := ⟨0x128, 0, 1, .rw, 0x0⟩
/-- R234 `CAL_CTRL.INTERVAL_MS`. -/
def CAL_CTRL_INTERVAL_MS : Field := ⟨0x128, 16, 16, .rw, 0x64⟩
/-- R234 `CAL_SELECT.CHANNEL`. -/
def CAL_SELECT_CHANNEL : Field := ⟨0x130, 0, 5, .rw, 0x0⟩
/-- R234 `CAL_TRIM.READ`. -/
def CAL_TRIM_READ : Field := ⟨0x138, 0, 8, .rw, 0x0⟩
/-- R234 `CAL_TRIM.WRITE`. -/
def CAL_TRIM_WRITE : Field := ⟨0x138, 8, 8, .rw, 0x0⟩
/-- R234 `CAL_TRIM.OVERRIDE`. -/
def CAL_TRIM_OVERRIDE : Field := ⟨0x138, 16, 1, .rw, 0x0⟩
/-- R234 `CAL_TRIM.RETRAINS`. -/
def CAL_TRIM_RETRAINS : Field := ⟨0x138, 32, 32, .ro, 0x0⟩
/-- R234 `EVAC_STATUS.CHANNEL`. -/
def EVAC_STATUS_CHANNEL : Field := ⟨0x140, 0, 9, .ro, 0x1FF⟩
/-- R234 `EVAC_STATUS.DONE`. -/
def EVAC_STATUS_DONE : Field := ⟨0x140, 16, 8, .ro, 0x0⟩
/-- R234 `EVAC_STATUS.RESERVE_FREE_MIB`. -/
def EVAC_STATUS_RESERVE_FREE_MIB : Field := ⟨0x140, 32, 16, .ro, 0x6000⟩
/-- R234 `OWN_LOOKUP.FRAME`. -/
def OWN_LOOKUP_FRAME : Field := ⟨0x148, 0, 19, .rw, 0x0⟩
/-- R234 `OWN_LOOKUP.ENTRY`. -/
def OWN_LOOKUP_ENTRY : Field := ⟨0x148, 32, 16, .ro, 0x0⟩
/-- R234 `HBM_REPAIR.SLOT_USED`. -/
def HBM_REPAIR_SLOT_USED : Field := ⟨0x150, 0, 2, .ro, 0x2⟩
/-- R234 `HBM_REPAIR.RECHOSEN`. -/
def HBM_REPAIR_RECHOSEN : Field := ⟨0x150, 8, 8, .ro, 0x0⟩
/-- R234 `HBM_REPAIR.START_EVACUATED`. -/
def HBM_REPAIR_START_EVACUATED : Field := ⟨0x150, 16, 32, .ro, 0x0⟩
/-- R235 `MEM_SPREAD_NEXT[i].STACKS`, entries 8 apart. -/
def MEM_SPREAD_NEXT_STACKS : Field := ⟨0x200, 0, 12, .rw, 0x0⟩
/-- R235 `MEM_SPREAD_NEXT[i].GIB`, entries 8 apart. -/
def MEM_SPREAD_NEXT_GIB : Field := ⟨0x200, 16, 6, .rw, 0x0⟩
/-- R235 `MEM_SPREAD_ACTIVE[i].STACKS`, entries 8 apart. -/
def MEM_SPREAD_ACTIVE_STACKS : Field := ⟨0x240, 0, 12, .ro, 0x0⟩
/-- R235 `MEM_SPREAD_ACTIVE[i].GIB`, entries 8 apart. -/
def MEM_SPREAD_ACTIVE_GIB : Field := ⟨0x240, 16, 6, .ro, 0x0⟩
/-- R235 `MEM_SPREAD_ACTIVE[i].BASE_FRAME`, entries 8 apart. -/
def MEM_SPREAD_ACTIVE_BASE_FRAME : Field := ⟨0x240, 32, 32, .ro, 0x0⟩
/-- R235 `MEM_SPREAD_STATUS.REGION0_GIB`. -/
def MEM_SPREAD_STATUS_REGION0_GIB : Field := ⟨0x280, 0, 6, .ro, 0x3E⟩
/-- R235 `MEM_SPREAD_STATUS.STRANDED_GIB`. -/
def MEM_SPREAD_STATUS_STRANDED_GIB : Field := ⟨0x280, 32, 16, .ro, 0x0⟩
/-- R235 `MEM_SPREAD_STATUS.LAYOUT_REJECTED`. -/
def MEM_SPREAD_STATUS_LAYOUT_REJECTED : Field := ⟨0x280, 16, 1, .ro, 0x0⟩
/-- R236 `CACHE_POLICY.WAY_MASK`. -/
def CACHE_POLICY_WAY_MASK : Field := ⟨0x900, 0, 16, .rwl, 0x0⟩
/-- R236 `CACHE_POLICY.KEEP_WAYS`. -/
def CACHE_POLICY_KEEP_WAYS : Field := ⟨0x900, 16, 4, .rw, 0x2⟩
/-- R236 `PLACE_CTRL.ENABLE`. -/
def PLACE_CTRL_ENABLE : Field := ⟨0x980, 0, 1, .rw, 0x0⟩
/-- R236 `PLACE_CTRL.FREEZE`. -/
def PLACE_CTRL_FREEZE : Field := ⟨0x980, 1, 1, .rw, 0x0⟩
/-- R236 `PLACE_CTRL.INTERVAL_MS`. -/
def PLACE_CTRL_INTERVAL_MS : Field := ⟨0x980, 4, 12, .rw, 0xA⟩
/-- R236 `PLACE_CTRL.MIGRATE_MAX`. -/
def PLACE_CTRL_MIGRATE_MAX : Field := ⟨0x980, 16, 8, .rw, 0x40⟩
/-- R236 `PLACE_CTRL.PROMOTE_MIN`. -/
def PLACE_CTRL_PROMOTE_MIN : Field := ⟨0x980, 24, 16, .rw, 0x40⟩
/-- R236 `PLACE_CTRL.HYSTERESIS`. -/
def PLACE_CTRL_HYSTERESIS : Field := ⟨0x980, 40, 16, .rw, 0x20⟩
/-- R236 `PLACE_LIST.ADDR`. -/
def PLACE_LIST_ADDR : Field := ⟨0x988, 12, 43, .rw, 0x0⟩
/-- R236 `PLACE_CMD.REGION`. -/
def PLACE_CMD_REGION : Field := ⟨0x990, 21, 34, .wo, 0x0⟩
/-- R236 `PLACE_CMD.OP`. -/
def PLACE_CMD_OP : Field := ⟨0x990, 0, 2, .wo, 0x0⟩
/-- R236 `PLACE_STATS.PROMOTIONS`. -/
def PLACE_STATS_PROMOTIONS : Field := ⟨0x998, 0, 32, .ro, 0x0⟩
/-- R236 `PLACE_STATS.DEMOTIONS`. -/
def PLACE_STATS_DEMOTIONS : Field := ⟨0x998, 32, 32, .ro, 0x0⟩
/-- R236 `PLACE_LAST.REGION`. -/
def PLACE_LAST_REGION : Field := ⟨0x9A0, 21, 34, .ro, 0x0⟩
/-- R236 `PLACE_LAST.KIND`. -/
def PLACE_LAST_KIND : Field := ⟨0x9A0, 0, 2, .ro, 0x0⟩
/-- R251 `COH_TABLE.OCCUPANCY`. -/
def COH_TABLE_OCCUPANCY : Field := ⟨0xD00, 0, 10, .ro, 0x0⟩
/-- R251 `COH_TABLE.PEAK`. -/
def COH_TABLE_PEAK : Field := ⟨0xD00, 16, 10, .ro, 0x0⟩
/-- R251 `COH_TABLE.TRANSIENT`. -/
def COH_TABLE_TRANSIENT : Field := ⟨0xD00, 32, 16, .ro, 0x0⟩
/-- R251 `COH_COUNTS.SNOOPS`. -/
def COH_COUNTS_SNOOPS : Field := ⟨0xD08, 0, 32, .ro, 0x0⟩
/-- R251 `COH_COUNTS.LATE_EVICT`. -/
def COH_COUNTS_LATE_EVICT : Field := ⟨0xD08, 32, 32, .ro, 0x0⟩
/-- R251 `COH_FAULTS.LOST`. -/
def COH_FAULTS_LOST : Field := ⟨0xD10, 0, 16, .ro, 0x0⟩
/-- R251 `COH_FAULTS.BREACH`. -/
def COH_FAULTS_BREACH : Field := ⟨0xD10, 16, 16, .ro, 0x0⟩
/-- R251 `COH_RECALL.LINES`. -/
def COH_RECALL_LINES : Field := ⟨0xD18, 0, 32, .ro, 0x0⟩
/-- R251 `COH_RECALL.ACTIVE`. -/
def COH_RECALL_ACTIVE : Field := ⟨0xD18, 32, 1, .ro, 0x0⟩
/-- R274 `XLATE_ROOT.VALID`. -/
def XLATE_ROOT_VALID : Field := ⟨0x2000, 0, 1, .rw, 0x0⟩
/-- R274 `XLATE_ROOT.TABLE`. -/
def XLATE_ROOT_TABLE : Field := ⟨0x2000, 16, 36, .rw, 0x0⟩
/-- R274 `FQ_BASE.ADDR`. -/
def FQ_BASE_ADDR : Field := ⟨0x2008, 12, 43, .rw, 0x0⟩
/-- R274 `FQ_CFG.LOG2_SIZE`. -/
def FQ_CFG_LOG2_SIZE : Field := ⟨0x2010, 0, 4, .rw, 0x0⟩
/-- R274 `FQ_CFG.ENABLE`. -/
def FQ_CFG_ENABLE : Field := ⟨0x2010, 8, 1, .rw, 0x0⟩
/-- R274 `FQ_CFG.IRQ_EN`. -/
def FQ_CFG_IRQ_EN : Field := ⟨0x2010, 9, 1, .rw, 0x0⟩
/-- R274 `FQ_STATUS.TAIL`. -/
def FQ_STATUS_TAIL : Field := ⟨0x2018, 0, 12, .ro, 0x0⟩
/-- R274 `FQ_STATUS.HEAD`. -/
def FQ_STATUS_HEAD : Field := ⟨0x2018, 16, 12, .ro, 0x0⟩
/-- R274 `FQ_STATUS.PHASE`. -/
def FQ_STATUS_PHASE : Field := ⟨0x2018, 32, 1, .ro, 0x0⟩
/-- R274 `FQ_STATUS.OUTSTANDING`. -/
def FQ_STATUS_OUTSTANDING : Field := ⟨0x2018, 33, 9, .ro, 0x0⟩
/-- R274 `FQ_STATUS.FULL`. -/
def FQ_STATUS_FULL : Field := ⟨0x2018, 48, 1, .ro, 0x0⟩
/-- R274 `FQ_STATUS.BAD_DOORBELL`. -/
def FQ_STATUS_BAD_DOORBELL : Field := ⟨0x2018, 49, 1, .w1c, 0x0⟩
/-- R274 `FQ_DOORBELL.HEAD`. -/
def FQ_DOORBELL_HEAD : Field := ⟨0x2020, 0, 12, .wo, 0x0⟩
/-- R274 `FAULT_RESUME.ID`. -/
def FAULT_RESUME_ID : Field := ⟨0x2028, 0, 8, .wo, 0x0⟩
/-- R274 `FAULT_RESUME.ACTION`. -/
def FAULT_RESUME_ACTION : Field := ⟨0x2028, 8, 2, .wo, 0x0⟩
/-- R274 `INV_RANGE.BASE`. -/
def INV_RANGE_BASE : Field := ⟨0x2030, 16, 39, .rw, 0x0⟩
/-- R274 `INV_RANGE.PAGES`. -/
def INV_RANGE_PAGES : Field := ⟨0x2038, 0, 40, .rw, 0x0⟩
/-- R274 `INV_CMD.EPOCH`. -/
def INV_CMD_EPOCH : Field := ⟨0x2040, 0, 32, .wo, 0x0⟩
/-- R274 `INV_CMD.SIGNAL`. -/
def INV_CMD_SIGNAL : Field := ⟨0x2040, 32, 6, .wo, 0x0⟩
/-- R274 `INV_CMD.SIGNAL_EN`. -/
def INV_CMD_SIGNAL_EN : Field := ⟨0x2040, 39, 1, .wo, 0x0⟩
/-- R274 `INV_STATUS.POSTED`. -/
def INV_STATUS_POSTED : Field := ⟨0x2048, 0, 32, .ro, 0x0⟩
/-- R274 `INV_STATUS.DONE`. -/
def INV_STATUS_DONE : Field := ⟨0x2048, 32, 32, .ro, 0x0⟩
/-- R274 `XLATE_ERR.ROOT_REFUSED`. -/
def XLATE_ERR_ROOT_REFUSED : Field := ⟨0x2050, 0, 1, .w1c, 0x0⟩
/-- R274 `XLATE_ERR.INV_REFUSED`. -/
def XLATE_ERR_INV_REFUSED : Field := ⟨0x2050, 1, 1, .w1c, 0x0⟩
/-- R274 `XLATE_ERR.RESUME_BAD`. -/
def XLATE_ERR_RESUME_BAD : Field := ⟨0x2050, 2, 1, .w1c, 0x0⟩
/-- R274 `XLATE_ERR.FQ_REFUSED`. -/
def XLATE_ERR_FQ_REFUSED : Field := ⟨0x2050, 3, 1, .w1c, 0x0⟩
/-- R275 `FAULT_POLICY.TIMEOUT_MS`. -/
def FAULT_POLICY_TIMEOUT_MS : Field := ⟨0xA00, 0, 32, .rw, 0x0⟩
/-- R275 `XLATE_COUNTS.FAULTS`. -/
def XLATE_COUNTS_FAULTS : Field := ⟨0xA08, 0, 32, .ro, 0x0⟩
/-- R275 `XLATE_COUNTS.INVALIDATES`. -/
def XLATE_COUNTS_INVALIDATES : Field := ⟨0xA08, 32, 32, .ro, 0x0⟩
/-- R275 `PLACE_COUNT.ADDR`. -/
def PLACE_COUNT_ADDR : Field := ⟨0xA10, 12, 43, .rw, 0x0⟩
/-- R275 `SEALED_XLATE.IN`. -/
def SEALED_XLATE_IN : Field := ⟨0xA18, 0, 32, .ro, 0x0⟩
/-- R275 `SEALED_XLATE.OUT`. -/
def SEALED_XLATE_OUT : Field := ⟨0xA18, 32, 32, .ro, 0x0⟩
/-- R276 `WALK_CAP.WALKERS`. -/
def WALK_CAP_WALKERS : Field := ⟨0x100, 0, 8, .ro, 0x60⟩
/-- R276 `WALK_CAP.CACHE`. -/
def WALK_CAP_CACHE : Field := ⟨0x100, 16, 12, .ro, 0x800⟩
/-- R276 `WALK_STATS.WALKS`. -/
def WALK_STATS_WALKS : Field := ⟨0x108, 0, 32, .ro, 0x0⟩
/-- R276 `WALK_STATS.CACHE_HITS`. -/
def WALK_STATS_CACHE_HITS : Field := ⟨0x108, 32, 32, .ro, 0x0⟩
/-- R276 `WALK_FAULTS.FAULTS`. -/
def WALK_FAULTS_FAULTS : Field := ⟨0x110, 0, 32, .ro, 0x0⟩
/-- R276 `WALK_FAULTS.CONTIG_MISMATCH`. -/
def WALK_FAULTS_CONTIG_MISMATCH : Field := ⟨0x110, 32, 32, .ro, 0x0⟩
/-- R276 `INV_STATS.COMPLETED`. -/
def INV_STATS_COMPLETED : Field := ⟨0x118, 0, 32, .ro, 0x0⟩
/-- R276 `INV_STATS.GUEST_LATE`. -/
def INV_STATS_GUEST_LATE : Field := ⟨0x118, 32, 16, .ro, 0x0⟩
/-- R276 `WALK_LATENCY.MAX_NS`. -/
def WALK_LATENCY_MAX_NS : Field := ⟨0x120, 0, 16, .ro, 0x0⟩
/-- R292 `RANGE[i].ENABLE`, entries 16 apart. -/
def RANGE_ENABLE : Field := ⟨0x100, 0, 1, .rw, 0x0⟩
/-- R292 `RANGE[i].CLASS`, entries 16 apart. -/
def RANGE_CLASS : Field := ⟨0x100, 1, 3, .rw, 0x0⟩
/-- R292 `RANGE[i].BASE`, entries 16 apart. -/
def RANGE_BASE : Field := ⟨0x100, 21, 31, .rw, 0x0⟩
/-- R292 `RANGE_END[i].LAST`, entries 16 apart. -/
def RANGE_END_LAST : Field := ⟨0x108, 21, 31, .rw, 0x0⟩
/-- R292 `CLASS_POOL`. -/
def CLASS_POOL : Field := ⟨0x200, 0, 16, .rw, 0x9400⟩
/-- R292 `DEFAULT_CLASS.HBM`. -/
def DEFAULT_CLASS_HBM : Field := ⟨0x208, 0, 3, .rw, 0x0⟩
/-- R292 `DEFAULT_CLASS.PEAT`. -/
def DEFAULT_CLASS_PEAT : Field := ⟨0x208, 4, 3, .rw, 0x5⟩
/-- R292 `DEFAULT_CLASS.HOST`. -/
def DEFAULT_CLASS_HOST : Field := ⟨0x208, 8, 3, .rw, 0x7⟩
/-- R292 `LOOP_CTRL.Q_HIGH`. -/
def LOOP_CTRL_Q_HIGH : Field := ⟨0x210, 0, 7, .rw, 0x30⟩
/-- R292 `LOOP_CTRL.Q_LOW`. -/
def LOOP_CTRL_Q_LOW : Field := ⟨0x210, 8, 7, .rw, 0x10⟩
/-- R292 `LOOP_CTRL.AI_STEP`. -/
def LOOP_CTRL_AI_STEP : Field := ⟨0x210, 16, 8, .rw, 0x8⟩
/-- R292 `LOOP_CTRL.MD_SHIFT`. -/
def LOOP_CTRL_MD_SHIFT : Field := ⟨0x210, 24, 3, .rw, 0x3⟩
/-- R292 `LOOP_CTRL.EWMA_SHIFT`. -/
def LOOP_CTRL_EWMA_SHIFT : Field := ⟨0x210, 28, 3, .rw, 0x4⟩
/-- R292 `LOOP_CTRL.FREEZE`. -/
def LOOP_CTRL_FREEZE : Field := ⟨0x210, 32, 1, .rw, 0x0⟩
/-- R292 `POOL_STATUS[p].DELIVERABLE`, entries 8 apart. -/
def POOL_STATUS_DELIVERABLE : Field := ⟨0x220, 0, 16, .ro, 0x0⟩
/-- R292 `POOL_STATUS[p].GUARANTEED`, entries 8 apart. -/
def POOL_STATUS_GUARANTEED : Field := ⟨0x220, 16, 16, .ro, 0x0⟩
/-- R292 `POOL_STATUS[p].FACTOR`, entries 8 apart. -/
def POOL_STATUS_FACTOR : Field := ⟨0x220, 32, 9, .ro, 0x100⟩
/-- R292 `POOL_STATUS[p].REDUCED`, entries 8 apart. -/
def POOL_STATUS_REDUCED : Field := ⟨0x220, 48, 1, .ro, 0x0⟩
/-- R292 `POOL_STATUS[p].Q`, entries 8 apart. -/
def POOL_STATUS_Q : Field := ⟨0x220, 56, 8, .ro, 0x0⟩
/-- R292 `SLOT_STATUS.MAX_ALLOTTED`. -/
def SLOT_STATUS_MAX_ALLOTTED : Field := ⟨0x238, 0, 7, .ro, 0x0⟩
/-- R292 `SLOT_STATUS.SEALED_GBS`. -/
def SLOT_STATUS_SEALED_GBS : Field := ⟨0x238, 16, 16, .ro, 0x0⟩
/-- R292 `ADMIT_STATS.REFUSED`. -/
def ADMIT_STATS_REFUSED : Field := ⟨0x240, 0, 32, .ro, 0x0⟩
/-- R293 `REG_CLASS[c].GUARANTEE`, entries 8 apart. -/
def REG_CLASS_GUARANTEE : Field := ⟨0xB00, 0, 16, .rw, 0x0⟩
/-- R293 `REG_CLASS[c].CEILING`, entries 8 apart. -/
def REG_CLASS_CEILING : Field := ⟨0xB00, 16, 16, .rw, 0xFFFF⟩
/-- R293 `REG_CLASS[c].LATENCY_NS`, entries 8 apart. -/
def REG_CLASS_LATENCY_NS : Field := ⟨0xB00, 32, 16, .rw, 0x0⟩
/-- R293 `REG_CLASS[c].BASE_PRIO`, entries 8 apart. -/
def REG_CLASS_BASE_PRIO : Field := ⟨0xB00, 48, 3, .rw, 0x2⟩
/-- R293 `REG_DECISION[c].RATE`, entries 8 apart. -/
def REG_DECISION_RATE : Field := ⟨0xB40, 0, 16, .ro, 0x0⟩
/-- R293 `REG_DECISION[c].PRIO`, entries 8 apart. -/
def REG_DECISION_PRIO : Field := ⟨0xB40, 16, 3, .ro, 0x0⟩
/-- R293 `REG_DECISION[c].LAT_AVG_NS`, entries 8 apart. -/
def REG_DECISION_LAT_AVG_NS : Field := ⟨0xB40, 32, 16, .ro, 0x0⟩
/-- R293 `SLOT_ALLOT.SLOTS`. -/
def SLOT_ALLOT_SLOTS : Field := ⟨0xB80, 0, 7, .ro, 0x0⟩
/-- R293 `SLOT_ALLOT.CHANNELS`. -/
def SLOT_ALLOT_CHANNELS : Field := ⟨0xB80, 16, 9, .ro, 0x0⟩
/-- R294 `REG_NOTICE.REDUCED`. -/
def REG_NOTICE_REDUCED : Field := ⟨0x3000, 0, 1, .ro, 0x0⟩
/-- R294 `REG_NOTICE.CHANGES`. -/
def REG_NOTICE_CHANGES : Field := ⟨0x3000, 16, 16, .ro, 0x0⟩
/-- R303 `IN_POST.LENGTH`. -/
def IN_POST_LENGTH : Field := ⟨0x4000, 0, 14, .wo, 0x0⟩
/-- R303 `IN_STATUS.BUSY`. -/
def IN_STATUS_BUSY : Field := ⟨0x4008, 0, 1, .ro, 0x0⟩
/-- R303 `IN_STATUS.DROPPED`. -/
def IN_STATUS_DROPPED : Field := ⟨0x4008, 16, 16, .ro, 0x0⟩
/-- R303 `IN_STATUS.ACCEPTED`. -/
def IN_STATUS_ACCEPTED : Field := ⟨0x4008, 32, 32, .ro, 0x0⟩
/-- R303 `OUT_STATUS.LENGTH`. -/
def OUT_STATUS_LENGTH : Field := ⟨0xC000, 0, 14, .ro, 0x0⟩
/-- R303 `OUT_STATUS.QUEUED`. -/
def OUT_STATUS_QUEUED : Field := ⟨0xC000, 16, 10, .ro, 0x0⟩
/-- R303 `OUT_ACK.RELEASE`. -/
def OUT_ACK_RELEASE : Field := ⟨0xC008, 0, 1, .wo, 0x0⟩
/-- R321 `CTX_CMD.OP`. -/
def CTX_CMD_OP : Field := ⟨0x100, 0, 4, .wo, 0x0⟩
/-- R321 `CTX_STATUS.STATE`. -/
def CTX_STATUS_STATE : Field := ⟨0x108, 0, 3, .ro, 0x0⟩
/-- R321 `CTX_STATUS.SEALED`. -/
def CTX_STATUS_SEALED : Field := ⟨0x108, 3, 1, .ro, 0x0⟩
/-- R321 `CTX_STATUS.SESSION`. -/
def CTX_STATUS_SESSION : Field := ⟨0x108, 4, 1, .ro, 0x0⟩
/-- R321 `CTX_STATUS.REFUSE`. -/
def CTX_STATUS_REFUSE : Field := ⟨0x108, 8, 4, .ro, 0x0⟩
/-- R321 `COPPICE_REQ.KIND`. -/
def COPPICE_REQ_KIND : Field := ⟨0x110, 0, 4, .rw, 0x0⟩
/-- R321 `COPPICE_REQ.PARK`. -/
def COPPICE_REQ_PARK : Field := ⟨0x110, 4, 1, .rw, 0x0⟩
/-- R321 `COPPICE_REQ.INDEX`. -/
def COPPICE_REQ_INDEX : Field := ⟨0x110, 16, 32, .rw, 0x0⟩
/-- R321 `COPPICE_REQ.TARGET`. -/
def COPPICE_REQ_TARGET : Field := ⟨0x110, 48, 8, .rw, 0xFF⟩
/-- R321 `COPPICE_COUNT.COUNT`. -/
def COPPICE_COUNT_COUNT : Field := ⟨0x118, 0, 20, .rw, 0x1⟩
/-- R321 `COPPICE_STATUS.REASON`. -/
def COPPICE_STATUS_REASON : Field := ⟨0x120, 0, 4, .ro, 0x0⟩
/-- R321 `COPPICE_STATUS.TIME_US`. -/
def COPPICE_STATUS_TIME_US : Field := ⟨0x120, 32, 32, .ro, 0x0⟩
/-- R321 `SEAL_PACE.HBM_US`. -/
def SEAL_PACE_HBM_US : Field := ⟨0x128, 0, 8, .rw, 0x8⟩
/-- R321 `SEAL_PACE.PEAT_US`. -/
def SEAL_PACE_PEAT_US : Field := ⟨0x128, 8, 8, .rw, 0x40⟩
/-- R321 `SEAL_PACE.HOST_US`. -/
def SEAL_PACE_HOST_US : Field := ⟨0x128, 16, 8, .rw, 0x40⟩
/-- R321 `SEAL_FLOOR.HBM_US`. -/
def SEAL_FLOOR_HBM_US : Field := ⟨0x130, 0, 8, .ro, 0x6⟩
/-- R321 `SEAL_FLOOR.PEAT_US`. -/
def SEAL_FLOOR_PEAT_US : Field := ⟨0x130, 8, 8, .ro, 0x30⟩
/-- R321 `SEAL_FLOOR.HOST_US`. -/
def SEAL_FLOOR_HOST_US : Field := ⟨0x130, 16, 8, .ro, 0x30⟩
/-- R321 `SEALED_DENIED.COUNT`. -/
def SEALED_DENIED_COUNT : Field := ⟨0x140, 0, 32, .ro, 0x0⟩
/-- R321 `SEALED_DENIED.LAST`. -/
def SEALED_DENIED_LAST : Field := ⟨0x140, 32, 32, .ro, 0x0⟩
/-- R322 `CTX_STATE.STATE`. -/
def CTX_STATE_STATE : Field := ⟨0x3008, 0, 3, .ro, 0x0⟩
/-- R322 `CTX_STATE.SEALED`. -/
def CTX_STATE_SEALED : Field := ⟨0x3008, 3, 1, .ro, 0x0⟩
/-- R322 `FAULT_INFO.SEQ`. -/
def FAULT_INFO_SEQ : Field := ⟨0x3010, 0, 32, .ro, 0x0⟩
/-- R322 `FAULT_INFO.SEVERITY`. -/
def FAULT_INFO_SEVERITY : Field := ⟨0x3010, 32, 2, .ro, 0x0⟩
/-- R322 `FAULT_INFO.CLASS`. -/
def FAULT_INFO_CLASS : Field := ⟨0x3010, 36, 12, .ro, 0x0⟩
/-- R322 `PARK_AREA.SLOTS`. -/
def PARK_AREA_SLOTS : Field := ⟨0x3018, 0, 7, .rw, 0x0⟩
/-- R322 `PARK_AREA.ADDR`. -/
def PARK_AREA_ADDR : Field := ⟨0x3018, 16, 39, .rw, 0x0⟩
/-- R323 `CT_PASSES.COMPLETED`. -/
def CT_PASSES_COMPLETED : Field := ⟨0x0, 0, 48, .ro, 0x0⟩
/-- R323 `CT_OUTCOMES.REFUSED`. -/
def CT_OUTCOMES_REFUSED : Field := ⟨0x8, 0, 32, .ro, 0x0⟩
/-- R323 `CT_OUTCOMES.FAILED`. -/
def CT_OUTCOMES_FAILED : Field := ⟨0x8, 32, 32, .ro, 0x0⟩
/-- R323 `CT_BYTES.HBM`. -/
def CT_BYTES_HBM : Field := ⟨0x10, 0, 64, .ro, 0x0⟩
/-- R323 `CT_BYTES.PEAT`. -/
def CT_BYTES_PEAT : Field := ⟨0x18, 0, 64, .ro, 0x0⟩
/-- R323 `CT_BYTES.HOST`. -/
def CT_BYTES_HOST : Field := ⟨0x20, 0, 64, .ro, 0x0⟩
/-- R323 `CT_BYTES.PLARUS`. -/
def CT_BYTES_PLARUS : Field := ⟨0x28, 0, 64, .ro, 0x0⟩
/-- R323 `CT_TILE_TIME.US`. -/
def CT_TILE_TIME_US : Field := ⟨0x30, 0, 64, .ro, 0x0⟩
/-- R323 `CT_GUEST_TIME.US`. -/
def CT_GUEST_TIME_US : Field := ⟨0x38, 0, 64, .ro, 0x0⟩
/-- R323 `CT_FAULTS.TRANSLATION`. -/
def CT_FAULTS_TRANSLATION : Field := ⟨0x40, 0, 32, .ro, 0x0⟩
/-- R323 `CT_FAULTS.RECORDS`. -/
def CT_FAULTS_RECORDS : Field := ⟨0x40, 32, 32, .ro, 0x0⟩
/-- R323 `CT_COPPICE.COUNT`. -/
def CT_COPPICE_COUNT : Field := ⟨0x48, 0, 32, .ro, 0x0⟩
/-- R323 `CT_COPPICE.PREEMPTS`. -/
def CT_COPPICE_PREEMPTS : Field := ⟨0x48, 32, 32, .ro, 0x0⟩
/-- R344 `KILN_CAP.ROUNDS`. -/
def KILN_CAP_ROUNDS : Field := ⟨0x100, 0, 6, .ro, 0x20⟩
/-- R344 `KILN_CAP.PARTIES`. -/
def KILN_CAP_PARTIES : Field := ⟨0x100, 8, 7, .ro, 0x40⟩
/-- R344 `KILN_CAP.HUBS`. -/
def KILN_CAP_HUBS : Field := ⟨0x100, 16, 5, .ro, 0x10⟩
/-- R344 `KILN_POOL.TOTAL`. -/
def KILN_POOL_TOTAL : Field := ⟨0x108, 0, 20, .ro, 0x0⟩
/-- R344 `KILN_POOL.FREE`. -/
def KILN_POOL_FREE : Field := ⟨0x108, 20, 20, .ro, 0x0⟩
/-- R344 `KILN_POOL.WAITING`. -/
def KILN_POOL_WAITING : Field := ⟨0x108, 40, 8, .ro, 0x0⟩
/-- R344 `KILN_POOL_REQ.COUNT`. -/
def KILN_POOL_REQ_COUNT : Field := ⟨0x110, 0, 20, .rw, 0x0⟩
/-- R344 `KILN_POOL_STATUS.REASON`. -/
def KILN_POOL_STATUS_REASON : Field := ⟨0x118, 0, 4, .ro, 0x0⟩
/-- R344 `KILN_ROUNDS.ACTIVE`. -/
def KILN_ROUNDS_ACTIVE : Field := ⟨0x120, 0, 6, .ro, 0x0⟩
/-- R344 `KILN_ROUNDS.RELEASED`. -/
def KILN_ROUNDS_RELEASED : Field := ⟨0x120, 16, 16, .ro, 0x0⟩
/-- R344 `KILN_ROUNDS.EXPIRED`. -/
def KILN_ROUNDS_EXPIRED : Field := ⟨0x120, 32, 16, .ro, 0x0⟩
/-- R344 `KILN_ROUNDS.FAILED`. -/
def KILN_ROUNDS_FAILED : Field := ⟨0x120, 48, 16, .ro, 0x0⟩
/-- R344 `KILN_SELECT.SLOT`. -/
def KILN_SELECT_SLOT : Field := ⟨0x128, 0, 5, .rw, 0x0⟩
/-- R344 `KILN_ROUND.HANDLE`. -/
def KILN_ROUND_HANDLE : Field := ⟨0x130, 0, 32, .ro, 0x0⟩
/-- R344 `KILN_ROUND.STATE`. -/
def KILN_ROUND_STATE : Field := ⟨0x130, 32, 3, .ro, 0x0⟩
/-- R344 `KILN_ROUND.COUNTED`. -/
def KILN_ROUND_COUNTED : Field := ⟨0x130, 40, 8, .ro, 0x0⟩
/-- R344 `KILN_ROUND.QUORUM`. -/
def KILN_ROUND_QUORUM : Field := ⟨0x130, 48, 8, .ro, 0x0⟩
/-- R344 `KILN_ROUND.PARTIES`. -/
def KILN_ROUND_PARTIES : Field := ⟨0x130, 56, 8, .ro, 0x0⟩
/-- R344 `KILN_ROUND.FRAMES`. -/
def KILN_ROUND_FRAMES : Field := ⟨0x138, 0, 20, .ro, 0x0⟩
/-- R344 `KILN_STATS.COMMITS`. -/
def KILN_STATS_COMMITS : Field := ⟨0x140, 0, 32, .ro, 0x0⟩
/-- R344 `KILN_STATS.DISCARDED`. -/
def KILN_STATS_DISCARDED : Field := ⟨0x140, 32, 16, .ro, 0x0⟩
/-- R344 `KILN_STATS.ABORTED`. -/
def KILN_STATS_ABORTED : Field := ⟨0x140, 48, 16, .ro, 0x0⟩
/-- R374 `SITE_STATE.OTP_STATE`. -/
def SITE_STATE_OTP_STATE : Field := ⟨0x100, 0, 2, .ro, 0x0⟩
/-- R374 `SITE_STATE.REPAIR_VALID`. -/
def SITE_STATE_REPAIR_VALID : Field := ⟨0x100, 2, 1, .ro, 0x0⟩
/-- R374 `SITE_STATE.PRESENT`. -/
def SITE_STATE_PRESENT : Field := ⟨0x100, 3, 1, .ro, 0x0⟩
/-- R374 `SITE_STATE.LINK`. -/
def SITE_STATE_LINK : Field := ⟨0x100, 4, 4, .ro, 0x0⟩
/-- R374 `SITE_STATE.ATTESTED`. -/
def SITE_STATE_ATTESTED : Field := ⟨0x100, 8, 1, .ro, 0x0⟩
/-- R374 `SITE_STATE.SLOT_USED`. -/
def SITE_STATE_SLOT_USED : Field := ⟨0x100, 9, 1, .ro, 0x0⟩
/-- R374 `SITE_STATE.RATE`. -/
def SITE_STATE_RATE : Field := ⟨0x100, 10, 2, .ro, 0x0⟩
/-- R374 `SITE_STATE.LIVE_HALVES`. -/
def SITE_STATE_LIVE_HALVES : Field := ⟨0x100, 16, 8, .ro, 0x0⟩
/-- R374 `SITE_STATE.FENCE_CAUSE`. -/
def SITE_STATE_FENCE_CAUSE : Field := ⟨0x100, 24, 8, .ro, 0x0⟩
/-- R374 `SITE_STATE.CLEAR_GEN`. -/
def SITE_STATE_CLEAR_GEN : Field := ⟨0x100, 32, 16, .ro, 0x0⟩
/-- R374 `SITE_RAIL.SETPOINT_MV`. -/
def SITE_RAIL_SETPOINT_MV : Field := ⟨0x108, 0, 10, .rwl, 0x2EE⟩
/-- R374 `SITE_RAIL_STATUS.MEASURED_MV`. -/
def SITE_RAIL_STATUS_MEASURED_MV : Field := ⟨0x110, 0, 10, .ro, 0x0⟩
/-- R374 `SITE_RAIL_STATUS.CURRENT_A`. -/
def SITE_RAIL_STATUS_CURRENT_A : Field := ⟨0x110, 12, 8, .ro, 0x0⟩
/-- R374 `SITE_RAIL_STATUS.POWER_W`. -/
def SITE_RAIL_STATUS_POWER_W : Field := ⟨0x110, 20, 8, .ro, 0x0⟩
/-- R374 `SITE_RAIL_STATUS.RAIL_GOOD`. -/
def SITE_RAIL_STATUS_RAIL_GOOD : Field := ⟨0x110, 28, 1, .ro, 0x0⟩
/-- R374 `SITE_RAIL_STATUS.LIMIT_A`. -/
def SITE_RAIL_STATUS_LIMIT_A : Field := ⟨0x110, 32, 8, .ro, 0x0⟩
/-- R374 `SITE_CFG.MAX_RATE`. -/
def SITE_CFG_MAX_RATE : Field := ⟨0x118, 0, 2, .rw, 0x3⟩
/-- R374 `SITE_CFG.IDLE_MS`. -/
def SITE_CFG_IDLE_MS : Field := ⟨0x118, 4, 12, .rw, 0x0⟩
/-- R374 `SITE_CFG.PEER_GBS`. -/
def SITE_CFG_PEER_GBS : Field := ⟨0x118, 16, 16, .rw, 0x100⟩
/-- R374 `SITE_DECL0.CLASSES`. -/
def SITE_DECL0_CLASSES : Field := ⟨0x120, 0, 4, .ro, 0x0⟩
/-- R374 `SITE_DECL0.AGENTS`. -/
def SITE_DECL0_AGENTS : Field := ⟨0x120, 4, 3, .ro, 0x0⟩
/-- R374 `SITE_DECL0.XLATE_CACHE`. -/
def SITE_DECL0_XLATE_CACHE : Field := ⟨0x120, 7, 1, .ro, 0x0⟩
/-- R374 `SITE_DECL0.MIN_GBS`. -/
def SITE_DECL0_MIN_GBS : Field := ⟨0x120, 16, 11, .ro, 0x0⟩
/-- R374 `SITE_DECL0.M_CAPACITY_GIB`. -/
def SITE_DECL0_M_CAPACITY_GIB : Field := ⟨0x120, 32, 32, .ro, 0x0⟩
/-- R374 `SITE_DECL1.INV_BOUND_US`. -/
def SITE_DECL1_INV_BOUND_US : Field := ⟨0x128, 0, 16, .ro, 0x0⟩
/-- R374 `SITE_DECL1.CLEAR_BOUND_US`. -/
def SITE_DECL1_CLEAR_BOUND_US : Field := ⟨0x128, 16, 16, .ro, 0x0⟩
/-- R374 `SITE_DECL1.STOP_BOUND_US`. -/
def SITE_DECL1_STOP_BOUND_US : Field := ⟨0x128, 32, 16, .ro, 0x0⟩
/-- R374 `SITE_DECL2.BEAT_US`. -/
def SITE_DECL2_BEAT_US : Field := ⟨0x130, 0, 17, .ro, 0x0⟩
/-- R374 `LANE_STATUS.MODE[m]`, entries 8 bits apart. -/
def LANE_STATUS_MODE : Field := ⟨0x138, 0, 2, .ro, 0x0⟩
/-- R374 `LANE_STATUS.SPARES_USED[m]`, entries 8 bits apart. -/
def LANE_STATUS_SPARES_USED : Field := ⟨0x138, 2, 4, .ro, 0x0⟩
/-- R374 `LANE_STATUS.RECHOSEN[m]`, entries 8 bits apart. -/
def LANE_STATUS_RECHOSEN : Field := ⟨0x138, 6, 1, .ro, 0x0⟩
/-- R374 `KPP_COUNTS.CRC_ERRORS`. -/
def KPP_COUNTS_CRC_ERRORS : Field := ⟨0x140, 0, 16, .ro, 0x0⟩
/-- R374 `KPP_COUNTS.REPLAYS`. -/
def KPP_COUNTS_REPLAYS : Field := ⟨0x140, 16, 16, .ro, 0x0⟩
/-- R374 `KPP_COUNTS.RETRAINS`. -/
def KPP_COUNTS_RETRAINS : Field := ⟨0x140, 32, 16, .ro, 0x0⟩
/-- R374 `KPP_COUNTS.DROPPED`. -/
def KPP_COUNTS_DROPPED : Field := ⟨0x140, 48, 16, .ro, 0x0⟩
/-- R374 `SITE_OP.REASON`. -/
def SITE_OP_REASON : Field := ⟨0x148, 0, 4, .ro, 0x0⟩
/-- R374 `SITE_STATUS.REG_TIMEOUT`. -/
def SITE_STATUS_REG_TIMEOUT : Field := ⟨0x150, 0, 1, .w1c, 0x0⟩
/-- R374 `SITE_STATUS.REG_BLOCKED`. -/
def SITE_STATUS_REG_BLOCKED : Field := ⟨0x150, 32, 16, .ro, 0x0⟩
/-- R374 `SITE_MEAS[i]`, entries 8 apart. -/
def SITE_MEAS : Field := ⟨0x180, 0, 64, .ro, 0x0⟩
/-- R375 `SITE_NOTICE.DEGRADED`. -/
def SITE_NOTICE_DEGRADED : Field := ⟨0x3020, 0, 8, .ro, 0x0⟩
/-- R375 `SITE_NOTICE.LOST`. -/
def SITE_NOTICE_LOST : Field := ⟨0x3020, 8, 8, .ro, 0x0⟩
/-- R375 `SITE_NOTICE.CHANGES`. -/
def SITE_NOTICE_CHANGES : Field := ⟨0x3020, 32, 16, .ro, 0x0⟩
/-- R403 `HOST_LINK.RATE`. -/
def HOST_LINK_RATE : Field := ⟨0x100, 0, 2, .ro, 0x0⟩
/-- R403 `HOST_LINK.WIDTH`. -/
def HOST_LINK_WIDTH : Field := ⟨0x100, 4, 5, .ro, 0x0⟩
/-- R403 `HOST_LINK.FLIT`. -/
def HOST_LINK_FLIT : Field := ⟨0x100, 12, 1, .ro, 0x0⟩
/-- R403 `HOST_APERTURE.BASE`. -/
def HOST_APERTURE_BASE : Field := ⟨0x108, 21, 31, .rw, 0x0⟩
/-- R403 `HOST_IDE.REQUIRE`. -/
def HOST_IDE_REQUIRE : Field := ⟨0x110, 0, 1, .rw, 0x0⟩
/-- R403 `HOST_IDE.LINK_SECURE`. -/
def HOST_IDE_LINK_SECURE : Field := ⟨0x110, 1, 1, .ro, 0x0⟩
/-- R403 `HOST_IDE_SEL`. -/
def HOST_IDE_SEL : Field := ⟨0x118, 0, 64, .ro, 0x0⟩
/-- R403 `HOST_COUNTS.UNEXPECTED`. -/
def HOST_COUNTS_UNEXPECTED : Field := ⟨0x120, 0, 16, .ro, 0x0⟩
/-- R403 `HOST_COUNTS.TIMEOUTS`. -/
def HOST_COUNTS_TIMEOUTS : Field := ⟨0x120, 16, 16, .ro, 0x0⟩
/-- R403 `HOST_COUNTS.UR_SENT`. -/
def HOST_COUNTS_UR_SENT : Field := ⟨0x120, 32, 16, .ro, 0x0⟩
/-- R403 `HOST_COUNTS.BME_BLOCKED`. -/
def HOST_COUNTS_BME_BLOCKED : Field := ⟨0x120, 48, 16, .ro, 0x0⟩
/-- R403 `HOST_ERRS.POISONED`. -/
def HOST_ERRS_POISONED : Field := ⟨0x128, 0, 16, .ro, 0x0⟩
/-- R403 `HOST_ERRS.CA_SENT`. -/
def HOST_ERRS_CA_SENT : Field := ⟨0x128, 16, 16, .ro, 0x0⟩
/-- R403 `HOST_ERRS.IDE_DROPPED`. -/
def HOST_ERRS_IDE_DROPPED : Field := ⟨0x128, 32, 16, .ro, 0x0⟩
/-- R403 `HOST_RESET.LAST`. -/
def HOST_RESET_LAST : Field := ⟨0x130, 0, 3, .ro, 0x0⟩
/-- R403 `HOST_RESET.VF_FLRS`. -/
def HOST_RESET_VF_FLRS : Field := ⟨0x130, 32, 16, .ro, 0x0⟩
/-- R403 `HOST_PTM.RESPONSES`. -/
def HOST_PTM_RESPONSES : Field := ⟨0x138, 0, 32, .ro, 0x0⟩
/-- R404 `APERTURE.BASE`. -/
def APERTURE_BASE : Field := ⟨0x3100, 21, 34, .rw, 0x0⟩
/-- R405 `SLOT_STATUS.PRESENT`. -/
def SLOT_STATUS_PRESENT : Field := ⟨0x100, 0, 1, .ro, 0x0⟩
/-- R405 `SLOT_STATUS.PRESENCE_CHANGED`. -/
def SLOT_STATUS_PRESENCE_CHANGED : Field := ⟨0x100, 1, 1, .w1c, 0x0⟩
/-- R405 `SLOT_STATUS.ATTN_PRESSED`. -/
def SLOT_STATUS_ATTN_PRESSED : Field := ⟨0x100, 2, 1, .w1c, 0x0⟩
/-- R405 `SLOT_STATUS.POWER_FAULT`. -/
def SLOT_STATUS_POWER_FAULT : Field := ⟨0x100, 3, 1, .w1c, 0x0⟩
/-- R405 `SLOT_STATUS.POWER_ON`. -/
def SLOT_STATUS_POWER_ON : Field := ⟨0x100, 4, 1, .ro, 0x0⟩
/-- R405 `SLOT_STATUS.SURPRISE`. -/
def SLOT_STATUS_SURPRISE : Field := ⟨0x100, 5, 1, .w1c, 0x0⟩
/-- R405 `SLOT_CTRL.ATTN_IND`. -/
def SLOT_CTRL_ATTN_IND : Field := ⟨0x108, 0, 2, .rw, 0x3⟩
/-- R405 `SLOT_CTRL.PWR_IND`. -/
def SLOT_CTRL_PWR_IND : Field := ⟨0x108, 2, 2, .ro, 0x3⟩
/-- R405 `PEAT_LINK.RATE`. -/
def PEAT_LINK_RATE : Field := ⟨0x110, 0, 2, .ro, 0x0⟩
/-- R405 `PEAT_LINK.WIDTH`. -/
def PEAT_LINK_WIDTH : Field := ⟨0x110, 2, 5, .ro, 0x0⟩
/-- R405 `PEAT_LINK.FLIT256`. -/
def PEAT_LINK_FLIT256 : Field := ⟨0x110, 7, 1, .ro, 0x0⟩
/-- R405 `PEAT_LINK.IDE_SECURE`. -/
def PEAT_LINK_IDE_SECURE : Field := ⟨0x110, 8, 1, .ro, 0x0⟩
/-- R405 `PEAT_CAPACITY.GIB`. -/
def PEAT_CAPACITY_GIB : Field := ⟨0x118, 0, 13, .ro, 0x0⟩
/-- R405 `PEAT_CAPACITY.DEVICE`. -/
def PEAT_CAPACITY_DEVICE : Field := ⟨0x118, 16, 32, .ro, 0x0⟩
/-- R405 `PEAT_CFG.IDE_REQUIRED`. -/
def PEAT_CFG_IDE_REQUIRED : Field := ⟨0x120, 0, 1, .rw, 0x1⟩
/-- R405 `PEAT_CFG.MAX_RATE`. -/
def PEAT_CFG_MAX_RATE : Field := ⟨0x120, 1, 2, .rw, 0x2⟩
/-- R405 `PEAT_CFG.SRIS`. -/
def PEAT_CFG_SRIS : Field := ⟨0x120, 3, 1, .rw, 0x0⟩
/-- R405 `PEAT_COUNTS.POISON`. -/
def PEAT_COUNTS_POISON : Field := ⟨0x128, 0, 16, .ro, 0x0⟩
/-- R405 `PEAT_COUNTS.TIMEOUTS`. -/
def PEAT_COUNTS_TIMEOUTS : Field := ⟨0x128, 16, 16, .ro, 0x0⟩
/-- R405 `PEAT_COUNTS.SURPRISE`. -/
def PEAT_COUNTS_SURPRISE : Field := ⟨0x128, 32, 16, .ro, 0x0⟩
/-- R405 `PEAT_OP.REASON`. -/
def PEAT_OP_REASON : Field := ⟨0x130, 0, 4, .ro, 0x0⟩
/-- R437 `PLR_ADDR.MAC`. -/
def PLR_ADDR_MAC : Field := ⟨0x100, 0, 48, .rw, 0x0⟩
/-- R437 `PLR_ADDR6`. -/
def PLR_ADDR6_W0 : Field := ⟨0x108, 0, 64, .rw, 0x0⟩
/-- R437 `PLR_ADDR6`. -/
def PLR_ADDR6_W1 : Field := ⟨0x110, 0, 64, .rw, 0x0⟩
/-- R437 `PLR_CFG.ETHERTYPE`. -/
def PLR_CFG_ETHERTYPE : Field := ⟨0x118, 0, 16, .rw, 0x88B5⟩
/-- R437 `PLR_CFG.UDP_PORT`. -/
def PLR_CFG_UDP_PORT : Field := ⟨0x118, 16, 16, .rw, 0x88B5⟩
/-- R437 `PLR_CFG.FRAME_MAX`. -/
def PLR_CFG_FRAME_MAX : Field := ⟨0x118, 32, 14, .rw, 0x2400⟩
/-- R437 `PLR_CFG.TC`. -/
def PLR_CFG_TC : Field := ⟨0x118, 48, 3, .rw, 0x3⟩
/-- R437 `PLR_CFG.VLAN_EN`. -/
def PLR_CFG_VLAN_EN : Field := ⟨0x118, 51, 1, .rw, 0x0⟩
/-- R437 `PLR_CFG.VLAN_ID`. -/
def PLR_CFG_VLAN_ID : Field := ⟨0x118, 52, 12, .rw, 0x0⟩
/-- R437 `RTX_CTRL.RTO_MIN_NS`. -/
def RTX_CTRL_RTO_MIN_NS : Field := ⟨0x120, 0, 16, .rw, 0xFA0⟩
/-- R437 `RTX_CTRL.RTO_MAX_US`. -/
def RTX_CTRL_RTO_MAX_US : Field := ⟨0x120, 16, 24, .rw, 0x2710⟩
/-- R437 `RTX_CTRL.RETRY_MAX`. -/
def RTX_CTRL_RETRY_MAX : Field := ⟨0x120, 40, 8, .rw, 0xA⟩
/-- R437 `CC_CTRL.TARGET_NS`. -/
def CC_CTRL_TARGET_NS : Field := ⟨0x128, 0, 16, .rw, 0x3E8⟩
/-- R437 `CC_CTRL.AI_BYTES`. -/
def CC_CTRL_AI_BYTES : Field := ⟨0x128, 16, 16, .rw, 0x1000⟩
/-- R437 `CC_CTRL.BETA`. -/
def CC_CTRL_BETA : Field := ⟨0x128, 32, 8, .rw, 0xC0⟩
/-- R437 `CC_CTRL.ECN_CUT`. -/
def CC_CTRL_ECN_CUT : Field := ⟨0x128, 40, 8, .rw, 0x40⟩
/-- R437 `CC_CTRL.FREEZE`. -/
def CC_CTRL_FREEZE : Field := ⟨0x128, 48, 1, .rw, 0x0⟩
/-- R437 `CC_LIMIT.CWND_MIN`. -/
def CC_LIMIT_CWND_MIN : Field := ⟨0x130, 0, 24, .rw, 0x1000⟩
/-- R437 `CC_LIMIT.CWND_MAX_KIB`. -/
def CC_LIMIT_CWND_MAX_KIB : Field := ⟨0x130, 32, 16, .rw, 0x1000⟩
/-- R437 `SWITCH_CTRL.ENABLE`. -/
def SWITCH_CTRL_ENABLE : Field := ⟨0x138, 0, 1, .rw, 0x1⟩
/-- R437 `SWITCH_CTRL.ECN_KIB`. -/
def SWITCH_CTRL_ECN_KIB : Field := ⟨0x138, 8, 16, .rw, 0x100⟩
/-- R437 `FWD_SELECT.ENTRY`. -/
def FWD_SELECT_ENTRY : Field := ⟨0x140, 0, 12, .rw, 0x0⟩
/-- R437 `FWD_KEY.MAC`. -/
def FWD_KEY_MAC : Field := ⟨0x148, 0, 48, .rw, 0x0⟩
/-- R437 `FWD_ENTRY.VALID`. -/
def FWD_ENTRY_VALID : Field := ⟨0x150, 0, 1, .rw, 0x0⟩
/-- R437 `FWD_ENTRY.PORTS`. -/
def FWD_ENTRY_PORTS : Field := ⟨0x150, 8, 48, .rw, 0x0⟩
/-- R437 `SESSION_SELECT.INDEX`. -/
def SESSION_SELECT_INDEX : Field := ⟨0x158, 0, 10, .rw, 0x0⟩
/-- R437 `SESSION_CFG.PEER_MAC`. -/
def SESSION_CFG_PEER_MAC : Field := ⟨0x160, 0, 48, .rw, 0x0⟩
/-- R437 `SESSION_CFG.FRAMING`. -/
def SESSION_CFG_FRAMING : Field := ⟨0x160, 48, 1, .rw, 0x0⟩
/-- R437 `SESSION_CFG.KILN`. -/
def SESSION_CFG_KILN : Field := ⟨0x160, 49, 1, .rw, 0x0⟩
/-- R437 `SESSION_CFG.ALLOW_DEBUG`. -/
def SESSION_CFG_ALLOW_DEBUG : Field := ⟨0x160, 50, 1, .rw, 0x0⟩
/-- R437 `SESSION_CFG.PEER_CTX`. -/
def SESSION_CFG_PEER_CTX : Field := ⟨0x160, 56, 8, .rw, 0x0⟩
/-- R437 `SESSION_PEER.IP6`. -/
def SESSION_PEER_IP6_W0 : Field := ⟨0x168, 0, 64, .rw, 0x0⟩
/-- R437 `SESSION_PEER.IP6`. -/
def SESSION_PEER_IP6_W1 : Field := ⟨0x170, 0, 64, .rw, 0x0⟩
/-- R437 `SESSION_PEER.KEY_ID`. -/
def SESSION_PEER_KEY_ID_W0 : Field := ⟨0x178, 0, 64, .rw, 0x0⟩
/-- R437 `SESSION_PEER.KEY_ID`. -/
def SESSION_PEER_KEY_ID_W1 : Field := ⟨0x180, 0, 64, .rw, 0x0⟩
/-- R437 `SESSION_STATE.STATE`. -/
def SESSION_STATE_STATE : Field := ⟨0x188, 0, 3, .ro, 0x0⟩
/-- R437 `SESSION_STATE.KEY_PHASE`. -/
def SESSION_STATE_KEY_PHASE : Field := ⟨0x188, 3, 1, .ro, 0x0⟩
/-- R437 `SESSION_STATE.CTX`. -/
def SESSION_STATE_CTX : Field := ⟨0x188, 8, 8, .ro, 0xFF⟩
/-- R437 `SESSION_STATE.PEER_INDEX`. -/
def SESSION_STATE_PEER_INDEX : Field := ⟨0x188, 16, 10, .ro, 0x0⟩
/-- R437 `SESSION_CC.CWND`. -/
def SESSION_CC_CWND : Field := ⟨0x190, 0, 32, .ro, 0x0⟩
/-- R437 `SESSION_CC.SRTT_NS`. -/
def SESSION_CC_SRTT_NS : Field := ⟨0x190, 32, 32, .ro, 0x0⟩
/-- R437 `SESSION_CC_OVR.CWND`. -/
def SESSION_CC_OVR_CWND : Field := ⟨0x198, 0, 32, .rw, 0x0⟩
/-- R437 `SESSION_CC_OVR.OVERRIDE`. -/
def SESSION_CC_OVR_OVERRIDE : Field := ⟨0x198, 32, 1, .rw, 0x0⟩
/-- R437 `SESSION_COUNTS.RETRANSMITS`. -/
def SESSION_COUNTS_RETRANSMITS : Field := ⟨0x1A0, 0, 32, .ro, 0x0⟩
/-- R437 `SESSION_COUNTS.AUTH_DROPS`. -/
def SESSION_COUNTS_AUTH_DROPS : Field := ⟨0x1A0, 32, 32, .ro, 0x0⟩
/-- R437 `PLR_COUNTS.UNAUTH_DROPS`. -/
def PLR_COUNTS_UNAUTH_DROPS : Field := ⟨0x1A8, 0, 32, .ro, 0x0⟩
/-- R437 `PLR_COUNTS.FWD_MISS`. -/
def PLR_COUNTS_FWD_MISS : Field := ⟨0x1A8, 32, 32, .ro, 0x0⟩
/-- R437 `GROUP_SELECT.HANDLE`. -/
def GROUP_SELECT_HANDLE : Field := ⟨0x1B0, 0, 16, .rw, 0x0⟩
/-- R437 `GROUP_CFG.VALID`. -/
def GROUP_CFG_VALID : Field := ⟨0x1B8, 0, 1, .rw, 0x0⟩
/-- R437 `GROUP_CFG.CTX`. -/
def GROUP_CFG_CTX : Field := ⟨0x1B8, 8, 8, .rw, 0x0⟩
/-- R437 `GROUP_CFG.SIZE`. -/
def GROUP_CFG_SIZE : Field := ⟨0x1B8, 16, 10, .rw, 0x0⟩
/-- R437 `GROUP_CFG.RANK`. -/
def GROUP_CFG_RANK : Field := ⟨0x1B8, 32, 10, .rw, 0x0⟩
/-- R437 `GROUP_MAP.RANK`. -/
def GROUP_MAP_RANK : Field := ⟨0x1C0, 0, 10, .rw, 0x0⟩
/-- R437 `GROUP_MAP.SESSION`. -/
def GROUP_MAP_SESSION : Field := ⟨0x1C0, 16, 10, .rw, 0x0⟩
/-- R438 `PORT_CFG.MODE`. -/
def PORT_CFG_MODE : Field := ⟨0x100, 0, 3, .rw, 0x0⟩
/-- R438 `PORT_CFG.AN_EN`. -/
def PORT_CFG_AN_EN : Field := ⟨0x100, 3, 1, .rw, 0x1⟩
/-- R438 `PORT_CFG.PTP_EN`. -/
def PORT_CFG_PTP_EN : Field := ⟨0x100, 4, 1, .rw, 0x1⟩
/-- R438 `PORT_CFG.PTP_DELAY`. -/
def PORT_CFG_PTP_DELAY : Field := ⟨0x100, 5, 1, .rw, 0x0⟩
/-- R438 `PORT_CFG.PTP_L2`. -/
def PORT_CFG_PTP_L2 : Field := ⟨0x100, 6, 1, .rw, 0x1⟩
/-- R438 `PORT_STATUS.UP`. -/
def PORT_STATUS_UP : Field := ⟨0x108, 0, 1, .ro, 0x0⟩
/-- R438 `PORT_STATUS.LANES_UP`. -/
def PORT_STATUS_LANES_UP : Field := ⟨0x108, 4, 4, .ro, 0x0⟩
/-- R438 `PORT_STATUS.PTP_ROLE`. -/
def PORT_STATUS_PTP_ROLE : Field := ⟨0x108, 8, 3, .ro, 0x0⟩
/-- R438 `PORT_STATUS.RETRAINING`. -/
def PORT_STATUS_RETRAINING : Field := ⟨0x108, 11, 1, .ro, 0x0⟩
/-- R438 `FEC_COUNTS.CORRECTED`. -/
def FEC_COUNTS_CORRECTED : Field := ⟨0x110, 0, 32, .ro, 0x0⟩
/-- R438 `FEC_COUNTS.UNCORRECTABLE`. -/
def FEC_COUNTS_UNCORRECTABLE : Field := ⟨0x110, 32, 32, .ro, 0x0⟩
/-- R438 `EQ_CTRL.FREEZE`. -/
def EQ_CTRL_FREEZE : Field := ⟨0x118, 0, 1, .rw, 0x0⟩
/-- R438 `EQ_CTRL.OVERRIDE`. -/
def EQ_CTRL_OVERRIDE : Field := ⟨0x118, 1, 1, .rw, 0x0⟩
/-- R438 `EQ_CTRL.LANE`. -/
def EQ_CTRL_LANE : Field := ⟨0x118, 2, 2, .rw, 0x0⟩
/-- R438 `EQ_TAPS`. -/
def EQ_TAPS : Field := ⟨0x120, 0, 18, .rw, 0x0⟩
/-- R438 `EQ_MARGIN_MV`. -/
def EQ_MARGIN_MV : Field := ⟨0x120, 24, 8, .ro, 0x0⟩
/-- R438 `PTP_ASYM`. -/
def PTP_ASYM : Field := ⟨0x128, 0, 32, .rw, 0x0⟩
/-- R438 `PTP_OFFSET.OFFSET_PS`. -/
def PTP_OFFSET_OFFSET_PS : Field := ⟨0x130, 0, 32, .ro, 0x0⟩
/-- R438 `PTP_OFFSET.PATH_PS`. -/
def PTP_OFFSET_PATH_PS : Field := ⟨0x130, 32, 32, .ro, 0x0⟩
/-- R438 `PORT_COUNTS.ECN_MARKED`. -/
def PORT_COUNTS_ECN_MARKED : Field := ⟨0x138, 0, 32, .ro, 0x0⟩
/-- R438 `PORT_COUNTS.DROPS`. -/
def PORT_COUNTS_DROPS : Field := ⟨0x138, 32, 32, .ro, 0x0⟩
/-- R439 `TB_NOW.NS`. -/
def TB_NOW_NS : Field := ⟨0x100, 0, 30, .ro, 0x0⟩
/-- R439 `TB_NOW.SEC`. -/
def TB_NOW_SEC : Field := ⟨0x100, 30, 34, .ro, 0x0⟩
/-- R439 `TB_NOW_HI.SEC`. -/
def TB_NOW_HI_SEC : Field := ⟨0x108, 0, 14, .ro, 0x0⟩
/-- R439 `TB_CAPTURE.GO`. -/
def TB_CAPTURE_GO : Field := ⟨0x110, 0, 1, .wo, 0x0⟩
/-- R439 `TB_CAP0.NS`. -/
def TB_CAP0_NS : Field := ⟨0x118, 0, 30, .ro, 0x0⟩
/-- R439 `TB_CAP0.SEC`. -/
def TB_CAP0_SEC : Field := ⟨0x118, 30, 34, .ro, 0x0⟩
/-- R439 `TB_CAP1.SEC_HI`. -/
def TB_CAP1_SEC_HI : Field := ⟨0x120, 0, 14, .ro, 0x0⟩
/-- R439 `TB_CAP1.FRAC`. -/
def TB_CAP1_FRAC : Field := ⟨0x120, 16, 16, .ro, 0x0⟩
/-- R439 `TB_CTRL.SOURCE`. -/
def TB_CTRL_SOURCE : Field := ⟨0x128, 0, 3, .rw, 0x0⟩
/-- R439 `TB_CTRL.FREEZE`. -/
def TB_CTRL_FREEZE : Field := ⟨0x128, 3, 1, .rw, 0x0⟩
/-- R439 `TB_CTRL.UTC_OFFSET`. -/
def TB_CTRL_UTC_OFFSET : Field := ⟨0x128, 8, 8, .rw, 0x25⟩
/-- R439 `TB_CTRL.GM_CAPABLE`. -/
def TB_CTRL_GM_CAPABLE : Field := ⟨0x128, 16, 1, .rw, 0x1⟩
/-- R439 `TB_CTRL.PRIORITY1`. -/
def TB_CTRL_PRIORITY1 : Field := ⟨0x128, 24, 8, .rw, 0x80⟩
/-- R439 `TB_CTRL.PRIORITY2`. -/
def TB_CTRL_PRIORITY2 : Field := ⟨0x128, 32, 8, .rw, 0x80⟩
/-- R439 `TB_CTRL.DOMAIN`. -/
def TB_CTRL_DOMAIN : Field := ⟨0x128, 40, 8, .rw, 0x0⟩
/-- R439 `TB_STATE.STATE`. -/
def TB_STATE_STATE : Field := ⟨0x130, 0, 3, .ro, 0x0⟩
/-- R439 `TB_STATE.ACTIVE_SOURCE`. -/
def TB_STATE_ACTIVE_SOURCE : Field := ⟨0x130, 4, 3, .ro, 0x5⟩
/-- R439 `TB_STATE.CLOCK_CLASS`. -/
def TB_STATE_CLOCK_CLASS : Field := ⟨0x130, 8, 8, .ro, 0xF8⟩
/-- R439 `TB_STATE.OFFSET_PS`. -/
def TB_STATE_OFFSET_PS : Field := ⟨0x130, 32, 32, .ro, 0x0⟩
/-- R439 `TB_ADJ.FREQ_PPB`. -/
def TB_ADJ_FREQ_PPB : Field := ⟨0x138, 0, 32, .ro, 0x0⟩
/-- R439 `TB_OVR.FREQ_PPB`. -/
def TB_OVR_FREQ_PPB : Field := ⟨0x140, 0, 32, .rw, 0x0⟩
/-- R439 `TB_OVR.OVERRIDE`. -/
def TB_OVR_OVERRIDE : Field := ⟨0x140, 32, 1, .rw, 0x0⟩
/-- R439 `TB_SET.NS`. -/
def TB_SET_NS : Field := ⟨0x148, 0, 30, .wo, 0x0⟩
/-- R439 `TB_SET.SEC`. -/
def TB_SET_SEC : Field := ⟨0x148, 30, 34, .wo, 0x0⟩
/-- R439 `PPS_CFG.PPS_OUT_EN`. -/
def PPS_CFG_PPS_OUT_EN : Field := ⟨0x150, 0, 1, .rw, 0x1⟩
/-- R439 `PPS_CFG.REF10M_OUT_EN`. -/
def PPS_CFG_REF10M_OUT_EN : Field := ⟨0x150, 1, 1, .rw, 0x1⟩
/-- R439 `PPS_CFG.PULSE_US`. -/
def PPS_CFG_PULSE_US : Field := ⟨0x150, 8, 16, .rw, 0x64⟩
/-- R439 `PPS_CFG.PPS_IN_DELAY_NS`. -/
def PPS_CFG_PPS_IN_DELAY_NS : Field := ⟨0x150, 32, 32, .rw, 0x0⟩
/-- R439 `TB_COUNTS.STEPS`. -/
def TB_COUNTS_STEPS : Field := ⟨0x158, 0, 16, .ro, 0x0⟩
/-- R439 `TB_COUNTS.PPS_MISSED`. -/
def TB_COUNTS_PPS_MISSED : Field := ⟨0x158, 16, 16, .ro, 0x0⟩
/-- R440 `SESSION_VIEW_SELECT.INDEX`. -/
def SESSION_VIEW_SELECT_INDEX : Field := ⟨0x3200, 0, 10, .rw, 0x0⟩
/-- R440 `SESSION_VIEW.BOUND`. -/
def SESSION_VIEW_BOUND : Field := ⟨0x3208, 0, 1, .ro, 0x0⟩
/-- R440 `SESSION_VIEW.STATE`. -/
def SESSION_VIEW_STATE : Field := ⟨0x3208, 1, 3, .ro, 0x0⟩
/-- R440 `SESSION_VIEW.PEER_CTX`. -/
def SESSION_VIEW_PEER_CTX : Field := ⟨0x3208, 8, 8, .ro, 0x0⟩
/-- R440 `SESSION_VIEW.PEER_KEY_ID`. -/
def SESSION_VIEW_PEER_KEY_ID_W0 : Field := ⟨0x3210, 0, 64, .ro, 0x0⟩
/-- R440 `SESSION_VIEW.PEER_KEY_ID`. -/
def SESSION_VIEW_PEER_KEY_ID_W1 : Field := ⟨0x3218, 0, 64, .ro, 0x0⟩
/-- R462 `MBX_CMD.OP`. -/
def MBX_CMD_OP : Field := ⟨0x100, 0, 8, .wo, 0x0⟩
/-- R462 `MBX_CMD.LENGTH`. -/
def MBX_CMD_LENGTH : Field := ⟨0x100, 16, 16, .wo, 0x0⟩
/-- R462 `MBX_CMD.ARG`. -/
def MBX_CMD_ARG : Field := ⟨0x100, 32, 32, .wo, 0x0⟩
/-- R462 `MBX_STATUS.BUSY`. -/
def MBX_STATUS_BUSY : Field := ⟨0x108, 0, 1, .ro, 0x0⟩
/-- R462 `MBX_STATUS.CODE`. -/
def MBX_STATUS_CODE : Field := ⟨0x108, 8, 8, .ro, 0x0⟩
/-- R462 `MBX_STATUS.LENGTH`. -/
def MBX_STATUS_LENGTH : Field := ⟨0x108, 16, 16, .ro, 0x0⟩
/-- R463 `LC_STATE.STATE`. -/
def LC_STATE_STATE : Field := ⟨0x100, 0, 3, .ro, 0x1⟩
/-- R463 `LC_STATE.DEBUG_POLICY`. -/
def LC_STATE_DEBUG_POLICY : Field := ⟨0x100, 4, 2, .ro, 0x0⟩
/-- R463 `LC_STATE.COPIES_AGREE`. -/
def LC_STATE_COPIES_AGREE : Field := ⟨0x100, 8, 3, .ro, 0x7⟩
/-- R463 `LC_STATE.POLICY_AGREE`. -/
def LC_STATE_POLICY_AGREE : Field := ⟨0x100, 12, 3, .ro, 0x7⟩
/-- R463 `LC_TRANSITION.STEPS`. -/
def LC_TRANSITION_STEPS : Field := ⟨0x108, 0, 4, .ro, 0x0⟩
/-- R463 `LC_TRANSITION.TARGET`. -/
def LC_TRANSITION_TARGET : Field := ⟨0x108, 8, 3, .ro, 0x0⟩
/-- R463 `LC_TRANSITION.ENTRIES`. -/
def LC_TRANSITION_ENTRIES : Field := ⟨0x108, 12, 4, .ro, 0x0⟩
/-- R463 `OTP_STATUS.VPP`. -/
def OTP_STATUS_VPP : Field := ⟨0x110, 0, 1, .ro, 0x0⟩
/-- R463 `OTP_STATUS.LAST_ERROR`. -/
def OTP_STATUS_LAST_ERROR : Field := ⟨0x110, 8, 8, .ro, 0x0⟩
/-- R463 `OTP_STATUS.WRITES`. -/
def OTP_STATUS_WRITES : Field := ⟨0x110, 16, 16, .ro, 0x0⟩
/-- R463 `OTP_ROLLBACK.HW`. -/
def OTP_ROLLBACK_HW : Field := ⟨0x118, 0, 7, .ro, 0x0⟩
/-- R463 `OTP_ROLLBACK.MGMT`. -/
def OTP_ROLLBACK_MGMT : Field := ⟨0x118, 8, 7, .ro, 0x0⟩
/-- R463 `OTP_ROLLBACK.UEFI`. -/
def OTP_ROLLBACK_UEFI : Field := ⟨0x118, 16, 7, .ro, 0x0⟩
/-- R463 `OTP_ROLLBACK.OWNER`. -/
def OTP_ROLLBACK_OWNER : Field := ⟨0x118, 24, 7, .ro, 0x0⟩
/-- R463 `OTP_KEYS.VENDOR_VALID`. -/
def OTP_KEYS_VENDOR_VALID : Field := ⟨0x120, 0, 4, .ro, 0xF⟩
/-- R463 `OTP_KEYS.OWNER_VALID`. -/
def OTP_KEYS_OWNER_VALID : Field := ⟨0x120, 4, 4, .ro, 0x0⟩
/-- R463 `BOOT_STATUS.RECOVERY`. -/
def BOOT_STATUS_RECOVERY : Field := ⟨0x128, 0, 4, .ro, 0x0⟩
/-- R463 `BOOT_STATUS.HW_SLOT`. -/
def BOOT_STATUS_HW_SLOT : Field := ⟨0x128, 8, 1, .ro, 0x0⟩
/-- R463 `BOOT_STATUS.MGMT_SLOT`. -/
def BOOT_STATUS_MGMT_SLOT : Field := ⟨0x128, 9, 1, .ro, 0x0⟩
/-- R463 `BOOT_STATUS.OWNER_CFG`. -/
def BOOT_STATUS_OWNER_CFG : Field := ⟨0x128, 12, 2, .ro, 0x0⟩
/-- R464 `DEBUG_STATE.OPEN`. -/
def DEBUG_STATE_OPEN : Field := ⟨0x100, 0, 1, .ro, 0x1⟩
/-- R464 `DEBUG_STATE.HOW`. -/
def DEBUG_STATE_HOW : Field := ⟨0x100, 1, 2, .ro, 0x1⟩
/-- R464 `DEBUG_REQ.ERASE`. -/
def DEBUG_REQ_ERASE : Field := ⟨0x108, 0, 1, .wo, 0x0⟩
/-- R464 `DEBUG_REQ.NEW_NONCE`. -/
def DEBUG_REQ_NEW_NONCE : Field := ⟨0x108, 1, 1, .wo, 0x0⟩
/-- R464 `DEBUG_NONCE[i]`, entries 8 apart. -/
def DEBUG_NONCE : Field := ⟨0x110, 0, 64, .ro, 0x0⟩
/-- R483 `RESET_CAUSE.LAST`. -/
def RESET_CAUSE_LAST : Field := ⟨0x100, 0, 3, .ro, 0x1⟩
/-- R483 `RESET_CAUSE.RAIL_LOST`. -/
def RESET_CAUSE_RAIL_LOST : Field := ⟨0x100, 8, 1, .ro, 0x0⟩
/-- R483 `RESET_CAUSE.TRIP`. -/
def RESET_CAUSE_TRIP : Field := ⟨0x100, 9, 1, .ro, 0x0⟩
/-- R483 `HUB_EPOCH`. -/
def HUB_EPOCH : Field := ⟨0x108, 0, 64, .ro, 0x0⟩
/-- R483 `RESET_BRINGUP.STEP`. -/
def RESET_BRINGUP_STEP : Field := ⟨0x110, 0, 3, .ro, 0x1⟩
/-- R483 `RESET_BRINGUP.DONE`. -/
def RESET_BRINGUP_DONE : Field := ⟨0x110, 3, 1, .ro, 0x0⟩
/-- R483 `RESET_BRINGUP.TIME_MS`. -/
def RESET_BRINGUP_TIME_MS : Field := ⟨0x110, 16, 32, .ro, 0x0⟩
/-- R483 `RAIL_STATUS.VAUX`. -/
def RAIL_STATUS_VAUX : Field := ⟨0x118, 0, 1, .ro, 0x0⟩
/-- R483 `RAIL_STATUS.VIN_CORE`. -/
def RAIL_STATUS_VIN_CORE : Field := ⟨0x118, 1, 1, .ro, 0x0⟩
/-- R483 `RAIL_STATUS.VIN_IO`. -/
def RAIL_STATUS_VIN_IO : Field := ⟨0x118, 2, 1, .ro, 0x0⟩
/-- R483 `RAIL_STATUS.VPP`. -/
def RAIL_STATUS_VPP : Field := ⟨0x118, 3, 1, .ro, 0x0⟩
/-- R483 `RAIL_MEAS.VIN_CORE_MV`. -/
def RAIL_MEAS_VIN_CORE_MV : Field := ⟨0x120, 0, 12, .ro, 0x0⟩
/-- R483 `RAIL_MEAS.VIN_IO_MV`. -/
def RAIL_MEAS_VIN_IO_MV : Field := ⟨0x120, 16, 12, .ro, 0x0⟩
/-- R483 `SELFTEST_POLICY.INTERVAL_H`. -/
def SELFTEST_POLICY_INTERVAL_H : Field := ⟨0x128, 0, 16, .rw, 0x0⟩
/-- R484 `PLL_LOCK`. -/
def PLL_LOCK : Field := ⟨0x100, 0, 44, .ro, 0x0⟩
/-- R484 `PLL_LOSSES.COUNT`. -/
def PLL_LOSSES_COUNT : Field := ⟨0x108, 0, 32, .ro, 0x0⟩
/-- R485 `PWR_LIMIT.PL_W`. -/
def PWR_LIMIT_PL_W : Field := ⟨0x100, 0, 11, .rw, 0x4E2⟩
/-- R485 `PWR_LIMIT.TEMP_TARGET`. -/
def PWR_LIMIT_TEMP_TARGET : Field := ⟨0x100, 16, 8, .rw, 0x64⟩
/-- R485 `PWR_LIMIT.MARGIN_W`. -/
def PWR_LIMIT_MARGIN_W : Field := ⟨0x100, 32, 8, .rw, 0x19⟩
/-- R485 `PWR_LIMIT.DUTY_MIN`. -/
def PWR_LIMIT_DUTY_MIN : Field := ⟨0x100, 40, 7, .rw, 0x8⟩
/-- R485 `PWR_CTRL.FREEZE`. -/
def PWR_CTRL_FREEZE : Field := ⟨0x108, 0, 1, .rw, 0x0⟩
/-- R485 `PWR_CTRL.OVERRIDE`. -/
def PWR_CTRL_OVERRIDE : Field := ⟨0x108, 1, 1, .rw, 0x0⟩
/-- R485 `PWR_CTRL.DUTY_OVR`. -/
def PWR_CTRL_DUTY_OVR : Field := ⟨0x108, 8, 7, .rw, 0x40⟩
/-- R485 `PWR_STATUS.DUTY`. -/
def PWR_STATUS_DUTY : Field := ⟨0x110, 0, 7, .ro, 0x40⟩
/-- R485 `PWR_STATUS.PLANNING`. -/
def PWR_STATUS_PLANNING : Field := ⟨0x110, 8, 1, .ro, 0x0⟩
/-- R485 `PWR_STATUS.LIMIT_UNMET`. -/
def PWR_STATUS_LIMIT_UNMET : Field := ⟨0x110, 9, 1, .ro, 0x0⟩
/-- R485 `PWR_STATUS.INPUT_W`. -/
def PWR_STATUS_INPUT_W : Field := ⟨0x110, 16, 16, .ro, 0x0⟩
/-- R485 `PWR_STATUS.TILE_DYN_W`. -/
def PWR_STATUS_TILE_DYN_W : Field := ⟨0x110, 32, 16, .ro, 0x0⟩
/-- R485 `PWR_STATUS.HOTTEST`. -/
def PWR_STATUS_HOTTEST : Field := ⟨0x110, 48, 8, .ro, 0x0⟩
/-- R485 `PWR_STATUS.TILE_MAX_W`. -/
def PWR_STATUS_TILE_MAX_W : Field := ⟨0x110, 56, 8, .ro, 0xC⟩
/-- R485 `PWR_GATE.TILE_IDLE_US`. -/
def PWR_GATE_TILE_IDLE_US : Field := ⟨0x118, 0, 24, .rw, 0x0⟩
/-- R485 `DOMAIN_SELECT.INDEX`. -/
def DOMAIN_SELECT_INDEX : Field := ⟨0x120, 0, 8, .rw, 0x0⟩
/-- R485 `DOMAIN_STATE.ON`. -/
def DOMAIN_STATE_ON : Field := ⟨0x128, 0, 1, .ro, 0x0⟩
/-- R485 `DOMAIN_STATE.PHASES`. -/
def DOMAIN_STATE_PHASES : Field := ⟨0x128, 8, 8, .ro, 0x0⟩
/-- R485 `DOMAIN_STATE.POWER_W`. -/
def DOMAIN_STATE_POWER_W : Field := ⟨0x128, 16, 16, .ro, 0x0⟩
/-- R485 `PWR_COUNTS.DUTY_CHANGES`. -/
def PWR_COUNTS_DUTY_CHANGES : Field := ⟨0x130, 0, 32, .ro, 0x0⟩
/-- R486 `TILE_PWR.V_MV`. -/
def TILE_PWR_V_MV : Field := ⟨0xE00, 0, 10, .ro, 0x0⟩
/-- R486 `TILE_PWR.TCLK_MHZ`. -/
def TILE_PWR_TCLK_MHZ : Field := ⟨0xE00, 16, 12, .ro, 0x0⟩
/-- R486 `TILE_PWR.SEALED`. -/
def TILE_PWR_SEALED : Field := ⟨0xE00, 28, 1, .ro, 0x0⟩
/-- R486 `TILE_PWR.STRETCHING`. -/
def TILE_PWR_STRETCHING : Field := ⟨0xE00, 29, 1, .ro, 0x0⟩
/-- R486 `TILE_VLIM.V_MIN_MV`. -/
def TILE_VLIM_V_MIN_MV : Field := ⟨0xE08, 0, 10, .rw, 0x258⟩
/-- R486 `TILE_VLIM.V_MAX_MV`. -/
def TILE_VLIM_V_MAX_MV : Field := ⟨0xE08, 16, 10, .rw, 0x352⟩
/-- R486 `TILE_VLIM.TCLK_MIN_MHZ`. -/
def TILE_VLIM_TCLK_MIN_MHZ : Field := ⟨0xE08, 32, 12, .rw, 0x4B0⟩
/-- R486 `TILE_VLIM.TCLK_MAX_MHZ`. -/
def TILE_VLIM_TCLK_MAX_MHZ : Field := ⟨0xE08, 48, 12, .rw, 0x960⟩
/-- R486 `TILE_LOOP_CTRL.FREEZE`. -/
def TILE_LOOP_CTRL_FREEZE : Field := ⟨0xE10, 0, 1, .rw, 0x0⟩
/-- R486 `TILE_LOOP_CTRL.OVERRIDE`. -/
def TILE_LOOP_CTRL_OVERRIDE : Field := ⟨0xE10, 1, 1, .rw, 0x0⟩
/-- R486 `TILE_LOOP_CTRL.V_OVR_MV`. -/
def TILE_LOOP_CTRL_V_OVR_MV : Field := ⟨0xE10, 16, 10, .rw, 0x2EE⟩
/-- R486 `TILE_LOOP_CTRL.TCLK_OVR_MHZ`. -/
def TILE_LOOP_CTRL_TCLK_OVR_MHZ : Field := ⟨0xE10, 32, 12, .rw, 0x7D0⟩
/-- R486 `TILE_LOOP_COUNTS.DROOPS`. -/
def TILE_LOOP_COUNTS_DROOPS : Field := ⟨0xE18, 0, 32, .ro, 0x0⟩
/-- R486 `TILE_LOOP_COUNTS.SETPOINTS`. -/
def TILE_LOOP_COUNTS_SETPOINTS : Field := ⟨0xE18, 32, 32, .ro, 0x0⟩
/-- R486 `TILE_PWR_TRIM.V_SEALED_MV`. -/
def TILE_PWR_TRIM_V_SEALED_MV : Field := ⟨0xE20, 0, 10, .ro, 0x2EE⟩
/-- R497 `CORE_STATE.STATE`. -/
def CORE_STATE_STATE : Field := ⟨0x100, 0, 2, .ro, 0x0⟩
/-- R497 `WDOG_CFG.TIMEOUT_MS`. -/
def WDOG_CFG_TIMEOUT_MS : Field := ⟨0x108, 0, 16, .rw, 0x64⟩
/-- R497 `CORE_COUNTS.RESTARTS`. -/
def CORE_COUNTS_RESTARTS : Field := ⟨0x110, 0, 16, .ro, 0x0⟩
/-- R497 `CORE_COUNTS.LAST_MS`. -/
def CORE_COUNTS_LAST_MS : Field := ⟨0x110, 32, 16, .ro, 0x0⟩
/-- R497 `CORE_CAUSE.LAST`. -/
def CORE_CAUSE_LAST : Field := ⟨0x118, 0, 3, .ro, 0x0⟩
/-- R506 `ERRLOG_BASE.ADDR`. -/
def ERRLOG_BASE_ADDR : Field := ⟨0x800, 12, 43, .rw, 0x0⟩
/-- R506 `ERRLOG_CFG.LOG2_SIZE`. -/
def ERRLOG_CFG_LOG2_SIZE : Field := ⟨0x808, 0, 5, .rw, 0x0⟩
/-- R506 `ERRLOG_CFG.ENABLE`. -/
def ERRLOG_CFG_ENABLE : Field := ⟨0x808, 8, 1, .rw, 0x0⟩
/-- R506 `ERRLOG_STATUS.TAIL`. -/
def ERRLOG_STATUS_TAIL : Field := ⟨0x810, 0, 16, .ro, 0x0⟩
/-- R506 `ERRLOG_STATUS.HEAD`. -/
def ERRLOG_STATUS_HEAD : Field := ⟨0x810, 16, 16, .ro, 0x0⟩
/-- R506 `ERRLOG_STATUS.PHASE`. -/
def ERRLOG_STATUS_PHASE : Field := ⟨0x810, 32, 1, .ro, 0x0⟩
/-- R506 `ERRLOG_STATUS.BAD_DOORBELL`. -/
def ERRLOG_STATUS_BAD_DOORBELL : Field := ⟨0x810, 33, 1, .w1c, 0x0⟩
/-- R506 `ERRLOG_STATUS.DROPPED`. -/
def ERRLOG_STATUS_DROPPED : Field := ⟨0x810, 48, 16, .ro, 0x0⟩
/-- R506 `ERRLOG_DOORBELL.HEAD`. -/
def ERRLOG_DOORBELL_HEAD : Field := ⟨0x818, 0, 16, .wo, 0x0⟩
/-- R506 `ERR_LATCH_SELECT.INDEX`. -/
def ERR_LATCH_SELECT_INDEX : Field := ⟨0x820, 0, 3, .rw, 0x0⟩
/-- R506 `ERR_LATCH.COUNT`. -/
def ERR_LATCH_COUNT : Field := ⟨0x828, 0, 4, .ro, 0x0⟩
/-- R506 `ERR_LATCH_WORD[i]`, entries 8 apart. -/
def ERR_LATCH_WORD : Field := ⟨0x840, 0, 64, .ro, 0x0⟩
/-- R506 `ERR_LATCH_CLEAR.GO`. -/
def ERR_LATCH_CLEAR_GO : Field := ⟨0x880, 0, 1, .wo, 0x0⟩
/-- R507 `ERRQ_BASE.ADDR`. -/
def ERRQ_BASE_ADDR : Field := ⟨0x3300, 12, 43, .rw, 0x0⟩
/-- R507 `ERRQ_CFG.LOG2_SIZE`. -/
def ERRQ_CFG_LOG2_SIZE : Field := ⟨0x3308, 0, 4, .rw, 0x0⟩
/-- R507 `ERRQ_CFG.ENABLE`. -/
def ERRQ_CFG_ENABLE : Field := ⟨0x3308, 8, 1, .rw, 0x0⟩
/-- R507 `ERRQ_CFG.IRQ_EN`. -/
def ERRQ_CFG_IRQ_EN : Field := ⟨0x3308, 9, 1, .rw, 0x0⟩
/-- R507 `ERRQ_STATUS.TAIL`. -/
def ERRQ_STATUS_TAIL : Field := ⟨0x3310, 0, 12, .ro, 0x0⟩
/-- R507 `ERRQ_STATUS.HEAD`. -/
def ERRQ_STATUS_HEAD : Field := ⟨0x3310, 16, 12, .ro, 0x0⟩
/-- R507 `ERRQ_STATUS.PHASE`. -/
def ERRQ_STATUS_PHASE : Field := ⟨0x3310, 32, 1, .ro, 0x0⟩
/-- R507 `ERRQ_STATUS.BAD_DOORBELL`. -/
def ERRQ_STATUS_BAD_DOORBELL : Field := ⟨0x3310, 33, 1, .w1c, 0x0⟩
/-- R507 `ERRQ_STATUS.DROPPED`. -/
def ERRQ_STATUS_DROPPED : Field := ⟨0x3310, 48, 16, .ro, 0x0⟩
/-- R507 `ERRQ_DOORBELL.HEAD`. -/
def ERRQ_DOORBELL_HEAD : Field := ⟨0x3318, 0, 12, .wo, 0x0⟩
/-- R508 `EMBER_CFG.ROLE`. -/
def EMBER_CFG_ROLE : Field := ⟨0xC00, 0, 2, .rw, 0x0⟩
/-- R508 `EMBER_CFG.SESSION_BASE`. -/
def EMBER_CFG_SESSION_BASE : Field := ⟨0xC00, 4, 10, .rw, 0x0⟩
/-- R508 `EMBER_CFG.SESSION_COUNT`. -/
def EMBER_CFG_SESSION_COUNT : Field := ⟨0xC00, 16, 4, .rw, 0x0⟩
/-- R508 `EMBER_LOG.LOG2_GIB`. -/
def EMBER_LOG_LOG2_GIB : Field := ⟨0xC08, 0, 3, .rw, 0x0⟩
/-- R508 `EMBER_LOG.ADDR`. -/
def EMBER_LOG_ADDR : Field := ⟨0xC08, 21, 34, .rw, 0x0⟩
/-- R508 `EMBER_STATUS.STATE`. -/
def EMBER_STATUS_STATE : Field := ⟨0xC10, 0, 3, .ro, 0x0⟩
/-- R508 `EMBER_STATUS.REASON`. -/
def EMBER_STATUS_REASON : Field := ⟨0xC10, 4, 4, .ro, 0x0⟩
/-- R508 `EMBER_STATUS.CUT`. -/
def EMBER_STATUS_CUT : Field := ⟨0xC10, 32, 32, .ro, 0x0⟩
/-- R508 `EMBER_STATUS2.PENDING_MIB`. -/
def EMBER_STATUS2_PENDING_MIB : Field := ⟨0xC18, 0, 32, .ro, 0x0⟩
/-- R508 `EMBER_STATUS2.JOURNAL_ID`. -/
def EMBER_STATUS2_JOURNAL_ID : Field := ⟨0xC18, 32, 32, .ro, 0x0⟩
/-- R508 `EMBER_EPOCH`. -/
def EMBER_EPOCH : Field := ⟨0xC20, 0, 64, .ro, 0x0⟩
/-- R508 `RECOVERY_POLICY.AUTO_REPLACE`. -/
def RECOVERY_POLICY_AUTO_REPLACE : Field := ⟨0xC40, 0, 1, .rw, 0x0⟩
/-- R508 `RECOVERY_POLICY.UNFILLED`. -/
def RECOVERY_POLICY_UNFILLED : Field := ⟨0xC40, 32, 16, .ro, 0x0⟩
/-- R509 `EMBER_CAP.JOURNALS`. -/
def EMBER_CAP_JOURNALS : Field := ⟨0x100, 0, 7, .ro, 0x40⟩
/-- R509 `EMBER_STATS.PAGES_SENT`. -/
def EMBER_STATS_PAGES_SENT : Field := ⟨0x108, 0, 32, .ro, 0x0⟩
/-- R509 `EMBER_STATS.PAGES_RECEIVED`. -/
def EMBER_STATS_PAGES_RECEIVED : Field := ⟨0x108, 32, 32, .ro, 0x0⟩
/-- R509 `EMBER_STATS2.COMMITS`. -/
def EMBER_STATS2_COMMITS : Field := ⟨0x110, 0, 32, .ro, 0x0⟩
/-- R509 `EMBER_STATS2.DISCARDED`. -/
def EMBER_STATS2_DISCARDED : Field := ⟨0x110, 32, 32, .ro, 0x0⟩
end Reg

/-- The fields of one kind of page, entry by entry. -/
def pageTable : PageKind → List Field
  | .telemetry =>
    [Reg.TEMP_HOTTEST_INDEX, Reg.TEMP_HOTTEST_VALUE, Reg.TEMP_ALERT_THRESHOLD, Reg.ERRLOG_BASE_ADDR, Reg.ERRLOG_CFG_LOG2_SIZE, Reg.ERRLOG_CFG_ENABLE, Reg.ERRLOG_STATUS_TAIL, Reg.ERRLOG_STATUS_HEAD, Reg.ERRLOG_STATUS_PHASE, Reg.ERRLOG_STATUS_BAD_DOORBELL, Reg.ERRLOG_STATUS_DROPPED, Reg.ERRLOG_DOORBELL_HEAD, Reg.ERR_LATCH_SELECT_INDEX, Reg.ERR_LATCH_COUNT, Reg.ERR_LATCH_CLEAR_GO] ++
    (List.range 144).map (fun i => Reg.TEMP_NOW.at 8 i) ++
    (List.range 144).map (fun i => Reg.TEMP_PEAK.at 8 i) ++
    (List.range 144).map (fun i => Reg.TEMP_VALID.at 8 i) ++
    (List.range 8).map (fun i => Reg.ERR_LATCH_WORD.at 8 i)
  | .tile =>
    [Reg.ROUTER_STATUS_LINK_UP, Reg.ROUTER_STATUS_LINK_FAILED, Reg.ROUTER_STATUS_EDGE_DOWN, Reg.ROUTER_DROP_NODE_DOWN, Reg.ROUTER_DROP_MALFORMED, Reg.ROUTER_UNEXPECTED_COUNT, Reg.LINK_CORRECTED, Reg.LINK_REPLAYS, Reg.TILE_CAP_ROWS, Reg.TILE_CAP_COLUMNS, Reg.TILE_CAP_LATENCY, Reg.TILE_CAP_SPARED, Reg.TILE_CAP_NARROW, Reg.TILE_CAP_ARRAY_PRESENT, Reg.TILE_CAP_FORMAT_MASK, Reg.TILE_CAP_MAX_M, Reg.TILE_REPAIR_SPARE_ROW, Reg.TILE_REPAIR_BYPASS_COL, Reg.TILE_REPAIR_MAP_CHECKED, Reg.ARRAY_STATE_STATE, Reg.ARRAY_STATE_EPILOGUE, Reg.ARRAY_STATE_PASSES, Reg.LEAD_POSITION_K_BLOCK, Reg.LEAD_POSITION_M_ROW, Reg.LEAD_POSITION_VALID, Reg.TRAIL_POSITION_ROW, Reg.TRAIL_POSITION_VALID, Reg.THROTTLE_DUTY, Reg.ZERO_FRACTION_LAST_PASS, Reg.PASS_COUNT, Reg.BUBBLES_FEEDER, Reg.BUBBLES_DRAIN, Reg.CHECK_COUNTS_RESIDUE, Reg.CHECK_COUNTS_SRAM_CORRECTED, Reg.CHECK_COUNTS_SRAM_UNCORRECTED, Reg.PREEMPT_LAST_CYCLES, Reg.PREEMPT_LAST_COUNT, Reg.COH_TABLE_OCCUPANCY, Reg.COH_TABLE_PEAK, Reg.COH_TABLE_TRANSIENT] ++
    [Reg.COH_COUNTS_SNOOPS, Reg.COH_COUNTS_LATE_EVICT, Reg.COH_FAULTS_LOST, Reg.COH_FAULTS_BREACH, Reg.COH_RECALL_LINES, Reg.COH_RECALL_ACTIVE, Reg.TILE_PWR_V_MV, Reg.TILE_PWR_TCLK_MHZ, Reg.TILE_PWR_SEALED, Reg.TILE_PWR_STRETCHING, Reg.TILE_VLIM_V_MIN_MV, Reg.TILE_VLIM_V_MAX_MV, Reg.TILE_VLIM_TCLK_MIN_MHZ, Reg.TILE_VLIM_TCLK_MAX_MHZ, Reg.TILE_LOOP_CTRL_FREEZE, Reg.TILE_LOOP_CTRL_OVERRIDE, Reg.TILE_LOOP_CTRL_V_OVR_MV, Reg.TILE_LOOP_CTRL_TCLK_OVR_MHZ, Reg.TILE_LOOP_COUNTS_DROOPS, Reg.TILE_LOOP_COUNTS_SETPOINTS, Reg.TILE_PWR_TRIM_V_SEALED_MV]
  | .common =>
    [Reg.PAGE_ID_INDEX, Reg.PAGE_ID_TYPE, Reg.PAGE_ID_INSTANCE, Reg.PAGE_ID_LAYOUT, Reg.PAGE_ID_SIGNATURE, Reg.PAGE_CAP_BINDABLE, Reg.PAGE_CAP_HAS_OPS, Reg.PAGE_CAP_SEALED_MASKS, Reg.PAGE_CAP_IRQ_SOURCES, Reg.PAGE_CAP_BLOCK_CAP, Reg.PAGE_CTRL_PAGE_RESET, Reg.PAGE_CTRL_IRQ_MASTER_EN, Reg.PAGE_CTRL_COUNTER_FREEZE, Reg.PAGE_STATUS_IN_SERVICE, Reg.PAGE_STATUS_POWERED, Reg.PAGE_STATUS_FENCED, Reg.PAGE_STATUS_DEGRADED, Reg.PAGE_STATUS_OP_ACTIVE, Reg.IRQ_STATUS_BLOCK, Reg.IRQ_STATUS_OP_DONE, Reg.IRQ_STATUS_ERR, Reg.IRQ_ENABLE, Reg.IRQ_FORCE, Reg.ERR_SUMMARY_LOCKED_WRITE, Reg.ERR_SUMMARY_BAD_ACCESS, Reg.ERR_SUMMARY_OP_REFUSED, Reg.ERR_SUMMARY_OVERFLOW, Reg.ERR_SUMMARY_FIRST_VALID, Reg.ERR_SUMMARY_SEEN, Reg.ERR_SUMMARY_COUNT, Reg.ERR_FIRST_TIME_NS, Reg.ERR_FIRST_TIME_SEC, Reg.ERR_FIRST_SRC_PAGE, Reg.ERR_FIRST_SRC_CTX, Reg.ERR_FIRST_SRC_SEVERITY, Reg.ERR_FIRST_SRC_CLASS, Reg.ERR_FIRST_SRC_SEQ, Reg.ERR_FIRST_ADDR_ADDR, Reg.ERR_FIRST_ADDR_VIRT, Reg.ERR_FIRST_ADDR_VALID] ++
    [Reg.ERR_FIRST_DETAIL, Reg.PROGRESS_PERCENT, Reg.PROGRESS_VALID, Reg.PROGRESS_OPCODE, Reg.PROGRESS_POSITION, Reg.OP_CONTROL_OP, Reg.OP_CONTROL_START, Reg.OP_CONTROL_ABORT, Reg.OP_CONTROL_FORCE, Reg.OP_CONTROL_RESULT, Reg.OP_CONTROL_ARG, Reg.BINDING_CTX, Reg.BINDING_STATE, Reg.BINDING_SEALED, Reg.BINDING_GENERATION, Reg.PAGE_SCRATCH]
  | .global_ =>
    [Reg.DEVICE_ID_PART, Reg.DEVICE_ID_GRADE, Reg.DEVICE_ID_SPEED_BIN, Reg.DEVICE_ID_STEPPING, Reg.DEVICE_ID_ARRAYS, Reg.ARRAYS_IN_SERVICE, Reg.ARRAYS_NARROW, Reg.ARRAYS_SPARED, Reg.UNASSIGNED_ACCESS_COUNT, Reg.UNASSIGNED_ACCESS_LAST_PAGE, Reg.MEM_SPREAD_STATUS_REGION0_GIB, Reg.MEM_SPREAD_STATUS_STRANDED_GIB, Reg.MEM_SPREAD_STATUS_LAYOUT_REJECTED] ++
    (List.range 7).map (fun i => Reg.MEM_SPREAD_NEXT_STACKS.at 8 (i + 1)) ++
    (List.range 7).map (fun i => Reg.MEM_SPREAD_NEXT_GIB.at 8 (i + 1)) ++
    (List.range 7).map (fun i => Reg.MEM_SPREAD_ACTIVE_STACKS.at 8 (i + 1)) ++
    (List.range 7).map (fun i => Reg.MEM_SPREAD_ACTIVE_GIB.at 8 (i + 1)) ++
    (List.range 7).map (fun i => Reg.MEM_SPREAD_ACTIVE_BASE_FRAME.at 8 (i + 1))
  | .owner =>
    [Reg.DRAUGHT_LIMIT_BIAS_MIN, Reg.DRAUGHT_LIMIT_BIAS_MAX, Reg.DRAUGHT_LIMIT_STEP_MAX, Reg.DRAUGHT_LIMIT_FREEZE_ALL, Reg.DRAUGHT_STATS_UPDATES, Reg.DRAUGHT_STATS_CLAMPED, Reg.CACHE_POLICY_WAY_MASK, Reg.CACHE_POLICY_KEEP_WAYS, Reg.PLACE_CTRL_ENABLE, Reg.PLACE_CTRL_FREEZE, Reg.PLACE_CTRL_INTERVAL_MS, Reg.PLACE_CTRL_MIGRATE_MAX, Reg.PLACE_CTRL_PROMOTE_MIN, Reg.PLACE_CTRL_HYSTERESIS, Reg.PLACE_LIST_ADDR, Reg.PLACE_CMD_REGION, Reg.PLACE_CMD_OP, Reg.PLACE_STATS_PROMOTIONS, Reg.PLACE_STATS_DEMOTIONS, Reg.PLACE_LAST_REGION, Reg.PLACE_LAST_KIND, Reg.FAULT_POLICY_TIMEOUT_MS, Reg.XLATE_COUNTS_FAULTS, Reg.XLATE_COUNTS_INVALIDATES, Reg.PLACE_COUNT_ADDR, Reg.SEALED_XLATE_IN, Reg.SEALED_XLATE_OUT, Reg.SLOT_ALLOT_SLOTS, Reg.SLOT_ALLOT_CHANNELS, Reg.CTX_CMD_OP, Reg.CTX_STATUS_STATE, Reg.CTX_STATUS_SEALED, Reg.CTX_STATUS_SESSION, Reg.CTX_STATUS_REFUSE, Reg.COPPICE_REQ_KIND, Reg.COPPICE_REQ_PARK, Reg.COPPICE_REQ_INDEX, Reg.COPPICE_REQ_TARGET, Reg.COPPICE_COUNT_COUNT, Reg.COPPICE_STATUS_REASON] ++
    [Reg.COPPICE_STATUS_TIME_US, Reg.SEAL_PACE_HBM_US, Reg.SEAL_PACE_PEAT_US, Reg.SEAL_PACE_HOST_US, Reg.SEAL_FLOOR_HBM_US, Reg.SEAL_FLOOR_PEAT_US, Reg.SEAL_FLOOR_HOST_US, Reg.SEALED_DENIED_COUNT, Reg.SEALED_DENIED_LAST, Reg.EMBER_CFG_ROLE, Reg.EMBER_CFG_SESSION_BASE, Reg.EMBER_CFG_SESSION_COUNT, Reg.EMBER_LOG_LOG2_GIB, Reg.EMBER_LOG_ADDR, Reg.EMBER_STATUS_STATE, Reg.EMBER_STATUS_REASON, Reg.EMBER_STATUS_CUT, Reg.EMBER_STATUS2_PENDING_MIB, Reg.EMBER_STATUS2_JOURNAL_ID, Reg.EMBER_EPOCH, Reg.RECOVERY_POLICY_AUTO_REPLACE, Reg.RECOVERY_POLICY_UNFILLED] ++
    (List.range 8).map (fun i => Reg.REG_CLASS_GUARANTEE.at 8 i) ++
    (List.range 8).map (fun i => Reg.REG_CLASS_CEILING.at 8 i) ++
    (List.range 8).map (fun i => Reg.REG_CLASS_LATENCY_NS.at 8 i) ++
    (List.range 8).map (fun i => Reg.REG_CLASS_BASE_PRIO.at 8 i) ++
    (List.range 8).map (fun i => Reg.REG_DECISION_RATE.at 8 i) ++
    (List.range 8).map (fun i => Reg.REG_DECISION_PRIO.at 8 i) ++
    (List.range 8).map (fun i => Reg.REG_DECISION_LAT_AVG_NS.at 8 i)
  | .tenant =>
    [Reg.DRAUGHT_SELECT_TAG, Reg.DRAUGHT_STATE_NEXT_BIAS, Reg.DRAUGHT_STATE_APPLIED_BIAS, Reg.DRAUGHT_STATE_FROZEN, Reg.DRAUGHT_STATE_OVERRIDDEN, Reg.DRAUGHT_STATE_WRITTEN, Reg.DRAUGHT_STATE_LAST_TOP, Reg.DRAUGHT_STATE_UPDATES, Reg.DRAUGHT_CONFIG_BASE, Reg.DRAUGHT_CONFIG_HEADROOM, Reg.DRAUGHT_CONFIG_STEP, Reg.DRAUGHT_CONFIG_DEADBAND, Reg.DRAUGHT_CMD_OP, Reg.DRAUGHT_CMD_VALUE, Reg.DRAUGHT_CMD_RESET_TAG, Reg.CQ_DOORBELL_HEAD, Reg.DISPATCH_STATUS_WAITING_EXEC, Reg.DISPATCH_STATUS_WAITING_FENCE, Reg.CQ_BASE_ADDR, Reg.CQ_CFG_LOG2_SIZE, Reg.CQ_CFG_ENABLE, Reg.CQ_CFG_IRQ_EN, Reg.CQ_STATUS_TAIL, Reg.CQ_STATUS_HEAD, Reg.CQ_STATUS_RESERVED, Reg.CQ_STATUS_PHASE, Reg.CQ_STATUS_BAD_DOORBELL, Reg.CQ_STATUS_CONFIG_REFUSED, Reg.CQ_STATUS_FULL, Reg.XLATE_ROOT_VALID, Reg.XLATE_ROOT_TABLE, Reg.FQ_BASE_ADDR, Reg.FQ_CFG_LOG2_SIZE, Reg.FQ_CFG_ENABLE, Reg.FQ_CFG_IRQ_EN, Reg.FQ_STATUS_TAIL, Reg.FQ_STATUS_HEAD, Reg.FQ_STATUS_PHASE, Reg.FQ_STATUS_OUTSTANDING, Reg.FQ_STATUS_FULL] ++
    [Reg.FQ_STATUS_BAD_DOORBELL, Reg.FQ_DOORBELL_HEAD, Reg.FAULT_RESUME_ID, Reg.FAULT_RESUME_ACTION, Reg.INV_RANGE_BASE, Reg.INV_RANGE_PAGES, Reg.INV_CMD_EPOCH, Reg.INV_CMD_SIGNAL, Reg.INV_CMD_SIGNAL_EN, Reg.INV_STATUS_POSTED, Reg.INV_STATUS_DONE, Reg.XLATE_ERR_ROOT_REFUSED, Reg.XLATE_ERR_INV_REFUSED, Reg.XLATE_ERR_RESUME_BAD, Reg.XLATE_ERR_FQ_REFUSED, Reg.REG_NOTICE_REDUCED, Reg.REG_NOTICE_CHANGES, Reg.CTX_STATE_STATE, Reg.CTX_STATE_SEALED, Reg.FAULT_INFO_SEQ, Reg.FAULT_INFO_SEVERITY, Reg.FAULT_INFO_CLASS, Reg.PARK_AREA_SLOTS, Reg.PARK_AREA_ADDR, Reg.SITE_NOTICE_DEGRADED, Reg.SITE_NOTICE_LOST, Reg.SITE_NOTICE_CHANGES, Reg.APERTURE_BASE, Reg.SESSION_VIEW_SELECT_INDEX, Reg.SESSION_VIEW_BOUND, Reg.SESSION_VIEW_STATE, Reg.SESSION_VIEW_PEER_CTX, Reg.SESSION_VIEW_PEER_KEY_ID_W0, Reg.SESSION_VIEW_PEER_KEY_ID_W1, Reg.ERRQ_BASE_ADDR, Reg.ERRQ_CFG_LOG2_SIZE, Reg.ERRQ_CFG_ENABLE, Reg.ERRQ_CFG_IRQ_EN, Reg.ERRQ_STATUS_TAIL, Reg.ERRQ_STATUS_HEAD] ++
    [Reg.ERRQ_STATUS_PHASE, Reg.ERRQ_STATUS_BAD_DOORBELL, Reg.ERRQ_STATUS_DROPPED, Reg.ERRQ_DOORBELL_HEAD] ++
    (List.range 16).map (fun i => Reg.DOORBELL_TAIL.at 8 i) ++
    (List.range 16).map (fun i => Reg.RING_BASE_ADDR.at 32 i) ++
    (List.range 16).map (fun i => Reg.RING_CFG_LOG2_SIZE.at 32 i) ++
    (List.range 16).map (fun i => Reg.RING_CFG_ENABLE.at 32 i) ++
    (List.range 16).map (fun i => Reg.RING_CFG_ABORT.at 32 i) ++
    (List.range 16).map (fun i => Reg.RING_STATUS_HEAD.at 32 i) ++
    (List.range 16).map (fun i => Reg.RING_STATUS_TAIL.at 32 i) ++
    (List.range 16).map (fun i => Reg.RING_STATUS_OUTSTANDING.at 32 i) ++
    (List.range 16).map (fun i => Reg.RING_STATUS_BAD_DOORBELL.at 32 i) ++
    (List.range 16).map (fun i => Reg.RING_STATUS_CONFIG_REFUSED.at 32 i) ++
    (List.range 64).map (fun i => Reg.FENCE_VALUE_VALUE.at 8 i) ++
    (List.range 64).map (fun i => Reg.FENCE_VALUE_ERROR.at 8 i) ++
    (List.range 64).map (fun i => Reg.FENCE_ADD_ADD.at 8 i)
  | .info =>
    [Reg.CI_VERSION_MINOR, Reg.CI_VERSION_MAJOR, Reg.CI_CLASSES, Reg.CI_FORMATS, Reg.CI_LIMITS_RINGS, Reg.CI_LIMITS_MAX_LOG2_RING, Reg.CI_LIMITS_FENCES, Reg.CI_LIMITS_TAGS, Reg.CI_LIMITS_OUTSTANDING, Reg.CI_EXEC_NATIVE, Reg.CI_EXEC_MIN_COLUMNS, Reg.CI_EXEC_GUESTS] ++
    (List.range 64).map (fun i => Reg.CI_OP_FEATURES.at 8 i) ++
    (List.range 8).map (fun i => Reg.CI_GUEST_SITE.at 32 i) ++
    (List.range 8).map (fun i => Reg.CI_GUEST_VALID.at 32 i) ++
    (List.range 8).map (fun i => Reg.CI_GUEST_CLASSES.at 32 i) ++
    (List.range 8).map (fun i => Reg.CI_GUEST_FORMATS.at 32 i)
  | .hbm =>
    [Reg.HBM_CAP_CHANNELS_PRESENT, Reg.HBM_CAP_GIB, Reg.CHANNEL_LIVE, Reg.THERMAL_TEMP, Reg.THERMAL_LEVEL, Reg.THERMAL_REFRESH_2X, Reg.THERMAL_FENCED, Reg.ECC_COUNTS_CORRECTED, Reg.ECC_COUNTS_UNCORRECTED, Reg.CE_POLICY_THRESHOLD, Reg.CE_POLICY_AUTO_EVAC, Reg.CAL_CTRL_FREEZE, Reg.CAL_CTRL_INTERVAL_MS, Reg.CAL_SELECT_CHANNEL, Reg.CAL_TRIM_READ, Reg.CAL_TRIM_WRITE, Reg.CAL_TRIM_OVERRIDE, Reg.CAL_TRIM_RETRAINS, Reg.EVAC_STATUS_CHANNEL, Reg.EVAC_STATUS_DONE, Reg.EVAC_STATUS_RESERVE_FREE_MIB, Reg.OWN_LOOKUP_FRAME, Reg.OWN_LOOKUP_ENTRY, Reg.HBM_REPAIR_SLOT_USED, Reg.HBM_REPAIR_RECHOSEN, Reg.HBM_REPAIR_START_EVACUATED]
  | .walker =>
    [Reg.WALK_CAP_WALKERS, Reg.WALK_CAP_CACHE, Reg.WALK_STATS_WALKS, Reg.WALK_STATS_CACHE_HITS, Reg.WALK_FAULTS_FAULTS, Reg.WALK_FAULTS_CONTIG_MISMATCH, Reg.INV_STATS_COMPLETED, Reg.INV_STATS_GUEST_LATE, Reg.WALK_LATENCY_MAX_NS]
  | .regulator =>
    [Reg.CLASS_POOL, Reg.DEFAULT_CLASS_HBM, Reg.DEFAULT_CLASS_PEAT, Reg.DEFAULT_CLASS_HOST, Reg.LOOP_CTRL_Q_HIGH, Reg.LOOP_CTRL_Q_LOW, Reg.LOOP_CTRL_AI_STEP, Reg.LOOP_CTRL_MD_SHIFT, Reg.LOOP_CTRL_EWMA_SHIFT, Reg.LOOP_CTRL_FREEZE, Reg.SLOT_STATUS_MAX_ALLOTTED, Reg.SLOT_STATUS_SEALED_GBS, Reg.ADMIT_STATS_REFUSED] ++
    (List.range 16).map (fun i => Reg.RANGE_ENABLE.at 16 i) ++
    (List.range 16).map (fun i => Reg.RANGE_CLASS.at 16 i) ++
    (List.range 16).map (fun i => Reg.RANGE_BASE.at 16 i) ++
    (List.range 16).map (fun i => Reg.RANGE_END_LAST.at 16 i) ++
    (List.range 3).map (fun i => Reg.POOL_STATUS_DELIVERABLE.at 8 i) ++
    (List.range 3).map (fun i => Reg.POOL_STATUS_GUARANTEED.at 8 i) ++
    (List.range 3).map (fun i => Reg.POOL_STATUS_FACTOR.at 8 i) ++
    (List.range 3).map (fun i => Reg.POOL_STATUS_REDUCED.at 8 i) ++
    (List.range 3).map (fun i => Reg.POOL_STATUS_Q.at 8 i)
  | .window =>
    [Reg.IN_POST_LENGTH, Reg.IN_STATUS_BUSY, Reg.IN_STATUS_DROPPED, Reg.IN_STATUS_ACCEPTED, Reg.OUT_STATUS_LENGTH, Reg.OUT_STATUS_QUEUED, Reg.OUT_ACK_RELEASE]
  | .scoped =>
    [Reg.CT_PASSES_COMPLETED, Reg.CT_OUTCOMES_REFUSED, Reg.CT_OUTCOMES_FAILED, Reg.CT_BYTES_HBM, Reg.CT_BYTES_PEAT, Reg.CT_BYTES_HOST, Reg.CT_BYTES_PLARUS, Reg.CT_TILE_TIME_US, Reg.CT_GUEST_TIME_US, Reg.CT_FAULTS_TRANSLATION, Reg.CT_FAULTS_RECORDS, Reg.CT_COPPICE_COUNT, Reg.CT_COPPICE_PREEMPTS]
  | .kiln =>
    [Reg.KILN_CAP_ROUNDS, Reg.KILN_CAP_PARTIES, Reg.KILN_CAP_HUBS, Reg.KILN_POOL_TOTAL, Reg.KILN_POOL_FREE, Reg.KILN_POOL_WAITING, Reg.KILN_POOL_REQ_COUNT, Reg.KILN_POOL_STATUS_REASON, Reg.KILN_ROUNDS_ACTIVE, Reg.KILN_ROUNDS_RELEASED, Reg.KILN_ROUNDS_EXPIRED, Reg.KILN_ROUNDS_FAILED, Reg.KILN_SELECT_SLOT, Reg.KILN_ROUND_HANDLE, Reg.KILN_ROUND_STATE, Reg.KILN_ROUND_COUNTED, Reg.KILN_ROUND_QUORUM, Reg.KILN_ROUND_PARTIES, Reg.KILN_ROUND_FRAMES, Reg.KILN_STATS_COMMITS, Reg.KILN_STATS_DISCARDED, Reg.KILN_STATS_ABORTED]
  | .site =>
    [Reg.SITE_STATE_OTP_STATE, Reg.SITE_STATE_REPAIR_VALID, Reg.SITE_STATE_PRESENT, Reg.SITE_STATE_LINK, Reg.SITE_STATE_ATTESTED, Reg.SITE_STATE_SLOT_USED, Reg.SITE_STATE_RATE, Reg.SITE_STATE_LIVE_HALVES, Reg.SITE_STATE_FENCE_CAUSE, Reg.SITE_STATE_CLEAR_GEN, Reg.SITE_RAIL_SETPOINT_MV, Reg.SITE_RAIL_STATUS_MEASURED_MV, Reg.SITE_RAIL_STATUS_CURRENT_A, Reg.SITE_RAIL_STATUS_POWER_W, Reg.SITE_RAIL_STATUS_RAIL_GOOD, Reg.SITE_RAIL_STATUS_LIMIT_A, Reg.SITE_CFG_MAX_RATE, Reg.SITE_CFG_IDLE_MS, Reg.SITE_CFG_PEER_GBS, Reg.SITE_DECL0_CLASSES, Reg.SITE_DECL0_AGENTS, Reg.SITE_DECL0_XLATE_CACHE, Reg.SITE_DECL0_MIN_GBS, Reg.SITE_DECL0_M_CAPACITY_GIB, Reg.SITE_DECL1_INV_BOUND_US, Reg.SITE_DECL1_CLEAR_BOUND_US, Reg.SITE_DECL1_STOP_BOUND_US, Reg.SITE_DECL2_BEAT_US, Reg.KPP_COUNTS_CRC_ERRORS, Reg.KPP_COUNTS_REPLAYS, Reg.KPP_COUNTS_RETRAINS, Reg.KPP_COUNTS_DROPPED, Reg.SITE_OP_REASON, Reg.SITE_STATUS_REG_TIMEOUT, Reg.SITE_STATUS_REG_BLOCKED] ++
    (List.range 4).map (fun m => Reg.LANE_STATUS_MODE.up (8 * m)) ++
    (List.range 4).map (fun m => Reg.LANE_STATUS_SPARES_USED.up (8 * m)) ++
    (List.range 4).map (fun m => Reg.LANE_STATUS_RECHOSEN.up (8 * m)) ++
    (List.range 8).map (fun i => Reg.SITE_MEAS.at 8 i)
  | .hostPort =>
    [Reg.HOST_LINK_RATE, Reg.HOST_LINK_WIDTH, Reg.HOST_LINK_FLIT, Reg.HOST_APERTURE_BASE, Reg.HOST_IDE_REQUIRE, Reg.HOST_IDE_LINK_SECURE, Reg.HOST_IDE_SEL, Reg.HOST_COUNTS_UNEXPECTED, Reg.HOST_COUNTS_TIMEOUTS, Reg.HOST_COUNTS_UR_SENT, Reg.HOST_COUNTS_BME_BLOCKED, Reg.HOST_ERRS_POISONED, Reg.HOST_ERRS_CA_SENT, Reg.HOST_ERRS_IDE_DROPPED, Reg.HOST_RESET_LAST, Reg.HOST_RESET_VF_FLRS, Reg.HOST_PTM_RESPONSES]
  | .peat =>
    [Reg.SLOT_STATUS_PRESENT, Reg.SLOT_STATUS_PRESENCE_CHANGED, Reg.SLOT_STATUS_ATTN_PRESSED, Reg.SLOT_STATUS_POWER_FAULT, Reg.SLOT_STATUS_POWER_ON, Reg.SLOT_STATUS_SURPRISE, Reg.SLOT_CTRL_ATTN_IND, Reg.SLOT_CTRL_PWR_IND, Reg.PEAT_LINK_RATE, Reg.PEAT_LINK_WIDTH, Reg.PEAT_LINK_FLIT256, Reg.PEAT_LINK_IDE_SECURE, Reg.PEAT_CAPACITY_GIB, Reg.PEAT_CAPACITY_DEVICE, Reg.PEAT_CFG_IDE_REQUIRED, Reg.PEAT_CFG_MAX_RATE, Reg.PEAT_CFG_SRIS, Reg.PEAT_COUNTS_POISON, Reg.PEAT_COUNTS_TIMEOUTS, Reg.PEAT_COUNTS_SURPRISE, Reg.PEAT_OP_REASON]
  | .plarus =>
    [Reg.PLR_ADDR_MAC, Reg.PLR_ADDR6_W0, Reg.PLR_ADDR6_W1, Reg.PLR_CFG_ETHERTYPE, Reg.PLR_CFG_UDP_PORT, Reg.PLR_CFG_FRAME_MAX, Reg.PLR_CFG_TC, Reg.PLR_CFG_VLAN_EN, Reg.PLR_CFG_VLAN_ID, Reg.RTX_CTRL_RTO_MIN_NS, Reg.RTX_CTRL_RTO_MAX_US, Reg.RTX_CTRL_RETRY_MAX, Reg.CC_CTRL_TARGET_NS, Reg.CC_CTRL_AI_BYTES, Reg.CC_CTRL_BETA, Reg.CC_CTRL_ECN_CUT, Reg.CC_CTRL_FREEZE, Reg.CC_LIMIT_CWND_MIN, Reg.CC_LIMIT_CWND_MAX_KIB, Reg.SWITCH_CTRL_ENABLE, Reg.SWITCH_CTRL_ECN_KIB, Reg.FWD_SELECT_ENTRY, Reg.FWD_KEY_MAC, Reg.FWD_ENTRY_VALID, Reg.FWD_ENTRY_PORTS, Reg.SESSION_SELECT_INDEX, Reg.SESSION_CFG_PEER_MAC, Reg.SESSION_CFG_FRAMING, Reg.SESSION_CFG_KILN, Reg.SESSION_CFG_ALLOW_DEBUG, Reg.SESSION_CFG_PEER_CTX, Reg.SESSION_PEER_IP6_W0, Reg.SESSION_PEER_IP6_W1, Reg.SESSION_PEER_KEY_ID_W0, Reg.SESSION_PEER_KEY_ID_W1, Reg.SESSION_STATE_STATE, Reg.SESSION_STATE_KEY_PHASE, Reg.SESSION_STATE_CTX, Reg.SESSION_STATE_PEER_INDEX, Reg.SESSION_CC_CWND] ++
    [Reg.SESSION_CC_SRTT_NS, Reg.SESSION_CC_OVR_CWND, Reg.SESSION_CC_OVR_OVERRIDE, Reg.SESSION_COUNTS_RETRANSMITS, Reg.SESSION_COUNTS_AUTH_DROPS, Reg.PLR_COUNTS_UNAUTH_DROPS, Reg.PLR_COUNTS_FWD_MISS, Reg.GROUP_SELECT_HANDLE, Reg.GROUP_CFG_VALID, Reg.GROUP_CFG_CTX, Reg.GROUP_CFG_SIZE, Reg.GROUP_CFG_RANK, Reg.GROUP_MAP_RANK, Reg.GROUP_MAP_SESSION]
  | .plarusPort =>
    [Reg.PORT_CFG_MODE, Reg.PORT_CFG_AN_EN, Reg.PORT_CFG_PTP_EN, Reg.PORT_CFG_PTP_DELAY, Reg.PORT_CFG_PTP_L2, Reg.PORT_STATUS_UP, Reg.PORT_STATUS_LANES_UP, Reg.PORT_STATUS_PTP_ROLE, Reg.PORT_STATUS_RETRAINING, Reg.FEC_COUNTS_CORRECTED, Reg.FEC_COUNTS_UNCORRECTABLE, Reg.EQ_CTRL_FREEZE, Reg.EQ_CTRL_OVERRIDE, Reg.EQ_CTRL_LANE, Reg.EQ_TAPS, Reg.EQ_MARGIN_MV, Reg.PTP_ASYM, Reg.PTP_OFFSET_OFFSET_PS, Reg.PTP_OFFSET_PATH_PS, Reg.PORT_COUNTS_ECN_MARKED, Reg.PORT_COUNTS_DROPS]
  | .timebase =>
    [Reg.TB_NOW_NS, Reg.TB_NOW_SEC, Reg.TB_NOW_HI_SEC, Reg.TB_CAPTURE_GO, Reg.TB_CAP0_NS, Reg.TB_CAP0_SEC, Reg.TB_CAP1_SEC_HI, Reg.TB_CAP1_FRAC, Reg.TB_CTRL_SOURCE, Reg.TB_CTRL_FREEZE, Reg.TB_CTRL_UTC_OFFSET, Reg.TB_CTRL_GM_CAPABLE, Reg.TB_CTRL_PRIORITY1, Reg.TB_CTRL_PRIORITY2, Reg.TB_CTRL_DOMAIN, Reg.TB_STATE_STATE, Reg.TB_STATE_ACTIVE_SOURCE, Reg.TB_STATE_CLOCK_CLASS, Reg.TB_STATE_OFFSET_PS, Reg.TB_ADJ_FREQ_PPB, Reg.TB_OVR_FREQ_PPB, Reg.TB_OVR_OVERRIDE, Reg.TB_SET_NS, Reg.TB_SET_SEC, Reg.PPS_CFG_PPS_OUT_EN, Reg.PPS_CFG_REF10M_OUT_EN, Reg.PPS_CFG_PULSE_US, Reg.PPS_CFG_PPS_IN_DELAY_NS, Reg.TB_COUNTS_STEPS, Reg.TB_COUNTS_PPS_MISSED]
  | .mailbox =>
    [Reg.MBX_CMD_OP, Reg.MBX_CMD_LENGTH, Reg.MBX_CMD_ARG, Reg.MBX_STATUS_BUSY, Reg.MBX_STATUS_CODE, Reg.MBX_STATUS_LENGTH]
  | .lifeCycle =>
    [Reg.LC_STATE_STATE, Reg.LC_STATE_DEBUG_POLICY, Reg.LC_STATE_COPIES_AGREE, Reg.LC_STATE_POLICY_AGREE, Reg.LC_TRANSITION_STEPS, Reg.LC_TRANSITION_TARGET, Reg.LC_TRANSITION_ENTRIES, Reg.OTP_STATUS_VPP, Reg.OTP_STATUS_LAST_ERROR, Reg.OTP_STATUS_WRITES, Reg.OTP_ROLLBACK_HW, Reg.OTP_ROLLBACK_MGMT, Reg.OTP_ROLLBACK_UEFI, Reg.OTP_ROLLBACK_OWNER, Reg.OTP_KEYS_VENDOR_VALID, Reg.OTP_KEYS_OWNER_VALID, Reg.BOOT_STATUS_RECOVERY, Reg.BOOT_STATUS_HW_SLOT, Reg.BOOT_STATUS_MGMT_SLOT, Reg.BOOT_STATUS_OWNER_CFG]
  | .debug =>
    [Reg.DEBUG_STATE_OPEN, Reg.DEBUG_STATE_HOW, Reg.DEBUG_REQ_ERASE, Reg.DEBUG_REQ_NEW_NONCE] ++
    (List.range 4).map (fun i => Reg.DEBUG_NONCE.at 8 i)
  | .resetPage =>
    [Reg.RESET_CAUSE_LAST, Reg.RESET_CAUSE_RAIL_LOST, Reg.RESET_CAUSE_TRIP, Reg.HUB_EPOCH, Reg.RESET_BRINGUP_STEP, Reg.RESET_BRINGUP_DONE, Reg.RESET_BRINGUP_TIME_MS, Reg.RAIL_STATUS_VAUX, Reg.RAIL_STATUS_VIN_CORE, Reg.RAIL_STATUS_VIN_IO, Reg.RAIL_STATUS_VPP, Reg.RAIL_MEAS_VIN_CORE_MV, Reg.RAIL_MEAS_VIN_IO_MV, Reg.SELFTEST_POLICY_INTERVAL_H]
  | .clock =>
    [Reg.PLL_LOCK, Reg.PLL_LOSSES_COUNT]
  | .power =>
    [Reg.PWR_LIMIT_PL_W, Reg.PWR_LIMIT_TEMP_TARGET, Reg.PWR_LIMIT_MARGIN_W, Reg.PWR_LIMIT_DUTY_MIN, Reg.PWR_CTRL_FREEZE, Reg.PWR_CTRL_OVERRIDE, Reg.PWR_CTRL_DUTY_OVR, Reg.PWR_STATUS_DUTY, Reg.PWR_STATUS_PLANNING, Reg.PWR_STATUS_LIMIT_UNMET, Reg.PWR_STATUS_INPUT_W, Reg.PWR_STATUS_TILE_DYN_W, Reg.PWR_STATUS_HOTTEST, Reg.PWR_STATUS_TILE_MAX_W, Reg.PWR_GATE_TILE_IDLE_US, Reg.DOMAIN_SELECT_INDEX, Reg.DOMAIN_STATE_ON, Reg.DOMAIN_STATE_PHASES, Reg.DOMAIN_STATE_POWER_W, Reg.PWR_COUNTS_DUTY_CHANGES]
  | .core =>
    [Reg.CORE_STATE_STATE, Reg.WDOG_CFG_TIMEOUT_MS, Reg.CORE_COUNTS_RESTARTS, Reg.CORE_COUNTS_LAST_MS, Reg.CORE_CAUSE_LAST]
  | .ember =>
    [Reg.EMBER_CAP_JOURNALS, Reg.EMBER_STATS_PAGES_SENT, Reg.EMBER_STATS_PAGES_RECEIVED, Reg.EMBER_STATS2_COMMITS, Reg.EMBER_STATS2_DISCARDED]

end Sys2Proof
end

