-- ==== Sys2Proof/Machine/PartsA.lean ====
section
/-! DEFINITION. The parts of the state, first file: torus, error records, tiles, passes, draught tags,
memory, cache, HBM, translation. Plain data; each field's default is its value after reset. -/

namespace Sys2Proof.Machine

/-- A packet in the torus: where it is buffered, its virtual channel, and the arbitrations it has lost
in a row at its output (R52 to R54). Input ports 0 to 3 face the X+, X-, Y+, Y- links (by direction of
travel); 4 + p is the injection port of local port p. -/
structure NetPkt where
  plane : Plane := .req
  hdr : Header := {}
  units : List Unit256 := []
  router : Nat := 0
  inPort : Nat := 4
  vc : Nat := 0
  lost : Nat := 0
deriving DecidableEq, Repr

/-- The torus (R40 to R61). -/
structure Torus where
  /-- Packets in router buffers, oldest arrival first (R52). -/
  pkts : List NetPkt := []
  /-- Credits in use, by buffer (R54): those not listed are 0. -/
  used : Tab Nat := []
  /-- Credits of emptied entries that have not yet returned (R54). -/
  due : Tab Nat := []
  /-- Consecutive replays of the beat in hand, by link (R55). -/
  replays : Tab Nat := []
  /-- Requests injected and not answered, each holding its reserved response storage (R45, R56). -/
  outstanding : List Header := []
  /-- Requests an endpoint has accepted and not answered (R59). -/
  accepted : List Header := []
  /-- Packets waiting at their source for a token bucket or an injection credit (R281, R54): node,
  plane, header, data units; oldest first. -/
  waiting : List (Nat × Plane × Header × List Unit256) := []
  /-- Nodes whose endpoint has gone down by an event (R59). -/
  down : List Nat := []
deriving DecidableEq, Repr

/-- A 64-byte error record (R487), its phase and drop count apart: those are the log's. -/
structure ErrRec where
  timeNs : Nat := 0
  timeSec : Nat := 0
  frac : Nat := 0
  page : Nat := 0
  ctx : Nat := 0
  sev : Nat := 0
  cls : Nat := 0
  seq : Nat := 0
  addr : Nat := 0
  virt : Bool := false
  addrValid : Bool := false
  detail : Nat := 0
  ring : Nat := 0
  passValid : Bool := false
  index : Nat := 0
  userTag : Nat := 0
  epoch : Nat := 0
  /-- The charged context was SEALED when the record was raised (R488). -/
  masked : Bool := false
deriving DecidableEq, Repr

/-- Error reporting (R74, R75, R487 to R490). -/
structure Errs where
  /-- Records on their way to the host port, oldest first (opcode 0x92). -/
  flight : List ErrRec := []
  /-- Pages whose interrupt condition went true, on their way to the host port (opcode 0x93). -/
  irqs : List Nat := []
  /-- The next record's SEQ (R488). -/
  seq : Nat := 1
  /-- Time, in ns plus 1, of the last CORRECTED record of a class on a page; 0: none (R488). -/
  lastCorrected : Tab Nat := []
  /-- Records the device log dropped since the last it holds; the tenant logs' by context + 1 (R489). -/
  droppedSince : Tab Nat := []
  /-- The DEVICE records latched in the always-on island, newest first, at most 8 (R490). -/
  latched : List ErrRec := []
  /-- Dispatch is stopped for every context (R490). -/
  dispatchStopped : Bool := false
deriving DecidableEq, Repr

/-- An operation active on a page (R76, R79): its code, argument, and whether it only waits. -/
structure PageOp where
  op : Nat
  arg : Nat
  queued : Bool
deriving DecidableEq, Repr

/-- A stationary block held in a bank (R84, R87): which K block of which pass, the element codes by
logical row and column, and the scale codes by segment and column. -/
structure Bank where
  passId : Nat := 0
  /-- First output column of its N block. -/
  col0 : Nat := 0
  kBlock : Nat := 0
  rows : List (List Nat) := []
  scales : List (List Nat) := []
  valid : Bool := false
deriving DecidableEq, Repr

/-- An array pass on a tile (R84, R93, R99). -/
structure ArrayPass where
  passId : Nat
  /-- The piece of the pass that this array pass computes. -/
  piece : Nat := 0
  /-- First output row and column of its piece. -/
  row0 : Nat := 0
  col0 : Nat := 0
  /-- Formats of the moving and the stationary operand. -/
  fmtA : Nat
  fmtB : Nat
  sat : Bool
  rows : Nat
  cols : Nat
  kBlocks : Nat
  /-- K block in progress and next moving row to issue. -/
  kBlock : Nat := 0
  mRow : Nat := 0
  /-- Next accumulator row of the epilogue. -/
  epiRow : Nat := 0
deriving DecidableEq, Repr

/-- A moving row that entered the array (R90): its tag, whether it belongs to the pass's first K block,
and the wide value of each column. -/
structure InFlight where
  passId : Nat
  piece : Nat := 0
  tag : Nat
  first : Bool
  last : Bool
  integer : Bool
  sat : Bool
  wides : List Num.Val
deriving DecidableEq, Repr

/-- An accumulator row (R84, R91): its 32-bit entries, whose pass wrote it, whether the last K block has
reached it and whether the epilogue has not read it yet. -/
structure AccRow where
  passId : Nat := 0
  piece : Nat := 0
  cells : List Nat := []
  final : Bool := false
  unread : Bool := false
deriving DecidableEq, Repr

/-- The tensor array of a tile and its loops (R84 to R107, R470 to R472). -/
structure TileSt where
  bank0 : Bank := {}
  bank1 : Bank := {}
  /-- The bank the next load fills is the other one. -/
  bankInUse : Nat := 1
  lead : Option ArrayPass := none
  trail : Option ArrayPass := none
  flight : List InFlight := []
  acc : Tab AccRow := []
  /-- Feeder and vector slot counters (R97). -/
  feederSlot : Nat := 0
  vectorSlot : Nat := 0
  /-- The duty each counter applies now (R97). -/
  feederDuty : Nat := 64
  vectorDuty : Nat := 64
  /-- Gated and valid product slots of the trailing pass (R94). -/
  gated : Nat := 0
  products : Nat := 0
  /-- Those of the leading pass so far. -/
  leadGated : Nat := 0
  leadProducts : Nat := 0
  /-- Partial histogram of the pass's rows on this tile (R99). -/
  hist : List Nat := []
  nonfinite : Option (Nat × Nat) := none
  saturated : Option (Nat × Nat) := none
  /-- A pre-emption is draining the array (R98). -/
  draining : Bool := false
  /-- Passes parked in the tile's park registers when it froze (R99). -/
  parkValid : Bool := false
  /-- Timebase seconds of the last return to service after a fault, plus 1; 0: none (R102). -/
  returnedAt : Nat := 0
  /-- The self-test was entered from a fault (R105), and the step it has reached. -/
  testFromFault : Bool := false
  testStep : Nat := 0
  /-- TCLK periods still to be stretched (R471). -/
  stretch : Nat := 0
  /-- The tile runs at the fixed sealed setting (R472). -/
  sealedSetting : Bool := false
  /-- Voltage in 0.1 mV and TCLK setpoint in MHz of the loops (R471); 0 while the domain is off. -/
  volt : Nat := 0
  mhz : Nat := 0
  /-- Requested duty, taken at the next window boundary (R97). -/
  nextDuty : Nat := 64
deriving DecidableEq, Repr

/-- A piece of a pass (R157, R169): its region of the output, its executor (tile n, or 64 + site) and
where it stands. -/
inductive PieceState where
  | waiting | running | parked | done
deriving DecidableEq, Repr

structure Piece where
  id : Nat
  row0 : Nat
  rows : Nat
  col0 : Nat
  cols : Nat
  exec : Nat
  state : PieceState
  /-- Must run again with precedence (R492). -/
  reissue : Bool := false
  /-- It has issued memory writes (R164). -/
  wrote : Bool := false
deriving DecidableEq, Repr

inductive PassPhase where
  | waiting | ready | running | ended
deriving DecidableEq, Repr

/-- A fetched pass (R137, R142, R157 to R159). -/
structure Pass where
  ctx : Nat
  id : Nat
  ring : Nat
  index : Nat
  /-- The 16 words copied at fetch. -/
  words : List Nat
  /-- The tensor descriptors read when the waits were satisfied, by slot. -/
  tds : List (Option (List Nat)) := []
  phase : PassPhase := .waiting
  status : Nat := 0
  detail : Nat := 0
  pieces : List Piece := []
  /-- Units of work placed and in all (the unit is the class's). -/
  placed : Nat := 0
  total : Nat := 1
  nonfinite : Option (Nat × Nat) := none
  saturated : Option (Nat × Nat) := none
  hist : List Nat := []
  histoWritten : Bool := false
  /-- Draught bias taken at the start, and the window base (R128). -/
  bias : Int := 0
  winBase : Int := 0
  /-- Biases of the tagged inputs, by slot, taken at the start (R128). -/
  inBias : List Int := []
  /-- The tag was reset while the pass ran (R130). -/
  tagReset : Bool := false
  /-- Executors that faulted or failed the pass (R101, R158). -/
  failed : List Nat := []
  /-- The class's work has been computed and its writes made. -/
  computed : Bool := false
deriving DecidableEq, Repr

/-- A draught tag (R128 to R132). -/
structure DraughtTag where
  nextBias : Int := 0
  appliedBias : Int := 0
  frozen : Bool := false
  overridden : Bool := false
  written : Bool := false
  lastTop : Nat := 0x80
  updates : Nat := 0
  base : Int := -48
  headroom : Nat := 2
  step : Nat := 2
  deadband : Nat := 1
deriving DecidableEq, Repr

/-- The states of a frame (R202). -/
inductive FrameState where
  | free | owned | ashing | retired | gone
deriving DecidableEq, Repr

/-- A frame's ownership entry (R202). -/
structure FrameEnt where
  ctx : Nat := 0xFF
  state : FrameState := .free
  bad : Bool := false
  pinned : Bool := false
deriving DecidableEq, Repr

/-- The home states of a line (R243): `if_` is I_F, waiting for fill data. -/
inductive HomeState where
  | i | if_ | s | x | snpS | snpI
deriving DecidableEq, Repr

/-- A line of the hub cache (R212): masks of four sectors, data of the valid ones (128 bytes), and the
directory vector (R237). -/
structure Line where
  pa : Nat
  way : Nat
  ctx : Nat
  valid : Nat := 0
  dirty : Nat := 0
  keep : Bool := false
  discard : Nat := 0
  data : List Byte := []
  dir : Nat := 0
  /-- The one listed agent holds E or M: state X (R243). -/
  excl : Bool := false
deriving DecidableEq, Repr

/-- The hub cache: lines of one slice and set, most recent first (R212, R213), keyed slice * 2048 + set. -/
abbrev Cache := Tab (List Line)

/-- Memory behind the homes and the ports (R196, R208). -/
structure Mem where
  /-- Bytes by physical address, strictly rising; a byte not listed reads as `Mem.unlisted` says. -/
  cells : List Host.Cell := []
  /-- How often all memory has been wiped since the model's reset state (R315). -/
  wipes : Nat := 0
  /-- How often each frame has been ashed since then (R208). -/
  ashes : Tab Nat := []
  /-- Sectors marked bad, by sector number (R210). -/
  badSectors : List Nat := []
  /-- Ownership entries, by frame number (R202). -/
  frames : Tab FrameEnt := []
deriving DecidableEq, Repr

/-- A channel (R211, R222, R225, R227), keyed by device channel index. -/
structure Channel where
  fenced : Bool := false
  evacuated : Bool := false
  longRetrain : Bool := false
  paused : Bool := false
  announced : Bool := false
  adaptRead : Nat := 0
  adaptWrite : Nat := 0
  override : Bool := false
  ovRead : Nat := 0
  ovWrite : Nat := 0
  retrains : Nat := 0
  /-- Corrected errors in the second now running, and that second. -/
  correctedNow : Nat := 0
  correctedSec : Nat := 0
  /-- Reserve granules held for earlier evacuations (R225). -/
  held : Nat := 0
  /-- Failed lanes repaired beyond the record: a spare remains while below 2 (R223). -/
  spareLanes : Nat := 2
deriving DecidableEq, Repr

/-- A stack's temperature control (R220, R221). -/
structure StackSt where
  /-- Readings in 0.1 degrees C, newest first, at most ten. -/
  readings : List Int := []
  /-- Decisions in a row at or below 82 degrees. -/
  coolRun : Nat := 0
  unread : Nat := 0
  fenced : Bool := false
  /-- Readings in a row at or below 85 degrees while fenced. -/
  coolMs : Nat := 0
  nextRetrain : Nat := 0
deriving DecidableEq, Repr

/-- A request for the evacuation engine (R224): the owner's on a page, or the hub's own. -/
structure EvacReq where
  channel : Nat
  owner : Bool
deriving DecidableEq, Repr

/-- The running evacuation (R225). -/
structure EvacRun where
  channel : Nat
  owner : Bool
  /-- Blocks to copy and the bits set so far. -/
  blocks : Nat
  doneBits : List Nat := []
  targets : List Nat := []
  paused : Bool := false
deriving DecidableEq, Repr

structure Hbm where
  channels : Tab Channel := []
  stackSet : Tab StackSt := []
  evac : Option EvacRun := none
  waiting : List EvacReq := []
  /-- Remapped granules: (channel, local granule) to (target channel, reserve granule), by channel
  and first granule: the permanent remaps of switched evacuations, oldest first. -/
  remaps : List (Nat × List Nat) := []
  /-- Requests waiting at a channel, by device channel, oldest first (R222, R283, R289). -/
  queues : Tab (List (Header × List Unit256)) := []
  /-- Context of the slot a channel is in, plus 1; 0: an unallotted slot (R289). -/
  slotNow : Tab Nat := []
deriving DecidableEq, Repr

/-- A migration of the placement engine (R232). -/
structure Migration where
  ctx : Nat
  region : Nat
  frameA : Nat
  frameB : Nat
  promote : Bool
  /-- The translation has been withdrawn; the stall holds until installation. -/
  withdrawn : Bool := false
  epoch : Nat := 0
deriving DecidableEq, Repr

/-- A translation a holder keeps (R258): `size` 0: 64 KiB, 1: 2 MiB, 2: 512 MiB. -/
structure TlbEnt where
  ctx : Nat
  va : Nat
  size : Nat
  pa : Nat
  read : Bool
  write : Bool
  hint : Nat
  dirty : Nat
  /-- Sectors counted toward the next access-count unit (R272). -/
  sectors : Nat := 0
deriving DecidableEq, Repr

/-- An access unit stalled on a fault, and the unit's description (R260 to R262). -/
structure StalledUnit where
  holder : Nat
  sub : Nat := 0
  va : Nat
  len : Nat
  access : Nat
  ring : Nat := 0
  passValid : Bool := false
  index : Nat := 0
  userTag : Nat := 0
deriving DecidableEq, Repr

/-- An outstanding fault of a context (R261): its ID, page, code, level and entry, when it was recorded
and its record's SEQ. -/
structure FaultSt where
  ctx : Nat
  id : Nat
  page : Nat
  code : Nat
  level : Nat
  entry : Nat
  seq : Nat
  units : List StalledUnit
deriving DecidableEq, Repr

/-- An invalidation not yet complete (R266), of a context's own series or the placement engine's. -/
structure Inval where
  ctx : Nat
  epoch : Nat
  base : Nat
  pages : Nat
  signal : Nat := 0
  signalEn : Bool := false
  placement : Bool := false
  /-- Holders that have not acknowledged. -/
  waiting : List Nat
deriving DecidableEq, Repr

/-- A walk-cache entry (R256): a table entry of level 0 or 1 by context and virtual address span. -/
structure WalkEnt where
  ctx : Nat
  level : Nat
  va : Nat
  entry : Nat
deriving DecidableEq, Repr

structure Xlate where
  holders : Tab (List TlbEnt) := []
  walkCache : List WalkEnt := []
  faults : List FaultSt := []
  /-- Access units whose fault waits for an ID or a queue slot (R261). -/
  unrecorded : List (Nat × Nat × Nat × Nat × Nat × StalledUnit) := []
  /-- Next fault SEQ by context, minus 1 (R262). -/
  seqs : Tab Nat := []
  invals : List Inval := []
  /-- Ranges held by the placement or ember engine (R270): context, first page, pages. -/
  heldRanges : List (Nat × Nat × Nat) := []
  placementEpoch : Nat := 0
  migrations : List Migration := []
  /-- Requests of holders that wait at a held range (R270): holder, sub-agent, header. -/
  heldReqs : List (Nat × Nat × Header) := []
  /-- Guests' requests that wait in their adapter at a held range (R270): site, header, data. -/
  heldGuest : List (Nat × Header × List Unit256) := []
  /-- Units told to replay by a resume (R264): context, fault ID, unit. -/
  resuming : List (Nat × Nat × StalledUnit) := []
  /-- Regions held to a tier by PLACE_CMD (R236): (context, region, tier 1 HBM or 2 peat). -/
  placeHolds : List (Nat × Nat × Nat) := []
deriving DecidableEq, Repr

end Sys2Proof.Machine
end

