-- ==== Sys2Proof/Machine/PartsB.lean ====
section
/-! DEFINITION. The parts of the state, second file: coherence, regulation, contexts, coppice, and what
the block sends to the outside. Plain data; each field's default is its value after reset. -/

namespace Sys2Proof.Machine

/-- What a home is asked for a line (R243): the coherent requests, a non-caching read of a sector mask
of the granule, an invalidating write or add, a victim's or an ash's invalidation, a recall. -/
inductive HomeReq where
  | rdShared (agent : Nat) (hdr : Header)
  | rdOwn (agent : Nat) (hdr : Header)
  | upgrade (agent : Nat) (hdr : Header)
  /-- `got` and `data`: the granule's sectors gathered so far. -/
  | read (hdr : Header) (got : Nat) (data : List Byte)
  /-- What is left to write, from address `pa` up; `bad`: a sector was discarded (R210). -/
  | write (hdr : Header) (pa : Nat) (data : List Byte) (en : List Bool) (bad : Bool)
  | add (hdr : Header)
  /-- The compare-and-exchange of a table entry (R257). -/
  | pte (hdr : Header)
  | victim
  | ash (pa : Nat)
  | recall (pa : Nat)
deriving DecidableEq, Repr

/-- A line at its home while it is not in a stable state, or has waiting requests (R243, R244). -/
structure HomeLine where
  state : HomeState := .i
  pending : Nat := 0
  inHand : Option HomeReq := none
  queue : List HomeReq := []
deriving DecidableEq, Repr

/-- The states of a line at a caching agent (R242). -/
inductive AgState where
  | i | s | e | m | isD | imD | smA | miA | ciA
deriving DecidableEq, Repr

/-- A line at a caching agent (R242): its state, data and dirty sectors. -/
structure AgLine where
  state : AgState := .i
  data : List Byte := []
  dirty : Nat := 0
deriving DecidableEq, Repr

/-- An agent's port for a line (R246): the hold, and snoops that wait (true: SNP_INV). -/
structure PortHold where
  holding : Bool := false
  waiting : List Bool := []
deriving DecidableEq, Repr

structure Coherence where
  /-- Homes' transient lines, by line number pa / 128. -/
  homes : Tab HomeLine := []
  /-- Agents' lines, by agent * 2^46 + line number. -/
  agents : Tab AgLine := []
  holds : Tab PortHold := []
  /-- Agents whose breach (R245) or lost answer (R247) waits for its containment, and whether lost. -/
  breaches : List (Nat × Bool) := []
deriving DecidableEq, Repr

/-- The regulator (R277 to R291); keys are (source * 256 + context) * 8 + class. -/
structure Regul where
  /-- R(k,c), by context * 8 + class (R281). -/
  rates : Tab Nat := []
  /-- Bytes asked in the running 256 ns, and the share of the rate given, in GB/s times 64. -/
  asked : Tab Nat := []
  shares : Tab Nat := []
  buckets : Tab Nat := []
  /-- Moving averages in ns and levels in force, at the sources (R283). -/
  latAvg : Tab Nat := []
  levels : Tab Nat := []
  /-- Last four occupancies of a queue, newest first, by page * 32 + queue (R282). -/
  qHist : Tab (List Nat) := []
  /-- Slot positions of a sealed context, by context * 384 + channel (R290). -/
  slotPos : Tab (List Nat) := []
deriving DecidableEq, Repr

/-- The park images of a context (R311): slot, the tile state kept, valid or not. -/
structure ParkImg where
  slot : Nat
  tile : TileSt
  valid : Bool
deriving DecidableEq, Repr

/-- A coppice in progress on a context page (R309 to R312). `steps` counts those done: 1 quiesce, 2 park,
3 ash, 4 ownership, 5 digest. -/
structure CoppiceRun where
  kind : Nat
  index : Nat
  count : Nat
  target : Nat
  park : Bool
  step : Nat := 0
  /-- Forced by R79 for an operation waiting on the resource's page. -/
  forced : Bool := false
  /-- The tile faulted during quiesce or park (R313). -/
  faulted : Bool := false
deriving DecidableEq, Repr

/-- A message through the sealed window (R304): type, plaintext body, sequence number, session and its keys. -/
structure WinMsg where
  type : Nat
  body : List Byte
  seq : Nat := 0
  encrypted : Bool := true
  session : Nat := 0
  keys : Nat := 0
deriving DecidableEq, Repr

/-- A context's state beyond its registers (R295 to R313). -/
structure CtxSt where
  /-- The current sealed session: its ID (0: none) and the two series (R304, R305). -/
  session : Nat := 0
  inSeq : Nat := 0
  outSeq : Nat := 0
  /-- Free number that stands for the session's keys, held in Heartwood alone. -/
  keys : Nat := 0
  nonce : List Byte := []
  outQ : List WinMsg := []
  inBuf : Tab Byte := []
  /-- Configuration digest and event log (R308). -/
  digest : Nat := 0
  log : List (List Byte) := []
  /-- Slot allotment: s, C, and the regions ever held since sealing (R289). -/
  slots : Nat := 0
  channels : Nat := 0
  regions : List Nat := []
  paceHbm : Nat := 0
  pacePeat : Nat := 0
  paceHost : Nat := 0
  parks : List ParkImg := []
  coppice : Option CoppiceRun := none
  flrPending : Bool := false
  /-- Resources whose ending ash is not done (R299): coppice kind and number. -/
  ending : List (Nat × Nat) := []
  /-- Ring entries that a promotion fetches again first (R504): ring, index. -/
  refetch : List (Nat × Nat) := []
  /-- Ring served last (R137). -/
  lastRing : Nat := 15
  /-- A key is written in slot k (R206). -/
  keySlot : Bool := false
  /-- Responses held by the pacing of R302: header, data units, and the age in NCLK cycles at which each is
  delivered. -/
  paced : List (Header × List Unit256 × Nat) := []
deriving DecidableEq, Repr

/-- An MSI-X table entry (R384). -/
structure MsixEnt where
  addr : Nat := 0
  data : Nat := 0
  masked : Bool := true
  pending : Bool := false
deriving DecidableEq, Repr

/-- What the block sends on its interfaces. `State.out` lists it newest first. -/
inductive Out where
  /-- An MSI-X message of a function's vector (R384). -/
  | msix (fn vec : Nat)
  /-- A torus request sent by a block of the hub. -/
  | request (h : Header) (units : List Unit256)
  /-- A torus response: status in `OP_ARG`[183:176]. -/
  | response (h : Header) (status : Nat) (units : List Unit256)
  /-- A packet delivered to its endpoint. -/
  | delivered (h : Header) (units : List Unit256)
  /-- A link asks its sender to resend from the failing beat: router, direction (R55). -/
  | linkReplay (router dir : Nat)
  /-- Data of a register read, to a function (0xFF: a management core). -/
  | regData (fn page off : Nat) (data : Nat)
  /-- A register write has taken effect. -/
  | regDone (fn page off : Nat)
  /-- An answer to a management message. -/
  | mgmtAnswer (node type : Nat) (payload : List Byte)
  /-- A sealed-window message became readable in `OUT_BUF`. -/
  | window (ctx : Nat) (m : WinMsg)
  /-- A KPP message to a guest: site, type, fields. -/
  | kpp (site type : Nat) (args : List Nat) (body : List Byte)
  /-- A Plarus transport packet: session, type (R411), packet number, first unit, the torus header it carries, its
  units, other payload. -/
  | plarus (session kind pn first : Nat) (h : Header) (units : List Unit256) (body : List Byte)
  /-- An Ethernet frame leaving a port. -/
  | frame (port : Nat) (body : List Byte)
  /-- A PCIe completion to the host: function, tag, status, data. -/
  | completion (fn tag status : Nat) (data : List Byte)
  /-- A PCIe request of the hub to host memory: requester function, IDE stream (0 clear, 1 link, 2 + i selective stream
  i), tag, write, address, data, byte enables (none: all), length. -/
  | hostReq (fn stream tag : Nat) (write : Bool) (addr : Nat) (data : List Byte) (en : List Bool) (len : Nat)
  /-- A CXL request of a peat port: port, write, address, data or length. -/
  | cxlReq (port : Nat) (write : Bool) (addr : Nat) (data : List Byte) (len : Nat)
  /-- A pin takes a level: pin number by `Pin`, level. -/
  | pin (pin : Nat) (high : Bool)
  /-- An answer of Heartwood, of a DOE mailbox, of the management bus, of JTAG: source, code, data. -/
  | answer (src code : Nat) (data : List Byte)
deriving DecidableEq, Repr

end Sys2Proof.Machine
end

