-- ==== Sys2Proof/Machine/PartsC.lean ====
section
/-! DEFINITION. The parts of the state, third file: guest sites, kiln, host and peat ports, Plarus, time,
Heartwood, power, ember. Plain data; each field's default is its value after reset. -/

namespace Sys2Proof.Machine

/-- Why an attestation sequence runs (R361, R362, R371). -/
inductive AttestWhy where
  | none | bringUp | op | clear
deriving DecidableEq, Repr

/-- A flit the hub keeps until it is acknowledged (R350): its sequence number, whether it is a MGMT flit, the
message's type and body in its first flit. -/
structure SentFlit where
  seq : Nat
  mgmt : Bool
  mtype : Nat := 0
  body : List Byte := []
deriving DecidableEq, Repr

/-- A guest register access in progress (R357): function, offset in the window, bytes. -/
structure GuestRead where
  fn : Nat
  off : Nat
  width : Nat
deriving DecidableEq, Repr

/-- A guest site beyond its registers (R345 to R375). -/
structure SiteSt where
  /-- Sequence number expected next, next to send, and flits sent and not acknowledged, oldest first. -/
  rxNext : Nat := 0
  txNext : Nat := 0
  sent : List SentFlit := []
  /-- A failed flit waits for its replay; the failed replays of it; times of retrains in ns (R350). -/
  naking : Bool := false
  replays : Nat := 0
  retrains : List Nat := []
  /-- Flits have been received since an acknowledgement was last returned. -/
  ackDue : Bool := false
  /-- Credits of the guest's that the hub holds, in R351's order; below zero, what waits for credits. -/
  credits : List Int := []
  /-- Packet bytes received of a packet not yet whole, and a management message in reassembly. -/
  slots : List Byte := []
  msg : Option (Nat × List Byte) := Option.none
  /-- Guest tags of requests under the adapter's tags (R349). -/
  tags : Tab Nat := []
  nextTag : Nat := 0
  /-- Guest requests that wait on a translation fault (R260). -/
  stalled : List (Header × List Unit256) := []
  /-- Classes and formats declared (R354). -/
  drunteClasses : Nat := 0
  drunteFormats : Nat := 0
  /-- Attestation: why it runs, its step, nonce, the certificate chain (R360). -/
  why : AttestWhy := .none
  step : Nat := 0
  nonce : List Byte := []
  chain : List Byte := []
  /-- The guest has answered the `CLEAR` now running, and its attestation has run again (R362). -/
  cleared : Bool := false
  /-- `PAUSE` has been sent and not answered. -/
  pausing : Bool := false
  /-- Pieces outstanding: KPP piece ID, pass, piece of the pass (R358); those asked to stop. -/
  pieces : List (Nat × Nat × Nat) := []
  stopping : List Nat := []
  nextPiece : Nat := 0
  regReads : List GuestRead := []
  /-- The link is in L1; a `PWR` message waits for its answer (R372). -/
  l1 : Bool := false
  pwrWait : Option Nat := Option.none
  /-- The rail's ramp is running; reset has been released (R28, R371). -/
  ramping : Bool := false
  released : Bool := false
  /-- Spares used by module and direction, 2m + d (R365). -/
  spares : List Nat := []
  /-- `GS_THERM_N` assertions counted (R371). -/
  therm : Nat := 0
deriving DecidableEq, Repr

/-- A Plarus packet that its sender keeps until it is acknowledged (R416, R421): `kind` 1 `DATA`, 5 `REKEY`, 6
`REKEY_ACK`, 7 `FIN`, 8 `FIN_ACK`. -/
structure TxPkt where
  pn : Nat := 0
  kind : Nat := 1
  plane : Plane := .req
  hdr : Header := {}
  first : Nat := 0
  units : List Unit256 := []
  body : List Byte := []
  /-- Packets sent later that have been acknowledged; expiries of its RTO in a row; a timebase step fell after its
  sending. -/
  passed : Nat := 0
  expiries : Nat := 0
  stepped : Bool := false
deriving DecidableEq, Repr

/-- A torus packet not yet whole at its receiver (R412): units by index. -/
structure RxPkt where
  plane : Plane
  hdr : Header
  units : Tab Unit256
deriving DecidableEq, Repr

/-- A session entry of the Plarus block (R414 to R422, R437). -/
structure Session where
  peerMac : Nat := 0
  framing : Nat := 0
  kiln : Bool := false
  allowDebug : Bool := false
  peerCtx : Nat := 0
  ip6 : Nat := 0
  /-- `SESSION_PEER.KEY_ID`, bytes 0 to 15 as a little-endian number. -/
  keyId : Nat := 0
  ovrCwnd : Nat := 0
  override : Bool := false
  /-- 0 `FREE`, 1 `CONNECTING`, 2 `OPEN`, 3 `REKEYING`, 4 `CLOSING`, 5 `LOST`. -/
  st : Nat := 0
  ctx : Nat := 0xFF
  keyPhase : Nat := 0
  peerIndex : Nat := 0
  /-- The `KEY_ID` that the handshake verified (R440). -/
  verified : Nat := 0
  /-- Own ephemeral secret and nonce of the handshake under way; the session's keys; those a rekey has agreed. -/
  secret : Nat := 0
  nonce : List Byte := []
  keys : Nat := 0
  nextKeys : Option Nat := none
  /-- Packets under the old phase are still accepted (R418). -/
  oldOk : Bool := false
  txNext : Nat := 1
  txUnder : Nat := 0
  rxUnder : Nat := 0
  rxLargest : Nat := 0
  rxSeen : List Nat := []
  unacked : List TxPkt := []
  sendQ : List TxPkt := []
  rxParts : List RxPkt := []
  /-- `DATA` packets not acknowledged yet; `TX_TS` and arrival of the packet `ACK_LARGEST` names; a mark seen since the
  last acknowledgement. -/
  due : Nat := 0
  lastTs : Nat := 0
  lastAt : Nat := 0
  ceSeen : Bool := false
  srtt : Nat := 0
  rttvar : Nat := 0
  hasRtt : Bool := false
  /-- RTT samples since the last update of the window, and those of the last 10 s with their second (R422). -/
  samples : List Nat := []
  mins : List (Nat × Nat) := []
  eceSeen : Bool := false
  cwnd : Nat := 0
  /-- Torus requests that wait on the session for their responses. -/
  waiting : List Header := []
  retransmits : Nat := 0
  authDrops : Nat := 0
deriving DecidableEq, Repr

/-- A forwarding entry (R425, R437), and a group table entry (R424). -/
structure FwdEnt where
  mac : Nat := 0
  valid : Bool := false
  ports : Nat := 0
deriving DecidableEq, Repr

structure Group where
  valid : Bool := false
  ctx : Nat := 0
  /-- G minus 1. -/
  size : Nat := 0
  rank : Nat := 0
deriving DecidableEq, Repr

/-- What the collective engine has received of a member's input (R190, R423). -/
structure CollPart where
  group : Nat
  seq : Nat
  rank : Nat
  /-- `KIND`, `RED_OP`, `DIM` and format that the member's pass names. -/
  shape : Nat
  data : Tab Byte
  /-- Bytes in all, once its end has come. -/
  size : Option Nat
deriving DecidableEq, Repr

/-- The Plarus block (R406 to R426). -/
structure Plarus where
  sessions : Tab Session := []
  fwd : Tab FwdEnt := []
  groups : Tab Group := []
  /-- Session of a rank, by handle * 1024 + rank. -/
  groupMap : Tab Nat := []
  /-- Ports out of every forwarding set though their link may be up (R408). -/
  removed : List Nat := []
  /-- Equaliser taps of a lane, by port * 4 + lane (R407); eye margins. -/
  taps : Tab Nat := []
  margins : Tab Nat := []
  /-- Lanes that use written taps. -/
  tapOverride : Tab Bool := []
  coll : List CollPart := []
  /-- Remote requests of peers that wait on a translation fault (R260): session, header, data units. -/
  remote : List (Nat × Header × List Unit256) := []
deriving DecidableEq, Repr

/-- A party of a kiln round (R327). -/
structure KilnParty where
  hub : Nat
  ctx : Nat
  role : Nat
  fence : Nat
  key : List Byte
deriving DecidableEq, Repr

/-- What waits for a kiln engine (R336): a put of a pass, or a partial sum that has arrived whole. -/
structure KilnCommit where
  slot : Nat
  /-- The pass of a put; none: a partial sum, with its map of parties. -/
  pass : Option Nat
  map : Nat := 0
  hub : Nat := 0
deriving DecidableEq, Repr

/-- A kiln round (R325 to R342). -/
structure KilnRound where
  handle : Nat
  policy : List Byte
  digest : Nat
  /-- 0 `FORMING`, 1 `OPEN`, 2 `SENT`, 3 `RELEASING`, 4 `RELEASED`, 5 `DESTROYING`. -/
  st : Nat := 0
  /-- Verified signatures by party; parties joined here; hubs that have reported OPEN. -/
  sigs : Tab (List Byte) := []
  joined : List Nat := []
  opened : List Nat := []
  /-- Parties counted, as a map. -/
  counted : Nat := 0
  /-- Contributions and partial sums added to the sum; 0: the sum is still the zero vector. -/
  adds : Nat := 0
  buf0 : List Nat := []
  buf1 : List Nat := []
  second : Bool := false
  /-- Staging frames that receive partial sums, by hub. -/
  staging : Tab (List Nat) := []
  factors : Tab Nat := []
  zeroed : List Nat := []
  cause : Nat := 0
  /-- `MARGIN_MS` before the deadline has come, and the deadline. -/
  margin : Bool := false
  due : Bool := false
  /-- Transfers sent to a hub and not answered; what ends them: 0 partial sum, 1 release. -/
  sending : Tab (Nat × Nat) := []
deriving DecidableEq, Repr

/-- The kiln engines (R324 to R344). -/
structure Kiln where
  /-- Frames of an engine's pool not held by a round. -/
  pools : Tab (List Nat) := []
  rounds : Tab KilnRound := []
  /-- Rounds created since power-up. -/
  created : Nat := 0
  /-- Commits waiting, by engine, oldest first. -/
  commits : Tab (List KilnCommit) := []
deriving DecidableEq, Repr

/-- An entry of a partner's ember log (R498, R501): cut, virtual address, offset in the log, bytes. -/
structure EmberEnt where
  cut : Nat
  va : Nat
  off : Nat
  len : Nat
deriving DecidableEq, Repr

/-- A context's ember journal beyond its registers (R498 to R505). -/
structure EmberSt where
  /-- Source: pages sent in `SYNC`, the first commit done, bytes sent of the open cut, its number, the point's pass
  and the state it left. -/
  synced : List Nat := []
  firstDone : Bool := false
  sentBytes : Nat := 0
  openCut : Nat := 1
  point : Option Nat := none
  back : Nat := 1
  /-- Partner: log entries in order, bytes of the log in use, the end of the log, bytes of the open cut received, the
  state block's parts received and the committed one. -/
  log : List EmberEnt := []
  tail : Nat := 0
  gotBytes : Nat := 0
  state : Tab Byte := []
  committed : List Byte := []
  /-- A promotion waits for the apply. -/
  promoting : Bool := false
  /-- Source: the partner's log is full of the open cut; streaming waits for the next point (R502). Partner: journals it was
  bound to before. -/
  full : Bool := false
  past : List Nat := []
deriving DecidableEq, Repr

/-- Management cores beyond their registers (R494 to R496): times of restarts in ns, by core. -/
structure CoresSt where
  restarts : Tab (List Nat) := []
deriving DecidableEq, Repr

/-- A transition record of the OTP (R454): the target's life-cycle code and the steps taken. -/
structure OtpRecord where
  target : Nat
  steps : Nat
deriving DecidableEq, Repr

/-- The OTP array (R448 to R450): the three copies of the two words, key hashes (0: not programmed), revocations,
thermometers, per-site states, valid repair slots, transition records, and whether the seed has been destroyed. -/
structure Otp where
  lc : List Nat := [0xFFF, 0xFFF, 0xFFF]
  policy : List Nat := [0, 0, 0]
  ownerKeys : List Nat := [0, 0, 0, 0]
  vendorRevoked : Nat := 0
  ownerRevoked : Nat := 0
  thermo : Tab Nat := []
  /-- Per-site states: 0 `VIRGIN`, 1 `ASSIGNED`, 2 `RETIRED`. -/
  sites : List Nat := [0, 0, 0, 0, 0, 0, 0, 0]
  /-- Repair slots programmed, 2n + slot for site n, 16 + 2n + slot for stack n: whether the record checks. -/
  repair : Tab (Option Bool) := []
  records : List OtpRecord := []
  seedGone : Bool := false
deriving DecidableEq, Repr

/-- Heartwood and the life cycle beyond their registers (R436 to R463). -/
structure Heart where
  /-- SHA-512 hashes of the owner's guest roots (R443). -/
  guestRoots : List Nat := []
  /-- The 16 measurement registers, each as its 64 bytes' little-endian number (R445). -/
  meas : Tab Nat := []
  /-- Reports signed since power-up (R307). -/
  reports : Nat := 0
  otp : Otp := {}
  /-- `MBX_DATA` (R462). -/
  mbx : Tab Byte := []
  /-- `SECURITY_VERSION` plus 1 of the running image of each type (R462); 0: none runs. -/
  running : Tab Nat := []
  /-- Slot 0x00's and the kiln storage key (R206): the draw that stands for them, plus 1. -/
  bootKeys : Nat := 0
  /-- The verified UEFI driver image (R382). -/
  rom : List Byte := []
  /-- PCIe Subsystem Vendor ID and Subsystem ID (R444, R478). -/
  subsys : Nat := 0x1DF7
  /-- The SPDM responder (R458): how far the connection has come (0 none, 1 version, 2 capabilities, 3 algorithms), the
  draw that stands for the session's keys, plus 1 (0: no session), and whether `FINISH` has closed its handshake. -/
  spdm : Nat := 0
  spdmKeys : Nat := 0
  spdmDone : Bool := false
deriving DecidableEq, Repr

/-- An outbound non-posted request of the host port (R387): tag, requester function, the request it serves, host address
and length asked, the bytes that have come. -/
structure HostTag where
  tag : Nat
  fn : Nat
  hdr : Header
  addr : Nat
  len : Nat
  got : List Byte := []
deriving DecidableEq, Repr

/-- The host port beyond its registers (R376 to R403). -/
structure HostSt where
  /-- Configuration dwords that differ from their reset value, by function * 4096 + offset (R378). -/
  cfg : Tab Nat := []
  tags : List HostTag := []
  /-- Tags not to be used again yet (R389). -/
  quarantined : List Nat := []
  /-- Requests that wait for a tag, or for an add to the same sector (R385, R387). -/
  waiting : List (Header × List Unit256) := []
  /-- The bus number captured from configuration writes. -/
  bus : Nat := 0
  /-- Contexts whose ending a reset of the host waits for (R391). -/
  ends : List Nat := []
  /-- IDE streams with keys programmed: 0 the link stream, 1 + i selective stream i (R393). -/
  ideKeys : List Nat := []
  /-- The response that waits in the DOE mailbox (R395). -/
  doe : List Byte := []
deriving DecidableEq, Repr

/-- A peat port beyond its registers (R396 to R405). -/
structure PeatSt where
  /-- CXL.mem requests sent and not answered: header and data. -/
  outstanding : List (Header × List Byte × List Bool) := []
  /-- Installed frames, and those ashed on the way into service. -/
  frames : Nat := 0
  ashed : Nat := 0
  entering : Bool := false
deriving DecidableEq, Repr

/-- Power, clocks and bring-up beyond their registers (R465 to R485), with what the always-on island keeps. -/
structure Power where
  /-- Switched domains that are on (R468). -/
  domains : Tab Bool := []
  /-- Levels of the pins the hub drives, where they differ from the level before service (R512). -/
  pins : Tab Bool := []
  /-- `PERST_N` is low. -/
  perst : Bool := true
  vaux : Bool := true
  /-- Every phase is off, after a loss of rails or a trip (R32, R467). -/
  off : Bool := false
  tripped : Bool := false
  tripSensors : List Nat := []
  /-- A `DEVICE` error of a clock waits for a fundamental reset (R479), or bring-up has stopped (R476). -/
  halted : Bool := false
  /-- Guest sites whose start bring-up has begun, and whether step 5 has started the ports (R476). -/
  nextSite : Nat := 0
  portsStarted : Bool := false
  /-- Sensors at or above the alert threshold (R34). -/
  alerted : List Nat := []
  /-- Highest hub-die or base-die reading since the last decision of the power loop, in 0.125 degrees. -/
  hottest : Int := 0
  /-- The next tile of the periodic self-test (R481). -/
  nextTest : Nat := 0
  /-- A thermal trip, or a loss of rails, since the last fundamental reset (R483). -/
  hadTrip : Bool := false
  hadRail : Bool := false
  /-- Latched records that the next start writes to the device log (R490). -/
  toLog : List ErrRec := []
  /-- Milliseconds of the bring-up under way (R483). -/
  ms : Nat := 0
  /-- The JTAG instruction in force (R519): 0 BYPASS, 1 IDCODE, 2 SAMPLE, 3 PRELOAD, 4 EXTEST, 5 + n private. -/
  jtag : Nat := 1
deriving DecidableEq, Repr

end Sys2Proof.Machine
end

