-- ==== Sys2Proof/Machine/State.lean ====
section
/-! DEFINITION. The state of the Krovion KV4 hub block, its reset value, and the reasons a command can stop. -/

namespace Sys2Proof.Machine

/-- The timebase (R427 to R435): seconds, nanoseconds, fraction, and what it disciplines itself by. -/
structure TimeSt where
  sec : Nat := 0
  ns : Nat := 0
  frac : Nat := 0
  /-- `PPS_IN` and `REF10M_IN` have a signal; the pins are present at their inputs. -/
  pps : Bool := false
  ref : Bool := false
  /-- Phase error found, in ns, that a step corrects at the next second boundary (R430). -/
  stepDue : Option Int := none
  /-- A source's phase has jumped by more than 1 us. -/
  jumped : Bool := false
  /-- Site adapters that have not sent the first message after a step (R434). -/
  stepped : List Nat := []
  /-- `PPS_OUT` is high. -/
  ppsHigh : Bool := false
  /-- The state of R429 beneath `FREEZE` and `OVERRIDE`: 0 `FREE_RUN`, 1 `ACQUIRING`, 2 `LOCKED`, 3 `HOLDOVER`; the source
  it was last locked to (0: none since the last change of `SOURCE`). -/
  st : Nat := 0
  held : Nat := 0
  /-- Best announced data set by PTP port (R431): priority1, class, accuracy, variance, priority2, identity. -/
  masters : Tab (List Nat) := []
deriving DecidableEq, Repr

/-- The whole block. Register fields stand in `regs`, by `fieldKey`; what no register shows stands in
typed parts. -/
structure State where
  /-- Commands waiting, first in, first out. -/
  pending : List Instr := []
  /-- What the block has sent, newest first. -/
  out : List Out := []
  /-- The model's own counter of free values drawn; not the spec's. -/
  fresh : Nat := 0
  /-- Register fields that differ from their reset value (R11). -/
  regs : Tab Nat := []
  mem : Mem := {}
  cache : Cache := []
  torus : Torus := {}
  errs : Errs := {}
  /-- The operation active on a page (R79). -/
  ops : Tab (Option PageOp) := []
  /-- PROGRESS shadows by page * 256 + function, plus 1; 0: none (R78). -/
  shadows : Tab Nat := []
  tiles : Tab TileSt := []
  passes : List Pass := []
  nextPass : Nat := 0
  /-- Draught tags by context * 4096 + tag (R128). -/
  tags : Tab DraughtTag := []
  hbm : Hbm := {}
  xlate : Xlate := {}
  coh : Coherence := {}
  regul : Regul := {}
  ctxs : Tab CtxSt := []
  msix : Tab MsixEnt := []
  time : TimeSt := {}
  sites : Tab SiteSt := []
  heart : Heart := {}
  cores : CoresSt := {}
  plr : Plarus := {}
  kiln : Kiln := {}
  ember : Tab EmberSt := []
  host : HostSt := {}
  peats : Tab PeatSt := []
  power : Power := {}
deriving DecidableEq, Repr

/-- The machine right after reset. -/
def State.reset : State := {}

/-- No command of this block ends in a fault: every effect the spec describes is a next state. -/
inductive Fault where
  /-- Raised by nothing; kept so that the type is inhabited. Safe. -/
  | none
deriving DecidableEq, Repr

/-- Why a command has no meaning yet. -/
inductive Refusal where
  /-- A command whose meaning is not written: raised by the dispatch alone. Safe. -/
  | notModelled (mnemonic : String)
deriving DecidableEq, Repr

/-- What a command answers. -/
abbrev Res := Host.Outcome State Fault Refusal

end Sys2Proof.Machine
end

