-- ==== Sys2Proof/Machine/Ops.lean ====
section
/-! DEFINITION. The named operations over registers, pages and typed parts of the state. -/

namespace Sys2Proof.Machine

/-! Pages (R65, R71) -/

def pageTile (n : Nat) : Nat := 0x080 + n
def pageCtx (k : Nat) : Nat := 0x100 + k
def pageSite (s : Nat) : Nat := 0x018 + s
def pageHbm (s : Nat) : Nat := 0x020 + s
def pagePeat (p : Nat) : Nat := 0x010 + p
def pageCore (m : Nat) : Nat := 0x0C0 + m
def pagePort (p : Nat) : Nat := 0x040 + p
def pageKiln (e : Nat) : Nat := 0x008 + e

/-- The four pages of context k's context page (R71), numbered above the pages of BAR0: 0 control, 1
sealed-message window, 2 contract information, 3 scoped telemetry. -/
def pageWin (k j : Nat) : Nat := 0x400 + 4 * k + j

/-- The kind of a page (R65, R71); none for an unassigned page. -/
def pageKind (p : Nat) : Option PageKind :=
  if p = 0x000 then some .global_ else if p = 0x001 then some .resetPage else if p = 0x002 then some .clock
  else if p = 0x003 then some .power else if p = 0x004 then some .telemetry else if p = 0x005 then some .timebase
  else if p = 0x006 then some .regulator else if p = 0x007 then some .walker else if p < 0x00A then some .kiln
  else if p = 0x00A then some .ember else if p = 0x00B then some .mailbox else if p = 0x00C then some .lifeCycle
  else if p = 0x00D then some .debug else if p = 0x00E then some .hostPort else if p = 0x00F then some .plarus
  else if p < 0x014 then some .peat else if p < 0x018 then none else if p < 0x020 then some .site
  else if p < 0x02C then some .hbm else if p < 0x040 then none else if p < 0x070 then some .plarusPort
  else if p < 0x080 then none else if p < 0x0C0 then some .tile else if p < 0x0C8 then some .core
  else if p < 0x100 then none else if p < 0x140 then some .owner else if p < 0x400 then none
  else if p < 0x500 then
    some (if p % 4 = 0 then .tenant else if p % 4 = 1 then .window else if p % 4 = 2 then .info else .scoped)
  else none

/-- A page of BAR0 that R65 assigns. -/
def assigned (p : Nat) : Bool := decide (p < 0x400) && (pageKind p).isSome

/-- `PAGE_ID.TYPE` (R65). -/
def pageType : PageKind → Nat
  | .global_ => 0x01 | .resetPage => 0x02 | .clock => 0x03 | .power => 0x04 | .telemetry => 0x05
  | .timebase => 0x06 | .regulator => 0x07 | .walker => 0x08 | .kiln => 0x09 | .ember => 0x0A
  | .mailbox => 0x0B | .lifeCycle => 0x0C | .debug => 0x0D | .hostPort => 0x0E | .plarus => 0x0F
  | .peat => 0x10 | .site => 0x11 | .hbm => 0x12 | .plarusPort => 0x13 | .tile => 0x14 | .core => 0x15
  | .owner => 0x16 | _ => 0

/-- The first page of a kind: `PAGE_ID.INSTANCE` counts from it (R65). -/
def kindBase : PageKind → Nat
  | .kiln => 0x008 | .peat => 0x010 | .site => 0x018 | .hbm => 0x020 | .plarusPort => 0x040
  | .tile => 0x080 | .core => 0x0C0 | .owner => 0x100 | _ => 0

def pageInstance (p : Nat) (k : PageKind) : Nat :=
  match k with
  | .kiln | .peat | .site | .hbm | .plarusPort | .tile | .core | .owner => p - kindBase k
  | _ => 0

/-- Pages that a context can hold (R65). -/
def bindable : PageKind → Bool
  | .site | .tile | .owner => true
  | _ => false

/-- `PAGE_CAP.HAS_OPS`, as each block's chapter gives it. -/
def hasOps : PageKind → Bool
  | .tile | .hbm | .kiln | .site | .peat | .plarus | .plarusPort | .owner | .core => true
  | _ => false

/-- `PAGE_CAP.SEALED_MASKS`: pages with registers their chapters mark as masked when sealed. -/
def sealedMasks : PageKind → Bool
  | .tile | .owner => true
  | _ => false

/-- `PAGE_CAP.IRQ_SOURCES`, as each block's chapter gives it. -/
def irqSources : PageKind → Nat
  | .telemetry => 3 | .tile => 3 | .hbm => 5 | .walker => 2 | .regulator => 2 | .kiln => 2 | .site => 4
  | .hostPort => 4 | .peat => 5 | .plarus => 2 | .plarusPort => 2 | .timebase => 3 | .mailbox => 1
  | .lifeCycle => 1 | .debug => 1 | .resetPage => 1 | .clock => 1 | .power => 2 | .core => 2 | .ember => 2
  | _ => 0

/-- Reset values that depend on the page: the common header's identity fields (R65, R73), and context
0x00, which is always RUNNING and BOUND (R80, R295). -/
def resetOf (p : Nat) (f : Field) : Nat :=
  if f = Reg.CTX_STATUS_STATE ∧ p = 0x100 then 2
  else if 0x500 ≤ p ∨ 0x100 ≤ f.off ∨ 0x400 ≤ p then f.reset
  else match pageKind p with
    | none => 0
    | some k =>
      if f = Reg.PAGE_ID_INDEX then p
      else if f = Reg.PAGE_ID_TYPE then pageType k
      else if f = Reg.PAGE_ID_INSTANCE then pageInstance p k
      else if f = Reg.PAGE_CAP_BINDABLE then b2n (bindable k)
      else if f = Reg.PAGE_CAP_HAS_OPS then b2n (hasOps k)
      else if f = Reg.PAGE_CAP_SEALED_MASKS then b2n (sealedMasks k)
      else if f = Reg.PAGE_CAP_IRQ_SOURCES then irqSources k
      else if f = Reg.BINDING_CTX then
        if k = .owner then p - 0x100 else if bindable k then 0xFF else 0
      else if f = Reg.BINDING_STATE ∧ p = 0x100 then 1
      else f.reset

/-- The key of a field of a page in `State.regs`. -/
def fieldKey (p : Nat) (f : Field) : Nat := (p * 0x10000 + f.off) * 64 + f.lo

/-- The value a register field holds. -/
def fld (s : State) (p : Nat) (f : Field) : Nat := Tab.get (resetOf p f) s.regs (fieldKey p f)

/-- The field holds something else than 0. -/
def flag (s : State) (p : Nat) (f : Field) : Bool := fld s p f != 0

/-- Sets a register field, cut to its width. -/
def setFld (p : Nat) (f : Field) (v : Nat) (s : State) : State :=
  { s with regs := Tab.put (resetOf p f) s.regs (fieldKey p f) (v % 2 ^ f.width) }

/-- Sets several fields of one page, in order. -/
def setFlds (p : Nat) (l : List (Field × Nat)) (s : State) : State :=
  l.foldl (fun s x => setFld p x.1 x.2 s) s

/-- Returns fields of one page to their reset values. -/
def resetFlds (p : Nat) (l : List Field) (s : State) : State :=
  { s with regs := l.foldl (fun r f => Tab.del r (fieldKey p f)) s.regs }

/-- Adds to a saturating count that no freeze holds. -/
def bump (p : Nat) (f : Field) (n : Nat) (s : State) : State :=
  setFld p f (min (fld s p f + n) (2 ^ f.width - 1)) s

/-- Adds to a block's saturating counter, which `PAGE_CTRL.COUNTER_FREEZE` holds (R73). -/
def count (p : Nat) (f : Field) (n : Nat) (s : State) : State :=
  if flag s p Reg.PAGE_CTRL_COUNTER_FREEZE then s else bump p f n s

/-- The block sends a message. -/
def emit (o : Out) (s : State) : State := { s with out := o :: s.out }

/-- The level a driven pin has before service (R512): the open-drain pins and `SPI_OWN_N` are high. -/
def pinRest (n : Nat) : Bool := decide (1 ≤ n) && decide (n ≤ 3)

/-- The level of a pin. -/
def pinLevel (s : State) (n : Nat) : Bool := Tab.get (pinRest n) s.power.pins n

/-- The hub drives a pin. -/
def setPin (n : Nat) (high : Bool) (s : State) : State :=
  emit (.pin n high) { s with power := { s.power with pins := Tab.put (pinRest n) s.power.pins n high } }

/-- A switched domain of R468 is on. -/
def domainOn (s : State) (d : Nat) : Bool := Tab.get false s.power.domains d

/-- Switches a domain (R469). -/
def setDomain (d : Nat) (on : Bool) (s : State) : State :=
  { s with power := { s.power with domains := Tab.put false s.power.domains d on } }

/-- Draws a free number: the next of the uninterpreted series. -/
def drawn (s : State) : Nat := Config.freeNat s.fresh

/-- Advances the counter of free values. -/
def drew (s : State) : State := { s with fresh := s.fresh + 1 }

/-- The `n` free bytes of the current draw. -/
def freeBytes (s : State) (n : Nat) : List Byte := (List.range n).map (Config.freeByte s.fresh)

/-- Timebase time in ns. -/
def nowNs (s : State) : Nat := s.time.sec * 1000000000 + s.time.ns

/-! The host port's configuration space (R378) -/

/-- Configuration dwords with a reset value other than 0: Device Control (Relaxed Ordering, No Snoop, reads of 512
bytes), the resizable BAR at 64 GiB, the correctable mask. -/
def cfgReset (key : Nat) : Nat :=
  if key % 4096 = 0x58 then 0x2810 else if key = 0x2A8 then 16 * 256 else if key = 0x114 then 0x2000 else 0

/-- What is stored of a configuration dword of a function. -/
def cfgDw (s : State) (fn off : Nat) : Nat := Tab.get (cfgReset (fn * 4096 + off)) s.host.cfg (fn * 4096 + off)

def setCfg (fn off v : Nat) (s : State) : State :=
  { s with host := { s.host with cfg := Tab.put (cfgReset (fn * 4096 + off)) s.host.cfg (fn * 4096 + off) v } }

/-- `VF Enable` and `NumVFs` (R377). -/
def vfEnable (s : State) : Bool := tst (cfgDw s 0 0x268) 0
def numVfs (s : State) : Nat := cfgDw s 0 0x270 % 65536

/-! Typed parts -/

def tile (s : State) (n : Nat) : TileSt := Tab.get {} s.tiles n
def setTile (n : Nat) (t : TileSt) (s : State) : State := { s with tiles := Tab.put {} s.tiles n t }
def modTile (n : Nat) (f : TileSt → TileSt) (s : State) : State := setTile n (f (tile s n)) s

def ctx (s : State) (k : Nat) : CtxSt := Tab.get {} s.ctxs k
def setCtx (k : Nat) (c : CtxSt) (s : State) : State := { s with ctxs := Tab.put {} s.ctxs k c }
def modCtx (k : Nat) (f : CtxSt → CtxSt) (s : State) : State := setCtx k (f (ctx s k)) s

/-- Context states (R321): 0 EMPTY, 1 BUILDING, 2 RUNNING, 3 PAUSED, 4 PARKED, 5 FAULTED, 6 ENDING. -/
def ctxState (s : State) (k : Nat) : Nat := fld s (pageCtx k) Reg.CTX_STATUS_STATE

/-- Moves a context to a state; `BINDING.STATE` of its page follows it (R80). Context 0x00 is always RUNNING. -/
def setCtxState (k v : Nat) (s : State) : State :=
  if k = 0 then s
  else setFlds (pageCtx k) [(Reg.CTX_STATUS_STATE, v),
    (Reg.BINDING_STATE, if v = 0 then 0 else if v < 5 then 1 else if v = 5 then 5 else 3)] s

/-- The context is in SEALED mode (R300). -/
def isSealed (s : State) (k : Nat) : Bool := flag s (pageCtx k) Reg.CTX_STATUS_SEALED

/-- Where a resource's page is bound (R80). -/
def bindCtx (s : State) (p : Nat) : Nat := fld s p Reg.BINDING_CTX
def bindState (s : State) (p : Nat) : Nat := fld s p Reg.BINDING_STATE

/-- Binds a page to a context: `BOUND`, with the context's mode. -/
def bindPage (p k : Nat) (s : State) : State :=
  setFlds p [(Reg.BINDING_CTX, k), (Reg.BINDING_STATE, 1), (Reg.BINDING_SEALED, b2n (isSealed s k))] s

/-- Puts a page into a binding state in which no context holds it. -/
def unbindPage (p st : Nat) (s : State) : State :=
  setFlds p [(Reg.BINDING_CTX, 0xFF), (Reg.BINDING_STATE, st), (Reg.BINDING_SEALED, 0)] s

/-- Pages of the tiles and sites that are bound to context k. -/
def boundTiles (s : State) (k : Nat) : List Nat :=
  (List.range 64).filter (fun n => bindState s (pageTile n) == 1 && bindCtx s (pageTile n) == k)

def boundSites (s : State) (k : Nat) : List Nat :=
  (List.range 8).filter (fun n => bindState s (pageSite n) == 1 && bindCtx s (pageSite n) == k)

/-- A pass by its ID. -/
def pass (s : State) (id : Nat) : Option Pass := s.passes.find? (fun p => p.id == id)

/-- Changes a pass. -/
def modPass (id : Nat) (f : Pass → Pass) (s : State) : State :=
  { s with passes := s.passes.map (fun p => if p.id = id then f p else p) }

/-- Executor n is tile n below 64, and class T guest on site n - 64 from there. -/
def execPage (x : Nat) : Nat := if x < 64 then pageTile x else pageSite (x - 64)

end Sys2Proof.Machine
end

