-- ==== Sys2Proof/Machine/Flags.lean ====
section
/-! DEFINITION. Status flags: interrupt status and conditions (R73, R74), error capture and records (R75,
R487 to R491), access errors, context messages (R384), and the progress of operations (R76 to R79). -/

namespace Sys2Proof.Machine

/-! Interrupts -/

/-- `IRQ_STATUS` as one word. -/
def irqWord (s : State) (p : Nat) : Nat :=
  fld s p Reg.IRQ_STATUS_BLOCK + 2 ^ 62 * fld s p Reg.IRQ_STATUS_OP_DONE + 2 ^ 63 * fld s p Reg.IRQ_STATUS_ERR

def setIrqWord (p w : Nat) (s : State) : State :=
  setFlds p [(Reg.IRQ_STATUS_BLOCK, w), (Reg.IRQ_STATUS_OP_DONE, bit w 62), (Reg.IRQ_STATUS_ERR, bit w 63)] s

/-- A page's interrupt condition (R74). -/
def irqCond (s : State) (p : Nat) : Bool :=
  (irqWord s p &&& fld s p Reg.IRQ_ENABLE) != 0 && flag s p Reg.PAGE_CTRL_IRQ_MASTER_EN

/-- The page sends `IRQ_RAISE` to the host port (R70). -/
def sendIrq (p : Nat) (s : State) : State := { s with errs := { s.errs with irqs := s.errs.irqs ++ [p] } }

/-- Makes a change and sends a message if it takes the page's condition from false to true (R74). -/
def watchIrq (p : Nat) (f : State → State) (s : State) : State :=
  let t := f s
  if !irqCond s p && irqCond t p then sendIrq p t else t

/-- Sets bits of `IRQ_STATUS`. -/
def raiseIrq (p mask : Nat) (s : State) : State :=
  watchIrq p (fun s => setIrqWord p (irqWord s p ||| mask) s) s

/-- Sets block interrupt source i. -/
def raiseSrc (p i : Nat) (s : State) : State := raiseIrq p (2 ^ i) s

/-- Sets a bit of `ERR_SUMMARY` that is an access error, and `IRQ_STATUS.ERR` (R75). -/
def accessErr (p : Nat) (f : Field) (s : State) : State := raiseIrq p (2 ^ 63) (setFld p f 1 s)

/-- Refuses on a page: `ERR_SUMMARY.OP_REFUSED` (R79). -/
def opRefused (p : Nat) (s : State) : State := accessErr p Reg.ERR_SUMMARY_OP_REFUSED s

/-! MSI-X (R384) -/

/-- Keys of `State.msix`: function * 512 + vector. -/
def msixKey (fn v : Nat) : Nat := fn * 512 + v

/-- MSIX_MESSAGE (R384): dropped while MSI-X is disabled for the function, held pending while the vector
or the function is masked, sent otherwise. -/
def sendMsix (fn v : Nat) (s : State) : State :=
  let ctl := cfgDw s fn 0xB0
  if !tst ctl 31 then s
  else
    let e := Tab.get {} s.msix (msixKey fn v)
    if e.masked || tst ctl 30 then { s with msix := Tab.put {} s.msix (msixKey fn v) { e with pending := true } }
    else emit (.msix fn v) s

/-- A message on one of context k's vectors: 0 completions, 1 translation, 2 events (R384). -/
def ctxMsg (k which : Nat) (s : State) : State :=
  if k = 0 then sendMsix 0 (320 + which) s else sendMsix k which s

/-! Errors -/

/-- `HUB_FAULT_N` asserts (R490): pin 2 goes low. -/
def hubFault (s : State) : State := setPin 2 false s

/-- Latches a DEVICE record in the always-on island, which keeps the newest eight (R490). -/
def latch (r : ErrRec) (s : State) : State :=
  { s with errs := { s.errs with latched := (r :: s.errs.latched).take 8 } }

/-- The word `ERR_FIRST_SRC` of a record. -/
def ErrRec.srcWord (r : ErrRec) : Nat :=
  r.page + r.ctx * 2 ^ 10 + r.sev * 2 ^ 18 + r.cls * 2 ^ 20 + r.seq * 2 ^ 32

/-- ERR_CAPTURE (R75): a block error updates `ERR_FIRST` or `OVERFLOW`, `COUNT`, `SEEN`, `IRQ_STATUS.ERR`. -/
def capture (r : ErrRec) (s : State) : State :=
  let p := r.page
  let s :=
    if flag s p Reg.ERR_SUMMARY_FIRST_VALID then setFld p Reg.ERR_SUMMARY_OVERFLOW 1 s
    else setFlds p [(Reg.ERR_FIRST_TIME_NS, r.timeNs), (Reg.ERR_FIRST_TIME_SEC, r.timeSec),
      (Reg.ERR_FIRST_SRC_PAGE, r.page), (Reg.ERR_FIRST_SRC_CTX, r.ctx), (Reg.ERR_FIRST_SRC_SEVERITY, r.sev),
      (Reg.ERR_FIRST_SRC_CLASS, r.cls), (Reg.ERR_FIRST_SRC_SEQ, r.seq), (Reg.ERR_FIRST_ADDR_ADDR, r.addr),
      (Reg.ERR_FIRST_ADDR_VIRT, b2n r.virt), (Reg.ERR_FIRST_ADDR_VALID, b2n r.addrValid),
      (Reg.ERR_FIRST_DETAIL, r.detail), (Reg.ERR_SUMMARY_FIRST_VALID, 1)] s
  let s := bump p Reg.ERR_SUMMARY_COUNT 1 s
  let s := setFld p Reg.ERR_SUMMARY_SEEN (fld s p Reg.ERR_SUMMARY_SEEN ||| 2 ^ r.sev) s
  raiseIrq p (2 ^ 63) s

/-- SEQ runs from 1 to 2^32 - 1 and wraps to 1 (R488). -/
def nextSeq (n : Nat) : Nat := if n = 2 ^ 32 - 1 then 1 else n + 1

/-- The corrected-record limit holds this error back (R488): less than 1 ms since the last record. -/
def heldBack (r : ErrRec) (s : State) : Bool :=
  let last := Tab.get 0 s.errs.lastCorrected (r.page * 4096 + r.cls)
  r.sev == 0 && last != 0 && decide (nowNs s + 1 < last + 1000000)

/-- The record as the block writes it: time, SEQ, epoch, and whether its context is SEALED now. -/
def stamp (r : ErrRec) (s : State) : ErrRec :=
  { r with timeNs := s.time.ns, timeSec := s.time.sec, frac := s.time.frac, seq := s.errs.seq,
           epoch := fld s 0x001 Reg.HUB_EPOCH, masked := decide (0 < r.ctx ∧ r.ctx < 0x40) && isSealed s r.ctx }

/-- A block error (R75, R487 to R490): held back, or captured on its source page and sent to the host
port as an `ERR_RECORD`; a DEVICE error also asserts `HUB_FAULT_N`, is latched and stops dispatch. -/
def raiseErr (r : ErrRec) (s : State) : State :=
  if heldBack r s then bump r.page Reg.ERR_SUMMARY_COUNT 1 s
  else
    let r := stamp r s
    let e := { s.errs with
      seq := nextSeq s.errs.seq, flight := s.errs.flight ++ [r]
      lastCorrected := if r.sev = 0 then Tab.put 0 s.errs.lastCorrected (r.page * 4096 + r.cls) (nowNs s + 1)
        else s.errs.lastCorrected
      dispatchStopped := s.errs.dispatchStopped || r.sev == 3 }
    let s := capture r { s with errs := e }
    let s := if 0 < r.ctx ∧ r.ctx < 0x40 then bump (pageWin r.ctx 3) Reg.CT_FAULTS_RECORDS 1 s else s
    if r.sev = 3 then hubFault (latch r s) else s

/-- The SEQ the next record takes: what `FAULT_INFO.SEQ` names when it faults a context. -/
def seqNow (s : State) : Nat := s.errs.seq

/-! Operations (R76 to R79) -/

/-- The operation active on a page, if any. -/
def pageOp (s : State) (p : Nat) : Option PageOp := Tab.get none s.ops p

def setPageOp (p : Nat) (o : Option PageOp) (s : State) : State := { s with ops := Tab.put none s.ops p o }

/-- Writes `PROGRESS` (R78). -/
def setProgress (p code percent position : Nat) (s : State) : State :=
  setFlds p [(Reg.PROGRESS_PERCENT, percent), (Reg.PROGRESS_VALID, 1), (Reg.PROGRESS_OPCODE, code),
    (Reg.PROGRESS_POSITION, position)] s

/-- An operation waits on its page: `RESULT` 0x1, `PROGRESS.OPCODE` in its queued form (R76, R79). -/
def opQueue (p op arg : Nat) (s : State) : State :=
  setFlds p [(Reg.OP_CONTROL_RESULT, 1), (Reg.PAGE_STATUS_OP_ACTIVE, 1)]
    (setProgress p (0x80 + op) 0 0 (setPageOp p (some ⟨op, arg, true⟩) s))

/-- An operation runs: `RESULT` 0x2. -/
def opRun (p op arg : Nat) (s : State) : State :=
  setFlds p [(Reg.OP_CONTROL_RESULT, 2), (Reg.PAGE_STATUS_OP_ACTIVE, 1)]
    (setProgress p op 0 0 (setPageOp p (some ⟨op, arg, false⟩) s))

/-- An operation moves on: neither figure decreases, and 100 is kept for its end (R78). -/
def opStep (p percent position : Nat) (s : State) : State :=
  setFlds p [(Reg.PROGRESS_PERCENT, max (fld s p Reg.PROGRESS_PERCENT) (min percent 99)),
    (Reg.PROGRESS_POSITION, max (fld s p Reg.PROGRESS_POSITION) position)] s

/-- An operation ends with a result: 0x3 passed, 0x4 failed (both at 100 %), 0x5 aborted (R77, R78). Every
end sets `IRQ_STATUS.OP_DONE` (R79). -/
def opEnd (p result : Nat) (s : State) : State :=
  let s := setPageOp p none s
  let s := setFlds p [(Reg.OP_CONTROL_RESULT, result), (Reg.PAGE_STATUS_OP_ACTIVE, 0)] s
  let s := if result = 5 then s else setFld p Reg.PROGRESS_PERCENT 100 s
  raiseIrq p (2 ^ 62) s

/-- What a `START` of R79's table comes to. -/
inductive StartFate where
  | refused | starts | queued | forced
deriving DecidableEq, Repr

/-- The table of R79 for a `START`: `needsFree` is whether the operation needs the resource free. -/
def startFate (s : State) (p : Nat) (needsFree force : Bool) : StartFate :=
  match pageOp s p with
  | some _ => .refused
  | none =>
    if !needsFree then .starts
    else if bindState s p = 0 then .starts
    else if bindState s p = 1 ∧ force then .forced
    else .queued

end Sys2Proof.Machine
end

