-- ==== Sys2Proof/Machine/Memory.lean ====
section
/-! DEFINITION. Physical addresses, memory, frame ownership, the hub cache as data, and the walk through
a context's page tables (R196 to R216, R252 to R257). -/

namespace Sys2Proof.Machine

/-! The physical address space (R196) -/

/-- First byte beyond HBM: 744 GiB. -/
def hbmEnd : Nat := 0xBA00000000
def isHbm (pa : Nat) : Bool := decide (pa < hbmEnd)
def isPeat (pa : Nat) : Bool := decide (2 ^ 48 ≤ pa) && decide (pa < 2 ^ 48 + 4 * 2 ^ 42)
def isHost (pa : Nat) : Bool := decide (2 ^ 51 ≤ pa) && decide (pa < 2 ^ 52)
/-- Peat port of an address in a peat window. -/
def peatPort (pa : Nat) : Nat := (pa - 2 ^ 48) >>> 42
/-- Frame number of an address (R196). -/
def frameOf (pa : Nat) : Nat := pa >>> 21
/-- Frames of HBM (R196), and of one peat window (R202). -/
def hbmFrames : Nat := 380928
def peatFrames : Nat := 2097152
/-- The frame numbers of R272: HBM frame F is F, frame f of peat port p is 380,928 + 2,097,152 p + f. -/
def frameIndex (f : Nat) : Nat := if f < hbmFrames then f else f - 2 ^ 27 + hbmFrames
def indexFrame (i : Nat) : Nat := if i < hbmFrames then i else i - hbmFrames + 2 ^ 27
/-- The frame lies in HBM or in a peat window. -/
def frameExists (f : Nat) : Bool := decide (f < hbmFrames) || (decide (2 ^ 27 ≤ f) && decide (f < 2 ^ 27 + 4 * peatFrames))

/-- The entry of a frame that nothing has changed: HBM frames are FREE; peat frames read GONE, there
being no capacity installed until a port trains (R202). -/
def frameDefault (f : Nat) : FrameEnt := if f < hbmFrames then {} else { state := .gone }

def frame (s : State) (f : Nat) : FrameEnt := Tab.get (frameDefault f) s.mem.frames f

def setFrame (f : Nat) (e : FrameEnt) (s : State) : State :=
  { s with mem := { s.mem with frames := Tab.put (frameDefault f) s.mem.frames f e } }

/-- The code of a frame's entry (R202). -/
def frameCode (e : FrameEnt) : Nat :=
  e.ctx + 256 * (match e.state with | .free => 0 | .owned => 1 | .ashing => 2 | .retired => 3 | .gone => 4)
    + 2048 * b2n e.bad + 4096 * b2n e.pinned

/-- R204: the requests that ownership allows. -/
def allowed (s : State) (c pa : Nat) : Bool :=
  let e := frame s (frameOf pa)
  if c = 0xFF then e.state == .ashing
  else e.state == .owned && e.ctx == c

/-! Bytes of memory -/

/-- What a byte that is not listed reads as: in a frame that has been ashed or wiped, a free byte
(R208); otherwise 0 (DESIGN CHOICE, log entry 6). Host memory is never wiped. -/
def Mem.unlisted (m : Mem) (a : Nat) : Byte :=
  let n := Tab.get 0 m.ashes (frameOf a)
  if m.wipes + n = 0 ∨ isHost a then 0 else Config.ashByte m.wipes n a

/-- The byte memory holds at an address. -/
def Mem.read (m : Mem) (a : Nat) : Byte := Tab.get (m.unlisted a) m.cells a

/-- An address whose unlisted reading is the plain 0. -/
def Mem.plain (m : Mem) (a : Nat) : Bool := (m.wipes + Tab.get 0 m.ashes (frameOf a) == 0) || isHost a

/-- Writes one byte, keeping the canonical form. -/
def Mem.write (m : Mem) (a : Nat) (b : Byte) : Mem :=
  { m with cells := if b = 0 ∧ m.plain a then Tab.del m.cells a else Tab.ins m.cells a b }

/-- The canonical form: addresses rise strictly, and no listed byte equals a plain unlisted one. -/
def Mem.wf (m : Mem) : Bool := Tab.wf m.cells && m.cells.all (fun c => c.2 != 0 || !m.plain c.1)

/-- Writes bytes from an address up, those whose enable is 0 left alone (no enables: all written). -/
def Mem.writes (m : Mem) (a : Nat) : List Byte → List Bool → Mem
  | [], _ => m
  | b :: t, [] => Mem.writes (m.write a b) (a + 1) t []
  | b :: t, e :: es => Mem.writes (if e then m.write a b else m) (a + 1) t es

/-- Drops every listed byte of a frame and counts an ash of it (R208). -/
def Mem.ashFrame (m : Mem) (f : Nat) : Mem :=
  { m with
    cells := m.cells.filter (fun c => frameOf c.1 != f)
    ashes := Tab.put 0 m.ashes f (Tab.get 0 m.ashes f + 1)
    badSectors := m.badSectors.filter (fun x => x >>> 16 != f) }

/-- Wipes all memory of the part (R315): host memory keeps its bytes; every mark of a frame goes. -/
def Mem.wipe (m : Mem) : Mem :=
  { m with cells := m.cells.filter (fun c => isHost c.1), wipes := m.wipes + 1, ashes := [], badSectors := [],
           frames := [] }

/-- The number of the 32-byte sector of an address. -/
def sectorOf (pa : Nat) : Nat := pa / 32

def isBad (s : State) (pa : Nat) : Bool := s.mem.badSectors.contains (sectorOf pa)

/-- R210: marks a sector bad and sets BAD in its frame's entry. -/
def markBad (pa : Nat) (s : State) : State :=
  let f := frameOf pa
  setFrame f { frame s f with bad := true }
    { s with mem := { s.mem with badSectors := addNew s.mem.badSectors (sectorOf pa) } }

/-- A full-sector write clears the sector's mark (R210). -/
def clearBad (pa : Nat) (s : State) : State :=
  { s with mem := { s.mem with badSectors := s.mem.badSectors.filter (· != sectorOf pa) } }

def setMem (m : Mem) (s : State) : State := { s with mem := m }

/-! The hub cache (R201, R212) -/

/-- Home slice of a physical address (R201). -/
def sliceOf (pa : Nat) : Nat :=
  let g := pa >>> 8
  (bits g 5 0) ^^^ (bits g 11 6) ^^^ (bits g 17 12) ^^^ (bits g 23 18) ^^^ (bits g 29 24) ^^^ (bits g 35 30)
    ^^^ (bits g 41 36) ^^^ (bits g 43 42)

/-- Set of a physical address in its slice (R201). -/
def setOf (pa : Nat) : Nat := bits pa 23 14 * 2 + bit pa 7

/-- Key of a set in `State.cache`. -/
def cacheKey (pa : Nat) : Nat := sliceOf pa * 2048 + setOf pa

def lineBase (pa : Nat) : Nat := pa / 128 * 128

def linesOf (s : State) (pa : Nat) : List Line := Tab.get [] s.cache (cacheKey pa)

def findLine (s : State) (pa : Nat) : Option Line := (linesOf s pa).find? (fun l => l.pa == lineBase pa)

def setLines (pa : Nat) (l : List Line) (s : State) : State := { s with cache := Tab.put [] s.cache (cacheKey pa) l }

/-- Replaces the line of an address where it stands. -/
def putLine (l : Line) (s : State) : State :=
  setLines l.pa ((linesOf s l.pa).map (fun x => if x.pa = l.pa then l else x)) s

/-- Removes the line of an address from its set. -/
def dropLine (pa : Nat) (s : State) : State := setLines pa ((linesOf s pa).filter (fun x => x.pa != lineBase pa)) s

/-- Sector of an address within its line, 0 to 3. -/
def sectorIn (pa : Nat) : Nat := pa % 128 / 32

/-- Writes bytes into a list of bytes at an offset, where enabled. -/
def patch (old : List Byte) (o : Nat) (new : List Byte) (en : List Bool) : List Byte :=
  (List.range old.length).map (fun i =>
    if o ≤ i ∧ i < o + new.length ∧ (en.drop (i - o)).headD true then (new.drop (i - o)).headD 0
    else (old.drop i).headD 0)

/-- Agent line key (R242). -/
def agKey (agent pa : Nat) : Nat := agent * 2 ^ 46 + pa / 128

def agLine (s : State) (a pa : Nat) : AgLine := Tab.get {} s.coh.agents (agKey a pa)

def setAgLine (a pa : Nat) (l : AgLine) (s : State) : State :=
  { s with coh := { s.coh with agents := Tab.put {} s.coh.agents (agKey a pa) l } }

/-- The agent that holds a line modified, among those its directory vector lists. -/
def dirtyAgent (s : State) (l : Line) : Option Nat :=
  (setBits l.dir 40).find? (fun a => (agLine s a l.pa).state == .m || (agLine s a l.pa).state == .miA)

/-- Merges the dirty sectors of a line of bytes into a home line. -/
def mergeLine (l : Line) (data : List Byte) (mask : Nat) : Line :=
  { l with
    data := (List.range 128).map (fun i => if tst mask (i / 32) then (data.drop i).headD 0 else (l.data.drop i).headD 0)
    valid := l.valid ||| mask, dirty := l.dirty ||| mask }

/-- The byte the whole block sees at a physical address: of an owner's dirty sector, of a valid sector
of the cache, else of memory (R203, R248). -/
def byteAt (s : State) (pa : Nat) : Byte :=
  if isHbm pa then
    match findLine s pa with
    | none => s.mem.read pa
    | some l =>
      let sec := sectorIn pa
      match dirtyAgent s l with
      | some a =>
        let g := agLine s a pa
        if tst g.dirty sec then (g.data.drop (pa % 128)).headD 0
        else if tst l.valid sec then (l.data.drop (pa % 128)).headD 0 else s.mem.read pa
      | none => if tst l.valid sec then (l.data.drop (pa % 128)).headD 0 else s.mem.read pa
  else s.mem.read pa

/-- `n` bytes as the block sees them. -/
def bytesAt (s : State) (pa n : Nat) : List Byte := (List.range n).map (fun i => byteAt s (pa + i))

/-- Takes a line back from its agents before an invalidating write (R248): the owner's dirty sectors are
merged, every listed copy becomes I. -/
def recallLine (l : Line) (s : State) : State :=
  let l' := match dirtyAgent s l with
    | some a => mergeLine l (agLine s a l.pa).data (agLine s a l.pa).dirty
    | none => l
  let s := (setBits l.dir 40).foldl (fun s a => setAgLine a l.pa {} s) s
  putLine { l' with dir := 0 } s

/-- Writes one byte as an invalidating write reaches its home: into a valid cached sector, else into
memory. A write clears the DISCARD mark of its sector (R215). -/
def writeByte (pa : Nat) (b : Byte) (s : State) : State :=
  match if isHbm pa then findLine s pa else none with
  | none => setMem (s.mem.write pa b) s
  | some l =>
    let s := if l.dir = 0 then s else recallLine l s
    match findLine s pa with
    | none => setMem (s.mem.write pa b) s
    | some l =>
      let sec := sectorIn pa
      if tst l.valid sec then
        putLine { l with data := patch l.data (pa % 128) [b] [], dirty := setBit l.dirty sec,
                         discard := clrBit l.discard sec } s
      else setMem (s.mem.write pa b) s

/-- Writes bytes from an address up. -/
def writeBytes (pa : Nat) : List Byte → State → State
  | [], s => s
  | b :: t, s => writeBytes (pa + 1) t (writeByte pa b s)

/-! Spread regions and channels (R197 to R200) -/

/-- A spread region in force (R198): its stacks, GiB per stack, first address, and first channel-local
granule on a given stack. -/
structure Region where
  index : Nat
  stackSet : List Nat
  gib : Nat
  base : Nat
deriving DecidableEq, Repr

/-- The regions in force: region 0 over all twelve stacks, and those of 1 to 7 that are present. -/
def regions (s : State) : List Region :=
  { index := 0, stackSet := List.range 12, gib := fld s 0 Reg.MEM_SPREAD_STATUS_REGION0_GIB, base := 0 } ::
  (List.range 7).filterMap (fun i =>
    let st := fld s 0 (Reg.MEM_SPREAD_ACTIVE_STACKS.at 8 (i + 1))
    if st = 0 then none
    else some { index := i + 1, stackSet := setBits st 12, gib := fld s 0 (Reg.MEM_SPREAD_ACTIVE_GIB.at 8 (i + 1)),
                base := fld s 0 (Reg.MEM_SPREAD_ACTIVE_BASE_FRAME.at 8 (i + 1)) * 2 ^ 21 })

/-- Bytes of a region. -/
def Region.bytes (r : Region) : Nat := r.gib * r.stackSet.length * 2 ^ 30

/-- The region that holds an HBM address. -/
def regionOf (s : State) (pa : Nat) : Option Region :=
  (regions s).find? (fun r => r.base ≤ pa && decide (pa < r.base + r.bytes))

/-- Channels of a region by list position (R200). -/
def Region.channel (r : Region) (i : Nat) : Nat := 32 * (r.stackSet.drop (i / 32)).headD 0 + i % 32

/-- First channel-local granule of a region on a stack (R198): after every lower-numbered region that
includes the stack. -/
def regionOffset (s : State) (r : Region) (stack : Nat) : Nat :=
  ((regions s).filter (fun x => decide (x.index < r.index) && x.stackSet.contains stack)).foldl
    (fun n x => n + x.gib * 2 ^ 17) 0

/-- The hash of R200: device channel, pseudo-channel and channel-local granule of an HBM address. -/
def placeOf (s : State) (pa : Nat) : Option (Nat × Nat × Nat) :=
  match regionOf s pa with
  | none => none
  | some r =>
    let g := (pa - r.base) >>> 8
    let c := 32 * r.stackSet.length
    let q := g / c
    let f := bits q 8 0 ^^^ bits q 17 9 ^^^ bits q 26 18
    let ch := r.channel ((g % c + f) % c)
    some (ch, 2 * ch + q % 2, regionOffset s r (ch / 32) + q)

def channel (s : State) (c : Nat) : Channel := Tab.get {} s.hbm.channels c
def setChannel (c : Nat) (x : Channel) (s : State) : State :=
  { s with hbm := { s.hbm with channels := Tab.put {} s.hbm.channels c x } }
def stack (s : State) (n : Nat) : StackSt := Tab.get {} s.hbm.stackSet n
def setStack (n : Nat) (x : StackSt) (s : State) : State :=
  { s with hbm := { s.hbm with stackSet := Tab.put {} s.hbm.stackSet n x } }

/-- An access to the address is answered DATA_ERROR whatever its sector holds: its stack is fenced by
temperature (R221), or its channel is fenced (R227). -/
def unreachable (s : State) (pa : Nat) : Bool :=
  match placeOf s pa with
  | none => false
  | some (ch, _) => (channel s ch).fenced || (stack s (ch / 32)).fenced

/-! Translation (R252 to R256) -/

/-- Why an access of an engine does not complete. -/
inductive AccErr where
  /-- A translation fault: code, level, entry, and the faulting page (R261 to R263). -/
  | xlate (code level entry page : Nat)
  /-- An ownership violation at a physical address (R205). -/
  | owner (pa : Nat)
  /-- An uncorrectable sector (R210). -/
  | data (pa : Nat)
  /-- The page lies in a held range: the access waits without a fault (R270). -/
  | held
  /-- Caching agents hold the line at a physical address: its home takes their copies back, or lowers the owner's, before
  it serves the access (R248). -/
  | agents (pa : Nat) (inv : Bool)
deriving DecidableEq, Repr

/-- A leaf found by a walk: its physical base for the span of its own entry, the entry's address and
value, and the size of one translation (R255): 0 64 KiB, 1 2 MiB, 2 512 MiB. -/
structure Leaf where
  pa : Nat
  size : Nat
  entryPa : Nat
  entry : Nat
  mismatch : Bool := false
deriving DecidableEq, Repr

/-- Reads one table entry at its home under the context's ownership (R256). -/
def tableEntry (s : State) (c pa : Nat) : Except AccErr Nat :=
  if !allowed s c pa then .error (.owner pa)
  else if isBad s pa ∨ (isHbm pa ∧ unreachable s pa) then .error (.data pa)
  else .ok (ofBytes (bytesAt s pa 8))

/-- A reserved bit of a table entry is set (R253). -/
def entryReserved (e : Nat) : Bool := bits e 15 9 != 0

def entryFrame (e : Nat) : Nat := bits e 51 16 * 65536

/-- The four conditions of R255 on the aligned group of 32 entries. -/
def contiguous (s : State) (c groupPa : Nat) : Bool :=
  match tableEntry s c groupPa with
  | .error _ => false
  | .ok e0 =>
    bits e0 51 16 % 32 == 0 &&
    (List.range 32).all (fun j =>
      match tableEntry s c (groupPa + 8 * j) with
      | .error _ => false
      | .ok e => tst e 0 && tst e 5 && bits e 4 1 == bits e0 4 1 && bits e 51 16 == bits e0 51 16 + j)

/-- The walk of R254, permissions apart: the leaf that maps a virtual address in context c. -/
def walkLeaf (s : State) (c va : Nat) : Except AccErr Leaf :=
  let page := va / 65536 * 65536
  let w := pageWin c 0
  if !flag s w Reg.XLATE_ROOT_VALID then .error (.xlate 5 0 0 page)
  else
    let t0 := fld s w Reg.XLATE_ROOT_TABLE * 65536
    match tableEntry s c (t0 + 8 * bits va 54 42) with
    | .error e => .error e
    | .ok e0 =>
      if !tst e0 0 then .error (.xlate 1 0 e0 page)
      else if entryReserved e0 || tst e0 8 then .error (.xlate 4 0 e0 page)
      else
        let a1 := entryFrame e0 + 8 * bits va 41 29
        match tableEntry s c a1 with
        | .error e => .error e
        | .ok e1 =>
          if !tst e1 0 then .error (.xlate 1 1 e1 page)
          else if entryReserved e1 then .error (.xlate 4 1 e1 page)
          else if tst e1 8 then
            if bits e1 28 16 != 0 then .error (.xlate 4 1 e1 page)
            else .ok { pa := entryFrame e1, size := 2, entryPa := a1, entry := e1 }
          else
            let i := bits va 28 16
            let a2 := entryFrame e1 + 8 * i
            match tableEntry s c a2 with
            | .error e => .error e
            | .ok e2 =>
              if !tst e2 0 then .error (.xlate 1 2 e2 page)
              else if entryReserved e2 || tst e2 8 then .error (.xlate 4 2 e2 page)
              else
                let cg := tst e2 5 && contiguous s c (entryFrame e1 + 256 * (i / 32))
                .ok { pa := entryFrame e2, size := if cg then 1 else 0, entryPa := a2, entry := e2,
                      mismatch := tst e2 5 && !cg }

/-- Level of a leaf's entry. -/
def Leaf.level (l : Leaf) : Nat := if l.size = 2 then 1 else 2

/-- The physical address a leaf gives a virtual one. -/
def Leaf.addr (l : Leaf) (va : Nat) : Nat := l.pa + (if l.size = 2 then va % 2 ^ 29 else va % 65536)

/-- The walk with the leaf's permissions (R254): access 0 read, 1 write, 2 add. -/
def walk (s : State) (c va access : Nat) : Except AccErr Leaf :=
  match walkLeaf s c va with
  | .error e => .error e
  | .ok l =>
    let page := va / 65536 * 65536
    if access ≠ 1 ∧ !tst l.entry 1 then .error (.xlate 2 l.level l.entry page)
    else if access ≠ 0 ∧ !tst l.entry 2 then .error (.xlate 3 l.level l.entry page)
    else .ok l

/-- Bytes a translation of a size spans. -/
def sizeBytes (n : Nat) : Nat := if n = 0 then 2 ^ 16 else if n = 1 then 2 ^ 21 else 2 ^ 29

/-- A holder's entry translates an address of a context. -/
def covers (k va : Nat) (e : TlbEnt) : Bool := e.ctx == k && decide (e.va ≤ va) && decide (va < e.va + sizeBytes e.size)

/-- A holder's entry allows an access: 0 read, 1 write, 2 add. -/
def TlbEnt.allows (e : TlbEnt) (access : Nat) : Bool := (access == 1 || e.read) && (access == 0 || e.write)

/-- The bit of an address's page in an entry's `dirty`. -/
def TlbEnt.page (e : TlbEnt) (va : Nat) : Nat := if e.size = 1 then va % 2 ^ 21 / 65536 else 0

/-- The entry by which holder h translates an access (R258): the most recent one that covers it and allows it. -/
def holderEntry (s : State) (h c va access : Nat) : Option TlbEnt :=
  (Tab.get [] s.xlate.holders h).find? (fun e => covers c va e && e.allows access)

/-- A page lies in a range held by the placement or ember engine (R270). -/
def heldPage (s : State) (k va : Nat) : Bool :=
  s.xlate.heldRanges.any (fun r => r.1 == k && decide (r.2.1 ≤ va / 65536) && decide (va / 65536 < r.2.1 + r.2.2))

/-- Holders whose accesses can wait to be made again: tiles, site adapters, the dispatcher and the kiln engines. They wait
at a held range and for the copies of caching agents; the accesses of the other engines are made at once (log entries 14
and 15). -/
def waits (h : Nat) : Bool := decide (h < 72) || h == 80 || h == 82 || h == 83

/-- The first line of the hub cache in the parts of an access whose copies at caching agents it must wait for: an owner's for
a read, any for a write (R248). -/
def agentCopy (s : State) (h : Nat) (write : Bool) (parts : List (Nat × Nat)) : Option Nat :=
  if !waits h then none
  else (s.cache.flatMap (fun e => e.2)).findSome? (fun l =>
    if l.dir != 0 && (write || l.excl) && parts.any (fun p => decide (l.pa < p.1 + p.2) && decide (p.1 < l.pa + 128)) then some l.pa
    else none)

/-- A virtual address as holder h translates it, where ownership lets the context reach it; host memory has no owner (R256).
An entry that the holder keeps is used even where the tables have changed since, until an invalidate drops it (R267, R269);
a write to a page that is not yet dirty asks the walker pool for `DIRTY` first (R257, R259). Without an entry the tables are
walked. The walker pool itself, as holder 87, keeps no entries. -/
def xlate (s : State) (h c va access : Nat) : Except AccErr Nat :=
  let reach (pa : Nat) : Except AccErr Nat := if isHost pa ∨ allowed s c pa then .ok pa else .error (.owner pa)
  let walked : Except AccErr Leaf := if waits h && heldPage s c va then .error .held else walk s c va access
  match holderEntry s h c va access with
  | some e =>
    let pa := e.pa + (va - e.va)
    if access = 0 ∨ tst e.dirty (e.page va) then reach pa
    else match walked with
      | .error x => .error x
      | .ok _ => reach pa
  | none =>
    match walked with
    | .error x => .error x
    | .ok l => reach (l.addr va)

/-- The parts of `n` bytes from `va` that lie in one 64 KiB page each: address and length. -/
def pageParts (va n : Nat) : List (Nat × Nat) :=
  if n = 0 then []
  else (List.range ((va + n - 1) / 65536 - va / 65536 + 1)).map (fun i =>
    let a := if i = 0 then va else (va / 65536 + i) * 65536
    (a, min (va + n) ((va / 65536 + i + 1) * 65536) - a))

/-- Translates every page of an access unit before any request of it (R260): the parts with their
physical addresses, or the first page that fails in ascending order. -/
def unitPas (s : State) (h c access : Nat) : List (Nat × Nat) → Except AccErr (List (Nat × Nat))
  | [] => .ok []
  | (a, n) :: t =>
    match xlate s h c a access with
    | .error e => .error e
    | .ok pa =>
      match unitPas s h c access t with
      | .error e => .error e
      | .ok l => .ok ((pa, n) :: l)

/-! Host memory as the engines reach it (R386, R387, R393) -/

def hostPage : Nat := 0x00E

/-- `Bus Master Enable` of a function. -/
def busMaster (s : State) (fn : Nat) : Bool := tst (cfgDw s fn 0x04) 2

/-- Stream 0 is the link stream, 1 + i the selective stream i. -/
def streamSecure (s : State) (i : Nat) : Bool :=
  if i = 0 then flag s hostPage Reg.HOST_IDE_LINK_SECURE else tst (fld s hostPage Reg.HOST_IDE_SEL) (i - 1)

/-- The selective stream's routing-ID association covers a function: base and limit of its two registers. -/
def streamCovers (s : State) (i fn : Nat) : Bool :=
  let lim := cfgDw s 0 (0x414 + 20 * i + 12)
  let base := cfgDw s 0 (0x414 + 20 * i + 16)
  let rid := s.host.bus * 256 + fn
  tst base 0 && decide (bits base 23 8 ≤ rid) && decide (rid ≤ bits lim 23 8)

/-- The stream an outbound request of a function travels on: 0 in clear, 1 the link stream, 2 + i selective stream i. -/
def outStream (s : State) (fn : Nat) : Nat :=
  match (List.range 64).find? (fun i => streamSecure s (i + 1) && streamCovers s i fn) with
  | some i => 2 + i
  | none => if streamSecure s 0 then 1 else 0

/-- The parts of a byte range that lie in one granule each. -/
def granuleParts (pa n : Nat) : List (Nat × Nat) :=
  if n = 0 then []
  else (List.range ((pa + n - 1) / 256 - pa / 256 + 1)).map (fun i =>
    let a := if i = 0 then pa else (pa / 256 + i) * 256
    (a, min (pa + n) ((pa / 256 + i + 1) * 256) - a))

/-- Host bus address of a hub physical address (R386). -/
def busAddr (pa : Nat) : Nat := pa - 2 ^ 51

/-- A write leaves for the host, split at the negotiated Max Payload Size; host memory takes it. -/
def hostWrite (fn pa : Nat) (data : List Byte) (en : List Bool) (s : State) : State :=
  let mps := 128 * 2 ^ min 2 (bits (cfgDw s fn 0x58) 7 5)
  let st := outStream s fn
  let s := (List.range (ceilDiv data.length mps)).foldl (fun s i =>
    let d := (data.drop (i * mps)).take mps
    emit (.hostReq fn st 0 true (busAddr pa + i * mps) d ((en.drop (i * mps)).take mps) d.length) s) s
  setMem (s.mem.writes pa data en) s

/-- The host port would send nothing for a context's access to one of these parts: bus mastering is off, or the request
would travel in clear where that is refused (R386, R393). -/
def hostBlocked (s : State) (c : Nat) (parts : List (Nat × Nat)) : Option Nat :=
  if !busMaster s c || (flag s hostPage Reg.HOST_IDE_REQUIRE && outStream s c == 0) then
    (parts.find? (fun p => isHost p.1)).map (fun p => p.1)
  else none

/-- The first bad or unreachable sector among parts. -/
def firstBad (s : State) (parts : List (Nat × Nat)) : Option Nat :=
  match parts.findSome? (fun p => (List.range (ceilDiv p.2 256 + 1)).findSome? (fun i =>
      let a := if i = 0 then p.1 else p.1 / 256 * 256 + 256 * i
      if decide (a < p.1 + p.2) && isHbm a && unreachable s a then some a else none)) with
  | some a => some a
  | none => s.mem.badSectors.findSome? (fun x =>
    if parts.any (fun p => p.1 / 32 ≤ x && x ≤ (p.1 + p.2 - 1) / 32) then some (x * 32) else none)

/-- Reads `n` bytes of a context's virtual space, as holder h. -/
def vread (s : State) (h c va n : Nat) : Except AccErr (List Byte) :=
  match unitPas s h c 0 (pageParts va n) with
  | .error e => .error e
  | .ok l =>
    match (hostBlocked s c l).or (firstBad s l), agentCopy s h false l with
    | some pa, _ => .error (.data pa)
    | none, some pa => .error (.agents pa false)
    | none, none => .ok (l.map (fun p => bytesAt s p.1 p.2)).flatten

/-- A write that does not complete: the first part at an unreachable address, or a bad sector that the parts cover in
part only (R210, R221, R227). -/
def writeBad (s : State) (parts : List (Nat × Nat)) : Option Nat :=
  match firstBad { s with mem := { s.mem with badSectors := [] } } parts with
  | some a => some a
  | none => s.mem.badSectors.findSome? (fun x =>
    if parts.any (fun p => p.1 / 32 ≤ x && x ≤ (p.1 + p.2 - 1) / 32 &&
        !(decide (p.1 ≤ 32 * x) && decide (32 * x + 32 ≤ p.1 + p.2))) then some (x * 32) else none)

/-- Full-sector writes clear the marks of the sectors they cover (R210). -/
def clearCovered (p : Nat × Nat) (s : State) : State :=
  if s.mem.badSectors.isEmpty then s
  else { s with mem := { s.mem with badSectors := s.mem.badSectors.filter (fun x =>
    !(decide (p.1 ≤ 32 * x) && decide (32 * x + 32 ≤ p.1 + p.2))) } }

/-- Writes parts for a context, one after the other; those in host memory leave through the host port. -/
def writeParts (c : Nat) : List (Nat × Nat) → List Byte → State → State
  | [], _, s => s
  | (pa, n) :: t, d, s =>
    writeParts c t (d.drop n)
      (if isHost pa then (granuleParts pa n).foldl (fun s g => hostWrite c g.1 ((d.drop (g.1 - pa)).take g.2) [] s) s
       else writeBytes pa (d.take n) (clearCovered (pa, n) s))

/-- The parts of a write of `n` bytes, translated and checked. -/
def writePas (s : State) (h c va n : Nat) : Except AccErr (List (Nat × Nat)) :=
  match unitPas s h c 1 (pageParts va n) with
  | .error e => .error e
  | .ok l =>
    match (hostBlocked s c l).or (writeBad s l), agentCopy s h true l with
    | some pa, _ => .error (.data pa)
    | none, some pa => .error (.agents pa true)
    | none, none => .ok l

/-- Writes bytes into a context's virtual space, as holder h. -/
def vwrite (h c va : Nat) (data : List Byte) (s : State) : Except AccErr State :=
  match writePas s h c va data.length with
  | .error e => .error e
  | .ok l => .ok (writeParts c l data s)

/-! The marks of leaves (R257) -/

/-- Writes a table entry at its home. -/
def setEntry (pa e : Nat) (s : State) : State := writeBytes pa (leBytes 8 e) s

/-- The address of the first entry of a leaf's group, or the leaf's own. -/
def groupPa (l : Leaf) : Nat := if l.size = 1 then l.entryPa / 256 * 256 else l.entryPa

/-- Sets ACCESSED in the leaf's entry, or its group's first (R257). -/
def markAccessed (l : Leaf) (s : State) : State :=
  let e := ofBytes (bytesAt s (groupPa l) 8)
  if tst e 6 then s else setEntry (groupPa l) (setBit e 6) s

/-- Sets DIRTY in one page's entry. -/
def markDirty (pa : Nat) (s : State) : State :=
  let e := ofBytes (bytesAt s pa 8)
  if tst e 7 then s else setEntry pa (setBit e 7) s

/-- An access of the walker pool itself to a range that translates marks its pages. -/
def markRange (k va n : Nat) (s : State) : State :=
  (pageParts va n).foldl (fun s p => match walk s k p.1 1 with
    | .ok l => markDirty l.entryPa (markAccessed l s)
    | .error _ => s) s

end Sys2Proof.Machine
end

