-- ==== Sys2Proof/Machine/Containment.lean ====
section
/-! DEFINITION. Containment: faulting a context (R298, R521), ownership violations (R205), uncorrectable
data (R210), translation faults and their records (R261, R262), and messages through the sealed window
(R303 to R306). -/

namespace Sys2Proof.Machine

/-! The sealed-message window -/

/-- Queues a hub message for the tenant of context k; the first in the queue stands in `OUT_BUF`, and its
arrival there is signalled (R303). -/
def winPut (k : Nat) (m : WinMsg) (s : State) : State :=
  let c := ctx s k
  let s := setCtx k { c with outQ := c.outQ ++ [m] } s
  if c.outQ.isEmpty then
    ctxMsg k (if m.type = 0x24 ∨ m.type = 0x25 then 1 else 2) (emit (.window k m) s)
  else s

/-- Sends an encrypted message of the current session, if one exists; SEQ counts the hub's own series (R304). -/
def winSend (k type : Nat) (body : List Byte) (s : State) : State :=
  let c := ctx s k
  if c.session = 0 then s
  else
    winPut k { type := type, body := body, seq := c.outSeq + 1, session := c.session, keys := c.keys }
      (setCtx k { c with outSeq := c.outSeq + 1 } s)

/-- WINDOW_ERROR (R306): code, reason, the type and SEQ refused. -/
def winError (k code reason type seq : Nat) (s : State) : State :=
  winSend k 0x06 (leBytes 12 (code + reason * 2 ^ 8 + type * 2 ^ 16 + seq * 2 ^ 32)) s

/-! Faulting a context -/

/-- Outstanding translation faults of a context are discarded and the units stalled on them cancelled (R265). -/
def discardFaults (k : Nat) (s : State) : State :=
  let x := s.xlate
  let s := { s with xlate := { x with faults := x.faults.filter (fun f => f.ctx != k),
                                       unrecorded := x.unrecorded.filter (fun u => u.1 != k) } }
  setFlds (pageWin k 0) [(Reg.FQ_STATUS_OUTSTANDING, 0), (Reg.FQ_STATUS_FULL, 0)] s

/-- The unit that fetches a ring entry (R262): its pass is not one of those fetched. -/
def StalledUnit.isFetch (u : StalledUnit) : Bool := u.holder == 80 && u.len == 128

/-- The passes of a context on whose behalf access units are stalled. -/
def stalledPasses (s : State) (k : Nat) : List Nat :=
  let us := (s.xlate.faults.filter (fun f => f.ctx == k)).flatMap (fun f => f.units)
  let us := us ++ (s.xlate.unrecorded.filter (fun u => u.1 == k)).map (fun u => u.2.2.2.2.2)
  (s.passes.filter (fun p => p.ctx == k && us.any (fun u => !u.isFetch && u.passValid && u.ring == p.ring && u.index == p.index))).map
    (fun p => p.id)

/-- Ends a pass `EXEC_FAULT` with a `DETAIL` of n: its remaining pieces are discarded, and it goes on to
the steps of R145. -/
def failPass (n : Nat) (p : Pass) : Pass :=
  { p with status := 0x0C, detail := n, pieces := p.pieces.map (fun x => { x with state := .done, reissue := false }),
           placed := p.total, phase := .running, computed := true }

def failPasses (n : Nat) (ids : List Nat) (s : State) : State :=
  { s with passes := s.passes.map (fun p => if p.id ∈ ids then failPass n p else p) }

/-- `ARRAY_STATE` of a tile. -/
def setArrayState (n v : Nat) (s : State) : State := setFld (pageTile n) Reg.ARRAY_STATE_STATE v s

/-- A tile's passes are dropped with everything in flight; the array is idle. -/
def clearArray (n st : Nat) (s : State) : State :=
  let s := modTile n (fun t => { t with
    lead := none, trail := none, flight := [], acc := [], hist := [],
    nonfinite := none, saturated := none, draining := false, parkValid := false, gated := 0, products := 0,
    leadGated := 0, leadProducts := 0 }) s
  setFlds (pageTile n) [(Reg.ARRAY_STATE_STATE, st), (Reg.ARRAY_STATE_EPILOGUE, 0), (Reg.ARRAY_STATE_PASSES, 0),
    (Reg.LEAD_POSITION_VALID, 0), (Reg.TRAIL_POSITION_VALID, 0)] s

/-- MIGRATION_DISCARD (R232): the migrations of a context end where they stand. Before installation the
region stays on frame a; `PLACE_LAST` shows it. -/
def discardMigrations (k : Nat) (s : State) : State :=
  let ms := s.xlate.migrations.filter (fun m => m.ctx == k)
  let x := s.xlate
  let s := { s with xlate := { x with
    migrations := x.migrations.filter (fun m => m.ctx != k)
    heldRanges := x.heldRanges.filter (fun r => !(ms.any (fun m => m.ctx == r.1 && m.region * 32 == r.2.1))) } }
  ms.foldl (fun s m => setFlds (pageCtx k) [(Reg.PLACE_LAST_REGION, m.region), (Reg.PLACE_LAST_KIND, 3)] s) s

/-- CONTEXT0_FAULT (R521): context 0x00 stays RUNNING; its outstanding faults are discarded, and each
affected pass completes EXEC_FAULT with DETAIL 1. -/
def context0Fault (ids : List Nat) (s : State) : State :=
  failPasses 1 (ids ++ stalledPasses s 0) (discardFaults 0 s)

/-- The journal of a source that is faulted or ends stops (R505). -/
def stopJournal (k : Nat) (s : State) : State :=
  let st := fld s (pageCtx k) Reg.EMBER_STATUS_STATE
  if 1 ≤ st ∧ st ≤ 3 then setFld (pageCtx k) Reg.EMBER_STATUS_STATE 0 s else s

/-- CONTEXT_FAULT (R298): a context in BUILDING to PARKED enters FAULTED. Its work is stopped and
discarded, `FAULT_INFO` takes the record, a message goes on the event vector and, when sealed, a
FAULT_NOTICE through the window. `ids` are the passes whose access failed, for context 0x00. -/
def faultCtx (k : Nat) (ids : List Nat) (seq sev cls : Nat) (s : State) : State :=
  if k = 0 then context0Fault ids s
  else if 0 < ctxState s k ∧ ctxState s k < 5 then
    let s := setCtxState k 5 s
    let s := discardMigrations k (discardFaults k { s with passes := s.passes.filter (fun p => p.ctx != k) })
    let s := (boundTiles s k).foldl (fun s n => clearArray n 1 s) s
    let s := setFlds (pageWin k 0)
      [(Reg.FAULT_INFO_SEQ, seq), (Reg.FAULT_INFO_SEVERITY, sev), (Reg.FAULT_INFO_CLASS, cls)] s
    let s := stopJournal k s
    let s := ctxMsg k 2 s
    if isSealed s k then winSend k 0x08 (leBytes 8 (seq + sev * 2 ^ 32 + cls * 2 ^ 36)) s else s
  else s

/-- Raises a record and faults the context it is charged to, naming that record. -/
def raiseAndFault (r : ErrRec) (ids : List Nat) (s : State) : State :=
  let q := seqNow s
  faultCtx r.ctx ids q r.sev r.cls (raiseErr r s)

/-- The source page of an error at a physical address: its controller's or port's, else its home's. -/
def errPage (s : State) (pa : Nat) : Nat :=
  match placeOf s pa with
  | some (ch, _) => pageHbm (ch / 32)
  | none => if isPeat pa then pagePeat (peatPort pa) else pageTile (sliceOf pa)

/-- `ERR_FIRST_DETAIL` of an HBM controller's page (R234): channel, pseudo-channel, granule, sector, and
the symbol in error (0xFF: none identified). -/
def hbmDetail (s : State) (pa symbol : Nat) : Nat :=
  match placeOf s pa with
  | some (ch, pc, g) => ch + (pc % 2) * 2 ^ 9 + g * 2 ^ 10 + (pa % 256 / 32) * 2 ^ 33 + symbol * 2 ^ 36
  | none => 0

/-- The part of a record that names a pass (R487). -/
def ErrRec.ofPass (r : ErrRec) (p : Option Pass) : ErrRec :=
  match p with
  | none => r
  | some p => { r with ring := p.ring, passValid := true, index := p.index, userTag := (p.words.drop 1).headD 0 }

/-- OWNERSHIP_VIOLATION (R205): charged to the requester, faulting a tenant context; for 0x00, 0xFE and
0xFF a RESOURCE record against 0x00. -/
def ownerViolation (c pa : Nat) (p : Option Pass) (s : State) : State :=
  let r : ErrRec := { page := errPage s pa, cls := 0x032, addr := pa, addrValid := true, detail := hbmDetail s pa 0xFF }
  let r := r.ofPass p
  let ids := (p.map (fun p => p.id)).toList
  if 0 < c ∧ c < 0x40 then raiseAndFault { r with ctx := c, sev := 1 } ids s
  else failPasses 1 (if c = 0 then ids else []) (raiseErr { r with ctx := 0, sev := 2 } s)

/-- HBM_UNCORRECTABLE and PEAT_POISON (R210, R398): the sector is marked, the frame's BAD set, the
requester charged and faulted; nothing is delivered. -/
def uncorrectable (c pa : Nat) (p : Option Pass) (s : State) : State :=
  let charged := if c < 0x40 then c else 0
  let r : ErrRec := {
    page := errPage s pa, ctx := charged, sev := 1
    cls := if isPeat pa then 0x072 else 0x031, addr := pa, addrValid := true
    detail := if isPeat pa then 1 else hbmDetail s pa 0xFF }
  let s := markBad pa s
  let s := match placeOf s pa with
    | some (ch, _) => raiseSrc (pageHbm (ch / 32)) 2 (count (pageHbm (ch / 32)) Reg.ECC_COUNTS_UNCORRECTED 1 s)
    | none => if isPeat pa then count (pagePeat (peatPort pa)) Reg.PEAT_COUNTS_POISON 1 s else s
  raiseAndFault (r.ofPass p) ((p.map (fun p => p.id)).toList) s

/-- An access to a fenced channel or stack is answered DATA_ERROR and faults its context as R210 states,
with nothing marked (R221, R227). -/
def unreachableData (c pa : Nat) (p : Option Pass) (s : State) : State :=
  let charged := if c < 0x40 then c else 0
  let r : ErrRec := {
    page := errPage s pa, ctx := charged, sev := 1, cls := 0x031, addr := pa, addrValid := true
    detail := hbmDetail s pa 0xFF }
  raiseAndFault (r.ofPass p) ((p.map (fun p => p.id)).toList) s

/-- An engine's access to host memory that the host port turned away: a record of class 0x070 with the function; the pass
fails and its context runs on (R386, R491). -/
def hostRefused (c pa : Nat) (p : Option Pass) (s : State) : State :=
  let s := if busMaster s c then s else count hostPage Reg.HOST_COUNTS_BME_BLOCKED 1 s
  let r : ErrRec := { page := hostPage, ctx := c, sev := 1, cls := 0x070, addr := pa, addrValid := true, detail := c % 256 }
  failPasses 1 ((p.map (fun p => p.id)).toList) (raiseErr (r.ofPass p) s)

/-- A DATA_ERROR met by an engine. -/
def dataError (c pa : Nat) (p : Option Pass) (s : State) : State :=
  if isHost pa then hostRefused c pa p s
  else if isHbm pa ∧ unreachable s pa then unreachableData c pa p s else uncorrectable c pa p s

/-! Translation faults -/

/-- Holders of translations (R258): 0 to 63 tiles, 64 + s site adapters, 72 + s guests' own caches, 80
dispatcher, 81 Plarus, 82 and 83 kiln engines, 84 ember, 85 placement, 86 host port. -/
def holderSource (h sub : Nat) : Nat :=
  let node (x y port : Nat) : Nat := x + 8 * y + 64 * port
  let site (n : Nat) : Nat :=
    match n with
    | 0 => node 0 0 9 | 1 => node 7 0 9 | 2 => node 4 0 9 | 3 => node 3 0 9
    | 4 => node 4 4 9 | 5 => node 3 4 9 | 6 => node 0 4 9 | _ => node 7 4 9
  if h < 64 then node (h % 8) (h / 8) 2
  else if h < 72 then site (h - 64) + 1024 * sub
  else if h < 80 then site (h - 72) + 1024 * sub
  else if h = 80 then 0xFFF
  else if h = 81 then node 1 0 8
  else if h = 82 then node 1 0 9
  else if h = 83 then node 1 4 9
  else if h = 84 then node 5 0 9
  else if h = 85 then 0xFFE
  else node 0 1 8

/-- The 64-byte fault record of R262. -/
def faultRecord (s : State) (k code level entry page id seq : Nat) (noStall phase : Bool) (u : StalledUnit) : List Byte :=
  ofWords [
    k + code * 2 ^ 8 + u.access * 2 ^ 16 + level * 2 ^ 18 + b2n phase * 2 ^ 20 + b2n noStall * 2 ^ 21 + id * 2 ^ 24
      + seq * 2 ^ 32,
    page, u.va, u.len, entry,
    holderSource u.holder u.sub + u.ring * 2 ^ 12 + b2n u.passValid * 2 ^ 16 + u.index * 2 ^ 32,
    u.userTag,
    s.time.ns + s.time.sec % 2 ^ 34 * 2 ^ 30]

/-- Class 0x050 (R261): the fault queue cannot be used, and the context is faulted. -/
def queueUnusable (k : Nat) (ids : List Nat) (s : State) : State :=
  raiseAndFault { page := pageCtx k, ctx := k, sev := 1, cls := 0x050 } ids s

/-- Free slots of a ring of 2^L slots (R138). -/
def freeSlots (l tail head : Nat) : Nat := 2 ^ l - 1 - (tail + 2 ^ l - head) % 2 ^ l

/-- The lowest fault ID of a context that is not outstanding. -/
def freeFaultId (s : State) (k : Nat) : Option Nat :=
  (List.range 256).find? (fun i => !(s.xlate.faults.any (fun f => f.ctx == k && f.id == i)))

def faultCount (s : State) (k : Nat) : Nat := (s.xlate.faults.filter (fun f => f.ctx == k)).length

/-- Counts one fault record produced (R275, R323). -/
def countFault (k : Nat) (s : State) : State :=
  bump (pageCtx k) Reg.XLATE_COUNTS_FAULTS 1 (bump (pageWin k 3) Reg.CT_FAULTS_TRANSLATION 1 s)

/-- FAULT_RECORD (R262): writes a record at the fault queue's tail, or sends it as a sealed message; fails
where the queue is disabled, full or its memory unusable. -/
inductive RecordFate where
  | written (s : State)
  | full
  | unusable

def writeFaultRecord (k code level entry page id seq : Nat) (noStall : Bool) (u : StalledUnit) (s : State) : RecordFate :=
  let w := pageWin k 0
  let s1 (s : State) := if flag s w Reg.FQ_CFG_IRQ_EN then ctxMsg k 1 s else s
  if isSealed s k then
    let s := bump (pageCtx k) Reg.SEALED_XLATE_OUT 1 s
    .written (countFault k (winSend k 0x24 (faultRecord s k code level entry page id seq noStall false u) s))
  else if !flag s w Reg.FQ_CFG_ENABLE then .unusable
  else
    let l := fld s w Reg.FQ_CFG_LOG2_SIZE
    let tail := fld s w Reg.FQ_STATUS_TAIL
    if freeSlots l tail (fld s w Reg.FQ_STATUS_HEAD) = 0 then .full
    else
      let phase := flag s w Reg.FQ_STATUS_PHASE
      match vwrite 87 k (fld s w Reg.FQ_BASE_ADDR * 4096 + 64 * tail)
          (faultRecord s k code level entry page id seq noStall phase u) s with
      | .error _ => .unusable
      | .ok s =>
        let s := markRange k (fld s w Reg.FQ_BASE_ADDR * 4096 + 64 * tail) 64 s
        let nt := (tail + 1) % 2 ^ l
        .written (s1 (countFault k (setFlds w [(Reg.FQ_STATUS_TAIL, nt),
          (Reg.FQ_STATUS_PHASE, b2n (phase ^^ (nt == 0)))] s)))

/-- The next fault sequence number of a context, from 1 (R262). -/
def faultSeq (s : State) (k : Nat) : Nat := Tab.get 0 s.xlate.seqs k + 1

def takeFaultSeq (k : Nat) (s : State) : State :=
  { s with xlate := { s.xlate with seqs := Tab.put 0 s.xlate.seqs k ((faultSeq s k) % 2 ^ 32) } }

/-- Passes a stalled unit belongs to. -/
def unitPass (s : State) (k : Nat) (u : StalledUnit) : List Nat :=
  if u.passValid && !u.isFetch then
    (s.passes.filter (fun p => p.ctx == k && p.ring == u.ring && p.index == u.index)).map (fun p => p.id)
  else []

/-- TRANSLATION_FAULT (R261): the unit stalls; a fault of the same page and code is joined, a new one
takes an ID and a record; without an ID or a slot the unit waits unrecorded; the host port never stalls;
a context whose queue cannot be used is faulted. -/
def translationFault (k code level entry page : Nat) (u : StalledUnit) (s : State) : State :=
  if 5 ≤ ctxState s k then s
  else if u.holder = 86 then
    match writeFaultRecord k code level entry page 0 (faultSeq s k) true u s with
    | .written t => takeFaultSeq k t
    | .full => s
    | .unusable => queueUnusable k [] s
  else if s.xlate.faults.any (fun f => f.ctx == k && f.page == page && f.code == code) then
    { s with xlate := { s.xlate with faults := s.xlate.faults.map (fun f =>
        if f.ctx = k ∧ f.page = page ∧ f.code = code then { f with units := f.units ++ [u] } else f) } }
  else
    let wait (s : State) : State :=
      { s with xlate := { s.xlate with unrecorded := s.xlate.unrecorded ++ [(k, code, level, entry, page, u)] } }
    match freeFaultId s k with
    | none => wait s
    | some id =>
      match writeFaultRecord k code level entry page id (faultSeq s k) false u s with
      | .unusable => queueUnusable k (unitPass s k u) s
      | .full => setFld (pageWin k 0) Reg.FQ_STATUS_FULL 1 (wait s)
      | .written t =>
        let f : FaultSt := { ctx := k, id := id, page := page, code := code, level := level, entry := entry,
                             seq := faultSeq s k, units := [u] }
        let t := takeFaultSeq k { t with xlate := { t.xlate with faults := t.xlate.faults ++ [f] } }
        setFld (pageWin k 0) Reg.FQ_STATUS_OUTSTANDING (faultCount t k) t

/-- Units that waited for a fault ID or a slot are taken up, oldest first, while both are free (R261). -/
def retryUnrecorded (k : Nat) (s : State) : State :=
  let mine := s.xlate.unrecorded.filter (fun u => u.1 == k)
  let s := { s with xlate := { s.xlate with unrecorded := s.xlate.unrecorded.filter (fun u => u.1 != k) } }
  let s := setFld (pageWin k 0) Reg.FQ_STATUS_FULL 0 s
  mine.foldl (fun s u => translationFault k u.2.1 u.2.2.1 u.2.2.2.1 u.2.2.2.2.1 u.2.2.2.2.2 s) s

end Sys2Proof.Machine
end

