-- ==== Sys2Proof/Machine/Regulator.lean ====
section
/-! DEFINITION. The bandwidth regulator: pools, deliverable bandwidth, guarantees, classes and levels,
token buckets, and the time slots of sealed contexts (R277 to R291). -/

namespace Sys2Proof.Machine

/-- Channel c of the device is in the interleave. -/
def channelLive (s : State) (c : Nat) : Bool := tst (fld s (pageHbm (c / 32)) Reg.CHANNEL_LIVE) (c % 32)

def setLive (c : Nat) (b : Bool) (s : State) : State :=
  let w := fld s (pageHbm (c / 32)) Reg.CHANNEL_LIVE
  setFld (pageHbm (c / 32)) Reg.CHANNEL_LIVE (if b then setBit w (c % 32) else clrBit w (c % 32)) s

/-- A channel that serves: live, neither it nor its stack fenced. -/
def serves (s : State) (c : Nat) : Bool := channelLive s c && !(channel s c).fenced && !(stack s (c / 32)).fenced

/-- Pool of a physical address (R277): 0 HBM, 1 peat, 2 host; 3 elsewhere. -/
def poolOf (pa : Nat) : Nat := if isHbm pa then 0 else if isPeat pa then 1 else if isHost pa then 2 else 3

/-- Pool of a class (R279). -/
def poolOfClass (s : State) (c : Nat) : Nat := bits (fld s 0x006 Reg.CLASS_POOL) (2 * c + 1) (2 * c)

/-- 64 GB/s times the throttle level of a stack (R220): the level code counts eighths below 100 %. -/
def levelGbs (s : State) (stk : Nat) : Nat := 8 * (8 - min (fld s (pageHbm stk) Reg.THERMAL_LEVEL) 4)

/-- D of the HBM pool (R284): a channel that is fenced or out of the interleave adds nothing. -/
def deliverHbm (s : State) : Nat :=
  let sum := (List.range 12).foldl (fun n k =>
    n + levelGbs s k * ((List.range 32).filter (fun i => serves s (32 * k + i))).length) 0
  let ann := (s.hbm.channels.filter (fun c => c.2.announced && serves s c.1)).length
  sum - 64 * ann - (if s.hbm.evac.isSome then 96 else 0)

/-- A peat port that is in service with a trained link (R230). -/
def peatTrained (s : State) (p : Nat) : Bool := fld s (pagePeat p) Reg.PEAT_LINK_RATE != 0

/-- D of a pool (R284). The host pool scales by negotiated width and rate, 64 GT/s by 16 being 112 GB/s. -/
def deliver (s : State) (p : Nat) : Nat :=
  if p = 0 then deliverHbm s
  else if p = 1 then
    (List.range 4).foldl (fun n i =>
      n + (if peatTrained s i then 112 * fld s (pagePeat i) Reg.PEAT_LINK_WIDTH / 16 else 0)) 0
  else
    let r := fld s 0x00E Reg.HOST_LINK_RATE
    if r = 0 then 0 else 112 * fld s 0x00E Reg.HOST_LINK_WIDTH * 2 ^ r / 128

/-- Guarantee of a context in a class. -/
def guarantee (s : State) (k c : Nat) : Nat := fld s (pageCtx k) (Reg.REG_CLASS_GUARANTEE.at 8 c)

/-- Sum of a context's guarantees in a pool. -/
def poolGuarantee (s : State) (k p : Nat) : Nat :=
  (List.range 8).foldl (fun n c => if poolOfClass s c = p then n + guarantee s k c else n) 0

/-- The slot bandwidth of a sealed context, s times C (R290). -/
def slotBandwidth (s : State) (k : Nat) : Nat := (ctx s k).slots * (ctx s k).channels

/-- S: the sum over the sealed contexts (R290). -/
def sealedBandwidth (s : State) : Nat :=
  (List.range 64).foldl (fun n k => if isSealed s k then n + slotBandwidth s k else n) 0

/-- G of a pool, sealed slots counted as guarantees (R285). -/
def guaranteed (s : State) (p : Nat) : Nat :=
  (List.range 64).foldl (fun n k => if p = 0 ∧ isSealed s k then n else n + poolGuarantee s k p) 0
    + (if p = 0 then sealedBandwidth s else 0)

/-- f of R286. -/
def poolFactor (d g sb : Nat) : Nat :=
  if g ≤ d then 256 else if g ≤ sb ∨ d ≤ sb then 0 else min 256 (256 * (d - sb) / (g - sb))

/-- f of a pool as the registers hold it. -/
def factor (s : State) (p : Nat) : Nat := fld s 0x006 (Reg.POOL_STATUS_FACTOR.at 8 p)

/-- The effective guarantee g' of R286. -/
def effective (s : State) (k c : Nat) : Nat := guarantee s k c * factor s (poolOfClass s c) / 256

/-- The notice a context receives when f of a pool crosses 256 (R286). -/
def notice (p : Nat) (on : Bool) (s : State) : State :=
  (List.range 64).foldl (fun s k =>
    if poolGuarantee s k p = 0 then s
    else
      let w := pageWin k 0
      ctxMsg k 2 (bump w Reg.REG_NOTICE_CHANGES 1 (setFld w Reg.REG_NOTICE_REDUCED (b2n on) s))) s

/-- Recomputes D, G and f of one pool and gives the notices of R286. -/
def refreshPool (p : Nat) (s : State) : State :=
  let d := deliver s p
  let g := guaranteed s p
  let f := poolFactor d g (if p = 0 then sealedBandwidth s else 0)
  let old := factor s p
  let s := setFlds 0x006 [(Reg.POOL_STATUS_DELIVERABLE.at 8 p, d), (Reg.POOL_STATUS_GUARANTEED.at 8 p, g),
    (Reg.POOL_STATUS_FACTOR.at 8 p, f)] s
  if decide (f < 256) == decide (old < 256) then s
  else notice p (decide (f < 256)) (raiseSrc 0x006 0 (setFld 0x006 (Reg.POOL_STATUS_REDUCED.at 8 p) (b2n (decide (f < 256))) s))

/-- Recomputes every pool (R284, R286). -/
def refreshPools (s : State) : State := refreshPool 2 (refreshPool 1 (refreshPool 0 s))

/-! Classes and levels (R278, R283) -/

/-- The class of a physical address (R278). -/
def classOf (s : State) (pa : Nat) : Nat :=
  match (List.range 16).find? (fun i => flag s 0x006 (Reg.RANGE_ENABLE.at 16 i) &&
      decide (fld s 0x006 (Reg.RANGE_BASE.at 16 i) ≤ pa >>> 21) && decide (pa >>> 21 ≤ fld s 0x006 (Reg.RANGE_END_LAST.at 16 i))) with
  | some i => fld s 0x006 (Reg.RANGE_CLASS.at 16 i)
  | none => fld s 0x006 (if isHbm pa then Reg.DEFAULT_CLASS_HBM else if isPeat pa then Reg.DEFAULT_CLASS_PEAT
      else Reg.DEFAULT_CLASS_HOST)

/-- Key of a (source, context, class) in the regulator's tables. -/
def regKey (src k c : Nat) : Nat := (src * 256 + k) * 8 + c

/-- `BASE_PRIO` of a class; 6 and 7 act as 5 (R283). -/
def basePrio (s : State) (k c : Nat) : Nat := min 5 (fld s (pageCtx k) (Reg.REG_CLASS_BASE_PRIO.at 8 c))

/-- The level a source stamps on new requests of (k, c): the one in force, else p (R283). -/
def levelOf (s : State) (src k c : Nat) : Nat := Tab.get (basePrio s k c + 1) s.regul.levels (regKey src k c) - 1

/-- The level of R283 from an average A in 65,536ths of a ns. -/
def levelFor (p t a old : Nat) : Nat :=
  let t := t * 65536
  if t = 0 then p
  else if t ≤ a then min (p + 2) 5
  else if 3 * t ≤ 4 * a then min (p + 1) 5
  else if t ≤ 2 * a then old
  else p

/-- LATENCY_AVERAGE (R283): a latency in ns moves the average and the level of (source, k, c). -/
def latencySample (src k c ns : Nat) (s : State) : State :=
  let key := regKey src k c
  let sh := max 1 (fld s 0x006 Reg.LOOP_CTRL_EWMA_SHIFT)
  let a := Tab.get 0 s.regul.latAvg key
  let x := ns * 65536
  let a := if a ≤ x then a + (x - a) >>> sh else a - (a - x + 2 ^ sh - 1) >>> sh
  let lv := levelFor (basePrio s k c) (fld s (pageCtx k) (Reg.REG_CLASS_LATENCY_NS.at 8 c)) a (levelOf s src k c)
  let r := s.regul
  let s := { s with regul := { r with latAvg := Tab.put 0 r.latAvg key a, levels := Tab.ins r.levels key (lv + 1) } }
  let top := s.regul.latAvg.foldl (fun m e => if e.1 % 2048 = k * 8 + c then max m e.2 else m) 0
  setFld (pageCtx k) (Reg.REG_DECISION_LAT_AVG_NS.at 8 c) (min 0xFFFF (top / 65536)) s

/-! Rates and buckets (R281, R282) -/

def rateOf (s : State) (k c : Nat) : Nat := Tab.get 0 s.regul.rates (k * 8 + c)

/-- R clamped between g' and h; a ceiling below the guarantee acts as equal to it (R281). -/
def clampRate (s : State) (k c r : Nat) : Nat :=
  let g := effective s k c
  let h := max (fld s (pageCtx k) (Reg.REG_CLASS_CEILING.at 8 c)) (guarantee s k c)
  max g (min r h)

def setRate (k c r : Nat) (s : State) : State :=
  setFld (pageCtx k) (Reg.REG_DECISION_RATE.at 8 c) r
    { s with regul := { s.regul with rates := Tab.put 0 s.regul.rates (k * 8 + c) r } }

/-- The class is held by the time slots of R289. -/
def slotted (s : State) (k c : Nat) : Bool := isSealed s k && poolOfClass s c == 0

/-- The update of R282 for (k, c) under Q. -/
def updateRate (k c : Nat) (s : State) : State :=
  let p := poolOfClass s c
  let q := fld s 0x006 (Reg.POOL_STATUS_Q.at 8 p)
  let g := effective s k c
  let hi := fld s 0x006 Reg.LOOP_CTRL_Q_HIGH
  let lo := min (fld s 0x006 Reg.LOOP_CTRL_Q_LOW) hi
  let r := rateOf s k c
  let r :=
    if slotted s k c ∨ flag s 0x006 Reg.LOOP_CTRL_FREEZE then r
    else
      let ex := r - g
      let ex := if hi ≤ q then ex - ex >>> max 1 (fld s 0x006 Reg.LOOP_CTRL_MD_SHIFT)
        else if q < lo then ex + fld s 0x006 Reg.LOOP_CTRL_AI_STEP else ex
      g + ex
  setRate k c (clampRate s k c r) s

/-- The buckets of a context fill only while it is not pre-empted, paused or parked (R287). -/
def fills (s : State) (k : Nat) : Bool := !(ctxState s k == 3 || ctxState s k == 4)

/-! Time slots (R288 to R291) -/

/-- Live channels of the regions given by index. -/
def regionChannels (s : State) (idx : List Nat) : List Nat :=
  ((regions s).filter (fun r => idx.contains r.index)).foldl (fun l r =>
    (List.range (32 * r.stackSet.length)).foldl (fun l i =>
      if serves s (r.channel i) then addNew l (r.channel i) else l) l) []

/-- Allotted slots of a channel: positions of all sealed contexts. -/
def slotsTaken (s : State) (ch : Nat) : List Nat :=
  (s.regul.slotPos.filter (fun e => e.1 % 384 == ch)).flatMap (fun e => e.2)

/-- s of R289 for guarantees g over C channels. -/
def slotsFor (g c : Nat) : Nat := if c = 0 then 0 else max 1 (ceilDiv g c)

/-- Positions for n slots among those not taken (R290): evenly spread at the lowest offset that is free,
else the lowest free ones. -/
def spreadSlots (n : Nat) (taken : List Nat) : List Nat :=
  let even (o : Nat) : List Nat := (List.range n).map (fun i => (o + i * 64 / n) % 64)
  match (List.range 64).find? (fun o => (even o).all (fun x => !taken.contains x)) with
  | some o => even o
  | none => ((List.range 64).filter (fun x => !taken.contains x)).take n

/-- Some channel of the list would hold more than 51 slots if k held n on it (R289, R290). -/
def slotsFull (s : State) (k n : Nat) (chs : List Nat) : Bool :=
  chs.any (fun ch => decide (51 < (slotsTaken s ch).length - (Tab.get [] s.regul.slotPos (k * 384 + ch)).length + n))

/-- Refreshes `SLOT_ALLOT` and `SLOT_STATUS`. -/
def showSlots (k : Nat) (s : State) : State :=
  let s := setFlds (pageCtx k) [(Reg.SLOT_ALLOT_SLOTS, (ctx s k).slots), (Reg.SLOT_ALLOT_CHANNELS, (ctx s k).channels)] s
  let most := (s.regul.slotPos.map (fun e => (slotsTaken s (e.1 % 384)).length)).foldl max 0
  setFlds 0x006 [(Reg.SLOT_STATUS_MAX_ALLOTTED, most), (Reg.SLOT_STATUS_SEALED_GBS, sealedBandwidth s)] s

/-- Gives k its n slots on each channel: positions held are kept, the lowest when n falls; added ones are
placed by R290. -/
def allotSlots (k n : Nat) (chs : List Nat) (s : State) : State :=
  let s := chs.foldl (fun s ch =>
    let held := Tab.get [] s.regul.slotPos (k * 384 + ch)
    let pos := if n ≤ held.length then (sortNat held).take n
      else held ++ spreadSlots (n - held.length) (slotsTaken s ch)
    { s with regul := { s.regul with slotPos := Tab.put [] s.regul.slotPos (k * 384 + ch) pos } }) s
  showSlots k (modCtx k (fun c => { c with slots := n, channels := chs.length }) s)

/-- Releases every slot of a context. -/
def releaseSlots (k : Nat) (s : State) : State :=
  let s := { s with regul := { s.regul with slotPos := s.regul.slotPos.filter (fun e => e.1 / 384 != k) } }
  showSlots k (modCtx k (fun c => { c with slots := 0, channels := 0, regions := [] }) s)

/-- Slots of a channel that has left the interleave vanish (R291). -/
def dropChannelSlots (ch : Nat) (s : State) : State :=
  { s with regul := { s.regul with slotPos := s.regul.slotPos.filter (fun e => e.1 % 384 != ch) } }

end Sys2Proof.Machine
end

