-- ==== Sys2Proof/Machine/Torus.lean ====
section
/-! DEFINITION. The torus: nodes and the blocks at them, the checks at injection, routing, credits, and
responses (R40 to R60). -/

namespace Sys2Proof.Machine

/-- A block that serves a node (R41, R42). -/
inductive Blk where
  | engine (t : Nat) | home (t : Nat) | xlate (t : Nat) | control (t : Nat)
  | hbm (i : Nat) | site (i : Nat) | plarus | kiln (i : Nat) | ember | timebase | host | heartwood
  | walker | regulator | core (i : Nat) | peat (i : Nat)
deriving DecidableEq, Repr

/-- Node (x, y):port as a number. -/
def nodeAt (x y port : Nat) : Nat := (x + 8 * y) * 16 + port
def nodeRouter (n : Nat) : Nat := n / 16
def nodePort (n : Nat) : Nat := n % 16

/-- The edge blocks of R42. -/
def edgeTable : List (Nat × Blk) :=
  [(nodeAt 0 0 8, .hbm 0), (nodeAt 7 0 8, .hbm 0), (nodeAt 6 0 8, .hbm 1), (nodeAt 2 0 8, .hbm 1),
   (nodeAt 3 0 8, .hbm 2), (nodeAt 4 0 8, .hbm 2), (nodeAt 4 0 0xA, .hbm 3), (nodeAt 4 7 8, .hbm 3),
   (nodeAt 4 6 8, .hbm 4), (nodeAt 4 2 8, .hbm 4), (nodeAt 4 3 8, .hbm 5), (nodeAt 4 4 0xA, .hbm 5),
   (nodeAt 3 4 8, .hbm 6), (nodeAt 4 4 8, .hbm 6), (nodeAt 6 4 8, .hbm 7), (nodeAt 2 4 8, .hbm 7),
   (nodeAt 0 4 8, .hbm 8), (nodeAt 7 4 8, .hbm 8), (nodeAt 0 3 8, .hbm 9), (nodeAt 0 4 0xA, .hbm 9),
   (nodeAt 0 6 8, .hbm 10), (nodeAt 0 2 8, .hbm 10), (nodeAt 0 0 0xA, .hbm 11), (nodeAt 0 7 8, .hbm 11)] ++
  [(nodeAt 0 0 9, .site 0), (nodeAt 7 0 9, .site 1), (nodeAt 4 0 9, .site 2), (nodeAt 3 0 9, .site 3),
   (nodeAt 4 4 9, .site 4), (nodeAt 3 4 9, .site 5), (nodeAt 0 4 9, .site 6), (nodeAt 7 4 9, .site 7)] ++
  [(nodeAt 1 0 8, .plarus), (nodeAt 6 0 9, .plarus), (nodeAt 5 0 8, .plarus), (nodeAt 1 4 8, .plarus),
   (nodeAt 6 4 9, .plarus), (nodeAt 5 4 8, .plarus), (nodeAt 1 0 9, .kiln 0), (nodeAt 1 4 9, .kiln 1),
   (nodeAt 5 0 9, .ember), (nodeAt 5 4 9, .timebase), (nodeAt 0 1 8, .host), (nodeAt 0 1 9, .heartwood),
   (nodeAt 0 7 9, .walker), (nodeAt 0 3 9, .regulator)] ++
  [(nodeAt 0 5 8, .core 0), (nodeAt 0 5 9, .core 1), (nodeAt 0 6 9, .core 2), (nodeAt 0 2 9, .core 3),
   (nodeAt 4 1 9, .core 4), (nodeAt 4 6 9, .core 5), (nodeAt 4 2 9, .core 6), (nodeAt 4 5 9, .core 7),
   (nodeAt 4 7 9, .peat 0), (nodeAt 4 1 8, .peat 1), (nodeAt 4 5 8, .peat 2), (nodeAt 4 3 9, .peat 3)]

/-- The block at a node, if the node exists. -/
def nodeBlock (n : Nat) : Option Blk :=
  if 1024 ≤ n then none
  else match nodePort n with
    | 0 => some (.engine (nodeRouter n))
    | 1 => some (.home (nodeRouter n))
    | 2 => some (.xlate (nodeRouter n))
    | 3 => some (.control (nodeRouter n))
    | _ => (edgeTable.find? (fun e => e.1 == n)).map (fun e => e.2)

/-- The first node of a block in R42's order. -/
def blockNode (b : Blk) : Nat :=
  match b with
  | .engine t => t * 16 | .home t => t * 16 + 1 | .xlate t => t * 16 + 2 | .control t => t * 16 + 3
  | b => ((edgeTable.find? (fun e => e.2 == b)).map (fun e => e.1)).getD 0

/-- The node that serves a page's registers (R70). -/
def pageNode (p : Nat) : Nat :=
  match pageKind p with
  | some .timebase => blockNode .timebase
  | some .regulator => blockNode .regulator
  | some .walker => blockNode .walker
  | some .kiln => blockNode (.kiln (p - 8))
  | some .ember => blockNode .ember
  | some .mailbox | some .lifeCycle | some .debug => blockNode .heartwood
  | some .plarus | some .plarusPort => blockNode .plarus
  | some .peat => blockNode (.peat (p - 0x10))
  | some .site => blockNode (.site (p - 0x18))
  | some .hbm => blockNode (.hbm (p - 0x20))
  | some .tile => blockNode (.control (p - 0x80))
  | some .core => blockNode (.core (p - 0xC0))
  | _ => blockNode .host

/-- The switched domain that feeds a block (R468), where one does. -/
def blockDomain (b : Blk) : Option Nat :=
  match b with
  | .engine t => some t | .home t => some (64 + t) | .xlate _ | .control _ | .regulator => some 185
  | .hbm i => some (128 + i) | .site i => some (140 + i) | .kiln i => some (181 + i) | .ember => some 183
  | .host => some 172 | .walker => some 184 | .core i => some (173 + i) | .peat i => some (168 + i)
  | .plarus | .timebase | .heartwood => none

/-- The endpoint at a node is down (R59): by an event, its power domain off, a guest site that is not ASSIGNED or is
fenced, a peat port out of service, a retired tile engine. -/
def isDown (s : State) (n : Nat) : Bool :=
  s.torus.down.contains n ||
  (match (nodeBlock n).bind blockDomain with
   | some d => !domainOn s d
   | none => false) ||
  (match nodeBlock n with
   | some (.site i) => fld s (pageSite i) Reg.SITE_STATE_OTP_STATE != 1 || fld s (pageSite i) Reg.SITE_STATE_LINK == 9
   | some (.peat i) => !flag s (pagePeat i) Reg.PAGE_STATUS_IN_SERVICE
   | some (.engine t) => bindState s (pageTile t) == 6
   | _ => false)

/-- `ROUTER_STATUS.EDGE_DOWN` of a router (R63). -/
def edgeDown (s : State) (r : Nat) : Nat :=
  (List.range 4).foldl (fun m i =>
    if (nodeBlock (r * 16 + 8 + i)).isSome && isDown s (r * 16 + 8 + i) then m + 2 ^ i else m) 0

/-! Checks at injection (R46, R49) -/

/-- Opcodes that a chapter assigns (R46). -/
def opcodeAssigned (o : Nat) : Bool :=
  decide (o ≤ 0x04) || (decide (0x10 ≤ o) && decide (o ≤ 0x13)) || (decide (0x20 ≤ o) && decide (o ≤ 0x24)) ||
  (decide (0x30 ≤ o) && decide (o ≤ 0x35)) || (decide (0x40 ≤ o) && decide (o ≤ 0x44)) || o == 0x50 || o == 0x51 ||
  (decide (0x60 ≤ o) && decide (o ≤ 0x66)) || (decide (0x70 ≤ o) && decide (o ≤ 0x74)) ||
  (decide (0x80 ≤ o) && decide (o ≤ 0x86)) || (decide (0x88 ≤ o) && decide (o ≤ 0x8B)) ||
  (decide (0x90 ≤ o) && decide (o ≤ 0x96)) || (decide (0xA0 ≤ o) && decide (o ≤ 0xA4)) || o == 0xA8 || o == 0xA9

/-- Priorities that an opcode's range allows (R46). -/
def prioAllowed (o p : Nat) : Bool :=
  if o < 0x50 then decide (p ≤ 5) else if o < 0x70 then p == 6 else if o < 0x90 then decide (p ≤ 5) else p == 7

/-- The caching agent that a source node and sub-agent are (R237), if the chiplet declares it. -/
def agentOf (s : State) (src sub : Nat) : Option Nat :=
  match nodeBlock src with
  | some (.site i) => if sub < min 4 (fld s (pageSite i) Reg.SITE_DECL0_AGENTS) then some (4 * i + sub) else none
  | some (.core m) => some (32 + m)
  | _ => none

/-- Requests that only certain sources may send, or only to certain nodes (R70, R239, R316). -/
def sourceAllowed (s : State) (src : Nat) (h : Header) : Bool :=
  let core := match nodeBlock src with | some (.core _) => true | _ => false
  if h.opcode = 0x90 ∨ h.opcode = 0x91 then core || nodeBlock src == some .host
  else if h.opcode = 0x92 ∨ h.opcode = 0x93 then nodeBlock h.dst == some .host
  else if h.opcode = 0x96 then nodeBlock h.dst == some .regulator
  else if 0x40 ≤ h.opcode ∧ h.opcode ≤ 0x44 then (agentOf s src h.srcSub).isSome
  else if 0xA0 ≤ h.opcode ∧ h.opcode ≤ 0xA4 then
    core || nodeBlock src == some .heartwood ||
      (h.opcode == 0xA1 && match nodeBlock src with | some (.hbm _) | some (.peat _) => true | _ => false)
  else true

/-- The context is permitted at the source: at a guest site adapter, one bound to the site (R49). -/
def ctxPermitted (s : State) (src : Nat) (h : Header) : Bool :=
  match nodeBlock src with
  | some (.site i) => bindState s (pageSite i) == 1 && bindCtx s (pageSite i) == h.ctx
  | _ => true

/-- R49, apart from the context. -/
def headerOk (s : State) (plane : Plane) (src : Nat) (h : Header) : Bool :=
  decide (h.len ≤ 16) && opcodeAssigned h.opcode && (nodeBlock h.dst).isSome && prioAllowed h.opcode h.prio &&
  (!h.noResp || (decide (0xA8 ≤ h.opcode) && decide (h.opcode ≤ 0xAF))) &&
  (!h.xlated || decide (h.addr < 2 ^ 52)) && (plane == .rsp || sourceAllowed s src h)

/-- Sources whose requests the regulator governs (R278). -/
def regulatedSource (src : Nat) : Bool :=
  match nodeBlock src with
  | some (.engine _) | some (.site _) | some .host | some .plarus | some (.kiln _) | some .ember => true
  | _ => false

/-- A request of the pools (R277, R280): charged to a bucket unless its context is 0xFE or 0xFF. -/
def regulated (src : Nat) (h : Header) : Bool :=
  regulatedSource src && prioAllowed h.opcode 5 && decide (h.ctx < 0xFE)

/-- Bytes that a request asks for (R277): a read its sectors, a narrow access 32, a transfer its units, a
coherent read its line. -/
def requestBytes (h : Header) : Nat :=
  if h.opcode = 0x00 ∨ h.opcode = 0x20 ∨ h.opcode = 0x30 then 32 * popCount h.opArg 8
  else if h.opcode = 0x40 ∨ h.opcode = 0x41 ∨ h.opcode = 0x42 then 128
  else if h.len = 0 ∧ (h.opcode < 0x40) then 32
  else 256 * h.len

/-! Routing (R52 to R54) -/

def vcClass (prio : Nat) : Nat := if prio ≤ 5 then 0 else if prio = 6 then 1 else 2

def rx (r : Nat) : Nat := r % 8
def ry (r : Nat) : Nat := r / 8

/-- The output of router r toward a node (R53): 0 X+, 1 X-, 2 Y+, 3 Y-, 4 + p the local port p. -/
def route (r dst : Nat) : Nat :=
  let d := nodeRouter dst
  let dx := (rx d + 8 - rx r) % 8
  let dy := (ry d + 8 - ry r) % 8
  if dx ≠ 0 then if dx ≤ 4 then 0 else 1
  else if dy ≠ 0 then if dy ≤ 4 then 2 else 3
  else 4 + nodePort dst

/-- The router next to r in a direction. -/
def nextRouter (r dir : Nat) : Nat :=
  match dir with
  | 0 => (rx r + 1) % 8 + 8 * ry r
  | 1 => (rx r + 7) % 8 + 8 * ry r
  | 2 => rx r + 8 * ((ry r + 1) % 8)
  | _ => rx r + 8 * ((ry r + 7) % 8)

/-- The link in a direction from r is the dateline of its dimension: between positions 7 and 0 (R53). -/
def dateline (r dir : Nat) : Bool :=
  match dir with
  | 0 => rx r == 7
  | 1 => rx r == 0
  | 2 => ry r == 7
  | _ => ry r == 0

/-- The virtual channel on an output link (R53): 1 from the dateline on within a dimension, 0 on the
first link of a dimension that is not the dateline. -/
def nextVc (p : NetPkt) (dir : Nat) : Nat :=
  if dateline p.router dir then 1
  else if p.inPort < 4 ∧ p.inPort / 2 = dir / 2 then p.vc
  else 0

def planeIdx : Plane → Nat
  | .req => 0
  | .rsp => 1

/-- Key of a buffer: router, input port, plane (0 REQ, 1 RSP; data 2 + 2 DPSEL + response), class, VC. -/
def bufKey (r inPort plane cls vc : Nat) : Nat := (((r * 32 + inPort) * 8 + plane) * 3 + cls) * 2 + vc

/-- Entries of a header buffer (R54). -/
def hdrEntries (inPort cls : Nat) : Nat :=
  (if cls = 0 then 6 else if cls = 1 then 4 else 2) * (if inPort < 4 then 1 else 2)

/-- Entries of a data buffer (R54). -/
def dataEntries (inPort cls : Nat) : Nat :=
  if inPort < 4 then if cls = 0 then 8 else 2 else if cls = 0 then 16 else 4

def dataPlane (pl : Plane) (h : Header) : Nat := 2 + 2 * b2n h.dpsel + planeIdx pl

/-- The data plane a native source sets (R51): the one with more free injection credits, DATA0 on a tie. -/
def freerPlane (s : State) (plane : Plane) (src : Nat) (h : Header) : Bool :=
  let used (d : Bool) := Tab.get 0 s.torus.used
    (bufKey (nodeRouter src) (4 + nodePort src) (dataPlane plane { h with dpsel := d }) (vcClass h.prio) 0)
  decide (used true < used false)

/-- What the source hardware sets in a header (R44, R49, R51, R278): `SEALED_SRC` by the context's mode, at a guest site
adapter the source fields, elsewhere `DPSEL`, and `SCLASS` and `PRIO` of a regulated request. -/
def stampSource (s : State) (plane : Plane) (src : Nat) (h : Header) : Header :=
  let site := match nodeBlock src with | some (.site _) => true | _ => false
  let h := { h with sealedSrc := isSealed s h.ctx, src := if site then src else h.src, dpsel := if site then h.dpsel else freerPlane s plane src h }
  if plane = .req ∧ regulatedSource src ∧ prioAllowed h.opcode 5 ∧ (site = true ∨ h.prio ≤ 5) ∧ h.xlated then
    let c := classOf s h.addr
    { h with sclass := c, prio := if h.ctx = 0xFE then 2 else if h.ctx < 0x40 then levelOf s src h.ctx c else h.prio }
  else h

/-- Buffers a packet occupies at an input: its header's, and its data's when it has data (R51). -/
def pktBufs (pl : Plane) (h : Header) (r inPort vc : Nat) : List Nat :=
  let c := vcClass h.prio
  bufKey r inPort (planeIdx pl) c vc :: (if h.len = 0 then [] else [bufKey r inPort (dataPlane pl h) c vc])

/-- A credit is free for each buffer the packet needs at an input (R51, R54). -/
def creditFree (s : State) (pl : Plane) (h : Header) (r inPort vc : Nat) : Bool :=
  let c := vcClass h.prio
  decide (Tab.get 0 s.torus.used (bufKey r inPort (planeIdx pl) c vc) < hdrEntries inPort c) &&
  (h.len == 0 || decide (Tab.get 0 s.torus.used (bufKey r inPort (dataPlane pl h) c vc) < dataEntries inPort c))

def takeCredits (ks : List Nat) (t : Torus) : Torus :=
  { t with used := ks.foldl (fun u k => Tab.mod 0 u k (· + 1)) t.used }

/-- Emptied entries: their credits return later (R54). -/
def dueCredits (ks : List Nat) (t : Torus) : Torus :=
  { t with due := ks.foldl (fun u k => Tab.mod 0 u k (· + 1)) t.due }

/-! Responses (R45, R47, R56) -/

/-- The response header of a request (R45) with a status. -/
def reply (h : Header) (status len : Nat) : Header :=
  { ctx := h.ctx, prio := h.prio, sclass := h.sclass, opcode := h.opcode, dst := h.src, src := h.dst, tag := h.tag,
    len := len, issueTs := h.issueTs, dstSub := h.srcSub, srcSub := h.dstSub, opArg := status }

/-- Removes the accepted request that a response answers. -/
def unaccept (h : Header) (s : State) : State :=
  { s with torus := { s.torus with accepted :=
      (match takeFirst (fun a => a.src == h.src && a.srcSub == h.srcSub && a.tag == h.tag) s.torus.accepted with
       | some (_, l) => l
       | none => s.torus.accepted) } }

/-- An endpoint answers a request: with data units only when the status is OK (R47). -/
def respond (h : Header) (status : Nat) (units : List Unit256) (s : State) : State :=
  if h.noResp then unaccept h s
  else
    let us := if status = 0 then units else []
    emit (.response (reply h status us.length) status us) (unaccept h s)

/-- Answers OK without data. -/
def respondOk (h : Header) (s : State) : State := respond h 0 [] s

/-- Answers with 32 bytes inline, and a word in `OP_DATA`. -/
def respondInline (h : Header) (data : List Byte) (opData : Nat) (s : State) : State :=
  emit (.response { reply h 0 0 with inlineData := data, opData := opData } 0 []) (unaccept h s)

/-- A block sends a request of its own. -/
def request (h : Header) (units : List Unit256) (s : State) : State := emit (.request { h with len := units.length } units) s

/-- MALFORMED_REJECT (R49): the header and its units are discarded and counted, a record is raised, and the
source is answered unless `NO_RESP` is set. -/
def malformedReject (plane : Plane) (src : Nat) (permitted : Bool) (h : Header) (s : State) : State :=
  let p := pageTile (nodeRouter src % 64)
  let s := count p Reg.ROUTER_DROP_MALFORMED 1 s
  let s := raiseErr { page := p, ctx := if permitted ∧ h.ctx < 0x40 then h.ctx else 0, sev := if permitted then 1 else 2,
                      cls := 0x021 } s
  if plane = .rsp ∨ h.noResp then s else emit (.response (reply h 2 0) 2 []) s

/-- Puts a packet into its injection buffer; a request reserves its response storage (R45, R56). -/
def enterTorus (plane : Plane) (src : Nat) (h : Header) (units : List Unit256) (s : State) : State :=
  let r := nodeRouter src
  let ip := 4 + nodePort src
  let t := takeCredits (pktBufs plane h r ip 0) s.torus
  let t := { t with
    pkts := t.pkts ++ [{ plane := plane, hdr := h, units := units, router := r, inPort := ip }]
    outstanding := if plane = .req ∧ !h.noResp then t.outstanding ++ [h] else t.outstanding }
  { s with torus := t }

/-- The most requests a source has outstanding (R57): a slice's bound for snoops is apart from that to memory. -/
def outstandingBound (src : Nat) (h : Header) : Option Nat :=
  match nodeBlock src with
  | some (.engine _) => some 4096
  | some (.home _) => some (if h.opcode / 16 = 5 then 256 else 512)
  | some (.xlate _) => some 64
  | some (.site _) => some 1024
  | _ => none

/-- The source has as many requests outstanding as it may: R57's bounds, and 16 coherent ones of an agent (R239). A
further one waits at the source. -/
def requestsFull (s : State) (src : Nat) (h : Header) : Bool :=
  let co (o : Nat) : Bool := decide (0x40 ≤ o) && decide (o ≤ 0x44)
  let mine := s.torus.outstanding.filter (fun r => r.src == src)
  (co h.opcode && decide (16 ≤ (mine.filter (fun r => r.srcSub == h.srcSub && co r.opcode)).length)) ||
  (!h.noResp && match outstandingBound src h with
    | some n => decide (n ≤ (match nodeBlock src with
        | some (.home _) => (mine.filter (fun r => decide (r.opcode / 16 = 5) == decide (h.opcode / 16 = 5))).length
        | _ => mine.length))
    | none => false)

/-- TOKEN_BUCKET_ADMIT (R281) and the injection credit (R54): the packet enters when both allow it. -/
def tryAdmit (src : Nat) (plane : Plane) (h : Header) (units : List Unit256) (s : State) : Option State :=
  if !creditFree s plane h (nodeRouter src) (4 + nodePort src) 0 || (plane == .req && requestsFull s src h) then none
  else if plane = .req ∧ regulated src h then
    let key := regKey src h.ctx h.sclass
    let b := Tab.get 0 s.regul.buckets key
    let n := requestBytes h
    if b < n then none
    else
      let s := { s with regul := { s.regul with buckets := Tab.ins s.regul.buckets key (b - n) } }
      let s := if h.ctx < 0x40 then setFld (pageCtx h.ctx) (Reg.REG_DECISION_PRIO.at 8 h.sclass) h.prio s else s
      some (enterTorus plane src h units s)
  else some (enterTorus plane src h units s)

/-- Packets that waited at their sources are tried again, oldest first. -/
def admitWaiting (s : State) : State :=
  let w := s.torus.waiting
  w.foldl (fun s e =>
    match tryAdmit e.1 e.2.1 e.2.2.1 e.2.2.2 s with
    | some t => t
    | none => { s with torus := { s.torus with waiting := s.torus.waiting ++ [e] } })
    { s with torus := { s.torus with waiting := [] } }

/-- NODE_DOWN_ANSWER (R59): a request is answered and its data discarded, a response discarded; both are
counted. -/
def nodeDownAnswer (r : Nat) (plane : Plane) (h : Header) (s : State) : State :=
  let s := count (pageTile r) Reg.ROUTER_DROP_NODE_DOWN 1 s
  if plane = .rsp ∨ h.noResp then s else emit (.response (reply h 1 0) 1 []) s

/-- A class M site's adapter refuses a peer request (R356): another context's, or beyond the capacity. -/
def peerRefused (s : State) (p : NetPkt) : Bool :=
  match nodeBlock p.hdr.dst with
  | some (.site i) =>
    p.plane == .req && decide (p.hdr.opcode ≤ 4) &&
      (bindState s (pageSite i) != 1 || bindCtx s (pageSite i) != p.hdr.ctx ||
        decide (fld s (pageSite i) Reg.SITE_DECL0_M_CAPACITY_GIB * 2 ^ 30 ≤ p.hdr.addr))
  | _ => false

/-- KPP flits that carry a packet: 15 slots of 16 bytes each (R347, R349). -/
def packetFlits (units : List Unit256) : Nat :=
  ceilDiv (4 + units.foldl (fun n u => n + 16 + (if u.be.isSome then 2 else 0)) 0) 15

/-- An adapter sends a packet on to its guest: its flits take sequence numbers and credits (R350, R351). -/
def guestFlits (p : NetPkt) (s : State) : State :=
  match nodeBlock p.hdr.dst with
  | some (.site i) =>
    let x := Tab.get {} s.sites i
    let n := packetFlits p.units
    let sys := decide (0x50 ≤ p.hdr.opcode) && decide (p.hdr.opcode < 0x70)
    let cls := if p.plane = .rsp then 3 else if sys then 2 else 0
    let data := if p.plane = .rsp then 4 else 1
    let cr := (List.range 6).map (fun j => (x.credits.getD j 0) - (if j = cls then 1 else 0) -
      (if j = data then (p.units.length : Int) else 0))
    let fl := (List.range n).map (fun j => ({ seq := (x.txNext + j) % 4096, mgmt := false } : SentFlit))
    { s with sites := Tab.put {} s.sites i { x with sent := x.sent ++ fl, txNext := (x.txNext + n) % 4096, credits := cr } }
  | _ => s

/-- A packet reaches its endpoint's port. -/
def deliverPkt (p : NetPkt) (s : State) : State :=
  if isDown s p.hdr.dst then nodeDownAnswer p.router p.plane p.hdr s
  else if peerRefused s p then emit (.response (reply p.hdr 3 0) 3 []) s
  else
    let s := guestFlits p s
    let s := if p.plane = .req ∧ !p.hdr.noResp then
        { s with torus := { s.torus with accepted := s.torus.accepted ++ [p.hdr] } }
      else s
    emit (.delivered p.hdr p.units) s

/-- Packets in router r that head for an output on a plane and could move now, with their places in the
list of packets. -/
def candidates (s : State) (r out : Nat) (plane : Plane) : List (Nat × NetPkt) :=
  ((List.range s.torus.pkts.length).zip s.torus.pkts).filter (fun e =>
    e.2.router == r && e.2.plane == plane && route r e.2.hdr.dst == out &&
    (decide (4 ≤ out) ||
      (!tst (fld s (pageTile (nextRouter r out)) Reg.ROUTER_STATUS_LINK_FAILED) (out ^^^ 1) &&
       creditFree s plane e.2.hdr (nextRouter r out) out (nextVc e.2 out))))

/-- The packet that wins an arbitration (R52): one that has lost 256 in a row, else the highest level,
oldest arrival first. -/
def winner (l : List (Nat × NetPkt)) (starvedOnly : Bool) : Option (Nat × NetPkt) :=
  match l.find? (fun e => decide (256 ≤ e.2.lost)) with
  | some e => some e
  | none =>
    if starvedOnly then none
    else l.foldl (fun b e => match b with
      | none => some e
      | some x => if x.2.hdr.prio < e.2.hdr.prio then some e else b) none

/-- The winner crosses the output: into the next router's buffer, or to the local port; the others have
lost one more arbitration. -/
def grant (r out : Nat) (plane : Plane) (starvedOnly : Bool) (s : State) : State :=
  let cs := candidates s r out plane
  match winner cs starvedOnly with
  | none => s
  | some (i, p) =>
    let losers := (cs.filter (fun e => e.1 != i)).map (fun e => e.1)
    let pkts := ((List.range s.torus.pkts.length).zip s.torus.pkts).filterMap (fun e =>
      if e.1 = i then none else some (if e.1 ∈ losers then { e.2 with lost := e.2.lost + 1 } else e.2))
    let t := dueCredits (pktBufs plane p.hdr r p.inPort p.vc) { s.torus with pkts := pkts }
    if 4 ≤ out then deliverPkt p { s with torus := t }
    else
      let q := { p with router := nextRouter r out, inPort := out, vc := nextVc p out, lost := 0 }
      { s with torus := takeCredits (pktBufs plane q.hdr q.router q.inPort q.vc) { t with pkts := t.pkts ++ [q] } }

/-- One 16-bit count of four in a 64-bit register (R63) rises, saturating. -/
def countLane (p : Nat) (f : Field) (lane n : Nat) (s : State) : State :=
  if flag s p Reg.PAGE_CTRL_COUNTER_FREEZE then s
  else
    let w := fld s p f
    let v := bits w (16 * lane + 15) (16 * lane)
    setFld p f (w - v * 2 ^ (16 * lane) + min (v + n) 0xFFFF * 2 ^ (16 * lane)) s

end Sys2Proof.Machine
end

