-- ==== Sys2Proof/Machine/TorusCmds.lean ====
section
/-! DEFINITION. The commands of the torus chapter (R45 to R60). -/

namespace Sys2Proof.Machine

/-- Presents a header that has passed the checks of R49 to the injection port: it enters the torus, or waits at
its source for tokens or a credit (R281, R54). -/
def accept (src : Nat) (plane : Plane) (h : Header) (units : List Unit256) (s : State) : State :=
  let key := regKey src h.ctx h.sclass
  let s := if plane = .req ∧ regulated src h then
      { s with regul := { s.regul with asked := Tab.mod 0 s.regul.asked key (· + requestBytes h) } } else s
  match tryAdmit src plane h units s with
  | some t => t
  | none => { s with torus := { s.torus with waiting := s.torus.waiting ++ [(src, plane, h, units)] } }

/-- A header at an injection port (R49): stamped, checked, and admitted or rejected as MALFORMED. -/
def inject (src : Nat) (plane : Plane) (h : Header) (units : List Unit256) (s : State) : State :=
  let h := stampSource s plane src { h with len := if h.len ≤ 16 then units.length else h.len }
  let permitted := ctxPermitted s src h
  if (nodeBlock src).isNone then s
  else if !permitted || !headerOk s plane src h then malformedReject plane src permitted h s
  else accept src plane h units s

/-- R49, R281: a source presents a header and its data units at its injection port. A refused one is
answered MALFORMED; one without tokens or a credit waits at its source. -/
def execInjectHeader (src : Nat) (plane : Plane) (h : Header) (units : List Unit256) (s : State) : Res :=
  .next (inject src plane h units s)

/-- R51 to R54: one arbitration for an output of a router on a header plane. -/
def execRouterArbitrate (router out : Nat) (plane : Plane) (s : State) : Res := .next (grant router out plane false s)

/-- R52: the packet that has lost 256 arbitrations in a row at an output wins it. -/
def execArbitrationStarvation (router out : Nat) (plane : Plane) (s : State) : Res :=
  .next (grant router out plane true s)

/-- R59: an endpoint goes down, with its power domain where that is the cause. Requests in its bridge and those it had accepted are answered NODE_DOWN. -/
def execEndpointDown (node : Nat) (cause : DownCause) (s : State) : Res :=
  let s := match cause, (nodeBlock node).bind blockDomain with
    | .powerOff, some d => setDomain d false s
    | _, _ => { s with torus := { s.torus with down := addNew s.torus.down node } }
  let s := match nodeBlock node, cause with
    | some (.site i), .fenced => setFld (pageSite i) Reg.PAGE_STATUS_FENCED 1 s
    | _, _ => s
  let mine := s.torus.accepted.filter (fun h => h.dst == node)
  let s := { s with torus := { s.torus with accepted := s.torus.accepted.filter (fun h => h.dst != node) } }
  .next (mine.foldl (fun s h => nodeDownAnswer (nodeRouter node % 64) .req h s) s)

/-- R55: the receiver of a link checks a beat. The fourth uncorrectable arrival of one beat, its third
replay, fails the link: class 0x020, DEVICE. -/
def execLinkBeatReceive (router dir : Nat) (check : BeatCheck) (s : State) : Res :=
  let key := router * 4 + dir
  let p := pageTile router
  let clear (s : State) : State := { s with torus := { s.torus with replays := Tab.del s.torus.replays key } }
  if 64 ≤ router ∨ 4 ≤ dir then .next s
  else match check with
    | .clean => .next (clear s)
    | .corrected n => .next (countLane p Reg.LINK_CORRECTED dir n (clear s))
    | .uncorrectable =>
      let n := Tab.get 0 s.torus.replays key
      if n < 3 then
        .next (emit (.linkReplay router dir) (countLane p Reg.LINK_REPLAYS dir 1
          { s with torus := { s.torus with replays := Tab.put 0 s.torus.replays key (n + 1) } }))
      else
        let s := setFld p Reg.ROUTER_STATUS_LINK_FAILED (setBit (fld s p Reg.ROUTER_STATUS_LINK_FAILED) dir) (clear s)
        .next (raiseErr { page := p, sev := 3, cls := 0x020 } s)

/-- R54: a credit of an emptied buffer entry returns to its sender. -/
def execCreditReturn (buffer : Nat) (s : State) : Res :=
  let d := Tab.get 0 s.torus.due buffer
  if d = 0 then .next s
  else
    let t := { s.torus with due := Tab.put 0 s.torus.due buffer (d - 1),
                            used := Tab.mod 0 s.torus.used buffer (· - 1) }
    .next (admitWaiting { s with torus := t })

/-- A guest site adapter restores the guest's tag on a response (R349). -/
def restoreTag (node : Nat) (h : Header) (s : State) : Header × State :=
  match nodeBlock node with
  | some (.site i) =>
    let x := Tab.get {} s.sites i
    ({ h with tag := Tab.get h.tag x.tags h.tag },
     { s with sites := Tab.put {} s.sites i { x with tags := Tab.del x.tags h.tag } })
  | _ => (h, s)

/-- R45, R48, R60, R283: a response reaches its requester. `clock` is the requester's NCLK counter, `age`
the request's age by its tracker, in NCLK cycles. A sealed context's response to a regulated request is
held to its pace (R302). What waited at its source for the request's end is tried again (R57). -/
def execResponseArrival (node : Nat) (h : Header) (units : List Unit256) (clock age : Nat) (s : State) : Res :=
  let st := h.opArg % 256
  let h := if 6 < st then { h with opArg := h.opArg - st + 2 } else h
  match takeFirst (fun r => r.src == node && r.srcSub == h.dstSub && r.tag == h.tag) s.torus.outstanding with
  | none =>
    let p := pageTile (nodeRouter node % 64)
    .next (raiseErr { page := p, cls := 0x022 } (count p Reg.ROUTER_UNEXPECTED_COUNT 1 s))
  | some (r, rest) =>
    let s := { s with torus := { s.torus with outstanding := rest } }
    let (h, s) := restoreTag node h s
    let cycles := if 65535 < age then 65535 else (clock % 65536 + 65536 - h.issueTs % 65536) % 65536
    let reg := regulated node r && decide (r.ctx < 0x40)
    let s := if reg then latencySample node r.ctx r.sclass (cycles / 2) s else s
    let out (s : State) : State := emit (.delivered h (if h.opArg % 256 = 0 then units else [])) s
    if reg ∧ isSealed s r.ctx then
      let c := ctx s r.ctx
      let pace := 2000 * (match poolOf r.addr with | 0 => c.paceHbm | 1 => c.pacePeat | _ => c.paceHost)
      if pace = 0 then .next (admitWaiting (out s))
      else .next (admitWaiting (setCtx r.ctx { c with paced := c.paced ++ [(h, units, pace * max 1 (ceilDiv age pace))] } s))
    else .next (admitWaiting (out s))

end Sys2Proof.Machine
end

