-- ==== Sys2Proof/Machine/HubCache.lean ====
section
/-! DEFINITION. The HBM controllers' service of FILL, WRITEBACK, MC_RD32 and MC_WR32 (R203, R209, R210,
R218, R222), and the homes: the hub cache and the directory (R212 to R219, R243 to R249). -/

namespace Sys2Proof.Machine

/-! Controllers -/

/-- The controller node for an address: the first listed for an even channel, the second for an odd one (R42). -/
def hbmNode (s : State) (pa : Nat) : Nat :=
  match placeOf s pa with
  | none => 0
  | some (ch, _) =>
    let ns := (edgeTable.filter (fun e => e.2 == Blk.hbm (ch / 32))).map (fun e => e.1)
    (ns.drop (ch % 2)).headD 0

/-- Counts a corrected error of a channel in the current second (R211). -/
def countCorrected (ch : Nat) (s : State) : State :=
  let x := channel s ch
  setChannel ch (if x.correctedSec = s.time.sec then { x with correctedNow := x.correctedNow + 1 }
    else { x with correctedSec := s.time.sec, correctedNow := 1 }) s

/-- ECC_CORRECTED (R209): counted, and a CORRECTED record against the requester. -/
def eccCorrected (c pa symbol : Nat) (s : State) : State :=
  match placeOf s pa with
  | none => s
  | some (ch, _) =>
    let p := pageHbm (ch / 32)
    let s := countCorrected ch (count p Reg.ECC_COUNTS_CORRECTED 1 s)
    raiseErr { page := p, ctx := if c < 0x40 then c else 0, cls := 0x030, addr := pa, addrValid := true,
               detail := hbmDetail s pa symbol } s

/-- What DRAM shows in a sector as a controller reads it. -/
def senseSector (c pa : Nat) (check : SectorCheck) (s : State) : State :=
  match check with
  | .clean => s
  | .corrected y => eccCorrected c pa y s
  | .uncorrectable => markBad pa s

/-- Sectors of a mask over `w` sectors from `base`. -/
def maskSectors (base mask w : Nat) : List Nat := (setBits mask w).map (fun i => base + 32 * i)

/-- A controller's read of sectors: the status to answer with, after what it raises (R203, R210, R221). -/
def mcRead (c base mask w : Nat) (s : State) : State × Nat :=
  if unreachable s base then (unreachableData c base none s, 4)
  else if !allowed s c base then (ownerViolation c base none s, 3)
  else match (maskSectors base mask w).find? (isBad s) with
    | some pa => (uncorrectable c pa none s, 4)
    | none => (s, 0)

/-- The bytes memory holds in the sectors of a mask, zeros elsewhere. -/
def memSectors (s : State) (base mask w : Nat) : List Byte :=
  (List.range (32 * w)).map (fun i => if tst mask (i / 32) then s.mem.read (base + i) else 0)

/-- Writes one sector into memory: a partial write to a bad sector is discarded and handled as an
uncorrectable read; a full write clears its mark (R210). Answers whether it was discarded. -/
def mcWriteSector (c pa : Nat) (data : List Byte) (en : List Bool) (s : State) : State × Bool :=
  let full := en.all id
  if isBad s pa && !full then (uncorrectable c pa none s, true)
  else
    let s := setMem (s.mem.writes pa data en) s
    (if full then clearBad pa s else s, false)

/-- Writes the sectors of a mask into memory. -/
def mcWriteMask (c base : Nat) (data : List Byte) (mask w : Nat) (s : State) : State :=
  (setBits mask w).foldl (fun s i => (mcWriteSector c (base + 32 * i) (slice data (32 * i) 32) [] s).1) s

/-- A controller's write with its checks; answers the status. -/
def mcWrite (c base : Nat) (data : List Byte) (mask w : Nat) (s : State) : State × Nat :=
  if unreachable s base then (unreachableData c base none s, 4)
  else if !allowed s c base then (ownerViolation c base none s, 3)
  else (mcWriteMask c base data mask w s, 0)

/-- The byte enables of a narrow write, in `OP_DATA`[223:192] (R44). -/
def narrowEnables (h : Header) : List Bool := (List.range 32).map (tst (h.opData % 2 ^ 32))

/-- Adds elements of a format, each rounded once (R180, R218). -/
def addElems (fmt : Nat) (old new : List Byte) : List Byte :=
  let w := Num.elemBits fmt / 8
  (List.range (32 / w)).flatMap (fun i =>
    leBytes w (Num.convert fmt false (Num.add (Num.decode fmt (leAt old (w * i) w)) (Num.decode fmt (leAt new (w * i) w)))).code)

/-- Serves a request at its controller: FILL, WRITEBACK, MC_RD32, MC_WR32 (R218). Bit 4 of `OP_ARG` marks an
MC_WR32 that adds (DESIGN CHOICE, log entry 7). -/
def mcServe (h : Header) (units : List Unit256) (s : State) : State :=
  let line := h.addr / 128 * 128
  let sec := h.addr / 32 * 32
  let bytes := (units.headD {}).bytes
  if h.opcode = 0x10 then
    let (s, st) := mcRead h.ctx line (h.opArg % 16) 4 s
    respond h st [{ bytes := memSectors s line (h.opArg % 16) 4 ++ List.replicate 128 0 }] s
  else if h.opcode = 0x11 then
    let (s, st) := mcWrite h.ctx line bytes (h.opArg % 16) 4 s
    respond h st [] s
  else if h.opcode = 0x12 then
    let (s, st) := mcRead h.ctx sec 1 1 s
    if st = 0 then respondInline h (memSectors s sec 1 1) 0 s else respond h st [] s
  else if unreachable s sec then respond h 4 [] (unreachableData h.ctx sec none s)
  else if !allowed s h.ctx sec then respond h 3 [] (ownerViolation h.ctx sec none s)
  else if tst h.opArg 4 then
    if isBad s sec then respond h 4 [] (uncorrectable h.ctx sec none s)
    else respondOk h (mcWriteSector h.ctx sec
      (addElems (h.opArg % 16) (memSectors s sec 1 1) (slice h.inlineData 0 32)) [] s).1
  else
    let (s, bad) := mcWriteSector h.ctx sec (slice h.inlineData 0 32) (narrowEnables h) s
    respond h (if bad then 4 else 0) [] s

/-- A channel takes a request now: it is not paused for a retrain, and the slot it is in serves the
request's context (R222, R289). -/
def channelOpen (s : State) (ch c : Nat) : Bool :=
  !(channel s ch).paused &&
  (let slot := Tab.get 0 s.hbm.slotNow ch
   let mine := decide (c < 0x40) && isSealed s c && !(Tab.get [] s.regul.slotPos (c * 384 + ch)).isEmpty
   if mine then slot == c + 1 else slot == 0)

/-- Requests waiting at a channel. -/
def queueOf (s : State) (ch : Nat) : List (Header × List Unit256) := Tab.get [] s.hbm.queues ch
def setQueue (ch : Nat) (q : List (Header × List Unit256)) (s : State) : State :=
  { s with hbm := { s.hbm with queues := Tab.put [] s.hbm.queues ch q } }

/-- A request reaches its controller: served, or held in its channel's queue. Where no region holds the address, nothing
owns it (R196); a peat or host address is MALFORMED, as at a home (R218). -/
def mcArrive (h : Header) (units : List Unit256) (check : SectorCheck) (s : State) : State :=
  match placeOf s h.addr with
  | none => if isPeat h.addr || isHost h.addr then respond h 2 [] s else respond h 3 [] (ownerViolation h.ctx h.addr none s)
  | some (ch, _) =>
    let s := senseSector h.ctx (h.addr / 32 * 32) check s
    if channelOpen s ch h.ctx then mcServe h units s else setQueue ch (queueOf s ch ++ [(h, units)]) s

/-- Serves what waits at a channel and may be served now, oldest first. -/
def drainChannel (ch : Nat) (s : State) : State :=
  let q := queueOf s ch
  q.foldl (fun s e => if channelOpen s ch e.1.ctx then mcServe e.1 e.2 s else setQueue ch (queueOf s ch ++ [e]) s)
    (setQueue ch [] s)

/-! Homes: lines and ways -/

def homeKey (pa : Nat) : Nat := pa / 128
def homeLine (s : State) (pa : Nat) : HomeLine := Tab.get {} s.coh.homes (homeKey pa)

/-- Entries of the coherent request table (R239, R251): the coherent requests in hand and queued at lines of slice n. -/
def cohOccupancy (s : State) (n : Nat) : Nat :=
  let coherent (r : HomeReq) : Bool := match r with
    | .rdShared _ _ | .rdOwn _ _ | .upgrade _ _ => true
    | _ => false
  s.coh.homes.foldl (fun m e =>
    if sliceOf (e.1 * 128) = n then
      m + (e.2.queue.filter coherent).length + b2n (match e.2.inHand with | some r => coherent r | none => false)
    else m) 0

/-- Writes a line's transient state; `COH_TABLE.PEAK` follows the occupancy (R251). -/
def setHomeLine (pa : Nat) (h : HomeLine) (s : State) : State :=
  let s := { s with coh := { s.coh with homes := Tab.put {} s.coh.homes (homeKey pa) h } }
  let n := sliceOf pa
  let o := min (cohOccupancy s n) 640
  if fld s (pageTile n) Reg.COH_TABLE_PEAK < o then setFld (pageTile n) Reg.COH_TABLE_PEAK o s else s

def HomeState.transient : HomeState → Bool
  | .if_ | .snpS | .snpI => true
  | _ => false

def isTransient (s : State) (pa : Nat) : Bool := (homeLine s pa).state.transient

/-- Puts a request at the end of a line's queue. -/
def queueHome (pa : Nat) (r : HomeReq) (s : State) : State :=
  let h := homeLine s pa
  setHomeLine pa { h with queue := h.queue ++ [r] } s

/-- A line leaves the stable states with a request in hand. -/
def beginHome (pa : Nat) (st : HomeState) (pending : Nat) (r : HomeReq) (s : State) : State :=
  setHomeLine pa { homeLine s pa with state := st, pending := pending, inHand := some r } s

/-- The tile page of an address's home. -/
def homePage (pa : Nat) : Nat := pageTile (sliceOf pa)
def homeNode (pa : Nat) : Nat := blockNode (.home (sliceOf pa))

/-- The node and sub-agent of a caching agent (R237). -/
def agentNode (a : Nat) : Nat × Nat :=
  if a < 32 then (blockNode (.site (a / 4)), a % 4) else (blockNode (.core (a - 32)), 0)

/-- A snoop's header. -/
def snoopHeader (c pa a : Nat) (inv : Bool) : Header :=
  { ctx := c, prio := 6, opcode := if inv then 0x51 else 0x50, dst := (agentNode a).1, dstSub := (agentNode a).2,
    src := homeNode pa, tag := pa / 128 % 65536, addr := lineBase pa, xlated := true }

/-- Sends snoops for a line to agents, counted (R251). -/
def sendSnoops (l : Line) (agents : Nat) (inv : Bool) (s : State) : State :=
  (setBits agents 40).foldl (fun s a =>
    request (snoopHeader l.ctx l.pa a inv) [] (count (homePage l.pa) Reg.COH_COUNTS_SNOOPS 1 s)) s

/-- A snoop phase starts for a request. -/
def snoopFor (l : Line) (agents : Nat) (inv : Bool) (r : HomeReq) (s : State) : State :=
  sendSnoops l agents inv (beginHome l.pa (if inv then .snpI else .snpS) agents r s)

/-- The ways a context's lines may occupy (R217). -/
def waysOf (s : State) (c : Nat) : Nat :=
  let own := if c < 0x40 then fld s (pageCtx c) Reg.CACHE_POLICY_WAY_MASK else 0
  if own ≠ 0 then own
  else 0xFFFF - (List.range 64).foldl (fun m k => m ||| fld s (pageCtx k) Reg.CACHE_POLICY_WAY_MASK) 0

/-- The `KEEP` quota of a context (R214). -/
def keepQuota (s : State) (c : Nat) : Nat := if c < 0x40 then min 8 (fld s (pageCtx c) Reg.CACHE_POLICY_KEEP_WAYS) else 0

/-- Marked lines of a context in a set. -/
def keepCount (ls : List Line) (c : Nat) : Nat := (ls.filter (fun l => l.keep && l.ctx == c)).length

/-- The last element of a list that satisfies `p`: the least recent. -/
def lastSome (p : Line → Bool) (ls : List Line) : Option Line := ls.reverse.find? p

/-- Marks a line `KEEP`; over the quota, the mark of the context's least recent marked line goes (R214). -/
def markKeep (l : Line) (s : State) : State :=
  let s := putLine { l with keep := true } s
  let ls := linesOf s l.pa
  if keepQuota s l.ctx < keepCount ls l.ctx then
    match lastSome (fun x => x.keep && x.ctx == l.ctx) ls with
    | some v => putLine { v with keep := false } s
    | none => s
  else s

/-- A hit moves the line as its hint says (R214). -/
def touchLine (l : Line) (hint : Nat) (s : State) : State :=
  if hint = 1 then s
  else
    let s := setLines l.pa (l :: (linesOf s l.pa).filter (fun x => x.pa != l.pa)) s
    if hint = 2 then markKeep l s else s

/-- Writes back the dirty sectors that are not marked `DISCARD` and frees the line (R213). -/
def freeLine (l : Line) (s : State) : State :=
  let mask := (List.range 4).foldl (fun m i => if tst l.dirty i && !tst l.discard i then m + 2 ^ i else m) 0
  let s := dropLine l.pa s
  if mask = 0 then s else (mcWrite l.ctx l.pa l.data mask 4 s).1

/-- What a request finds when it needs a way (R213): a way, a victim with listed copies whose
invalidation it must await, or no candidate. -/
inductive Room where
  | way (w : Nat) (s : State)
  | victim (l : Line)
  | busy (l : Line)
  | none_

def makeRoom (pa c : Nat) (s : State) : Room :=
  let ways := waysOf s c
  let ls := linesOf s pa
  match (setBits ways 16).find? (fun w => !ls.any (fun l => l.way == w)) with
  | some w => .way w s
  | none =>
    let mine := ls.filter (fun l => tst ways l.way)
    let free := mine.filter (fun l => !isTransient s l.pa)
    let v := match lastSome (fun l => !l.keep) free with
      | some v => some v
      | none => match lastSome (fun l => decide (keepQuota s l.ctx < keepCount ls l.ctx)) free with
        | some v => some v
        | none => free.getLast?
    match v with
    | some v => if v.dir = 0 then .way v.way (freeLine v s) else .victim v
    | none => match mine.head? with
      | some b => .busy b
      | none => .none_

/-- Adds a line to its set: first, or last for `STREAM`; marked when `KEEP`. -/
def addLine (l : Line) (hint : Nat) (s : State) : State :=
  let ls := linesOf s l.pa
  let s := setLines l.pa (if hint = 1 then ls ++ [l] else l :: ls) s
  if hint = 2 then markKeep l s else s

/-- `STREAM` allocates only into an invalid or clean way (R214). -/
def streamRoom (pa c : Nat) (s : State) : Bool :=
  let ways := waysOf s c
  let ls := linesOf s pa
  (setBits ways 16).any (fun w => match ls.find? (fun l => l.way == w) with
    | none => true
    | some l => l.dirty == 0 && l.dir == 0 && !isTransient s l.pa)

def emptyLine (pa c w : Nat) : Line := { pa := lineBase pa, way := w, ctx := c, data := List.replicate 128 0 }

/-- A request waits for room: behind the invalidation of a victim's copies, or of a busy line. -/
def awaitRoom (room : Room) (r : HomeReq) (s : State) : State :=
  match room with
  | .victim v => queueHome v.pa r (snoopFor v v.dir true .victim s)
  | .busy b => queueHome b.pa r s
  | _ => s

/-- Asks the controller for sectors of a line and waits in `I_F` (R218, R243). -/
def askFill (h : Header) (pa mask : Nat) (r : HomeReq) (s : State) : State :=
  let s := beginHome (lineBase pa) .if_ 0 r s
  request { ctx := h.ctx, prio := h.prio, sclass := h.sclass, opcode := 0x10, dst := hbmNode s pa, src := homeNode pa,
            tag := pa / 128 % 65536, addr := lineBase pa, xlated := true, opArg := mask } [] s

/-! Homes: reads -/

/-- Sectors of the granule that a read wants. -/
def readMask (h : Header) : Nat := if h.opcode = 0x02 then 2 ^ (h.addr % 256 / 32) else h.opArg % 256

/-- Answers a read once all its sectors are gathered. -/
def answerRead (h : Header) (data : List Byte) (s : State) : State :=
  if h.opcode = 0x02 then respondInline h (slice data (h.addr % 256 / 32 * 32) 32) 0 s
  else respond h 0 [{ bytes := data }] s

/-- Merges line sectors into a granule's bytes. -/
def gather (data : List Byte) (i mask : Nat) (line : List Byte) : List Byte :=
  (List.range 256).map (fun j =>
    if j / 128 = i ∧ tst mask (j % 128 / 32) then (line.drop (j % 128)).headD 0 else (data.drop j).headD 0)

/-- R215: marks sectors read for the last time; a line whose valid sectors are all marked is dropped
without write-back. -/
def discardRead (l : Line) (mask : Nat) (s : State) : State :=
  let l := { l with discard := l.discard ||| mask }
  if l.valid &&& l.discard = l.valid then dropLine l.pa s else putLine l s

/-- A non-caching read at its home, line by line (R214, R215, R219, R243, R248). -/
def serveRead (h : Header) : List Nat → Nat → List Byte → State → State
  | [], _, data, s => answerRead h data s
  | i :: rest, got, data, s =>
    let pa := h.addr / 256 * 256 + 128 * i
    let need := bits (readMask h) (4 * i + 3) (4 * i)
    let left := need - (need &&& bits got (4 * i + 3) (4 * i))
    if left = 0 then serveRead h rest got data s
    else if isTransient s pa then queueHome pa (.read h got data) s
    else match findLine s pa with
      | some l =>
        if l.ctx ≠ h.ctx then respond h 3 [] (ownerViolation h.ctx pa none s)
        else if l.excl then snoopFor l l.dir false (.read h got data) s
        else if left &&& l.valid = left then
          let s' := touchLine l h.hint s
          let s' := if h.hint = 3 ∧ h.lastRead ∧ l.dir = 0 then
              match findLine s' pa with | some l => discardRead l left s' | none => s'
            else s'
          serveRead h rest (got ||| left * 2 ^ (4 * i)) (gather data i left l.data) s'
        else if h.opcode = 0x02 ∧ l.dir = 0 then
          let (s, st) := mcRead h.ctx (h.addr / 32 * 32) 1 1 s
          if st = 0 then respondInline h (memSectors s (h.addr / 32 * 32) 1 1) 0 s else respond h st [] s
        else askFill h pa (left - (left &&& l.valid)) (.read h got data) s
      | none =>
        if h.opcode = 0x02 then
          let (s, st) := mcRead h.ctx (h.addr / 32 * 32) 1 1 s
          if st = 0 then respondInline h (memSectors s (h.addr / 32 * 32) 1 1) 0 s else respond h st [] s
        else if h.hint = 1 ∧ !streamRoom pa h.ctx s then askFill h pa left (.read h got data) s
        else match makeRoom pa h.ctx s with
          | .way w s => askFill h pa left (.read h got data) (addLine (emptyLine pa h.ctx w) h.hint s)
          | .none_ => askFill h pa left (.read h got data) s
          | room => awaitRoom room (.read h got data) s

/-! Homes: writes and adds -/

/-- Writes a portion of one line that no agent lists (R210, R215, R248): sectors valid in the slice or
written whole go into the slice, a partial write of another reads the sector first. -/
def writeInLine (c pa : Nat) (data : List Byte) (en : List Bool) (s : State) : State × Bool :=
  (List.range 4).foldl (fun (r : State × Bool) i =>
    let base := lineBase pa + 32 * i
    let en' (j : Nat) : Bool := decide (pa ≤ base + j) && decide (base + j < pa + data.length) &&
      (en.drop (base + j - pa)).headD true
    let ens := (List.range 32).map en'
    if !ens.any id then r
    else
      let new := (List.range 32).map (fun j => (data.drop (base + j - pa)).headD 0)
      match findLine r.1 pa with
      | none => ((mcWriteSector c base new ens r.1).1, r.2 || (mcWriteSector c base new ens r.1).2)
      | some l =>
        if !tst l.valid i && !ens.all id && isBad r.1 base then (uncorrectable c base none r.1, true)
        else
          let old := if tst l.valid i then slice l.data (32 * i) 32 else memSectors r.1 base 1 1
          let l' := { l with data := patch (patch l.data (32 * i) old []) (32 * i) new ens,
                             valid := setBit l.valid i, dirty := setBit l.dirty i, discard := clrBit l.discard i }
          (putLine l' r.1, r.2)) (s, false)

/-- A whole line is written, every byte enabled. -/
def wholeLine (data : List Byte) (en : List Bool) : Bool := data.length == 128 && en.all id

/-- An invalidating write at its home, line by line (R214, R219, R243, R248). -/
def serveWrite (h : Header) : Nat → Nat → List Byte → List Bool → Bool → State → State
  | 0, _, _, _, bad, s => respond h (if bad then 4 else 0) [] s
  | n + 1, pa, data, en, bad, s =>
    if data.isEmpty then respond h (if bad then 4 else 0) [] s
    else
      let len := min data.length (128 - pa % 128)
      let d := data.take len
      let e := if en.isEmpty then [] else en.take len
      let again (s : State) (b : Bool) : State := serveWrite h n (pa + len) (data.drop len) (en.drop len) (bad || b) s
      if isTransient s pa then queueHome pa (.write h pa data en bad) s
      else match findLine s pa with
        | some l =>
          if l.ctx ≠ h.ctx then respond h 3 [] (ownerViolation h.ctx pa none s)
          else if l.dir ≠ 0 then snoopFor l l.dir true (.write h pa data en bad) s
          else
            let (s, b) := writeInLine h.ctx pa d e (touchLine l h.hint s)
            again s b
        | none =>
          if unreachable s pa then respond h 4 [] (unreachableData h.ctx pa none s)
          else if !allowed s h.ctx pa then respond h 3 [] (ownerViolation h.ctx pa none s)
          else if h.opcode = 0x03 ∨ (h.hint = 1 ∧ wholeLine d e) then
            let (s, b) := writeInLine h.ctx pa d e s
            again s b
          else match makeRoom pa h.ctx s with
            | .way w s =>
              let (s, b) := writeInLine h.ctx pa d e (addLine (emptyLine pa h.ctx w) h.hint s)
              again s b
            | .none_ =>
              let (s, b) := writeInLine h.ctx pa d e s
              again s b
            | room => awaitRoom room (.write h pa data en bad) s

/-- A narrow add at its home: in the slice on a hit, atomically at the controller on a miss (R219). -/
def serveAdd (h : Header) (s : State) : State :=
  let sec := h.addr / 32 * 32
  let fmt := h.opArg % 16
  if isTransient s sec then queueHome sec (.add h) s
  else match findLine s sec with
    | some l =>
      if l.ctx ≠ h.ctx then respond h 3 [] (ownerViolation h.ctx sec none s)
      else if l.dir ≠ 0 then snoopFor l l.dir true (.add h) s
      else if tst l.valid (sectorIn sec) then
        let new := addElems fmt (slice l.data (sec % 128) 32) (slice h.inlineData 0 32)
        let (s, _) := writeInLine h.ctx sec new [] (touchLine l h.hint s)
        respondOk h s
      else
        let (s, st) := mcRead h.ctx sec 1 1 s
        if st ≠ 0 then respond h st [] s
        else respondOk h (mcWriteSector h.ctx sec (addElems fmt (memSectors s sec 1 1) (slice h.inlineData 0 32)) [] s).1
    | none =>
      let (s, st) := mcRead h.ctx sec 1 1 s
      if st ≠ 0 then respond h st [] s
      else respondOk h (mcWriteSector h.ctx sec (addElems fmt (memSectors s sec 1 1) (slice h.inlineData 0 32)) [] s).1

/-- A PTE_UPDATE at its home (R257, R259): `INLINE` holds the expected entry and the new one; the entry found
is answered whether or not it matched. -/
def servePte (h : Header) (s : State) : State :=
  let pa := h.addr / 8 * 8
  let sec := pa / 32 * 32
  let want := leAt h.inlineData 0 8
  let new := leBytes 8 (leAt h.inlineData 8 8)
  if isTransient s pa then queueHome pa (.pte h) s
  else
    let direct (s : State) : State :=
      let (s, st) := mcRead h.ctx sec 1 1 s
      if st ≠ 0 then respond h st [] s
      else
        let found := leAt (memSectors s sec 1 1) (pa % 32) 8
        let en := (List.range 32).map (fun i => decide (pa % 32 ≤ i ∧ i < pa % 32 + 8))
        let s := if found = want then
            (mcWriteSector h.ctx sec (List.replicate (pa % 32) 0 ++ new ++ List.replicate (24 - pa % 32) 0) en s).1 else s
        respondInline h [] found s
    match findLine s pa with
    | some l =>
      if l.ctx ≠ h.ctx then respond h 3 [] (ownerViolation h.ctx pa none s)
      else if l.dir ≠ 0 then snoopFor l l.dir true (.pte h) s
      else if tst l.valid (sectorIn pa) then
        let found := leAt l.data (pa % 128) 8
        respondInline h [] found (if found = want then (writeInLine h.ctx pa new [] s).1 else s)
      else direct s
    | none => direct s

/-! Homes: coherent requests (R241, R243, R244) -/

/-- Answers a coherent request with a grant: state 1 S, 2 E, 3 M. The line moves to MRU, as on any hit (R214). -/
def grantTo (h : Header) (st : Nat) (l : Line) (withData : Bool) (s : State) : State :=
  let s := match findLine s l.pa with | some x => touchLine x 0 s | none => s
  let us := if withData then [{ bytes := l.data ++ List.replicate 128 0 }] else []
  emit (.response { reply h 0 us.length with opData := st + 4 * b2n withData } 0 us) (unaccept h s)

/-- A breach (R245): answered MALFORMED, counted, a RESOURCE record; its containment follows. -/
def breach (a pa st : Nat) (h : Header) (s : State) : State :=
  let p := homePage pa
  let s := respond h 2 [] (count p Reg.COH_FAULTS_BREACH 1 s)
  raiseErr { page := p, sev := 2, cls := 0x040, addr := pa, addrValid := true,
             detail := a + h.opcode * 2 ^ 6 + st * 2 ^ 14 }
    { s with coh := { s.coh with breaches := s.coh.breaches ++ [(a, false)] } }

/-- The line takes an owner and the request its grant. -/
def grantOwner (a : Nat) (l : Line) (h : Header) (st : Nat) (withData : Bool) (s : State) : State :=
  grantTo h st l withData (putLine { l with dir := 2 ^ a, excl := true } s)

/-- A coherent request with whole-line data needed: room and a fill first (R243). -/
def fillThen (a pa : Nat) (h : Header) (r : HomeReq) (own : Bool) (s : State) : State :=
  match findLine s pa with
  | some l =>
    if l.valid = 0xF then grantOwner a l h (if own then 3 else 2) true s
    else askFill h pa (0xF - l.valid) r s
  | none =>
    match makeRoom pa h.ctx s with
    | .way w s => askFill h pa 0xF r (addLine (emptyLine pa h.ctx w) 0 s)
    | .none_ => askFill h pa 0xF r s
    | room => awaitRoom room r s

/-- A coherent request arrives at a line (R243): kind 0 `RD_SHARED`, 1 `RD_OWN`, 2 `UPGRADE`. -/
def serveCoherent (kind a : Nat) (h : Header) (s : State) : State :=
  let pa := lineBase h.addr
  let r : HomeReq := if kind = 0 then .rdShared a h else if kind = 1 then .rdOwn a h else .upgrade a h
  if isTransient s pa then queueHome pa r s
  else match findLine s pa with
    | some l =>
      if l.ctx ≠ h.ctx then respond h 3 [] (ownerViolation h.ctx pa none s)
      else if l.dir = 0 then fillThen a pa h r (kind != 0) s
      else if l.excl then
        if tst l.dir a then breach a pa 3 h s
        else snoopFor l l.dir (kind != 0) r s
      else if kind = 0 then
        if tst l.dir a then breach a pa 2 h s
        else if l.valid = 0xF then grantTo h 1 l true (putLine { l with dir := setBit l.dir a } s)
        else askFill h pa (0xF - l.valid) r s
      else
        let others := clrBit l.dir a
        if others = 0 then
          if kind = 2 then grantOwner a l h 3 false s
          else if l.valid = 0xF then grantOwner a l h 3 true s else askFill h pa (0xF - l.valid) r s
        else snoopFor l others true r s
    | none => fillThen a pa h r (kind != 0) s

/-- A victim, an ash or a recall of one line (R243, R249): an ash or a recall waits for a transient line. -/
def withdrawLine (r : HomeReq) (l : Line) (s : State) : State :=
  if isTransient s l.pa then queueHome l.pa r s
  else if l.dir ≠ 0 then snoopFor l l.dir true r s
  else match r with
    | .ash _ => dropLine l.pa s
    | .victim => freeLine l s
    | _ => s

/-- `withdrawLine` of the line at an address, if it is there. -/
def withdrawAt (r : HomeReq) (pa : Nat) (s : State) : State :=
  match findLine s pa with
  | some l => withdrawLine r l s
  | none => s

/-- A request arrives at its home, or is taken from a line's queue as if it had just arrived (R244). -/
def homeArrive (r : HomeReq) (s : State) : State :=
  match r with
  | .rdShared a h => serveCoherent 0 a h s
  | .rdOwn a h => serveCoherent 1 a h s
  | .upgrade a h => serveCoherent 2 a h s
  | .read h got data => serveRead h [0, 1] got data s
  | .write h pa data en bad => serveWrite h 3 pa data en bad s
  | .add h => serveAdd h s
  | .pte h => servePte h s
  | .ash pa => withdrawAt r pa s
  | .recall pa => withdrawAt r pa s
  | .victim => s

/-- The requests that waited at a line that is stable again are taken first in, first out. -/
def drainHome (q : List HomeReq) (s : State) : State := q.foldl (fun s r => homeArrive r s) s

/-- A snoop phase of a line has ended: the request in hand completes (R244), and the queue follows. -/
def completeHome (pa : Nat) (s : State) : State :=
  let h := homeLine s pa
  let s := setHomeLine pa {} s
  let s := match h.inHand with
    | none => s
    | some r =>
      match r, findLine s pa with
      | .victim, some l => freeLine { l with dir := 0, excl := false } s
      | .ash _, some _ => dropLine pa s
      | .recall _, some l =>
        let s := putLine { l with excl := false } s
        count (homePage pa) Reg.COH_RECALL_LINES 1 s
      | .rdOwn a hd, some l =>
        if l.valid = 0xF ∧ clrBit l.dir a = 0 then grantOwner a l hd 3 true s else homeArrive r s
      | .upgrade a hd, some l =>
        if clrBit l.dir a = 0 ∧ tst l.dir a then grantOwner a l hd 3 false s
        else if clrBit l.dir a = 0 ∧ l.valid = 0xF then grantOwner a l hd 3 true s
        else homeArrive r s
      | r, _ => homeArrive r s
  drainHome h.queue s

/-- A snoop answer reaches its home (R243, R247). -/
def snoopAnswer (a pa : Nat) (keepsS lost : Bool) (dirty : Nat) (data : List Byte) (s : State) : State :=
  let pa := lineBase pa
  let h := homeLine s pa
  if (h.state = .snpS ∨ h.state = .snpI) ∧ tst h.pending a then
    match findLine s pa with
    | none => setHomeLine pa { h with pending := clrBit h.pending a } s
    | some l =>
      let wasOwner := l.excl && tst l.dir a
      let s := if lost then
          { count (homePage pa) Reg.COH_FAULTS_LOST 1 s with coh := { s.coh with breaches := s.coh.breaches ++ [(a, true)] } }
        else s
      let l := if lost then l else mergeLine l data dirty
      let l := { l with dir := if h.state = .snpS ∧ keepsS ∧ !lost then l.dir else clrBit l.dir a, excl := false }
      let l := if lost ∧ wasOwner then { l with valid := 0, dirty := 0 } else l
      let s := putLine l s
      let s := if lost ∧ wasOwner then
          let s := (List.range 4).foldl (fun s i => markBad (pa + 32 * i) s) s
          raiseAndFault { page := homePage pa, ctx := l.ctx, sev := 1, cls := 0x041, addr := pa, addrValid := true,
                          detail := a + (if h.state = .snpS then 0x50 else 0x51) * 2 ^ 6 +
                            (if h.state = .snpS then 4 else 5) * 2 ^ 14 } [] s
        else s
      let h' := { homeLine s pa with pending := clrBit h.pending a }
      let s := setHomeLine pa h' s
      if h'.pending = 0 then completeHome pa s else s
  else
    raiseErr { page := homePage pa, cls := 0x022 } (count (homePage pa) Reg.ROUTER_UNEXPECTED_COUNT 1 s)

/-- Fill data, or a failed fill's status, reaches a line in `I_F` (R210, R218, R243). -/
def fillData (pa status mask : Nat) (data : List Byte) (s : State) : State :=
  let pa := lineBase pa
  let h := homeLine s pa
  if h.state ≠ .if_ then
    raiseErr { page := homePage pa, cls := 0x022 } (count (homePage pa) Reg.ROUTER_UNEXPECTED_COUNT 1 s)
  else
    let s := setHomeLine pa {} s
    let answerBad (r : HomeReq) (s : State) : State :=
      match r with
      | .rdShared _ hd | .rdOwn _ hd | .upgrade _ hd | .read hd _ _ | .write hd _ _ _ _ | .add hd | .pte hd =>
        respond hd status [] s
      | _ => s
    let s := if status ≠ 0 then
        let s := match findLine s pa with | some l => if l.valid = 0 then dropLine pa s else s | none => s
        match h.inHand with | some r => answerBad r s | none => s
      else match findLine s pa with
        | some l =>
          let m := mask - (mask &&& l.valid)
          let s := putLine { mergeLine l data m with dirty := l.dirty } s
          match h.inHand with | some r => homeArrive r s | none => s
        | none =>
          match h.inHand with
          | some (.read hd got d) =>
            let i := pa % 256 / 128
            serveRead hd [0, 1] (got ||| mask * 2 ^ (4 * i)) (gather d i mask data) s
          | some (.rdShared _ hd) | some (.rdOwn _ hd) | some (.upgrade _ hd) => respond hd 4 [] s
          | _ => s
    drainHome h.queue s

/-- An eviction notice (R243): never queued; from a listed agent it clears the bit, a dirty one from the
owner writes its sectors; otherwise dropped and counted. Always acknowledged. -/
def evictNotice (a : Nat) (h : Header) (dirty : Nat) (data : List Byte) (s : State) : State :=
  let pa := lineBase h.addr
  match findLine s pa with
  | some l =>
    if tst l.dir a then
      let l' := if l.excl ∨ (homeLine s pa).state = .snpS ∨ (homeLine s pa).state = .snpI then mergeLine l data dirty else l
      let d := clrBit l.dir a
      respondOk h (putLine { l' with dir := d, excl := l'.excl && d != 0 } s)
    else respondOk h (count (homePage pa) Reg.COH_COUNTS_LATE_EVICT 1 s)
  | none => respondOk h (count (homePage pa) Reg.COH_COUNTS_LATE_EVICT 1 s)

/-! Accesses of the hub's engines that do not complete -/

/-- The home of a line starts a snoop phase for an engine's access (R248); what it has in hand is an access without bytes and
without a response, for the engine makes its own again. -/
def engineSnoop (pa : Nat) (inv : Bool) (s : State) : State :=
  match findLine s pa with
  | none => s
  | some l =>
    let h : Header := { ctx := l.ctx, addr := pa, tag := 2 ^ 16, dst := homeNode pa, xlated := true, noResp := true }
    if isTransient s pa then s
    else snoopFor l l.dir inv (if inv then .write h pa [] [] false else .read h 0 (List.replicate 256 0)) s

/-- An engine's access that did not complete: the unit stalls on a translation fault, or the context is charged (R205, R210,
R261); at a held range, and for the copies of caching agents, it waits and is made again (R248, R270). -/
def accessFailed (k : Nat) (e : AccErr) (u : StalledUnit) (p : Option Pass) (s : State) : State :=
  match e with
  | .xlate code level entry page => translationFault k code level entry page u s
  | .owner pa => ownerViolation k pa p s
  | .data pa => dataError k pa p s
  | .held => s
  | .agents pa inv => engineSnoop pa inv s

/-- Every line of the cache that satisfies `p`. -/
def cacheLines (s : State) (p : Line → Bool) : List Line := (s.cache.flatMap (fun e => e.2)).filter p

/-- R208, R249: the lines of a frame are invalidated without write-back. -/
def ashLines (f : Nat) (s : State) : State :=
  (cacheLines s (fun l => frameOf l.pa == f)).foldl (fun s l => withdrawLine (.ash l.pa) l s) s

/-- R249: recalls every line that lists one of the agents. -/
def recallAgents (mask : Nat) (s : State) : State :=
  (cacheLines s (fun l => l.dir &&& mask != 0)).foldl (fun s l => withdrawLine (.recall l.pa) l s) s

/-- Lines in the ways of a mask are written back and invalidated (R310, R316). -/
def withdrawWays (slice? : Option Nat) (ways : Nat) (c? : Option Nat) (s : State) : State :=
  (cacheLines s (fun l => tst ways l.way && (match slice? with | some i => sliceOf l.pa == i | none => true) &&
    (match c? with | some c => l.ctx == c | none => true))).foldl (fun s l => withdrawLine .victim l s) s

end Sys2Proof.Machine
end

