-- ==== Sys2Proof/Machine/Draught.lean ====
section
/-! DEFINITION. The draught loop (R127 to R132), and which function may write a context page (R71). -/

namespace Sys2Proof.Machine

/-! Writes to a context page -/

/-- A write by PF0 that is ignored because the context is SEALED (R71, R321). -/
def sealedDenied (k off : Nat) (s : State) : State :=
  setFld (pageCtx k) Reg.SEALED_DENIED_LAST off (bump (pageCtx k) Reg.SEALED_DENIED_COUNT 1 s)

/-- A write at an offset of context k's control page by function fn (0: PF0, k: VF k): other functions
have no path to it; PF0's is ignored and counted while k is SEALED (R71). -/
def tenantWrite (fn k off : Nat) (f : State → State) (s : State) : State :=
  if 64 ≤ k ∨ (fn ≠ 0 ∧ fn ≠ k) then s
  else if fn = 0 ∧ k ≠ 0 ∧ isSealed s k then sealedDenied k off s
  else f s

/-! Tags -/

def tagKey (k t : Nat) : Nat := k * 4096 + t % 4096
def tag (s : State) (k t : Nat) : DraughtTag := Tab.get {} s.tags (tagKey k t)
def setTag (k t : Nat) (d : DraughtTag) (s : State) : State := { s with tags := Tab.put {} s.tags (tagKey k t) d }

/-- The owner's bounds (R131): limited to -126 and +126; an upper bound below the lower acts as it. -/
def biasMin (s : State) (k : Nat) : Int := max (-126) (sext 8 (fld s (pageCtx k) Reg.DRAUGHT_LIMIT_BIAS_MIN))
def biasMax (s : State) (k : Nat) : Int := max (biasMin s k) (min 126 (sext 8 (fld s (pageCtx k) Reg.DRAUGHT_LIMIT_BIAS_MAX)))
def limitBias (s : State) (k : Nat) (b : Int) : Int := clampI (biasMin s k) (biasMax s k) b

/-- Step of a tag, at most the owner's `STEP_MAX`. -/
def tagStep (s : State) (k : Nat) (d : DraughtTag) : Nat := min d.step (fld s (pageCtx k) Reg.DRAUGHT_LIMIT_STEP_MAX)

/-- Targets whose bias the loop governs (R128), with their largest exponents (R129). -/
def draughtEmax (fmt : Nat) : Option Int :=
  match fmt with
  | 1 => some 127 | 2 => some 15 | 3 => some 8 | 4 => some 15 | 0xB => some 6 | _ => none

/-- The highest exponent h a histogram shows under a base (R129), if any normal value counted. -/
def histTop (hist : List Nat) (base : Int) : Option Int :=
  match ((List.range 64).filter (fun i => (hist.drop i).headD 0 != 0)).getLast? with
  | some i => some (base + i)
  | none => if (hist.drop 64).headD 0 ≠ 0 then some (base - 1) else none

/-- The loop's correction d (R129). -/
def loopStep (hist : List Nat) (base t : Int) (step deadband : Nat) : Int :=
  let d : Int :=
    if (hist.drop 65).headD 0 ≠ 0 ∨ (hist.drop 70).headD 0 ≠ 0 then step
    else match histTop hist base with
      | none => 0
      | some h => if h - t < 0 ∧ t - h ≤ deadband then 0 else h - t
  clampI (-(step : Int)) step d

/-- DRAUGHT_LOOP_UPDATE (R129): the end of a tagged descriptor of context k. `reset`: the tag was reset
while it ran (R130). -/
def tagWritten (k t : Nat) (applied base : Int) (emax : Int) (hist : List Nat) (reset : Bool) (s : State) : State :=
  let d := { tag s k t with appliedBias := applied, written := true }
  if reset ∨ d.frozen ∨ flag s (pageCtx k) Reg.DRAUGHT_LIMIT_FREEZE_ALL then setTag k t d s
  else
    let x := loopStep hist base (emax - d.headroom) (tagStep s k d) d.deadband
    let n := limitBias s k (applied + x)
    let top := match histTop hist base with
      | none => 0x80
      | some h => tc 8 (clampI (-127) 127 h)
    let s := setTag k t { d with nextBias := n, lastTop := top, updates := min (d.updates + 1) (2 ^ 32 - 1) } s
    let s := count (pageCtx k) Reg.DRAUGHT_STATS_UPDATES 1 s
    if n = applied + x then s else count (pageCtx k) Reg.DRAUGHT_STATS_CLAMPED 1 s

/-- The tag that the window addresses. -/
def selectedTag (s : State) (k : Nat) : Nat := fld s (pageWin k 0) Reg.DRAUGHT_SELECT_TAG

def modSelected (k : Nat) (f : DraughtTag → DraughtTag) (s : State) : State :=
  setTag k (selectedTag s k) (f (tag s k (selectedTag s k))) s

/-- Offset of `DRAUGHT_CMD`. -/
def draughtCmd : Nat := 0x8018

/-- R132, OP 0b01. -/
def draughtFreeze (k : Nat) (s : State) : State := modSelected k (fun d => { d with frozen := true }) s
/-- R132, OP 0b10. -/
def draughtUnfreeze (k : Nat) (s : State) : State := modSelected k (fun d => { d with frozen := false, overridden := false }) s
/-- R132, OP 0b11. -/
def draughtOverride (k value : Nat) (s : State) : State :=
  let b := sext 8 (value % 256)
  let n := limitBias s k b
  let s := modSelected k (fun d => { d with nextBias := n, overridden := true, frozen := true }) s
  if n = b then s else count (pageCtx k) Reg.DRAUGHT_STATS_CLAMPED 1 s
/-- R132, `RESET_TAG`: running writers of the tag are told (R130). -/
def draughtResetTag (k : Nat) (s : State) : State :=
  let t := selectedTag s k
  let s := setTag k t {} s
  { s with passes := s.passes.map (fun p =>
      if p.ctx = k ∧ p.phase = .running ∧ tst (p.words.headD 0) 19 ∧ bits (p.words.headD 0) 31 20 = t then
        { p with tagReset := true } else p) }

/-- R132: freezes the selected tag. -/
def execDraughtFreeze (fn ctx : Nat) (s : State) : Res := .next (tenantWrite fn ctx draughtCmd (draughtFreeze ctx) s)
/-- R132: unfreezes the selected tag and clears OVERRIDDEN. -/
def execDraughtUnfreeze (fn ctx : Nat) (s : State) : Res := .next (tenantWrite fn ctx draughtCmd (draughtUnfreeze ctx) s)
/-- R132: overrides the selected tag's bias and freezes it. -/
def execDraughtOverride (fn ctx value : Nat) (s : State) : Res :=
  .next (tenantWrite fn ctx draughtCmd (draughtOverride ctx value) s)
/-- R132: returns the selected tag to its creation state. -/
def execDraughtResetTag (fn ctx : Nat) (s : State) : Res := .next (tenantWrite fn ctx draughtCmd (draughtResetTag ctx) s)

end Sys2Proof.Machine
end

