-- ==== Sys2Proof/Machine/Holders.lean ====
section
/-! DEFINITION. The holders of translations (R256 to R260): what they keep, the walks that fill them and the marks those
leave, and what an engine's access does beside moving its bytes (R257, R272, R277). -/

namespace Sys2Proof.Machine

/-- Key of a holder in the table of translations. -/
def tlb (s : State) (h : Nat) : List TlbEnt := Tab.get [] s.xlate.holders h
def setTlb (h : Nat) (l : List TlbEnt) (s : State) : State :=
  { s with xlate := { s.xlate with holders := Tab.put [] s.xlate.holders h l } }

/-- The node of a holder (R262); none for the dispatcher and the placement engine. -/
def holderNode (h : Nat) : Option Nat :=
  if h < 64 then some (blockNode (.xlate h))
  else if h < 80 then some (blockNode (.site (h % 8)))
  else if h = 81 then some (blockNode .plarus)
  else if h = 82 ∨ h = 83 then some (blockNode (.kiln (h - 82)))
  else if h = 84 then some (blockNode .ember)
  else if h = 86 then some (blockNode .host)
  else none

/-! Access counts (R272) -/

/-- Where the counter entry of a frame lies; none while nothing is counted. -/
def countVa (s : State) (k frameNo : Nat) : Option Nat :=
  let a := fld s (pageCtx k) Reg.PLACE_COUNT_ADDR
  if 64 ≤ k ∨ a = 0 then none else some (a * 4096 + 8 * frameNo)

def countEntry (s : State) (k frameNo : Nat) : Option Nat :=
  (countVa s k frameNo).bind (fun a => match vread s 87 k a 8 with | .ok b => some (ofBytes b) | .error _ => none)

def setCountEntry (k frameNo v : Nat) (s : State) : State :=
  match countVa s k frameNo with
  | none => s
  | some a => match vwrite 87 k a (leBytes 8 v) s with | .ok t => markRange k a 8 t | .error _ => s

/-- Adds whole units to a frame's count. -/
def addCount (k frameNo n : Nat) (s : State) : State :=
  match countEntry s k frameNo with
  | none => s
  | some e => setCountEntry k frameNo (e - e % 65536 + min 0xFFFF (e % 65536 + n)) s

/-- Records the region of a 2 MiB translation in its frame's entry. -/
def noteRegion (k va pa : Nat) (s : State) : State :=
  let f := frameIndex (frameOf pa)
  let r := va % 2 ^ 55 / 2 ^ 21 * 2 ^ 21
  match countEntry s k f with
  | none => s
  | some e =>
    if !tst e 16 then setCountEntry k f (e % 65536 + 2 ^ 16 + r) s
    else if bits e 54 21 * 2 ^ 21 ≠ r then setCountEntry k f (setBit e 17) s
    else s

/-- A holder drops a translation: whole units go to the counters, a remainder is lost. -/
def flushCount (h : Nat) (e : TlbEnt) (s : State) : State :=
  if e.size = 1 ∧ 128 ≤ e.sectors ∧ fld s (pageCtx e.ctx) Reg.PLACE_COUNT_ADDR ≠ 0 then
    match holderNode h with
    | some n => request { ctx := e.ctx, prio := 6, opcode := 0x66, dst := blockNode .walker, src := n,
                          opData := frameIndex (frameOf e.pa), opArg := e.sectors / 128 } [] s
    | none => addCount e.ctx (frameIndex (frameOf e.pa)) (e.sectors / 128) s
  else s

/-! Installing and dropping (R257, R258) -/

/-- Entries a holder keeps, and those a SEALED context has reserved in a shared one. -/
def holderEntries (h : Nat) : Nat := if h < 64 then 2048 else if h < 72 then 1024 else if h < 80 then 2 ^ 20 else 1280

/-- A list of translations without the least recent one of those that `p` selects. -/
def dropLast (p : TlbEnt → Bool) (l : List TlbEnt) : List TlbEnt :=
  match takeFirst p l.reverse with
  | some (_, r) => r.reverse
  | none => l

/-- Installs a translation as the most recent one: a SEALED context keeps 16 entries of its own in a
shared holder, and the others share what is left (R258, R301). What it drops for it goes to the counters (R272). -/
def install (h : Nat) (e : TlbEnt) (s : State) : State :=
  let all := e :: (tlb s h).filter (fun x => !(x.ctx == e.ctx && x.va == e.va && x.size == e.size))
  let sealedOnes := (List.range 64).filter (isSealed s)
  let l :=
    if 80 ≤ h then
      if sealedOnes.contains e.ctx then
        if 16 < (all.filter (fun x => x.ctx == e.ctx)).length then dropLast (fun x => x.ctx == e.ctx) all else all
      else
        let free (x : TlbEnt) : Bool := !sealedOnes.contains x.ctx
        if holderEntries h - 16 * sealedOnes.length < (all.filter free).length then dropLast free all else all
    else if holderEntries h < all.length then all.take (holderEntries h) else all
  let gone := if l.length = all.length then [] else all.filter (fun x => !l.contains x)
  gone.foldl (fun s x => flushCount h x s) (setTlb h l s)

/-! Walks (R254 to R257) -/

/-- Sets DIRTY in the entries of every page of a leaf (R271). -/
def markAllDirty (l : Leaf) (s : State) : State :=
  if l.size = 1 then (List.range 32).foldl (fun s j => markDirty (groupPa l + 8 * j) s) s else markDirty l.entryPa s

/-- DIRTY bits of a leaf's pages, as a mask. -/
def dirtyMask (s : State) (l : Leaf) : Nat :=
  if l.size = 1 then (List.range 32).foldl (fun m j => m + b2n (tst (ofBytes (bytesAt s (groupPa l + 8 * j) 8)) 7) * 2 ^ j) 0
  else b2n (tst (ofBytes (bytesAt s l.entryPa 8)) 7)

/-- A walk is counted, and its upper entries kept in the walk cache (R256). How long it took is a free value (R276). -/
def countWalk (k va : Nat) (fault mismatch : Bool) (s : State) : State :=
  let w0 : WalkEnt := { ctx := k, level := 0, va := va / 2 ^ 42 * 2 ^ 42, entry := 0 }
  let w1 : WalkEnt := { ctx := k, level := 1, va := va / 2 ^ 29 * 2 ^ 29, entry := 0 }
  let hit := s.xlate.walkCache.any (fun w => w == w0 || w == w1)
  let s := count 0x007 Reg.WALK_STATS_WALKS 1 s
  let s := if hit then count 0x007 Reg.WALK_STATS_CACHE_HITS 1 s else s
  let s := if fault then count 0x007 Reg.WALK_FAULTS_FAULTS 1 s else s
  let s := if mismatch then count 0x007 Reg.WALK_FAULTS_CONTIG_MISMATCH 1 s else s
  let ns := drawn s % 65536
  let s := drew (if fld s 0x007 Reg.WALK_LATENCY_MAX_NS < ns then setFld 0x007 Reg.WALK_LATENCY_MAX_NS ns s else s)
  let c := s.xlate.walkCache.filter (fun w => w != w0 && w != w1)
  { s with xlate := { s.xlate with walkCache := (w0 :: w1 :: c).take 2048 } }

/-- The walker pool's answer to a holder: the whole translation that holds the address, installed in the
holder (R257, R259, R271), for an access of kind 0 read, 1 write, 2 add. A guest's own cache is granted WRITE only with
intent, its pages marked DIRTY first. -/
def serveXlate (h k va access : Nat) (s : State) : Except AccErr (Leaf × Bool) × State :=
  let va := va % 2 ^ 55
  let write := access != 0
  match walk s k va 0, walk s k va access with
  | .error e, .error _ => (.error e, countWalk k va true false s)
  | .ok _, .error e => (.error e, countWalk k va true false s)
  | _, .ok l =>
    let guest := decide (72 ≤ h ∧ h < 80)
    let canWrite := tst l.entry 2 && (!guest || write)
    let s := countWalk k va false l.mismatch (markAccessed l s)
    let s := if guest ∧ canWrite then markAllDirty l s else s
    let s := if l.size = 1 then noteRegion k va l.pa s else s
    let sz := sizeBytes l.size
    let base := l.addr va / sz * sz
    let e : TlbEnt := { ctx := k, va := va / sz * sz, size := l.size, pa := base, read := tst l.entry 1, write := canWrite,
                        hint := bits l.entry 4 3, dirty := dirtyMask s l }
    (.ok ({ l with pa := base }, canWrite), install h e s)

/-- Counts the bytes of sectors touched in the context's scoped telemetry, by pool (R277, R323). -/
def countBytes (k pa n : Nat) (s : State) : State :=
  let b := ((pa + n - 1) / 32 - pa / 32 + 1) * 32
  let f := if isHbm pa then Reg.CT_BYTES_HBM else if isPeat pa then Reg.CT_BYTES_PEAT else Reg.CT_BYTES_HOST
  if n = 0 then s else bump (pageWin k 3) f b s

/-! Accesses of the engines -/

/-- A holder's entry is used for `n` bytes: it becomes the most recent one, `DIRTY` is set before its page's first write,
and 32 whole units are sent on to the counters (R257, R258, R272). -/
def useEntry (h k va n : Nat) (write : Bool) (s : State) : State :=
  match takeFirst (fun e => covers k va e && e.allows (b2n write)) (tlb s h) with
  | none => s
  | some (e, rest) =>
    let clean := write && !tst e.dirty (e.page va)
    let u := { e with dirty := if clean then setBit e.dirty (e.page va) else e.dirty
                      sectors := if e.size = 1 then e.sectors + ((va + n - 1) / 32 - va / 32 + 1) else 0 }
    let s := if clean then (match walk s k va 1 with | .ok l => markDirty l.entryPa s | .error _ => s) else s
    let full := decide (4096 ≤ u.sectors)
    let s := setTlb h ((if full then { u with sectors := 0 } else u) :: rest) s
    if full then flushCount h u s else s

/-- One page of an access: the holder's entry is used, after a walk has installed one where the holder lacks it; its bytes are
counted. In a held range nothing is installed. -/
def accessPage (h k : Nat) (write : Bool) (s : State) (p : Nat × Nat) : State :=
  match holderEntry s h k p.1 (b2n write) with
  | some e => countBytes k (e.pa + (p.1 - e.va)) p.2 (useEntry h k p.1 p.2 write s)
  | none =>
    match walk s k p.1 (b2n write) with
    | .error _ => s
    | .ok l =>
      countBytes k (l.addr p.1) p.2
        (if heldPage s k p.1 then (if write then markDirty l.entryPa (markAccessed l s) else markAccessed l s)
         else useEntry h k p.1 p.2 write (serveXlate h k p.1 (b2n write) s).2)

/-- What an access of a holder to `n` bytes of a context does beside moving them. -/
def accessed (h k va n : Nat) (write : Bool) (s : State) : State := (pageParts va n).foldl (accessPage h k write) s

end Sys2Proof.Machine
end

