-- ==== Sys2Proof/Machine/RegisterPages.lean ====
section
/-! DEFINITION. Register pages: the common header's commands (R66 to R82), the two error logs (R487 to
R489, R506, R507), and the management traffic of R70. -/

namespace Sys2Proof.Machine

/-- A page that exists in BAR0 or as a context page. -/
def pageExists (p : Nat) : Bool := (pageKind p).isSome

/-- The counters of a block (R82). -/
def counterFields : PageKind → List Field
  | .tile => [Reg.ROUTER_DROP_NODE_DOWN, Reg.ROUTER_DROP_MALFORMED, Reg.ROUTER_UNEXPECTED_COUNT, Reg.LINK_CORRECTED,
      Reg.LINK_REPLAYS, Reg.PASS_COUNT, Reg.BUBBLES_FEEDER, Reg.BUBBLES_DRAIN, Reg.CHECK_COUNTS_RESIDUE,
      Reg.CHECK_COUNTS_SRAM_CORRECTED, Reg.CHECK_COUNTS_SRAM_UNCORRECTED, Reg.PREEMPT_LAST_COUNT,
      Reg.COH_TABLE_PEAK, Reg.COH_RECALL_LINES, Reg.COH_COUNTS_SNOOPS, Reg.COH_COUNTS_LATE_EVICT, Reg.COH_FAULTS_LOST, Reg.COH_FAULTS_BREACH,
      Reg.TILE_LOOP_COUNTS_DROOPS, Reg.TILE_LOOP_COUNTS_SETPOINTS]
  | .hbm => [Reg.ECC_COUNTS_CORRECTED, Reg.ECC_COUNTS_UNCORRECTED]
  | .walker => [Reg.WALK_STATS_WALKS, Reg.WALK_STATS_CACHE_HITS, Reg.WALK_FAULTS_FAULTS, Reg.WALK_FAULTS_CONTIG_MISMATCH,
      Reg.INV_STATS_COMPLETED, Reg.INV_STATS_GUEST_LATE, Reg.WALK_LATENCY_MAX_NS]
  | .regulator => [Reg.ADMIT_STATS_REFUSED]
  | .kiln => [Reg.KILN_STATS_COMMITS, Reg.KILN_STATS_DISCARDED, Reg.KILN_STATS_ABORTED, Reg.KILN_ROUNDS_RELEASED,
      Reg.KILN_ROUNDS_EXPIRED, Reg.KILN_ROUNDS_FAILED]
  | .site => [Reg.KPP_COUNTS_CRC_ERRORS, Reg.KPP_COUNTS_REPLAYS, Reg.KPP_COUNTS_RETRAINS, Reg.KPP_COUNTS_DROPPED]
  | .hostPort => [Reg.HOST_COUNTS_UNEXPECTED, Reg.HOST_COUNTS_TIMEOUTS, Reg.HOST_COUNTS_UR_SENT, Reg.HOST_COUNTS_BME_BLOCKED,
      Reg.HOST_ERRS_POISONED, Reg.HOST_ERRS_CA_SENT, Reg.HOST_ERRS_IDE_DROPPED, Reg.HOST_RESET_VF_FLRS,
      Reg.HOST_PTM_RESPONSES]
  | .peat => [Reg.PEAT_COUNTS_POISON, Reg.PEAT_COUNTS_TIMEOUTS, Reg.PEAT_COUNTS_SURPRISE]
  | .plarus => [Reg.PLR_COUNTS_UNAUTH_DROPS, Reg.PLR_COUNTS_FWD_MISS]
  | .plarusPort => [Reg.FEC_COUNTS_CORRECTED, Reg.FEC_COUNTS_UNCORRECTABLE, Reg.PORT_COUNTS_ECN_MARKED,
      Reg.PORT_COUNTS_DROPS]
  | .timebase => [Reg.TB_COUNTS_STEPS, Reg.TB_COUNTS_PPS_MISSED]
  | .clock => [Reg.PLL_LOSSES_COUNT]
  | .power => [Reg.PWR_COUNTS_DUTY_CHANGES]
  | .core => [Reg.CORE_COUNTS_RESTARTS]
  | .ember => [Reg.EMBER_STATS_PAGES_SENT, Reg.EMBER_STATS_PAGES_RECEIVED, Reg.EMBER_STATS2_COMMITS,
      Reg.EMBER_STATS2_DISCARDED]
  | .owner => [Reg.DRAUGHT_STATS_UPDATES, Reg.DRAUGHT_STATS_CLAMPED, Reg.PLACE_STATS_PROMOTIONS, Reg.PLACE_STATS_DEMOTIONS,
      Reg.XLATE_COUNTS_FAULTS, Reg.XLATE_COUNTS_INVALIDATES]
  | .global_ => [Reg.UNASSIGNED_ACCESS_COUNT]
  | .telemetry => (List.range 144).map (fun i => Reg.TEMP_PEAK.at 8 i)
  | _ => []

/-- A block's field without a number to reset to keeps the count; `ERR_FIRST` and the access errors. -/
def errFields : List Field :=
  [Reg.ERR_SUMMARY_LOCKED_WRITE, Reg.ERR_SUMMARY_BAD_ACCESS, Reg.ERR_SUMMARY_OP_REFUSED, Reg.ERR_SUMMARY_OVERFLOW,
   Reg.ERR_SUMMARY_FIRST_VALID, Reg.ERR_SUMMARY_SEEN, Reg.ERR_SUMMARY_COUNT, Reg.ERR_FIRST_TIME_NS,
   Reg.ERR_FIRST_TIME_SEC, Reg.ERR_FIRST_SRC_PAGE, Reg.ERR_FIRST_SRC_CTX, Reg.ERR_FIRST_SRC_SEVERITY,
   Reg.ERR_FIRST_SRC_CLASS, Reg.ERR_FIRST_SRC_SEQ, Reg.ERR_FIRST_ADDR_ADDR, Reg.ERR_FIRST_ADDR_VIRT,
   Reg.ERR_FIRST_ADDR_VALID, Reg.ERR_FIRST_DETAIL]

/-- R82: what a write of 1 to `PAGE_CTRL.PAGE_RESET` does. -/
def pageReset (p : Nat) (s : State) : State :=
  match if p < 0x400 then pageKind p else none with
  | none => s
  | some k =>
    let s := if k = .plarus then
        { s with plr := { s.plr with sessions := (s.plr.sessions.map (fun e =>
          (e.1, { e.2 with retransmits := 0, authDrops := 0 }))).filter (fun e => e.2 != {}) } } else s
    let s := resetFlds p ([Reg.IRQ_STATUS_BLOCK, Reg.IRQ_STATUS_OP_DONE, Reg.IRQ_STATUS_ERR] ++ errFields ++ counterFields k) s
    if (pageOp s p).isSome then s
    else resetFlds p [Reg.PROGRESS_PERCENT, Reg.PROGRESS_VALID, Reg.PROGRESS_OPCODE, Reg.PROGRESS_POSITION,
      Reg.OP_CONTROL_RESULT] s

/-- A W1C write of `IRQ_STATUS`: a condition that stays true sends a fresh message (R74). -/
def irqClear (p mask : Nat) (s : State) : State :=
  let s := setIrqWord p (irqWord s p &&& (2 ^ 64 - 1 - mask % 2 ^ 64)) s
  if irqCond s p then sendIrq p s else s

/-- A W1C write of `ERR_SUMMARY` (R73, R75). -/
def errSummaryClear (p mask : Nat) (s : State) : State :=
  let clr (f : Field) (s : State) : State := if tst mask f.lo then setFld p f 0 s else s
  let s := clr Reg.ERR_SUMMARY_LOCKED_WRITE (clr Reg.ERR_SUMMARY_BAD_ACCESS (clr Reg.ERR_SUMMARY_OP_REFUSED
    (clr Reg.ERR_SUMMARY_OVERFLOW (clr Reg.ERR_SUMMARY_FIRST_VALID s))))
  setFld p Reg.ERR_SUMMARY_SEEN (fld s p Reg.ERR_SUMMARY_SEEN &&& (15 - bits mask 11 8)) s

/-! Accesses -/

def shadowKey (p fn : Nat) : Nat := p * 256 + fn

/-- Any access of a function to a page discards its `PROGRESS` shadow (R78). -/
def dropShadow (fn p : Nat) (s : State) : State := { s with shadows := Tab.del s.shadows (shadowKey p fn) }

/-- An access to an unassigned page is counted (R66). -/
def countUnassigned (p : Nat) (s : State) : State :=
  setFld 0 Reg.UNASSIGNED_ACCESS_LAST_PAGE p (bump 0 Reg.UNASSIGNED_ACCESS_COUNT 1 s)

/-- `PROGRESS` as one word. -/
def progressWord (s : State) (p : Nat) : Nat :=
  fld s p Reg.PROGRESS_PERCENT + fld s p Reg.PROGRESS_VALID * 2 ^ 7 + fld s p Reg.PROGRESS_OPCODE * 2 ^ 8
    + fld s p Reg.PROGRESS_POSITION * 2 ^ 16

/-- The answer to an access: data of a read, or a write's completion. -/
def answerAccess (fn p off : Nat) (write : Bool) (data : Nat) (s : State) : State :=
  emit (if write then .regDone fn p off else .regData fn p off data) s

/-- R67: a request of an unsupported width or alignment completes with zeros or is ignored. -/
def execBadAccess (fn page off : Nat) (write : Bool) (s : State) : Res :=
  let s := dropShadow fn page s
  let s := if assigned page then accessErr page Reg.ERR_SUMMARY_BAD_ACCESS s
    else accessErr 0 Reg.ERR_SUMMARY_BAD_ACCESS (countUnassigned page s)
  .next (answerAccess fn page off write 0 s)

/-- R66: an access to an unassigned page. -/
def execUnassignedAccess (fn page off : Nat) (write : Bool) (s : State) : Res :=
  if assigned page then .next s else .next (answerAccess fn page off write 0 (countUnassigned page s))

/-- R78: a 32-bit read at 0x060 copies `PROGRESS` into the function's shadow. -/
def execProgressShadowRead (fn page : Nat) (s : State) : Res :=
  if !assigned page then .next s
  else
    let w := progressWord s page
    .next (answerAccess fn page 0x060 false (w % 2 ^ 32)
      { s with shadows := Tab.put 0 s.shadows (shadowKey page fn) (w + 1) })

/-- R78: a 32-bit read at 0x064 returns the shadow's upper half when the shadow read came just before. -/
def execProgressUpperRead (fn page : Nat) (s : State) : Res :=
  if !assigned page then .next s
  else
    let sh := Tab.get 0 s.shadows (shadowKey page fn)
    let w := if sh = 0 then progressWord s page else sh - 1
    .next (answerAccess fn page 0x064 false (w / 2 ^ 32) (dropShadow fn page s))

/-- R74: a W1C write to `IRQ_STATUS`. -/
def execIrqStatusClear (page mask : Nat) (s : State) : Res :=
  .next (if assigned page then irqClear page mask (dropShadow 0 page s) else s)

/-- R73: a write to `IRQ_FORCE` sets the matching bits of `IRQ_STATUS`. -/
def execIrqForce (page mask : Nat) (s : State) : Res :=
  .next (if assigned page then raiseIrq page (mask % 2 ^ 64) (dropShadow 0 page s) else s)

/-- R75: a W1C write to `ERR_SUMMARY`. -/
def execErrSummaryClear (page mask : Nat) (s : State) : Res :=
  .next (if assigned page then errSummaryClear page mask (dropShadow 0 page s) else s)

/-- R82: `PAGE_CTRL.PAGE_RESET`. -/
def execPageReset (page : Nat) (s : State) : Res :=
  .next (if assigned page then pageReset page (dropShadow 0 page s) else s)

/-! The error logs -/

/-- The 64 bytes of a record (R487). -/
def ErrRec.bytes (r : ErrRec) (phase masked : Bool) (dropped : Nat) : List Byte :=
  ofWords [
    r.timeNs + r.timeSec % 2 ^ 34 * 2 ^ 30, r.srcWord,
    r.addr + b2n r.virt * 2 ^ 62 + b2n r.addrValid * 2 ^ 63, r.detail,
    bits r.timeSec 47 34 + r.frac * 2 ^ 16 + r.ring * 2 ^ 32 + b2n r.passValid * 2 ^ 36 + r.index * 2 ^ 48,
    r.userTag, r.epoch,
    b2n phase + 2 * b2n masked + min dropped (2 ^ 32 - 1) * 2 ^ 32]

/-- The device log's copy of a record charged to a SEALED context (R488). -/
def ErrRec.masking (r : ErrRec) : ErrRec :=
  { r with cls := 0, addr := 0, virt := false, addrValid := false, detail := 0, ring := 0, passValid := false, index := 0,
           userTag := 0 }

/-- The registers of a log: page, base, size, enable, tail, head, phase, drops, bad doorbell. -/
structure LogRegs where
  page : Nat
  base : Field
  size : Field
  enable : Field
  tail : Field
  head : Field
  phase : Field
  dropped : Field
  bad : Field
  /-- Context in whose space the log lies; the smallest and largest L. -/
  ctx : Nat
  lo : Nat
  hi : Nat

def deviceLog : LogRegs :=
  ⟨0x004, Reg.ERRLOG_BASE_ADDR, Reg.ERRLOG_CFG_LOG2_SIZE, Reg.ERRLOG_CFG_ENABLE, Reg.ERRLOG_STATUS_TAIL,
   Reg.ERRLOG_STATUS_HEAD, Reg.ERRLOG_STATUS_PHASE, Reg.ERRLOG_STATUS_DROPPED, Reg.ERRLOG_STATUS_BAD_DOORBELL, 0, 8, 16⟩

def tenantLog (k : Nat) : LogRegs :=
  ⟨pageWin k 0, Reg.ERRQ_BASE_ADDR, Reg.ERRQ_CFG_LOG2_SIZE, Reg.ERRQ_CFG_ENABLE, Reg.ERRQ_STATUS_TAIL,
   Reg.ERRQ_STATUS_HEAD, Reg.ERRQ_STATUS_PHASE, Reg.ERRQ_STATUS_DROPPED, Reg.ERRQ_STATUS_BAD_DOORBELL, k, 6, 12⟩

/-- ERROR_LOG_WRITE (R489): writes a record at the log's tail, or drops and counts it. Answers whether it
was written. -/
def logWrite (g : LogRegs) (r : ErrRec) (masked : Bool) (s : State) : State × Bool :=
  let l := fld s g.page g.size
  let tail := fld s g.page g.tail
  let key := if g.page = 0x004 then 0 else g.ctx + 1
  let n := Tab.get 0 s.errs.droppedSince key
  let drop (s : State) : State × Bool :=
    (bump g.page g.dropped 1 { s with errs := { s.errs with droppedSince := Tab.put 0 s.errs.droppedSince key (n + 1) } }, false)
  if !flag s g.page g.enable ∨ freeSlots l tail (fld s g.page g.head) = 0 then drop s
  else
    let phase := flag s g.page g.phase
    match vwrite 87 g.ctx (fld s g.page g.base * 4096 + 64 * tail) (r.bytes phase masked n) s with
    | .error _ => drop s
    | .ok s =>
      let s := accessed 86 g.ctx (fld s g.page g.base * 4096 + 64 * tail) 64 true s
      let nt := (tail + 1) % 2 ^ l
      (setFlds g.page [(g.tail, nt), (g.phase, b2n (phase ^^ (nt == 0)))]
        { s with errs := { s.errs with droppedSince := Tab.del s.errs.droppedSince key } }, true)

/-- Enables a log (R489): the head and tail start at 0, the phase at 1; a bad size is ignored. -/
def logEnable (g : LogRegs) (l : Nat) (s : State) : State :=
  if flag s g.page g.enable then s
  else if g.lo ≤ l ∧ l ≤ g.hi then
    setFlds g.page [(g.size, l), (g.enable, 1), (g.tail, 0), (g.head, 0), (g.phase, 1)] s
  else s

/-- Whether a consumer's head is accepted (R138). -/
def headOk (l tail old h : Nat) : Bool :=
  decide (h < 2 ^ l) && decide ((h + 2 ^ l - old) % 2 ^ l ≤ (tail + 2 ^ l - old) % 2 ^ l)

/-- A head write of a log: accepted under R138, else `BAD_DOORBELL` (R489). -/
def logDoorbell (g : LogRegs) (h : Nat) (s : State) : State :=
  if flag s g.page g.enable && headOk (fld s g.page g.size) (fld s g.page g.tail) (fld s g.page g.head) h then
    setFld g.page g.head h s
  else setFld g.page g.bad 1 s

/-- R70, R487 to R489: the oldest error record on its way reaches the host port and goes into the device
log and, when charged to a tenant context, into the tenant log. -/
def execErrRecord (s : State) : Res :=
  match s.errs.flight with
  | [] => .next s
  | r :: rest =>
    let s := { s with errs := { s.errs with flight := rest } }
    let (s, ok) := logWrite deviceLog (if r.masked then r.masking else r) r.masked s
    let s := if ok then raiseSrc 0x004 0 s else s
    if 0 < r.ctx ∧ r.ctx < 0x40 then
      let (s, ok) := logWrite (tenantLog r.ctx) r false s
      .next (if ok && flag s (pageWin r.ctx 0) Reg.ERRQ_CFG_IRQ_EN then ctxMsg r.ctx 2 s else s)
    else .next s

/-- R70, R74, R384: the host port sends the MSI-X message of the oldest page whose condition went true. -/
def execIrqRaise (s : State) : Res :=
  match s.errs.irqs with
  | [] => .next s
  | p :: rest => .next (sendMsix 0 p { s with errs := { s.errs with irqs := rest } })

/-- R489: enables the device log with 2^l slots. -/
def execErrlogEnable (log2Size : Nat) (s : State) : Res := .next (logEnable deviceLog log2Size s)
/-- R489: disables the device log. -/
def execErrlogDisable (s : State) : Res := .next (setFld 0x004 Reg.ERRLOG_CFG_ENABLE 0 s)
/-- R489: a head write of the device log. -/
def execErrlogDoorbell (head : Nat) (s : State) : Res := .next (logDoorbell deviceLog head s)
/-- R489: enables a tenant log; context 0x00's records go to the device log alone. -/
def execErrqEnable (ctx log2Size : Nat) (irqEn : Bool) (s : State) : Res :=
  if 64 ≤ ctx then .next s
  else .next (setFld (pageWin ctx 0) Reg.ERRQ_CFG_IRQ_EN (b2n irqEn) (logEnable (tenantLog ctx) log2Size s))
/-- R489: disables a tenant log. -/
def execErrqDisable (ctx : Nat) (s : State) : Res :=
  .next (if 64 ≤ ctx then s else setFld (pageWin ctx 0) Reg.ERRQ_CFG_ENABLE 0 s)
/-- R489: a head write of a tenant log. -/
def execErrqDoorbell (ctx head : Nat) (s : State) : Res :=
  .next (if 64 ≤ ctx then s else logDoorbell (tenantLog ctx) head s)
/-- R506: empties the latched DEVICE records. -/
def execErrLatchClear (s : State) : Res := .next { s with errs := { s.errs with latched := [] } }

/-! Management traffic and queue reports (R70) -/

/-- R70: a management message is answered with 32 bytes; the spec gives no types, so the bytes are free. -/
def execMgmtMsg (h : Header) (s : State) : Res := .next (respondInline h (freeBytes s 32) 0 (drew s))

/-- R70: a management message with data units. -/
def execMgmtBulk (h : Header) (_units : List Unit256) (s : State) : Res := .next (respondOk h s)

/-- Key of a queue's occupancy history. -/
def queueKey (page q : Nat) : Nat := page * 32 + q

/-- Average of a queue's last four reports (R282). -/
def queueAverage (l : List Nat) : Nat := if l.isEmpty then 0 else l.foldl (· + ·) 0 / l.length

/-- R282: a controller's or port's report of its queues' occupancies; Q of the pool is the highest average
over its live queues, and the rates of the pool are kept within R286's bounds. -/
def execQueueReport (page : Nat) (occupancy : List Nat) (s : State) : Res :=
  let pool? : Option Nat := match pageKind page with
    | some .hbm => some 0 | some .peat => some 1 | some .hostPort => some 2 | _ => none
  match pool? with
  | none => .next s
  | some p =>
    let hist := ((List.range 32).zip occupancy).foldl (fun t e =>
      Tab.put [] t (queueKey page e.1) ((min e.2 64 :: Tab.get [] t (queueKey page e.1)).take 4)) s.regul.qHist
    let s := { s with regul := { s.regul with qHist := hist } }
    let q := hist.foldl (fun m e =>
      let pg := e.1 / 32
      let mine := match pageKind pg with
        | some .hbm => p == 0 && serves s (32 * (pg - 0x20) + e.1 % 32) | some .peat => p == 1 | _ => p == 2
      if mine then max m (queueAverage e.2) else m) 0
    let s := setFld 0x006 (Reg.POOL_STATUS_Q.at 8 p) q s
    .next ((List.range 512).foldl (fun s i =>
      let k := i / 8
      let c := i % 8
      if poolOfClass s c = p ∧ 0 < rateOf s k c then setRate k c (clampRate s k c (rateOf s k c)) s else s) s)

end Sys2Proof.Machine
end

