-- ==== Sys2Proof/Machine/Queues.lean ====
section
/-! DEFINITION. The Drunte queues: submission rings, the completion ring, fence counters (R133 to R145). -/

namespace Sys2Proof.Machine

/-! Ring registers (R134) -/

def ringTail (s : State) (k r : Nat) : Nat := fld s (pageWin k 0) (Reg.RING_STATUS_TAIL.at 32 r)
def ringHead (s : State) (k r : Nat) : Nat := fld s (pageWin k 0) (Reg.RING_STATUS_HEAD.at 32 r)
def ringLog2 (s : State) (k r : Nat) : Nat := fld s (pageWin k 0) (Reg.RING_CFG_LOG2_SIZE.at 32 r)
def ringOn (s : State) (k r : Nat) : Bool := flag s (pageWin k 0) (Reg.RING_CFG_ENABLE.at 32 r)
def ringOutstanding (s : State) (k r : Nat) : Nat := fld s (pageWin k 0) (Reg.RING_STATUS_OUTSTANDING.at 32 r)
def ringRefused (k r : Nat) (s : State) : State := setFld (pageWin k 0) (Reg.RING_STATUS_CONFIG_REFUSED.at 32 r) 1 s
def cqRefused (k : Nat) (s : State) : State := setFld (pageWin k 0) Reg.CQ_STATUS_CONFIG_REFUSED 1 s

/-- Free slots of the completion ring (R138). -/
def cqFree (s : State) (k : Nat) : Nat :=
  let w := pageWin k 0
  let l := fld s w Reg.CQ_CFG_LOG2_SIZE
  freeSlots l (fld s w Reg.CQ_STATUS_TAIL) (fld s w Reg.CQ_STATUS_HEAD) - fld s w Reg.CQ_STATUS_RESERVED

/-- `CQ_STATUS.FULL`: fetching is stalled for want of a slot (R138). -/
def refreshFull (k : Nat) (s : State) : State :=
  let w := pageWin k 0
  setFld w Reg.CQ_STATUS_FULL (b2n (flag s w Reg.CQ_CFG_ENABLE && cqFree s k == 0)) s

/-- R136: a doorbell. -/
def ringDoorbell (k r v : Nat) (s : State) : State :=
  if ringOn s k r ∧ v < 2 ^ ringLog2 s k r then setFld (pageWin k 0) (Reg.RING_STATUS_TAIL.at 32 r) v s
  else setFld (pageWin k 0) (Reg.RING_STATUS_BAD_DOORBELL.at 32 r) 1 s

/-- R138: a write of `CQ_DOORBELL.HEAD`. -/
def cqDoorbell (k h : Nat) (s : State) : State :=
  let w := pageWin k 0
  if flag s w Reg.CQ_CFG_ENABLE &&
      headOk (fld s w Reg.CQ_CFG_LOG2_SIZE) (fld s w Reg.CQ_STATUS_TAIL) (fld s w Reg.CQ_STATUS_HEAD) h then
    refreshFull k (setFld w Reg.CQ_STATUS_HEAD h s)
  else setFld w Reg.CQ_STATUS_BAD_DOORBELL 1 s

/-- R135: a write that sets `RING_CFG[r].ENABLE`, with the size it carries. -/
def ringEnable (k r l : Nat) (s : State) : State :=
  let w := pageWin k 0
  if ringOn s k r then if l = ringLog2 s k r then s else ringRefused k r s
  else if l < 6 ∨ 16 < l ∨ !flag s w Reg.CQ_CFG_ENABLE ∨ ringOutstanding s k r ≠ 0 then ringRefused k r s
  else setFlds w [(Reg.RING_CFG_LOG2_SIZE.at 32 r, l), (Reg.RING_CFG_ENABLE.at 32 r, 1),
    (Reg.RING_STATUS_HEAD.at 32 r, 0), (Reg.RING_STATUS_TAIL.at 32 r, 0)] s

/-- R140: clearing `RING_CFG[r].ENABLE` stops fetching. -/
def ringDisable (k r : Nat) (s : State) : State := setFld (pageWin k 0) (Reg.RING_CFG_ENABLE.at 32 r) 0 s

/-- R135: a write of a ring's base (ring 16: the completion ring's) or size. -/
def ringConfig (k r : Nat) (isBase : Bool) (v : Nat) (s : State) : State :=
  let w := pageWin k 0
  let (f, en, bad) : Field × Bool × (State → State) :=
    if r < 16 then
      ((if isBase then Reg.RING_BASE_ADDR else Reg.RING_CFG_LOG2_SIZE).at 32 r, ringOn s k r, ringRefused k r)
    else (if isBase then Reg.CQ_BASE_ADDR else Reg.CQ_CFG_LOG2_SIZE, flag s w Reg.CQ_CFG_ENABLE, cqRefused k)
  if !en then setFld w f v s else if fld s w f = v % 2 ^ f.width then s else bad s

/-- R135: enabling the completion ring. -/
def cqEnable (k l : Nat) (irqEn : Bool) (s : State) : State :=
  let w := pageWin k 0
  let s := setFld w Reg.CQ_CFG_IRQ_EN (b2n irqEn) s
  if flag s w Reg.CQ_CFG_ENABLE then if l = fld s w Reg.CQ_CFG_LOG2_SIZE then s else cqRefused k s
  else if l < 6 ∨ 16 < l then cqRefused k s
  else setFlds w [(Reg.CQ_CFG_LOG2_SIZE, l), (Reg.CQ_CFG_ENABLE, 1), (Reg.CQ_STATUS_TAIL, 0), (Reg.CQ_STATUS_HEAD, 0),
    (Reg.CQ_STATUS_PHASE, 1), (Reg.CQ_STATUS_FULL, 0)] s

/-- R135: disabling the completion ring. -/
def cqDisable (k : Nat) (s : State) : State :=
  let w := pageWin k 0
  if (List.range 16).any (ringOn s k) || fld s w Reg.CQ_STATUS_RESERVED != 0 then cqRefused k s
  else setFlds w [(Reg.CQ_CFG_ENABLE, 0), (Reg.CQ_STATUS_FULL, 0)] s

/-! Fence counters (R141 to R143) -/

def fence (s : State) (k i : Nat) : Nat := fld s (pageWin k 0) (Reg.FENCE_VALUE_VALUE.at 8 (i % 64))
def fenceError (s : State) (k i : Nat) : Bool := flag s (pageWin k 0) (Reg.FENCE_VALUE_ERROR.at 8 (i % 64))

def setFence (k i v : Nat) (err : Bool) (s : State) : State :=
  setFlds (pageWin k 0) [(Reg.FENCE_VALUE_VALUE.at 8 (i % 64), v), (Reg.FENCE_VALUE_ERROR.at 8 (i % 64), b2n err)] s

def addFence (k i v : Nat) (s : State) : State :=
  setFld (pageWin k 0) (Reg.FENCE_VALUE_VALUE.at 8 (i % 64)) (fence s k i + v) s

/-- FENCE_SIGNAL (R143): the counter rises by 1; a status other than OK sets its error bit. -/
def signalFence (k i : Nat) (ok : Bool) (s : State) : State :=
  let s := addFence k i 1 s
  if ok then s else setFld (pageWin k 0) (Reg.FENCE_VALUE_ERROR.at 8 (i % 64)) 1 s

/-- A wait is satisfied (R142). -/
def waitMet (counter t : Nat) : Bool := decide ((counter % 2 ^ 48 + 2 ^ 48 - t % 2 ^ 48) % 2 ^ 48 < 2 ^ 47)

/-! Completion (R139, R145, R152) -/

def Pass.word (p : Pass) (i : Nat) : Nat := (p.words.drop i).headD 0

/-- The completion record (R152). -/
def recordBytes (p : Pass) (phase : Bool) : List Byte :=
  let ran := p.status = 0 ∨ p.status = 0x0C
  let nf := if ran then p.nonfinite else none
  let sat := if ran then p.saturated else none
  let pos (x : Option (Nat × Nat)) : Nat := match x with
    | none => 0
    | some (r, c) => r % 2 ^ 40 + c % 2 ^ 24 * 2 ^ 40
  ofWords [
    p.word 1,
    p.status + p.ring * 2 ^ 8 + b2n phase * 2 ^ 12 + b2n nf.isSome * 2 ^ 13 + b2n sat.isSome * 2 ^ 14
      + (if ran then b2n p.histoWritten * 2 ^ 15 + tc 8 p.bias * 2 ^ 16 else 0) + p.index * 2 ^ 24 + p.detail % 2 ^ 24 * 2 ^ 40,
    pos nf, pos sat]

/-- An access unit of the dispatcher on behalf of a pass. -/
def dispatchUnit (p : Pass) (va len access : Nat) : StalledUnit :=
  { holder := 80, va := va, len := len, access := access, ring := p.ring, passValid := true, index := p.index,
    userTag := p.word 1 }

/-- Counts a pass's end in the scoped telemetry (R323). -/
def countOutcome (k status : Nat) (s : State) : State :=
  let w := pageWin k 3
  if status = 0 then bump w Reg.CT_PASSES_COMPLETED 1 s
  else if status < 0x0A then bump w Reg.CT_OUTCOMES_REFUSED 1 s
  else bump w Reg.CT_OUTCOMES_FAILED 1 s

/-- Steps 3 to 5 of R145: the completion record, the signal and the interrupt. Where the record cannot be
written, its unit stalls or the context faults, and the pass stays ended until that is resolved. -/
def completePass (p : Pass) (s : State) : State :=
  let k := p.ctx
  let w := pageWin k 0
  if ctxState s k = 5 then { s with passes := s.passes.filter (fun q => q.id != p.id) }
  else
    let tail := fld s w Reg.CQ_STATUS_TAIL
    let l := fld s w Reg.CQ_CFG_LOG2_SIZE
    let phase := flag s w Reg.CQ_STATUS_PHASE
    let va := fld s w Reg.CQ_BASE_ADDR * 4096 + 32 * tail
    match vwrite 80 k va (recordBytes p phase) s with
    | .error e =>
      let s := { s with passes := s.passes.map (fun q => if q.id = p.id then { p with phase := .ended } else q) }
      accessFailed k e (dispatchUnit p va 32 1) (some p) s
    | .ok s =>
      let s := accessed 80 k va 32 true s
      let nt := (tail + 1) % 2 ^ l
      let s := { s with passes := s.passes.filter (fun q => q.id != p.id) }
      let s := setFlds w [(Reg.CQ_STATUS_TAIL, nt), (Reg.CQ_STATUS_PHASE, b2n (phase ^^ (nt == 0))),
        (Reg.CQ_STATUS_RESERVED, fld s w Reg.CQ_STATUS_RESERVED - 1),
        (Reg.RING_STATUS_OUTSTANDING.at 32 p.ring, ringOutstanding s k p.ring - 1)] s
      let s := refreshFull k (countOutcome k p.status s)
      let sig := p.word 4
      let s := if tst sig 7 then signalFence k (sig % 64) (p.status == 0) s else s
      if tst (p.word 0) 17 ∧ flag s w Reg.CQ_CFG_IRQ_EN then ctxMsg k 0 s else s

/-- R140: `RING_CFG[r].ABORT`. -/
def ringAbort (k r : Nat) (s : State) : State :=
  let s := setFld (pageWin k 0) (Reg.RING_STATUS_HEAD.at 32 r) (ringTail s k r) s
  let mine := s.passes.filter (fun p => p.ctx == k && p.ring == r && (p.phase == .waiting || p.phase == .ready) &&
    p.pieces.isEmpty)
  mine.foldl (fun s p => completePass { p with status := 0x0B, detail := 0 } s) s

/-! Commands -/

/-- R136: `DOORBELL[r].TAIL`. -/
def execRingDoorbell (fn ctx ring tail : Nat) (s : State) : Res :=
  .next (if 16 ≤ ring then s else tenantWrite fn ctx (8 * ring) (ringDoorbell ctx ring (tail % 65536)) s)
/-- R138: `CQ_DOORBELL.HEAD`. -/
def execCqDoorbell (fn ctx head : Nat) (s : State) : Res :=
  .next (tenantWrite fn ctx 0x80 (cqDoorbell ctx (head % 65536)) s)
/-- R135: sets `RING_CFG[r].ENABLE` with the size given. -/
def execRingEnable (fn ctx ring log2Size : Nat) (s : State) : Res :=
  .next (if 16 ≤ ring then s else tenantWrite fn ctx (0x108 + 32 * ring) (ringEnable ctx ring (log2Size % 32)) s)
/-- R140: clears `RING_CFG[r].ENABLE`. -/
def execRingDisable (fn ctx ring : Nat) (s : State) : Res :=
  .next (if 16 ≤ ring then s else tenantWrite fn ctx (0x108 + 32 * ring) (ringDisable ctx ring) s)
/-- R140: `RING_CFG[r].ABORT`. -/
def execRingAbort (fn ctx ring : Nat) (s : State) : Res :=
  .next (if 16 ≤ ring then s else tenantWrite fn ctx (0x108 + 32 * ring) (ringAbort ctx ring) s)
/-- R135: a write to a ring's base or size; ring 16 is the completion ring. -/
def execRingConfigWrite (fn ctx ring : Nat) (isBase : Bool) (value : Nat) (s : State) : Res :=
  let off := if ring < 16 then 0x100 + 32 * ring + (if isBase then 0 else 8) else if isBase then 0x300 else 0x308
  .next (if 17 ≤ ring then s else tenantWrite fn ctx off (ringConfig ctx ring isBase value) s)
/-- R135: sets `CQ_CFG.ENABLE` with the size and `IRQ_EN` given. -/
def execCqEnable (fn ctx log2Size : Nat) (irqEn : Bool) (s : State) : Res :=
  .next (tenantWrite fn ctx 0x308 (cqEnable ctx (log2Size % 32) irqEn) s)
/-- R135: clears `CQ_CFG.ENABLE`. -/
def execCqDisable (fn ctx : Nat) (s : State) : Res := .next (tenantWrite fn ctx 0x308 (cqDisable ctx) s)
/-- R141: a write to `FENCE_VALUE[i]`. -/
def execFenceValue (fn ctx num value : Nat) (error : Bool) (s : State) : Res :=
  .next (if 64 ≤ num then s else tenantWrite fn ctx (0x1000 + 8 * num) (setFence ctx num value error) s)
/-- R141: a write to `FENCE_ADD[i]`. -/
def execFenceAdd (fn ctx num add : Nat) (s : State) : Res :=
  .next (if 64 ≤ num then s else tenantWrite fn ctx (0x1200 + 8 * num) (addFence ctx num add) s)

end Sys2Proof.Machine
end

