-- ==== Sys2Proof/Machine/Operands.lean ====
section
/-! DEFINITION. Operand forms of the Drunte contract: tensor descriptors (R148 to R150), tensors read from
a context's virtual space, and outputs converted, flagged, counted and written (R119 to R124, R127). -/

namespace Sys2Proof.Machine

/-! Tensor descriptors (R148) -/

/-- The eight words of a tensor descriptor. -/
structure TD where
  words : List Nat
deriving DecidableEq, Repr

def TD.w (t : TD) (i : Nat) : Nat := (t.words.drop i).headD 0
def TD.fmt (t : TD) : Nat := bits (t.w 0) 3 0
def TD.hint (t : TD) : Nat := bits (t.w 0) 5 4
def TD.hintEn (t : TD) : Bool := tst (t.w 0) 6
def TD.lastRead (t : TD) : Bool := tst (t.w 0) 7
def TD.draughtEn (t : TD) : Bool := tst (t.w 0) 8
def TD.tag (t : TD) : Nat := bits (t.w 0) 23 12
def TD.base (t : TD) : Nat := bits (t.w 1) 54 0
def TD.scaleBase (t : TD) : Nat := bits (t.w 2) 54 0
def TD.scaleDim (t : TD) : Nat := bits (t.w 7) 50 48

/-- Size of dimension i. -/
def TD.dim (t : TD) : Nat → Nat
  | 0 => bits (t.w 3) 24 0
  | 1 => bits (t.w 3) 63 32
  | 2 => bits (t.w 4) 31 0
  | 3 => bits (t.w 4) 63 32
  | _ => 1

/-- Byte stride of dimension i, 1 to 3; that of a dimension of size 1 is ignored (R149). -/
def TD.stride (t : TD) (i : Nat) : Nat := if t.dim i ≤ 1 then 0 else bits (t.w (4 + i)) 47 0

def TD.mx (t : TD) : Bool := Num.isMX t.fmt
def TD.width (t : TD) : Nat := Num.elemBits t.fmt

/-- Rows: the flattened dimensions 1 to 3, dimension 1 fastest (R124, R149). -/
def TD.rows (t : TD) : Nat := t.dim 1 * t.dim 2 * t.dim 3
def TD.rowIdx (t : TD) (r : Nat) : List Nat := [r % t.dim 1, r / t.dim 1 % t.dim 2, r / t.dim 1 / t.dim 2]
def TD.rowOf (t : TD) (i1 i2 i3 : Nat) : Nat := i1 + t.dim 1 * (i2 + t.dim 2 * i3)
def TD.rowBytes (t : TD) : Nat := ceilDiv (t.dim 0 * t.width) 8

/-- Address of row r. -/
def TD.rowAddr (t : TD) (r : Nat) : Nat :=
  t.base + r % t.dim 1 * t.stride 1 + r / t.dim 1 % t.dim 2 * t.stride 2 + r / t.dim 1 / t.dim 2 * t.stride 3

/-- Size of dimension i of the scale array (R149). -/
def TD.scaleSize (t : TD) (i : Nat) : Nat := if i = t.scaleDim then ceilDiv (t.dim i) 32 else t.dim i
def TD.scaleCount (t : TD) : Nat := t.scaleSize 0 * t.scaleSize 1 * t.scaleSize 2 * t.scaleSize 3

/-- Place of an element's scale code in the scale array: densely packed, dimension 0 innermost (R149). -/
def TD.scaleIdx (t : TD) (c r : Nat) : Nat :=
  let b (d i : Nat) : Nat := if d = t.scaleDim then i / 32 else i
  let i1 := r % t.dim 1
  let i2 := r / t.dim 1 % t.dim 2
  let i3 := r / t.dim 1 / t.dim 2
  b 0 c + t.scaleSize 0 * (b 1 i1 + t.scaleSize 1 * (b 2 i2 + t.scaleSize 2 * b 3 i3))

/-- Byte ranges of a tensor, first and end: its elements and, for an MX tensor, its scale array (R150). -/
def TD.extents (t : TD) : List (Nat × Nat) :=
  let span := (t.dim 1 - 1) * t.stride 1 + (t.dim 2 - 1) * t.stride 2 + (t.dim 3 - 1) * t.stride 3
  (t.base, t.base + span + t.rowBytes) ::
    (if t.mx then [(t.scaleBase, t.scaleBase + t.scaleCount)] else [])

/-- Some two of a rising list of row addresses lie closer than a row. -/
def closeRows (n : Nat) : List Nat → Bool
  | a :: b :: t => decide (b < a + n) || closeRows n (b :: t)
  | _ => false

/-- R149: rows of an output overlap one another, or its scale array overlaps them. -/
def TD.rowsOverlap (t : TD) : Bool :=
  let as := (List.range t.rows).map t.rowAddr
  closeRows t.rowBytes (sortNat as) ||
    (t.mx && as.any (fun a => decide (a < t.scaleBase + t.scaleCount) && decide (t.scaleBase < a + t.rowBytes)))

/-! Access units -/

/-- An access unit that did not complete: why, its address, length and access (R260). -/
structure UnitErr where
  err : AccErr
  va : Nat
  len : Nat
  access : Nat
deriving DecidableEq, Repr

/-- Reads a unit on behalf of the engine whose holder is h. -/
def rd (s : State) (h k va n : Nat) : Except UnitErr (List Byte) :=
  match vread s h k va n with
  | .error e => .error ⟨e, va, n, 0⟩
  | .ok d => .ok d

/-- Runs reads one after the other. -/
def mapE {α β : Type} (f : α → Except UnitErr β) : List α → Except UnitErr (List β)
  | [] => .ok []
  | a :: t =>
    match f a with
    | .error e => .error e
    | .ok b =>
      match mapE f t with
      | .error e => .error e
      | .ok l => .ok (b :: l)

/-- Makes writes of a holder one after the other, once every one of them translates. -/
def writeUnits (h k : Nat) (us : List (Nat × List Byte)) (s : State) : Except UnitErr State :=
  match mapE (fun u : Nat × List Byte =>
      match writePas s h k u.1 u.2.length with
      | .error e => .error ⟨e, u.1, u.2.length, 1⟩
      | .ok l => .ok (u.1, l, u.2)) us with
  | .error e => .error e
  | .ok ws => .ok (ws.foldl (fun s w => accessed h k w.1 w.2.2.length true (writeParts k w.2.1 w.2.2 s)) s)

/-! Tensors -/

/-- A tensor as read: its rows of element codes, and its scale codes. -/
structure Tensor where
  td : TD
  rows : List (List Nat)
  scales : List Byte
  /-- Exponent a of the draught tag it is read under (R128). -/
  bias : Int := 0

/-- Element codes of a row's bytes: element j at bit offset j times the width (R148). -/
def rowCodes (width n : Nat) (bytes : List Byte) : List Nat :=
  let x := ofBytes bytes
  (List.range n).map (fun j => (x >>> (j * width)) % 2 ^ width)

/-- The bytes of a row of element codes, zeros in the bits left over (R148). -/
def rowData (width : Nat) (codes : List Nat) : List Byte :=
  leBytes (ceilDiv (codes.length * width) 8) (codes.foldr (fun c n => c % 2 ^ width + n * 2 ^ width) 0)

/-- Reads a whole tensor of context k, as holder h. -/
def readTensor (s : State) (h k : Nat) (t : TD) (bias : Int) : Except UnitErr Tensor :=
  match mapE (fun r => rd s h k (t.rowAddr r) t.rowBytes) (List.range t.rows) with
  | .error e => .error e
  | .ok rs =>
    match if t.mx then rd s h k t.scaleBase t.scaleCount else .ok [] with
    | .error e => .error e
    | .ok sc => .ok { td := t, rows := rs.map (rowCodes t.width (t.dim 0)), scales := sc, bias := bias }

/-- Code of the element at row r, column c. -/
def Tensor.code (t : Tensor) (r c : Nat) : Nat := ((t.rows.drop r).headD []).getD c 0

/-- Scale code of an element: 2^0 for a format without block scales. -/
def Tensor.scale (t : Tensor) (r c : Nat) : Nat :=
  if t.td.mx then ((t.scales.drop (t.td.scaleIdx c r)).headD 0).toNat else 0x7F

/-- An element's value: scales and the draught bias of its tag applied exactly (R113, R128). -/
def Tensor.val (t : Tensor) (r c : Nat) : Num.Val :=
  Num.scaleBy t.bias (Num.applyScale (t.scale r c) (Num.decode t.td.fmt (t.code r c)))

/-- An element's code as a 32-bit two's complement integer (R162). -/
def Tensor.int (t : Tensor) (r c : Nat) : Int := sext 32 (t.code r c)

/-- Row of a tensor for indices of dimensions 1 to 3. -/
def Tensor.at3 (t : Tensor) (i0 i1 i2 i3 : Nat) : Num.Val := t.val (t.td.rowOf i1 i2 i3) i0

/-! Outputs -/

/-- What a class's work gives beside its writes: the flags with their first positions, the histogram. -/
structure Gathered where
  nonfinite : Option (Nat × Nat) := none
  saturated : Option (Nat × Nat) := none
  hist : List Nat := Num.emptyHist
deriving DecidableEq, Repr

/-- The earlier of two positions in raster order (R124). -/
def firstPos : Option (Nat × Nat) → Option (Nat × Nat) → Option (Nat × Nat)
  | none, b => b
  | a, none => a
  | some a, some b => if a.1 < b.1 ∨ (a.1 = b.1 ∧ a.2 ≤ b.2) then some a else some b

/-- Flags an element at a position. -/
def Gathered.mark (g : Gathered) (r c : Nat) (nonfinite saturated : Bool) : Gathered :=
  { g with nonfinite := if nonfinite then firstPos g.nonfinite (some (r, c)) else g.nonfinite
           saturated := if saturated then firstPos g.saturated (some (r, c)) else g.saturated }

/-- Converts the output's values: for each element its block's scale code and its conversion (R119 to
R122). A block of an MX target runs along `SCALE_DIM`. -/
def convertAt (t : TD) (sat : Bool) (v : Nat → Nat → Num.Val) (r c : Nat) : Nat × Num.Conv :=
  if !t.mx then (0x7F, Num.convert t.fmt sat (v r c))
  else
    let i := match t.scaleDim with | 0 => c | 1 => r % t.dim 1 | 2 => r / t.dim 1 % t.dim 2 | _ => r / t.dim 1 / t.dim 2
    let n := min 32 (t.dim t.scaleDim - i / 32 * 32)
    let blk := (List.range n).map (fun j =>
      let x := i / 32 * 32 + j
      match t.scaleDim with
      | 0 => v r x
      | 1 => v (r - i + x) c
      | 2 => v (r - i * t.dim 1 + x * t.dim 1) c
      | _ => v (r - i * t.dim 1 * t.dim 2 + x * t.dim 1 * t.dim 2) c)
    let b := Num.convBlock t.fmt sat blk
    (b.1, (b.2.drop (i % 32)).headD ⟨0, false, false⟩)

/-- Counts an element of the output in the histogram: from the value presented to conversion, or bin 69
when its block is written with scale 0xFF (R127). -/
def countElem (fmt : Nat) (base : Int) (h : List Nat) (v : Num.Val) (scale : Nat) (saturated : Bool) : List Nat :=
  Num.countHist h (if scale = 0xFF then 69 else Num.histBin fmt base v) saturated

/-- The runs of columns below `n` that satisfy a test: first column and count. -/
def runsOf (f : Nat → Bool) (n : Nat) : List (Nat × Nat) :=
  (List.range n).foldl (fun l c =>
    if !f c then l
    else match l with
      | (a, k) :: t => if a + k = c then (a, k + 1) :: t else (c, 1) :: l
      | [] => [(c, 1)]) []

/-- The writes of one row of codes: whole where every column is the hub's own, else run by run. -/
def rowWrites (t : TD) (nat : Nat → Nat → Bool) (r : Nat) (codes : List Nat) : List (Nat × List Byte) :=
  (runsOf (nat r) codes.length).map (fun x => (t.rowAddr r + x.1 * t.width / 8, rowData t.width ((codes.drop x.1).take x.2)))

/-- The writes of an MX output's scale array, from the code each place has, if the hub's own elements give it one. -/
def scaleWrites (t : TD) (code : Nat → Option Nat) : List (Nat × List Byte) :=
  if !t.mx then []
  else
    let l := (List.range t.scaleCount).map code
    if l.all Option.isSome then [(t.scaleBase, l.map (fun x => BitVec.ofNat 8 (x.getD 0)))]
    else (List.zip (List.range t.scaleCount) l).filterMap (fun e => e.2.map (fun c => (t.scaleBase + e.1, [BitVec.ofNat 8 c])))

/-- The rows and scales of an output as they are written, with what R123, R124 and R127 gather. `vals`
are the values presented to conversion, the bias already applied; `nat`: the elements that are not a guest's. -/
def convertOut (t : TD) (sat : Bool) (base : Int) (nat : Nat → Nat → Bool) (vals : List (List Num.Val)) (g : Gathered) :
    List (Nat × List Byte) × Gathered :=
  let v (r c : Nat) : Num.Val := ((vals.drop r).headD []).getD c .zero
  let rows := (List.range t.rows).map (fun r => (r, (List.range (t.dim 0)).map (fun c => convertAt t sat v r c)))
  let g := rows.foldl (fun g row =>
    (List.zip (List.range (t.dim 0)) row.2).foldl (fun g e =>
      if !nat row.1 e.1 then g
      else
        let x := e.2.2
        let g := g.mark row.1 e.1 x.nonfinite x.saturated
        { g with hist := countElem t.fmt base g.hist (v row.1 e.1) e.2.1 x.saturated }) g) g
  let data := rows.flatMap (fun row => rowWrites t nat row.1 (row.2.map (fun e => e.2.code)))
  (data ++ scaleWrites t (fun i => rows.findSome? (fun row =>
    (List.zip (List.range (t.dim 0)) row.2).findSome? (fun e =>
      if nat row.1 e.1 ∧ t.scaleIdx e.1 row.1 = i then some e.2.1 else none))), g)

/-- Flags and histogram of elements copied bit for bit (R179, R180, R188): the values are the elements'
own. -/
def gatherCopied (fmt : Nat) (base : Int) (els : List (Nat × Nat × Num.Val)) (g : Gathered) : Gathered :=
  els.foldl (fun g e =>
    let nf := match e.2.2 with | .fin .. => false | _ => true
    let g := g.mark e.1 e.2.1 nf false
    { g with hist := countElem fmt base g.hist e.2.2 0 false }) g

/-! Operands of a pass -/

/-- The descriptor in a slot, as read when the waits were satisfied. -/
def Pass.td (p : Pass) (i : Nat) : Option TD := ((p.tds.drop i).headD none).map TD.mk

/-- The draught exponent of the tensor in a slot (R128). -/
def Pass.inBiasAt (p : Pass) (i : Nat) : Int := (p.inBias.drop i).headD 0

/-- Reads the tensor in a slot, as holder h; an empty one is empty. -/
def readSlotBy (h : Nat) (s : State) (p : Pass) (i : Nat) : Except UnitErr Tensor :=
  match p.td i with
  | none => .ok { td := ⟨[]⟩, rows := [], scales := [] }
  | some t => readTensor s h p.ctx t (p.inBiasAt i)

/-- `OP_PARAMS` as one number of 192 bits. -/
def Pass.params (p : Pass) : Nat := p.word 5 + p.word 6 * 2 ^ 64 + p.word 7 * 2 ^ 128
def Pass.param (p : Pass) (hi lo : Nat) : Nat := bits p.params hi lo
def Pass.opclass (p : Pass) : Nat := bits (p.word 0) 7 0
def Pass.variant (p : Pass) : Nat := bits (p.word 0) 15 8
def Pass.satMode (p : Pass) : Bool := tst (p.word 0) 16
def Pass.histoEn (p : Pass) : Bool := tst (p.word 0) 18

/-- The holder that translates for a pass: the Plarus block's for a `COLLECTIVE`, else that of the first native tile that
runs a piece of it now. -/
def Pass.holder (p : Pass) : Nat :=
  if p.opclass = 0x0C then 81
  else ((p.pieces.filter (fun q => decide (q.exec < 64) && q.state == .running)).map (fun q => q.exec)).headD 0

/-- Reads the tensor in a slot for the work of the pass's class. -/
def readSlot (s : State) (p : Pass) (i : Nat) : Except UnitErr Tensor := readSlotBy p.holder s p i

/-- Writes that cannot safely be repeated (R164). -/
def Pass.unrepeatable (p : Pass) : Bool := (p.opclass == 0x06 && p.variant == 1) || (p.opclass == 0x07 && p.param 10 10 == 1)

/-- Row of the iteration space of an output row: the feature for `HISTO`, whose pieces are groups of features. -/
def Pass.spaceRow (p : Pass) (r : Nat) : Nat :=
  if p.opclass = 0x07 then (match p.td 3 with | some t => r % t.dim 1 | none => r) else r

/-- An element of the iteration space that native tiles are running now, not a class T guest (R157, R358); the whole of
it where the class has no pieces. -/
def Pass.native (p : Pass) (r c : Nat) : Bool :=
  let x := p.spaceRow r
  p.pieces.isEmpty || p.pieces.any (fun q => decide (q.exec < 64) && q.state == .running && decide (q.row0 ≤ x) &&
    decide (x < q.row0 + q.rows) && decide (q.col0 ≤ c) && decide (c < q.col0 + q.cols))

/-- Spans of memory that hold a tensor: its rows, and its block scales. -/
def TD.spans (t : TD) : List (Nat × Nat) :=
  (List.range t.rows).map (fun r => (t.rowAddr r, t.rowBytes)) ++ (if t.mx then [(t.scaleBase, t.scaleCount)] else [])

/-- Spans of an operand are read by a holder (R257, R272). How often an engine reads an element again is not stated: bytes
counted beyond one reading of them are a free value (R277, log entry 45). -/
def spansRead (h : Nat) (p : Pass) (s : State) (l : List (Nat × Nat)) : State :=
  let s := l.foldl (fun s e => accessed h p.ctx e.1 e.2 false s) s
  let va := (l.headD (0, 0)).1
  match walk s p.ctx va 0 with
  | .error _ => s
  | .ok x => if l.isEmpty then s else countBytes p.ctx (x.addr va / 32 * 32) (32 * drawn s) s

/-- Output slots of a class, the primary one first. -/
def outSlots (c : Nat) : List Nat :=
  match c with
  | 0x01 => [4] | 0x02 => [4, 5] | 0x03 => [4] | 0x05 => [3] | 0x06 => [3] | 0x07 => [3] | 0x08 => [3]
  | 0x0E => [0] | 0x0D => [] | 0x0F => [] | 0x10 => [] | _ => [1]

/-- The input slots' descriptors. -/
def Pass.inputs (p : Pass) : List TD :=
  (List.range 6).filterMap (fun i => if (outSlots p.opclass).contains i then none else p.td i)

end Sys2Proof.Machine
end

