-- ==== Sys2Proof/Machine/Operations.lean ====
section
/-! DEFINITION. What each Drunte operation class computes (R160 to R189): the bytes it writes to its
outputs, with the flags, positions and histogram of its primary output. A sum whose order the hub does not
fix is a free value within the stated bound, drawn under a seed. -/

namespace Sys2Proof.Machine

/-- The writes of a class's work, address and bytes, with what was gathered. -/
abbrev ClassOut := List (Nat × List Byte) × Gathered

/-- A free value's place: one per output element and use. -/
def freePos (r c use : Nat) : Nat := (r * 2 ^ 24 + c) * 4096 + use

/-- The output in a slot from its values (R121, R122, R127, R128). -/
def classOut (p : Pass) (slot : Nat) (vals : List (List Num.Val)) (g : Gathered) : ClassOut :=
  match p.td slot with
  | none => ([], g)
  | some t => convertOut t p.satMode p.winBase p.native (vals.map (fun row => row.map (Num.applyBias p.bias))) g

/-- A table of values by row and column. -/
def tabulate {α : Type} (rows cols : Nat) (f : Nat → Nat → α) : List (List α) :=
  (List.range rows).map (fun r => (List.range cols).map (f r))

/-! MATMUL (R166 to R169) -/

/-- A value rounded to FP32 under an output mode, and whether it saturated (R121, R167). -/
def fp32Step (sat : Bool) (v : Num.Val) : Num.Val × Bool :=
  let c := Num.convert 0 sat v
  (Num.ofF32 c.code, c.saturated)

/-- One operand element of a product along K: element code's exact value, and its block scale. -/
structure KElem where
  val : Num.Val
  scale : Nat

/-- The segments of K block `kb` (R84, R115): 32 elements each, missing ones zero (R112). -/
def kSegments (len kb : Nat) (a b : List KElem) : List (Nat × Nat × List Num.Val × List Num.Val) :=
  (List.range (len / 32)).map (fun g =>
    let cut (l : List KElem) : List KElem := ((l.drop (kb * len + 32 * g)).take 32)
    let sc (l : List KElem) : Nat := match l with | [] => 0x7F | e :: _ => e.scale
    (sc (cut a), sc (cut b), (cut a).map (·.val), (cut b).map (·.val)))

/-- The FP32 accumulator entry after all K blocks (R116, R117), and whether a write of it saturated; a
free value within R126 where no value was out of range. -/
def dotFloat (fa fb : Nat) (sat : Bool) (seed pos : Nat) (a b : List KElem) : Num.Val × Bool :=
  let len := Num.kBlockLen fa fb
  let n := ceilDiv a.length len
  let md := (Num.pairMode fa fb).getD .exact
  let r := (List.range n).foldl (fun (x : Nat × Bool × Bool) kb =>
      let c := Num.accWrite (kb == 0) sat x.1 (Num.columnWide md (kSegments len kb a b))
      (c.code, x.2.1 || c.saturated, x.2.2 || c.nonfinite)) (0, false, false)
  let v := Num.ofF32 r.1
  if r.2.1 || r.2.2 then (v, r.2.1)
  else
    let ps := List.zipWith (fun x y => Num.mul (Num.applyScale x.scale x.val) (Num.applyScale y.scale y.val)) a b
    (Num.freeWithin seed pos (Num.sum ps) (Num.matBound n (Num.sum (ps.map Num.abs))) v, false)

/-- The INT32 accumulator entry after all K blocks (R118), and whether it saturated. -/
def dotInt (a b : List KElem) : Nat × Bool :=
  (List.range (ceilDiv a.length 128)).foldl (fun (x : Nat × Bool) kb =>
    let c := Num.accWriteInt (kb == 0) x.1 (Num.columnWide .integer (kSegments 128 kb a b))
    (c.code, x.2 || c.saturated)) (0, false)

/-- Operand element of a tensor for row index m of its outer matrix dimension, k along K, batch (b2, b3). -/
def matElem (t : Tensor) (kFast : Bool) (m k b2 b3 : Nat) : KElem :=
  let (c, r) := if kFast then (k, t.td.rowOf m b2 b3) else (m, t.td.rowOf k b2 b3)
  ⟨Num.scaleBy t.bias (Num.decode t.td.fmt (t.code r c)), t.scale r c⟩

/-- The epilogue of R167 on accumulator value a, and whether a step saturated. -/
def epilogue (p : Pass) (sat : Bool) (seed pos : Nat) (a : Num.Val) (bias c : Option Num.Val) : Num.Val × Bool :=
  let x := if p.param 2 2 = 1 then fp32Step sat (Num.mul (Num.ofF32 (p.param 63 32)) a) else (a, false)
  let y := match bias with
    | none => x
    | some b => let z := fp32Step sat (Num.add x.1 b); (z.1, x.2 || z.2)
  let y := match c with
    | none => y
    | some c =>
      let beta := if p.param 3 3 = 1 then Num.ofF32 (p.param 95 64) else Num.ofInt 1
      let q := fp32Step sat (Num.mul beta c)
      let z := fp32Step sat (Num.add y.1 q.1)
      (z.1, y.2 || q.2 || z.2)
  (Num.act (p.param 7 4) seed pos y.1, y.2)

/-- The epilogue of integer mode (R168): the bias added with saturation, ReLU where named. -/
def epilogueInt (p : Pass) (a : Nat) (bias : Option Nat) : Num.Val × Bool :=
  let x := match bias with
    | none => (⟨a, false, false⟩ : Num.Conv)
    | some b => Num.accWriteInt false a (Num.decode 0xC b)
  let v := Num.decode 0xC x.code
  (if p.param 7 4 = 1 ∧ Num.lt v .zero then .zero else v, x.saturated)

/-- MATMUL (R166 to R168). -/
def matmul (s : State) (p : Pass) : Except UnitErr ClassOut :=
  match readSlot s p 0, readSlot s p 1, readSlot s p 2, readSlot s p 3, p.td 4 with
  | .error e, _, _, _, _ => .error e
  | _, .error e, _, _, _ => .error e
  | _, _, .error e, _, _ => .error e
  | _, _, _, .error e, _ => .error e
  | .ok a, .ok b, .ok bi, .ok c, some d =>
    let ta := p.param 0 0 = 1
    let tb := p.param 1 1 = 1
    let k := if ta then a.td.dim 1 else a.td.dim 0
    let int := a.td.fmt == 0xB && b.td.fmt == 0xB
    let cell (r n : Nat) : Num.Val × Bool :=
      let m := r % d.dim 1
      let b2 := r / d.dim 1 % d.dim 2
      let b3 := r / d.dim 1 / d.dim 2
      let xs := (List.range k).map (fun i => matElem a (!ta) m i b2 b3)
      let ws := (List.range k).map (fun i => matElem b tb n i b2 b3)
      if int then
        let acc := dotInt xs ws
        let v := epilogueInt p acc.1 ((p.td 2).map (fun t => bi.code (t.rowOf 0 b2 b3) n))
        (v.1, acc.2 || v.2)
      else
        let acc := dotFloat a.td.fmt b.td.fmt p.satMode s.fresh (freePos r n 0) xs ws
        let v := epilogue p p.satMode s.fresh (freePos r n 1) acc.1
          ((p.td 2).map (fun t => bi.val (t.rowOf 0 b2 b3) n)) ((p.td 3).map (fun _ => c.val r n))
        (v.1, acc.2 || v.2)
    let cells := tabulate d.rows (d.dim 0) cell
    let g := (List.zip (List.range d.rows) cells).foldl (fun g row =>
      (List.zip (List.range (d.dim 0)) row.2).foldl (fun g e => g.mark row.1 e.1 false (e.2.2 && p.native row.1 e.1)) g) ({} : Gathered)
    .ok (classOut p 4 (cells.map (fun row => row.map (·.1))) g)
  | _, _, _, _, none => .ok ([], {})

/-! ATTEND (R170 to R173) -/

/-- Key j is unmasked for query row i (R171). -/
def unmasked (p : Pass) (mask : Option Tensor) (b h i j : Nat) : Bool :=
  let pos := i + p.param 117 100
  let causal := p.param 0 0 = 0 ∨ j ≤ pos
  let window := p.param 1 1 = 0 ∨ (pos ≤ j + p.param 81 64 ∧ j ≤ pos + p.param 99 82)
  let block := match mask with
    | none => true
    | some m => m.code (m.td.rowOf (i / 128) h b) (j / 128) != 0
  decide causal && decide window && block

/-- The largest of values that are not NaN; -Inf of none. -/
def maxVal (vs : List Num.Val) : Num.Val := vs.foldl (fun m v => if Num.lt m v then v else m) (.inf true)

/-- ATTEND (R170 to R172): the primary output and LSE. The second product runs over the key blocks that are not skipped for
the row's block of 128 query rows (R171). -/
def attend (s : State) (p : Pass) : Except UnitErr ClassOut :=
  match readSlot s p 0, readSlot s p 1, readSlot s p 2, readSlot s p 3, p.td 4 with
  | .error e, _, _, _, _ => .error e
  | _, .error e, _, _, _ => .error e
  | _, _, .error e, _, _ => .error e
  | _, _, _, .error e, _ => .error e
  | .ok q, .ok k, .ok v, .ok bm, some o =>
    let sq := o.dim 1
    let hq := o.dim 2
    let skv := k.td.dim 1
    let mask := (p.td 3).map (fun _ => bm)
    let scale := if p.param 3 3 = 1 then Num.ofF32 (p.param 63 32)
      else Num.div (Num.ofInt 1) (Num.sqrt (Num.ofInt (q.td.dim 0 : Nat)))
    let touched (h b i : Nat) : Nat :=
      ((List.range (ceilDiv skv 128)).filter (fun kb => (List.range 128).any (fun y =>
        decide (i / 128 * 128 + y < sq) && (List.range 128).any (fun x =>
          decide (kb * 128 + x < skv) && unmasked p mask b h (i / 128 * 128 + y) (kb * 128 + x))))).length
    let eps := if v.td.fmt = 1 ∨ v.td.fmt = 2 then Num.scaleBy (-8) (Num.ofInt 1) else Num.scaleBy (-4) (Num.ofInt 1)
    let rowOf (r : Nat) : List Num.Val × Num.Val :=
      let i := r % sq
      let h := r / sq % hq
      let b := r / sq / hq
      let g := h * k.td.dim 2 / hq
      let js := (List.range skv).filter (unmasked p mask b h i)
      let qs := (List.range (q.td.dim 0)).map (fun d => matElem q true i d h b)
      let sc := js.map (fun j =>
        let ks := (List.range (q.td.dim 0)).map (fun d => matElem k true j d g b)
        Num.round32 (Num.trim (Num.mul scale (dotFloat q.td.fmt k.td.fmt false s.fresh (freePos r j 2) qs ks).1)))
      let m := maxVal sc
      let es := sc.map (fun x => Num.trim (Num.expR (Num.add x (Num.neg m))))
      let z := Num.sum es
      let ps := es.map (fun e => Num.trim (Num.div e z))
      let col (c : Nat) : Num.Val :=
        let vs := js.map (fun j => v.val (v.td.rowOf j g b) c)
        let ts := List.zipWith Num.mul ps vs
        let x := Num.trim (Num.sum ts)
        let big := maxVal (vs.map Num.abs)
        let bound := Num.add (Num.mul (Num.add eps (Num.scaleBy (-20) (Num.ofInt 1))) big)
          (Num.matBound (touched h b i) (Num.trim (Num.sum (ts.map Num.abs))))
        Num.freeWithin s.fresh (freePos r c 3) x bound (Num.round32 x)
      if js.isEmpty then ((List.range (o.dim 0)).map (fun _ => .zero), .inf true)
      else if sc.any (· == .nan) then ((List.range (o.dim 0)).map (fun _ => .nan), .nan)
      else ((List.range (o.dim 0)).map col, Num.round32 (Num.trim (Num.add m (Num.lnR z))))
    let rows := (List.range o.rows).map rowOf
    let main := classOut p 4 (rows.map (·.1)) {}
    let lse := match p.td 5 with
      | none => []
      | some t => (List.range t.rows).flatMap (fun r =>
          rowWrites t (fun r i => p.native (i + sq * r) 0) r ((List.range (t.dim 0)).map (fun i =>
            Num.toF32 ((rows.drop (i + sq * r)).headD ([], .zero)).2)))
    .ok (main.1 ++ lse, main.2)
  | _, _, _, _, none => .ok ([], {})

/-! VECTOR (R174, R175) -/

/-- The greatest integer not above a value. -/
def floorVal : Num.Val → Num.Val
  | .fin n m e =>
    if 0 ≤ e ∨ m = 0 then .fin n m e
    else
      let k := (-e).toNat
      let q := m >>> k
      if n then (let u := q + b2n (decide (q <<< k ≠ m)); .fin true u 0) else .fin false q 0
  | v => v

/-- The larger of two values (R175): NaN if either is, +0 over -0. -/
def maxOf (x y : Num.Val) : Num.Val :=
  if x == .nan || y == .nan then .nan
  else if Num.lt x y then y
  else if Num.lt y x then x
  else match x with
    | .fin true 0 _ => y
    | _ => x

def minOf (x y : Num.Val) : Num.Val := Num.neg (maxOf (Num.neg x) (Num.neg y))

/-- One step on registers (r, s), its operands read (R175). `y` is the step's Y field. -/
def vectorStep (op y : Nat) (seed pos : Nat) (r s : Num.Val) (a b : Num.Val) : Num.Val × Num.Val :=
  let in32 := Num.toF32 a
  let one := Num.ofInt 1
  match op with
  | 0x01 => (Num.round32 (Num.add a b), s)
  | 0x02 => (Num.round32 (Num.add a (Num.neg b)), s)
  | 0x03 => (Num.round32 (Num.mul a b), s)
  | 0x04 => (Num.round32 (Num.div a b), s)
  | 0x05 => (Num.round32 (Num.add (Num.mul a b) r), s)
  | 0x06 => (maxOf a b, s)
  | 0x07 => (minOf a b, s)
  | 0x08 => (Num.abs a, s)
  | 0x09 => (Num.neg a, s)
  | 0x0A => (Num.round32 (Num.sqrt a), s)
  | 0x0B => (Num.bounded 1 seed pos in32 (Num.div one (Num.sqrt a)), s)
  | 0x0C => (Num.bounded 1 seed pos in32 (Num.div one a), s)
  | 0x0D => (Num.bounded 2 seed pos in32 (Num.expR a), s)
  | 0x0E => (Num.bounded 2 seed pos in32 (Num.lnR a), s)
  | 0x0F => (Num.act y seed pos a, s)
  | 0x10 => (if Num.lt b a then one else .zero, s)
  | 0x11 => (if Num.isZero a then r else b, s)
  | 0x12 => (r, r)
  | 0x13 => (floorVal a, s)
  | 0x14 => (a, s)
  | _ => (r, s)

/-- Step t of a program: OP, X and Y (R174). -/
def stepOf (p : Pass) (t : Nat) : Nat × Nat × Nat :=
  let x := p.param (26 + 11 * t) (16 + 11 * t)
  (bits x 4 0, bits x 7 5, bits x 10 8)

/-- VECTOR (R174, R175). -/
def vector (s : State) (p : Pass) : Except UnitErr ClassOut :=
  match mapE (readSlot s p) [0, 1, 2, 3, 5], p.td 4 with
  | .error e, _ => .error e
  | .ok ts, some o =>
    let input (i r c : Nat) : Num.Val := match ts.drop i with | t :: _ => t.val r c | [] => .zero
    let elem (r c : Nat) : Num.Val :=
      ((List.range (p.param 3 0 + 1)).foldl (fun (x : Num.Val × Num.Val) t =>
        let st := stepOf p t
        let src (i : Nat) : Num.Val :=
          if i < 4 then input i r c else if i = 4 then x.1 else if i = 5 then x.2
          else if i = 6 then input 4 0 t else .zero
        vectorStep st.1 st.2.2 s.fresh (freePos r c (16 + t)) x.1 x.2 (src st.2.1) (src st.2.2)) (.zero, .zero)).1
    .ok (classOut p 4 (tabulate o.rows (o.dim 0) elem) {})
  | _, none => .ok ([], {})

/-! REDUCE (R176, R177) -/

/-- The input indices that an output element reduces, as (column, row) of the input. -/
def reduceIdx (t : TD) (axes : Nat) (r c : Nat) : List (Nat × Nat) :=
  let span (d i : Nat) : List Nat := if tst axes d then List.range (t.dim d) else [i]
  let d1 := if tst axes 1 then 1 else t.dim 1
  let d2 := if tst axes 2 then 1 else t.dim 2
  (span 3 (r / d1 / d2)).flatMap (fun i3 => (span 2 (r / d1 % d2)).flatMap (fun i2 =>
    (span 1 (r % d1)).flatMap (fun i1 => (span 0 c).map (fun i0 => (i0, t.rowOf i1 i2 i3)))))

/-- The reduction of a list of terms (R176, R177). -/
def reduceTerms (op seed pos : Nat) (ts : List Num.Val) : Num.Val :=
  let square (v : Num.Val) : Num.Val := Num.round32 (Num.mul v v)
  match op with
  | 0 => Num.reduceSum seed pos ts
  | 1 => Num.round32 (Num.div (Num.reduceSum seed pos ts) (Num.ofInt (ts.length : Nat)))
  | 2 => match ts with | [] => .inf true | a :: t => t.foldl maxOf a
  | 3 => match ts with | [] => .inf false | a :: t => t.foldl minOf a
  | 4 => Num.reduceSum seed pos (ts.map square)
  | _ => Num.round32 (Num.sqrt (Num.reduceSum seed pos (ts.map square)))

/-- REDUCE (R176, R177). INT32 input is widened to FP32 with one rounding. -/
def reduce (s : State) (p : Pass) : Except UnitErr ClassOut :=
  match readSlot s p 0, p.td 1 with
  | .error e, _ => .error e
  | .ok x, some o =>
    let widen (v : Num.Val) : Num.Val := if x.td.fmt = 0xC then Num.round32 v else v
    .ok (classOut p 1 (tabulate o.rows (o.dim 0) (fun r c =>
      reduceTerms (p.param 3 0) s.fresh (freePos r c 0)
        ((reduceIdx x.td (p.param 7 4) r c).map (fun i => widen (x.val i.2 i.1))))) {})
  | _, none => .ok ([], {})

/-! GATHER and SCATTER (R178 to R181) -/

/-- The table row an index reads (R178, R179): none skips; `some none` a row of +0. -/
def gatherRow (clamp : Bool) (rows : Nat) (i : Int) : Option (Option Nat) :=
  if i = -1 then none
  else if 0 ≤ i ∧ i < rows then some (some i.toNat)
  else if !clamp then some none
  else some (some (if i < 0 then 0 else rows - 1))

/-- Codes of one table row; a row of +0 where none is read. -/
def tableRow (s : State) (h k : Nat) (t : TD) : Option Nat → Except UnitErr (List Nat)
  | none => .ok (List.replicate (t.dim 0) 0)
  | some r =>
    match rd s h k (t.rowAddr r) t.rowBytes with
    | .error e => .error e
    | .ok b => .ok (rowCodes t.width (t.dim 0) b)

/-- GATHER (R179). -/
def gatherClass (s : State) (p : Pass) : Except UnitErr ClassOut :=
  match p.td 0, readSlot s p 1, readSlot s p 2, p.td 3 with
  | _, .error e, _, _ => .error e
  | _, _, .error e, _ => .error e
  | some t, .ok ix, .ok w, some o =>
    let clamp := p.param 0 0 = 1
    if p.variant = 0 then
      match mapE (fun i => tableRow s p.holder p.ctx t (if p.native i 0 then (gatherRow clamp (t.dim 1) (ix.int 0 i)).getD none else none)) (List.range (o.dim 1)) with
      | .error e => .error e
      | .ok rows =>
        let els := (List.zip (List.range rows.length) rows).flatMap (fun r =>
          (List.zip (List.range (o.dim 0)) r.2).map (fun e => (r.1, e.1, Num.decode o.fmt e.2)))
        .ok ((List.zip (List.range rows.length) rows).flatMap (fun r => rowWrites o p.native r.1 r.2),
          gatherCopied o.fmt p.winBase (els.filter (fun e => p.native e.1 e.2.1)) {})
    else
      let bag (i : Nat) : Except UnitErr (List (Num.Val × List Nat)) :=
        let ks := if !p.native i 0 then [] else (List.range (ix.td.dim 0)).filterMap (fun k =>
          (gatherRow clamp (t.dim 1) (ix.int i k)).map (fun r => (k, r)))
        mapE (fun (kr : Nat × Option Nat) =>
          match tableRow s p.holder p.ctx t kr.2 with
          | .error e => .error e
          | .ok row => .ok (if (p.td 2).isSome then w.val i kr.1 else Num.ofInt 1, row)) ks
      match mapE bag (List.range (o.dim 1)) with
      | .error e => .error e
      | .ok bags =>
        let vals := (List.zip (List.range bags.length) bags).map (fun b =>
          (List.range (o.dim 0)).map (fun c =>
            let ts := b.2.map (fun x => Num.round32 (Num.mul x.1
              (Num.scaleBy (p.inBiasAt 0) (Num.decode t.fmt (x.2.getD c 0)))))
            Num.freeWithin s.fresh (freePos b.1 c 0) (Num.sum ts)
              (Num.reduceBound (ix.td.dim 0) (Num.sum (ts.map Num.abs))) (Num.round32 (Num.sum ts))))
        .ok (classOut p 3 vals {})
  | _, _, _, _ => .ok ([], {})

/-- The order in which duplicates add, which the hub does not fix (R180): by free numbers. -/
def freeOrder (seed : Nat) (l : List (Nat × Nat)) : List (Nat × Nat) :=
  let key (x : Nat × Nat) : Nat := Config.freeF32 seed x.1
  let ins (x : Nat × Nat) : List (Nat × Nat) → List (Nat × Nat) := fun l =>
    l.takeWhile (fun y => decide (key y < key x)) ++ [x] ++ l.dropWhile (fun y => decide (key y < key x))
  l.foldr ins []

/-- One SCATTER add to a table element: the sum is rounded once to the table's format under the output mode; the sum, and
whether an add of this element saturated, go on to what R123, R124 and R127 gather. -/
def scatterAdd (fmt : Nat) (sat : Bool) (x : Nat × Num.Val × Bool) (src : Nat) : Nat × Num.Val × Bool :=
  let v := Num.add (Num.decode fmt x.1) (Num.decode fmt src)
  let c := Num.convert fmt sat v
  (c.code, v, x.2.2 || c.saturated)

/-- SCATTER (R180): rows written by table row. Of the source rows that name one table row, variant 0 writes the one with the
highest index, in whichever piece it stands. -/
def scatter (s : State) (p : Pass) : Except UnitErr ClassOut :=
  match readSlot s p 0, readSlot s p 1, p.td 3 with
  | .error e, _, _ => .error e
  | _, .error e, _ => .error e
  | .ok src, .ok ix, some t =>
    let named := (List.range (ix.td.dim 0)).filterMap (fun i =>
      let x := ix.int 0 i
      if 0 ≤ x ∧ x < (t.dim 1 : Nat) then some (i, x.toNat) else none)
    let hits := named.filter (fun x => p.native x.1 0 &&
      (p.variant != 0 || !named.any (fun y => y.2 == x.2 && decide (x.1 < y.1))))
    let hits := if p.variant = 0 then hits else freeOrder s.fresh hits
    let rows := hits.foldl (fun l x => addNew l x.2) []
    let base (r : Nat) : Except UnitErr (List Nat) :=
      if p.variant = 0 then .ok (List.replicate (t.dim 0) 0) else tableRow s p.holder p.ctx t (some r)
    match mapE (fun r => match base r with | .error e => .error e | .ok b => .ok (r, b)) rows with
    | .error e => .error { e with access := 2 }
    | .ok olds =>
      let news := olds.map (fun (ro : Nat × List Nat) =>
        (ro.1, (hits.filter (fun x => x.2 == ro.1)).foldl (fun row x =>
          let new := (List.range (t.dim 0)).map (src.code x.1)
          if p.variant = 0 then new.map (fun c => (c, Num.decode t.fmt c, false))
          else List.zipWith (scatterAdd t.fmt p.satMode) row new) (ro.2.map (fun c => (c, Num.Val.zero, false)))))
      let g := news.foldl (fun g r => (List.zip (List.range (t.dim 0)) r.2).foldl (fun g e =>
        let nf := match Num.decode t.fmt e.2.1 with | .fin .. => false | _ => true
        let g := g.mark r.1 e.1 nf e.2.2.2
        { g with hist := countElem t.fmt p.winBase g.hist e.2.2.1 0 e.2.2.2 }) g) ({} : Gathered)
      .ok (news.map (fun r => (t.rowAddr r.1, rowData t.width (r.2.map (·.1)))), g)
  | _, _, none => .ok ([], {})

/-! HISTO (R182, R183) -/

/-- HISTO (R182, R183). -/
def histo (s : State) (p : Pass) : Except UnitErr ClassOut :=
  match readSlot s p 0, readSlot s p 1, readSlot s p 2, p.td 3 with
  | .error e, _, _, _ => .error e
  | _, .error e, _, _ => .error e
  | _, _, .error e, _ => .error e
  | .ok ix, .ok gr, .ok nd, some o =>
    let accumulate := p.param 10 10 = 1
    match if accumulate then readTensor s p.holder p.ctx o 0 else .ok { td := o, rows := [], scales := [] } with
    | .error e => .error e
    | .ok old =>
      let v := if p.param 9 9 = 1 then 3 else 2
      let base := sext 32 (p.param 63 32)
      let cell (r c : Nat) : Num.Val :=
        let f := r % o.dim 1
        let q := r / o.dim 1
        let ns := (List.range (ix.td.dim 1)).filter (fun n => nd.int 0 n - base == q && ix.code n f == c / v)
        let prev := if accumulate then [old.val r c] else []
        if c % v = 2 then
          let total := Num.sum (prev ++ [Num.ofInt (ns.length : Nat)])
          if !Num.lt (Num.ofInt (2 ^ 24 : Nat)) total then Num.round32 total
          else Num.reduceSum s.fresh (freePos r c 0) (prev ++ ns.map (fun _ => Num.ofInt 1))
        else Num.reduceSum s.fresh (freePos r c 0) (prev ++ ns.map (fun n => gr.val n (c % v)))
      .ok (classOut p 3 (tabulate o.rows (o.dim 0) cell) {})
  | _, _, _, none => .ok ([], {})

/-! TREES (R184 to R186) -/

/-- Follows a tree for one row (R186): the leaf's column and value, or none where the contribution is
invalid. `fuel` is the interior nodes still allowed. -/
def treeLeaf (nodes : Tensor) (x : Nat → Num.Val) (features outs : Nat) : Nat → Nat → Option (Nat × Num.Val)
  | fuel, i =>
    if 2 ^ 26 ≤ i ∨ nodes.td.dim 1 ≤ i then none
    else
      let a := nodes.code i 0
      if bits a 31 26 ≠ 0 then none
      else if tst a 24 then
        if outs ≤ nodes.code i 2 then none else some (nodes.code i 2, Num.ofF32 (nodes.code i 1))
      else if features ≤ bits a 23 0 then none
      else
        match fuel with
        | 0 => none
        | n + 1 =>
          let v := x (bits a 23 0)
          let left := Num.lt v (Num.ofF32 (nodes.code i 1)) || (v == .nan && tst a 25 && Num.ofF32 (nodes.code i 1) != .nan)
          treeLeaf nodes x features outs n (if left then nodes.code i 2 else nodes.code i 3)

/-- Softmax of a row of scores, within 4 ulp (R184). -/
def softmaxRow (seed r : Nat) (vs : List Num.Val) : List Num.Val :=
  let m := maxVal vs
  let es := vs.map (fun x => Num.trim (Num.expR (Num.add x (Num.neg m))))
  let z := Num.sum es
  if vs.any (· == .nan) then vs.map (fun _ => .nan)
  else (List.zip (List.range vs.length) es).map (fun e =>
    Num.bounded 4 seed (freePos r e.1 9) (Num.toF32 e.2) (Num.trim (Num.div e.2 z)))

/-- TREES (R184 to R186). -/
def trees (s : State) (p : Pass) : Except UnitErr ClassOut :=
  match readSlot s p 0, readSlot s p 1, readSlot s p 2, p.td 3 with
  | .error e, _, _, _ => .error e
  | _, .error e, _, _ => .error e
  | _, _, .error e, _ => .error e
  | .ok fs, .ok nodes, .ok roots, some o =>
    let outs := o.dim 0
    let rows := (List.range o.rows).map (fun r =>
      let leaves := (List.range (roots.td.dim 0)).map (fun t =>
        treeLeaf nodes (fs.val r) (fs.td.dim 0) outs 16 (roots.code 0 t))
      if leaves.any (·.isNone) then (List.range outs).map (fun _ => Num.Val.nan)
      else
        let ls := leaves.filterMap id
        let sums := (List.range outs).map (fun c =>
          let ts := Num.ofF32 (p.param 63 32) :: (ls.filter (fun l => l.1 == c)).map (·.2)
          Num.freeWithin s.fresh (freePos r c 0) (Num.sum ts)
            (Num.reduceBound (roots.td.dim 0 + 1) (Num.sum (ts.map Num.abs))) (Num.round32 (Num.sum ts)))
        match p.param 1 0 with
        | 0 => sums
        | 1 => (List.zip (List.range outs) sums).map (fun e => Num.act 5 s.fresh (freePos r e.1 8) e.2)
        | _ => softmaxRow s.fresh r sums)
    .ok (classOut p 3 rows {})
  | _, _, _, none => .ok ([], {})

/-! CONVERT, COPY, LAYOUT (R187 to R189) -/

/-- CONVERT (R187). -/
def convertClass (s : State) (p : Pass) : Except UnitErr ClassOut :=
  match readSlot s p 0, p.td 1 with
  | .error e, _ => .error e
  | .ok x, some o => .ok (classOut p 1 (tabulate o.rows (o.dim 0) x.val) {})
  | _, none => .ok ([], {})

/-- A bit-for-bit copy into the output, its element at (row, column) taken from `src`: a tensor, and the row and
column there; scales go with their blocks (R188, R189, R190). -/
def copyFrom (p : Pass) (o : TD) (src : Nat → Nat → Tensor × Nat × Nat) : ClassOut :=
  let rows := (List.range o.rows).flatMap (fun r =>
    rowWrites o p.native r ((List.range (o.dim 0)).map (fun c => (src r c).1.code (src r c).2.1 (src r c).2.2)))
  let els := ((List.range o.rows).flatMap (fun r => (List.range (o.dim 0)).map (fun c =>
    (r, c, (src r c).1.val (src r c).2.1 (src r c).2.2)))).filter (fun e => p.native e.1 e.2.1)
  (rows ++ scaleWrites o (fun i => els.findSome? (fun e =>
      if o.scaleIdx e.2.1 e.1 = i then some ((src e.1 e.2.1).1.scale (src e.1 e.2.1).2.1 (src e.1 e.2.1).2.2) else none)),
    gatherCopied o.fmt p.winBase els {})

/-- COPY (R188). -/
def copyClass (s : State) (p : Pass) : Except UnitErr ClassOut :=
  match readSlot s p 0, p.td 1 with
  | .error e, _ => .error e
  | .ok x, some o => .ok (copyFrom p o (fun r c => (x, r, c)))
  | _, none => .ok ([], {})

/-- Source dimension of output dimension d (R189). -/
def permOf (p : Pass) (d : Nat) : Nat := p.param (2 * d + 1) (2 * d)

/-- LAYOUT (R189). -/
def layout (s : State) (p : Pass) : Except UnitErr ClassOut :=
  match readSlot s p 0, p.td 1 with
  | .error e, _ => .error e
  | .ok x, some o =>
    .ok (copyFrom p o (fun r c =>
      let out := c :: o.rowIdx r
      let src (d : Nat) : Nat :=
        match (List.range 4).find? (fun e => permOf p e == d) with
        | some e => out.getD e 0
        | none => 0
      (x, x.td.rowOf (src 1) (src 2) (src 3), src 0)))
  | _, none => .ok ([], {})

/-! COLLECTIVE (R190) -/

/-- The bytes of a tensor as members of a group exchange them: rows, then scale codes. -/
def Tensor.packed (x : Tensor) : List Byte := x.rows.flatMap (rowData x.td.width) ++ x.scales

/-- A member's tensor, of the shape of this hub's own, from those bytes. -/
def unpackAs (x : Tensor) (b : List Byte) : Tensor :=
  let n := x.td.rowBytes
  { x with
    rows := (List.range x.td.rows).map (fun r => rowCodes x.td.width (x.td.dim 0) (slice b (n * r) n))
    scales := slice b (n * x.td.rows) x.scales.length }

/-- Place along dimension d of an output element, and the same element at another place there. -/
def placeAlong (t : TD) (d r c : Nat) : Nat := (c :: t.rowIdx r).getD d 0

/-- COLLECTIVE (R190) over the members' inputs in rank order, this hub being rank `rank`. -/
def collective (seed : Nat) (p : Pass) (xs : List Tensor) (rank : Nat) : ClassOut :=
  match xs, p.td 1 with
  | x :: _, some o =>
    let d := p.param 5 4
    let coords (r c : Nat) (i : Nat) : Nat × Nat :=
      let l := (c :: o.rowIdx r).set d i
      (x.td.rowOf (l.getD 1 0) (l.getD 2 0) (l.getD 3 0), l.getD 0 0)
    match p.param 1 0 with
    | 1 =>
      let n := max 1 (x.td.dim d)
      copyFrom p o (fun r c =>
        let i := placeAlong o d r c
        let at_ := coords r c (i % n)
        ((xs.drop (i / n)).headD x, at_.1, at_.2))
    | k =>
      let op := match p.param 3 2 with | 0 => 0 | 1 => 2 | _ => 3
      classOut p 1 (tabulate o.rows (o.dim 0) (fun r c =>
        let i := placeAlong o d r c
        let at_ := coords r c (if k = 2 then rank * o.dim d + i else i)
        reduceTerms op seed (freePos r c 0) (xs.map (fun t => t.val at_.1 at_.2)))) {}
  | _, _ => ([], {})

end Sys2Proof.Machine
end

