-- ==== Sys2Proof/Machine/Binding.lean ====
section
/-! DEFINITION. Binding events: the configuration digest and event log of a context (R308), and pages that
are bound, released, taken out of service or returned (R80, R102, R312). -/

namespace Sys2Proof.Machine

def generation (s : State) (p : Nat) : Nat := fld s p Reg.BINDING_GENERATION
def bumpGeneration (p : Nat) (s : State) : State := setFld p Reg.BINDING_GENERATION (generation s p + 1) s

/-- The 32-byte event record of R308: event, coppice kind, index, count, generation, bytes 16 to 31. -/
def eventRecord (ev kind index count gen : Nat) (tail : List Byte) : List Byte :=
  leBytes 2 (ev + 256 * kind) ++ leBytes 2 0 ++ leBytes 4 index ++ leBytes 4 count ++ leBytes 2 gen ++ leBytes 2 0
    ++ slice tail 0 16

/-- A binding event of context k (R308): 0x01 bind, 0x02 release, 0x03 seal, 0x04 start. Context 0x00's
digest is kept like any other's. -/
def bindEvent (k ev kind index count gen : Nat) (tail : List Byte) (s : State) : State :=
  let r := eventRecord ev kind index count gen tail
  modCtx k (fun c => { c with digest := Config.sha512 (leBytes 64 c.digest ++ r), log := c.log ++ [r] }) s

/-- The tile's TCLK and voltage take or leave the sealed setting (R472): stretching stops at the switch (R482). -/
def tileSetting (n : Nat) (sealedNow : Bool) (s : State) : State :=
  modTile n (fun t => { t with sealedSetting := sealedNow, stretch := if sealedNow then 0 else t.stretch }) s

/-- The speed bin's nominal TCLK in MHz (R3). -/
def nominalMhz (s : State) : Nat := if fld s 0 Reg.DEVICE_ID_SPEED_BIN = 2 then 2200 else 2400

/-- TCLK in MHz of a tile bound to a SEALED context, by speed bin (R472). -/
def sealedMhz (s : State) : Nat := if fld s 0 Reg.DEVICE_ID_SPEED_BIN = 2 then 1800 else 2000

/-- A value outside a range acts as the nearer limit. -/
def clampN (lo hi x : Nat) : Nat := max lo (min hi x)

/-- The limits of `TILE_VLIM` as they act (R486): lowest and highest voltage in mV, lowest and highest TCLK in MHz. -/
def vMin (s : State) (n : Nat) : Nat := clampN 600 850 (fld s (pageTile n) Reg.TILE_VLIM_V_MIN_MV)
def vMax (s : State) (n : Nat) : Nat := max (vMin s n) (clampN 600 850 (fld s (pageTile n) Reg.TILE_VLIM_V_MAX_MV))
def mhzMin (s : State) (n : Nat) : Nat := clampN 1200 (nominalMhz s) (fld s (pageTile n) Reg.TILE_VLIM_TCLK_MIN_MHZ)
def mhzMax (s : State) (n : Nat) : Nat := max (mhzMin s n) (min (nominalMhz s) (fld s (pageTile n) Reg.TILE_VLIM_TCLK_MAX_MHZ))

/-- The array of tile n is in service (R83). -/
def arrayInService (s : State) (n : Nat) : Bool := tst (fld s 0 Reg.ARRAYS_IN_SERVICE) n

/-- A tile's tensor-array domain is switched on (R469, R471): its SRAM comes up zeroed, its loops start at the top. -/
def tileOn (n : Nat) (s : State) : State :=
  if domainOn s n then s
  else
    let s := modTile n (fun t => { t with
      bank0 := {}, bank1 := {}, acc := [], hist := [], volt := 10 * vMax s n, mhz := mhzMax s n, stretch := 0 }) (setDomain n true s)
    if arrayInService s n then setFld (pageTile n) Reg.ARRAY_STATE_STATE 1 s else s

/-- A domain gated while its tile was FREE comes back (R470, R480): the binding's generation moves on. -/
def tileWake (n : Nat) (s : State) : State := if domainOn s n then s else bumpGeneration (pageTile n) (tileOn n s)

/-- The ownership update that binds tile n to context k (R312, R308): a gated domain is switched on first
(R470). -/
def bindTile (k n : Nat) (s : State) : State :=
  let s := bindPage (pageTile n) k (tileSetting n (isSealed s k) (tileWake n s))
  let s := bump (pageWin k 3) Reg.CT_COPPICE_COUNT 1 s
  bindEvent k 1 1 n 1 (generation s (pageTile n)) [] s

/-- A tile becomes RETIRED: its array leaves service (R102, R105). -/
def retireTile (n : Nat) (s : State) : State :=
  let s := unbindPage (pageTile n) 6 (clearArray n 0 (setDomain n false s))
  setFld (pageTile n) Reg.TILE_CAP_ARRAY_PRESENT 0
    (setFld 0 Reg.ARRAYS_IN_SERVICE (clrBit (fld s 0 Reg.ARRAYS_IN_SERVICE) n) s)

def tileColumns (s : State) (n : Nat) : Nat := fld s (pageTile n) Reg.TILE_CAP_COLUMNS

/-- AUTO_REPLACE (R493): the lowest tile that is FREE, in service, with no operation queued and no narrower
than the lost one is bound; where none qualifies the occasion is counted. -/
def autoReplace (k lost : Nat) (s : State) : State :=
  if !flag s (pageCtx k) Reg.RECOVERY_POLICY_AUTO_REPLACE then s
  else match (List.range 64).find? (fun n => bindState s (pageTile n) == 0 && arrayInService s n
      && (pageOp s (pageTile n)).isNone && decide (tileColumns s lost ≤ tileColumns s n)) with
    | some n => bindTile k n s
    | none => bump (pageCtx k) Reg.RECOVERY_POLICY_UNFILLED 1 s

/-- The pieces of passes that an executor ran are given back (R101, R158, R492): each pass notes the
executor as failed where `counts`; a pass that has now failed on three ends EXEC_FAULT, and one whose writes
cannot be repeated ends so where the piece had written (R164). -/
def failExecutor (x : Nat) (counts : Bool) (s : State) : State :=
  let hit (p : Pass) : Bool := p.pieces.any (fun q => q.exec == x && (q.state == .running || q.state == .parked))
  let one (p : Pass) : Pass :=
    if !hit p then p
    else
      let failed := if counts then addNew p.failed x else p.failed
      if 3 ≤ failed.length then failPass 3 { p with failed := failed }
      else if p.unrepeatable && p.pieces.any (fun q => q.exec == x && q.wrote) then
        failPass failed.length { p with failed := failed }
      else { p with
        failed := failed
        pieces := p.pieces.map (fun q =>
          if q.exec = x ∧ (q.state = .running ∨ q.state = .parked) then { q with state := .waiting, reissue := true } else q) }
  { s with passes := s.passes.map one }

/-- Moves the pieces of an executor from one state to another. -/
def movePieces (x : Nat) (a b : PieceState) (s : State) : State :=
  { s with passes := s.passes.map (fun p => { p with
      pieces := p.pieces.map (fun q => if q.exec = x ∧ q.state = a then { q with state := b } else q) }) }

end Sys2Proof.Machine
end

