-- ==== Sys2Proof/Machine/Tiles.lean ====
section
/-! DEFINITION. The tensor array of a tile (R84 to R107): issue, loads, accumulator, epilogue, throttle,
pre-emption, faults and self-test. -/

namespace Sys2Proof.Machine

def arrayState (s : State) (n : Nat) : Nat := fld s (pageTile n) Reg.ARRAY_STATE_STATE

/-- The array works: it is idle, loading or streaming. -/
def arrayWorks (s : State) (n : Nat) : Bool := decide (1 ≤ arrayState s n) && decide (arrayState s n ≤ 3)

/-- The bank the leading pass uses. -/
def TileSt.bank (t : TileSt) : Bank := if t.bankInUse = 0 then t.bank0 else t.bank1

def ArrayPass.integer (a : ArrayPass) : Bool := a.fmtA == 0xB && a.fmtB == 0xB
/-- 16-bit mode: a step lasts two TCLK cycles (R85). -/
def ArrayPass.half (a : ArrayPass) : Bool := Num.pairMode a.fmtA a.fmtB == some .half

/-- Refreshes `ARRAY_STATE.PASSES` and the states LOADING, STREAMING and IDLE. -/
def showArray (n : Nat) (s : State) : State :=
  let t := tile s n
  let s := setFlds (pageTile n) [(Reg.ARRAY_STATE_PASSES, b2n t.lead.isSome + b2n t.trail.isSome),
    (Reg.ARRAY_STATE_EPILOGUE, b2n (match t.trail with | some a => decide (a.epiRow < a.rows) | none => false))] s
  if arrayWorks s n then
    setArrayState n (if t.lead.isNone && t.trail.isNone then 1 else 3) s
  else s

/-- The slot rule of R97: slot i of a window issues under duty d. -/
def issues (i d : Nat) : Bool := decide (i % 64 * d / 64 < (i % 64 + 1) * d / 64)

/-- A feeder slot passes; at a window boundary the requested duty is taken (R97). -/
def feederTick (t : TileSt) : TileSt :=
  let n := t.feederSlot + 1
  { t with feederSlot := n, feederDuty := if n % 64 = 0 then t.nextDuty else t.feederDuty }

def vectorTick (t : TileSt) : TileSt :=
  let n := t.vectorSlot + 1
  { t with vectorSlot := n, vectorDuty := if n % 64 = 0 then t.nextDuty else t.vectorDuty }

/-- The next row's tag names an accumulator row that an earlier pass's epilogue has not read (R91). -/
def tagBusy (t : TileSt) (a : ArrayPass) : Bool :=
  let r := Tab.get {} t.acc a.mRow
  r.unread && !(r.passId == a.passId && r.piece == a.piece)

/-- A bank holds the stationary block that a pass's K block in progress needs. -/
def Bank.holds (b : Bank) (a : ArrayPass) : Bool :=
  b.valid && b.passId == a.passId && b.kBlock == a.kBlock && b.col0 == a.col0

/-- Element codes that encode zero, NaN or infinity, for the gate of R94. -/
def zeroCode (fmt code : Nat) : Bool := Num.isZero (Num.decode fmt code)
def finiteCode (fmt code : Nat) : Bool := match Num.decode fmt code with | .fin .. => true | _ => false

/-- Valid and gated product slots of one moving row against a bank (R94). -/
def gateCount (a : ArrayPass) (b : Bank) (codes : List Nat) : Nat × Nat :=
  (List.zip codes b.rows).foldl (fun n row =>
    row.2.foldl (fun n w =>
      let g := (zeroCode a.fmtA row.1 && finiteCode a.fmtB w) || (zeroCode a.fmtB w && finiteCode a.fmtA row.1)
      (n.1 + 1, n.2 + b2n g)) n) (0, 0)

/-- The wide value of column j for a moving row (R115, R116): 32 elements per segment. -/
def wideAt (a : ArrayPass) (b : Bank) (codes scales : List Nat) (j : Nat) : Num.Val :=
  let col := b.rows.map (fun r => r.getD j 0)
  Num.columnWide ((Num.pairMode a.fmtA a.fmtB).getD .exact)
    ((List.range (ceilDiv codes.length 32)).map (fun g =>
      (scales.getD g 0x7F, (b.scales.getD g []).getD j 0x7F,
       ((codes.drop (32 * g)).take 32).map (Num.decode a.fmtA), ((col.drop (32 * g)).take 32).map (Num.decode a.fmtB))))

/-- The leading pass becomes the trailing one, with its product slots. -/
def TileSt.follow (t : TileSt) (a : ArrayPass) : TileSt :=
  { t with lead := none, trail := some a, gated := t.leadGated, products := t.leadProducts, leadGated := 0, leadProducts := 0 }

/-- A moving row enters the array: its wide values are under way to the accumulator (R90). After the last
row of its last K block the pass is the trailing one, if that place is free (R93). -/
def issueRow (a : ArrayPass) (codes scales : List Nat) (t : TileSt) : TileSt :=
  let f : InFlight := {
    passId := a.passId, piece := a.piece, tag := a.mRow, first := a.kBlock == 0, last := a.kBlock + 1 == a.kBlocks
    integer := a.integer, sat := a.sat, wides := (List.range a.cols).map (wideAt a t.bank codes scales) }
  let g := gateCount a t.bank codes
  let a := if a.mRow + 1 = a.rows then { a with kBlock := a.kBlock + 1, mRow := 0 } else { a with mRow := a.mRow + 1 }
  let t := { t with flight := t.flight ++ [f], leadProducts := t.leadProducts + g.1, leadGated := t.leadGated + g.2, lead := some a }
  if a.kBlock = a.kBlocks ∧ t.trail.isNone then t.follow a else t

/-- R90: one issue slot of tile `tile`'s feeders: `ready`, the next moving row as staged in the tile buffer,
its element codes and its segment scales. -/
def execFeederIssue (tile : Nat) (ready : Bool) (codes scales : List Nat) (s : State) : Res :=
  .next (
    let t := Machine.tile s tile
    if 64 ≤ tile ∨ !arrayWorks s tile then s
    else match t.lead with
      | none => modTile tile feederTick s
      | some a =>
        let p := pageTile tile
        if a.kBlock = a.kBlocks ∨ !t.bank.holds a then modTile tile feederTick s
        else if !issues t.feederSlot t.feederDuty then modTile tile feederTick s
        else if !ready then count p Reg.BUBBLES_FEEDER 1 (modTile tile feederTick s)
        else if tagBusy t a then count p Reg.BUBBLES_DRAIN 1 (modTile tile feederTick s)
        else showArray tile (modTile tile (fun t => issueRow a codes scales (feederTick t)) s))

/-- R87 to R89: a stationary block and its scales are loaded into the bank not in use, over 128 slots. -/
def execStationaryLoad (tile : Nat) (rows scales : List (List Nat)) (s : State) : Res :=
  .next (
    let t := Machine.tile s tile
    if 64 ≤ tile ∨ !arrayWorks s tile then s
    else match t.lead with
      | none => s
      | some a =>
        if a.kBlock = a.kBlocks ∨ t.bank.holds a then s
        else
          let b : Bank := { passId := a.passId, col0 := a.col0, kBlock := a.kBlock, rows := rows, scales := scales, valid := true }
          let t := (List.range 128).foldl (fun t _ => feederTick t) t
          let t := if t.bankInUse = 0 then { t with bank1 := b, bankInUse := 1 } else { t with bank0 := b, bankInUse := 0 }
          showArray tile (setTile tile t s))

/-- Pass positions noted on the tile. -/
def TileSt.mark (t : TileSt) (r c : Nat) (nf sat : Bool) : TileSt :=
  { t with nonfinite := if nf then firstPos t.nonfinite (some (r, c)) else t.nonfinite
           saturated := if sat then firstPos t.saturated (some (r, c)) else t.saturated }

/-- Row and column origin of an array pass on the tile. -/
def TileSt.origin (t : TileSt) (id piece : Nat) : Nat × Nat :=
  match [t.lead, t.trail].findSome? (fun a => a.bind (fun a => if a.passId = id ∧ a.piece = piece then some (a.row0, a.col0) else none)) with
  | some x => x
  | none => (0, 0)

/-- Writes one result row to the accumulator row its tag names (R86, R117, R118). -/
def accumulate (f : InFlight) (t : TileSt) : TileSt :=
  let old := Tab.get {} t.acc f.tag
  let first := f.first || old.passId != f.passId || old.piece != f.piece
  let cs := (List.zip (List.range f.wides.length) f.wides).map (fun e =>
    let o := old.cells.getD e.1 0
    (e.1, if f.integer then Num.accWriteInt first o e.2 else Num.accWrite first f.sat o e.2))
  let org := t.origin f.passId f.piece
  let t := cs.foldl (fun t e => t.mark (org.1 + f.tag) (org.2 + e.1) false e.2.saturated) t
  { t with acc := Tab.put {} t.acc f.tag { passId := f.passId, piece := f.piece, cells := cs.map (fun e => e.2.code), final := f.last, unread := true } }

/-- The oldest row in flight reaches the accumulator. -/
def retireRow (t : TileSt) : TileSt :=
  match t.flight with
  | [] => t
  | f :: fs => accumulate f { t with flight := fs }

/-- R86: a result row leaves the deskew and is written or added to its accumulator row. -/
def execAccumulatorWrite (tile : Nat) (s : State) : Res :=
  .next (if 64 ≤ tile then s else modTile tile retireRow s)

/-- Values of one output row of a MATMUL piece after the epilogue, and whether a step saturated (R167, R168). -/
def epilogueRow (n : Nat) (s : State) (p : Pass) (a : ArrayPass) (d : TD) (cells : List Nat) : Except UnitErr (List (Num.Val × Bool)) :=
  match readSlotBy n s p 2, readSlotBy n s p 3 with
  | .error e, _ => .error e
  | _, .error e => .error e
  | .ok bi, .ok c =>
    let r := a.row0 + a.epiRow
    let bn := r / d.dim 1
    .ok ((List.zip (List.range a.cols) cells).map (fun e =>
      let n := a.col0 + e.1
      let row := match p.td 2 with | some t => t.rowOf 0 (bn % d.dim 2) (bn / d.dim 2) | none => 0
      if a.integer then epilogueInt p e.2 ((p.td 2).map (fun _ => bi.code row n))
      else epilogue p a.sat s.fresh (freePos r n 1) (Num.ofF32 e.2) ((p.td 2).map (fun _ => bi.val row n))
        ((p.td 3).map (fun _ => c.val r n))))

/-- An access unit of tile n's engine on behalf of a pass. -/
def tileUnit (n : Nat) (p : Pass) (e : UnitErr) : StalledUnit :=
  { holder := n, va := e.va, len := e.len, access := e.access, ring := p.ring, passValid := true, index := p.index,
    userTag := p.word 1 }

/-- The trailing pass has read its last row: it is complete on the tile (R92 to R94). -/
def passDone (n : Nat) (s : State) : State :=
  let t := tile s n
  let p := pageTile n
  let z := if t.products = 0 then 0 else min 0xFFFF (t.gated * 65536 / t.products)
  let t := { t with trail := none, hist := [], gated := 0, products := 0 }
  let s := setTile n (match t.lead with
    | some a => if a.kBlock = a.kBlocks then t.follow a else t
    | none => t) s
  showArray n (count p Reg.PASS_COUNT 1 (setFld p Reg.ZERO_FRACTION_LAST_PASS z s))

/-- R92: the epilogue of the trailing pass reads its next finished accumulator row, converts it, gathers the
histogram and writes it. Rows of a MATMUL whose target has blocks across rows are written by the class's
own command. -/
def execEpilogueRow (tile : Nat) (s : State) : Res :=
  .next (
    let t := Machine.tile s tile
    if 64 ≤ tile ∨ !arrayWorks s tile then s
    else match t.trail with
      | none => s
      | some a =>
        let row := Tab.get {} t.acc a.epiRow
        if a.rows ≤ a.epiRow ∨ row.passId ≠ a.passId ∨ row.piece ≠ a.piece ∨ !row.final then s
        else if !issues t.vectorSlot t.vectorDuty then modTile tile vectorTick s
        else
          let step (s : State) : State :=
            let s := modTile tile (fun t => { vectorTick t with
              acc := Tab.put {} t.acc a.epiRow { row with unread := false }, trail := some { a with epiRow := a.epiRow + 1 } }) s
            if a.epiRow + 1 = a.rows then passDone tile s else showArray tile s
          match pass s a.passId with
          | none => step s
          | some p =>
            match if p.opclass = 1 then p.td 4 else none with
            | none => step s
            | some d =>
              match epilogueRow tile s p a d row.cells with
              | .error e => accessFailed p.ctx e.err (tileUnit tile p e) (some p) s
              | .ok vs =>
                let r := a.row0 + a.epiRow
                let val (_ c : Nat) : Num.Val := Num.applyBias p.bias (vs.getD (c - a.col0) (.zero, false)).1
                let cs := (List.range a.cols).map (fun c => (a.col0 + c, convertAt d a.sat val r (a.col0 + c)))
                let t := cs.foldl (fun t e => t.mark r e.1 e.2.2.nonfinite e.2.2.saturated) t
                let t := (List.zip (List.range a.cols) vs).foldl (fun t e => t.mark r (a.col0 + e.1) false e.2.2) t
                let hist := cs.foldl (fun h e => countElem d.fmt p.winBase h (val r e.1) e.2.1 e.2.2.saturated)
                  (if t.hist.isEmpty then Num.emptyHist else t.hist)
                let s := setTile tile { t with hist := hist } s
                if (d.mx ∧ d.scaleDim ≠ 0) ∨ a.col0 * d.width % 8 ≠ 0 then step s
                else match writeUnits tile p.ctx [(d.rowAddr r + a.col0 * d.width / 8, rowData d.width (cs.map (fun e => e.2.2.code)))] s with
                  | .error e => accessFailed p.ctx e.err (tileUnit tile p e) (some p) s
                  | .ok s => step s)

/-- R97: a slot counter of tile `tile` reaches its next 64-slot boundary and takes the requested duty. -/
def execThrottleWindow (tile : Nat) (vector : Bool) (s : State) : Res :=
  .next (
    if 64 ≤ tile then s
    else
      let s := modTile tile (fun t =>
        if vector then { t with vectorSlot := (t.vectorSlot / 64 + 1) * 64, vectorDuty := t.nextDuty }
        else { t with feederSlot := (t.feederSlot / 64 + 1) * 64, feederDuty := t.nextDuty }) s
      if vector then s else setFld (pageTile tile) Reg.THROTTLE_DUTY (Machine.tile s tile).nextDuty s)

/-! Pre-emption (R98 to R100) -/

/-- Presents a pre-emption to an array; a fault stop takes precedence (R103). -/
def preempt (n : Nat) (s : State) : State :=
  if arrayWorks s n then setArrayState n 4 (modTile n (fun t => { t with draining := true }) s) else s

/-- Every valid result in flight is written, and the positions are latched (R98). -/
def drainArray (n : Nat) (s : State) : State :=
  if (tile s n).draining then
    modTile n (fun t => { t.flight.foldl (fun t f => accumulate f t) t with flight := [], parkValid := true }) s
  else s

/-- TCLK cycles of a freeze (R98). -/
def freezeCycles (s : State) (n : Nat) : Nat :=
  let t := tile s n
  let half := match t.lead, t.trail with
    | some a, _ => a.half
    | none, some a => a.half
    | none, none => false
  let sp := b2n (flag s (pageTile n) Reg.TILE_CAP_SPARED)
  if half then 529 + 2 * sp else 273 + sp

/-- The array freezes and records its positions (R99). -/
def freezeArray (n : Nat) (s : State) : State :=
  if !(tile s n).draining then s
  else
    let s := drainArray n s
    let t := tile s n
    let p := pageTile n
    let lead := match t.lead with
      | some a => [(Reg.LEAD_POSITION_K_BLOCK, a.kBlock), (Reg.LEAD_POSITION_M_ROW, a.mRow), (Reg.LEAD_POSITION_VALID, 1)]
      | none => [(Reg.LEAD_POSITION_VALID, 0)]
    let trail := match t.trail with
      | some a => [(Reg.TRAIL_POSITION_ROW, a.epiRow), (Reg.TRAIL_POSITION_VALID, 1)]
      | none => [(Reg.TRAIL_POSITION_VALID, 0)]
    let s := setFlds p (lead ++ trail ++ [(Reg.PREEMPT_LAST_CYCLES, freezeCycles s n)]) s
    let s := count p Reg.PREEMPT_LAST_COUNT 1 s
    let s := if bindState s p = 1 ∨ bindState s p = 2 then bump (pageWin (bindCtx s p) 3) Reg.CT_COPPICE_PREEMPTS 1 s else s
    movePieces n .running .parked (setArrayState n 5 (modTile n (fun t => { t with draining := false }) s))

/-- R98: tile control presents a pre-emption. -/
def execPreemptRequest (tile : Nat) (s : State) : Res := .next (if 64 ≤ tile then s else preempt tile s)

/-- R98: the last valid result is written and the state latched into the park registers. -/
def execArrayDrainDone (tile : Nat) (s : State) : Res := .next (if 64 ≤ tile then s else drainArray tile s)

/-- R98, R99: the array freezes. -/
def execArrayFrozen (tile : Nat) (s : State) : Res := .next (if 64 ≤ tile then s else freezeArray tile s)

/-- Continues a frozen array from its positions; the leading pass's stationary block must be loaded again
(R100). -/
def continueArray (n : Nat) (s : State) : State :=
  let s := modTile n (fun t => { t with bank0 := { t.bank0 with valid := false }, bank1 := { t.bank1 with valid := false },
                                        parkValid := false }) s
  let s := setFlds (pageTile n) [(Reg.LEAD_POSITION_VALID, 0), (Reg.TRAIL_POSITION_VALID, 0)] (setArrayState n 1 s)
  showArray n (movePieces n .parked .running s)

/-- The number pieces of context k carry as their executor while they lie in a park slot. -/
def parkExec (k slot : Nat) : Nat := 128 + 64 * k + slot

/-- Columns a tile's parked passes need. -/
def TileSt.width (t : TileSt) : Nat :=
  max (match t.lead with | some a => a.cols | none => 0) (match t.trail with | some a => a.cols | none => 0)

/-- Restores the image in a park slot of context k on tile n, an idle tile bound to k that is wide enough
(R100). An invalid image is dropped: its passes run again from their start (R103). The image's pieces are
those that stand under the slot's executor number. -/
def restoreImage (k slot n : Nat) (s : State) : State :=
  match (ctx s k).parks.find? (fun i => i.slot == slot) with
  | none => s
  | some i =>
    let drop (s : State) : State := modCtx k (fun c => { c with parks := c.parks.filter (fun i => i.slot != slot) }) s
    if !i.valid then failExecutor (parkExec k slot) false (drop s)
    else if bindState s (pageTile n) = 1 ∧ bindCtx s (pageTile n) = k ∧ arrayState s n ≤ 1 ∧
        (tile s n).lead.isNone ∧ (tile s n).trail.isNone ∧ i.tile.width ≤ tileColumns s n then
      let s := modTile n (fun t => { t with
        lead := i.tile.lead, trail := i.tile.trail, acc := i.tile.acc, hist := i.tile.hist
        nonfinite := i.tile.nonfinite, saturated := i.tile.saturated, gated := i.tile.gated, products := i.tile.products
        leadGated := i.tile.leadGated, leadProducts := i.tile.leadProducts }) (drop s)
      let s := { s with passes := s.passes.map (fun p => { p with pieces := p.pieces.map (fun q =>
        if q.exec = parkExec k slot then { q with exec := n } else q) }) }
      continueArray n s
    else s

/-- R100: a frozen array resumes in place (no slot), or a tile takes up the image in a slot of its context's
park area; nothing resumes while the context is paused or parked. -/
def execArrayResume (tile : Nat) (slot : Option Nat) (s : State) : Res :=
  .next (
    let k := bindCtx s (pageTile tile)
    if 64 ≤ tile ∨ bindState s (pageTile tile) ≠ 1 ∨ ctxState s k ≠ 2 then s
    else match slot with
      | none => if arrayState s tile = 5 then continueArray tile s else s
      | some i => restoreImage k i tile s)

/-! Faults, checks and the self-test (R101 to R107) -/

/-- `ERR_FIRST_DETAIL` of an array error (R107). -/
def arrayDetail (check row col accRow word : Nat) : Nat :=
  check % 4 + row % 256 * 2 ^ 2 + col % 256 * 2 ^ 10 + accRow % 8192 * 2 ^ 18 + word % 2 ^ 20 * 2 ^ 31

/-- A coppice of tile n runs on some context page: its context. -/
def tileCoppice (s : State) (n : Nat) : Option Nat :=
  (List.range 64).find? (fun k => match (ctx s k).coppice with
    | some c => c.kind == 1 && c.index == n && decide (c.step < 4)
    | none => false)

/-- R101, R103: a fault stops the tile, its passes are abandoned and re-issued elsewhere, the binding is
FAULTED; during a coppice of the tile the coppice's ash goes on and serves R102. -/
def tileFault (n check : Nat) (detail : Nat) (s : State) : State :=
  let p := pageTile n
  let k := bindCtx s p
  let bound := bindState s p == 1
  let cls := if check < 2 then 0x010 else 0x011
  let s := if check < 2 then raiseSrc p 0 (count p Reg.CHECK_COUNTS_RESIDUE 1 s)
    else raiseSrc p 1 (count p Reg.CHECK_COUNTS_SRAM_UNCORRECTED 1 s)
  let s := failExecutor n true (clearArray n 6 s)
  let s := raiseErr { page := p, ctx := 0, sev := 2, cls := cls, detail := detail } s
  match tileCoppice s n with
  | some o => modCtx o (fun c => { c with coppice := c.coppice.map (fun r => { r with faulted := true }) }) s
  | none =>
    let s := unbindPage p 5 s
    if bound then autoReplace k n (ctxMsg k 2 s) else s

/-- R101: a residue mismatch (checks 0 and 1) or an uncorrectable SRAM word (2 and 3) on a tile. -/
def execArrayFault (tile check row col accRow word : Nat) (s : State) : Res :=
  .next (if 64 ≤ tile ∨ 4 ≤ check ∨ arrayState s tile = 0 ∨ arrayState s tile = 6 then s
    else tileFault tile check (arrayDetail check row col accRow word) s)

/-- Starts the self-test on a tile that no context holds (R105). -/
def startSelfTest (n : Nat) (fromFault : Bool) (s : State) : State :=
  let s := opRun (pageTile n) 2 0 (unbindPage (pageTile n) 4 (clearArray n 7 (tileWake n s)))
  modTile n (fun t => { t with testFromFault := fromFault, testStep := 0 }) s

/-- R102: after a fault the hub ashes the tile and tests it; a second fault within an hour of returning
retires it without a test. -/
def afterFault (n : Nat) (s : State) : State :=
  let t := tile s n
  if t.returnedAt ≠ 0 ∧ s.time.sec + 1 ≤ t.returnedAt + 3600 then retireTile n s
  else
    let s := setTile n { t with bank0 := {}, bank1 := {}, acc := [] } (unbindPage (pageTile n) 3 s)
    startSelfTest n true s

/-- R102: the ash of a faulted tile. -/
def execTileFaultAsh (tile : Nat) (s : State) : Res :=
  .next (if tile < 64 ∧ bindState s (pageTile tile) = 5 then afterFault tile s else s)

/-- R105: a single-bit SRAM error, corrected on read. `accumulator` or tile buffer, and the word. -/
def execSramCorrected (tile : Nat) (accumulator : Bool) (accRow word : Nat) (s : State) : Res :=
  .next (
    if 64 ≤ tile then s
    else
      let p := pageTile tile
      let s := raiseSrc p 2 (count p Reg.CHECK_COUNTS_SRAM_CORRECTED 1 s)
      raiseErr { page := p, ctx := 0, sev := 0, cls := 0x012,
                 detail := arrayDetail (if accumulator then 3 else 2) 0 0 (if accumulator then accRow else 0) word } s)

/-- A self-test completes (R105): a passed tile returns FREE, after a fault with its generation raised; a
failed one is RETIRED. The SRAM comes out ashed. -/
def endSelfTest (n : Nat) (passed : Bool) (s : State) : State :=
  let p := pageTile n
  let t := tile s n
  let s := setTile n { t with bank0 := {}, bank1 := {}, acc := [], testStep := 20000, testFromFault := false
                              returnedAt := if t.testFromFault ∧ passed then s.time.sec + 1 else t.returnedAt } s
  let s := opStep p 99 20000 s
  if passed then
    let s := if t.testFromFault then bumpGeneration p s else s
    opEnd p 3 (setArrayState n 1 (unbindPage p 0 s))
  else opEnd p 4 (retireTile n s)

/-- R105: a self-test ends. -/
def execSelfTestEnd (tile : Nat) (passed : Bool) (s : State) : Res :=
  .next (if tile < 64 ∧ bindState s (pageTile tile) = 4 then endSelfTest tile passed s else s)

end Sys2Proof.Machine
end

