-- ==== Sys2Proof/Machine/Window.lean ====
section
/-! DEFINITION. The sealed-message window: accepting a tenant's message (R303, R304), and answers. -/

namespace Sys2Proof.Machine

/-- A post that is discarded unread (R303, R304). -/
def winDrop (k : Nat) (s : State) : State := bump (pageWin k 1) Reg.IN_STATUS_DROPPED 1 s

/-- R304: whether an encrypted message is accepted. Both series end at 2^48 - 1. -/
def envelopeOk (c : CtxSt) (e : Envelope) : Bool :=
  e.encrypted && e.posted == 32 + e.bodyLen + 16 && decide (e.bodyLen ≤ 16336) && c.session != 0 && e.session == c.session
    && e.seq == c.inSeq + 1 && decide (e.seq < 2 ^ 48) && e.verifies

/-- Takes an encrypted message of context k: accepted, its sequence number advances and `f` acts on it;
else it is discarded and counted. -/
def winAccept (k : Nat) (e : Envelope) (f : State → State) (s : State) : State :=
  if k = 0 ∨ 64 ≤ k then s
  else if flag s (pageWin k 1) Reg.IN_STATUS_BUSY ∨ !envelopeOk (ctx s k) e then winDrop k s
  else f (bump (pageWin k 1) Reg.IN_STATUS_ACCEPTED 1 (modCtx k (fun c => { c with inSeq := e.seq }) s))

/-- ERROR code 0x02: a refused command (R306). -/
def winRefuse (k reason type seq : Nat) (s : State) : State := winError k 2 reason type seq s

/-- A write to a context-page register that is ignored from every function while the context is SEALED;
PF0's is counted (R71, R273, R322). -/
def sealedWrite (fn k off : Nat) (f : State → State) (s : State) : State :=
  if k ≠ 0 ∧ fn = k ∧ isSealed s k then s else tenantWrite fn k off f s

end Sys2Proof.Machine
end

