-- ==== Sys2Proof/Machine/Xlate.lean ====
section
/-! DEFINITION. The walker pool and the holders of translations (R256 to R272): walks with their marks,
installation, invalidation, resumption. -/

namespace Sys2Proof.Machine

/-- A message of the walker pool to a holder. -/
def tellHolder (h k op arg data : Nat) (s : State) : State :=
  match holderNode h with
  | none => s
  | some n => request { ctx := k, prio := 6, opcode := op, dst := n, src := blockNode .walker, opArg := arg, opData := data } [] s

/-- An entry meets a range of pages. -/
def meets (e : TlbEnt) (k base pages : Nat) : Bool :=
  e.ctx == k && decide (e.va < base + pages * 65536) && decide (base < e.va + sizeBytes e.size)

/-- A holder drops every entry that meets a range (R267). -/
def dropRange (h k base pages : Nat) (s : State) : State :=
  let gone := (tlb s h).filter (fun e => meets e k base pages)
  let s := setTlb h ((tlb s h).filter (fun e => !meets e k base pages)) s
  gone.foldl (fun s e => flushCount h e s) s

/-- Walk-cache entries of a context whose span meets a range are dropped. -/
def dropWalks (k base pages : Nat) (s : State) : State :=
  let span (w : WalkEnt) : Nat := if w.level = 0 then 2 ^ 42 else 2 ^ 29
  { s with xlate := { s.xlate with walkCache := s.xlate.walkCache.filter (fun w =>
      !(w.ctx == k && decide (w.va < base + pages * 65536) && decide (base < w.va + span w))) } }

/-- A holder drops every entry of a context (R258, R316). -/
def dropHolder (h k : Nat) (s : State) : State :=
  setTlb h ((tlb s h).filter (fun e => e.ctx != k)) s

/-- Every translation of a context is dropped, everywhere. -/
def dropAll (k : Nat) (s : State) : State :=
  let s := (s.xlate.holders.map (fun e => e.1)).foldl (fun s h => dropHolder h k s) s
  { s with xlate := { s.xlate with walkCache := s.xlate.walkCache.filter (fun w => w.ctx != k) } }

/-- `OP_DATA` of an `XLATE_REQ` response (R259). -/
def xlateWord (s : State) (l : Leaf) (canWrite : Bool) : Nat :=
  l.pa / 65536 * 2 ^ 16 + l.size * 2 ^ 52 + b2n (tst l.entry 1) * 2 ^ 54 + b2n canWrite * 2 ^ 55 + bits l.entry 4 3 * 2 ^ 56
    + b2n (dirtyMask s l != 0) * 2 ^ 58

/-- An access unit of a holder that belongs to no pass. -/
def plainUnit (h sub va len access : Nat) : StalledUnit := { holder := h, sub := sub, va := va, len := len, access := access }

/-- XLATE_REQ at the walker pool (R259): answered with a translation, or XLATE_FAULT. At a held range it waits. -/
def xlateReq (h sub : Nat) (hd : Header) (s : State) : State :=
  let k := hd.ctx
  if heldPage s k hd.addr then { s with xlate := { s.xlate with heldReqs := s.xlate.heldReqs ++ [(h, sub, hd)] } }
  else
    let write := tst hd.opArg 0
    match serveXlate h k hd.addr (b2n write) s with
    | (.ok (l, w), s) => respondInline hd [] (xlateWord s l w) s
    | (.error e, s) => respond hd 5 [] (accessFailed k e (plainUnit h sub hd.addr 1 (b2n write)) none s)

/-! Invalidation (R266 to R268) -/

/-- Holders that may hold a translation of a context (R258). -/
def holdersOf (s : State) (k : Nat) : List Nat :=
  boundTiles s k ++ (boundSites s k).map (64 + ·) ++
    ((boundSites s k).filter (fun i => flag s (pageSite i) Reg.SITE_DECL0_XLATE_CACHE)).map (72 + ·) ++
    [80, 81, 82, 83, 84, 85, 86]

/-- A bit of `XLATE_ERR`: set for a register write, reported by a message for a sealed one (R273). -/
def xlateErr (k bitNo : Nat) (viaWindow : Bool) (s : State) : State :=
  if viaWindow then
    bump (pageCtx k) Reg.SEALED_XLATE_OUT 1
      (winSend k 0x24 (ofWords [k, 0, 0, 2 ^ bitNo, 0, 0, 0, 0]) s)
  else
    setFld (pageWin k 0) ({ Reg.XLATE_ERR_ROOT_REFUSED with lo := bitNo }) 1 s

/-- Starts a withdrawal of a range: walk-cache entries go, every holder is told (R266, R270). -/
def startInval (i : Inval) (s : State) : State :=
  let hs := holdersOf s i.ctx
  let s := dropWalks i.ctx i.base i.pages s
  let s := { s with xlate := { s.xlate with invals := s.xlate.invals ++ [{ i with waiting := hs }] } }
  hs.foldl (fun s h =>
    match holderNode h with
    | none => s
    | some n => request { ctx := i.ctx, prio := 6, opcode := 0x63, dst := n, src := blockNode .walker, opArg := i.epoch % 2 ^ 8,
                          opData := i.base, inlineData := leBytes 5 i.pages } [] s) s

/-- INV_CMD (R266). -/
def postInval (k epoch base pages signal : Nat) (signalEn viaWindow : Bool) (s : State) : State :=
  let w := pageWin k 0
  let posted := fld s w Reg.INV_STATUS_POSTED
  let done := fld s w Reg.INV_STATUS_DONE
  if epoch % 2 ^ 32 = (posted + 1) % 2 ^ 32 ∧ (posted + 2 ^ 32 - done) % 2 ^ 32 < 16 ∧ pages ≠ 0 then
    startInval { ctx := k, epoch := epoch % 2 ^ 32, base := base, pages := pages, signal := signal, signalEn := signalEn, waiting := [] }
      (setFld w Reg.INV_STATUS_POSTED epoch s)
  else xlateErr k 1 viaWindow s

/-- An acknowledgement of a holder for an epoch. -/
def ackInval (h k epoch : Nat) (placement : Bool) (s : State) : State :=
  { s with xlate := { s.xlate with invals := s.xlate.invals.map (fun i =>
      if i.ctx = k ∧ i.epoch = epoch ∧ i.placement = placement then { i with waiting := i.waiting.filter (· != h) } else i) } }

/-- The acknowledgements of a holder that is gone count for every epoch (R268, R369). -/
def ackAll (h : Nat) (s : State) : State :=
  { s with xlate := { s.xlate with invals := s.xlate.invals.map (fun i => { i with waiting := i.waiting.filter (· != h) }) } }

/-- INV_COMPLETE (R266): the oldest epoch of a context's own series, once every holder has acknowledged it. -/
def completeInval (k : Nat) (s : State) : State :=
  match s.xlate.invals.find? (fun i => i.ctx == k && !i.placement) with
  | none => s
  | some i =>
    if !i.waiting.isEmpty then s
    else
      let w := pageWin k 0
      let s := { s with xlate := { s.xlate with invals := s.xlate.invals.filter (fun j => !(j.ctx == k && j.epoch == i.epoch && !j.placement)) } }
      let s := bump (pageCtx k) Reg.XLATE_COUNTS_INVALIDATES 1 (setFld w Reg.INV_STATUS_DONE i.epoch s)
      let s := count 0x007 Reg.INV_STATS_COMPLETED 1 s
      let s := if i.signalEn then addFence k i.signal 1 s else s
      let s := if isSealed s k then
          bump (pageCtx k) Reg.SEALED_XLATE_OUT 1 (winSend k 0x25 (leBytes 4 i.epoch) s) else s
      if flag s w Reg.FQ_CFG_IRQ_EN ∧ !isSealed s k then ctxMsg k 1 s else s

/-! Resumption (R264) -/

/-- A stalled unit walks again and replays whole; a completion record that waited is written. -/
def replayUnit (k : Nat) (u : StalledUnit) (s : State) : State :=
  let acc := if u.access = 2 then 2 else u.access
  match unitPas s u.holder k acc (pageParts u.va u.len) with
  | .error e => accessFailed k e u (s.passes.find? (fun p => u.passValid && p.ctx == k && p.ring == u.ring && p.index == u.index)) s
  | .ok _ =>
    match s.passes.find? (fun p => u.passValid && p.ctx == k && p.ring == u.ring && p.index == u.index) with
    | some p => if p.phase = .ended then completePass p s else s
    | none => s

/-- FAULT_RESUME (R264): every unit of the fault is told to replay, or the context faults. -/
def faultResume (k id action : Nat) (viaWindow : Bool) (s : State) : State :=
  match s.xlate.faults.find? (fun f => f.ctx == k && f.id == id) with
  | none => xlateErr k 2 viaWindow s
  | some f =>
    if action = 1 then
      let s := { s with xlate := { s.xlate with
        faults := s.xlate.faults.filter (fun g => !(g.ctx == k && g.id == id))
        resuming := s.xlate.resuming ++ f.units.map (fun u => (k, id, u)) } }
      let s := setFld (pageWin k 0) Reg.FQ_STATUS_OUTSTANDING (faultCount s k) s
      let s := ((f.units.map (fun u => u.holder)).foldl addNew []).foldl (fun s h => tellHolder h k 0x65 id 0 s) s
      retryUnrecorded k s
    else if action = 2 then
      raiseAndFault { page := pageCtx k, ctx := k, sev := 1, cls := 0x052, detail := f.seq } (f.units.flatMap (unitPass s k)) s
    else xlateErr k 2 viaWindow s

/-- RESUME at a holder (R259, R264): its units waiting on the fault replay. -/
def resumeHolder (h k id : Nat) (s : State) : State :=
  let mine (r : Nat × Nat × StalledUnit) : Bool := r.1 == k && r.2.1 == id && r.2.2.holder == h
  let us := s.xlate.resuming.filter mine
  us.foldl (fun s r => replayUnit k r.2.2 s)
    { s with xlate := { s.xlate with resuming := s.xlate.resuming.filter (fun r => !mine r) } }

/-- XLATE_ROOT (R274): taken only while every ring is idle; every translation of the context goes. -/
def rootWrite (k : Nat) (valid : Bool) (table : Nat) (viaWindow : Bool) (s : State) : State :=
  let w := pageWin k 0
  if flag s w Reg.CQ_CFG_ENABLE || (List.range 16).any (fun r => ringOn s k r || ringOutstanding s k r != 0) then
    xlateErr k 0 viaWindow s
  else dropAll k (setFlds w [(Reg.XLATE_ROOT_VALID, b2n valid), (Reg.XLATE_ROOT_TABLE, table)] s)

end Sys2Proof.Machine
end

