-- ==== Sys2Proof/Machine/Agents.lean ====
section
/-! DEFINITION. The hub's parts that fail without failing the hub: fencing a guest site (R369), restarting
a management core (R494, R496), and the containment of coherence breaches and lost answers (R245, R247). -/

namespace Sys2Proof.Machine

/-! Guest sites -/

def site (s : State) (n : Nat) : SiteSt := Tab.get {} s.sites n
def setSite (n : Nat) (x : SiteSt) (s : State) : State := { s with sites := Tab.put {} s.sites n x }
def modSite (n : Nat) (f : SiteSt → SiteSt) (s : State) : State := setSite n (f (site s n)) s

/-- `SITE_STATE.LINK` (R374). -/
def siteLink (s : State) (n : Nat) : Nat := fld s (pageSite n) Reg.SITE_STATE_LINK
def setSiteLink (n v : Nat) (s : State) : State := setFld (pageSite n) Reg.SITE_STATE_LINK v s

/-- Pins of site n (R371): rail enable, `GS_RAIL_GOOD`, `GS_RESET_N`. -/
def pinSiteRail (n : Nat) : Nat := 16 + n
def pinRailGood (n : Nat) : Nat := 24 + n
def pinSiteReset (n : Nat) : Nat := 32 + n

/-- The rail of a site is removed and `GS_RESET_N` asserted; the chiplet keeps nothing (R369). -/
def siteOff (n : Nat) (s : State) : State :=
  let s := setSite n { therm := (site s n).therm } s
  let s := setFlds (pageSite n) [(Reg.SITE_RAIL_STATUS_RAIL_GOOD, 0), (Reg.SITE_RAIL_STATUS_MEASURED_MV, 0),
    (Reg.SITE_RAIL_STATUS_CURRENT_A, 0), (Reg.SITE_RAIL_STATUS_POWER_W, 0), (Reg.SITE_STATE_RATE, 0),
    (Reg.SITE_STATE_LIVE_HALVES, 0), (Reg.PAGE_STATUS_IN_SERVICE, 0), (Reg.SITE_STATE_ATTESTED, 0)] s
  setPin (pinSiteRail n) false (setPin (pinRailGood n) false (setPin (pinSiteReset n) false (setDomain (148 + n) false s)))

/-- Every snoop that waits for an agent of a mask is answered LOST on its behalf (R247). -/
def loseSnoops (mask : Nat) (s : State) : State :=
  (s.coh.homes.map (fun e => e.1 * 128)).foldl (fun s pa =>
    (setBits ((homeLine s pa).pending &&& mask) 40).foldl (fun s a => snoopAnswer a pa false true 0 [] s) s) s

/-- Removes the breaches of a mask of agents from those that wait for containment. -/
def clearBreaches (mask : Nat) (s : State) : State :=
  { s with coh := { s.coh with breaches := s.coh.breaches.filter (fun b => !tst mask b.1) } }

/-- A notice to a context about a site (R367, R369, R375). -/
def siteNotice (k n : Nat) (f : Field) (s : State) : State :=
  let w := pageWin k 0
  ctxMsg k 2 (bump w Reg.SITE_NOTICE_CHANGES 1 (setFld w f (setBit (fld s w f) n) s))

/-- FENCE (R368, R369): the site goes down, its lines are recalled as lost, its pieces re-issued, its rail
removed; it leaves its context and becomes FAULTED. A site already fenced is not fenced again. -/
def fenceSite (n cause : Nat) (detail : Nat) (s : State) : State :=
  let p := pageSite n
  if siteLink s n = 9 then s
  else
    let k := bindCtx s p
    let bound := bindState s p == 1 || bindState s p == 2
    let s := setFlds p [(Reg.SITE_STATE_LINK, 9), (Reg.SITE_STATE_FENCE_CAUSE, cause), (Reg.PAGE_STATUS_FENCED, 1)] s
    let mine := s.torus.accepted.filter (fun h => h.dst == blockNode (.site n))
    let s := { s with torus := { s.torus with accepted := s.torus.accepted.filter (fun h => h.dst != blockNode (.site n)) } }
    let s := mine.foldl (fun s h => nodeDownAnswer (nodeRouter (blockNode (.site n))) .req h s) s
    let agents := 15 * 2 ^ (4 * n)
    let s := clearBreaches agents (loseSnoops agents (recallAgents agents (loseSnoops agents s)))
    let s := ackAll (72 + n) (ackAll (64 + n) s)
    let s := siteOff n (failExecutor (64 + n) true s)
    let s := if bound then
        let s := bindEvent k 2 4 n 1 (generation s p) [] s
        siteNotice k n Reg.SITE_NOTICE_LOST s
      else s
    let s := { s with coh := { s.coh with agents := s.coh.agents.filter (fun e => !tst agents (e.1 / 2 ^ 46)) } }
    let s := raiseSrc p 1 (unbindPage p 5 s)
    let s := match pageOp s p with
      | some o =>
        if o.queued then s else opEnd p 4 (if o.op = 0x10 then setFld p Reg.SITE_OP_REASON 5 s else s)
      | none => s
    raiseErr { page := p, ctx := 0, sev := 2, cls := 0x060, detail := cause + detail * 2 ^ 8 } s

/-! Management cores -/

def coreState (s : State) (m : Nat) : Nat := fld s (pageCore m) Reg.CORE_STATE_STATE

/-- RESTART (R494, R496): the core's lines are recalled and it restarts; the third restart within ten
minutes retires it, and with the last core gone a DEVICE record is raised. Causes as `CORE_CAUSE.LAST`. -/
def restartCore (m cause : Nat) (s : State) : State :=
  let p := pageCore m
  if coreState s m ≠ 1 ∧ coreState s m ≠ 2 then s
  else
    let now := nowNs s
    let times := (now :: Tab.get [] s.cores.restarts m).filter (fun t => decide (now < t + 600000000000))
    let s := { s with cores := { s.cores with restarts := Tab.put [] s.cores.restarts m times } }
    let s := recallAgents (2 ^ (32 + m)) (clearBreaches (2 ^ (32 + m)) s)
    let s := setFld p Reg.CORE_CAUSE_LAST cause (bump p Reg.CORE_COUNTS_RESTARTS 1 s)
    let s := raiseErr { page := p, sev := 0, cls := 0x0B0, detail := cause } (raiseSrc p 0 s)
    if times.length < 3 then setFld p Reg.CORE_STATE_STATE 2 s
    else
      let s := raiseErr { page := p, sev := 2, cls := 0x0B1, detail := cause } (raiseSrc p 1 (setFld p Reg.CORE_STATE_STATE 3 (setDomain (173 + m) false s)))
      if (List.range 8).any (fun i => coreState s i == 1 || coreState s i == 2) then s
      else raiseErr { page := p, sev := 3, cls := 0x0B2, detail := cause } s

/-! Breaches -/

/-- Contains one breach or lost answer: the guest's site is fenced (causes 0x04 and 0x05), a core restarts
after a breach. -/
def containOne (b : Nat × Bool) (s : State) : State :=
  if b.1 < 32 then fenceSite (b.1 / 4) (if b.2 then 5 else 4) 0 s
  else if b.2 then s
  else restartCore (b.1 - 32) 2 s

/-- Contains the breaches that homes have found. -/
def settle (s : State) : State :=
  let bs := s.coh.breaches
  bs.foldl (fun s b => containOne b s) { s with coh := { s.coh with breaches := [] } }

end Sys2Proof.Machine
end

