-- ==== Sys2Proof/Machine/Guests.lean ====
section
/-! DEFINITION. What the hub sends to a guest over KPP, and the adapter's service of a guest's packets (R239,
R349 to R356). -/

namespace Sys2Proof.Machine

/-! Messages to a guest -/

/-- Sends a management message to a guest: MGMT flits of 236 bytes, each with a sequence number and a credit
(R350 to R352). -/
def sendMgmt (n mtype : Nat) (args : List Nat) (body : List Byte) (s : State) : State :=
  let x := site s n
  let k := max 1 (ceilDiv body.length 236)
  let fl := (List.range k).map (fun j =>
    ({ seq := (x.txNext + j) % 4096, mgmt := true, mtype := mtype, body := if j = 0 then body else [] } : SentFlit))
  let cr := (List.range 6).map (fun j => x.credits.getD j 0 - (if j = 5 then (k : Int) else 0))
  emit (.kpp n mtype args body) (setSite n { x with sent := x.sent ++ fl, txNext := (x.txNext + k) % 4096, credits := cr } s)

/-- PROTOCOL ERROR (R348): the site is fenced, cause 0x0B. -/
def kppError (n : Nat) (s : State) : State := fenceSite n 0xB 0 s

/-- Counts a flit or message discarded (R352, R353, R362). -/
def kppDrop (n : Nat) (s : State) : State := count (pageSite n) Reg.KPP_COUNTS_DROPPED 1 s

/-! A guest's packets -/

/-- A node number from header fields. -/
def headerNode (w lo : Nat) : Nat := nodeAt (bits w (lo + 2) lo) (bits w (lo + 5) (lo + 3)) (bits w (lo + 9) (lo + 6))

/-- Reads a header unit (R44) from its 64 bytes. -/
def decodeHeader (b : List Byte) : Header :=
  let w := ofBytes (slice b 0 64)
  { ctx := bits w 7 0, prio := bits w 10 8, sclass := bits w 13 11, opcode := bits w 21 14
    dst := headerNode w 22, src := headerNode w 32, tag := bits w 57 42, len := bits w 62 58, dpsel := tst w 63
    addr := bits w 118 64, xlated := tst w 119, hint := bits w 121 120, sealedSrc := tst w 122, lastRead := tst w 123
    invWrite := tst w 124, noResp := tst w 125, issueTs := bits w 143 128, beSummary := bits w 159 144
    dstSub := bits w 161 160, srcSub := bits w 163 162, opArg := bits w 191 176, opData := bits w 255 192
    inlineData := slice b 32 32 }

/-- Bytes of data unit i in the packet stream (R349). -/
def unitBytes (h : Header) (i : Nat) : Nat := if tst h.beSummary i then 288 else 256

/-- Bytes of a whole packet. -/
def packetBytes (h : Header) : Nat := (List.range h.len).foldl (fun n i => n + unitBytes h i) 64

/-- Reads the data units that follow a header. -/
def decodeUnits (h : Header) : Nat → List Byte → List Unit256
  | 0, _ => []
  | n + 1, b =>
    let i := h.len - (n + 1)
    let u : Unit256 := {
      bytes := b.take 256
      be := if tst h.beSummary i then some ((List.range 256).map (fun j => tst (ofBytes (slice b 256 32)) j)) else none }
    u :: decodeUnits h n (b.drop (unitBytes h i))

/-- Opcodes that a guest of declared classes may send (R355), and agents it has declared. -/
def guestMay (s : State) (n : Nat) (h : Header) : Bool :=
  let c := fld s (pageSite n) Reg.SITE_DECL0_CLASSES
  (tst c 0 && (decide (h.opcode ≤ 4) || (decide (0x20 ≤ h.opcode) && decide (h.opcode < 0x40)) ||
    (decide (0x60 ≤ h.opcode) && decide (h.opcode ≤ 0x66)))) ||
  (tst c 2 && decide (0x40 ≤ h.opcode) && decide (h.opcode ≤ 0x44) &&
    decide (h.srcSub < fld s (pageSite n) Reg.SITE_DECL0_AGENTS))

/-- A peer request (R356): a memory request with `XLATED` 1 whose destination is the adapter of a class M site of
the same context. -/
def isPeer (s : State) (h : Header) : Bool :=
  decide (h.opcode ≤ 3) && h.xlated &&
  (match nodeBlock h.dst with
   | some (.site m) => tst (fld s (pageSite m) Reg.SITE_DECL0_CLASSES) 1 && bindState s (pageSite m) == 1 &&
       bindCtx s (pageSite m) == h.ctx
   | _ => false)

/-- The destination an adapter computes (R349). -/
def guestDest (h : Header) : Nat :=
  if h.opcode ≤ 4 ∨ (0x40 ≤ h.opcode ∧ h.opcode ≤ 0x44) then blockNode (.home (sliceOf h.addr))
  else if 0x20 ≤ h.opcode ∧ h.opcode < 0x40 then
    if isPeat h.addr then blockNode (.peat (peatPort h.addr)) else blockNode .host
  else blockNode .walker

/-- Access kind and length of a guest's memory request, for its access unit (R260). -/
def guestAccess (h : Header) : Nat × Nat :=
  let o := h.opcode % 16
  ((if o = 4 then 2 else if o = 1 ∨ o = 3 then 1 else 0), if o = 0 ∨ o = 1 then 256 else 32)

/-- A guest's request under the adapter's own tag and source fields (R349), admitted to the torus. -/
def guestAdmit (n : Nat) (h : Header) (units : List Unit256) (s : State) : State :=
  let src := blockNode (.site n)
  let x := site s n
  let s := setSite n { x with tags := Tab.ins x.tags x.nextTag h.tag, nextTag := (x.nextTag + 1) % 65536 } s
  inject src .req { h with tag := x.nextTag, src := src } units s

/-- A guest's request at its adapter (R349, R355, R356): checked against its classes and context, translated when
`XLATED` is 0, its destination computed. A translation fault stalls it. -/
def guestSubmit (n : Nat) (h : Header) (units : List Unit256) (s : State) : State :=
  let src := blockNode (.site n)
  let permitted := ctxPermitted s src h
  if !permitted ∨ !guestMay s n h ∨ 16 < h.len then malformedReject .req src permitted { h with src := src } s
  else if isPeer s h then guestAdmit n { h with prio := 2 } units s
  else if !h.xlated ∧ (h.opcode ≤ 4 ∨ (0x20 ≤ h.opcode ∧ h.opcode < 0x40)) then
    let va := h.addr % 2 ^ 55
    let (acc, len) := guestAccess h
    let go (pa : Nat) (s : State) : State :=
      let h := { h with addr := pa, xlated := true }
      guestAdmit n { h with dst := guestDest h } units (useEntry (64 + n) h.ctx va len (acc != 0) s)
    match holderEntry s (64 + n) h.ctx va acc, xlate s (64 + n) h.ctx va acc with
    | some e, .ok _ => go (e.pa + (va - e.va)) s
    | some e, .error (.owner _) => go (e.pa + (va - e.va)) s
    | _, .error .held => { s with xlate := { s.xlate with heldGuest := s.xlate.heldGuest ++ [(n, h, units)] } }
    | _, _ =>
    match serveXlate (64 + n) h.ctx va acc s with
    | (.ok (l, _), s) => go (l.pa + va % sizeBytes l.size) s
    | (.error e, s) =>
      let s := setSite n { site s n with stalled := (site s n).stalled ++ [(h, units)] } s
      accessFailed h.ctx e (plainUnit (64 + n) h.srcSub va len acc) none s
  else guestAdmit n { h with dst := guestDest h, prio := if 0x60 ≤ h.opcode then 6 else h.prio } units s

/-- Requests that waited at ranges no longer held go on (R270). -/
def releaseHeld (s : State) : State :=
  let l := s.xlate.heldReqs
  let g := s.xlate.heldGuest
  let s := l.foldl (fun s r => xlateReq r.1 r.2.1 r.2.2 s) { s with xlate := { s.xlate with heldReqs := [], heldGuest := [] } }
  g.foldl (fun s e => guestSubmit e.1 e.2.1 e.2.2 s) s

/-- The guest requests of a site that waited on the units now replaying go again (R264). -/
def replayGuest (n : Nat) (us : List StalledUnit) (s : State) : State :=
  let mine (e : Header × List Unit256) : Bool := us.any (fun u => u.va == e.1.addr % 2 ^ 55 && u.sub == e.1.srcSub)
  let l := (site s n).stalled.filter mine
  l.foldl (fun s e => guestSubmit n e.1 e.2 s) (setSite n { site s n with stalled := (site s n).stalled.filter (fun e => !mine e) } s)

/-- A packet of a guest is whole: a response to a request the guest had accepted, or a request. -/
def guestPacket (n : Nat) (h : Header) (units : List Unit256) (s : State) : State :=
  let src := blockNode (.site n)
  let resp := h.opcode == 0x50 || h.opcode == 0x51 ||
    s.torus.accepted.any (fun a => a.dst == src && a.opcode == h.opcode && a.tag == h.tag)
  if resp then
    let s := { s with torus := { s.torus with accepted :=
      (match takeFirst (fun a : Header => a.dst == src && a.opcode == h.opcode && a.tag == h.tag) s.torus.accepted with
       | some (_, l) => l
       | none => s.torus.accepted) } }
    inject src .rsp { h with src := src } units s
  else if (s.torus.waiting.filter (fun w => w.1 == src)).length < 256 then guestSubmit n h units s
  else kppError n s

end Sys2Proof.Machine
end

