-- ==== Sys2Proof/Machine/Homes.lean ====
section
/-! DEFINITION. The commands of the homes, the controllers and the caching agents (R209, R211, R218, R219,
R238 to R249). -/

namespace Sys2Proof.Machine

/-! Memory requests at a home (R218, R219) -/

/-- A request reaches a home: with `XLATED` 0 or a peat address it is MALFORMED; an address that no frame of
HBM holds is an ownership violation (R204, R218). -/
def homeRequest (h : Header) (f : State → State) (s : State) : State :=
  if !h.xlated then respond h 2 [] (count (homePage h.addr) Reg.ROUTER_DROP_MALFORMED 1 s)
  else if isPeat h.addr then respond h 2 [] s
  else if !isHbm h.addr then respond h 3 [] (ownerViolation h.ctx h.addr none s)
  else settle (f s)

/-- Some byte of a list of enables is written (none listed: all). -/
def anyEnabled (en : List Bool) : Bool := en.isEmpty || en.any id

/-- R214, R218, R248: a granule read at its home. -/
def execRd (h : Header) (s : State) : Res :=
  let h := { h with opcode := 0x00 }
  .next (homeRequest h (homeArrive (.read h 0 (List.replicate 256 0))) s)

/-- R214, R218, R248: a granule write at its home, an invalidating write. A line of the granule without an
enabled byte is not touched. -/
def execWr (h : Header) (units : List Unit256) (s : State) : Res :=
  let h := { h with opcode := 0x01 }
  let u := units.headD {}
  let data := slice u.bytes 0 256
  let base := h.addr / 256 * 256
  .next (homeRequest h (fun s =>
    match u.be with
    | none => homeArrive (.write h base data [] false) s
    | some en =>
      let lo := (List.range 128).map (fun i => en.getD i false)
      let hi := (List.range 128).map (fun i => en.getD (128 + i) false)
      if !lo.any id ∧ !hi.any id then respondOk h s
      else if !hi.any id then homeArrive (.write h base (data.take 128) lo false) s
      else if !lo.any id then homeArrive (.write h (base + 128) (data.drop 128) hi false) s
      else homeArrive (.write h base data (lo ++ hi) false) s) s)

/-- R219: a narrow read at its home. -/
def execRdNarrow (h : Header) (s : State) : Res :=
  let h := { h with opcode := 0x02 }
  .next (homeRequest h (homeArrive (.read h 0 (List.replicate 256 0))) s)

/-- R219: a narrow write at its home. -/
def execWrNarrow (h : Header) (s : State) : Res :=
  let h := { h with opcode := 0x03 }
  .next (homeRequest h (homeArrive (.write h (h.addr / 32 * 32) (slice h.inlineData 0 32) (narrowEnables h) false)) s)

/-- R218, R219: a narrow add at its home, in FP32, BF16 or FP16; another format is MALFORMED. -/
def execAddNarrow (h : Header) (s : State) : Res :=
  let h := { h with opcode := 0x04 }
  .next (if 2 < h.opArg % 16 then respond h 2 [] s else homeRequest h (homeArrive (.add h)) s)

/-! Controllers -/

/-- R203, R209, R210, R218: a controller reads the sectors of one line for a home; `check` is what the symbol
code finds. -/
def execFill (h : Header) (check : SectorCheck) (s : State) : Res :=
  .next (mcArrive { h with opcode := 0x10 } [] check s)

/-- R203, R210, R218: a home writes dirty sectors of a line back. -/
def execWriteback (h : Header) (units : List Unit256) (s : State) : Res :=
  .next (mcArrive { h with opcode := 0x11 } units .clean s)

/-- R209, R219: a controller reads one sector for the narrow path. -/
def execMcRd32 (h : Header) (check : SectorCheck) (s : State) : Res :=
  .next (mcArrive { h with opcode := 0x12 } [] check s)

/-- R210, R219: a controller writes one sector for the narrow path, or for an add (format in `OP_ARG`[3:0])
reads, adds and writes it while it holds the bank. -/
def execMcWr32 (h : Header) (add : Bool) (check : SectorCheck) (s : State) : Res :=
  let h := { h with opcode := 0x13, opArg := if add then h.opArg % 16 + 16 else 0 }
  .next (mcArrive h [] check s)

/-- R209, R210: the patrol scrub reads a sector. A corrected one is counted and recorded against context
0x00; an uncorrectable one is marked, and no context is faulted until one reads it. -/
def execPatrolScrub (pa : Nat) (check : SectorCheck) (s : State) : Res :=
  .next (match check with
    | .clean => s
    | .corrected y => eccCorrected 0 pa y s
    | .uncorrectable =>
      match placeOf s pa with
      | none => s
      | some (ch, _) =>
        raiseSrc (pageHbm (ch / 32)) 2 (count (pageHbm (ch / 32)) Reg.ECC_COUNTS_UNCORRECTED 1 (markBad pa s)))

/-! Coherent requests and notices at a home (R238 to R244) -/

/-- A coherent request from a caching agent: outside HBM or without `XLATED`, or from no agent, MALFORMED. -/
def coherent (h : Header) (f : Nat → State → State) (s : State) : State :=
  match agentOf s h.src h.srcSub with
  | none => respond h 2 [] s
  | some a => if !h.xlated || !isHbm h.addr then respond h 2 [] s else settle (f a s)

/-- R243: an agent's shared read reaches the home. -/
def execRdShared (h : Header) (s : State) : Res :=
  let h := { h with opcode := 0x40 }
  .next (coherent h (fun a => homeArrive (.rdShared a h)) s)

/-- R243: an agent's ownership read reaches the home. -/
def execRdOwn (h : Header) (s : State) : Res :=
  let h := { h with opcode := 0x41 }
  .next (coherent h (fun a => homeArrive (.rdOwn a h)) s)

/-- R243: a sharer's upgrade reaches the home. -/
def execUpgrade (h : Header) (s : State) : Res :=
  let h := { h with opcode := 0x42 }
  .next (coherent h (fun a => homeArrive (.upgrade a h)) s)

/-- R243: the notice of a dropped clean copy. -/
def execEvictClean (h : Header) (s : State) : Res :=
  let h := { h with opcode := 0x43 }
  .next (coherent h (fun a => evictNotice a h 0 []) s)

/-- R243: a dirty eviction, with the line and its dirty-sector mask in `OP_ARG`[3:0]. -/
def execEvictDirty (h : Header) (units : List Unit256) (s : State) : Res :=
  let h := { h with opcode := 0x44 }
  .next (coherent h (fun a => evictNotice a h (h.opArg % 16) (slice (units.headD {}).bytes 0 128)) s)

/-- R241, R243, R247: a snoop answer reaches the home: a status of NODE_DOWN counts as LOST; a `STATE` other
than S is I. -/
def execSnoopAnswer (agent pa status state : Nat) (withData : Bool) (dirty : Nat) (data : List Byte) (s : State) : Res :=
  let lost := status == 1
  .next (if 40 ≤ agent ∨ !isHbm pa then s
    else settle (snoopAnswer agent pa (state == 1) lost (if withData && !lost then dirty % 16 else 0) (slice data 0 128) s))

/-- R243: fill data, or a failed fill's status, reaches a line in `I_F`. -/
def execFillData (pa status mask : Nat) (data : List Byte) (s : State) : Res :=
  .next (if isHbm pa then settle (fillData pa status (mask % 16) (slice data 0 128) s) else s)

/-! Caching agents (R242) -/

/-- The lines on which an agent awaits a grant or an acknowledgement: its requests outstanding (R239). -/
def agentBusy (s : State) (a : Nat) : Nat :=
  (s.coh.agents.filter (fun e => e.1 / 2 ^ 46 == a &&
    !(e.2.state == .i || e.2.state == .s || e.2.state == .e || e.2.state == .m))).length

/-- A management core sends a coherent request for a line. -/
def agentSend (a pa op arg : Nat) (units : List Unit256) (s : State) : State :=
  request { ctx := 0, prio := 2, opcode := op, dst := homeNode pa, dstSub := 0, src := (agentNode a).1,
            srcSub := (agentNode a).2, tag := pa / 128 % 65536, addr := lineBase pa, xlated := true, opArg := arg } units s

/-- A core whose cache controller serves a load or store now: it runs, the address is in HBM, and a request may
be sent. -/
def coreAble (s : State) (m pa : Nat) : Bool := decide (m < 8) && isHbm pa && coreState s m == 1

/-- R242, column "Load". -/
def execCoreLoad (core pa : Nat) (s : State) : Res :=
  let a := 32 + core
  .next (if !coreAble s core pa then s
    else match (agLine s a pa).state with
      | .i => if agentBusy s a < 16 then agentSend a pa 0x40 0 [] (setAgLine a pa { state := .isD } s) else s
      | _ => s)

/-- R242, column "Store": bytes at an address, within one line. -/
def execCoreStore (core pa : Nat) (data : List Byte) (s : State) : Res :=
  let a := 32 + core
  let g := agLine s a pa
  let d := data.take (128 - pa % 128)
  .next (if !coreAble s core pa then s
    else match g.state with
      | .i => if agentBusy s a < 16 then agentSend a pa 0x41 0 [] (setAgLine a pa { state := .imD } s) else s
      | .s => if agentBusy s a < 16 then agentSend a pa 0x42 0 [] (setAgLine a pa { g with state := .smA } s) else s
      | .e | .m =>
        let dirty := (List.range 4).foldl (fun w i =>
          if pa % 128 < 32 * i + 32 ∧ 32 * i < pa % 128 + d.length then setBit w i else w) g.dirty
        setAgLine a pa { state := .m, data := patch g.data (pa % 128) d [], dirty := dirty } s
      | _ => s)

/-- R242, column "Replace". -/
def execCoreReplace (core pa : Nat) (s : State) : Res :=
  let a := 32 + core
  let g := agLine s a pa
  .next (if 8 ≤ core ∨ !isHbm pa ∨ 16 ≤ agentBusy s a then s
    else match g.state with
      | .s | .e => agentSend a pa 0x43 0 [] (setAgLine a pa { g with state := .ciA } s)
      | .m => agentSend a pa 0x44 g.dirty [{ bytes := g.data ++ List.replicate 128 0 }] (setAgLine a pa { g with state := .miA } s)
      | _ => s)

/-- The context an agent acts under (R238). -/
def agentCtx (s : State) (a : Nat) : Nat := if a < 32 then bindCtx s (pageSite (a / 4)) else 0

/-- The header of a snoop for a line at an agent. -/
def snoopAt (s : State) (a pa : Nat) (inv : Bool) : Header := snoopHeader (agentCtx s a) pa a inv

/-- An agent answers a snoop: `STATE` S or I, and the line when it holds dirty data (R241). -/
def answerSnoop (a pa : Nat) (inv : Bool) (keeps : Bool) (g : Option AgLine) (s : State) : State :=
  let h := snoopAt s a pa inv
  let us := match g with | some g => [{ bytes := g.data ++ List.replicate 128 0 : Unit256 }] | none => []
  let w := b2n keeps + (match g with | some g => 4 + 16 * g.dirty | none => 0)
  emit (.response { reply h 0 us.length with opData := w } 0 us) (unaccept h s)

/-- R242, columns "SNP_SHARED" and "SNP_INV": a core's cache controller acts on a snoop; a guest's snoop goes
on to its chiplet. -/
def actSnoop (a pa : Nat) (inv : Bool) (s : State) : State :=
  if a < 32 then emit (.delivered (snoopAt s a pa inv) []) s
  else
    let g := agLine s a pa
    match g.state with
    | .i | .ciA => answerSnoop a pa inv false none s
    | .s | .e =>
      answerSnoop a pa inv (!inv) none (setAgLine a pa (if inv then {} else { g with state := .s, dirty := 0 }) s)
    | .m => answerSnoop a pa inv (!inv) (some g) (setAgLine a pa (if inv then {} else { g with state := .s, dirty := 0 }) s)
    | .smA => answerSnoop a pa inv (!inv) none (if inv then setAgLine a pa { state := .imD } s else s)
    | .miA => answerSnoop a pa inv false (some g) s
    | .isD | .imD => s

def portHold (s : State) (a pa : Nat) : PortHold := Tab.get {} s.coh.holds (agKey a pa)
def setPortHold (a pa : Nat) (p : PortHold) (s : State) : State :=
  { s with coh := { s.coh with holds := Tab.put {} s.coh.holds (agKey a pa) p } }

/-- R242, R246: a snoop reaches an agent's port, and waits during a hold or before the grant in `IS_D` and `IM_D`. -/
def snoopArrives (a pa : Nat) (inv : Bool) (s : State) : State :=
  let p := portHold s a pa
  let st := (agLine s a pa).state
  if 40 ≤ a ∨ !isHbm pa then s
  else if p.holding || !p.waiting.isEmpty || st == .isD || st == .imD then
    setPortHold a pa { p with waiting := p.waiting ++ [inv] } s
  else actSnoop a pa inv s

/-- R242: a snoop that lets the agent keep at most S. -/
def execSnpShared (agent pa : Nat) (s : State) : Res := .next (snoopArrives agent pa false s)
/-- R242: a snoop that lets the agent keep nothing. -/
def execSnpInv (agent pa : Nat) (s : State) : Res := .next (snoopArrives agent pa true s)

/-- R241, R242, R246: a grant reaches an agent: state 1 S, 2 E, 3 M. A status other than OK leaves it in I; else
the line is installed and the hold starts. A guest's grant goes on to its chiplet. -/
def execGrant (agent pa status state : Nat) (withData : Bool) (data : List Byte) (s : State) : Res :=
  let hold (s : State) : State := setPortHold agent pa { portHold s agent pa with holding := true } s
  let release (s : State) : State :=
    (portHold s agent pa).waiting.foldl (fun s inv => actSnoop agent pa inv s) (setPortHold agent pa {} s)
  .next (
    if 40 ≤ agent ∨ !isHbm pa then s
    else if agent < 32 then
      let h : Header := { ctx := agentCtx s agent, prio := 2, opcode := 0x41, dst := (agentNode agent).1,
                          dstSub := (agentNode agent).2, src := homeNode pa, tag := pa / 128 % 65536,
                          opArg := status, opData := state + 4 * b2n withData }
      emit (.delivered h (if withData then [{ bytes := slice data 0 128 ++ List.replicate 128 0 }] else []))
        (if status = 0 then hold s else s)
    else
      let g := agLine s agent pa
      let d := if withData then slice data 0 128 else g.data
      match g.state, status, state with
      | .isD, 0, 1 => hold (setAgLine agent pa { state := .s, data := d } s)
      | .isD, 0, 2 => hold (setAgLine agent pa { state := .e, data := d } s)
      | .imD, 0, 3 => hold (setAgLine agent pa { state := .m, data := d } s)
      | .smA, 0, 3 => hold (setAgLine agent pa { state := .m, data := d } s)
      | .isD, _ + 1, _ | .imD, _ + 1, _ | .smA, _ + 1, _ => release (setAgLine agent pa {} s)
      | _, _, _ => s)

/-- R242: an eviction acknowledgement takes the agent from `MI_A` or `CI_A` to I. -/
def execEvictionAck (agent pa : Nat) (s : State) : Res :=
  .next (match (agLine s agent pa).state with
    | .miA | .ciA => setAgLine agent pa {} s
    | _ => s)

/-- R246: the hold after a grant ends; the snoops held for the line are released. -/
def execHoldRelease (agent pa : Nat) (s : State) : Res :=
  let p := portHold s agent pa
  .next (if p.holding then
      p.waiting.foldl (fun s inv => actSnoop agent pa inv s) (setPortHold agent pa {} s)
    else s)

/-- R247: a snoop unanswered within its bound is answered LOST by the adapter. -/
def execSnoopAnswerTimeout (agent pa : Nat) (s : State) : Res :=
  .next (if agent < 40 ∧ isHbm pa = true ∧ tst (homeLine s (lineBase pa)).pending agent then
      settle (snoopAnswer agent pa false true 0 [] s)
    else s)

end Sys2Proof.Machine
end

