-- ==== Sys2Proof/Machine/XlateCmds.lean ====
section
/-! DEFINITION. The commands of address translation (R256 to R276). -/

namespace Sys2Proof.Machine

/-! Messages of the walker pool (R259) -/

/-- R256, R259: the walker pool reads one table granule at its home, with `HINT` NORMAL. -/
def execWalkRd (h : Header) (s : State) : Res :=
  let h := { h with opcode := 0x60, opArg := 0xFF, hint := 0, lastRead := false }
  .next (homeRequest h (homeArrive (.read h 0 (List.replicate 256 0))) s)

/-- R257, R259: the compare-and-exchange of an entry at its home. -/
def execPteUpdate (h : Header) (s : State) : Res :=
  let h := { h with opcode := 0x61 }
  .next (homeRequest h (homeArrive (.pte h)) s)

/-- R257 to R261: a holder asks the walker pool for a translation. -/
def execXlateReq (holder sub : Nat) (h : Header) (s : State) : Res :=
  .next (if 87 ≤ holder then s else xlateReq holder sub { h with opcode := 0x62 } s)

/-- R267: a holder receives an invalidate, drops every entry that meets its range and acknowledges.
`placement`: the epoch is of the hub's own series (R270). -/
def execXlateInv (holder : Nat) (h : Header) (placement : Bool) (s : State) : Res :=
  let h := { h with opcode := 0x63 }
  let mine (i : Inval) : Bool := i.ctx == h.ctx && i.placement == placement && i.epoch % 256 == h.opArg % 256 &&
    i.waiting.contains holder
  .next (
    let s := dropRange holder h.ctx (bits h.opData 54 16 * 65536) (leAt h.inlineData 0 5) s
    match s.xlate.invals.find? mine with
    | none => respondOk h s
    | some i => respondOk h (ackInval holder h.ctx i.epoch placement s))

/-- R257, R259: a holder asks the walker pool to set DIRTY before its first write to a page. -/
def execDirtySet (holder sub : Nat) (h : Header) (s : State) : Res :=
  let h := { h with opcode := 0x64 }
  let va := h.addr % 2 ^ 55
  .next (
    if 87 ≤ holder then s
    else match walk s h.ctx va 1 with
      | .error e => respond h 5 [] (accessFailed h.ctx e (plainUnit holder sub va 1 1) none s)
      | .ok l =>
        let mark (e : TlbEnt) : TlbEnt :=
          if e.ctx = h.ctx ∧ e.va ≤ va ∧ va < e.va + sizeBytes e.size then
            { e with dirty := setBit e.dirty (if e.size = 1 then va % 2 ^ 21 / 65536 else 0) } else e
        respondOk h (setTlb holder ((tlb s holder).map mark) (markDirty l.entryPa s)))

/-- R272: whole access-count units are added into a frame's entry. -/
def execCountAdd (h : Header) (s : State) : Res :=
  let h := { h with opcode := 0x66 }
  .next (respondOk h (addCount h.ctx (h.opData % 2 ^ 32) h.opArg s))

/-! The tenant's registers (R264, R266, R274) -/

/-- R264: `FAULT_RESUME`. -/
def execFaultResume (fn ctx id action : Nat) (s : State) : Res :=
  .next (sealedWrite fn ctx 0x2028 (faultResume ctx (id % 256) (action % 4) false) s)

/-- R266: `INV_CMD`, over the range in `INV_RANGE`. -/
def execInvCmd (fn ctx epoch signal : Nat) (signalEn : Bool) (s : State) : Res :=
  let w := pageWin ctx 0
  .next (sealedWrite fn ctx 0x2040 (fun s =>
    postInval ctx (epoch % 2 ^ 32) (fld s w Reg.INV_RANGE_BASE * 65536) (fld s w Reg.INV_RANGE_PAGES) (signal % 64)
      signalEn false s) s)

/-- R266, R273: every holder has acknowledged the oldest epoch of a context. -/
def execInvComplete (ctx : Nat) (s : State) : Res := .next (completeInval ctx s)

/-- R274: a write of `XLATE_ROOT`. -/
def execXlateRootWrite (fn ctx : Nat) (valid : Bool) (table : Nat) (s : State) : Res :=
  .next (sealedWrite fn ctx 0x2000 (rootWrite ctx valid table false) s)

/-- R274: a write that enables the fault queue. -/
def fqEnable (k l : Nat) (irqEn : Bool) (s : State) : State :=
  let w := pageWin k 0
  if flag s w Reg.FQ_CFG_ENABLE then setFld w Reg.FQ_CFG_IRQ_EN (b2n irqEn) s
  else if l < 8 ∨ 12 < l then xlateErr k 3 false s
  else setFlds w [(Reg.FQ_CFG_IRQ_EN, b2n irqEn), (Reg.FQ_CFG_LOG2_SIZE, l), (Reg.FQ_CFG_ENABLE, 1), (Reg.FQ_STATUS_TAIL, 0),
    (Reg.FQ_STATUS_HEAD, 0), (Reg.FQ_STATUS_PHASE, 1)] s

/-- R274: a write that disables the fault queue. -/
def fqDisable (k : Nat) (s : State) : State :=
  if faultCount s k ≠ 0 then xlateErr k 3 false s else setFld (pageWin k 0) Reg.FQ_CFG_ENABLE 0 s

/-- R138, R274: a write of `FQ_DOORBELL.HEAD`; records that wait for a slot are then written. -/
def fqDoorbell (k h : Nat) (s : State) : State :=
  let w := pageWin k 0
  if flag s w Reg.FQ_CFG_ENABLE &&
      headOk (fld s w Reg.FQ_CFG_LOG2_SIZE) (fld s w Reg.FQ_STATUS_TAIL) (fld s w Reg.FQ_STATUS_HEAD) h then
    retryUnrecorded k (setFld w Reg.FQ_STATUS_HEAD h s)
  else setFld w Reg.FQ_STATUS_BAD_DOORBELL 1 s

/-- R274: enables the fault queue. -/
def execFqEnable (fn ctx log2Size : Nat) (irqEn : Bool) (s : State) : Res :=
  .next (sealedWrite fn ctx 0x2010 (fqEnable ctx (log2Size % 16) irqEn) s)
/-- R274: disables the fault queue. -/
def execFqDisable (fn ctx : Nat) (s : State) : Res := .next (sealedWrite fn ctx 0x2010 (fqDisable ctx) s)
/-- R138, R274: a head write of the fault queue. -/
def execFqDoorbell (fn ctx head : Nat) (s : State) : Res :=
  .next (sealedWrite fn ctx 0x2020 (fqDoorbell ctx (head % 4096)) s)

/-! Bounds (R265, R268) -/

/-- R265, R276: a fault has been outstanding longer than `FAULT_POLICY.TIMEOUT_MS`. -/
def execFaultTimeout (ctx id : Nat) (s : State) : Res :=
  .next (
    if 64 ≤ ctx ∨ !flag s (pageCtx ctx) Reg.FAULT_POLICY_TIMEOUT_MS then s
    else match s.xlate.faults.find? (fun f => f.ctx == ctx && f.id == id) with
      | none => s
      | some f =>
        raiseSrc 0x007 1 (raiseAndFault { page := pageCtx ctx, ctx := ctx, sev := 1, cls := 0x051, detail := f.seq }
          (f.units.flatMap (unitPass s ctx)) s))

/-- R268, R276: a guest misses its invalidate bound for an epoch of its context, and its site is fenced
(cause 0x06); the fence counts as its acknowledgement. -/
def execGuestInvLate (site ctx epoch : Nat) (s : State) : Res :=
  .next (
    if 8 ≤ site ∨ !s.xlate.invals.any (fun i => i.ctx == ctx && i.epoch == epoch && i.waiting.contains (72 + site)) then s
    else
      let s := raiseSrc 0x007 0 (count 0x007 Reg.INV_STATS_GUEST_LATE 1 s)
      let s := raiseErr { page := 0x007, ctx := 0, sev := 2, cls := 0x053, detail := site + epoch % 2 ^ 32 * 2 ^ 3 } s
      fenceSite site 6 0 s)

/-! Sealed messages (R273) -/

/-- A translation message of the tenant is counted and acts (R273, R275). -/
def winXlate (k : Nat) (e : Envelope) (f : State → State) (s : State) : State :=
  winAccept k e (fun s => f (bump (pageCtx k) Reg.SEALED_XLATE_IN 1 s)) s

/-- R273: the sealed message 0x20 ROOT_SET. -/
def execRootSet (ctx : Nat) (env : Envelope) (word : Nat) (s : State) : Res :=
  .next (winXlate ctx env (rootWrite ctx (tst word 0) (bits word 51 16) true) s)

/-- R273: the sealed message 0x21 INVALIDATE, with words as `INV_RANGE.BASE`, `INV_RANGE.PAGES` and `INV_CMD`. -/
def execInvalidate (ctx : Nat) (env : Envelope) (base pages cmd : Nat) (s : State) : Res :=
  .next (winXlate ctx env (postInval ctx (cmd % 2 ^ 32) (bits base 54 16 * 65536) (bits pages 39 0) (bits cmd 37 32)
    (tst cmd 39) true) s)

/-- R273: the sealed message 0x22 RESUME. -/
def execSealedResume (ctx : Nat) (env : Envelope) (word : Nat) (s : State) : Res :=
  .next (winXlate ctx env (faultResume ctx (bits word 7 0) (bits word 9 8) true) s)

end Sys2Proof.Machine
end

