-- ==== Sys2Proof/Machine/RegulatorCmds.lean ====
section
/-! DEFINITION. The commands of the bandwidth regulator (R279 to R291, R302). -/

namespace Sys2Proof.Machine

/-- GB/s that a guest site's link carries in each direction (R346). -/
def siteGbs (s : State) (n : Nat) : Nat :=
  popCount (fld s (pageSite n) Reg.SITE_STATE_LIVE_HALVES) 8 *
    (match fld s (pageSite n) Reg.SITE_STATE_RATE with | 3 => 128 | 2 => 96 | 1 => 64 | _ => 0)

/-- The most a source's share may be, in 64ths of a GB/s: at a guest site, the site's bandwidth (R367). -/
def siteCap (s : State) (src : Nat) : Nat :=
  match nodeBlock src with
  | some (.site n) => 64 * siteGbs s n
  | _ => 2 ^ 32

/-- Shares R among the sources of (k, c) by what each asked, in 64ths of a GB/s, and fills their buckets for
256 ns (R281). A sealed context's HBM buckets fill at s GB/s per channel (R289). -/
def shareRate (k c : Nat) (s : State) : State :=
  let r := if slotted s k c then slotBandwidth s k else rateOf s k c
  let keys := ((s.regul.asked ++ s.regul.buckets).map (fun e => e.1)).filter (fun x => x % 2048 == k * 8 + c)
  let keys := keys.foldl addNew []
  let total := keys.foldl (fun n x => n + Tab.get 0 s.regul.asked x) 0
  keys.foldl (fun s x =>
    let a := Tab.get 0 s.regul.asked x
    let share := min (siteCap s (x / 2048)) (if a = 0 then max r 32 else r * 64 * a / total)
    let b := if fills s k then min (Tab.get 0 s.regul.buckets x + 4 * share) (4096 + 4 * share)
      else Tab.get 0 s.regul.buckets x
    { s with regul := { s.regul with shares := Tab.put 0 s.regul.shares x share, buckets := Tab.ins s.regul.buckets x b,
                                     asked := Tab.del s.regul.asked x } }) s

/-- R281, R282: every 256 ns the regulator recomputes every rate and divides it among the sources, whose
buckets fill; packets that waited for tokens are tried again. -/
def execRateRecompute (s : State) : Res :=
  .next (admitWaiting ((List.range 512).foldl (fun s i => shareRate (i / 8) (i % 8) (updateRate (i / 8) (i % 8) s)) s))

/-- R283: the oldest request of a controller's queue that has been passed over for 2 us is served next. -/
def execQueueStarvation (page queue : Nat) (s : State) : Res :=
  .next (match pageKind page with
    | some .hbm =>
      let ch := 32 * (page - 0x20) + queue % 32
      match takeFirst (fun e : Header × List Unit256 => channelOpen s ch e.1.ctx) (queueOf s ch) with
      | some (e, rest) => mcServe e.1 e.2 (setQueue ch rest s)
      | none => s
    | _ => s)

/-- The slots per channel a context's guarantees ask for (R289). -/
def slotsWanted (s : State) (k : Nat) : Nat := slotsFor (poolGuarantee s k 0) (ctx s k).channels

/-- Live channels of the regions a context has held since sealing. -/
def slotChannels (s : State) (k : Nat) : List Nat := regionChannels s (ctx s k).regions

/-- GUARANTEE_WRITE (R285, R287, R291): D first; a raise of G beyond 80 % of D, or beyond 51 slots on a
channel, is refused. -/
def guaranteeWrite (k c g : Nat) (s : State) : State :=
  let p := poolOfClass s c
  let s := refreshPools s
  let t := setFld (pageCtx k) (Reg.REG_CLASS_GUARANTEE.at 8 c) g s
  let slots := isSealed s k && p == 0
  let n := slotsWanted t k
  let t' := if slots then modCtx k (fun x => { x with slots := n }) t else t
  if guaranteed s p < guaranteed t' p ∧ (4 * deliver s p < 5 * guaranteed t' p ∨
      (slots = true ∧ slotsFull s k n (slotChannels s k) = true)) then
    raiseSrc 0x006 1 (count 0x006 Reg.ADMIT_STATS_REFUSED 1 (opRefused (pageCtx k) s))
  else refreshPools (if slots then allotSlots k n (slotChannels t k) t else t)

/-- R285: a write of a guarantee. -/
def execGuaranteeWrite (ctx cls gbs : Nat) (s : State) : Res :=
  .next (if 64 ≤ ctx ∨ 8 ≤ cls then s else guaranteeWrite ctx cls (gbs % 65536) s)

/-- A range of 2 MiB frames lies wholly within a pool (R277, R279). -/
def framesIn (p a b : Nat) : Bool :=
  decide (a ≤ b) &&
  (if p = 0 then decide (b < hbmFrames)
   else if p = 1 then decide (2 ^ 27 ≤ a) && decide (b < 2 ^ 27 + 4 * peatFrames)
   else if p = 2 then decide (2 ^ 30 ≤ a) && decide (b < 2 ^ 31)
   else false)

/-- R279: a write that enables range i, with its class and base. -/
def rangeEnable (i c base : Nat) (s : State) : State :=
  if framesIn (poolOfClass s c) base (fld s 0x006 (Reg.RANGE_END_LAST.at 16 i)) then
    setFlds 0x006 [(Reg.RANGE_ENABLE.at 16 i, 1), (Reg.RANGE_CLASS.at 16 i, c), (Reg.RANGE_BASE.at 16 i, base)] s
  else opRefused 0x006 s

/-- R279: enables a range register. -/
def execRangeEnableWrite (range cls base : Nat) (s : State) : Res :=
  .next (if 16 ≤ range then s else rangeEnable range (cls % 8) (base % 2 ^ 31) s)

/-- R279: class c may not move to pool p now. -/
def classHeld (s : State) (c p : Nat) : Bool :=
  p == 3 ||
  (List.range 16).any (fun i => flag s 0x006 (Reg.RANGE_ENABLE.at 16 i) && fld s 0x006 (Reg.RANGE_CLASS.at 16 i) == c) ||
  (p != 0 && fld s 0x006 Reg.DEFAULT_CLASS_HBM == c) || (p != 1 && fld s 0x006 Reg.DEFAULT_CLASS_PEAT == c) ||
  (p != 2 && fld s 0x006 Reg.DEFAULT_CLASS_HOST == c) ||
  (List.range 64).any (fun k => guarantee s k c != 0)

/-- R279: a write of `CLASS_POOL`: ignored whole when a class it moves may not move. -/
def classPoolWrite (v : Nat) (s : State) : State :=
  if (List.range 8).any (fun c => bits v (2 * c + 1) (2 * c) != poolOfClass s c && classHeld s c (bits v (2 * c + 1) (2 * c))) then
    opRefused 0x006 s
  else refreshPools (setFld 0x006 Reg.CLASS_POOL v s)

/-- R279: a write of `CLASS_POOL`. -/
def execClassPoolWrite (value : Nat) (s : State) : Res := .next (classPoolWrite (value % 65536) s)

/-- Bytes a controller moves for a request. -/
def mcBytes (h : Header) : Nat := if h.opcode = 0x10 ∨ h.opcode = 0x11 then 32 * popCount h.opArg 4 else 32

/-- R288, R289: a channel enters a slot. An allotted one serves its context's waiting requests alone, oldest
first, up to 1,024 bytes; an unallotted one serves the rest. -/
def enterSlot (ch slot : Nat) (s : State) : State :=
  let owner := (List.range 64).find? (fun k => (Tab.get [] s.regul.slotPos (k * 384 + ch)).contains slot)
  let v := match owner with | some k => k + 1 | none => 0
  let s := { s with hbm := { s.hbm with slotNow := Tab.put 0 s.hbm.slotNow ch v } }
  match owner with
  | none => drainChannel ch s
  | some _ =>
    let q := queueOf s ch
    (q.foldl (fun (r : State × Nat) e =>
      if channelOpen r.1 ch e.1.ctx ∧ mcBytes e.1 ≤ r.2 then (mcServe e.1 e.2 r.1, r.2 - mcBytes e.1)
      else (setQueue ch (queueOf r.1 ch ++ [e]) r.1, r.2)) (setQueue ch [] s, 1024)).1

/-- R289: a 16 ns slot of a channel begins. -/
def execSlotBoundary (channel slot : Nat) (s : State) : Res :=
  .next (if 384 ≤ channel ∨ 64 ≤ slot then s else enterSlot channel slot s)

/-- R302: a response to a sealed context's request, held until its pace time, is delivered. `age` in NCLK
cycles since issue. -/
def execSealedResponseRelease (ctx tag age : Nat) (s : State) : Res :=
  let c := Machine.ctx s ctx
  .next (match takeFirst (fun e : Header × List Unit256 × Nat => e.1.tag == tag && decide (e.2.2 ≤ age)) c.paced with
    | none => s
    | some (e, rest) =>
      emit (.delivered e.1 (if e.1.opArg % 256 = 0 then e.2.1 else [])) (setCtx ctx { c with paced := rest } s))

end Sys2Proof.Machine
end

