-- ==== Sys2Proof/Machine/HbmCmds.lean ====
section
/-! DEFINITION. The HBM controllers (R209 to R228, R234): temperature, live calibration, lane repair, channel
evacuation. -/

namespace Sys2Proof.Machine

/-! Contexts that lose memory (R221, R227) -/

/-- Contexts that own a frame in a region. -/
def regionOwners (s : State) (r : Region) : List Nat :=
  let fs := s.mem.frames.filter (fun e => e.2.state == .owned && decide (e.2.ctx < 64) && decide (r.base ≤ e.1 * 2 ^ 21) &&
    decide (e.1 * 2 ^ 21 < r.base + r.bytes))
  (fs.map (fun e => e.2.ctx)).foldl addNew []

/-- Faults contexts by loss of their memory: class 0x035 on a page (R491). -/
def loseMemory (page : Nat) (ks : List Nat) (s : State) : State :=
  ks.foldl (fun s k => raiseAndFault { page := page, ctx := k, sev := 1, cls := 0x035 } [] s) s

/-- Owners in the regions that satisfy a test. -/
def ownersWhere (s : State) (p : Region → Bool) : List Nat :=
  ((regions s).filter p).foldl (fun l r => (regionOwners s r).foldl addNew l) []

/-- Requests that wait at channels which no longer serve are answered. -/
def failQueue (ch : Nat) (s : State) : State :=
  (queueOf s ch).foldl (fun s e => mcServe e.1 e.2 s) (setQueue ch [] s)

/-! Temperature (R220, R221) -/

/-- HBM_STACK_FENCE (R221). -/
def fenceStack (n : Nat) (s : State) : State :=
  if (stack s n).fenced then s
  else
    let p := pageHbm n
    let s := setStack n { stack s n with fenced := true, coolMs := 0 } s
    let s := setFlds p [(Reg.THERMAL_FENCED, 1), (Reg.THERMAL_REFRESH_2X, 1)] s
    let s := match s.hbm.evac with
      | some e => if e.channel / 32 = n then { s with hbm := { s.hbm with evac := some { e with paused := true } } } else s
      | none => s
    let s := raiseSrc p 1 (raiseErr { page := p, ctx := 0, sev := 2, cls := 0x033 } s)
    let s := loseMemory p (ownersWhere s (fun r => r.stackSet.contains n)) s
    refreshPools ((List.range 32).foldl (fun s i => failQueue (32 * n + i) s) s)

/-- R220, R221: a controller reads its stack's temperature, in 0.1 degrees; none: it cannot be read. Above 105
degrees, or after three unread readings, the stack is fenced at once. -/
def execHbmTempRead (stack : Nat) (reading : Option Int) (s : State) : Res :=
  let x := Machine.stack s stack
  .next (
    if 12 ≤ stack then s
    else match reading with
      | none =>
        let s := setStack stack { x with unread := x.unread + 1, coolMs := 0 } s
        if 3 ≤ x.unread + 1 then fenceStack stack s else s
      | some t =>
        let s := setStack stack { x with
          readings := (t :: x.readings).take 10, unread := 0
          coolMs := if x.fenced ∧ t ≤ 850 then x.coolMs + 1 else 0 } s
        let s := setFld (pageHbm stack) Reg.THERMAL_TEMP (tc 8 (t / 10)) s
        if 1050 < t then fenceStack stack s else s)

/-- The throttle level of R220 after a decision on the highest reading. -/
def nextLevel (top : Int) (run level : Nat) : Nat :=
  if top ≤ 820 then if 10 ≤ run then level - 1 else level
  else if top ≤ 850 then level
  else if top ≤ 950 then if level < 3 then level + 1 else level
  else 4

/-- R220: the decision at a 10 ms boundary. Each rise of the level takes ten decisions in a row. -/
def execHbmThrottleDecision (stack : Nat) (s : State) : Res :=
  let x := Machine.stack s stack
  let p := pageHbm stack
  .next (
    match x.readings with
    | [] => s
    | r :: rs =>
      if 12 ≤ stack then s
      else
        let top := rs.foldl max r
        let run := if top ≤ 820 then x.coolRun + 1 else 0
        let old := fld s p Reg.THERMAL_LEVEL
        let lv := nextLevel top run old
        let s := setStack stack { x with coolRun := if 10 ≤ run then 0 else run } s
        let twice := if 850 < top then true else if lv = 0 ∧ top ≤ 820 then x.fenced else flag s p Reg.THERMAL_REFRESH_2X
        let s := setFlds p [(Reg.THERMAL_LEVEL, lv), (Reg.THERMAL_REFRESH_2X, b2n twice)] s
        if lv = old then s else refreshPools (raiseSrc p 0 s))

/-- R221, R479: a fenced stack that has read 85 degrees or less for 1 s, its MCLK locked, is retrained and returns; the
channels of one that had failed to train at bring-up are then present (R197). -/
def execHbmStackReturn (stack : Nat) (s : State) : Res :=
  let x := Machine.stack s stack
  let p := pageHbm stack
  .next (
    if 12 ≤ stack ∨ !x.fenced ∨ x.coolMs < 1000 ∨ !tst (fld s 0x002 Reg.PLL_LOCK) (3 + stack) then s
    else
      let s := setStack stack { x with fenced := false, coolMs := 0 } s
      let here := fld s p Reg.HBM_CAP_CHANNELS_PRESENT
      let s := setFlds p [(Reg.THERMAL_FENCED, 0), (Reg.HBM_CAP_CHANNELS_PRESENT, if here = 0 then 2 ^ 32 - 1 else here), (Reg.THERMAL_REFRESH_2X, b2n (flag s p Reg.THERMAL_LEVEL))] s
      let s := match s.hbm.evac with
        | some e => if e.channel / 32 = stack then { s with hbm := { s.hbm with evac := some { e with paused := false } } } else s
        | none => s
      refreshPools s)

/-! Evacuation (R224 to R228) -/

/-- Reserve granules of a channel (R197). -/
def reserveGranules : Nat := 262144

/-- Granules of each region that a channel's stack carries: region, granules on one channel. -/
def channelShares (s : State) (ch : Nat) : List (Region × Nat) :=
  ((regions s).filter (fun r => r.stackSet.contains (ch / 32))).map (fun r => (r, r.gib * 2 ^ 17))

/-- Live channels of a region other than one. -/
def targetsOf (s : State) (r : Region) (ch : Nat) : List Nat :=
  (List.range (32 * r.stackSet.length)).filterMap (fun i =>
    let c := r.channel i
    if c ≠ ch ∧ serves s c = true ∧ !(channel s c).evacuated then some c else none)

/-- The highest level to which n granules can fill the listed holdings, by bits from `b` down. -/
def fillLevel (n : Nat) (held : List Nat) : Nat → Nat → Nat
  | 0, l => l
  | b + 1, l =>
    let m := l + 2 ^ b
    fillLevel n held b (if held.foldl (fun a h => a + (m - h)) 0 ≤ n then m else l)

/-- Holdings after n granules are spread so that they stay equal to within one, ties to the lowest channel
(R225): channel and new holding. -/
def spreadReserve (n : Nat) (held : List (Nat × Nat)) : List (Nat × Nat) :=
  let l := fillLevel n (held.map (fun e => e.2)) 20 0
  let rest := n - held.foldl (fun a e => a + (l - e.2)) 0
  (held.foldl (fun (r : List (Nat × Nat) × Nat) e =>
    let h := max e.2 l
    if h = l ∧ 0 < r.2 then (r.1 ++ [(e.1, h + 1)], r.2 - 1) else (r.1 ++ [(e.1, h)], r.2)) ([], rest)).1

/-- The remap of a channel (R225): the granules of each region go to that region's channels, those held for
earlier evacuations to region 0's; none where a reserve is short. -/
def remapOf (s : State) (ch : Nat) : Option (List (Nat × Nat)) :=
  let shares := match channelShares s ch with
    | (r, n) :: t => (r, n + (channel s ch).held) :: t
    | [] => []
  shares.foldl (fun acc e =>
    match acc with
    | none => none
    | some held =>
      let ts := targetsOf s e.1 ch
      let now := ts.map (fun c => (c, match held.find? (fun h => h.1 == c) with | some h => h.2 | none => (channel s c).held))
      if e.2 = 0 then some held
      else if now.isEmpty then none
      else
        let next := spreadReserve e.2 now
        if next.any (fun h => decide (reserveGranules < h.2)) then none
        else some (next ++ held.filter (fun h => !ts.contains h.1))) (some [])

/-- Granules an evacuation moves. -/
def evacGranules (s : State) (ch : Nat) : Nat :=
  (channelShares s ch).foldl (fun n e => n + e.2) (channel s ch).held

/-- Writes `EVAC_STATUS` on every controller page. -/
def showEvac (s : State) : State :=
  let c := match s.hbm.evac with | some e => e.channel | none => 0x1FF
  let free := (List.range 384).foldl (fun n c => if serves s c ∧ !(channel s c).evacuated then n + (reserveGranules - (channel s c).held) else n) 0
  (List.range 12).foldl (fun s k => setFlds (pageHbm k) [(Reg.EVAC_STATUS_CHANNEL, c),
    (Reg.EVAC_STATUS_RESERVE_FREE_MIB, free / 4096)] s) s

/-- A page whose earliest request waits for the engine shows it as queued (R224). -/
def showWaiting (p : Nat) (s : State) : State :=
  match s.hbm.waiting.find? (fun r => pageHbm (r.channel / 32) == p) with
  | some r => if (pageOp s p).isNone then opQueue p 4 r.channel s else s
  | none => s

/-- Ends the evacuation operation of a page, where it stands there; the page's next request then waits. -/
def endEvacOp (p result : Nat) (s : State) : State :=
  match pageOp s p with
  | some o => if o.op = 4 then showWaiting p (opEnd p result s) else s
  | none => s

/-- CHANNEL_FENCE (R227). -/
def fenceChannel (ch : Nat) (s : State) : State :=
  let p := pageHbm (ch / 32)
  let s := setChannel ch { channel s ch with fenced := true } s
  let s := raiseErr { page := p, ctx := 0, sev := 2, cls := 0x034, detail := ch } s
  let s := loseMemory p (ownersWhere s (fun r => r.stackSet.contains (ch / 32))) s
  refreshPools (failQueue ch s)

/-- Steps 1 to 3 of R225: the capacity check, the announcement and the remap. -/
def beginEvac (ch : Nat) (owner : Bool) (s : State) : State :=
  let p := pageHbm (ch / 32)
  let s := match pageOp s p with
    | some o => if o.op = 4 then opRun p 4 o.arg s else s
    | none => opRun p 4 ch s
  match remapOf s ch with
  | none => fenceChannel ch (endEvacOp p 4 s)
  | some ts =>
    let s := ts.foldl (fun s t => setChannel t.1 { channel s t.1 with held := t.2 } s) s
    let e : EvacRun := {
      channel := ch, owner := owner, blocks := evacGranules s ch / 8, targets := ts.map (fun t => t.1)
      paused := (stack s (ch / 32)).fenced }
    let s := { s with hbm := { s.hbm with evac := some e } }
    refreshPools (showEvac s)

/-- An evacuation of a channel is listed or runs. -/
def evacPending (s : State) (ch : Nat) : Bool :=
  s.hbm.waiting.any (fun r => r.channel == ch) || (match s.hbm.evac with | some e => e.channel == ch | none => false)

def listEvac (ch : Nat) (owner : Bool) (s : State) : State :=
  { s with hbm := { s.hbm with waiting := s.hbm.waiting ++ [⟨ch, owner⟩] } }

/-- A request of the hub itself (R211, R222, R224): block interrupt source 4. -/
def hubEvac (ch : Nat) (s : State) : State :=
  if (channel s ch).evacuated ∨ (channel s ch).fenced ∨ evacPending s ch then s
  else
    let p := pageHbm (ch / 32)
    let s := raiseSrc p 4 s
    if s.hbm.evac.isNone ∧ s.hbm.waiting.isEmpty then beginEvac ch false s
    else
      let s := listEvac ch false s
      if (pageOp s p).isNone then opQueue p 4 ch s else s

/-- R224: `OP_CONTROL.OP` 0x04 with the device channel in `ARG`. -/
def execChannelEvacuation (stack channel : Nat) (s : State) : Res :=
  let p := pageHbm stack
  .next (
    if 12 ≤ stack then s
    else if channel / 32 ≠ stack ∨ (Machine.channel s channel).evacuated ∨ evacPending s channel ∨ startFate s p false false = .refused then
      opRefused p s
    else if s.hbm.evac.isNone ∧ s.hbm.waiting.isEmpty then beginEvac channel true s
    else opQueue p 4 channel (listEvac channel true s))

/-- R224: the free engine takes the earliest pending request. -/
def execEvacuationDequeue (s : State) : Res :=
  .next (match s.hbm.evac, s.hbm.waiting with
    | none, r :: rest =>
      let s := { s with hbm := { s.hbm with waiting := rest } }
      if (channel s r.channel).evacuated then s else beginEvac r.channel r.owner s
    | _, _ => s)

/-- R225: a 2 KiB block's copy writes complete. `lost`: a target channel failed uncorrectably, which ends the
evacuation, and both channels are fenced (R228). -/
def execEvacBlockCopied (block : Nat) (lost : Option Nat) (s : State) : Res :=
  .next (match s.hbm.evac with
    | none => s
    | some e =>
      let p := pageHbm (e.channel / 32)
      match lost with
      | some t =>
        if e.targets.contains t then
          let s := endEvacOp p 4 { s with hbm := { s.hbm with evac := none } }
          refreshPools (showEvac (fenceChannel t (fenceChannel e.channel s)))
        else s
      | none =>
        if e.paused ∨ e.blocks ≤ block ∨ e.doneBits.contains block then s
        else
          let n := e.doneBits.length + 1
          opStep p (100 * n / e.blocks) n { s with hbm := { s.hbm with evac := some { e with doneBits := block :: e.doneBits } } })

/-- R225: every block is copied: the remap is permanent and the channel leaves the interleave. -/
def execEvacSwitch (s : State) : Res :=
  .next (match s.hbm.evac with
    | none => s
    | some e =>
      if e.doneBits.length < e.blocks then s
      else
        let p := pageHbm (e.channel / 32)
        let x := channel s e.channel
        let s := setChannel e.channel { x with evacuated := true, announced := false, paused := false, held := 0 } s
        let s := { s with hbm := { s.hbm with evac := none, remaps := s.hbm.remaps ++ [(e.channel, e.targets)] } }
        let s := dropChannelSlots e.channel (setLive e.channel false s)
        let s := (List.range 12).foldl (fun s k =>
          setFld (pageHbm k) Reg.EVAC_STATUS_DONE (fld s (pageHbm k) Reg.EVAC_STATUS_DONE + 1) s) s
        refreshPools (showEvac (endEvacOp p 3 (failQueue e.channel s))))

/-- R211: a channel's corrected errors within one second have reached the threshold. -/
def execCeThreshold (channel : Nat) (s : State) : Res :=
  let x := Machine.channel s channel
  let p := pageHbm (channel / 32)
  .next (
    if 384 ≤ channel ∨ x.correctedSec ≠ s.time.sec ∨ x.correctedNow < fld s p Reg.CE_POLICY_THRESHOLD then s
    else
      let s := raiseSrc p 3 s
      if flag s p Reg.CE_POLICY_AUTO_EVAC then hubEvac channel s else s)

/-! Live calibration and lane repair (R222, R223, R234) -/

/-- A channel of the stack is announced or paused. -/
def stackRetraining (s : State) (n : Nat) : Bool :=
  (List.range 32).any (fun i => (channel s (32 * n + i)).announced || (channel s (32 * n + i)).paused)

/-- A channel takes part in retrains: it serves, is not under evacuation, and its trims are not frozen. -/
def retrainable (s : State) (ch : Nat) : Bool :=
  serves s ch && !(channel s ch).override && !(match s.hbm.evac with | some e => e.channel == ch | none => false)

/-- The retrain of a channel is announced: D falls by its share (R222, R284). -/
def announce (ch : Nat) (s : State) : State := refreshPools (setChannel ch { channel s ch with announced := true } s)

/-- R222: the retrain interval of a stack expires; the next channel in turn is announced. -/
def execPeriodicRetrain (stack : Nat) (s : State) : Res :=
  let x := Machine.stack s stack
  .next (
    if 12 ≤ stack ∨ flag s (pageHbm stack) Reg.CAL_CTRL_FREEZE = true ∨ x.fenced ∨ stackRetraining s stack then s
    else match ((List.range 32).map (fun i => (x.nextRetrain + i) % 32)).find? (fun i => retrainable s (32 * stack + i)) with
      | none => s
      | some i => announce (32 * stack + i) (setStack stack { x with nextRetrain := (i + 1) % 32 } s))

/-- The channel waits for an operation 0x05 of its page. -/
def retrainOp (s : State) (ch : Nat) : Bool :=
  match pageOp s (pageHbm (ch / 32)) with
  | some o => o.op == 5 && o.arg == ch
  | none => false

/-- R222: ten microseconds after the announcement the channel pauses. -/
def execRetrainPause (channel : Nat) (s : State) : Res :=
  let x := Machine.channel s channel
  .next (
    if 384 ≤ channel ∨ !x.announced ∨ x.paused then s
    else
      let s := setChannel channel { x with paused := true } s
      if retrainOp s channel then opRun (pageHbm (channel / 32)) 5 channel s else s)

/-- The pause ends: the channel serves what waited, D rises, and an immediate retrain that waited is announced. -/
def endPause (ch : Nat) (s : State) : State :=
  let s := setChannel ch { channel s ch with announced := false, paused := false } s
  let s := drainChannel ch (refreshPools s)
  match pageOp s (pageHbm (ch / 32)) with
  | some o => if o.op = 5 ∧ o.queued ∧ !stackRetraining s (ch / 32) then announce o.arg s else s
  | none => s

/-- The pause of an immediate retrain ends its operation. -/
def endRetrainOp (ch result : Nat) (s : State) : State :=
  if retrainOp s ch && (match pageOp s (pageHbm (ch / 32)) with | some o => !o.queued | none => false) then
    opEnd (pageHbm (ch / 32)) result s
  else s

/-- R222: the retrain moved its trims too far or outlasted 2 us. -/
def retrainOverrun (ch : Nat) (s : State) : State :=
  let s := setChannel ch { channel s ch with longRetrain := true } s
  hubEvac ch (endPause ch (endRetrainOp ch 4 s))

/-- R222: a retrain overruns. -/
def execRetrainOverrun (channel : Nat) (s : State) : Res :=
  .next (if channel < 384 ∧ (Machine.channel s channel).paused = true then retrainOverrun channel s else s)

/-- Steps between two trims, in 1/128 of a unit interval, two's complement (R222). -/
def trimSteps (a b : Nat) : Nat := (sext 8 (a % 256) - sext 8 (b % 256)).natAbs

/-- R222: a retrain ends within its bound with new trims; a move of more than 16 steps is an overrun. -/
def execRetrainEnd (channel read write : Nat) (s : State) : Res :=
  let x := Machine.channel s channel
  .next (
    if 384 ≤ channel ∨ !x.paused then s
    else if 16 < trimSteps read x.adaptRead ∨ 16 < trimSteps write x.adaptWrite then retrainOverrun channel s
    else
      let x := { x with adaptRead := read % 256, adaptWrite := write % 256, retrains := min (x.retrains + 1) (2 ^ 32 - 1) }
      endPause channel (endRetrainOp channel 3 (setChannel channel x s)))

/-- A write of `CAL_TRIM` (R222, R234). -/
def calTrimWrite (stack read write : Nat) (override : Bool) (s : State) : State :=
  let ch := 32 * stack + fld s (pageHbm stack) Reg.CAL_SELECT_CHANNEL
  let x := channel s ch
  setChannel ch (if override then { x with override := true, ovRead := read % 256, ovWrite := write % 256 }
    else { x with override := false }) s

/-- R222: a `CAL_TRIM` write with `OVERRIDE` set. -/
def execCalTrimOverride (stack read write : Nat) (s : State) : Res :=
  .next (if 12 ≤ stack then s else calTrimWrite stack read write true s)

/-- R234: `OP_CONTROL.OP` 0x05: an immediate periodic retrain of a channel; it waits for its pause. -/
def execImmediateRetrain (stack channel : Nat) (s : State) : Res :=
  let p := pageHbm stack
  .next (
    if 12 ≤ stack then s
    else if channel / 32 ≠ stack ∨ !serves s channel ∨ (pageOp s p).isSome then opRefused p s
    else
      let s := opQueue p 5 channel s
      if stackRetraining s stack then s else announce channel s)

/-- The check of R223: failed lanes are replaced while a redundant lane is left. -/
def laneCheck (ch failed : Nat) (s : State) : State :=
  let p := pageHbm (ch / 32)
  let x := channel s ch
  let n := min failed x.spareLanes
  let s := bump p Reg.HBM_REPAIR_RECHOSEN n (setChannel ch { x with spareLanes := x.spareLanes - n } s)
  opEnd p (if failed ≤ n then 3 else 4) s

/-- R223, R234: `OP_CONTROL.OP` 0x07: a lane check of a channel, which finds `failed` lanes. While another
channel of the stack is paused it waits, and this command takes it up again. -/
def execHbmLaneCheck (stack channel failed : Nat) (s : State) : Res :=
  let p := pageHbm stack
  .next (
    if 12 ≤ stack then s
    else match pageOp s p with
      | some o =>
        if o.op = 7 ∧ o.arg = channel ∧ o.queued then
          if stackRetraining s stack then s else laneCheck channel failed (opRun p 7 channel s)
        else opRefused p s
      | none =>
        if channel / 32 ≠ stack ∨ !serves s channel then opRefused p s
        else if stackRetraining s stack then opQueue p 7 channel s
        else laneCheck channel failed (opRun p 7 channel s))

end Sys2Proof.Machine
end

