-- ==== Sys2Proof/Machine/Placement.lean ====
section
/-! DEFINITION. The placement loop (R231 to R233, R270, R272), its commands (R236, R273), and way masks
(R217). -/

namespace Sys2Proof.Machine

/-! The free list

The spec gives the list's address alone. DESIGN CHOICE (log entry 8): 512 little-endian words of 64 bits;
an entry with bit 63 set holds a frame index of R272 in its bits [31:0]. -/

/-- Word i of the free list, if it can be read. -/
def listWord (s : State) (k i : Nat) : Nat :=
  match vread s 85 k (fld s (pageCtx k) Reg.PLACE_LIST_ADDR * 4096 + 8 * i) 8 with
  | .ok b => ofBytes b
  | .error _ => 0

/-- Frames that the list names and that the context owns (R231), other than targets of migrations under way. -/
def freeFrames (s : State) (k : Nat) : List Nat :=
  ((List.range 512).filterMap (fun i =>
    let w := listWord s k i
    if tst w 63 then some (indexFrame (w % 2 ^ 32)) else none)).filter (fun f =>
      (frame s f).state == .owned && (frame s f).ctx == k && !s.xlate.migrations.any (fun m => m.ctx == k && m.frameB == f))

/-- Frame a takes the place of frame b in the free list. -/
def swapListed (k a b : Nat) (s : State) : State :=
  match (List.range 512).find? (fun i => listWord s k i == 2 ^ 63 + frameIndex b) with
  | none => s
  | some i =>
    match vwrite 85 k (fld s (pageCtx k) Reg.PLACE_LIST_ADDR * 4096 + 8 * i) (leBytes 8 (2 ^ 63 + frameIndex a)) s with
    | .ok t => accessed 85 k (fld s (pageCtx k) Reg.PLACE_LIST_ADDR * 4096 + 8 * i) 8 true t
    | .error _ => s

/-! Decisions (R231) -/

/-- A region of a context that one whole frame maps: its frame and count. -/
structure Placed where
  region : Nat
  frame : Nat
  count : Nat
deriving DecidableEq, Repr

/-- The frame that a whole region maps, all 32 pages present and contiguous (R231). -/
def regionFrame (s : State) (k region : Nat) : Option Nat :=
  match walkLeaf s k (region * 2 ^ 21) with
  | .ok l => if l.size = 1 then some (frameOf l.pa) else none
  | .error _ => none

/-- The counted region of a frame, confirmed by a walk. -/
def countedRegion (s : State) (k f : Nat) : Option Placed :=
  match countEntry s k (frameIndex f) with
  | none => none
  | some e =>
    if tst e 16 && !tst e 17 && regionFrame s k (bits e 54 21) == some f then
      some { region := bits e 54 21, frame := f, count := e % 65536 }
    else none

/-- Frames of a context. -/
def ownedFrames (s : State) (k : Nat) : List Nat :=
  (s.mem.frames.filter (fun e => e.2.state == .owned && e.2.ctx == k)).map (fun e => e.1)

/-- The loop may move a placed region: neither pinned, nor held, nor under way (R231). -/
def movable (s : State) (k : Nat) (r : Placed) : Bool :=
  !(frame s r.frame).pinned && !s.xlate.placeHolds.any (fun h => h.1 == k && h.2.1 == r.region) &&
  !s.xlate.migrations.any (fun m => m.ctx == k && m.region == r.region)

/-- Inserts by falling count; among equals the earlier one first. -/
def insertPlaced (r : Placed) : List Placed → List Placed
  | [] => [r]
  | x :: t => if x.count < r.count then r :: x :: t else x :: insertPlaced r t

def byCount (l : List Placed) : List Placed := l.foldl (fun a r => insertPlaced r a) []

/-- Regions of a tier that the loop may move, hottest first. -/
def regionsIn (s : State) (k : Nat) (hbm : Bool) : List Placed :=
  byCount (((ownedFrames s k).filter (fun f => decide (f < hbmFrames) == hbm)).filterMap (countedRegion s k)
    |>.filter (movable s k))

/-- Begins a migration. -/
def addMigration (k region a b : Nat) (promote : Bool) (s : State) : State :=
  { s with xlate := { s.xlate with migrations := s.xlate.migrations ++
      [{ ctx := k, region := region, frameA := a, frameB := b, promote := promote }] } }

/-- The first frame of a tier among those free. -/
def freeIn (s : State) (k : Nat) (hbm : Bool) : Option Nat := (freeFrames s k).find? (fun f => decide (f < hbmFrames) == hbm)

/-- R231's loop over candidates, `n` migrations at most. -/
def decide231 (k minCount hyst : Nat) : Nat → List Placed → State → State
  | 0, _, s => s
  | _, [], s => s
  | n + 1, c :: cs, s =>
    if c.count < minCount then s
    else match freeIn s k true with
      | some b => decide231 k minCount hyst n cs (addMigration k c.region c.frame b true s)
      | none =>
        match (regionsIn s k true).getLast? with
        | none => s
        | some h =>
          if c.count < h.count + hyst then s
          else match freeIn s k false with
            | none => s
            | some b =>
              decide231 k minCount hyst n cs
                (addMigration k c.region c.frame h.frame true (addMigration k h.region h.frame b false s))

/-- Clears `REGION_VALID` of entries whose region no longer maps the frame (R272). -/
def dropStale (k : Nat) (s : State) : State :=
  (ownedFrames s k).foldl (fun s f =>
    match countEntry s k (frameIndex f) with
    | some e =>
      if tst e 16 ∧ !tst e 17 ∧ regionFrame s k (bits e 54 21) ≠ some f then setCountEntry k (frameIndex f) (clrBit e 16) s else s
    | none => s) s

/-- Halves the counters of the context's frames. -/
def halveCounts (k : Nat) (s : State) : State :=
  (ownedFrames s k).foldl (fun s f =>
    match countEntry s k (frameIndex f) with
    | some e => if e % 65536 = 0 then s else setCountEntry k (frameIndex f) (e - e % 65536 + e % 65536 / 2) s
    | none => s) s

/-- R231: an interval of the placement loop of a context ends. -/
def execPlacementInterval (ctx : Nat) (s : State) : Res :=
  let p := pageCtx ctx
  .next (
    if 64 ≤ ctx ∨ !flag s p Reg.PLACE_CTRL_ENABLE ∨ flag s p Reg.PLACE_CTRL_FREEZE = true ∨ ctxState s ctx ≠ 2 ∨
        !flag s p Reg.PLACE_COUNT_ADDR then s
    else
      let s := dropStale ctx s
      halveCounts ctx (decide231 ctx (fld s p Reg.PLACE_CTRL_PROMOTE_MIN) (fld s p Reg.PLACE_CTRL_HYSTERESIS)
        (fld s p Reg.PLACE_CTRL_MIGRATE_MAX) (regionsIn s ctx false) s))

/-! Migration (R232, R270) -/

/-- The oldest migration of a context. -/
def firstMigration (s : State) (k : Nat) : Option Migration := s.xlate.migrations.find? (fun m => m.ctx == k)

def setMigrations (l : List Migration) (s : State) : State := { s with xlate := { s.xlate with migrations := l } }

/-- Ends one migration where it stands (R232); requests held at its range go on. A migration into the frame that it was
to leave cannot follow it. -/
def dropMigration (m : Migration) (s : State) : State :=
  let x := s.xlate
  let s := { s with xlate := { x with
    migrations := x.migrations.filter (fun n => n != m && !(n.ctx == m.ctx && n.frameB == m.frameA))
    heldRanges := x.heldRanges.filter (fun r => !(r.1 == m.ctx && r.2.1 == m.region * 32)) } }
  releaseHeld (setFlds (pageCtx m.ctx) [(Reg.PLACE_LAST_REGION, m.region), (Reg.PLACE_LAST_KIND, 3)] s)

/-- Copies a frame as the block sees it (R232). -/
def copyFrame (a b : Nat) (s : State) : State := writeBytes (b * 2 ^ 21) (bytesAt s (a * 2 ^ 21) (2 ^ 21)) s

/-- The first bad or unreachable sector of a frame. -/
def badIn (s : State) (f : Nat) : Option Nat := firstBad s [(f * 2 ^ 21, 2 ^ 21)]

/-- R232, R270: the first copy of a context's oldest migration ends: the region is held and its translation
withdrawn under an epoch of the hub's own series. A bad sector in frame a ends the migration and faults the
context. -/
def execMigrationCopyDone (ctx : Nat) (s : State) : Res :=
  .next (match firstMigration s ctx with
    | none => s
    | some m =>
      if m.withdrawn then s
      else if (frame s m.frameA).state = .gone ∨ (frame s m.frameB).state = .gone then dropMigration m s
      else match badIn s m.frameA with
        | some pa => dataError ctx pa none (dropMigration m s)
        | none =>
          let e := s.xlate.placementEpoch + 1
          let s := copyFrame m.frameA m.frameB s
          let s := setMigrations (s.xlate.migrations.map (fun n => if n = m then { n with withdrawn := true, epoch := e } else n)) s
          let s := { s with xlate := { s.xlate with placementEpoch := e, heldRanges := s.xlate.heldRanges ++ [(ctx, m.region * 32, 32)] } }
          startInval { ctx := ctx, epoch := e, base := m.region * 2 ^ 21, pages := 32, placement := true, waiting := [] } s)

/-- Rewrites the 32 entries of a region's group to a frame (R232). -/
def remapRegion (k region f : Nat) (s : State) : State :=
  match walkLeaf s k (region * 2 ^ 21) with
  | .error _ => s
  | .ok l =>
    (List.range 32).foldl (fun s j =>
      let a := groupPa l + 8 * j
      let e := ofBytes (bytesAt s a 8)
      setEntry a (e - bits e 51 16 * 2 ^ 16 + (f * 32 + j) % 2 ^ 36 * 2 ^ 16) s) s

/-- The counter entries of the two frames after a move (R272): the region goes to the new frame's entry, the
old one's is cleared. -/
def moveCounts (k region a b : Nat) (s : State) : State :=
  let n := match countEntry s k (frameIndex b) with | some e => e % 65536 | none => 0
  setCountEntry k (frameIndex a) 0 (setCountEntry k (frameIndex b) (n + 2 ^ 16 + region * 2 ^ 21) s)

/-- R232: every holder has acknowledged: what was written since the copy began is copied again, the new
translation is installed, stalled accesses resume, and frame a returns to the free list. -/
def execMigrationInstall (ctx : Nat) (s : State) : Res :=
  .next (match firstMigration s ctx with
    | none => s
    | some m =>
      match s.xlate.invals.find? (fun i => i.ctx == ctx && i.placement && i.epoch == m.epoch) with
      | none => s
      | some i =>
        if !m.withdrawn ∨ !i.waiting.isEmpty then s
        else
          let s := { s with xlate := { s.xlate with invals := s.xlate.invals.filter (fun j => j != i) } }
          if (frame s m.frameA).state = .gone ∨ (frame s m.frameB).state = .gone then dropMigration m s
          else match badIn s m.frameA with
            | some pa => dataError ctx pa none (dropMigration m s)
            | none =>
              let s := remapRegion ctx m.region m.frameB (copyFrame m.frameA m.frameB s)
              let s := swapListed ctx m.frameA m.frameB (moveCounts ctx m.region m.frameA m.frameB s)
              let x := s.xlate
              let s := { s with xlate := { x with
                migrations := x.migrations.filter (fun n => n != m)
                heldRanges := x.heldRanges.filter (fun r => !(r.1 == ctx && r.2.1 == m.region * 32)) } }
              let s := count (pageCtx ctx) (if m.promote then Reg.PLACE_STATS_PROMOTIONS else Reg.PLACE_STATS_DEMOTIONS) 1 s
              releaseHeld (setFlds (pageCtx ctx) [(Reg.PLACE_LAST_REGION, m.region),
                (Reg.PLACE_LAST_KIND, if m.promote then 1 else 2)] s))

/-! Commands of the owner and of a sealed tenant (R233, R236, R273) -/

/-- A write by PF0 to a register of page 0x100 + k that is ignored and counted while the context is SEALED. -/
def ownerWrite (k off : Nat) (f : State → State) (s : State) : State :=
  if 64 ≤ k then s else if k ≠ 0 ∧ isSealed s k = true then sealedDenied k off s else f s

/-- `PLACE_CMD` (R236). -/
def placeCmd (k region op : Nat) (s : State) : State :=
  let drop (s : State) : State :=
    { s with xlate := { s.xlate with placeHolds := s.xlate.placeHolds.filter (fun h => !(h.1 == k && h.2.1 == region)) } }
  let hold (tier : Nat) (s : State) : State :=
    { s with xlate := { s.xlate with placeHolds := s.xlate.placeHolds ++ [(k, region, tier)] } }
  if op = 1 then
    let s := hold 1 (drop s)
    match regionFrame s k region, freeIn s k true with
    | some a, some b =>
      if hbmFrames ≤ a ∧ !(frame s a).pinned ∧ !s.xlate.migrations.any (fun m => m.ctx == k && m.region == region) then
        addMigration k region a b true s
      else s
    | _, _ => s
  else if op = 2 then hold 2 (drop s)
  else if op = 3 then drop s
  else s

/-- R236: `PLACE_CMD.OP` 0b01. -/
def execPlaceHoldHbm (ctx region : Nat) (s : State) : Res := .next (ownerWrite ctx 0x990 (placeCmd ctx (region % 2 ^ 34) 1) s)
/-- R236: `PLACE_CMD.OP` 0b10. -/
def execPlaceHoldPeat (ctx region : Nat) (s : State) : Res := .next (ownerWrite ctx 0x990 (placeCmd ctx (region % 2 ^ 34) 2) s)
/-- R236: `PLACE_CMD.OP` 0b11. -/
def execPlaceReleaseHold (ctx region : Nat) (s : State) : Res := .next (ownerWrite ctx 0x990 (placeCmd ctx (region % 2 ^ 34) 3) s)

/-- Writes the RW fields of a register from a word (R11). -/
def writeWord (p : Nat) (k : PageKind) (off w : Nat) (s : State) : State :=
  ((pageTable k).filter (fun f => f.off == off && f.acc == .rw)).foldl (fun s f => setFld p f (bits w (f.lo + f.width - 1) f.lo) s) s

/-- R273: the sealed message 0x23 PLACE_SET: a word of presence bits, then the four registers. -/
def execPlaceSet (ctx : Nat) (env : Envelope) (present ctrl list cnt cmd : Nat) (s : State) : Res :=
  let p := pageCtx ctx
  .next (winXlate ctx env (fun s =>
    let s := if tst present 0 then writeWord p .owner 0x980 ctrl s else s
    let s := if tst present 1 then writeWord p .owner 0x988 list s else s
    let s := if tst present 2 then writeWord p .owner 0xA10 cnt s else s
    if tst present 3 then placeCmd ctx (bits cmd 54 21) (bits cmd 1 0) s else s) s)

/-! Way masks (R217) -/

/-- Ways that other contexts hold privately. -/
def otherWays (s : State) (k : Nat) : Nat :=
  ((List.range 64).filter (· != k)).foldl (fun m j => m ||| fld s (pageCtx j) Reg.CACHE_POLICY_WAY_MASK) 0

/-- A mask keeps R217: disjoint from the others', with two ways left shared. -/
def maskOk (s : State) (k m : Nat) : Bool :=
  (m &&& otherWays s k) == 0 && decide (popCount (m ||| otherWays s k) 16 ≤ 14)

/-- R217: a write of `CACHE_POLICY.WAY_MASK`: locked unless the context is EMPTY. -/
def wayMaskWrite (k m : Nat) (s : State) : State :=
  if bindState s (pageCtx k) ≠ 0 then accessErr (pageCtx k) Reg.ERR_SUMMARY_LOCKED_WRITE s
  else if maskOk s k m then setFld (pageCtx k) Reg.CACHE_POLICY_WAY_MASK m s
  else opRefused (pageCtx k) s

/-- R217: a write of a way mask. -/
def execWayMaskWrite (ctx mask : Nat) (s : State) : Res := .next (if 64 ≤ ctx then s else wayMaskWrite ctx (mask % 65536) s)

end Sys2Proof.Machine
end

