-- ==== Sys2Proof/Machine/Sites.lean ====
section
/-! DEFINITION. Guest sites: KPP flits, the messages of a guest, bring-up, attestation, pieces, lane repair
(R345 to R374). -/

namespace Sys2Proof.Machine

/-! The flit layer (R347 to R351) -/

/-- The link carries flits. -/
def linkUp (s : State) (n : Nat) : Bool := decide (n < 8) && decide (3 ≤ siteLink s n) && decide (siteLink s n ≤ 8)

/-- The guest has been sent `RUN` and the link is not fenced: run, clearing or paused. -/
def siteRuns (s : State) (n : Nat) : Bool := decide (n < 8) && decide (5 ≤ siteLink s n) && decide (siteLink s n ≤ 7)

/-- A retrain (R350, R365): counted, and the fourth within one second fences the site. `detail` names the lane
that caused it. -/
def retrainSite (n detail : Nat) (s : State) : State :=
  let now := nowNs s
  let times := (now :: (site s n).retrains).filter (fun t => decide (now < t + 1000000000))
  let s := modSite n (fun x => { x with retrains := times, replays := 0 }) s
  let s := raiseSrc (pageSite n) 0 (count (pageSite n) Reg.KPP_COUNTS_RETRAINS 1 s)
  if 4 ≤ times.length then fenceSite n 0xC detail s else s

/-- A flit fails its CRC (R350): the first failure asks for a replay; a third failed replay in a row retrains. -/
def flitFailed (n : Nat) (s : State) : State :=
  let p := pageSite n
  let x := site s n
  let s := count p Reg.KPP_COUNTS_REPLAYS 1 (count p Reg.KPP_COUNTS_CRC_ERRORS 1 s)
  let s := emit (.kpp n 0x100 [(x.rxNext + 4095) % 4096] []) s
  if !x.naking then setSite n { x with naking := true, replays := 0 } s
  else if x.replays + 1 < 3 then setSite n { x with replays := x.replays + 1 } s
  else retrainSite n 0 s

/-- A `SEQ` out of order (R350): discarded, and a replay asked for once. -/
def flitOutOfOrder (n : Nat) (s : State) : State :=
  let x := site s n
  if x.naking then s
  else emit (.kpp n 0x100 [(x.rxNext + 4095) % 4096] [])
    (count (pageSite n) Reg.KPP_COUNTS_REPLAYS 1 (setSite n { x with naking := true, replays := 0 } s))

/-- Flits that an acknowledgement of `ack` leaves unacknowledged. -/
def unacked (ack : Nat) (l : List SentFlit) : List SentFlit :=
  match l with
  | [] => []
  | f :: _ => if (ack + 4096 - f.seq) % 4096 < l.length then l.drop ((ack + 4096 - f.seq) % 4096 + 1) else l

/-- `ACK`, `NAK` and the credit returns of a good flit (R347, R350, R351); false where a credit counter
overflows. -/
def takeReturns (n : Nat) (f : Flit) (s : State) : State × Bool :=
  let x := site s n
  let l := if f.ackValid then unacked f.ack x.sent else x.sent
  let cr := (List.range 6).map (fun i => x.credits.getD i 0 + (f.credits.getD i 0 : Nat))
  let s := setSite n { x with sent := l, credits := cr, ackDue := true } s
  let s := if f.ackValid ∧ f.nak then l.foldl (fun s e => emit (.kpp n 0x101 [e.seq] e.body) s) s else s
  (s, cr.all (fun c => decide (c ≤ 65535)))

/-- A flit arrives (R347 to R350). `numbered`: it is a `PACKET` or `MGMT` flit; `f` acts on it when it is the next
in order. -/
def flitIn (n : Nat) (f : Flit) (numbered : Bool) (act : State → State) (s : State) : State :=
  if !linkUp s n then s
  else if !f.crcOk then flitFailed n s
  else
    match takeReturns n f s with
    | (s, false) => kppError n s
    | (s, true) =>
      if !numbered then s
      else if f.seq ≠ (site s n).rxNext then flitOutOfOrder n s
      else act (modSite n (fun x => { x with rxNext := (x.rxNext + 1) % 4096, naking := false, replays := 0 }) s)

/-- The whole packets at the front of a site's stream go to its adapter (R349). -/
def parsePackets (n clock : Nat) : Nat → State → State
  | 0, s => s
  | fuel + 1, s =>
    let b := (site s n).slots
    if b.length < 64 then s
    else
      let h := { decodeHeader b with issueTs := clock % 65536 }
      if b.length < packetBytes h ∧ h.len ≤ 16 then s
      else
        let s := modSite n (fun x => { x with slots := b.drop (packetBytes h) }) s
        parsePackets n clock fuel (guestPacket n h (decodeUnits h h.len (b.drop 64)) s)

/-- R348: an `IDLE` flit. -/
def execIdle (site : Nat) (f : Flit) (s : State) : Res := .next (flitIn site f false id s)

/-- R348, R349: a `PACKET` flit. `clock` is the adapter's NCLK counter. While a `CLEAR` runs it is discarded
(R362). -/
def execPacket (site clock : Nat) (f : Flit) (s : State) : Res :=
  .next (flitIn site f true (fun s =>
    if f.validSlots = 0 then kppError site s
    else if siteLink s site = 6 then kppDrop site s
    else if !siteRuns s site then kppDrop site s
    else
      let x := Machine.site s site
      parsePackets site clock 16 (setSite site { x with slots := x.slots ++ slice f.payload 0 (16 * (f.validSlots % 16)) } s)) s)

/-- R350: the receiver returns an acknowledgement while a flit is unacknowledged. -/
def execKppAckTimer (site : Nat) (s : State) : Res :=
  .next (
    let x := Machine.site s site
    if !linkUp s site ∨ !x.ackDue then s
    else emit (.kpp site 0x102 [(x.rxNext + 4095) % 4096] []) (setSite site { x with ackDue := false } s))

/-- R350, R365: a retrain of the whole site. -/
def execKppRetrain (site : Nat) (s : State) : Res := .next (if linkUp s site then retrainSite site 0 s else s)

/-! Bring-up (R370, R371) -/

/-- Ends a start that failed: the rail is off, the site FAULTED, the reason shown (R370). -/
def startFailed (n reason : Nat) (s : State) : State :=
  let p := pageSite n
  let s := setSiteLink n 0 (unbindPage p 5 (siteOff n s))
  let s := setFld p Reg.SITE_OP_REASON reason s
  match pageOp s p with
  | some o => if o.op = 0x10 ∧ !o.queued then opEnd p 4 s else s
  | none => s

/-- A site may be started: `ASSIGNED`, a valid repair record, present (R371). -/
def startable (s : State) (n : Nat) : Bool :=
  let p := pageSite n
  fld s p Reg.SITE_STATE_OTP_STATE == 1 && flag s p Reg.SITE_STATE_REPAIR_VALID && flag s p Reg.SITE_STATE_PRESENT

/-- Step 1 of R371: the rail ramps; the limit is R28's. -/
def startSite (n : Nat) (s : State) : State :=
  let p := pageSite n
  let s := setSiteLink n 1 (siteOff n s)
  let s := setFlds p [(Reg.SITE_OP_REASON, 0), (Reg.PAGE_STATUS_FENCED, 0),
    (Reg.SITE_RAIL_STATUS_LIMIT_A, min 220 (120000 / max 1 (fld s p Reg.SITE_RAIL_SETPOINT_MV)))] s
  setPin (pinSiteRail n) true (modSite n (fun x => { x with ramping := true }) (setDomain (148 + n) true s))

/-- R370: `OP_CONTROL.OP` 0x10; `present` is the level sensed on `GS_PRESENT_N`, low. -/
def execSiteReturn (site : Nat) (present : Bool) (s : State) : Res :=
  let p := pageSite site
  .next (
    if 8 ≤ site then s
    else if (pageOp s p).isSome then opRefused p s
    else
      let s := opRun p 0x10 0 (setFld p Reg.SITE_STATE_PRESENT (b2n present) s)
      if bindState s p ≠ 0 ∧ bindState s p ≠ 5 then opEnd p 4 (setFld p Reg.SITE_OP_REASON 2 s)
      else if !startable s site then startFailed site 1 s
      else startSite site s)

/-- R28, R371: the rail has held within 3 % for 10 us. -/
def execSiteRailGood (site mv : Nat) (s : State) : Res :=
  .next (
    if 8 ≤ site ∨ siteLink s site ≠ 1 ∨ !(Machine.site s site).ramping then s
    else
      let s := modSite site (fun x => { x with ramping := false }) s
      setPin (pinRailGood site) true (setFlds (pageSite site) [(Reg.SITE_RAIL_STATUS_RAIL_GOOD, 1),
        (Reg.SITE_RAIL_STATUS_MEASURED_MV, mv)] s))

/-- R371: `GS_RESET_N` is released 100 us after rail-good. -/
def execSiteResetRelease (site : Nat) (s : State) : Res :=
  .next (
    if 8 ≤ site ∨ siteLink s site ≠ 1 ∨ !flag s (pageSite site) Reg.SITE_RAIL_STATUS_RAIL_GOOD then s
    else setPin (pinSiteReset site) true (modSite site (fun x => { x with released := true }) s))

/-- R371: the guest's UCIe sideband is up, and mainband training begins. -/
def execSiteSidebandUp (site : Nat) (s : State) : Res :=
  .next (if 8 ≤ site ∨ siteLink s site ≠ 1 ∨ !(Machine.site s site).released then s else setSiteLink site 2 s)

/-- Live halves of a module by its `MODE`. -/
def modeHalves (mode : Nat) : Nat := match mode with | 0 => 3 | 1 => 1 | 2 => 2 | _ => 0

/-- Shows the modes, spares and live halves of a site. -/
def showLanes (n : Nat) (modes : List Nat) (s : State) : State :=
  let x := site s n
  let p := pageSite n
  let s := (List.range 4).foldl (fun s m => setFlds p [(Reg.LANE_STATUS_MODE.up (8 * m), modes.getD m 0),
    (Reg.LANE_STATUS_SPARES_USED.up (8 * m), x.spares.getD (2 * m) 0 + x.spares.getD (2 * m + 1) 0)] s) s
  setFld p Reg.SITE_STATE_LIVE_HALVES
    ((List.range 4).foldl (fun h m => h + modeHalves (modes.getD m 0) * 4 ^ m) 0) s

def laneModes (s : State) (n : Nat) : List Nat :=
  (List.range 4).map (fun m => fld s (pageSite n) (Reg.LANE_STATUS_MODE.up (8 * m)))

/-- R365, R371: mainband training ends with the rate (code of `SITE_STATE.RATE`), the modules' modes, the spares
in use by module and direction, and the modules whose repair was re-chosen. -/
def execSiteLinkTrained (site rate : Nat) (modes spares : List Nat) (rechosen : Nat) (s : State) : Res :=
  let p := pageSite site
  .next (
    if 8 ≤ site ∨ siteLink s site ≠ 2 then s
    else
      let s := setFld p Reg.SITE_STATE_RATE rate (modSite site (fun x => { x with spares := spares.map (min 4) }) s)
      let s := showLanes site modes s
      let s := (List.range 4).foldl (fun s m => setFld p (Reg.LANE_STATUS_RECHOSEN.up (8 * m)) (bit rechosen m) s) s
      if rate = 0 ∨ max 1 (fld s p Reg.SITE_CFG_MAX_RATE) < rate ∨ !flag s p Reg.SITE_STATE_LIVE_HALVES then
        startFailed site 3 s
      else setSiteLink site 3 s)

/-- R370: a step of a bring-up takes too long. -/
def execSiteStartTimeout (site : Nat) (s : State) : Res :=
  .next (if site < 8 ∧ 1 ≤ siteLink s site ∧ siteLink s site ≤ 3 then startFailed site 5 s else s)

/-! Attestation (R360, R361) -/

/-- Sends the request of a step of R360; steps 5 and 6 carry a fresh nonce. -/
def attestSend (n step : Nat) (s : State) : State :=
  let fresh := decide (5 ≤ step)
  let nonce := if fresh then freeBytes s 32 else []
  let s := modSite n (fun x => { x with step := step, nonce := nonce }) s
  sendMgmt n 2 [step] nonce (if fresh then drew s else s)

/-- Begins the sequence at a step. -/
def attestStart (n : Nat) (why : AttestWhy) (step : Nat) (s : State) : State :=
  attestSend n step (modSite n (fun x => { x with why := why }) s)

/-- RUN (R371): the site enters service `FREE`; op 0x10 ends, with the generation raised (R370, R73). -/
def enterService (n : Nat) (s : State) : State :=
  let p := pageSite n
  let s := sendMgmt n 3 [] [] s
  let s := setFlds p [(Reg.SITE_STATE_LINK, 5), (Reg.PAGE_STATUS_IN_SERVICE, 1), (Reg.PAGE_STATUS_FENCED, 0),
    (Reg.SITE_STATE_FENCE_CAUSE, 0)] s
  let s := { s with torus := { s.torus with down := s.torus.down.filter (· != blockNode (.site n)) } }
  let s := unbindPage p 0 s
  match pageOp s p with
  | some o => if o.op = 0x10 ∧ !o.queued then opEnd p 3 (bumpGeneration p s) else s
  | none => s

/-- The attestation of a site ends (R361): `SITE_MEAS` and `ATTESTED` are replaced; a failure is reported, and the
site stays in service. -/
def attestEnd (n : Nat) (digest : Option Nat) (s : State) : State :=
  let p := pageSite n
  let why := (site s n).why
  let s := modSite n (fun x => { x with why := .none, step := 0, nonce := [] }) s
  let d := digest.getD 0
  let s := (List.range 8).foldl (fun s i => setFld p (Reg.SITE_MEAS.at 8 i) (d / 2 ^ (64 * i)) s) s
  let s := setFld p Reg.SITE_STATE_ATTESTED (b2n digest.isSome) s
  let s := if digest.isSome then s else raiseErr { page := p, ctx := 0, sev := 2, cls := 0x062 } (raiseSrc p 2 s)
  match why with
  | .bringUp => enterService n s
  | .op =>
    (match pageOp s p with
     | some o => if o.op = 0x11 ∧ !o.queued then opEnd p (if digest.isSome then 3 else 4) s else s
     | none => s)
  | .clear => setSiteLink n 5 (modSite n (fun x => { x with cleared := true }) s)
  | .none => s

/-- The chain ends in one of the owner's guest roots (R443). -/
def chainOk (s : State) (chain : List Byte) : Bool :=
  decide (chain.length ≤ 32768) && s.heart.guestRoots.contains (Config.chainRoot chain)

/-- A guest's SPDM answer (R360): the next step's request, or the end of the sequence. -/
def spdmStep (n : Nat) (a : SpdmAnswer) (s : State) : State :=
  let x := site s n
  if x.why = .none then kppDrop n s
  else match x.step, a with
    | 1, .version ok => if ok then attestSend n 2 s else attestEnd n none s
    | 2, .capabilities a b c => if a && b && c then attestSend n 3 s else attestEnd n none s
    | 3, .algorithms a b => if a && b then attestSend n 4 s else attestEnd n none s
    | 4, .certificate chain =>
      if chainOk s chain then attestSend n 5 (setSite n { x with chain := chain } s) else attestEnd n none (setSite n { x with chain := [] } s)
    | 5, .challengeAuth body sig =>
      if !x.chain.isEmpty && Config.ecdsaVerify (Config.chainKey x.chain) (x.nonce ++ body) sig then attestSend n 6 s
      else attestEnd n none s
    | 6, .measurements blocks sig =>
      if !x.chain.isEmpty && Config.ecdsaVerify (Config.chainKey x.chain) (x.nonce ++ blocks) sig then
        attestEnd n (some (Config.sha512 blocks)) s
      else attestEnd n none s
    | _, _ => attestEnd n none s

/-- R360: an `SPDM` message of a guest. -/
def execSpdm (site : Nat) (answer : SpdmAnswer) (s : State) : Res :=
  .next (if linkUp s site then spdmStep site answer s else s)

/-- R361: an SPDM answer comes late. -/
def execSpdmTimeout (site : Nat) (s : State) : Res :=
  .next (if linkUp s site ∧ (Machine.site s site).why ≠ .none then attestEnd site none s else s)

/-! HELLO (R354) -/

/-- The rules of R354 on the 64-byte body, and R351's least grants. -/
def helloOk (s : State) (b : List Byte) : Bool :=
  let c := leAt b 2 1
  let t := tst c 0
  let m := tst c 1
  let cc := tst c 2
  let xc := leAt b 4 1
  let within (lo hi v : Nat) : Bool := decide (lo ≤ v) && decide (v ≤ hi)
  let dc := leAt b 24 8
  let df := leAt b 32 2
  b.length == 64 && leAt b 0 2 == 1 && decide (c < 16) && c != 0 && (!tst c 3 || c == 8) &&
  (if cc then within 1 4 (leAt b 3 1) else leAt b 3 1 == 0) && decide (xc ≤ 1) && leAt b 5 1 == 0 &&
  decide (leAt b 6 2 ≤ 1024) && (if xc = 1 then within 1 1000 (leAt b 8 4) else leAt b 8 4 == 0) &&
  within 1 10000 (leAt b 12 4) && within 1 1000 (leAt b 16 4) &&
  (if t then within 10 100000 (leAt b 20 4) else leAt b 20 4 == 0) &&
  (if t then
     (dc &&& fld s (pageWin 0 2) Reg.CI_CLASSES) == dc && bits dc 16 12 == 0 &&
     (df &&& fld s (pageWin 0 2) Reg.CI_FORMATS) == df
   else dc == 0 && df == 0) &&
  leAt b 34 2 == 0 && (if m then within 1 65536 (leAt b 36 4) else leAt b 36 4 == 0) &&
  ((List.range 6).zip [16, 64, 16, 32, 128, 8]).all (fun e => decide (e.2 ≤ leAt b (40 + 2 * e.1) 2)) &&
  (slice b 52 12).all (· == 0)

/-- The hub's own initial grant (R351). -/
def hubGrant : List Nat := [256, 1024, 64, 256, 1024, 16]

/-- A guest's `HELLO`: its declaration is recorded and attestation begins, or it is refused; after `RUN` it is a
protocol error. -/
def hello (n : Nat) (b : List Byte) (s : State) : State :=
  let p := pageSite n
  if 5 ≤ siteLink s n then kppError n s
  else if siteLink s n ≠ 3 then kppDrop n s
  else if !helloOk s b then startFailed n 4 s
  else if siteGbs s n < leAt b 6 2 then startFailed n 3 s
  else
    let s := setFlds p [(Reg.SITE_DECL0_CLASSES, leAt b 2 1), (Reg.SITE_DECL0_AGENTS, leAt b 3 1),
      (Reg.SITE_DECL0_XLATE_CACHE, leAt b 4 1), (Reg.SITE_DECL0_MIN_GBS, leAt b 6 2),
      (Reg.SITE_DECL0_M_CAPACITY_GIB, leAt b 36 4), (Reg.SITE_DECL1_INV_BOUND_US, leAt b 8 4),
      (Reg.SITE_DECL1_CLEAR_BOUND_US, leAt b 12 4), (Reg.SITE_DECL1_STOP_BOUND_US, leAt b 16 4),
      (Reg.SITE_DECL2_BEAT_US, leAt b 20 4)] s
    let s := modSite n (fun x => { x with
      drunteClasses := leAt b 24 8, drunteFormats := leAt b 32 2
      credits := (List.range 6).map (fun i => (leAt b (40 + 2 * i) 2 : Nat)) }) s
    let s := sendMgmt n 1 ([1, n, fld s p Reg.SITE_STATE_CLEAR_GEN] ++ hubGrant) [] s
    attestStart n .bringUp 1 (setSiteLink n 4 s)

/-- R354: a `HELLO` message. -/
def execHello (site : Nat) (body : List Byte) (s : State) : Res :=
  .next (if linkUp s site then hello site body s else s)

/-! Clearing and pausing (R362 to R364) -/

/-- CLEAR (R362): a new generation is sent and only the exchange goes on. -/
def sendClear (n : Nat) (s : State) : State :=
  let p := pageSite n
  let g := (fld s p Reg.SITE_STATE_CLEAR_GEN + 1) % 65536
  let s := modSite n (fun x => { x with cleared := false, slots := [], stalled := [], why := .none, pausing := false,
                                        pieces := [], stopping := [] }) s
  sendMgmt n 4 [g] [] (setSiteLink n 6 (setFld p Reg.SITE_STATE_CLEAR_GEN g s))

/-- `CLEAR_DONE`: with the generation sent, steps 5 and 6 of R360 run at once; any other is discarded. -/
def clearDone (n gen : Nat) (s : State) : State :=
  if siteLink s n = 6 ∧ (site s n).why = .none ∧ gen = fld s (pageSite n) Reg.SITE_STATE_CLEAR_GEN then
    attestStart n .clear 5 s
  else kppDrop n s

/-- R362: a `CLEAR_DONE` message. -/
def execClearDone (site gen : Nat) (s : State) : Res := .next (if linkUp s site then clearDone site gen s else s)

/-- `PAUSE` to a guest (R364). -/
def pauseGuest (n : Nat) (s : State) : State :=
  if siteLink s n = 5 then sendMgmt n 6 [] [] (modSite n (fun x => { x with pausing := true }) s) else s

/-- `RESUME` to a guest. -/
def resumeGuest (n : Nat) (s : State) : State :=
  if siteLink s n = 7 ∨ (siteLink s n = 5 ∧ (site s n).pausing) then
    sendMgmt n 8 [] [] (setSiteLink n 5 (modSite n (fun x => { x with pausing := false }) s))
  else s

/-- A message arrives that a `CLEAR` in progress discards. -/
def unlessClearing (n : Nat) (f : State → State) (s : State) : State :=
  if !linkUp s n then s else if siteLink s n = 6 then kppDrop n s else f s

def pausedMsg (n : Nat) (s : State) : State :=
  if (site s n).pausing then setSiteLink n 7 (modSite n (fun x => { x with pausing := false }) s) else s

/-- R364: a `PAUSED` message. -/
def execPaused (site : Nat) (s : State) : Res := .next (unlessClearing site (pausedMsg site) s)

/-! Pieces (R358) -/

/-- Merges a piece's flags and histogram into its pass (R124, R127, R159). -/
def mergePiece (p : Pass) (nf sat : Option (Nat × Nat)) (hist : List Nat) : Pass :=
  { p with nonfinite := firstPos p.nonfinite nf, saturated := firstPos p.saturated sat
           hist := if hist.isEmpty then p.hist
             else (List.range 72).map (fun i => min (p.hist.getD i 0 + hist.getD i 0) (2 ^ 32 - 1)) }

/-- Sets a piece of a pass. -/
def setPiece (p : Pass) (id : Nat) (f : Piece → Piece) : Pass :=
  { p with pieces := p.pieces.map (fun q => if q.id = id then f q else q) }

/-- `PIECE_DONE` (R358): `OK` ends the piece; `FAILED` counts its executor and re-issues it; `STOPPED` runs it again
from its start, uncounted. -/
def pieceDone (n id status : Nat) (nf sat : Option (Nat × Nat)) (hist : List Nat) (s : State) : State :=
  let x := site s n
  match x.pieces.find? (fun e => e.1 == id) with
  | none => kppDrop n s
  | some (_, pid, q) =>
    let s := setSite n { x with pieces := x.pieces.filter (fun e => e.1 != id), stopping := x.stopping.filter (· != id) } s
    match pass s pid with
    | none => s
    | some p =>
      if p.computed ∧ p.status = 0x0C then s
      else match status with
        | 0 => modPass pid (fun p => mergePiece (setPiece p q (fun c => { c with state := .done })) nf sat
                 (if tst ((p.words.drop 0).headD 0) 18 then hist else [])) s
        | 1 =>
          let failed := addNew p.failed (64 + n)
          if 3 ≤ failed.length then modPass pid (fun p => failPass 3 { p with failed := failed }) s
          else if p.unrepeatable && p.pieces.any (fun c => c.id == q && c.wrote) then
            modPass pid (fun p => failPass failed.length { p with failed := failed }) s
          else modPass pid (fun p => setPiece { p with failed := failed } q (fun c => { c with state := .waiting, reissue := true })) s
        | _ => modPass pid (fun p => setPiece p q (fun c => { c with state := .waiting, reissue := true })) s

/-- R358: a `PIECE_DONE` message. -/
def execPieceDone (site id status : Nat) (nonfinite saturated : Option (Nat × Nat)) (hist : List Nat) (s : State) : Res :=
  .next (unlessClearing site (pieceDone site id status nonfinite saturated hist) s)

/-- R358: a heartbeat; its timer stands outside the model's time (log entry 20), and a beat for no piece of the
site is discarded. -/
def pieceBeat (n id : Nat) (s : State) : State := if (site s n).pieces.any (fun e => e.1 == id) then s else kppDrop n s

def execPieceBeat (site id : Nat) (s : State) : Res := .next (unlessClearing site (pieceBeat site id) s)

/-- `PREEMPT` for every piece of a guest (R358). -/
def preemptGuest (n : Nat) (s : State) : State :=
  let x := site s n
  let ids := (x.pieces.map (fun e => e.1)).filter (fun i => !x.stopping.contains i)
  ids.foldl (fun s i => sendMgmt n 0xC [i] [] s) (setSite n { x with stopping := x.stopping ++ ids } s)

/-- R358: a missed beat counts as a failed executor and fences the site. -/
def execPieceBeatTimeout (site : Nat) (s : State) : Res :=
  .next (if site < 8 ∧ siteLink s site = 5 ∧ !(Machine.site s site).pieces.isEmpty then fenceSite site 9 0 s else s)

/-- R358, R364: a guest misses its pause or stop bound. -/
def execStopBoundTimeout (site : Nat) (s : State) : Res :=
  .next (
    let x := Machine.site s site
    if siteRuns s site ∧ (x.pausing ∨ !x.stopping.isEmpty) then fenceSite site 8 0 s else s)

/-- R362: a guest misses its `CLEAR` bound. -/
def execClearBoundTimeout (site : Nat) (s : State) : Res :=
  .next (if site < 8 ∧ siteLink s site = 6 then fenceSite site 7 0 s else s)

/-! Guest registers (R357) -/

/-- Ends the oldest guest register read with data; none: all ones, and `REG_TIMEOUT`. -/
def endGuestRead (n : Nat) (data : Option Nat) (s : State) : State :=
  let x := site s n
  match x.regReads with
  | [] => s
  | r :: rest =>
    let s := setSite n { x with regReads := rest } s
    let s := if data.isSome then s else setFld (pageSite n) Reg.SITE_STATUS_REG_TIMEOUT 1 s
    answerAccess r.fn (pageSite n) (0x8000 + r.off) false ((data.getD (2 ^ (8 * r.width) - 1)) % 2 ^ (8 * r.width)) s

/-- R357: a `REG_RSP` message: data, or none for status 1. -/
def execRegRsp (site : Nat) (data : Option Nat) (s : State) : Res :=
  .next (unlessClearing site (fun s => if (Machine.site s site).regReads.isEmpty then kppDrop site s else endGuestRead site data s) s)

/-- R357: an access at 0x8000 + `off` of a site's page, 4 or 8 bytes wide. -/
def guestReg (fn n off width : Nat) (write : Bool) (data : Nat) (s : State) : State :=
  let p := pageSite n
  if bindState s p = 1 ∧ flag s p Reg.BINDING_SEALED then
    answerAccess fn p (0x8000 + off) write 0 (bump p Reg.SITE_STATUS_REG_BLOCKED 1 s)
  else if write then
    let s := if siteLink s n = 5 ∨ siteLink s n = 7 then sendMgmt n 0xE [off, width, data % 2 ^ (8 * width)] [] s else s
    answerAccess fn p (0x8000 + off) true 0 s
  else
    let s := modSite n (fun x => { x with regReads := x.regReads ++ [⟨fn, off, width⟩] }) s
    if siteLink s n = 5 ∨ siteLink s n = 7 then sendMgmt n 0xD [off, width] [] s else endGuestRead n none s

/-- R357: a host access to the guest register window. -/
def execGuestRegAccess (fn site off width : Nat) (write : Bool) (data : Nat) (s : State) : Res :=
  .next (
    if 8 ≤ site ∨ 0x8000 ≤ off ∨ (width ≠ 4 ∧ width ≠ 8) ∨ off % width ≠ 0 then s
    else guestReg fn site off width write data (dropShadow fn (pageSite site) s))

/-- R357: the guest has not answered within 1 ms. -/
def execGuestRegTimeout (site : Nat) (s : State) : Res := .next (if site < 8 then endGuestRead site none s else s)

/-! Power states, errors, alerts (R353, R371, R372) -/

/-- `PWR` to a guest: 0 `ACTIVE`, 1 `IDLE`. -/
def sendPwr (n v : Nat) (s : State) : State := sendMgmt n 0x10 [v] [] (modSite n (fun x => { x with pwrWait := some v }) s)

def pwrAck (n v : Nat) (s : State) : State :=
  if (site s n).pwrWait = some v then modSite n (fun x => { x with pwrWait := none, l1 := v == 1 }) s else kppDrop n s

/-- R372: a `PWR_ACK` message. -/
def execPwrAck (site state : Nat) (s : State) : Res := .next (unlessClearing site (pwrAck site state) s)

/-- R372: the site has been `FREE` for `IDLE_MS`. -/
def execSiteIdle (site : Nat) (s : State) : Res :=
  .next (
    let x := Machine.site s site
    if 8 ≤ site ∨ siteLink s site ≠ 5 ∨ bindState s (pageSite site) ≠ 0 ∨ !flag s (pageSite site) Reg.SITE_CFG_IDLE_MS ∨
        x.l1 ∨ x.pwrWait.isSome then s
    else sendPwr site 1 s)

def kppErrorMsg (n severity : Nat) (s : State) : State :=
  if severity = 1 then fenceSite n 0xD 0 s
  else if severity = 0 then raiseErr { page := pageSite n, ctx := 0, sev := 0, cls := 0x063 } s
  else kppDrop n s

/-- R353: an `ERROR` message: 0 corrected, 1 fatal. -/
def execKppError (site severity code : Nat) (s : State) : Res :=
  .next (unlessClearing site (fun s => let _ := code; kppErrorMsg site severity s) s)

/-- R371: the guest asserts `GS_THERM_N`. -/
def execGsTherm (site : Nat) (s : State) : Res :=
  .next (if 8 ≤ site then s else raiseSrc (pageSite site) 3 (modSite site (fun x => { x with therm := x.therm + 1 }) s))

/-- The rail of a site is on or ramping. -/
def railOn (s : State) (n : Nat) : Bool := decide (n < 8) && decide (1 ≤ siteLink s n) && decide (siteLink s n ≤ 8)

/-- R29: the site draws more than its limit for 2 us. -/
def execSiteOvercurrent (site : Nat) (s : State) : Res := .next (if railOn s site then fenceSite site 1 0 s else s)

/-- R29: the rail falls below 90 % for 1 us outside the ramp. -/
def execSiteUndervoltage (site : Nat) (s : State) : Res :=
  .next (if railOn s site ∧ !(Machine.site s site).ramping then fenceSite site 2 0 s else s)

/-! Lanes in service (R365, R367) -/

/-- `ERR_FIRST_DETAIL` above the cause: module, lane, direction (R374). -/
def laneDetail (m dir lane : Nat) : Nat := m % 4 + lane % 128 * 4 + dir % 2 * 2 ^ 9

/-- The mode of a module after a lane of one half fails with no spare left. -/
def degradedMode (mode lane : Nat) : Nat :=
  let upper := decide (32 ≤ lane)
  match mode with
  | 0 => if upper then 1 else 2
  | 1 => if upper then 1 else 3
  | 2 => if upper then 3 else 2
  | _ => 3

/-- R367: the degraded link is reported, and a site below its least bandwidth is fenced. -/
def degraded (n m dir lane : Nat) (s : State) : State :=
  let p := pageSite n
  if siteGbs s n < fld s p Reg.SITE_DECL0_MIN_GBS ∨ !flag s p Reg.SITE_STATE_LIVE_HALVES then
    if siteLink s n < 5 then startFailed n 3 s else fenceSite n 0xA (laneDetail m dir lane) s
  else
    let s := raiseErr { page := p, ctx := 0, sev := 0, cls := 0x061, detail := 2 ^ 8 * laneDetail m dir lane } (raiseSrc p 0 s)
    if bindState s p = 1 ∨ bindState s p = 2 then siteNotice (bindCtx s p) n Reg.SITE_NOTICE_DEGRADED s else s

/-- R367: lane `lane` of a module and direction (0 transmit from the hub, 1 receive) fails in service. -/
def execLaneFailure (site module dir lane : Nat) (s : State) : Res :=
  .next (
    let x := Machine.site s site
    let i := 2 * module + dir
    if !linkUp s site ∨ 4 ≤ module ∨ 2 ≤ dir ∨ 64 ≤ lane ∨
        !tst (fld s (pageSite site) Reg.SITE_STATE_LIVE_HALVES) (2 * module + lane / 32) then s
    else
      let modes := laneModes s site
      if x.spares.getD i 0 < 4 then
        let s := setSite site { x with spares := (List.range 8).map (fun j => x.spares.getD j 0 + b2n (j == i)) } s
        let s := setFld (pageSite site) (Reg.LANE_STATUS_RECHOSEN.up (8 * module)) 1 (showLanes site modes s)
        retrainSite site (laneDetail module dir lane) s
      else
        let s := showLanes site (modAt modes module (fun m => degradedMode m lane)) s
        let s := retrainSite site (laneDetail module dir lane) s
        if siteLink s site = 9 then s else degraded site module dir lane s)

end Sys2Proof.Machine
end

