-- ==== Sys2Proof/Machine/Plarus.lean ====
section
/-! DEFINITION. The Plarus transport: sessions, packets, acknowledgement, congestion (R409 to R424). -/

namespace Sys2Proof.Machine

def plarusPage : Nat := 0x00F

def session (s : State) (i : Nat) : Session := Tab.get {} s.plr.sessions i
def setSession (i : Nat) (x : Session) (s : State) : State :=
  { s with plr := { s.plr with sessions := Tab.put {} s.plr.sessions i x } }
def modSession (i : Nat) (f : Session → Session) (s : State) : State := setSession i (f (session s i)) s

/-- The session carries authenticated frames (R415). -/
def sessionLive (s : State) (i : Nat) : Bool := decide (i < 1024) && decide (2 ≤ (session s i).st) && decide ((session s i).st ≤ 4)

/-- The session takes new torus packets. -/
def sessionOpen (s : State) (i : Nat) : Bool := decide (i < 1024) && ((session s i).st == 2 || (session s i).st == 3)

def countUnauth (s : State) : State := count plarusPage Reg.PLR_COUNTS_UNAUTH_DROPS 1 s

/-- A frame dropped under a session's own counter (R413, R416), which saturates and holds under a freeze. -/
def countAuthDrop (i : Nat) (s : State) : State :=
  if flag s plarusPage Reg.PAGE_CTRL_COUNTER_FREEZE then s
  else modSession i (fun x => { x with authDrops := min (x.authDrops + 1) (2 ^ 32 - 1) }) s

/-! Keys and identities (R307, R417, R447) -/

/-- The secret number of the attestation key: the seed's derivation under measurement register 1. -/
def attestSecret (s : State) : Nat := Config.deriveKeys 0 (leBytes 64 (Tab.get 0 s.heart.meas 1)) [] 2
def attestKey (s : State) : List Byte := Config.publicKey (attestSecret s)

/-- `KEY_ID` (R307): the first 16 bytes of SHA-512 of a public key, as a little-endian number. -/
def keyIdOf (key : List Byte) : Nat := Config.sha512 key % 2 ^ 128

/-- A `KEY_ID` compared as a big-endian number (R418). -/
def keyIdBig (k : Nat) : Nat := ofBytes (leBytes 16 k).reverse

/-- Life-cycle state `MISSION` (R448). -/
def lcMission : Nat := 3
def lifeCycle (s : State) : Nat := fld s 0x00C Reg.LC_STATE_STATE
def debugOpen (s : State) : Bool := flag s 0x00D Reg.DEBUG_STATE_OPEN

/-- What an `INIT` or `RESP` signs (R417). `before` is the `INIT` that a `RESP` also covers. -/
def handshakeText (h : Handshake) : List Byte :=
  h.nonce ++ h.ephemeral ++ h.attKey ++ leBytes 2 h.session ++ leBytes 1 h.ctx ++ leBytes 1 h.peerCtx ++
    leBytes 1 h.lifeCycle ++ leBytes 1 h.debug

def handshakeSigned (h : Handshake) (before : List Byte) : Bool := Config.ecdsaVerify h.attKey (before ++ handshakeText h) h.signature

/-- The hub's own handshake message for a session, its secret and nonce drawn already. -/
def ownHandshake (s : State) (i : Nat) (before : List Byte) : Handshake :=
  let x := session s i
  let h : Handshake := {
    nonce := x.nonce, ephemeral := Config.publicKey x.secret, attKey := attestKey s, session := i, ctx := x.ctx
    peerCtx := x.peerCtx, lifeCycle := lifeCycle s, debug := b2n (debugOpen s) }
  { h with signature := Config.ecdsaSign (attestSecret s) (before ++ handshakeText h) }

def handshakeBytes (h : Handshake) : List Byte := handshakeText h ++ h.signature

/-! Windows (R421, R422) -/

/-- `FRAME_MAX` in force (R437). -/
def frameMax (s : State) : Nat := max 1518 (min 9216 (fld s plarusPage Reg.PLR_CFG_FRAME_MAX))

/-- Framing overhead (R412). -/
def overhead (s : State) (x : Session) : Nat :=
  (if x.framing = 1 then 130 else 82) + (if flag s plarusPage Reg.PLR_CFG_VLAN_EN then 4 else 0)

/-- Payload bytes of a packet. -/
def unitLen (u : Unit256) : Nat := if u.be.isSome then 288 else 256
def TxPkt.bytes (p : TxPkt) : Nat := if p.kind = 1 then p.units.foldl (fun n u => n + unitLen u) 64 else p.body.length

def cwndMin (s : State) : Nat := max (frameMax s) (fld s plarusPage Reg.CC_LIMIT_CWND_MIN)
def cwndMax (s : State) : Nat := fld s plarusPage Reg.CC_LIMIT_CWND_MAX_KIB * 1024
def clampCwnd (s : State) (n : Nat) : Nat := min (max n (cwndMin s)) (max (cwndMin s) (cwndMax s))

/-- The window a session uses now. -/
def cwndNow (s : State) (x : Session) : Nat := clampCwnd s (if x.override then x.ovrCwnd else x.cwnd)

def Session.inFlight (x : Session) : Nat := x.unacked.foldl (fun n p => n + p.bytes) 0

/-- RTO of a packet after its expiries (R421). -/
def rto (s : State) (x : Session) (expiries : Nat) : Nat :=
  let lim := fld s plarusPage Reg.RTX_CTRL_RTO_MAX_US * 1000
  min (max (x.srtt + 4 * x.rttvar) (fld s plarusPage Reg.RTX_CTRL_RTO_MIN_NS) * 2 ^ expiries) lim

/-! Sending -/

/-- Counts payload of a tenant's session (R323). -/
def countPlarus (k n : Nat) (s : State) : State :=
  if 0 < k ∧ k < 64 then bump (pageWin k 3) Reg.CT_BYTES_PLARUS n s else s

/-- Puts a packet on the wire under the next packet number; all but acknowledgements are kept until acknowledged
(R416, R421). -/
def transmit (i : Nat) (p : TxPkt) (s : State) : State :=
  let x := session s i
  let p := { p with pn := x.txNext, passed := 0, stepped := false }
  let s := setSession i { x with
    txNext := x.txNext + 1, txUnder := x.txUnder + 1
    unacked := if p.kind = 2 then x.unacked else x.unacked ++ [p] } s
  let s := if p.kind = 1 then countPlarus x.ctx p.bytes s else s
  emit (.plarus i p.kind p.pn p.first p.hdr p.units p.body) s

/-- Sends what the window and the limit of 1,023 unacknowledged packets allow. -/
def pumpN (i : Nat) : Nat → State → State
  | 0, s => s
  | n + 1, s =>
    let x := session s i
    match x.sendQ with
    | [] => s
    | p :: rest =>
      if x.unacked.length < 1023 ∧ (x.unacked.isEmpty = true ∨ x.inFlight + p.bytes ≤ cwndNow s x) then
        pumpN i n (transmit i p (setSession i { x with sendQ := rest } s))
      else s

def pump (i : Nat) (s : State) : State := pumpN i (session s i).sendQ.length s

/-- Splits the data units of a torus packet over frames (R412): first unit and units of each. -/
def splitUnits (room : Nat) : Nat → Nat → List Unit256 → List (Nat × List Unit256)
  | 0, _, _ => []
  | fuel + 1, first, us =>
    let n := (us.foldl (fun (a : Nat × Nat) u =>
      if a.1 + unitLen u ≤ room ∧ a.2 < 16 then (a.1 + unitLen u, a.2 + 1) else (room + 1, a.2)) (0, 0)).2
    let n := max 1 n
    if us.length ≤ n then [(first, us)] else (first, us.take n) :: splitUnits room fuel (first + n) (us.drop n)

/-- Sends a torus packet through a session. -/
def plrSend (i : Nat) (plane : Plane) (h : Header) (units : List Unit256) (s : State) : State :=
  let x := session s i
  let parts := splitUnits (frameMax s - overhead s x - 64) (units.length + 1) 0 units
  let q := parts.map (fun e => ({ kind := 1, plane := plane, hdr := h, first := e.1, units := e.2 } : TxPkt))
  pump i (setSession i { x with sendQ := x.sendQ ++ q } s)

/-- Sends a request of the hub's and waits for its response; a session that is not open answers `NODE_DOWN`. -/
def plrRequest (i : Nat) (h : Header) (units : List Unit256) (s : State) : State :=
  if sessionOpen s i then plrSend i .req h units (modSession i (fun x => { x with waiting := x.waiting ++ [h] }) s)
  else respond h 1 [] s

/-- Sends a control packet of a session (R411). -/
def plrControl (i kind : Nat) (body : List Byte) (s : State) : State := transmit i { kind := kind, body := body } s

/-- Sends an acknowledgement. -/
def plrAck (i : Nat) (s : State) : State :=
  let x := session s i
  let map := (List.range 64).foldl (fun m j => if x.rxSeen.contains (x.rxLargest - 1 - j) && decide (j + 1 < x.rxLargest) then m + 2 ^ j else m) 0
  let body := leBytes 8 x.rxLargest ++ leBytes 8 map ++ leBytes 4 x.lastTs ++ [BitVec.ofNat 8 (b2n x.ceSeen)]
  transmit i { kind := 2, body := body } (setSession i { x with due := 0, ceSeen := false } s)

/-! States (R419, R420) -/

/-- The entry's configuration, everything else as in a FREE entry. -/
def Session.cleared (x : Session) : Session :=
  { peerMac := x.peerMac, framing := x.framing, kiln := x.kiln, allowDebug := x.allowDebug, peerCtx := x.peerCtx, ip6 := x.ip6
    keyId := x.keyId, ovrCwnd := x.ovrCwnd, override := x.override }

/-- A page of a journal was not stored by the partner: it is dirty again (R502, R505). -/
def emberUnsent (k : Nat) (h : Header) (s : State) : State :=
  match walkLeaf s k (h.addr % 2 ^ 55) with
  | .ok l => markDirty l.entryPa s
  | .error _ => s

/-- Torus requests waiting on a session are answered `NODE_DOWN` (R420); pages of a journal in flight are sent again. -/
def failWaiting (i : Nat) (s : State) : State :=
  let w := (session s i).waiting
  w.foldl (fun s h => respond h 1 [] (if h.opcode = 0x88 then emberUnsent h.ctx h s else s))
    (modSession i (fun x => { x with waiting := [] }) s)

/-- Passes of class COLLECTIVE whose group names a session (R191). -/
def collectivePasses (s : State) (i : Nat) : List Nat :=
  (s.passes.filter (fun p =>
    p.opclass == 0x0C && p.phase == .running &&
      (let g := p.param 47 32
       s.plr.groupMap.any (fun e => e.1 / 1024 == g && e.2 == i)))).map (fun p => p.id)

/-- The sessions of a journal (R498). -/
def journalSessions (s : State) (k : Nat) : List Nat :=
  (List.range (fld s (pageCtx k) Reg.EMBER_CFG_SESSION_COUNT + 1)).map (fun j => fld s (pageCtx k) Reg.EMBER_CFG_SESSION_BASE + j)

def ember (s : State) (k : Nat) : EmberSt := Tab.get {} s.ember k
def setEmber (k : Nat) (e : EmberSt) (s : State) : State := { s with ember := Tab.put {} s.ember k e }
def emberState (s : State) (k : Nat) : Nat := fld s (pageCtx k) Reg.EMBER_STATUS_STATE
def setEmberState (k v : Nat) (s : State) : State := setFld (pageCtx k) Reg.EMBER_STATUS_STATE v s

/-- A source journal whose last session has gone is `LOST` (R505): class 0x0A0, and a running point fails. -/
def journalLost (k : Nat) (s : State) : State :=
  let e := ember s k
  let s := match e.point with
    | some id =>
      let s := failPasses 0 [id] (setEmber k { e with point := none } s)
      raiseSrc 0x00A 1 s
    | none => s
  let s := setEmberState k 4 (raiseSrc 0x00A 0 s)
  raiseErr { page := 0x00A, ctx := k, sev := 2, cls := 0x0A0, detail := k + e.openCut % 2 ^ 32 * 2 ^ 8 } s

/-- What the loss of a session does to the journals and collectives that use it. -/
def sessionGone (i : Nat) (s : State) : State :=
  let s := failPasses 0 (collectivePasses s i) s
  (List.range 64).foldl (fun s k =>
    if 1 ≤ emberState s k ∧ emberState s k ≤ 3 ∧ (journalSessions s k).contains i then
      if (journalSessions s k).any (sessionOpen s) then s else journalLost k s
    else s) s

/-- The session is `LOST` (R420): its requests are answered, a record is raised, bit 0 is set. -/
def sessionLost (i : Nat) (s : State) : State :=
  let x := session s i
  let s := setSession i { x with st := 5, keys := 0, nextKeys := none, oldOk := false, unacked := [], sendQ := [], rxParts := [] } s
  let s := failWaiting i s
  let s := raiseErr { page := plarusPage, ctx := x.ctx, sev := 2, cls := 0x080, detail := i } (raiseSrc plarusPage 0 s)
  sessionGone i s

/-- The entry becomes `FREE`; a kiln release that waited for it ends (R414, R419). -/
def sessionFree (i : Nat) (s : State) : State :=
  let s := sessionGone i (modSession i Session.cleared (failWaiting i s))
  match pageOp s plarusPage with
  | some o => if o.op = 0x11 ∧ o.arg % 1024 = i ∧ !o.queued then opEnd plarusPage 3 s else s
  | none => s

/-- A release (R419, R420). -/
def sessionRelease (i : Nat) (s : State) : State :=
  match (session s i).st with
  | 1 => sessionFree i s
  | 5 => sessionFree i s
  | 2 => failWaiting i (modSession i (fun x => { x with st := 4, sendQ := [] }) (plrControl i 7 [] s))
  | 3 => failWaiting i (modSession i (fun x => { x with st := 4, sendQ := [] }) (plrControl i 7 [] s))
  | _ => s

/-- Draws the secret and nonce of a handshake. -/
def drawHandshake (i : Nat) (s : State) : State :=
  drew (modSession i (fun x => { x with secret := drawn s, nonce := freeBytes s 32 }) s)

def sendInit (i : Nat) (s : State) : State := emit (.plarus i 3 0 0 {} [] (handshakeBytes (ownHandshake s i []))) s

/-- A bind (R414, R417): the entry goes to `CONNECTING` and sends `INIT`. -/
def sessionBind (i k : Nat) (s : State) : State :=
  sendInit i (drawHandshake i (modSession i (fun x => { x.cleared with st := 1, ctx := k }) s))

/-- A handshake has been accepted: new keys, `OPEN`, both series from 1; what was unacknowledged is sent again
(R417, R419). `salt` is the two nonces, then the KEY_IDs and contexts of both sides. -/
def sessionOpened (i : Nat) (h : Handshake) (salt : List Byte) (s : State) : State :=
  let x := session s i
  let again := x.unacked.filter (fun p => p.kind == 1)
  let s := setSession i { x with
    st := 2, keys := Config.deriveKeys x.secret h.ephemeral salt 3, nextKeys := none, oldOk := false, keyPhase := 0
    peerIndex := h.session % 1024, verified := keyIdOf h.attKey, txNext := 1, txUnder := 0, rxUnder := 0, rxLargest := 0
    rxSeen := [], unacked := [], sendQ := again ++ x.sendQ, due := 0
    cwnd := if x.cwnd = 0 then clampCwnd s 0 else x.cwnd } s
  pump i s

/-- The information string of the derivation, after the two nonces (R417). -/
def saltOf (initiator responder : Handshake) : List Byte :=
  initiator.nonce ++ responder.nonce ++ leBytes 16 (keyIdOf initiator.attKey) ++ leBytes 16 (keyIdOf responder.attKey) ++
    leBytes 1 initiator.ctx ++ leBytes 1 responder.ctx

/-- A peer's report is acceptable to an entry (R417, R331). -/
def peerAcceptable (s : State) (x : Session) (h : Handshake) : Bool :=
  (h.lifeCycle == lcMission && h.debug == 0) || (x.allowDebug && x.ctx < 64 && !isSealed s x.ctx)

/-! Receiving (R415, R416, R421) -/

/-- A packet number is acceptable (R416). -/
def pnFresh (x : Session) (pn : Nat) : Bool := decide (x.rxLargest < pn + 1024) && decide (0 < pn) && !x.rxSeen.contains pn

/-- One RTT sample under RFC 6298's gains (R421). -/
def takeSample (x : Session) (sec r : Nat) : Session :=
  let d := if x.srtt < r then r - x.srtt else x.srtt - r
  { x with
    srtt := if x.hasRtt then (7 * x.srtt + r) / 8 else r
    rttvar := if x.hasRtt then (3 * x.rttvar + d) / 4 else r / 2
    hasRtt := true, samples := x.samples ++ [r], mins := x.mins ++ [(sec, r)] }

/-- Sends a packet again under a new number (R421). -/
def retransmit (i : Nat) (p : TxPkt) (s : State) : State :=
  let s := if flag s plarusPage Reg.PAGE_CTRL_COUNTER_FREEZE then s
    else modSession i (fun x => { x with retransmits := min (x.retransmits + 1) (2 ^ 32 - 1) }) s
  transmit i p (modSession i (fun x => { x with unacked := x.unacked.filter (fun q => q.pn != p.pn) }) s)

/-- An acknowledgement (R421): frees packets, gives an RTT sample, and packets that three later ones have passed
are sent again. -/
def takeAck (i : Nat) (h : PlrHdr) (s : State) : State :=
  if !h.ackPresent then s
  else
    let x := session s i
    let hit (pn : Nat) : Bool := pn == h.ackLargest || (decide (pn < h.ackLargest) && tst h.ackMap (h.ackLargest - 1 - pn))
    let got := x.unacked.filter (fun p => hit p.pn)
    let left := (x.unacked.filter (fun p => !hit p.pn)).map (fun p =>
      { p with passed := p.passed + (got.filter (fun q => decide (p.pn < q.pn))).length })
    let x := { x with unacked := left, eceSeen := x.eceSeen || h.ece }
    let x := if got.any (fun p => p.pn == h.ackLargest && !p.stepped) then
        takeSample x s.time.sec ((h.arrival + 2 * 2 ^ 32 - h.echoTs - h.ackDelay) % 2 ^ 32)
      else x
    let s := setSession i x s
    pump i ((left.filter (fun p => decide (3 ≤ p.passed))).foldl (fun s p => retransmit i p s) s)

/-- The key phase of a packet is one the session accepts; the peer's first packet under agreed new keys installs them
(R418). -/
def phaseOk (x : Session) (phase : Nat) : Bool := phase == x.keyPhase || x.nextKeys.isSome || x.oldOk

def takePhase (x : Session) (phase : Nat) : Session :=
  match x.nextKeys with
  | some k => if phase = x.keyPhase then x
      else { x with keys := k, nextKeys := none, keyPhase := phase, oldOk := true, txUnder := 0, rxUnder := 0 }
  | none => x

/-- A frame of a session arrives (R415, R416): authenticated, its number fresh, its acknowledgement taken; then `f`. -/
def plrReceive (h : PlrHdr) (f : State → State) (s : State) : State :=
  let i := h.session
  let x := session s i
  if !sessionLive s i ∨ !h.authentic ∨ !phaseOk x h.keyPhase then countUnauth s
  else if !pnFresh x h.pn then countAuthDrop i s
  else
    let x := takePhase x h.keyPhase
    let big := max x.rxLargest h.pn
    let x := { x with
      rxLargest := big, rxSeen := (h.pn :: x.rxSeen).filter (fun n => decide (big < n + 1024)), rxUnder := x.rxUnder + 1
      lastTs := if x.rxLargest < h.pn then h.txTs else x.lastTs, lastAt := if x.rxLargest < h.pn then h.arrival else x.lastAt
      ceSeen := x.ceSeen || h.ce }
    f (takeAck i h (setSession i x s))

end Sys2Proof.Machine
end

