-- ==== Sys2Proof/Machine/Kiln.lean ====
section
/-! DEFINITION. The kiln: pools, policies, rounds, contributions and release (R324 to R344). -/

namespace Sys2Proof.Machine

def noRound : KilnRound := { handle := 0, policy := [], digest := 0 }
def kround (s : State) (slot : Nat) : KilnRound := Tab.get noRound s.kiln.rounds slot
def setRound (slot : Nat) (r : KilnRound) (s : State) : State :=
  { s with kiln := { s.kiln with rounds := Tab.put noRound s.kiln.rounds slot r } }
def modRound (slot : Nat) (f : KilnRound → KilnRound) (s : State) : State := setRound slot (f (kround s slot)) s

/-- The engine of a slot, and its page (R330). -/
def slotPage (slot : Nat) : Nat := pageKiln (slot / 32 % 2)

def kilnPool (s : State) (e : Nat) : List Nat := Tab.get [] s.kiln.pools e
def setKilnPool (e : Nat) (l : List Nat) (s : State) : State :=
  { s with kiln := { s.kiln with pools := Tab.put [] s.kiln.pools e l } }
def kilnQueue (s : State) (e : Nat) : List KilnCommit := Tab.get [] s.kiln.commits e
def setKilnQueue (e : Nat) (l : List KilnCommit) (s : State) : State :=
  { s with kiln := { s.kiln with commits := Tab.put [] s.kiln.commits e l } }

/-! Policies (R326, R327) -/

def polParties (b : List Byte) : Nat := leAt b 2 1
def polQuorum (b : List Byte) : Nat := leAt b 3 1
def polRule (b : List Byte) : Nat := leAt b 4 1
def polHubs (b : List Byte) : Nat := leAt b 5 1
def polLead (b : List Byte) : Nat := leAt b 6 1
def polElements (b : List Byte) : Nat := leAt b 8 8
def polClip (b : List Byte) : Nat := leAt b 16 4
def polSigma (b : List Byte) : Nat := leAt b 20 4
/-- The deadline in ns of the timebase. -/
def polDeadline (b : List Byte) : Nat := leAt b 24 6 * 10 ^ 9 + leAt b 30 4
/-- `KEY_ID` of hub i. -/
def polHubKey (b : List Byte) (i : Nat) : Nat := leAt b (80 + 16 * i) 16

def polParty (b : List Byte) (i : Nat) : KilnParty :=
  let o := 336 + 144 * i
  { hub := leAt b o 1, ctx := leAt b (o + 1) 1, role := leAt b (o + 2) 1, fence := leAt b (o + 3) 1, key := slice b (o + 8) 133 }

def polPartyList (b : List Byte) : List (Nat × KilnParty) := (List.range (polParties b)).map (fun i => (i, polParty b i))

def KilnParty.contributes (p : KilnParty) : Bool := tst p.role 0
def KilnParty.targeted (p : KilnParty) : Bool := tst p.role 1

/-- An FP32 code that is positive and finite. -/
def posFinite (c : Nat) : Bool := decide (0 < c) && decide (c < 0x7F800000)

/-- The fields of one party's entry (R327). -/
def partyOk (b : List Byte) (i : Nat) : Bool :=
  let o := 336 + 144 * i
  let p := polParty b i
  decide (p.hub < polHubs b) && decide (1 ≤ p.ctx) && decide (p.ctx ≤ 0x3F) && decide (1 ≤ p.role) && decide (p.role ≤ 3)
    && !tst p.fence 6 && (!tst p.fence 7 || p.targeted) && leAt b (o + 4) 4 == 0 && leAt b (o + 141) 3 == 0

/-- A policy is well formed (R326, R327). -/
def policyOk (b : List Byte) : Bool :=
  let n := polParties b
  let ps := (polPartyList b).map (fun e => e.2)
  decide (1 ≤ n) && decide (n ≤ 64) && b.length == 336 + 144 * n && leAt b 0 2 == 1
    && decide (1 ≤ polQuorum b) && decide (polQuorum b ≤ (ps.filter (fun p => p.contributes)).length)
    && decide (polRule b ≤ 1) && decide (1 ≤ polHubs b) && decide (polHubs b ≤ 16) && decide (polLead b < polHubs b)
    && leAt b 7 1 == 0 && decide (1 ≤ polElements b) && decide (polElements b ≤ 2 ^ 30)
    && posFinite (polClip b) && (Num.isZero (Num.ofF32 (polSigma b)) || posFinite (polSigma b))
    && decide (leAt b 30 4 < 10 ^ 9) && leAt b 34 2 == 0
    && decide (1 ≤ leAt b 36 4) && decide (leAt b 36 4 ≤ 60000) && decide (1 ≤ leAt b 40 4) && decide (leAt b 40 4 ≤ 600000)
    && decide (1 ≤ leAt b 44 4) && decide (leAt b 44 4 ≤ 2592000)
    && (List.range 16).all (fun i => decide (i < polHubs b) || polHubKey b i == 0)
    && (List.range n).all (partyOk b)
    && (List.range n).all (fun i => (List.range i).all (fun j =>
        !((polParty b i).hub == (polParty b j).hub && (polParty b i).ctx == (polParty b j).ctx)))

/-- Frames of one buffer (R325). -/
def polFrames (b : List Byte) : Nat := ceilDiv (4 * polElements b) (2 ^ 21)

/-- This hub's index in a policy's `HUB_TABLE`. -/
def localHub (s : State) (b : List Byte) : Option Nat :=
  (List.range (polHubs b)).find? (fun i => polHubKey b i == keyIdOf (attestKey s))

/-- Parties of a hub. -/
def hubParties (b : List Byte) (h : Nat) : List (Nat × KilnParty) := (polPartyList b).filter (fun e => e.2.hub == h)

def isLead (s : State) (r : KilnRound) : Bool := localHub s r.policy == some (polLead r.policy)

/-! Finding rounds -/

def roundOfHandle (s : State) (h : Nat) : Option Nat :=
  if h ≠ 0 ∧ (kround s (h % 64)).handle = h then some (h % 64) else none

def roundOfDigest (s : State) (d : Nat) : Option Nat :=
  (List.range 64).find? (fun i => (kround s i).handle != 0 && (kround s i).digest == d)

/-- The first 32 bytes of a digest. -/
def digestHead (d : Nat) : List Byte := leBytes 32 d

def roundOfHead (s : State) (b : List Byte) : Option Nat :=
  (List.range 64).find? (fun i => (kround s i).handle != 0 && digestHead (kround s i).digest == slice b 0 32)

/-! Registers (R344) -/

/-- A round's frames, staging included. -/
def KilnRound.frames (r : KilnRound) : List Nat := r.buf0 ++ r.buf1 ++ (r.staging.map (fun e => e.2)).flatten

def engineSlots (s : State) (e : Nat) : List Nat := ((List.range 32).map (fun i => 32 * e + i)).filter (fun i => (kround s i).handle != 0)

/-- The engine's next commit is a put that finds no free staging frames (R336). -/
def putWaits (s : State) (e : Nat) : Bool :=
  match kilnQueue s e with
  | [] => false
  | c :: _ => c.pass.isSome && decide ((kilnPool s e).length < polFrames (kround s c.slot).policy)

def showKiln (e : Nat) (s : State) : State :=
  let held := ((engineSlots s e).map (fun i => (kround s i).frames.length)).foldl (· + ·) 0
  setFlds (pageKiln e) [(Reg.KILN_POOL_FREE, (kilnPool s e).length), (Reg.KILN_POOL_TOTAL, (kilnPool s e).length + held),
    (Reg.KILN_ROUNDS_ACTIVE, (engineSlots s e).length), (Reg.KILN_POOL_WAITING, b2n (putWaits s e))] s

/-- A change of an engine's pool, queue or rounds: its registers follow, and a put that begins to wait sets bit 1. -/
def kilnChange (e : Nat) (f : State → State) (s : State) : State :=
  let t := f s
  let t := if !putWaits s e && putWaits t e then raiseSrc (pageKiln e) 1 t else t
  showKiln e t

/-! Frames -/

/-- The ash of a frame (R208): its lines are invalidated, its bytes are gone. -/
def ashFrameNow (f : Nat) (s : State) : State :=
  let s := ashLines f s
  setMem (s.mem.ashFrame f) s

/-- A frame leaves its owner `FREE`, or `RETIRED` where it is `BAD` (R210); one whose port has gone stays `GONE` (R402). -/
def freeFrame (f : Nat) (s : State) : State :=
  let e := frame s f
  if e.state = .gone then s
  else setFrame f { e with ctx := 0xFF, state := if e.bad then .retired else .free, pinned := false } s

/-- Takes frames from an engine's pool. -/
def drawFrames (e n : Nat) (s : State) : List Nat × State :=
  ((kilnPool s e).take n, setKilnPool e ((kilnPool s e).drop n) s)

/-- Ashes frames and returns them to the pool (R325). -/
def returnFrames (e : Nat) (l : List Nat) (s : State) : State :=
  let s := l.foldl (fun s f => ashFrameNow f s) s
  setKilnPool e (kilnPool s e ++ l) s

/-! Pool operations (R324) -/

def firstInRange (first n : Nat) : List Nat := (List.range n).map (fun i => first + i)

/-- Ends a pool operation with a reason. -/
def poolOp (e op first : Nat) (ok : Nat → State → Bool) (act : List Nat → State → State) (s : State) : State :=
  let p := pageKiln e
  if (pageOp s p).isSome then opRefused p s
  else
    let n := fld s p Reg.KILN_POOL_REQ_COUNT
    let s := opRun p op first s
    if (pageOp s (pageKiln (1 - e))).isSome then opEnd p 4 (setFld p Reg.KILN_POOL_STATUS_REASON 3 s)
    else if n = 0 ∨ hbmFrames < first + n then opEnd p 4 (setFld p Reg.KILN_POOL_STATUS_REASON 1 s)
    else if !(firstInRange first n).all (fun f => ok f s) then opEnd p 4 (setFld p Reg.KILN_POOL_STATUS_REASON 2 s)
    else opEnd p 3 (kilnChange e (act (firstInRange first n)) s)

/-- R324: operation 0x10 gives FREE frames to the engine's pool. -/
def kilnPoolAdd (e first : Nat) (s : State) : State :=
  poolOp e 0x10 first (fun f s => (frame s f).state == .free)
    (fun l s => setKilnPool e (kilnPool s e ++ l)
      (l.foldl (fun s f => setFrame f { frame s f with ctx := 0xFE, state := .owned } s) s)) s

/-- R324: operation 0x11 ashes the range's frames that no round holds, and frees them. -/
def kilnPoolRemove (e first : Nat) (s : State) : State :=
  poolOp e 0x11 first
    (fun f s => (kilnPool s e).contains f || (engineSlots s e).any (fun i => (kround s i).frames.contains f))
    (fun l s =>
      let go := l.filter (fun f => (kilnPool s e).contains f)
      go.foldl (fun s f => freeFrame f (ashFrameNow f s)) (setKilnPool e ((kilnPool s e).filter (fun f => !go.contains f)) s)) s

/-- R324: pool add. -/
def execKilnPoolAdd (engine first : Nat) (s : State) : Res := .next (if engine < 2 then kilnPoolAdd engine first s else s)

/-- R324: pool remove. -/
def execKilnPoolRemove (engine first : Nat) (s : State) : Res := .next (if engine < 2 then kilnPoolRemove engine first s else s)

/-! Messages to parties (R342) -/

def countedNow (r : KilnRound) : Nat := popCount r.counted 64

/-- The body of `KILN_STATUS` for a party. -/
def statusBody (r : KilnRound) (i : Nat) : List Byte :=
  leBytes 4 r.handle ++ leBytes 1 r.st ++ leBytes 1 (countedNow r) ++ leBytes 1 (polQuorum r.policy) ++
    leBytes 1 (if r.st = 5 then r.cause else 0) ++ leBytes 4 (Tab.get 0 r.factors i) ++ leBytes 1 (b2n (r.zeroed.contains i)) ++
    leBytes 19 0 ++ digestHead r.digest

def sendStatus (slot i : Nat) (s : State) : State :=
  let r := kround s slot
  winSend (polParty r.policy i).ctx 0x31 (statusBody r i) s

/-- A state change: every local party is told. -/
def sendStatuses (slot : Nat) (s : State) : State :=
  (kround s slot).joined.foldl (fun s i => sendStatus slot i s) s

/-! Transfers between hubs (R334) -/

/-- The session with a hub of the round (R331). -/
def kilnSession (s : State) (r : KilnRound) (hub : Nat) : Option Nat :=
  (s.plr.sessions.map (fun e => e.1)).find? (fun i =>
    sessionOpen s i && (session s i).ctx == 0xFE && (session s i).verified == polHubKey r.policy hub)

/-- Sends one kiln transfer to a hub; without an open session it is not sent. -/
def kilnSend (slot hub op addr opData : Nat) (units : List Unit256) (s : State) : State :=
  let r := kround s slot
  match kilnSession s r hub with
  | none => s
  | some i =>
    plrRequest i { ctx := 0xFE, prio := 2, opcode := op, dst := blockNode .plarus, src := blockNode (.kiln (slot / 32)), len := units.length,
                   addr := addr, opArg := i, opData := opData, inlineData := digestHead r.digest } units s

/-- The other hubs of a round. -/
def otherHubs (s : State) (r : KilnRound) : List Nat :=
  (List.range (polHubs r.policy)).filter (fun h => localHub s r.policy != some h)

/-- One unit of `KLN_SIG`. -/
def sigUnit (r : KilnRound) (i : Nat) : Unit256 := { bytes := slice (leBytes 4 i ++ Tab.get [] r.sigs i) 0 256 }

/-- A list in runs of 16. -/
def runs16 {α : Type} : Nat → List α → List (List α)
  | 0, _ => []
  | n + 1, l => if l.isEmpty then [] else l.take 16 :: runs16 n (l.drop 16)

/-- Sends the signatures of the parties joined here to a hub. -/
def sendSigs (slot hub : Nat) (s : State) : State :=
  let r := kround s slot
  (runs16 r.joined.length r.joined).foldl (fun s l => kilnSend slot hub 0x80 0 0 (l.map (sigUnit r)) s) s

/-- Address of byte `o` of a buffer of frames. -/
def bufAddr (buf : List Nat) (o : Nat) : Nat := buf.getD (o / 2 ^ 21) 0 * 2 ^ 21 + o % 2 ^ 21

def KilnRound.active (r : KilnRound) : List Nat := if r.second then r.buf1 else r.buf0
def KilnRound.idle (r : KilnRound) : List Nat := if r.second then r.buf0 else r.buf1

/-- Element i of the active sum buffer: the zero vector before anything has been added. -/
def sumCode (s : State) (r : KilnRound) (i : Nat) : Nat :=
  if r.adds = 0 then 0 else ofBytes (bytesAt s (bufAddr r.active (4 * i)) 4)

/-- The units of the active sum buffer, zeros past its end: byte offset and unit. -/
def sumUnits (s : State) (r : KilnRound) : List (Nat × Unit256) :=
  let e := polElements r.policy
  (List.range (ceilDiv (4 * e) 256)).map (fun u => (256 * u,
    { bytes := ((List.range 64).map (fun j => leBytes 4 (if 64 * u + j < e then sumCode s r (64 * u + j) else 0))).flatten }))

/-- Sends the sum to a hub in transfers of up to 16 units; the end follows once each has been answered. -/
def sendSum (slot hub op kind : Nat) (s : State) : State :=
  let l := runs16 (polElements (kround s slot).policy) (sumUnits s (kround s slot))
  let s := modRound slot (fun r => { r with sending := Tab.put (0, 0) r.sending hub (l.length, kind) }) s
  l.foldl (fun s us => kilnSend slot hub op (us.headD (0, {})).1 0 (us.map (fun u => u.2)) s) s

/-- A kiln transfer of this hub has been answered OK: after the last one, the end is sent. -/
def kilnAnswered (h : Header) (s : State) : State :=
  match roundOfHead s h.inlineData with
  | none => s
  | some slot =>
    let r := kround s slot
    match (otherHubs s r).find? (fun x => kilnSession s r x == some h.opArg) with
    | none => s
    | some hub =>
      let t := Tab.get (0, 0) r.sending hub
      if t.1 = 0 ∨ h.opcode ≠ (if t.2 = 0 then 0x82 else 0x84) then s
      else
        let s := setRound slot { r with sending := Tab.put (0, 0) r.sending hub (t.1 - 1, t.2) } s
        if t.1 = 1 then
          if t.2 = 0 then kilnSend slot hub 0x83 0 r.counted [] s else kilnSend slot hub 0x85 0 0 [] s
        else s

/-! Leaving states -/

/-- Completes a put with a status; `PASS_COMPLETE` follows. -/
def endPut (id status : Nat) (s : State) : State :=
  modPass id (fun p => { failPass 0 p with status := status }) s

/-- Puts and partial sums of a round that still wait are ended: `ABORTED`, counted under R338; staging returns. -/
def stopCommits (slot : Nat) (s : State) : State :=
  let e := slot / 32
  let q := kilnQueue s e
  let mine := q.filter (fun c => c.slot == slot)
  let s := setKilnQueue e (q.filter (fun c => c.slot != slot)) s
  let s := mine.foldl (fun s c =>
    match c.pass with
    | some id => count (slotPage slot) Reg.KILN_STATS_ABORTED 1 (endPut id 0x0B s)
    | none => count (slotPage slot) Reg.KILN_STATS_DISCARDED 1 s) s
  let l := ((kround s slot).staging.map (fun t => t.2)).flatten
  returnFrames e l (modRound slot (fun r => { r with staging := [] }) s)

/-- A round is destroyed on this hub (R332, R335): cause as in `KILN_STATUS`. -/
def destroyRound (slot cause : Nat) (s : State) : State :=
  let r := kround s slot
  if r.handle = 0 ∨ r.st = 5 then s
  else
    kilnChange (slot / 32) (fun s =>
      let p := slotPage slot
      let s := if cause = 1 then count p Reg.KILN_ROUNDS_EXPIRED 1 s
        else if 2 ≤ cause ∧ cause ≤ 4 then count p Reg.KILN_ROUNDS_FAILED 1 s else s
      let s := if r.st = 4 then s
        else raiseErr { page := p, ctx := 0, sev := 2, cls := 0x090, detail := slot % 32 + 192 } (raiseSrc p 0 s)
      let s := modRound slot (fun r => { r with st := 5, cause := cause }) (stopCommits slot s)
      sendStatuses slot s) s

/-- R335: a debug opening destroys every round. -/
def destroyAllRounds (s : State) : State := (List.range 64).foldl (fun s i => destroyRound i 4 s) s

/-- An ending context takes no part in its rounds any more; what it committed stays (R335). -/
def kilnLeave (k : Nat) (s : State) : State :=
  { s with kiln := { s.kiln with rounds := s.kiln.rounds.map (fun e => (e.1, { e.2 with
      joined := e.2.joined.filter (fun i => (polParty e.2.policy i).ctx != k) })) } }

/-- The release condition at the lead (R332). -/
def releaseMet (r : KilnRound) : Bool :=
  let all := (polPartyList r.policy).all (fun e => !e.2.contributes || tst r.counted e.1)
  let q := decide (polQuorum r.policy ≤ countedNow r)
  if polRule r.policy = 0 then q else all || (r.due && q)

/-- The lead enters `RELEASING` where the condition is met (R332, R338). -/
def checkRelease (slot : Nat) (s : State) : State :=
  let r := kround s slot
  if isLead s r && r.st == 1 && releaseMet r then
    sendStatuses slot (kilnChange (slot / 32) (fun s => modRound slot (fun r => { r with st := 3 }) (stopCommits slot s)) s)
  else s

/-- A member sends its partial sum when R333 says so, over its session with the lead. -/
def trySendPartial (slot : Nat) (s : State) : State :=
  let r := kround s slot
  let lead := polLead r.policy
  match localHub s r.policy with
  | none => s
  | some me =>
    let done := (hubParties r.policy me).all (fun e => !e.2.contributes || tst r.counted e.1)
    if me ≠ lead ∧ r.st = 1 ∧ r.opened.contains lead ∧ (done = true ∨ r.margin) ∧ (kilnSession s r lead).isSome then
      sendStatuses slot (sendSum slot lead 0x82 0 (modRound slot (fun r => { r with st := 2 }) s))
    else s

/-- `OPEN` once every party's signature is verified (R331): the other hubs are told. -/
def checkOpen (slot : Nat) (s : State) : State :=
  let r := kround s slot
  if r.st = 0 ∧ (List.range (polParties r.policy)).all (fun i => !(Tab.get [] r.sigs i).isEmpty) then
    let s := sendStatuses slot (modRound slot (fun r => { r with st := 1 }) s)
    let s := (otherHubs s r).foldl (fun s h => kilnSend slot h 0x81 0 0 [] s) s
    trySendPartial slot s
  else s

/-! Joining (R329, R330) -/

/-- The digest of a policy (R326). -/
def policyDigest (b : List Byte) : Nat := Config.sha512 b

/-- Engine on which a new round of S frames can stand: the one with more free pool frames, engine 0 on a tie. -/
def roundEngine (s : State) (n : Nat) : Option Nat :=
  let able (e : Nat) : Bool := decide ((engineSlots s e).length < 32) && decide (2 * n ≤ (kilnPool s e).length)
  if able 0 ∧ (!able 1 ∨ (kilnPool s 1).length ≤ (kilnPool s 0).length) then some 0 else if able 1 then some 1 else none

/-- The timebase is locked or in holdover (R429). -/
def timeSure (s : State) : Bool := decide (2 ≤ fld s 0x005 Reg.TB_STATE_STATE)

/-- What a join comes to: the reason of its refusal, or the party's index. -/
def joinCheck (k : Nat) (body : List Byte) (s : State) : Except Nat Nat :=
  let n := leAt body 2 1
  let pol := body.take (336 + 144 * n)
  if body.length ≠ 336 + 144 * n + 132 ∨ !policyOk pol then .error 1
  else
    match localHub s pol with
    | none => .error 2
    | some me =>
      match (polPartyList pol).find? (fun e => e.2.hub == me && e.2.ctx == k) with
      | none => .error 2
      | some (i, p) =>
        if !Config.ecdsaVerify p.key (leBytes 64 (policyDigest pol)) (slice body (336 + 144 * n) 132) then .error 3
        else if polDeadline pol < nowNs s + 10 ^ 9 ∨ !timeSure s then .error 4
        else
          match roundOfDigest s (policyDigest pol) with
          | none => if (roundEngine s (polFrames pol)).isNone then .error 5 else .ok i
          | some slot => if (kround s slot).joined.contains i then .error 6 else if (kround s slot).st = 5 then .error 7 else .ok i

/-- Creates a round on an engine (R330). -/
def createRound (e : Nat) (pol : List Byte) (s : State) : Nat × State :=
  let slot := ((List.range 32).find? (fun i => (kround s (32 * e + i)).handle == 0)).getD 0 + 32 * e
  let n := polFrames pol
  let a := drawFrames e n s
  let b := drawFrames e n a.2
  let s := b.2
  (slot, setRound slot { handle := slot + 64 * ((s.kiln.created + 1) % 2 ^ 26), policy := pol, digest := policyDigest pol, buf0 := a.1, buf1 := b.1 }
    { s with kiln := { s.kiln with created := s.kiln.created + 1 } })

/-- An accepted join. -/
def joinRound (i : Nat) (body : List Byte) (s : State) : State :=
  let pol := body.take (body.length - 132)
  let at_ := match roundOfDigest s (policyDigest pol) with
    | some slot => (slot, s)
    | none => createRound ((roundEngine s (polFrames pol)).getD 0) pol s
  let slot := at_.1
  let s := modRound slot (fun r => { r with
    joined := r.joined ++ [i], sigs := Tab.put [] r.sigs i (slice body (body.length - 132) 132) }) at_.2
  let s := sendStatus slot i (showKiln (slot / 32) s)
  let r := kround s slot
  let s := (otherHubs s r).foldl (fun s h => kilnSend slot h 0x80 0 0 [sigUnit r i] s) s
  checkOpen slot s

/-- R329: `KILN_JOIN` through the sealed window. -/
def execKilnJoin (ctx : Nat) (env : Envelope) (body : List Byte) (s : State) : Res :=
  .next (winAccept ctx env (fun s =>
    match joinCheck ctx body s with
    | .error n => winError ctx 3 n 0x30 env.seq s
    | .ok i => joinRound i body s) s)

/-- R342: `KILN_QUERY`. -/
def execKilnQuery (ctx : Nat) (env : Envelope) (head : List Byte) (s : State) : Res :=
  .next (winAccept ctx env (fun s =>
    match roundOfHead s head with
    | none => winError ctx 3 2 0x32 env.seq s
    | some slot =>
      match (kround s slot).joined.find? (fun i => (polParty (kround s slot).policy i).ctx == ctx) with
      | none => winError ctx 3 2 0x32 env.seq s
      | some i => sendStatus slot i s) s)

/-! Transfers from peers -/

/-- A message discarded under R332 or R334. -/
def kilnDiscard (slot : Option Nat) (s : State) : State := count (slotPage (slot.getD 0)) Reg.KILN_STATS_DISCARDED 1 s

/-- A transfer from a peer: it reaches the round of its digest if it comes on a kiln session of one of the round's hubs;
`f` takes it, given the slot and the sender, or answers none and it is discarded. A transfer taken is answered `OK`. -/
def kilnTake (h : Header) (f : Nat → Nat → State → Option State) (s : State) : State :=
  let i := h.opArg % 1024
  match roundOfHead s h.inlineData with
  | none => kilnDiscard none s
  | some slot =>
    let x := session s i
    let r := kround s slot
    if !sessionLive s i ∨ x.ctx ≠ 0xFE then kilnDiscard (some slot) s
    else match (otherHubs s r).find? (fun n => polHubKey r.policy n == x.verified) with
      | none => kilnDiscard (some slot) s
      | some hub =>
        match f slot hub s with
        | none => kilnDiscard (some slot) s
        | some t => plrSend i .rsp (reply h 0 0) [] t

/-- R331: signatures from a peer. -/
def execKlnSig (h : Header) (units : List Unit256) (s : State) : Res :=
  .next (kilnTake h (fun slot _ s =>
    let r := kround s slot
    if r.st ≠ 0 then none
    else
      let one (u : Unit256) : Nat × List Byte := (leAt u.bytes 0 1, slice u.bytes 4 132)
      let l := units.map one
      if l.all (fun e => decide (e.1 < polParties r.policy) &&
          Config.ecdsaVerify (polParty r.policy e.1).key (leBytes 64 r.digest) e.2) then
        some (checkOpen slot (setRound slot { r with sigs := l.foldl (fun t e => Tab.put [] t e.1 e.2) r.sigs } s))
      else some (destroyRound slot 2 s)) s)

/-- R332: a peer has entered `OPEN`. -/
def execKlnOpen (h : Header) (s : State) : Res :=
  .next (kilnTake h (fun slot hub s =>
    if (kround s slot).st = 5 then none
    else some (trySendPartial slot (modRound slot (fun r => { r with opened := addNew r.opened hub }) s))) s)

/-- The bytes of a buffer at an offset are written, those past its end left out. A sector covered whole loses its mark; a
partial write to a bad sector is discarded and handled as an uncorrectable read (R210). -/
def writeBuf (buf : List Nat) (o : Nat) (d : List Byte) (s : State) : State :=
  (List.zip (List.range d.length) d).foldl (fun s e =>
    let q := o + e.1
    let pa := bufAddr buf q
    if buf.length * 2 ^ 21 ≤ q then s
    else if !isBad s pa then writeByte pa e.2 s
    else if o ≤ q / 32 * 32 ∧ q / 32 * 32 + 32 ≤ o + d.length then writeByte pa e.2 (clearBad pa s)
    else if q = o ∨ q % 32 = 0 then uncorrectable 0xFE pa none s
    else s) s

def unitData (units : List Unit256) : List Byte := (units.map (fun u => slice u.bytes 0 256)).flatten

/-- R334: units of a member's partial sum at the lead. Without free frames for its staging buffer it is not taken. -/
def execKlnPart (h : Header) (units : List Unit256) (s : State) : Res :=
  .next (
    match roundOfHead s h.inlineData with
    | none => kilnDiscard none s
    | some slot0 =>
      let n := polFrames (kround s slot0).policy
      let have_ := (kround s slot0).staging.any (fun e =>
        polHubKey (kround s slot0).policy e.1 == (session s (h.opArg % 1024)).verified)
      if !have_ && decide ((kilnPool s (slot0 / 32)).length < n) && (kround s slot0).st == 1 then s
      else kilnTake h (fun slot hub s =>
        let r := kround s slot
        if r.st ≠ 1 ∨ !isLead s r then none
        else
          let d := if (Tab.get [] r.staging hub).isEmpty then drawFrames (slot / 32) n s else (Tab.get [] r.staging hub, s)
          let s := modRound slot (fun r => { r with staging := Tab.put [] r.staging hub d.1 }) d.2
          some (showKiln (slot / 32) (writeBuf d.1 h.addr (unitData units) s))) s)

/-- R333, R336: the end of a partial sum. Its map may name only parties of the sender; the commit joins the engine's
queue. -/
def execKlnPartEnd (h : Header) (s : State) : Res :=
  .next (kilnTake h (fun slot hub s =>
    let r := kround s slot
    if r.st ≠ 1 ∨ !isLead s r ∨ (Tab.get [] r.staging hub).isEmpty then none
    else if !(setBits h.opData 64).all (fun i => decide (i < polParties r.policy) && (polParty r.policy i).hub == hub) then
      some (destroyRound slot 2 s)
    else
      some (kilnChange (slot / 32) (fun s =>
        setKilnQueue (slot / 32) (kilnQueue s (slot / 32) ++ [{ slot := slot, pass := none, map := h.opData, hub := hub }]) s) s)) s)

/-- What a hub does on entering `RELEASED` (R341). -/
def enterReleased (slot : Nat) (s : State) : State :=
  let s := count (slotPage slot) Reg.KILN_ROUNDS_RELEASED 1 (modRound slot (fun r => { r with st := 4, second := !r.second, adds := r.adds + 1 }) s)
  let r := kround s slot
  let s := r.joined.foldl (fun s i =>
    let p := polParty r.policy i
    if p.targeted ∧ tst p.fence 7 then signalFence p.ctx (p.fence % 64) true s else s) s
  sendStatuses slot s

/-- R334: units of the released sum at a member, into the buffer that becomes the release. -/
def execKlnRel (h : Header) (units : List Unit256) (s : State) : Res :=
  .next (kilnTake h (fun slot hub s =>
    let r := kround s slot
    if (r.st ≠ 1 ∧ r.st ≠ 2) ∨ hub ≠ polLead r.policy then none
    else some (writeBuf r.idle h.addr (unitData units) s)) s)

/-- R341: the end of the release at a member. The lead's count, which no transfer carries, is a free map of the
policy's parties that holds the parties counted here. -/
def execKlnRelEnd (h : Header) (s : State) : Res :=
  .next (kilnTake h (fun slot hub s =>
    let r := kround s slot
    if (r.st ≠ 1 ∧ r.st ≠ 2) ∨ hub ≠ polLead r.policy then none
    else
      let map := r.counted ||| Config.freeNat (drawn s) % 2 ^ polParties r.policy
      some (enterReleased slot (stopCommits slot (setRound slot { r with counted := map } (drew s))))) s)

/-- R335: an abandon or close notice from the lead. -/
def execKlnNotice (h : Header) (s : State) : Res :=
  .next (kilnTake h (fun slot hub s =>
    if 2 ≤ h.opData % 4 ∨ hub ≠ polLead (kround s slot).policy ∨ (kround s slot).st = 5 then none
    else some (destroyRound slot 3 s)) s)

/-! Commits (R336, R337) -/

/-- A put of class KILN_PUT joins the queue of the round's engine, in arrival order. -/
def kilnPut (slot id : Nat) (s : State) : State :=
  kilnChange (slot / 32) (fun s =>
    setKilnQueue (slot / 32) (kilnQueue s (slot / 32) ++ [{ slot := slot, pass := some id }]) s) s

/-- The sum of squares of R337: exact, then a free relative error of at most E * 2^-48. -/
def sumSquares (seed e : Nat) (xs : List Num.Val) : Num.Val :=
  let x := Num.sum (xs.map (fun v => Num.mul v v))
  let d := clampI (-(e * 2 ^ 32 : Nat)) (e * 2 ^ 32 : Nat) (Config.ulpOffset seed e 0)
  Num.trim (Num.mul x (.fin false ((2 ^ 80 : Int) + d).toNat (-80)))

/-- The clipping factor (R337), from the elements and C. -/
def clipFactor (seed : Nat) (clip : Num.Val) (xs : List Num.Val) : Num.Val × Bool :=
  if xs.any (fun v => match v with | .fin .. => false | _ => true) then (.zero, true)
  else
    let l := Num.round32 (Num.sqrt (sumSquares seed xs.length xs))
    let t := Num.mul l (.fin false (2 ^ 16 + 1) (-16))
    if !Num.lt clip t then (.fin false 1 0, false)
    else (Num.round32 (Num.div clip (Num.round32 t)), false)

/-- The sum plus r times each element, each product and sum rounded once (R336). -/
def addScaled (s : State) (r : KilnRound) (f : Num.Val) (zero : Bool) (xs : List Num.Val) : List Byte :=
  ((List.zip (List.range xs.length) xs).map (fun e =>
    let c := sumCode s r e.1
    leBytes 4 (if zero then c else
      Num.toF32 (Num.add (Num.ofF32 c) (Num.round32 (Num.mul f e.2)))))).flatten

/-- A bad or unreachable sector of the round's active buffer, which a commit reads. -/
def badInSum (s : State) (r : KilnRound) : Option Nat :=
  if r.adds = 0 then none
  else firstBad s (r.active.map (fun f => (f * 2 ^ 21, 2 ^ 21)))

/-- Steps 3 and 4: the new sum replaces the old, and `counted` takes the new parties. -/
def commitSum (slot map : Nat) (data : List Byte) (s : State) : State :=
  let r := kround s slot
  let s := writeBuf r.idle 0 data s
  count (slotPage slot) Reg.KILN_STATS_COMMITS 1
    (setRound slot { r with second := !r.second, adds := r.adds + 1, counted := r.counted ||| map } s)

/-- What follows a commit: the lead's release condition, a member's partial sum. -/
def afterCommit (slot : Nat) (s : State) : State := trySendPartial slot (checkRelease slot s)

/-- The put of a pass in hand. -/
def commitPut (slot : Nat) (p : Pass) (s : State) : State :=
  let e := slot / 32
  let r := kround s slot
  match readSlotBy (82 + e) s p 0 with
  | .error x =>
    accessFailed p.ctx x.err
      { holder := 82 + e, sub := 0, va := x.va, len := x.len, access := x.access, ring := p.ring, passValid := true,
        index := p.index, userTag := p.word 1 } (some p) s
  | .ok t =>
    let xs := ((List.range t.td.rows).map (fun row => (List.range (t.td.dim 0)).map (fun c => Num.round32 (t.val row c)))).flatten
    match badInSum s r with
    | some pa => destroyRound slot 2 (uncorrectable 0xFE pa none s)
    | none =>
      let f := clipFactor (drawn s) (Num.ofF32 (polClip r.policy)) xs
      let s := drew s
      let s := p.inputs.foldl (fun s t => spansRead (82 + e) p s t.spans) s
      let party := ((hubParties r.policy ((localHub s r.policy).getD 0)).find? (fun q => q.2.ctx == p.ctx)).map (fun q => q.1)
      let i := party.getD 0
      let d := drawFrames e (polFrames r.policy) s
      let s := commitSum slot (2 ^ i) (addScaled s r f.1 f.2 xs) d.2
      let s := returnFrames e d.1 s
      let s := modRound slot (fun r => { r with
        factors := Tab.put 0 r.factors i (Num.toF32 f.1), zeroed := if f.2 then addNew r.zeroed i else r.zeroed }) s
      let s := modPass p.id (fun p => { p with status := 0, computed := true, placed := p.total }) s
      afterCommit slot (sendStatus slot i s)

/-- R336: the engine makes its next commit. A put whose pass is gone is dropped; one that is stalled on a fault, or finds
no staging frames, stays. -/
def execKilnCommit (engine : Nat) (s : State) : Res :=
  .next (
    if 2 ≤ engine then s
    else match kilnQueue s engine with
    | [] => s
    | c :: rest =>
      let r := kround s c.slot
      match c.pass with
      | none =>
        kilnChange engine (fun s =>
          let s := setKilnQueue engine rest s
          let fr := Tab.get [] r.staging c.hub
          let back (s : State) : State :=
            returnFrames engine fr (modRound c.slot (fun r => { r with staging := Tab.del r.staging c.hub }) s)
          match badInSum s r with
          | some pa => destroyRound c.slot 2 (back (uncorrectable 0xFE pa none s))
          | none =>
            let xs := (List.range (polElements r.policy)).map (fun i => Num.ofF32 (ofBytes (bytesAt s (bufAddr fr (4 * i)) 4)))
            afterCommit c.slot (back (commitSum c.slot c.map (addScaled s r (.fin false 1 0) false xs) s))) s
      | some id =>
        match pass s id with
        | none => kilnChange engine (setKilnQueue engine rest) s
        | some p =>
          if p.computed then kilnChange engine (setKilnQueue engine rest) s
          else if putWaits s engine ∨ (stalledPasses s p.ctx).contains id then s
          else
            kilnChange engine (fun s =>
              let t := commitPut c.slot p s
              let overAll := match pass t id with | some q => q.computed | none => true
              if overAll then setKilnQueue engine ((kilnQueue t engine).filter (fun x => x.pass != some id)) t else t) s)

/-! Release and destruction -/

/-- R339: the noise step ends. Each element takes a free FP32 noise term within 8.58 sigma, rounded. -/
def execKilnNoiseDone (slot : Nat) (s : State) : Res :=
  .next (
    let r := kround s slot
    if r.handle = 0 ∨ r.st ≠ 3 then s
    else match badInSum s r with
    | some pa => destroyRound slot 2 (uncorrectable 0xFE pa none s)
    | none =>
      let sg := Num.ofF32 (polSigma r.policy)
      let bound := Num.round32 (Num.trim (Num.mul sg (Num.div (Num.ofInt 858) (Num.ofInt 100))))
      let data := ((List.range (polElements r.policy)).map (fun i =>
        let c := sumCode s r i
        leBytes 4 (if Num.isZero sg then c
          else Num.toF32 (Num.add (Num.ofF32 c) (Num.freeWithin (drawn s) i .zero bound .zero))))).flatten
      let s := enterReleased slot (writeBuf r.idle 0 data (drew s))
      (otherHubs s r).foldl (fun s h =>
        if (hubParties r.policy h).any (fun e => e.2.targeted) then
          if r.opened.contains h then sendSum slot h 0x84 1 s else s
        else kilnSend slot h 0x86 0 1 [] s) s)

/-- R332: the deadline of a round passes. -/
def execKilnDeadline (slot : Nat) (s : State) : Res :=
  .next (
    let r := kround s slot
    if r.handle = 0 ∨ r.due then s
    else
      let s := setRound slot { r with due := true } s
      match r.st with
      | 0 => destroyRound slot 1 s
      | 1 =>
        if isLead s r then
          let s := checkRelease slot s
          if (kround s slot).st = 1 then
            destroyRound slot 1 ((otherHubs s r).foldl (fun s h => kilnSend slot h 0x86 0 0 [] s) s)
          else s
        else destroyRound slot 1 s
      | _ => s)

/-- R333: `MARGIN_MS` before the deadline. -/
def execKilnMargin (slot : Nat) (s : State) : Res :=
  .next (if (kround s slot).handle = 0 then s else trySendPartial slot (modRound slot (fun r => { r with margin := true }) s))

/-- R332: `WAIT_MS` after the deadline a member still in `SENT` gives up. -/
def execKilnWaitExpiry (slot : Nat) (s : State) : Res :=
  .next (if (kround s slot).st = 2 ∧ (kround s slot).due then destroyRound slot 1 s else s)

/-- R335: `RETAIN_S` after release. -/
def execKilnRetainExpiry (slot : Nat) (s : State) : Res :=
  .next (if (kround s slot).st = 4 then destroyRound slot 0 s else s)

/-- R334: every 100 ms, to hubs that have not sent `KLN_OPEN`. -/
def execKilnSigResend (slot : Nat) (s : State) : Res :=
  .next (
    let r := kround s slot
    if r.handle = 0 ∨ 2 ≤ r.st then s
    else
      trySendPartial slot ((otherHubs s r).foldl (fun s h => if r.opened.contains h then s else sendSigs slot h s) s))

/-- R332: the ash of a destroyed round's frames is complete. A coppice of the round ends here. -/
def execKilnRoundAshDone (slot : Nat) (s : State) : Res :=
  .next (
    let r := kround s slot
    if r.handle = 0 ∨ r.st ≠ 5 then s
    else kilnChange (slot / 32) (fun s => returnFrames (slot / 32) r.frames (setRound slot noRound s)) s)

end Sys2Proof.Machine
end

