-- ==== Sys2Proof/Machine/Contexts.lean ====
section
/-! DEFINITION. Contexts: states, modes and commands (R295 to R301), parking (R311), sessions and reports of the sealed
window (R303 to R308). -/

namespace Sys2Proof.Machine

/-- A 64-bit register of a page as one word, from its fields. -/
def regWord (s : State) (p : Nat) (k : PageKind) (off : Nat) : Nat :=
  ((pageTable k).filter (fun f => f.off == off)).foldl (fun w f => w + fld s p f * 2 ^ f.lo) 0

/-! Stopping and returning resources -/

/-- The pieces on tile n are abandoned and re-issued from their start, without counting (R311). -/
def abandonTile (n : Nat) (s : State) : State := clearArray n 1 (failExecutor n false s)

/-- Bytes of a park slot, and of an image (R311). -/
def parkSlotBytes : Nat := 0x210000
def parkImageBytes : Nat := 2136064

/-- The first free slot of a context's park area. -/
def freeParkSlot (s : State) (k : Nat) : Option Nat :=
  (List.range (min 64 (fld s (pageWin k 0) Reg.PARK_AREA_SLOTS))).find? (fun i => !(ctx s k).parks.any (fun x => x.slot == i))

/-- The park image of a frozen tile is written to the context's park area (R311): bytes that mean nothing to the tenant.
Without a free slot, or where the write does not translate, the pieces are abandoned. -/
def parkTile (k n : Nat) (s : State) : State :=
  let t := tile s n
  if t.lead.isNone ∧ t.trail.isNone then abandonTile n s
  else match freeParkSlot s k with
  | none => abandonTile n s
  | some i =>
    match vwrite n k (fld s (pageWin k 0) Reg.PARK_AREA_ADDR * 65536 + parkSlotBytes * i) (freeBytes s parkImageBytes) s with
    | .error _ => abandonTile n s
    | .ok s =>
      let s := accessed n k (fld s (pageWin k 0) Reg.PARK_AREA_ADDR * 65536 + parkSlotBytes * i) parkImageBytes true s
      let s := modCtx k (fun c => { c with parks := c.parks ++ [{ slot := i, tile := t, valid := true }] }) (drew s)
      let s := { s with passes := s.passes.map (fun p => { p with pieces := p.pieces.map (fun q =>
        if q.exec = n ∧ q.state ≠ .done then { q with exec := parkExec k i, state := .parked } else q) }) }
      clearArray n 1 s

/-- The ash of a tile (R310): its SRAM reads zero, its translations are dropped. -/
def ashTile (k n : Nat) (s : State) : State :=
  let s := modTile n (fun t => { t with bank0 := {}, bank1 := {}, acc := [], hist := [], sealedSetting := false }) (clearArray n 1 s)
  dropHolder n k s

/-- A release of context k is noted: telemetry and event (R308, R323). -/
def noteRelease (k kind index cnt gen : Nat) (s : State) : State :=
  bindEvent k 2 kind index cnt gen [] (bump (pageWin k 3) Reg.CT_COPPICE_COUNT 1 s)

/-- A frame is being ashed: nobody owns it (R204, R312). -/
def beginFrameAsh (f : Nat) (s : State) : State := setFrame f { frame s f with ctx := 0xFF, state := .ashing } s

/-- Work of a context stops as for `FAULTED` (R298): passes and pieces are discarded, faults and migrations too. -/
def stopCtx (k : Nat) (s : State) : State :=
  let s := discardMigrations k (discardFaults k { s with passes := s.passes.filter (fun p => p.ctx != k) })
  let s := (boundTiles s k).foldl (fun s n => clearArray n 1 s) s
  releaseHeld (stopJournal k s)

/-- Frames of a context. -/
def framesOf (s : State) (k : Nat) : List Nat :=
  (s.mem.frames.filter (fun e => e.2.ctx == k && e.2.state == .owned)).map (fun e => e.1)

/-- Sessions bound to a context. -/
def sessionsOf (s : State) (k : Nat) : List Nat :=
  (s.plr.sessions.filter (fun e => e.2.st != 0 && e.2.ctx == k)).map (fun e => e.1)

/-- Agents of a site (R249). -/
def siteAgents (n : Nat) : Nat := 15 * 2 ^ (4 * n)

/-- Every per-context value takes its creation value (R298, R299); the way mask stays where `keepMask`. -/
def resetCtx (k : Nat) (keepMask : Bool) (s : State) : State :=
  let mask := fld s (pageCtx k) Reg.CACHE_POLICY_WAY_MASK
  let wins := [pageWin k 0, pageWin k 1, pageWin k 2, pageWin k 3]
  let mine (key : Nat) : Bool :=
    let p := key / 64 / 0x10000
    (p == pageCtx k && decide (0x100 ≤ key / 64 % 0x10000)) || wins.contains p
  let s := releaseSlots k (kilnLeave k (dropAll k s))
  let x := s.xlate
  let x := { x with
    faults := x.faults.filter (fun f => f.ctx != k), unrecorded := x.unrecorded.filter (fun u => u.1 != k)
    seqs := Tab.del x.seqs k, invals := x.invals.filter (fun i => i.ctx != k)
    heldRanges := x.heldRanges.filter (fun r => r.1 != k), migrations := x.migrations.filter (fun m => m.ctx != k)
    heldReqs := x.heldReqs.filter (fun r => r.2.2.ctx != k), heldGuest := x.heldGuest.filter (fun r => r.2.1.ctx != k), resuming := x.resuming.filter (fun r => r.1 != k)
    placeHolds := x.placeHolds.filter (fun h => h.1 != k) }
  let g := s.regul
  let other {α : Type} (t : Tab α) : Tab α := t.filter (fun e => e.1 / 8 % 256 != k)
  let g := { g with
    rates := g.rates.filter (fun e => e.1 / 8 != k), asked := other g.asked, shares := other g.shares, buckets := other g.buckets
    latAvg := other g.latAvg, levels := other g.levels }
  let s := { s with
    regs := s.regs.filter (fun e => !mine e.1), tags := s.tags.filter (fun e => e.1 / 4096 != k)
    passes := s.passes.filter (fun p => p.ctx != k), xlate := x, regul := g, ember := Tab.del s.ember k }
  let s := setCtx k { flrPending := (ctx s k).flrPending } s
  let s := if keepMask then setFld (pageCtx k) Reg.CACHE_POLICY_WAY_MASK mask s else s
  refreshPools s

/-! States (R297 to R300) -/

/-- A command refused (R297, R300). -/
def ctxRefuse (k reason : Nat) (s : State) : State := opRefused (pageCtx k) (setFld (pageCtx k) Reg.CTX_STATUS_REFUSE reason s)

/-- `CREATE`: fresh keys and creation values. -/
def enterBuilding (k : Nat) (s : State) : State :=
  let s := resetCtx k true s
  let s := modCtx k (fun c => { c with keySlot := true, flrPending := false }) (drew s)
  setCtxState k 1 s

/-- A context is pre-empted, paused or parked: its outstanding faults are discarded; stalled units of guests and of peers
wait to be told to replay on resume, and those of passes are made again with their pass (R265). -/
def cancelStalled (k : Nat) (s : State) : State :=
  let us := (s.xlate.faults.filter (fun f => f.ctx == k)).flatMap (fun f => f.units.map (fun u => (k, f.id, u))) ++
    (s.xlate.unrecorded.filter (fun u => u.1 == k)).map (fun u => (k, 0, u.2.2.2.2.2))
  let kept := us.filter (fun r => decide (64 ≤ r.2.2.holder) && decide (r.2.2.holder < 72) ||
    (r.2.2.holder == 81 && !r.2.2.passValid))
  let s := { s with xlate := { s.xlate with resuming := s.xlate.resuming ++ kept } }
  discardFaults k s

/-- Pre-empts a context's tiles and pauses its guests (R298, R364). -/
def pauseWork (k : Nat) (s : State) : State :=
  let s := cancelStalled k s
  let s := (boundTiles s k).foldl (fun s n => preempt n s) s
  let s := (boundSites s k).foldl (fun s n => pauseGuest n s) s
  releaseHeld (discardMigrations k s)

/-- A bound tile goes to `FREE` with its image parked (R298). -/
def parkAway (k n : Nat) (s : State) : State :=
  let p := pageTile n
  let s := freezeArray n (preempt n s)
  let s := unbindPage p 0 (ashTile k n (parkTile k n s))
  noteRelease k 1 n 1 (generation s p) s

def ctxPause (k : Nat) (s : State) : State := setCtxState k 3 (pauseWork k s)

def ctxPark (k : Nat) (s : State) : State :=
  let s := pauseWork k s
  setCtxState k 4 ((boundTiles s k).foldl (fun s n => parkAway k n s) s)

/-- `RUNNING` again: frozen tiles go on in place (R100), guests resume. -/
def ctxResume (k : Nat) (s : State) : State :=
  let s := setCtxState k 2 s
  let s := (boundTiles s k).foldl (fun s n =>
    if arrayState s n = 5 then continueArray n s
    else if (tile s n).draining then continueArray n (freezeArray n s) else s) s
  let s := (boundSites s k).foldl (fun s n => resumeGuest n s) s
  ((s.xlate.resuming.filter (fun r => r.1 == k)).map (fun r => (r.2.2.holder, r.2.1))).eraseDups.foldl
    (fun s e => tellHolder e.1 k 0x65 e.2 0 s) s

/-- The start event, and `RUNNING`. -/
def ctxRun (k : Nat) (s : State) : State := setCtxState k 2 (bindEvent k 4 0 0 0 0 [] s)

/-- The first condition of R300 that fails. -/
def sealReason (s : State) (k : Nat) : Option Nat :=
  let p := pageCtx k
  let chs := regionChannels s (((framesOf s k).filterMap (fun f => (regionOf s (f * 2 ^ 21)).map (fun r => r.index))).eraseDups)
  let low (a b : Field) : Bool := decide (fld s p a < fld s p b)
  if ctxState s k ≠ 1 ∨ isSealed s k then some 1
  else if fld s p Reg.CACHE_POLICY_WAY_MASK = 0 then some 3
  else if (boundSites s k).any (fun n => !flag s (pageSite n) Reg.SITE_STATE_ATTESTED) then some 4
  else if slotsFull s k (slotsFor (poolGuarantee s k 0) chs.length) chs then some 5
  else if low Reg.SEAL_PACE_HBM_US Reg.SEAL_FLOOR_HBM_US || low Reg.SEAL_PACE_PEAT_US Reg.SEAL_FLOOR_PEAT_US
      || low Reg.SEAL_PACE_HOST_US Reg.SEAL_FLOOR_HOST_US then some 6
  else if debugOpen s then some 7
  else none

/-- Seals a context (R300): slots, pacing, tiles at the sealed setting, the seal event. -/
def ctxSeal (k : Nat) (s : State) : State :=
  let p := pageCtx k
  let idx := ((framesOf s k).filterMap (fun f => (regionOf s (f * 2 ^ 21)).map (fun r => r.index))).eraseDups
  let chs := regionChannels s idx
  let n := slotsFor (poolGuarantee s k 0) chs.length
  let h := fld s p Reg.SEAL_PACE_HBM_US
  let t := fld s p Reg.SEAL_PACE_PEAT_US
  let o := fld s p Reg.SEAL_PACE_HOST_US
  let s := modCtx k (fun c => { c with regions := idx, paceHbm := h, pacePeat := t, paceHost := o }) s
  let s := setFlds p [(Reg.CTX_STATUS_SEALED, 1), (Reg.BINDING_SEALED, 1)] s
  let s := allotSlots k n chs s
  let s := (boundTiles s k).foldl (fun s n => tileSetting n true (setFld (pageTile n) Reg.BINDING_SEALED 1 s)) s
  let s := (boundSites s k).foldl (fun s n => setFld (pageSite n) Reg.BINDING_SEALED 1 s) s
  refreshPools (bindEvent k 3 0 0 0 0 [BitVec.ofNat 8 h, BitVec.ofNat 8 t, BitVec.ofNat 8 o, BitVec.ofNat 8 n] s)

/-- A bound site begins its ending: its lines are recalled and it is cleared where its link carries messages. -/
def endSite (n : Nat) (s : State) : State :=
  let p := pageSite n
  let s := failExecutor (64 + n) false (recallAgents (siteAgents n) s)
  let s := setFlds p [(Reg.BINDING_CTX, 0xFF), (Reg.BINDING_STATE, 3), (Reg.BINDING_SEALED, 0)] s
  if siteLink s n = 5 ∨ siteLink s n = 7 then sendClear n s else modSite n (fun x => { x with cleared := true }) s

/-- `END` (R299): work stops, the agents' lines are recalled, every resource goes to ash. -/
def ctxEnd (k : Nat) (s : State) : State :=
  if k = 0 ∨ 64 ≤ k ∨ ctxState s k = 0 ∨ ctxState s k = 6 then s
  else
    let s := setCtxState k 6 (stopCtx k s)
    let tiles := boundTiles s k
    let sites := boundSites s k
    let frames := framesOf s k
    let sess := sessionsOf s k
    let s := tiles.foldl (fun s n =>
      noteRelease k 1 n 1 (generation s (pageTile n)) (unbindPage (pageTile n) 3 (ashTile k n s))) s
    let s := sites.foldl (fun s n => noteRelease k 4 n 1 (generation s (pageSite n)) (endSite n s)) s
    let s := frames.foldl (fun s f => beginFrameAsh f s) (dropAll k s)
    let s := sess.foldl (fun s i => sessionRelease i s) s
    modCtx k (fun c => { c with
      parks := [], ending := tiles.map (fun n => (1, n)) ++ frames.map (fun f => (2, f)) ++ sites.map (fun n => (4, n)) ++
        sess.map (fun i => (5, i)) }) s

/-- The ending ash of a resource can be finished. -/
def ashedReady (s : State) (e : Nat × Nat) : Bool :=
  match e.1 with
  | 2 => (cacheLines s (fun l => frameOf l.pa == e.2 && isTransient s l.pa)).isEmpty
  | 4 => (site s e.2).cleared || siteLink s e.2 == 9 || bindState s (pageSite e.2) != 3
  | 5 => (session s e.2).st == 0
  | _ => true

/-- A resource is free again. -/
def endFree (e : Nat × Nat) (s : State) : State :=
  match e.1 with
  | 1 => if bindState s (pageTile e.2) = 3 then unbindPage (pageTile e.2) 0 s else s
  | 2 => freeFrame e.2 (ashFrameNow e.2 s)
  | 4 => if bindState s (pageSite e.2) = 3 then unbindPage (pageSite e.2) 0 s else s
  | _ => s

/-- R299: the ending ash is done. The key slot is destroyed, the registers reset, PF0 told, a pending reset of the
function completes. It waits for a coppice of the context, for guests' `CLEAR_DONE` and for sessions' teardown. -/
def endingAshDone (k : Nat) (s : State) : State :=
  let c := ctx s k
  if k = 0 ∨ 64 ≤ k ∨ ctxState s k ≠ 6 ∨ c.coppice.isSome ∨ !c.ending.all (ashedReady s) then s
  else
    let s := c.ending.foldl (fun s e => endFree e s) s
    let mask := fld s (pageCtx k) Reg.CACHE_POLICY_WAY_MASK
    let s := withdrawWays none mask none s
    let s := setFld (pageCtx k) Reg.BINDING_SEALED 0 (resetCtx k false s)
    let s := setCtxState k 0 (setCtx k {} s)
    let s := ctxMsg 0 2 s
    if c.flrPending then emit (.answer 0x00E k []) (count 0x00E Reg.HOST_RESET_VF_FLRS 1 s) else s

/-! Commands -/

/-- `CTX_CMD.OP` (R297, R321). -/
def ctxCmd (k op : Nat) (s : State) : State :=
  let st := ctxState s k
  if 64 ≤ k ∨ op = 0 then s
  else if k = 0 then ctxRefuse 0 2 s
  else if 8 ≤ op then ctxRefuse k 1 s
  else match op with
    | 1 => if st = 0 ∧ vfEnable s ∧ k ≤ numVfs s then enterBuilding k s else ctxRefuse k 1 s
    | 2 =>
      (match sealReason s k with
       | some r => ctxRefuse k r s
       | none => ctxSeal k s)
    | 3 =>
      if st = 0 ∨ 5 ≤ st then ctxRefuse k 1 s
      else if isSealed s k then ctxRefuse k 8 s
      else if st = 1 then ctxRun k s else s
    | 4 => if st = 2 then ctxPause k s else if st = 3 ∨ st = 4 then s else ctxRefuse k 1 s
    | 5 => if st = 2 ∨ st = 3 then ctxPark k s else if st = 4 then s else ctxRefuse k 1 s
    | 6 => if st = 3 ∨ st = 4 then ctxResume k s else if st = 2 then s else ctxRefuse k 1 s
    | _ => ctxEnd k s

/-- R298: `CREATE`. -/
def execCtxCreate (ctx : Nat) (s : State) : Res := .next (ctxCmd ctx 1 s)
/-- R300: `SEAL`. -/
def execCtxSeal (ctx : Nat) (s : State) : Res := .next (ctxCmd ctx 2 s)
/-- R297: `START`. -/
def execCtxStart (ctx : Nat) (s : State) : Res := .next (ctxCmd ctx 3 s)
/-- R298: `PAUSE`. -/
def execCtxPause (ctx : Nat) (s : State) : Res := .next (ctxCmd ctx 4 s)
/-- R298: `PARK`. -/
def execCtxPark (ctx : Nat) (s : State) : Res := .next (ctxCmd ctx 5 s)
/-- R298: `RESUME`. -/
def execCtxResume (ctx : Nat) (s : State) : Res := .next (ctxCmd ctx 6 s)
/-- R299: `END`. -/
def execCtxEnd (ctx : Nat) (s : State) : Res := .next (ctxCmd ctx 7 s)
/-- R299: the ash of an ending context is done. -/
def execEndingAshDone (ctx : Nat) (s : State) : Res := .next (endingAshDone ctx s)

/-! The sealed window (R303 to R308) -/

/-- The map of a list of numbers. -/
def mapOf (l : List Nat) : Nat := l.foldl (fun n i => setBit n i) 0

/-- A signed `REPORT` (R307): its kind, nonce and hub key. -/
def reportBody (s : State) (k kind : Nat) (nonce hubKey : List Byte) : List Byte :=
  let c := ctx s k
  let d := regWord s 0 .global_ 0x100
  let b := leBytes 2 1 ++ leBytes 1 kind ++ leBytes 1 k ++ leBytes 1 (ctxState s k) ++ leBytes 1 (b2n (isSealed s k)) ++
    leBytes 1 (lifeCycle s) ++ leBytes 1 (b2n (debugOpen s)) ++ leBytes 8 d ++ slice nonce 0 32 ++ leBytes 64 c.digest ++
    ((List.range 16).map (fun i => leBytes 64 (Tab.get 0 s.heart.meas i))).flatten ++
    leBytes 8 (mapOf (boundTiles s k)) ++ leBytes 1 (mapOf (boundSites s k)) ++
    leBytes 2 (fld s (pageCtx k) Reg.CACHE_POLICY_WAY_MASK) ++ leBytes 1 c.slots ++ leBytes 4 c.log.length ++
    leBytes 8 (framesOf s k).length ++ leBytes 8 (c.paceHbm + 256 * c.pacePeat + 65536 * c.paceHost) ++
    leBytes 8 (s.heart.reports + 1) ++ slice hubKey 0 136 ++ leBytes 16 (keyIdOf (attestKey s))
  b ++ slice (Config.ecdsaSign (attestSecret s) b) 0 132

def countReport (s : State) : State := { s with heart := { s.heart with reports := s.heart.reports + 1 } }

/-- A key exchange (R305): the signed report goes out in clear, the session takes its number, both series start again. -/
def keyExchange (k : Nat) (nonce pub : List Byte) (s : State) : State :=
  let secret := drawn s
  let body := reportBody s k 1 nonce (Config.publicKey secret)
  let s := countReport (drew s)
  let s := modCtx k (fun c => { c with
    session := s.heart.reports, inSeq := 0, outSeq := 0, keys := Config.deriveKeys secret pub nonce (256 + k)
    nonce := slice nonce 0 32 }) s
  let s := setFld (pageCtx k) Reg.CTX_STATUS_SESSION 1 s
  winPut k { type := 2, body := body, encrypted := false } s

/-- R305: a clear `KEY_EXCHANGE`. It carries no tag; its session and sequence number are 0. -/
def execKeyExchange (ctx : Nat) (env : Envelope) (nonce key : List Byte) (s : State) : Res :=
  .next (
    if ctx = 0 ∨ 64 ≤ ctx then s
    else if !env.encrypted && env.bodyLen == 165 && env.posted == 32 + 165 && env.seq == 0 && env.session == 0
        && isSealed s ctx && ctxState s ctx == 1 && (Machine.ctx s ctx).session == 0 then
      keyExchange ctx nonce key (bump (pageWin ctx 1) Reg.IN_STATUS_ACCEPTED 1 s)
    else winDrop ctx s)

/-- R306: `START` through the window. -/
def execTenantStart (ctx : Nat) (env : Envelope) (s : State) : Res :=
  .next (winAccept ctx env (fun s =>
    let st := ctxState s ctx
    if st = 1 then ctxRun ctx s else if st = 2 ∨ st = 3 ∨ st = 4 then s else winRefuse ctx 1 3 env.seq s) s)

/-- R306: `REPORT_REQ`. -/
def execReportReq (ctx : Nat) (env : Envelope) (nonce : List Byte) (s : State) : Res :=
  .next (winAccept ctx env (fun s => winSend ctx 2 (reportBody s ctx 2 nonce []) (countReport s)) s)

/-- R299: `END` through the window. -/
def execTenantEnd (ctx : Nat) (env : Envelope) (s : State) : Res := .next (winAccept ctx env (ctxEnd ctx) s)

/-- R306: `PARK_SET`. -/
def execParkSet (ctx : Nat) (env : Envelope) (word : Nat) (s : State) : Res :=
  .next (winAccept ctx env (setFlds (pageWin ctx 0)
    [(Reg.PARK_AREA_SLOTS, min 64 (bits word 6 0)), (Reg.PARK_AREA_ADDR, bits word 54 16)]) s)

/-- R305: `REKEY` inside the session. -/
def execWindowRekey (ctx : Nat) (env : Envelope) (nonce key : List Byte) (s : State) : Res :=
  .next (winAccept ctx env (keyExchange ctx nonce key) s)

/-- R306: `LOG_REQ` from an event on. -/
def execLogReq (ctx : Nat) (env : Envelope) (first : Nat) (s : State) : Res :=
  .next (winAccept ctx env (fun s =>
    winSend ctx 0x0B ((((Machine.ctx s ctx).log.drop first).take 500).flatten) s) s)

/-- R303: `OUT_ACK.RELEASE`, which only VF k writes. The next message reaches `OUT_BUF`. -/
def execOutAckRelease (fn ctx : Nat) (release : Bool) (s : State) : Res :=
  .next (
    let c := Machine.ctx s ctx
    if fn ≠ ctx ∨ ctx = 0 ∨ 64 ≤ ctx ∨ !release then s
    else match c.outQ with
      | [] => s
      | _ :: rest =>
        let s := setCtx ctx { c with outQ := rest } s
        match rest with
        | [] => s
        | m :: _ => ctxMsg ctx (if m.type = 0x24 ∨ m.type = 0x25 then 1 else 2) (emit (.window ctx m) s))

/-- R304: a post that is not accepted is discarded unread and counted. -/
def execInPostDiscard (ctx : Nat) (env : Envelope) (s : State) : Res :=
  .next (
    if ctx = 0 ∨ 64 ≤ ctx then s
    else if !flag s (pageWin ctx 1) Reg.IN_STATUS_BUSY && envelopeOk (Machine.ctx s ctx) env then s
    else winDrop ctx s)

end Sys2Proof.Machine
end

