-- ==== Sys2Proof/Machine/Coppice.lean ====
section
/-! DEFINITION. Coppice (R309 to R313): its checks, its steps, and what each ends with. -/

namespace Sys2Proof.Machine

/-! Checks (R309) -/

/-- Frames that R272 numbers, in all. -/
def allFrames : Nat := hbmFrames + 4 * peatFrames

/-- The frames of a coppice. -/
def rangeFrames (index cnt : Nat) : List Nat := (List.range cnt).map (fun i => indexFrame (index + i))

/-- The mask of a run of ways. -/
def wayRun (index cnt : Nat) : Nat := (2 ^ cnt - 1) * 2 ^ index

/-- Reason 0x1: a reserved kind, or a bad index, count or target. -/
def coppiceBad (k kind index cnt target : Nat) : Bool :=
  let range := match kind with
    | 1 => decide (index < 64) && cnt == 1
    | 2 => decide (1 ≤ cnt) && decide (cnt ≤ 524288) && decide (index + cnt ≤ allFrames)
    | 3 => decide (1 ≤ cnt) && decide (index + cnt ≤ 16)
    | 4 => decide (index < 8)
    | 5 => decide (index < 1024)
    | 6 => target == 0xFF
    | _ => false
  !range || !(target == 0xFF || decide (target < 64)) || decide (64 ≤ k)

/-- Coppices in progress. -/
def coppices (s : State) : List CoppiceRun := s.ctxs.filterMap (fun e => e.2.coppice)

/-- Two coppices or a coppice and a request name a common resource. -/
def coppiceMeets (r : CoppiceRun) (kind index cnt : Nat) : Bool :=
  r.kind == kind &&
    (if kind = 2 ∨ kind = 3 then decide (r.index < index + cnt) && decide (index < r.index + r.count) else r.index == index)

/-- Reason 0x7: the resource is in another coppice or a test. -/
def coppiceBusy (s : State) (kind index cnt : Nat) : Bool :=
  (coppices s).any (fun r => coppiceMeets r kind index cnt) ||
    (match kind with
     | 1 => let b := bindState s (pageTile index); b == 2 || b == 3 || b == 4
     | 4 =>
       let b := bindState s (pageSite index)
       b == 2 || b == 3 || b == 4 || (match pageOp s (pageSite index) with | some o => !o.queued | none => false)
     | 5 => (session s index).st == 4
     | 6 => (match roundOfHandle s index with | some i => (kround s i).st == 5 | none => false)
     | _ => false)

/-- What reason 0x2 asks: `FREE` for a bind, held by k otherwise. -/
def coppiceHeld (s : State) (k kind index cnt : Nat) (bind : Bool) : Bool :=
  let own (p : Nat) : Bool := bindState s p == 1 && bindCtx s p == k
  match kind with
  | 1 => if bind then bindState s (pageTile index) == 0 else own (pageTile index)
  | 2 => (rangeFrames index cnt).all (fun f =>
      if bind then (frame s f).state == .free else (frame s f).state == .owned && (frame s f).ctx == k)
  | 3 =>
    let m := wayRun index cnt
    if bind then (m &&& (otherWays s k ||| fld s (pageCtx k) Reg.CACHE_POLICY_WAY_MASK)) == 0
    else (m &&& fld s (pageCtx k) Reg.CACHE_POLICY_WAY_MASK) == m && k != 0
  | 4 => if bind then bindState s (pageSite index) == 0 else own (pageSite index)
  | 5 => if bind then (session s index).st == 0 && !(session s index).kiln else (session s index).st != 0 && (session s index).ctx == k
  | 6 =>
    (match roundOfHandle s index with
     | some i => (kround s i).joined.any (fun j => (polParty (kround s i).policy j).ctx == k)
     | none => false)
  | _ => false

/-- The way rules of R217 after the change. -/
def waysKept (s : State) (k index cnt target : Nat) : Bool :=
  let m := wayRun index cnt
  let mine := fld s (pageCtx k) Reg.CACHE_POLICY_WAY_MASK
  if target = k then k != 0 && maskOk s k (mine ||| m)
  else (mine != m || !isSealed s k) && target != 0

/-- Regions and channels a sealed context would have with more frames. -/
def wouldHold (s : State) (k : Nat) (fs : List Nat) : List Nat :=
  ((ctx s k).regions ++ fs.filterMap (fun f => if isHbm (f * 2 ^ 21) then (regionOf s (f * 2 ^ 21)).map (fun r => r.index) else none)).eraseDups

/-- The first reason that applies, in R309's order. -/
def coppiceReason (s : State) (k kind index cnt target : Nat) : Option Nat :=
  if coppiceBad k kind index cnt target then some 1
  else if coppiceBusy s kind index cnt then some 7
  else if !coppiceHeld s k kind index cnt (target == k) then some 2
  else if target ≠ 0xFF ∧ (ctxState s target = 0 ∨ 5 ≤ ctxState s target) then some 3
  else if kind = 3 ∧ !waysKept s k index cnt target then some 4
  else if kind = 4 ∧ target ≠ 0xFF ∧ isSealed s target ∧ !flag s (pageSite index) Reg.SITE_STATE_ATTESTED then some 5
  else if kind = 2 ∧ target ≠ 0xFF ∧ isSealed s target ∧
      (let chs := regionChannels s (wouldHold s target (rangeFrames index cnt))
       slotsFull s target (slotsFor (poolGuarantee s target 0) chs.length) chs) then some 8
  else none

/-! Ownership (R312) -/

/-- A bind is noted: telemetry and event (R308, R323). -/
def noteBind (k kind index cnt gen : Nat) (tail : List Byte) (s : State) : State :=
  bindEvent k 1 kind index cnt gen tail (bump (pageWin k 3) Reg.CT_COPPICE_COUNT 1 s)

/-- The first 16 bytes of a guest's measurement digest. -/
def measHead (s : State) (n : Nat) : List Byte :=
  leBytes 8 (fld s (pageSite n) (Reg.SITE_MEAS.at 8 0)) ++ leBytes 8 (fld s (pageSite n) (Reg.SITE_MEAS.at 8 1))

/-- Frames come to a context: a sealed one's slots follow its regions (R290). A `BAD` frame that has left its owner is
retired instead. -/
def takeFrames (k : Nat) (fs : List Nat) (s : State) : State :=
  let s := fs.foldl (fun s f =>
    let e := frame s f
    if e.state = .gone then s
    else setFrame f (if e.bad then { e with ctx := 0xFF, state := .retired } else { e with ctx := k, state := .owned, pinned := false }) s) s
  if isSealed s k then
    let idx := wouldHold s k fs
    let chs := regionChannels s idx
    allotSlots k (slotsFor (poolGuarantee s k 0) chs.length) chs (modCtx k (fun c => { c with regions := idx }) s)
  else s

/-- The ownership update that binds a resource to a context, with its event. -/
def coppiceBind (k kind index cnt : Nat) (s : State) : State :=
  match kind with
  | 1 => bindTile k index s
  | 2 => noteBind k 2 index cnt 0 [] (takeFrames k (rangeFrames index cnt) s)
  | 3 =>
    let m := fld s (pageCtx k) Reg.CACHE_POLICY_WAY_MASK ||| wayRun index cnt
    noteBind k 3 index cnt 0 [] (setFld (pageCtx k) Reg.CACHE_POLICY_WAY_MASK m s)
  | 4 => noteBind k 4 index cnt (generation s (pageSite index)) (measHead s index) (bindPage (pageSite index) k s)
  | 5 => noteBind k 5 index cnt 0 [] (sessionBind index k s)
  | _ => s

/-! Steps (R310) -/

def setCoppice (k : Nat) (r : Option CoppiceRun) (s : State) : State := modCtx k (fun c => { c with coppice := r }) s

/-- `PROGRESS` after a step. -/
def coppiceStep (k n : Nat) (s : State) : State :=
  match (ctx s k).coppice with
  | none => s
  | some r =>
    let s := setCoppice k (some { r with step := n }) s
    if r.forced then s else opStep (pageCtx k) (20 * n) (if r.kind = 2 ∨ r.kind = 3 then 0 else n) s

/-- An operation waits on a page. -/
def queuedOp (s : State) (p op : Nat) : Bool := match pageOp s p with | some o => o.op == op && o.queued | none => false

/-- A coppice ends; how long it took is a free value (R321). -/
def coppiceEnd (k result reason : Nat) (s : State) : State :=
  match (ctx s k).coppice with
  | none => s
  | some r =>
    let s := setCoppice k none s
    if r.forced then
      match r.kind with
      | 1 =>
        if bindState s (pageTile r.index) = 0 ∧ queuedOp s (pageTile r.index) 2 = true then
          startSelfTest r.index false s
        else s
      | _ => s
    else
      let s := opStep (pageCtx k) 99 (if r.kind = 2 ∨ r.kind = 3 then r.count else 5) s
      let us := drawn s
      opEnd (pageCtx k) result (drew (setFlds (pageCtx k) [(Reg.COPPICE_STATUS_REASON, reason), (Reg.COPPICE_STATUS_TIME_US, us)] s))

/-- Begins the first step of a release or a move. -/
def coppiceBegin (k : Nat) (r : CoppiceRun) (s : State) : State :=
  let s := setCoppice k (some r) s
  match r.kind with
  | 1 => preempt r.index (setFld (pageTile r.index) Reg.BINDING_STATE 2 s)
  | 2 => coppiceStep k 2 ((rangeFrames r.index r.count).foldl (fun s f => beginFrameAsh f s) (dropAll k s))
  | 3 => coppiceStep k 2 (withdrawWays none (wayRun r.index r.count) none s)
  | 4 => preemptGuest r.index (setFld (pageSite r.index) Reg.BINDING_STATE 2 s)
  | 5 => coppiceStep k 2 (sessionRelease r.index s)
  | _ => coppiceStep k 2 (match roundOfHandle s r.index with | some i => destroyRound i 5 s | none => s)

/-- R309: a coppice is requested on the page of context k. A bind of a waking site waits for it (R372). -/
def coppiceStart (k kind index cnt target : Nat) (park : Bool) (s : State) : State :=
  let p := pageCtx k
  if 64 ≤ k then s
  else if (pageOp s p).isSome ∨ (ctx s k).coppice.isSome then opRefused p s
  else
    let s := setFld p Reg.COPPICE_STATUS_REASON 0 (opRun p 0x10 0 s)
    let r : CoppiceRun := { kind := kind, index := index, count := cnt, target := target, park := park }
    match coppiceReason s k kind index cnt target with
    | some n => opEnd p 4 (setFld p Reg.COPPICE_STATUS_REASON n s)
    | none =>
      if target ≠ k then coppiceBegin k r s
      else if kind = 4 ∧ (site s index).l1 then setCoppice k (some r) (sendPwr index 0 s)
      else
        let s := if kind = 3 then withdrawWays none (wayRun index cnt) none s else s
        coppiceEnd k 3 0 (coppiceBind k kind index cnt (setCoppice k (some r) s))

/-- The ownership update and the digest at the end of a release or a move (R312, R313): the resource goes to the
target, unless that has begun to end. -/
def coppiceOwn (k : Nat) (r : CoppiceRun) (gen : Nat) (s : State) : State :=
  let late := r.target ≠ 0xFF ∧ (ctxState s r.target = 0 ∨ 5 < ctxState s r.target)
  let s := noteRelease k r.kind r.index r.count gen s
  if r.target = 0xFF then coppiceEnd k 3 0 s
  else if late then coppiceEnd k 4 6 s
  else coppiceEnd k 3 0 (coppiceBind r.target r.kind r.index r.count s)

/-- The next step of a tile's coppice. -/
def tileStep (k : Nat) (r : CoppiceRun) (s : State) : State :=
  let n := r.index
  let p := pageTile n
  match r.step with
  | 0 =>
    let s := freezeArray n s
    let park := r.park && !r.faulted && decide (ctxState s k < 5)
    if park then coppiceStep k 1 s
    else coppiceStep k 2 (unbindPage p 3 (abandonTile n s))
  | 1 =>
    let s := if r.faulted ∨ 5 ≤ ctxState s k then abandonTile n s else parkTile k n s
    coppiceStep k 2 (unbindPage p 3 s)
  | _ =>
    let s := ashTile k n s
    if r.faulted then
      let gen := generation s p
      coppiceEnd k 3 0 (noteRelease k 1 n 1 gen (afterFault n (unbindPage p 5 s)))
    else coppiceOwn k r (generation s p) (unbindPage p 0 s)

/-- The next step of a site's coppice: its pieces have stopped, its lines are recalled, the guest has answered `CLEAR`.
A fence in the meantime takes the place of the ash (R373). -/
def siteStep (k : Nat) (r : CoppiceRun) (s : State) : State :=
  let n := r.index
  let p := pageSite n
  if r.target = k then
    if (site s n).l1 then s else coppiceEnd k 3 0 (coppiceBind k 4 n r.count s)
  else if siteLink s n = 9 then
    coppiceEnd k 3 0 (if r.step < 2 then s else noteRelease k 4 n 1 (generation s p) s)
  else if r.step < 2 then
    if (site s n).pieces.isEmpty then
      let s := dropHolder (72 + n) k (dropHolder (64 + n) k s)
      coppiceStep k 2 (endSite n s)
    else s
  else if !(site s n).cleared then s
  else
    let s := unbindPage p 0 s
    if r.target ≠ 0xFF ∧ r.target < 64 ∧ isSealed s r.target ∧ !flag s p Reg.SITE_STATE_ATTESTED ∧ ctxState s r.target < 6 then
      coppiceEnd k 4 5 (noteRelease k 4 n 1 (generation s p) s)
    else coppiceOwn k r (generation s p) s

/-- R310: the step in hand completes and the next one starts. -/
def coppiceStepDone (k : Nat) (s : State) : State :=
  match (ctx s k).coppice with
  | none => s
  | some r =>
    match r.kind with
    | 1 => tileStep k r s
    | 2 =>
      let fs := rangeFrames r.index r.count
      if (cacheLines s (fun l => fs.contains (frameOf l.pa) && isTransient s l.pa)).isEmpty then
        coppiceOwn k r 0 (fs.foldl (fun s f => freeFrame f (ashFrameNow f s)) s)
      else s
    | 3 =>
      let s := withdrawWays none (wayRun r.index r.count) none s
      if (cacheLines s (fun l => tst (wayRun r.index r.count) l.way)).isEmpty then
        let m := fld s (pageCtx k) Reg.CACHE_POLICY_WAY_MASK
        coppiceOwn k r 0 (setFld (pageCtx k) Reg.CACHE_POLICY_WAY_MASK (m - (m &&& wayRun r.index r.count)) s)
      else s
    | 4 => siteStep k r s
    | 5 => if (session s r.index).st = 0 then coppiceOwn k r 0 s else s
    | _ => if (roundOfHandle s r.index).isNone then coppiceOwn k r 0 s else s

/-- A resource is coppiced away for an operation on its page (R79): to `FREE`, parked. While the page of its context has
another coppice the operation only waits. -/
def coppiceForced (k kind index : Nat) (s : State) : State :=
  if (ctx s k).coppice.isSome then s
  else coppiceBegin k { kind := kind, index := index, count := 1, target := 0xFF, park := true, forced := true } s

/-! Commands -/

/-- A coppice of a kind, its registers written first. -/
def coppiceCmd (k kind index cnt target : Nat) (park : Bool) (s : State) : State :=
  if 64 ≤ k then s
  else
    let s := if (pageOp s (pageCtx k)).isSome then s
      else setFlds (pageCtx k) [(Reg.COPPICE_REQ_KIND, kind), (Reg.COPPICE_REQ_PARK, b2n park), (Reg.COPPICE_REQ_INDEX, index),
        (Reg.COPPICE_REQ_TARGET, target), (Reg.COPPICE_COUNT_COUNT, cnt)] s
    coppiceStart k kind index cnt target park s

/-- R310: kind 0x1. -/
def execCoppiceTile (ctx tile target : Nat) (park : Bool) (s : State) : Res := .next (coppiceCmd ctx 1 tile 1 target park s)
/-- R310: kind 0x2. -/
def execCoppiceFrames (ctx first count target : Nat) (s : State) : Res := .next (coppiceCmd ctx 2 first count target false s)
/-- R310: kind 0x3. -/
def execCoppiceWays (ctx first count target : Nat) (s : State) : Res := .next (coppiceCmd ctx 3 first count target false s)
/-- R310: kind 0x4. -/
def execCoppiceSite (ctx site target : Nat) (s : State) : Res := .next (coppiceCmd ctx 4 site 1 target false s)
/-- R310: kind 0x5. -/
def execCoppiceSession (ctx session target : Nat) (s : State) : Res := .next (coppiceCmd ctx 5 session 1 target false s)
/-- R310: kind 0x6. -/
def execCoppiceKilnRound (ctx handle target : Nat) (s : State) : Res := .next (coppiceCmd ctx 6 handle 1 target false s)
/-- R310: a step that took time completes. -/
def execCoppiceStepDone (ctx : Nat) (s : State) : Res := .next (if 64 ≤ ctx then s else coppiceStepDone ctx s)

/-! Ash commands (R316) -/

/-- A failed ash command: the answer, a record, and the coppice of the resource ends with `RESULT` 0x4. -/
def ashFailed (h : Header) (status : Nat) (hit : CoppiceRun → Bool) (s : State) : State :=
  let s := raiseErr { page := 0, ctx := 0, sev := 2, cls := 0x032, detail := status } (respond h status [] s)
  (List.range 64).foldl (fun s k =>
    match (ctx s k).coppice with
    | some r => if hit r then coppiceEnd k 4 0 s else s
    | none => s) s

/-- An ash command carries the ash context, the ash class of priority and a source that may send it. -/
def ashAllowed (h : Header) (inval : Bool) : Bool :=
  h.ctx == 0xFF && h.prio == 7 &&
    (match nodeBlock h.src with
     | some (.core _) => true
     | some .heartwood => true
     | some (.hbm _) => inval
     | some (.peat _) => inval
     | _ => false)

/-- An ash command from a source that may not send it is malformed (R49). -/
def ashCommand (h : Header) (inval : Bool) (f : State → State) (s : State) : State :=
  if ashAllowed h inval then f s else malformedReject .req h.src false h s

/-- Frames an ash command names. -/
def ashRange (h : Header) : List Nat := (List.range (h.opData % 2 ^ 20)).map (fun i => frameOf h.addr + i)

/-- R316: `ASH_FRAMES` at an HBM controller or a peat port. -/
def execAshFrames (h : Header) (s : State) : Res :=
  .next (ashCommand h false (fun s =>
    let fs := ashRange h
    let hbm := match nodeBlock h.dst with | some (.hbm _) => true | _ => false
    let peat := match nodeBlock h.dst with | some (.peat _) => true | _ => false
    if (!hbm && !peat) || !h.xlated then ashFailed h 2 (fun _ => false) s
    else if !fs.all (fun f => frameExists f && isHbm (f * 2 ^ 21) == hbm && (frame s f).state == .ashing) then
      ashFailed h 3 (fun r => r.kind == 2 && fs.any (fun f => (rangeFrames r.index r.count).contains f)) s
    else respondOk h (fs.foldl (fun s f => ashFrameNow f s) s)) s)

/-- R316: `ASH_INVAL` at a home: the lines of the frames in its slice go without write-back. -/
def execAshInval (h : Header) (s : State) : Res :=
  .next (ashCommand h true (fun s =>
    match nodeBlock h.dst with
    | some (.home t) =>
      let fs := ashRange h
      if fs.all (fun f => frameExists f && (frame s f).state == .ashing) then
        respondOk h ((cacheLines s (fun l => fs.contains (frameOf l.pa) && sliceOf l.pa == t)).foldl
          (fun s l => withdrawLine (.ash l.pa) l s) s)
      else ashFailed h 3 (fun r => r.kind == 2 && fs.any (fun f => (rangeFrames r.index r.count).contains f)) s
    | _ => ashFailed h 2 (fun _ => false) s) s)

/-- R316: `ASH_SRAM`: the tensor-array domain, the translation cache or the adapter buffer. -/
def execAshSram (h : Header) (s : State) : Res :=
  .next (ashCommand h false (fun s =>
    match nodeBlock h.dst, h.opArg % 16 with
    | some (.control t), 0 =>
      respondOk h (modTile t (fun x => { x with bank0 := {}, bank1 := {}, hist := [] }) (clearArray t (arrayState s t) s))
    | some (.control t), 1 => respondOk h (setTlb t [] s)
    | some (.site n), 1 => respondOk h (setTlb (64 + n) [] s)
    | some (.site n), 2 => respondOk h (modSite n (fun x => { x with slots := [], stalled := [] }) s)
    | some .plarus, 1 => respondOk h (setTlb 81 [] s)
    | some (.kiln e), 1 => respondOk h (setTlb (82 + e) [] s)
    | some .ember, 1 => respondOk h (setTlb 84 [] s)
    | some .host, 1 => respondOk h (setTlb 86 [] s)
    | _, _ => ashFailed h 2 (fun r => match nodeBlock h.dst with | some (.control t) => r.kind == 1 && r.index == t | _ => false) s) s)

/-- The holders at a node. -/
def nodeHolders (n : Nat) : List Nat := ((List.range 87).filter (fun x => holderNode x == some n))

/-- R316: `ASH_XLATE`: a holder drops every entry of a context. -/
def execAshXlate (h : Header) (s : State) : Res :=
  .next (ashCommand h false (fun s =>
    let k := h.opArg % 256
    if (nodeHolders h.dst).isEmpty ∨ 64 ≤ k then ashFailed h 2 (fun _ => false) s
    else respondOk h ((nodeHolders h.dst).foldl (fun s x => dropHolder x k s) s)) s)

/-- R316: `ASH_WAYS`: a home writes back and invalidates the lines of a way mask. -/
def execAshWays (h : Header) (s : State) : Res :=
  .next (ashCommand h false (fun s =>
    match nodeBlock h.dst with
    | some (.home t) => respondOk h (withdrawWays (some t) (h.opData % 2 ^ 16) none s)
    | _ => ashFailed h 2 (fun _ => false) s) s)

end Sys2Proof.Machine
end

