-- ==== Sys2Proof/Machine/Ember.lean ====
section
/-! DEFINITION. The ember journal (R498 to R509). -/

namespace Sys2Proof.Machine

def emberPage : Nat := 0x00A
def emberId (s : State) (k : Nat) : Nat := fld s (pageCtx k) Reg.EMBER_STATUS2_JOURNAL_ID
def emberEpoch (s : State) (k : Nat) : Nat := fld s (pageCtx k) Reg.EMBER_EPOCH
def emberRole (s : State) (k : Nat) : Nat := fld s (pageCtx k) Reg.EMBER_CFG_ROLE
def modEmber (k : Nat) (f : EmberSt → EmberSt) (s : State) : State := setEmber k (f (ember s k)) s

/-- Bytes of the partner's log. -/
def logBytes (s : State) (k : Nat) : Nat := 2 ^ (30 + min 6 (fld s (pageCtx k) Reg.EMBER_LOG_LOG2_GIB))
def logBase (s : State) (k : Nat) : Nat := fld s (pageCtx k) Reg.EMBER_LOG_ADDR * 2 ^ 21

/-- The partner's log in use, in MiB. -/
def showLog (k : Nat) (s : State) : State :=
  setFld (pageCtx k) Reg.EMBER_STATUS2_PENDING_MIB (ceilDiv (ember s k).tail (2 ^ 20)) s

/-! The source (R498 to R502) -/

/-- The valid entries of a table of context k: index and entry. -/
def validEntries (s : State) (k base n : Nat) : List (Nat × Nat) :=
  (List.range n).filterMap (fun i =>
    match tableEntry s k (base + 8 * i) with
    | .ok e => if tst e 0 then some (i, e) else none
    | .error _ => none)

/-- Every page that k maps: virtual address, bytes, address of its entry, entry (R254). -/
def mappedPages (s : State) (k : Nat) : List (Nat × Nat × Nat × Nat) :=
  let w := pageWin k 0
  if !flag s w Reg.XLATE_ROOT_VALID then []
  else
    let t0 := fld s w Reg.XLATE_ROOT_TABLE * 65536
    (validEntries s k t0 8192).flatMap (fun a =>
      let t1 := entryFrame a.2
      (validEntries s k t1 8192).flatMap (fun b =>
        let va := a.1 * 2 ^ 42 + b.1 * 2 ^ 29
        if tst b.2 8 then [(va, 2 ^ 29, t1 + 8 * b.1, b.2)]
        else (validEntries s k (entryFrame b.2) 8192).map (fun c => (va + c.1 * 2 ^ 16, 2 ^ 16, entryFrame b.2 + 8 * c.1, c.2))))

/-- A page still to be sent: dirty, or not sent yet in the initial copy. -/
def pageDirty (s : State) (k : Nat) (p : Nat × Nat × Nat × Nat) : Bool :=
  let e := ember s k
  tst p.2.2.2 7 || (!e.firstDone && !e.synced.contains p.1)

def dirtyPages (s : State) (k : Nat) : List (Nat × Nat × Nat × Nat) := (mappedPages s k).filter (pageDirty s k)

/-- The open session that carries a page: striped by virtual page number (R500). -/
def journalSession (s : State) (k va : Nat) : Option Nat :=
  let l := (journalSessions s k).filter (sessionOpen s)
  l[va / 65536 % max 1 l.length]?

/-- The header of an ember transfer: journal, cut and epoch beside the address. -/
def emberHeader (s : State) (k op addr len i : Nat) (extra : List Byte) : Header :=
  { ctx := k, prio := 2, opcode := op, dst := blockNode .plarus, src := blockNode .ember, len := len, addr := addr, opArg := i
    opData := emberId s k + (ember s k).openCut % 2 ^ 32 * 2 ^ 32, inlineData := leBytes 8 (emberEpoch s k) ++ extra }

/-- Bytes as data units. -/
def unitsOf (d : List Byte) : List Unit256 := (List.range (ceilDiv d.length 256)).map (fun i => { bytes := slice d (256 * i) 256 })

/-- Sends one run of at most 4 KiB of a page or of the state block. -/
def sendRun (k op addr : Nat) (d : List Byte) (s : State) : State :=
  match journalSession s k addr with
  | none => s
  | some i => plrRequest i (emberHeader s k op addr (ceilDiv d.length 256) i []) (unitsOf d) s

/-- R500: a page is taken: its DIRTY bit is cleared, its translations withdrawn, its bytes read and sent. -/
def streamPage (k : Nat) (p : Nat × Nat × Nat × Nat) (s : State) : State :=
  let e := ember s k
  let s := setEntry p.2.2.1 (clrBit (ofBytes (bytesAt s p.2.2.1 8)) 7) s
  let s := (List.range 87).foldl (fun s h => dropRange h k p.1 (p.2.1 / 65536) s) s
  match rd s 84 k p.1 p.2.1 with
  | .error x => accessFailed k x.err (plainUnit 84 k x.va x.len x.access) none (markDirty p.2.2.1 s)
  | .ok d =>
    let s := accessed 84 k p.1 p.2.1 false s
    let s := (List.range (p.2.1 / 4096)).foldl (fun s j => sendRun k 0x88 (p.1 + 4096 * j) (slice d (4096 * j) 4096) s) s
    let s := count emberPage Reg.EMBER_STATS_PAGES_SENT (p.2.1 / 65536) s
    setEmber k { e with synced := if e.firstDone then e.synced else addNew e.synced p.1, sentBytes := e.sentBytes + p.2.1 } s

/-- The page of context k at an address is streamed, if the journal runs and the page is dirty. -/
def emberStream (k va : Nat) (s : State) : State :=
  let st := emberState s k
  if 64 ≤ k ∨ st = 0 ∨ 3 < st ∨ (ember s k).full then s
  else match walkLeaf s k va with
  | .error _ => s
  | .ok l =>
    let p := (if l.size = 2 then va / 2 ^ 29 * 2 ^ 29 else va / 65536 * 65536, if l.size = 2 then 2 ^ 29 else 2 ^ 16, l.entryPa, l.entry)
    if pageDirty s k p then streamPage k p s else s

/-- R500: the engine streams one page. -/
def execEmberStream (ctx va : Nat) (s : State) : Res := .next (emberStream ctx va s)

/-- The state block of R501, as 64-bit words: rings (base, configuration, head, tail), completion ring, fences, ring entries
fetched and not completed, draught tags. -/
def stateBlock (s : State) (k : Nat) : List Nat :=
  let w := pageWin k 0
  let rings := (List.range 16).flatMap (fun r =>
    [fld s w (Reg.RING_BASE_ADDR.at 32 r), ringLog2 s k r + 256 * b2n (ringOn s k r), ringHead s k r, ringTail s k r])
  let cq := [fld s w Reg.CQ_BASE_ADDR, fld s w Reg.CQ_CFG_LOG2_SIZE + 256 * fld s w Reg.CQ_CFG_ENABLE + 512 * fld s w Reg.CQ_CFG_IRQ_EN,
    fld s w Reg.CQ_STATUS_TAIL, fld s w Reg.CQ_STATUS_HEAD, fld s w Reg.CQ_STATUS_PHASE]
  let fences := (List.range 64).map (fun i => fence s k i + 2 ^ 48 * b2n (fenceError s k i))
  let open_ := s.passes.filter (fun p => p.ctx == k)
  let tags := s.tags.filter (fun e => e.1 / 4096 == k)
  rings ++ cq ++ fences ++ [open_.length] ++ open_.map (fun p => p.ring + 256 * p.index) ++ [tags.length] ++
    tags.flatMap (fun e => [e.1 % 4096, tc 64 e.2.nextBias, tc 64 e.2.appliedBias,
      b2n e.2.frozen + 2 * b2n e.2.overridden + 4 * b2n e.2.written + 256 * e.2.lastTop, e.2.updates, tc 64 e.2.base,
      e.2.headroom + 256 * e.2.step + 65536 * e.2.deadband])

/-- Loads a state block into a context (R504). -/
def loadState (k : Nat) (ws : List Nat) (s : State) : State :=
  let w := pageWin k 0
  let g (i : Nat) : Nat := ws.getD i 0
  let s := (List.range 16).foldl (fun s r => setFlds w
    [(Reg.RING_BASE_ADDR.at 32 r, g (4 * r)), (Reg.RING_CFG_LOG2_SIZE.at 32 r, g (4 * r + 1) % 256),
     (Reg.RING_CFG_ENABLE.at 32 r, bit (g (4 * r + 1)) 8), (Reg.RING_STATUS_HEAD.at 32 r, g (4 * r + 2)),
     (Reg.RING_STATUS_TAIL.at 32 r, g (4 * r + 3)), (Reg.RING_STATUS_OUTSTANDING.at 32 r, 0)] s) s
  let s := setFlds w [(Reg.CQ_BASE_ADDR, g 64), (Reg.CQ_CFG_LOG2_SIZE, g 65 % 256), (Reg.CQ_CFG_ENABLE, bit (g 65) 8),
    (Reg.CQ_CFG_IRQ_EN, bit (g 65) 9), (Reg.CQ_STATUS_TAIL, g 66), (Reg.CQ_STATUS_HEAD, g 67), (Reg.CQ_STATUS_PHASE, g 68),
    (Reg.CQ_STATUS_RESERVED, 0)] s
  let s := (List.range 64).foldl (fun s i => setFence k i (g (69 + i) % 2 ^ 48) (tst (g (69 + i)) 48) s) s
  let n := g 133
  let again := (List.range n).map (fun i => (g (134 + i) % 256, g (134 + i) / 256))
  let t := 134 + n
  let s := (List.range (g t)).foldl (fun s i =>
    let o := t + 1 + 7 * i
    setTag k (g o) {
      nextBias := sext 64 (g (o + 1)), appliedBias := sext 64 (g (o + 2)), frozen := tst (g (o + 3)) 0
      overridden := tst (g (o + 3)) 1, written := tst (g (o + 3)) 2, lastTop := g (o + 3) / 256, updates := g (o + 4)
      base := sext 64 (g (o + 5)), headroom := g (o + 6) % 256, step := g (o + 6) / 256 % 256, deadband := g (o + 6) / 65536 } s) s
  modCtx k (fun c => { c with refetch := again }) s

/-- The point of a context's journal begins (R195, R499), if no other piece of the context runs. -/
def emberPointStart (k id : Nat) (s : State) : State :=
  let st := emberState s k
  let busy := s.passes.any (fun p => p.ctx == k && p.id != id && p.pieces.any (fun q => q.state == .running))
  if (st = 1 ∨ st = 2) ∧ !busy then
    setEmberState k 3 (modEmber k (fun e => { e with point := some id, back := st, full := false }) s)
  else s

/-- The point cannot commit: the journal goes back to the state it left (R499, R502). -/
def emberPointFail (k : Nat) (s : State) : State :=
  let e := ember s k
  match e.point with
  | none => s
  | some id =>
    raiseSrc emberPage 1 (setEmberState k e.back (failPasses 0 [id] (setEmber k { e with point := none } s)))

/-- R501: the remaining dirty pages, the state block and the commit are sent. A cut that the partner's log cannot take
does not commit. -/
def emberPointSend (k : Nat) (s : State) : State :=
  let s := (dirtyPages s k).foldl (fun s p => streamPage k p s) s
  if (ember s k).full then emberPointFail k s
  else
    let b := ofWords (stateBlock s k)
    let s := (List.range (ceilDiv b.length 4096)).foldl (fun s j => sendRun k 0x89 (4096 * j) (slice b (4096 * j) (min 4096 (b.length - 4096 * j))) s) s
    match journalSession s k 0 with
    | none => s
    | some i =>
      plrRequest i (emberHeader s k 0x8A 0 0 i (leBytes 8 (ember s k).sentBytes ++ leBytes 8 b.length)) [] s

/-- What a peer's answer to an ember transfer does at the source: a page not stored is dirty again and the log is full; a
commit refused fails the point. -/
def emberAnswered (h : Header) (status : Nat) (s : State) : State :=
  if status = 0 then s
  else if h.opcode = 0x88 then modEmber h.ctx (fun e => { e with full := true }) (emberUnsent h.ctx h s)
  else if h.opcode = 0x8A then emberPointFail h.ctx s
  else s

/-! Operations (R498, R499, R504) -/

/-- Sessions of the journal that R498 asks for. -/
def journalReady (s : State) (k : Nat) : Bool :=
  (journalSessions s k).all (fun i => decide (i < 1024) && (session s i).ctx == k && (session s i).st == 2)

/-- Why a journal may not start. -/
def startReason (s : State) (k : Nat) : Nat :=
  if emberRole s k ≠ 1 ∨ (emberState s k ≠ 0 ∧ emberState s k ≠ 4) then 1 else if !journalReady s k then 2 else 0

def emberStart (k : Nat) (s : State) : State :=
  let s := setFlds (pageCtx k) [(Reg.EMBER_STATUS2_JOURNAL_ID, Config.freeNat (drawn s) % 2 ^ 32),
    (Reg.EMBER_EPOCH, fld s 0x001 Reg.HUB_EPOCH)] s
  setEmberState k 1 (setEmber k {} (drew s))

def stopReason (s : State) (k : Nat) : Nat := if emberState s k = 0 then 1 else 0

def emberStop (k : Nat) (s : State) : State :=
  let st := emberState s k
  let s := if st = 3 then emberPointFail k s else s
  let s := if st = 7 then s else setEmber k { past := addNew (ember s k).past (emberId s k) } s
  showLog k (setEmberState k 0 s)

/-- Why a partner may not be promoted. -/
def promoteReason (s : State) (k : Nat) : Nat :=
  if emberState s k ≠ 6 then 3
  else if (journalSessions s k).any (fun i => (session s i).st == 2) then 4
  else if ctxState s k ≠ 1 ∨ (List.range 16).any (fun r => ringOn s k r) then 5
  else 0

/-- Log entries of committed cuts. -/
def committedLog (s : State) (k : Nat) : List EmberEnt :=
  (ember s k).log.filter (fun e => decide (e.cut ≤ fld s (pageCtx k) Reg.EMBER_STATUS_CUT))

/-- The promotion ends: the state block is loaded and k' runs. -/
def promoteEnd (k : Nat) (s : State) : State :=
  let b := (ember s k).committed
  let s := loadState k ((List.range (ceilDiv b.length 8)).map (word64 b)) (modEmber k (fun e => { e with promoting := false, log := [], tail := 0 }) s)
  let s := showLog k (setEmberState k 7 (ctxRun k s))
  match pageOp s (pageCtx k) with
  | some o => if o.op = 0x13 then opEnd (pageCtx k) 3 s else s
  | none => s

def emberPromote (k : Nat) (s : State) : State :=
  let keep := committedLog s k
  let s := modEmber k (fun e => { e with log := keep, promoting := true }) s
  if keep.isEmpty then promoteEnd k s else s

/-- An ember operation requested by PF0 on page 0x100 + k (R508): refused with its reason. -/
def emberOp (k op : Nat) (s : State) : State :=
  let p := pageCtx k
  if 64 ≤ k then s
  else if (pageOp s p).isSome then opRefused p s
  else
    let s := opRun p op 0 s
    let reason := if isSealed s k then 6
      else if op = 0x11 then startReason s k else if op = 0x12 then stopReason s k else promoteReason s k
    if reason ≠ 0 then opEnd p 4 (setFld p Reg.EMBER_STATUS_REASON reason s)
    else if op = 0x11 then opEnd p 3 (emberStart k s)
    else if op = 0x12 then opEnd p 3 (emberStop k s)
    else emberPromote k s

/-- R498: operation 0x11. -/
def execEmberJournalStart (ctx : Nat) (s : State) : Res := .next (emberOp ctx 0x11 s)
/-- R499: operation 0x12. -/
def execEmberJournalStop (ctx : Nat) (s : State) : Res := .next (emberOp ctx 0x12 s)
/-- R504: operation 0x13. -/
def execEmberPromoteOp (ctx : Nat) (s : State) : Res := .next (emberOp ctx 0x13 s)

/-- A sealed ember message (R505): done and answered with `EMBER_STATUS`, or refused. -/
def winEmber (k type : Nat) (e : Envelope) (reason : State → Nat) (f : State → State) (s : State) : State :=
  winAccept k e (fun s =>
    let r := reason s
    if r ≠ 0 then winRefuse k r type e.seq (setFld (pageCtx k) Reg.EMBER_STATUS_REASON r s)
    else
      let s := f s
      winSend k 0x44 (leBytes 8 (regWord s (pageCtx k) .owner 0xC10) ++ leBytes 8 (regWord s (pageCtx k) .owner 0xC18)) s) s

/-- R505: `EMBER_SET`. -/
def execEmberSet (ctx : Nat) (env : Envelope) (cfg log : Nat) (s : State) : Res :=
  .next (winEmber ctx 0x40 env (fun s => if emberState s ctx = 0 then 0 else 1)
    (fun s => writeWord (pageCtx ctx) .owner 0xC08 log (writeWord (pageCtx ctx) .owner 0xC00 cfg s)) s)
/-- R505: `EMBER_START`. -/
def execEmberStart (ctx : Nat) (env : Envelope) (s : State) : Res :=
  .next (winEmber ctx 0x41 env (fun s => startReason s ctx) (emberStart ctx) s)
/-- R505: `EMBER_STOP`. -/
def execEmberStop (ctx : Nat) (env : Envelope) (s : State) : Res :=
  .next (winEmber ctx 0x42 env (fun s => stopReason s ctx) (emberStop ctx) s)
/-- R505: `EMBER_PROMOTE`. -/
def execEmberPromote (ctx : Nat) (env : Envelope) (s : State) : Res :=
  .next (winEmber ctx 0x43 env (fun s => promoteReason s ctx) (emberPromote ctx) s)

/-! The partner (R500 to R503) -/

/-- A frame at a partner: on a session of a context that is a partner with a log. The first frame of a new journal binds it
and discards what an earlier one left; any other frame of another journal or epoch is discarded and counted. -/
def embTake (h : Header) (f : Nat → State → Option State) (s : State) : State :=
  let i := h.opArg % 1024
  let k := (session s i).ctx
  let id := h.opData % 2 ^ 32
  let ep := leAt h.inlineData 0 8
  let drop (s : State) : State := count emberPage Reg.EMBER_STATS2_DISCARDED 1 s
  if !sessionLive s i ∨ 64 ≤ k ∨ emberRole s k ≠ 2 then drop s
  else
    let st := emberState s k
    let bound := (st == 5 || st == 6) && emberId s k == id
    let fresh := (st == 0 || st == 5 || st == 6) && !bound && !(ember s k).past.contains id
    if !bound ∧ !fresh then drop s
    else if bound ∧ emberEpoch s k ≠ ep then drop s
    else
      let s := if bound then s
        else
          let past := if st = 0 then (ember s k).past else addNew (ember s k).past (emberId s k)
          setFlds (pageCtx k) [(Reg.EMBER_STATUS2_JOURNAL_ID, id), (Reg.EMBER_EPOCH, ep), (Reg.EMBER_STATUS_CUT, 0)]
            (setEmberState k 5 (setEmber k { past := past } s))
      match f k s with
      | some t => plrSend i .rsp (reply h 0 0) [] t
      | none => plrSend i .rsp (reply h 2 0) [] s

def countPage (k : Nat) (h : Header) (n : Nat) (s : State) : State :=
  let s := modEmber k (fun e => { e with gotBytes := e.gotBytes + n }) s
  if h.addr % 65536 = 0 then count emberPage Reg.EMBER_STATS_PAGES_RECEIVED 1 s else s

/-- R500: page data: straight to k' before the first commit, to the log after it. A write that does not translate is
recorded as a fault of k' and not taken; a log without room takes nothing. -/
def execEmbData (h : Header) (units : List Unit256) (s : State) : Res :=
  .next (
    let d := unitData units
    let k := (session s (h.opArg % 1024)).ctx
    let direct := emberState s k != 6
    match if direct ∧ k < 64 then unitPas s 84 k 1 (pageParts h.addr d.length) else .ok [] with
    | .error x => accessFailed k x (plainUnit 84 k h.addr d.length 1) none s
    | .ok _ =>
      embTake h (fun k s =>
        if emberState s k = 5 then
          match vwrite 84 k h.addr d s with
          | .ok s => some (countPage k h d.length (accessed 84 k h.addr d.length true s))
          | .error _ => none
        else
          let e := ember s k
          if logBytes s k < e.tail + d.length then none
          else match vwrite 84 k (logBase s k + e.tail) d s with
            | .error _ => none
            | .ok s =>
              let s := accessed 84 k (logBase s k + e.tail) d.length true s
              let ent : EmberEnt := { cut := h.opData / 2 ^ 32 % 2 ^ 32, va := h.addr, off := e.tail, len := d.length }
              let s := setEmber k { e with log := e.log ++ [ent], tail := e.tail + d.length } s
              some (showLog k (countPage k h d.length s))) s)

/-- R501: part of the state block. -/
def execEmbState (h : Header) (units : List Unit256) (s : State) : Res :=
  .next (embTake h (fun k s =>
    let d := unitData units
    some (modEmber k (fun e => { e with
      state := (List.zip (List.range d.length) d).foldl (fun t b => Tab.ins t (h.addr + b.1) b.2) e.state }) s)) s)

/-- R501: the commit record is written once every byte of the cut has come, and the source is told. -/
def execEmbCommit (h : Header) (s : State) : Res :=
  .next (embTake h (fun k s =>
    let e := ember s k
    let n := leAt h.inlineData 8 8
    let m := leAt h.inlineData 16 8
    if e.gotBytes ≠ n ∨ !(List.range m).all (fun j => e.state.any (fun b => b.1 == j)) then none
    else
      let cut := h.opData / 2 ^ 32 % 2 ^ 32
      let s := setEmber k { e with gotBytes := 0, state := [], committed := (List.range m).map (fun j => Tab.get 0 e.state j) } s
      let s := setFld (pageCtx k) Reg.EMBER_STATUS_CUT cut (setEmberState k 6 (count emberPage Reg.EMBER_STATS2_COMMITS 1 s))
      some (plrRequest (h.opArg % 1024) { h with opcode := 0x8B, src := blockNode .ember, dst := blockNode .plarus, len := 0 } [] s)) s)

/-- R501: the acknowledgement completes the point. -/
def execEmbAck (h : Header) (s : State) : Res :=
  .next (
    let i := h.opArg % 1024
    let k := (session s i).ctx
    let e := ember s k
    if !sessionLive s i ∨ 64 ≤ k ∨ emberState s k ≠ 3 ∨ h.opData % 2 ^ 32 ≠ emberId s k ∨ h.opData / 2 ^ 32 % 2 ^ 32 ≠ e.openCut % 2 ^ 32 then s
    else match e.point with
    | none => s
    | some id =>
      let s := plrSend i .rsp (reply h 0 0) [] s
      let s := setEmber k { e with point := none, firstDone := true, synced := [], sentBytes := 0, openCut := e.openCut + 1 } s
      let s := setFld (pageCtx k) Reg.EMBER_STATUS_CUT e.openCut (setEmberState k 2 (count emberPage Reg.EMBER_STATS2_COMMITS 1 s))
      modPass id (fun p => { p with status := 0, computed := true, placed := p.total }) s)

/-- Applies log entries in order; one that does not translate is recorded as a fault of k' and stops the apply. -/
def applyEntries (k : Nat) : List EmberEnt → State → State
  | [], s => s
  | e :: t, s =>
    match rd s 84 k (logBase s k + e.off) e.len with
    | .error x => accessFailed k x.err (plainUnit 84 k x.va x.len 0) none s
    | .ok d =>
      match vwrite 84 k e.va d s with
      | .error x => accessFailed k x (plainUnit 84 k e.va e.len 1) none s
      | .ok s => applyEntries k t (accessed 84 k e.va e.len true (accessed 84 k (logBase s k + e.off) e.len false
          (modEmber k (fun m => { m with log := m.log.drop 1 }) s)))

/-- R501: a partner applies its oldest committed cut. A promotion that waited goes on after the last. -/
def execEmberApply (ctx : Nat) (s : State) : Res :=
  .next (
    match committedLog s ctx with
    | [] => s
    | e :: rest =>
      let n := ((e :: rest).takeWhile (fun x => x.cut == e.cut))
      let s := applyEntries ctx n s
      let s := if (ember s ctx).log.isEmpty then modEmber ctx (fun m => { m with tail := 0 }) s else s
      let s := showLog ctx s
      let s := match pageOp s (pageCtx ctx) with
        | some o => if o.op = 0x13 then opStep (pageCtx ctx) 0 (fld s (pageCtx ctx) Reg.PROGRESS_POSITION + ceilDiv (n.foldl (fun a x => a + x.len) 0) (2 ^ 20)) s else s
        | none => s
      if (ember s ctx).promoting ∧ (committedLog s ctx).isEmpty then promoteEnd ctx s else s)

end Sys2Proof.Machine
end

