-- ==== Sys2Proof/Machine/Checks.lean ====
section
/-! DEFINITION. The checks of a pass whose waits are satisfied (R146 to R151, R160 to R195), in their order, with the
status and locator of the first that fails (R153). -/

namespace Sys2Proof.Machine

/-- A locator (R153): word, lowest bit, structure. -/
def locator (struct word lo : Nat) : Nat := word + lo * 16 + struct * 1024

/-- A check: whether it fails, the status and the `DETAIL`. -/
abbrev Check := Bool × Nat × Nat

/-- The first check that fails. -/
def firstCheck : List Check → Option (Nat × Nat)
  | [] => none
  | c :: t => if c.1 then some c.2 else firstCheck t

/-- A field of a structure's words that must be zero. -/
def mustBeZero (struct : Nat) (w : Nat → Nat) (word hi lo : Nat) : Check := (bits (w word) hi lo != 0, 2, locator struct word lo)

/-! Checks 2 to 5 -/

/-- `BAD_VERSION`. -/
def checkVersion (p : Pass) : List Check :=
  [(bits (p.word 0) 63 56 != 1, 1, locator 0 0 56), (bits (p.word 0) 55 48 != 0, 1, locator 0 0 48)]

/-- `RESERVED_SET` in the pass descriptor, whatever the class (R146). -/
def checkReserved (p : Pass) : List Check :=
  let z := mustBeZero 0 p.word
  (if tst (p.word 0) 19 then [] else [z 0 31 20]) ++ [z 0 47 40] ++
  [2, 3].flatMap (fun i => [z i 6 6, z i 15 8]) ++ [z 4 6 6, z 4 63 8] ++
  [8, 9, 10, 11, 12, 13].flatMap (fun i => [z i 5 1, z i 63 55]) ++
  [z 14 5 0] ++ (if p.histoEn then [] else [z 14 54 6]) ++ [z 14 63 55, z 15 63 0]

/-- A field of `OP_PARAMS`, with the locator of its lowest bit. -/
def paramZero (p : Pass) (hi lo : Nat) : Check := (p.param hi lo != 0, 2, locator 0 (5 + lo / 64) (lo % 64))

/-- Fields of `OP_PARAMS` that are reserved for a class, or whose enable bit is 0 (R161), lowest bit first; a reserved
span is judged word by word. -/
def checkParamsReserved (p : Pass) : List Check :=
  let z := paramZero p
  let on (i : Nat) : Bool := tst p.params i
  let w6 := [z 127 64, z 191 128]
  match p.opclass with
  | 0x01 => [z 31 8] ++ (if on 2 then [] else [z 63 32]) ++ (if on 3 then [] else [z 95 64]) ++ [z 127 96, z 191 128]
  | 0x02 => [z 31 4] ++ (if on 3 then [] else [z 63 32]) ++ (if on 1 then [] else [z 81 64, z 99 82]) ++ [z 127 118, z 191 128]
  | 0x03 => [z 15 4] ++ ((List.range 16).filter (fun t => decide (p.param 3 0 < t))).map (fun t => z (26 + 11 * t) (16 + 11 * t))
  | 0x04 => [z 63 8] ++ w6
  | 0x05 => [z 63 1] ++ w6
  | 0x06 => [z 63 1] ++ w6
  | 0x07 => [z 31 11] ++ w6
  | 0x08 => [z 31 2] ++ w6
  | 0x0B => [z 63 8] ++ w6
  | 0x0C => [z 31 6] ++ w6
  | 0x0D => [z 63 32] ++ w6
  | 0x0E => [z 63 32] ++ w6
  | _ => [z 63 0] ++ w6

/-- `BAD_CLASS`, then what R161 and R174 reserve. -/
def checkClass (p : Pass) : List Check :=
  (p.opclass == 0 || decide (0x10 < p.opclass), 3, locator 0 0 0) :: checkParamsReserved p

/-- Slots 0 to 3 and the constants (slot 5) that a step of a `VECTOR` program names (R174). -/
def stepSlots (p : Pass) (t : Nat) : List Nat :=
  let st := stepOf p t
  let two := decide (1 ≤ st.1 ∧ st.1 ≤ 7) || st.1 == 0x10 || st.1 == 0x11
  let one := decide (8 ≤ st.1 ∧ st.1 ≤ 0xF) || st.1 == 0x13 || st.1 == 0x14
  ((if one || two then [st.2.1] else []) ++ (if two then [st.2.2] else [])).filterMap (fun x =>
    if x < 4 then some x else if x = 6 then some 5 else none)

def namedSlots (p : Pass) : List Nat := (List.range (p.param 3 0 + 1)).flatMap (stepSlots p)

/-- Use of slot i (R160): required, optional, or not used. -/
inductive SlotUse where
  | req | opt | no
deriving DecidableEq, Repr

def slotUse (p : Pass) (i : Nat) : SlotUse :=
  let pick (l : List SlotUse) : SlotUse := l.getD i .no
  match p.opclass with
  | 0x01 => pick [.req, .req, .opt, .opt, .req]
  | 0x02 => pick [.req, .req, .req, if tst p.params 2 then .req else .no, .req, .opt]
  | 0x03 => if i = 4 then .req else if (namedSlots p).contains i then .opt else .no
  | 0x05 => pick [.req, .req, if p.variant = 1 then .opt else .no, .req]
  | 0x06 => pick [.req, .req, .no, .req]
  | 0x07 => pick [.req, .req, .req, .req]
  | 0x08 => pick [.req, .req, .req, .req]
  | 0x0D => pick [.req]
  | 0x0E => pick [.req]
  | 0x0F => .no
  | 0x10 => .no
  | _ => pick [.req, .req]

def Pass.present (p : Pass) (i : Nat) : Bool := tst (p.word (8 + i)) 0

/-- `BAD_OPERAND`. -/
def checkOperands (p : Pass) : List Check :=
  let outs := outSlots p.opclass
  (List.range 6).map (fun i =>
    ((slotUse p i == .req && !p.present i) || (slotUse p i == .no && p.present i), 4, locator 0 (8 + i) 0)) ++
  outs.flatMap (fun i => match p.td i with
    | none => []
    | some t => [(t.hintEn && t.hint == 3, 4, locator (i + 1) 0 4), (t.lastRead, 4, locator (i + 1) 0 7),
        (t.draughtEn, 4, locator (i + 1) 0 8)]) ++
  (if outs.isEmpty then [16, 18, 19].map (fun b => (tst (p.word 0) b, 4, locator 0 0 b)) else [])

/-! Check 6 -/

/-- `RESERVED_SET` in a tensor descriptor (R148). -/
def checkTdReserved (st : Nat) (t : TD) : List Check :=
  let z := mustBeZero st t.w
  [z 0 11 9] ++ (if t.draughtEn then [] else [z 0 23 12]) ++ [z 0 63 24, z 1 63 55] ++
  (if t.mx then [] else [z 2 54 0]) ++ [z 2 63 55, z 3 31 25, z 5 63 48, z 6 63 48] ++
  (if t.mx then [] else [z 7 50 48]) ++ [z 7 63 51]

/-- Formats that a slot's role admits (R162 to R193): a mismatch with an earlier slot is this slot's. -/
def formatOk (p : Pass) (i f : Nat) : Bool :=
  let f0 := match p.td 0 with | some t => t.fmt | none => 0
  let f1 := match p.td 1 with | some t => t.fmt | none => 0
  let target := decide (f ≤ 0xB)
  let known := decide (f ≤ 0xD)
  let fp := decide (f ≤ 4)
  let int := f0 == 0xB && f1 == 0xB
  known && (match p.opclass, i with
  | 0x01, 0 => decide (1 ≤ f) && target
  | 0x01, 1 => (Num.pairMode f0 f).isSome
  | 0x01, 2 => if int then f == 0xC else fp
  | 0x01, 3 => int || fp
  | 0x01, _ => if int then f == 0xC || f == 0xB else target
  | 0x02, 0 => decide (1 ≤ f) && target
  | 0x02, 1 => (Num.pairMode f0 f).isSome
  | 0x02, 2 => decide (1 ≤ f) && decide (f ≤ 0xA)
  | 0x02, 3 => f == 0xB
  | 0x02, 4 => target
  | 0x02, _ => f == 0
  | 0x03, 5 => f == 0
  | 0x03, _ => target
  | 0x04, 0 => decide (f ≤ 0xC)
  | 0x04, _ => target
  | 0x05, 0 => fp || f == 0xB
  | 0x05, 1 => f == 0xC
  | 0x05, 2 => decide (f ≤ 1)
  | 0x05, _ => if p.variant = 1 then target else f == f0
  | 0x06, 0 => target
  | 0x06, 1 => f == 0xC
  | 0x06, _ => (fp || f == 0xB) && f == f0 && (p.variant != 1 || decide (f ≤ 2))
  | 0x07, 0 => f == 0xD
  | 0x07, 1 => decide (f ≤ 2)
  | 0x07, 2 => f == 0xC
  | 0x07, _ => f == 0
  | 0x08, 0 => decide (f ≤ 2) || f == 0xB
  | 0x08, 1 => f == 0xC
  | 0x08, 2 => f == 0xC
  | 0x08, _ => target
  | 0x09, 0 => decide (f ≤ 0xC)
  | 0x09, _ => target
  | 0x0A, 0 => true
  | 0x0A, _ => f == f0
  | 0x0B, 0 => true
  | 0x0B, _ => f == f0
  | 0x0C, 0 => p.param 1 0 == 1 || fp
  | 0x0C, _ => if p.param 1 0 = 1 then f == f0 else target
  | _, _ => decide (f ≤ 2))

/-- `BAD_SHAPE` at a size. -/
def dimCheck (st : Nat) (bad : Bool) (i : Nat) : Check := (bad, 6, locator st (3 + i / 2) (32 * (i % 2)))

/-- A slot's sizes must be these, dimension by dimension; none: any. -/
def sizesAre (st : Nat) (t : TD) (l : List (Option Nat)) : List Check :=
  (List.zip (List.range 4) l).map (fun e => dimCheck st (match e.2 with | some n => t.dim e.1 != n | none => false) e.1)

def dimsOf (t : TD) : List (Option Nat) := (List.range 4).map (fun i => some (t.dim i))

/-- What any shape obeys (R148, R149). -/
def checkShape (st : Nat) (t : TD) (out : Bool) : List Check :=
  [dimCheck st (t.dim 0 == 0 || decide (2 ^ 24 < t.dim 0)) 0] ++ [1, 2, 3].map (fun i => dimCheck st (t.dim i == 0) i) ++
  [dimCheck st (decide (2 ^ 40 ≤ t.rows)) 1, (t.mx && decide (3 < t.scaleDim), 6, locator st 7 48)] ++
  (if !out then []
   else [1, 2, 3].map (fun i => (decide (1 < t.dim i) && t.stride i == 0, 6, locator st (4 + i) 0)) ++
     [(closeRows t.rowBytes (sortNat ((List.range t.rows).map t.rowAddr)), 6, locator st 5 0), (t.rowsOverlap, 6, locator st 2 0)])

/-- A table's rows are 32 to 256 bytes, a multiple of 32 (R178). -/
def tableCheck (st : Nat) (t : TD) : Check :=
  let n := t.dim 0 * t.width
  dimCheck st (n % 256 != 0 || n == 0 || decide (2048 < n)) 0

/-- An MX operand's blocks must run along dimension d. -/
def alongK (st : Nat) (t : TD) (d : Nat) : Check := (t.mx && t.scaleDim != d, 6, locator st 7 48)

/-- The group entry of a COLLECTIVE, when the context may use it (R424). -/
def groupOf (s : State) (p : Pass) : Option Group :=
  let g := p.param 47 32
  let e := Tab.get {} s.plr.groups g
  let bound := (List.range (e.size + 1)).all (fun r => r == e.rank ||
    (let i := Tab.get 0 s.plr.groupMap (g * 1024 + r); (session s i).st != 0 && (session s i).ctx == p.ctx))
  if e.valid && e.ctx == p.ctx && bound then some e else none

/-- The sizes that a class asks of slot i (R166 to R193). -/
def classShape (s : State) (p : Pass) (i : Nat) (t : TD) : List Check :=
  let st := i + 1
  let td (j : Nat) : TD := (p.td j).getD ⟨[]⟩
  let one : Option Nat := some 1
  let is := sizesAre st t
  match p.opclass, i with
  | 0x01, 0 =>
    let kd := p.param 0 0
    [alongK st t kd, dimCheck st (decide ((if t.fmt = 9 then 2 ^ 24 else 2 ^ 23) < t.dim kd)) kd]
  | 0x01, 1 =>
    let kd := 1 - p.param 1 1
    let k := (td 0).dim (p.param 0 0)
    [alongK st t kd, dimCheck st (t.dim kd != k) kd,
      dimCheck st (decide ((if (td 0).fmt = 9 ∧ t.fmt = 9 then 2 ^ 24 else 2 ^ 23) < k)) kd]
  | 0x01, 2 => is [some ((td 1).dim (p.param 1 1)), one, none, none]
  | 0x01, 3 => []
  | 0x01, _ =>
    let inputs := ([0, 1, 2].filter p.present).map td
    is [some ((td 1).dim (p.param 1 1)), some ((td 0).dim (1 - p.param 0 0)), none, none] ++
    [2, 3].map (fun d => dimCheck st (inputs.any (fun x => x.dim d != t.dim d)) d) ++
    (if p.present 3 then is (dimsOf (td 3)) else [])
  | 0x02, 0 => [alongK st t 0, dimCheck st (decide (256 < t.dim 0)) 0, dimCheck st (decide (262144 < t.dim 1)) 1]
  | 0x02, 1 => alongK st t 0 :: is [some ((td 0).dim 0), none, none, none] ++
      [dimCheck st (decide (262144 < t.dim 1)) 1, dimCheck st ((td 0).dim 2 % t.dim 2 != 0) 2, dimCheck st (t.dim 3 != (td 0).dim 3) 3]
  | 0x02, 2 => [alongK st t 1, dimCheck st (decide (256 < t.dim 0)) 0] ++
      is [none, some ((td 1).dim 1), some ((td 1).dim 2), some ((td 1).dim 3)]
  | 0x02, 3 => is [some (ceilDiv ((td 1).dim 1) 128), some (ceilDiv ((td 0).dim 1) 128), some ((td 0).dim 2), some ((td 0).dim 3)]
  | 0x02, 4 => is [some ((td 2).dim 0), some ((td 0).dim 1), some ((td 0).dim 2), some ((td 0).dim 3)]
  | 0x02, _ => is [some ((td 0).dim 1), some ((td 0).dim 2), some ((td 0).dim 3), one]
  | 0x03, 4 => (List.range 4).map (fun d => dimCheck st (([0, 1, 2, 3].filter p.present).any (fun j => (td j).dim d != t.dim d)) d)
  | 0x03, 5 => is [some 16, one, one, one]
  | 0x03, _ => []
  | 0x04, 0 => []
  | 0x04, _ => is ((List.range 4).map (fun d => some (if tst (p.param 7 4) d then 1 else (td 0).dim d)))
  | 0x05, 0 => [tableCheck st t] ++ is [none, none, one, one]
  | 0x05, 1 => is [none, if p.variant = 1 then none else one, one, one]
  | 0x05, 2 => is (dimsOf (td 1))
  | 0x05, _ => is [some ((td 0).dim 0), some ((td 1).dim (if p.variant = 1 then 1 else 0)), one, one]
  | 0x06, 0 => is [none, none, one, one]
  | 0x06, 1 => is [some ((td 0).dim 1), one, one, one]
  | 0x06, _ => is [some ((td 0).dim 0), none, none, none] ++ [tableCheck st t] ++ is [none, none, one, one]
  | 0x07, 0 => is [none, none, one, one]
  | 0x07, 1 => is [some 2, some ((td 0).dim 1), one, one]
  | 0x07, 2 => is [some ((td 0).dim 1), one, one, one]
  | 0x07, _ => is [some ((if tst p.params 9 then 3 else 2) * p.param 8 0), some ((td 0).dim 0), none, none] ++
      [dimCheck st (decide (2 ^ 20 < t.dim 2)) 2] ++ is [none, none, none, one]
  | 0x08, 0 => is [none, none, one, one]
  | 0x08, 1 => is [some 4, none, none, none] ++ [dimCheck st (decide (2 ^ 26 < t.dim 1)) 1] ++ is [none, none, one, one]
  | 0x08, 2 => [dimCheck st (decide (65536 < t.dim 0)) 0] ++ is [none, one, one, one]
  | 0x08, _ => [dimCheck st (decide (64 < t.dim 0)) 0] ++ is [none, some ((td 0).dim 1), one, one]
  | 0x09, 0 => []
  | 0x09, _ => is (dimsOf (td 0))
  | 0x0A, 0 => []
  | 0x0A, _ => is (dimsOf (td 0)) ++ [alongK st t (td 0).scaleDim]
  | 0x0B, 0 => []
  | 0x0B, _ => is ((List.range 4).map (fun d => some ((td 0).dim (permOf p d)))) ++
      [(t.mx && permOf p t.scaleDim != (td 0).scaleDim, 6, locator st 7 48)]
  | 0x0C, 0 =>
    match groupOf s p with
    | some g => [dimCheck st (p.param 1 0 == 2 && t.dim (p.param 5 4) % (g.size + 1) != 0) (p.param 5 4)]
    | none => []
  | 0x0C, _ =>
    is ((List.range 4).map (fun d =>
      let n := (td 0).dim d
      if p.param 1 0 = 0 ∨ d ≠ p.param 5 4 then some n
      else match groupOf s p with
        | none => none
        | some g => some (if p.param 1 0 = 1 then n * (g.size + 1) else n / (g.size + 1)))) ++
      (if p.param 1 0 = 1 then [alongK st t (td 0).scaleDim] else [])
  | 0x0D, _ =>
    let n := t.dim 0 * t.rows
    let e := match roundOfHandle s (p.param 31 0) with
      | some i => n != polElements (kround s i).policy
      | none => false
    [dimCheck st (decide (2 ^ 35 < n * t.width) || e) 0]
  | 0x0E, _ =>
    match roundOfHandle s (p.param 31 0) with
    | some i => [dimCheck st (t.dim 0 * t.rows != polElements (kround s i).policy) 0]
    | none => []
  | _, _ => []

/-- `BAD_ALIGN` (R148). -/
def checkAlign (st : Nat) (t : TD) : List Check :=
  [(t.base % 32 != 0, 7, locator st 1 0), (t.mx && t.scaleBase % 32 != 0, 7, locator st 2 0)] ++
  [1, 2, 3].map (fun i => (t.stride i % 32 != 0, 7, locator st (4 + i) 0))

/-- Check 6 on one slot. -/
def checkSlot (s : State) (p : Pass) (i : Nat) : Option (Nat × Nat) :=
  match p.td i with
  | none => none
  | some t =>
    let st := i + 1
    (firstCheck (checkTdReserved st t ++ [(!formatOk p i t.fmt, 5, locator st 0 0)])).or
      ((firstCheck (checkShape st t ((outSlots p.opclass).contains i))).or
        ((firstCheck (classShape s p i t)).or (firstCheck (checkAlign st t))))

/-! Checks 7 and 8 -/

/-- The byte ranges of a structure: slot i as i + 1, the histogram area as 7. -/
def structExtents (p : Pass) (j : Nat) : List (Nat × Nat) :=
  if j = 7 then (if p.histoEn then [(bits (p.word 14) 54 6 * 64, bits (p.word 14) 54 6 * 64 + 288)] else [])
  else match p.td (j - 1) with
    | some t => t.extents
    | none => []

/-- `OVERLAP` (R150). -/
def checkOverlap (p : Pass) : List Check :=
  let outs := (outSlots p.opclass).map (· + 1)
  [1, 2, 3, 4, 5, 6, 7].flatMap (fun a => [1, 2, 3, 4, 5, 6, 7].filterMap (fun b =>
    if b ≤ a ∨ !(outs.contains a || outs.contains b || b == 7) then none
    else some ((structExtents p a).any (fun x => (structExtents p b).any (fun y => decide (x.1 < y.2) && decide (y.1 < x.2))),
      8, a + 8 * b)))

/-- `OP_PARAMS` at a bit. -/
def paramBad (bad : Bool) (lo : Nat) : Check := (bad, 9, locator 0 (5 + lo / 64) (lo % 64))

/-- A step of a `VECTOR` program that is refused (R174, R175). -/
def stepBad (p : Pass) (t : Nat) : Bool :=
  let st := stepOf p t
  st.1 == 0 || decide (0x15 ≤ st.1) || (stepSlots p t).any (fun i => !p.present i) ||
  (st.1 == 0xF && (st.2.2 == 0 || st.2.2 == 7)) || (st.1 == 0x12 && (st.2.1 != 0 || st.2.2 != 0))

/-- A `KILN_PUT` that is refused (R192). -/
def kilnPutBad (s : State) (p : Pass) : Bool :=
  match roundOfHandle s (p.param 31 0) with
  | none => true
  | some i =>
    let r := kround s i
    match localHub s r.policy with
    | none => true
    | some h =>
      match (hubParties r.policy h).find? (fun e => e.2.ctx == p.ctx) with
      | none => true
      | some e => !isSealed s p.ctx || r.st != 1 || !e.2.contributes || tst r.counted e.1 ||
          (kilnQueue s (i / 32)).any (fun c => c.slot == i && (match c.pass.bind (pass s) with
            | some q => q.ctx == p.ctx && q.id != p.id
            | none => false))

/-- A `KILN_TAKE` that is refused (R193). -/
def kilnTakeBad (s : State) (p : Pass) : Bool :=
  match roundOfHandle s (p.param 31 0) with
  | none => true
  | some i =>
    let r := kround s i
    match localHub s r.policy with
    | none => true
    | some h => r.st != 4 || !(hubParties r.policy h).any (fun e => e.2.ctx == p.ctx && e.2.targeted)

/-- `BAD_PARAM`. -/
def checkParams (s : State) (p : Pass) : List Check :=
  let f0 := match p.td 0 with | some t => t.fmt | none => 0
  let f1 := match p.td 1 with | some t => t.fmt | none => 0
  let int := f0 == 0xB && f1 == 0xB
  let c := p.opclass
  let bitwise := c == 0xA || c == 0xB || (c == 5 && p.variant == 0) || c == 6 || (c == 0xC && p.param 1 0 == 1)
  let on (i : Nat) : Bool := tst p.params i
  [(decide ((if c = 5 ∨ c = 6 then 1 else 0) < p.variant), 9, locator 0 0 8), (bitwise && tst (p.word 0) 19, 9, locator 0 0 19)] ++
  (match c with
  | 0x01 =>
    if int then [paramBad (on 2) 2, paramBad (on 3) 3, paramBad (decide (1 < p.param 7 4)) 4, (p.present 3, 9, locator 0 11 0)]
    else [paramBad (on 3 && !p.present 3) 3, paramBad (decide (6 < p.param 7 4)) 4]
  | 0x03 => (List.range (p.param 3 0 + 1)).map (fun t => paramBad (stepBad p t) (16 + 11 * t))
  | 0x04 => [paramBad (decide (5 < p.param 3 0)) 0, paramBad (p.param 7 4 == 0) 4]
  | 0x06 => [paramBad (on 0) 0]
  | 0x07 => [paramBad (p.param 8 0 == 0 || decide (256 < p.param 8 0)) 0]
  | 0x08 => [paramBad (p.param 1 0 == 3) 0]
  | 0x0B => [paramBad (!(List.range 4).all (fun d => (List.range 4).any (fun e => permOf p e == d))) 0]
  | 0x0C => [paramBad (p.param 1 0 == 3) 0, paramBad (p.param 3 2 == 3 || (p.param 1 0 == 1 && p.param 3 2 != 0)) 2,
      paramBad (groupOf s p).isNone 32]
  | 0x0D => [paramBad (kilnPutBad s p) 0]
  | 0x0E => [paramBad (kilnTakeBad s p) 0]
  | 0x10 => [(emberState s p.ctx == 0 || decide (4 < emberState s p.ctx), 9, locator 0 0 0)]
  | _ => []) ++
  (if bitwise then (List.range 6).filterMap (fun i => if (outSlots c).contains i then none
      else (p.td i).map (fun t => (t.draughtEn, 9, locator (i + 1) 0 8))) else [])

/-- The checks 2 to 8 of R151: status and `DETAIL` of the first that fails. -/
def checkPass (s : State) (p : Pass) : Option (Nat × Nat) :=
  (firstCheck (checkVersion p ++ checkReserved p ++ checkClass p)).or
    ((firstCheck (checkOperands p)).or
      (((List.range 6).findSome? (checkSlot s p)).or
        ((firstCheck (checkOverlap p)).or (firstCheck (checkParams s p)))))

end Sys2Proof.Machine
end

