-- ==== Sys2Proof/Machine/Time.lean ====
section
/-! DEFINITION. The timebase, PTP, and time sent to the blocks, guests and pins (R427 to R436, R439). -/

namespace Sys2Proof.Machine

def timePage : Nat := 0x005

/-- Ports whose PTP engine runs: enabled, with link. -/
def portUp (s : State) (p : Nat) : Bool := flag s (pagePort p) Reg.PORT_STATUS_UP
def ptpPort (s : State) (p : Nat) : Bool := decide (p < 48) && portUp s p && flag s (pagePort p) Reg.PORT_CFG_PTP_EN
def ptpRole (s : State) (p : Nat) : Nat := fld s (pagePort p) Reg.PORT_STATUS_PTP_ROLE

/-- A PTP slave port exists. -/
def hasSlave (s : State) : Bool := (List.range 48).any (fun p => ptpPort s p && ptpRole s p == 2)

/-- The source in use (R428). -/
def activeSource (s : State) : Nat :=
  let c := fld s timePage Reg.TB_CTRL_SOURCE
  if 1 ≤ c ∧ c ≤ 5 then c else if s.time.pps ∧ s.time.ref then 1 else if hasSlave s then 4 else 5

/-- The source in use has a signal. -/
def sourcePresent (s : State) : Bool :=
  match activeSource s with
  | 1 => s.time.pps && s.time.ref
  | 2 => s.time.pps
  | 3 => s.time.ref
  | 4 => hasSlave s
  | _ => false

/-- Corrections are held: `FREEZE` or `OVERRIDE` (R429). -/
def timeHeld (s : State) : Bool := flag s timePage Reg.TB_CTRL_FREEZE || flag s timePage Reg.TB_OVR_OVERRIDE

/-- The state reported (R429). -/
def timeState (s : State) : Nat :=
  if flag s timePage Reg.TB_OVR_OVERRIDE then 3
  else if s.time.st = 2 ∧ flag s timePage Reg.TB_CTRL_FREEZE then 3 else s.time.st

/-- `CLOCK_CLASS` (R431). -/
def clockClass (s : State) : Nat :=
  let pins := s.time.held == 1 || s.time.held == 2
  if !flag s timePage Reg.TB_CTRL_GM_CAPABLE then 255
  else if timeState s = 2 ∧ pins then 6 else if timeState s = 3 ∧ pins then 7 else 248

/-- The registers that show the timebase; a state change raises bit 0 (R439). -/
def showTime (s : State) : State :=
  let t := timeState s
  let was := fld s timePage Reg.TB_STATE_STATE
  let s := setFlds timePage [(Reg.TB_STATE_STATE, t), (Reg.TB_STATE_ACTIVE_SOURCE, activeSource s), (Reg.TB_STATE_CLOCK_CLASS, clockClass s)] s
  let s := if flag s timePage Reg.TB_OVR_OVERRIDE then setFld timePage Reg.TB_ADJ_FREQ_PPB (fld s timePage Reg.TB_OVR_FREQ_PPB) s else s
  if t = was then s else raiseSrc timePage 0 s

def setTimeSt (n : Nat) (s : State) : State := showTime { s with time := { s.time with st := n } }

/-- A source has come or gone: what does not wait 2 s (R429). -/
def sourceChange (s : State) : State :=
  let here := sourcePresent s
  match s.time.st with
  | 0 => if here then setTimeSt 1 s else showTime s
  | 1 => if here then showTime s else setTimeSt (if s.time.held = 0 then 0 else 3) s
  | 3 => if here then setTimeSt 1 s else showTime s
  | _ => showTime s

/-- The timebase moved by a signed number of 1/65,536 ns; it does not pass below 0. -/
def addTime (d : Int) (s : State) : State :=
  let t := ((((s.time.sec * 10 ^ 9 + s.time.ns) * 65536 + s.time.frac : Nat) : Int) + d).toNat
  { s with time := { s.time with frac := t % 65536, ns := t / 65536 % 10 ^ 9, sec := t / 65536 / 10 ^ 9 % 2 ^ 48 } }

/-- Blocks that keep local copies (R433). -/
def timeCopies : List Nat := [blockNode .plarus, blockNode .host] ++ (List.range 8).map (fun n => blockNode (.site n))

/-- Sends every copy a time message. -/
def sendTime (op : Nat) (arg data : Nat) (s : State) : State :=
  timeCopies.foldl (fun s n => request { ctx := 0, prio := 7, opcode := op, dst := n, src := blockNode .timebase, noResp := true, opArg := arg, opData := data } [] s) s

/-- A step of the timebase (R430): counted, reported, told to the copies; RTT samples that span it are discarded. -/
def stepTime (d : Int) (s : State) : State :=
  let s := raiseSrc timePage 1 (count timePage Reg.TB_COUNTS_STEPS 1 (addTime d s))
  let s := { s with
    time := { s.time with stepDue := none, stepped := List.range 8 }
    plr := { s.plr with sessions := s.plr.sessions.map (fun e =>
      (e.1, { e.2 with unacked := e.2.unacked.map (fun p => { p with stepped := true }) })) } }
  sendTime 0xA9 0 (tc 64 d) (setFld timePage Reg.TB_STATE_OFFSET_PS 0 s)

/-- A phase error of the source in use, in ps, the timebase minus the source (R430): a step is due, or a slew corrects it.
The frequency correction the loop settles on is free within its 100 ppm. -/
def phaseError (e : Int) (s : State) : State :=
  let s := setFld timePage Reg.TB_STATE_OFFSET_PS (tc 32 (clampI (-(2 ^ 31)) (2 ^ 31 - 1) e)) s
  if timeHeld s then s
  else
    let big := 1000000 < e ∨ e < -1000000
    if big ∧ s.time.st = 2 then { s with time := { s.time with jumped := true } }
    else if big then { s with time := { s.time with stepDue := some (-(e * 65536 / 1000)) } }
    else
      let s := addTime (-(e * 65536 / 1000)) { s with time := { s.time with jumped := false, stepDue := none } }
      drew (setFld timePage Reg.TB_ADJ_FREQ_PPB (tc 32 (clampI (-100000) 100000 (Config.ulpOffset (drawn s) 0 0))) s)

/-- R428: an edge of `PPS_IN`; `rawPs` is the timebase's phase at the edge, which is taken later by `PPS_IN_DELAY_NS`. -/
def execPpsInEdge (rawPs : Int) (s : State) : Res :=
  .next (
    let s := sourceChange { s with time := { s.time with pps := true } }
    if activeSource s = 1 ∨ activeSource s = 2 then
      phaseError (rawPs + 1000 * sext 32 (fld s timePage Reg.PPS_CFG_PPS_IN_DELAY_NS)) s
    else s)

/-- R428: an edge does not come in time: it is counted, and the pin has no signal until the next. -/
def execPpsMissed (s : State) : Res :=
  .next (
    let s := raiseSrc timePage 2 (count timePage Reg.TB_COUNTS_PPS_MISSED 1 s)
    let t := { s with time := { s.time with pps := false } }
    if s.time.st = 2 then showTime t else sourceChange t)

/-- R429: `REF10M_IN` gains or loses its signal. -/
def execRef10mInChange (present : Bool) (s : State) : Res :=
  .next (
    let t := { s with time := { s.time with ref := present } }
    if s.time.st = 2 then showTime t else sourceChange t)

/-- R429: the source of a locked timebase has been absent for 2 s. -/
def execHoldoverEntry (s : State) : Res := .next (if s.time.st = 2 ∧ sourcePresent s = false then setTimeSt 3 s else s)

/-- R429: the phase error has stayed within 20 ns for 10 s. -/
def execLockAchieved (s : State) : Res :=
  .next (
    let e := sext 32 (fld s timePage Reg.TB_STATE_OFFSET_PS)
    if s.time.st = 1 ∧ sourcePresent s ∧ !timeHeld s ∧ -20000 ≤ e ∧ e ≤ 20000 then
      setTimeSt 2 { s with time := { s.time with held := activeSource s } }
    else s)

/-- R430: a phase jump has persisted for 4 s. -/
def execPhaseJump (s : State) : Res :=
  .next (if s.time.st = 2 ∧ s.time.jumped then setTimeSt 1 { s with time := { s.time with jumped := false } } else s)

/-- R430: a step that is due is made at the source's second boundary. -/
def execTimebaseStep (s : State) : Res :=
  .next (match s.time.stepDue with
    | none => s
    | some d => if s.time.st = 1 ∧ !timeHeld s then stepTime d s else s)

/-- R433: the next second begins, and the copies are told. -/
def execTimeEpoch (s : State) : Res :=
  .next (
    let s := { s with time := { s.time with sec := (s.time.sec + 1) % 2 ^ 48, ns := 0, frac := 0 } }
    sendTime 0xA8 0 s.time.sec s)

/-- R428: the seconds value comes from `TB_SET` under the source in use. -/
def secondsFromSet (s : State) : Bool :=
  match activeSource s with
  | 1 => !hasSlave s
  | 2 => !hasSlave s
  | 4 => false
  | _ => true

/-- `TB_SET` (R428, R430): a step to the value written; it holds the low 34 bits of the seconds. -/
def tbSet (ns sec : Nat) (s : State) : State :=
  if !secondsFromSet s then opRefused timePage s
  else
    let now : Nat := (s.time.sec * 10 ^ 9 + s.time.ns) * 65536 + s.time.frac
    let goal : Nat := ((s.time.sec / 2 ^ 34 * 2 ^ 34 + sec % 2 ^ 34) * 10 ^ 9 + ns % 2 ^ 30) * 65536
    stepTime ((goal : Int) - (now : Int)) s

/-- R428: a write of `TB_SET`. -/
def execTbSet (ns sec : Nat) (s : State) : Res := .next (tbSet ns sec s)

/-- `TB_CAPTURE.GO` (R439). -/
def tbCapture (s : State) : State :=
  setFlds timePage [(Reg.TB_CAP0_NS, s.time.ns), (Reg.TB_CAP0_SEC, s.time.sec % 2 ^ 34), (Reg.TB_CAP1_SEC_HI, s.time.sec / 2 ^ 34),
    (Reg.TB_CAP1_FRAC, s.time.frac)] s

/-- R439: a capture. -/
def execTbCapture (s : State) : Res := .next (tbCapture s)

/-- R429: a write of `TB_CTRL.SOURCE` leads to `ACQUIRING` or `FREE_RUN`. -/
def tbSource (c : Nat) (s : State) : State :=
  let s := setFld timePage Reg.TB_CTRL_SOURCE c s
  let s := { s with time := { s.time with held := 0, stepDue := none, jumped := false } }
  setTimeSt (if sourcePresent s then 1 else 0) s

/-- R429: the command. -/
def execTbSourceWrite (source : Nat) (s : State) : Res := .next (tbSource (source % 8) s)

/-! PTP (R431, R432) -/

/-- Two data sets compared field by field. -/
def betterSet : List Nat → List Nat → Bool
  | [], _ => false
  | _, [] => false
  | a :: t, b :: u => decide (a < b) || (a == b && betterSet t u)

/-- The hub's own data set. Its accuracy and variance, which R431 does not give, are those of an unknown clock. -/
def ownSet (s : State) : List Nat :=
  [fld s timePage Reg.TB_CTRL_PRIORITY1, clockClass s, 0xFE, 0xFFFF, fld s timePage Reg.TB_CTRL_PRIORITY2, fld s plarusPage Reg.PLR_ADDR_MAC]

/-- The best announced set and its port. -/
def bestMaster (s : State) : Option (Nat × List Nat) :=
  (s.time.masters.filter (fun e => ptpPort s e.1)).foldl (fun b e =>
    match b with
    | none => some e
    | some c => if betterSet e.2 c.2 then some e else some c) none

/-- A port's role; a change sets bit 1 of its page. -/
def setRole (p n : Nat) (s : State) : State :=
  if ptpRole s p = n then s else raiseSrc (pagePort p) 1 (setFld (pagePort p) Reg.PORT_STATUS_PTP_ROLE n s)

/-- The best master clock algorithm (R431). -/
def chooseRoles (s : State) : State :=
  let own := ownSet s
  let s := match bestMaster s with
    | none => (List.range 48).foldl (fun s p => if !ptpPort s p then setRole p 0 s
        else setRole p (if flag s timePage Reg.TB_CTRL_GM_CAPABLE then 1 else 4) s) s
    | some (bp, best) =>
      let win := flag s timePage Reg.TB_CTRL_GM_CAPABLE && betterSet own best
      (List.range 48).foldl (fun s p =>
        if !ptpPort s p then setRole p 0 s
        else if win then setRole p 1 s
        else if p = bp then setRole p 2 s
        else setRole p (if Tab.get [] s.time.masters p = best then 3 else 1) s) s
  if s.time.st = 2 then showTime s else sourceChange s

/-- A port's PTP engine starts or stops: a port that comes up listens, one that goes down forgets its master (R436). -/
def ptpChange (p : Nat) (s : State) : State :=
  if ptpPort s p then (if ptpRole s p = 0 then setRole p 4 s else s)
  else chooseRoles { s with time := { s.time with masters := Tab.del s.time.masters p } }

/-- The present time as 10 bytes of a PTP timestamp: seconds, then nanoseconds, most significant first. -/
def ptpStamp (s : State) : List Byte := (leBytes 6 s.time.sec).reverse ++ (leBytes 4 s.time.ns).reverse

/-- R431: a PTP message reaches a port's engine: its domain, whether it came over Ethernet, the message.
PTP stops while XCLK does (R479). -/
def ptpMessage (p domain : Nat) (l2 : Bool) (m : PtpMsg) (s : State) : State :=
  let pg := pagePort p
  if isDown s (blockNode .plarus) ∨ !ptpPort s p ∨ domain ≠ fld s timePage Reg.TB_CTRL_DOMAIN ∨ l2 ≠ flag s pg Reg.PORT_CFG_PTP_L2 then s
  else
    let peer := flag s pg Reg.PORT_CFG_PTP_DELAY
    match m with
    | .announce d => chooseRoles { s with time := { s.time with masters := Tab.put [] s.time.masters p d } }
    | .sync off path =>
      if ptpRole s p ≠ 2 then s
      else
        let s := setFlds pg [(Reg.PTP_OFFSET_OFFSET_PS, tc 32 (clampI (-(2 ^ 31)) (2 ^ 31 - 1) off)), (Reg.PTP_OFFSET_PATH_PS, path)] s
        if activeSource s = 4 then phaseError off s else s
    | .delayReq => if ptpRole s p = 1 ∧ !peer then emit (.frame p (leBytes 1 9 ++ ptpStamp s)) s else s
    | .delayResp path => if ptpRole s p = 2 ∧ !peer then setFld pg Reg.PTP_OFFSET_PATH_PS path s else s
    | .pdelayReq => if peer then emit (.frame p (leBytes 1 3 ++ ptpStamp s)) s else s
    | .pdelayResp path => if peer then setFld pg Reg.PTP_OFFSET_PATH_PS path s else s
    | .other => s

/-- R431: the command. -/
def execPtpMessage (port domain : Nat) (l2 : Bool) (msg : PtpMsg) (s : State) : Res := .next (ptpMessage port domain l2 msg s)

/-- R431: a master port sends its one-step `Sync`. -/
def execPtpSyncTimer (port : Nat) (s : State) : Res :=
  .next (if ptpPort s port ∧ ptpRole s port = 1 then emit (.frame port (leBytes 1 0 ++ ptpStamp s)) s else s)

/-! Guests and pins (R434, R435) -/

/-- R434: the 128-bit time message of a site in `RUN`. -/
def execGuestTimeMessage (site : Nat) (s : State) : Res :=
  .next (
    if 8 ≤ site ∨ siteLink s site ≠ 5 then s
    else
      let w := s.time.sec + s.time.ns * 2 ^ 48 + s.time.frac * 2 ^ 78 + b2n (decide (2 ≤ timeState s)) * 2 ^ 94 +
        b2n (s.time.stepped.contains site) * 2 ^ 95
      emit (.kpp site 0x103 [w] []) { s with time := { s.time with stepped := s.time.stepped.filter (· != site) } })

/-- Pins of time (R435): `PPS_OUT` 5. -/
def pinPpsOut : Nat := 5

/-- R435: `PPS_OUT` rises at a second boundary, or falls after its pulse. -/
def execPpsOutPulse (high : Bool) (s : State) : Res :=
  .next (
    let on := high && flag s timePage Reg.PPS_CFG_PPS_OUT_EN
    if on = s.time.ppsHigh then s else setPin pinPpsOut on { s with time := { s.time with ppsHigh := on } })

end Sys2Proof.Machine
end

