-- ==== Sys2Proof/Machine/PlarusCmds.lean ====
section
/-! DEFINITION. The commands of the Plarus block: ports, packets, handshakes, timers, remote access, groups (R406 to
R424). -/

namespace Sys2Proof.Machine

/-! Ports (R406 to R408) -/

/-- Lanes a mode uses, as a map. -/
def modeLanes (mode : Nat) : Nat := if mode = 1 ∨ mode = 2 then 15 else if mode = 3 ∨ mode = 4 then 3 else if mode = 5 ∨ mode = 6 then 1 else 0

/-- The link of a port goes down; a change is reported. -/
def portDown (p : Nat) (s : State) : State :=
  let was := portUp s p
  let s := setFlds (pagePort p) [(Reg.PORT_STATUS_UP, 0), (Reg.PORT_STATUS_LANES_UP, 0)] s
  if was then ptpChange p (raiseSrc (pagePort p) 0 s) else s

/-- R406: `PORT_CFG.MODE`. A change of mode takes the link down. -/
def portMode (p mode : Nat) (s : State) : State :=
  if mode = 7 then opRefused (pagePort p) s
  else if fld s (pagePort p) Reg.PORT_CFG_MODE = mode then s
  else portDown p (setFld (pagePort p) Reg.PORT_CFG_MODE mode s)

/-- R406: a write of the mode. -/
def execPortModeWrite (port mode : Nat) (s : State) : Res := .next (if 48 ≤ port then s else portMode port (mode % 8) s)

/-- R408: a port loses link. -/
def execPortLinkDown (port : Nat) (s : State) : Res := .next (if 48 ≤ port then s else portDown port s)

/-- R408: a port's link comes up: training has given its taps, it rejoins its sets, a retrain ends. -/
def execPortLinkUp (port : Nat) (s : State) : Res :=
  .next (
    let pg := pagePort port
    let m := fld s pg Reg.PORT_CFG_MODE
    if 48 ≤ port ∨ modeLanes m = 0 ∨ portUp s port then s
    else
      let lanes := setBits (modeLanes m) 4
      let s := { s with plr := { s.plr with
        removed := s.plr.removed.filter (· != port)
        taps := lanes.foldl (fun t l => Tab.put 0 t (4 * port + l) (Config.freeNat (drawn s + l) % 2 ^ 18)) s.plr.taps
        margins := lanes.foldl (fun t l => Tab.put 0 t (4 * port + l) (Config.freeNat (drawn s + 4 + l) % 2 ^ 8)) s.plr.margins } }
      let s := { s with fresh := s.fresh + 8 }
      let s := setFlds pg [(Reg.PORT_STATUS_UP, 1), (Reg.PORT_STATUS_LANES_UP, modeLanes m), (Reg.PORT_STATUS_RETRAINING, 0)] s
      let s := ptpChange port (raiseSrc pg 0 s)
      match pageOp s pg with
      | some o => if o.op = 5 ∧ !o.queued then opEnd pg 3 s else s
      | none => s)

/-- R408: operation 0x05: the port leaves every forwarding set and drains. A disabled port has no link to train. -/
def execPortRetrain (port : Nat) (s : State) : Res :=
  .next (
    let pg := pagePort port
    if 48 ≤ port then s
    else if (pageOp s pg).isSome then opRefused pg s
    else
      let s := opRun pg 5 0 s
      if fld s pg Reg.PORT_CFG_MODE = 0 then opEnd pg 4 s
      else { s with plr := { s.plr with removed := addNew s.plr.removed port } })

/-- R408: the egress queues are empty, or 100 us have passed with frames left: those are dropped. -/
def execRetrainDrainDone (port left : Nat) (s : State) : Res :=
  .next (
    let pg := pagePort port
    if 48 ≤ port ∨ flag s pg Reg.PORT_STATUS_RETRAINING then s
    else match pageOp s pg with
    | some o =>
      if o.op ≠ 5 ∨ o.queued then s
      else portDown port (setFld pg Reg.PORT_STATUS_RETRAINING 1 (count pg Reg.PORT_COUNTS_DROPS left s))
    | none => s)

/-! Remote access (R423) -/

/-- What a peer's remote access answers: the status, or the translation fault it stalls on. -/
inductive RemoteFate where
  | answer (status : Nat) (data : List Byte) (s : State)
  | stalled (s : State)

/-- Reads the sectors of a granule that a mask names, zeros elsewhere. -/
def readGranule (s : State) (k base mask : Nat) : Except UnitErr (List Byte) :=
  match mapE (fun j => if tst mask j then rd s 81 k (base + 32 * j) 32 else .ok (List.replicate 32 0)) (List.range 8) with
  | .error e => .error e
  | .ok l => .ok l.flatten

/-- The writes of bytes under enables (none: all). -/
def enabledWrites (base : Nat) (data : List Byte) (en : Option (List Bool)) : List (Nat × List Byte) :=
  match en with
  | none => [(base, data)]
  | some en => ((List.zip (List.range data.length) (List.zip data en)).filter (fun e => e.2.2)).map (fun e => (base + e.1, [e.2.1]))

/-- A failed access of the block under context k: what it answers, or that it stalls. -/
def remoteFailed (i k : Nat) (e : UnitErr) (s : State) : RemoteFate :=
  let t := accessFailed k e.err (plainUnit 81 i e.va e.len e.access) none s
  match e.err with
  | .xlate .. => .stalled t
  | .held | .agents .. => .stalled t
  | .owner _ => .answer 3 [] t
  | .data _ => .answer 4 [] t

/-- The access a peer asks for, made under the session's context (R423). -/
def remoteAccess (i : Nat) (h : Header) (units : List Unit256) (s : State) : RemoteFate :=
  let k := (session s i).ctx
  let g := h.addr / 256 * 256
  let sec := h.addr / 32 * 32
  let u := units.headD {}
  let reads (r : Except UnitErr (List Byte)) (secs : List Nat) : RemoteFate :=
    match r with
    | .ok d => .answer 0 d (secs.foldl (fun s a => accessed 81 k a 32 false s) s)
    | .error e => remoteFailed i k e s
  let writes (l : List (Nat × List Byte)) : RemoteFate :=
    match writeUnits 81 k l s with
    | .ok s => .answer 0 [] s
    | .error e => remoteFailed i k e s
  match h.opcode with
  | 0x70 => reads (readGranule s k g (h.opData % 256))
      (((List.range 8).filter (tst h.opData)).map (fun j => g + 32 * j))
  | 0x71 => writes (enabledWrites g (slice u.bytes 0 256) u.be)
  | 0x72 => reads (rd s 81 k sec 32) [sec]
  | _ => writes (enabledWrites sec (slice h.inlineData 0 32) (some (narrowEnables h)))

/-- A remote request of the peer is served and answered; a stalled one is kept until it replays. -/
def serveRemote (i : Nat) (h : Header) (units : List Unit256) (s : State) : State :=
  match remoteAccess i h units s with
  | .stalled t => { t with plr := { t.plr with remote := t.plr.remote ++ [(i, h, units)] } }
  | .answer st d t =>
    if st = 0 ∧ h.opcode = 0x70 then plrSend i .rsp (reply h 0 1) [{ bytes := d }] t
    else if st = 0 ∧ h.opcode = 0x72 then plrSend i .rsp { reply h 0 0 with inlineData := d } [] t
    else plrSend i .rsp (reply h st 0) [] t

/-- Remote requests told to replay. -/
def replayRemote (us : List StalledUnit) (s : State) : State :=
  let mine (e : Nat × Header × List Unit256) : Bool := us.any (fun u => u.sub == e.1 && u.va / 256 == e.2.1.addr / 256)
  let l := s.plr.remote.filter mine
  l.foldl (fun s e => if sessionOpen s e.1 then serveRemote e.1 e.2.1 e.2.2 s else s)
    { s with plr := { s.plr with remote := s.plr.remote.filter (fun e => !mine e) } }

/-- R264: a holder is told to replay the access units of a fault. -/
def execResume (holder : Nat) (h : Header) (s : State) : Res :=
  let h := { h with opcode := 0x65 }
  let us := (s.xlate.resuming.filter (fun r => r.1 == h.ctx && r.2.1 == h.opArg % 256 && r.2.2.holder == holder)).map (fun r => r.2.2)
  let t := resumeHolder holder h.ctx (h.opArg % 256) s
  .next (respondOk h (if 64 ≤ holder ∧ holder < 72 then replayGuest (holder - 64) us t
    else if holder = 81 then replayRemote us t else t))

/-- A remote request: of a management core or the block's own engine, sent through a session; of the peer, served here. Any
other source is malformed (R49, R355). -/
def remote (fromPeer : Bool) (session : Nat) (h : Header) (units : List Unit256) (s : State) : State :=
  let i := session % 1024
  if fromPeer then (if sessionOpen s i then serveRemote i h units s else s)
  else
    let ok := match nodeBlock h.src with
      | some (.core _) => (Machine.session s i).ctx == 0
      | some .plarus => true
      | _ => false
    if ok then plrRequest i { h with opArg := i } units s else malformedReject .req h.src (ctxPermitted s h.src h) h s

/-- R423: `RM_RD`. -/
def execRmRd (fromPeer : Bool) (session : Nat) (h : Header) (s : State) : Res :=
  .next (remote fromPeer session { h with opcode := 0x70, xlated := false } [] s)
/-- R423: `RM_WR`. -/
def execRmWr (fromPeer : Bool) (session : Nat) (h : Header) (units : List Unit256) (s : State) : Res :=
  .next (remote fromPeer session { h with opcode := 0x71, xlated := false } (units.take 1) s)
/-- R423: `RM_RD32`. -/
def execRmRd32 (fromPeer : Bool) (session : Nat) (h : Header) (s : State) : Res :=
  .next (remote fromPeer session { h with opcode := 0x72, xlated := false } [] s)
/-- R423: `RM_WR32`. -/
def execRmWr32 (fromPeer : Bool) (session : Nat) (h : Header) (s : State) : Res :=
  .next (remote fromPeer session { h with opcode := 0x73, xlated := false } [] s)

/-! Collective data (R190, R424) -/

/-- The part of a member's input received so far. -/
def collPart (s : State) (g seq rank : Nat) : Option CollPart :=
  s.plr.coll.find? (fun p => p.group == g && p.seq == seq && p.rank == rank)

/-- R423: collective data of a member arrives on its session: bytes from an offset of its input, the pass's shape, and at
the end the input's size. -/
def execCollData (session group seq rank shape offset : Nat) (total : Option Nat) (units : List Unit256) (s : State) : Res :=
  .next (
    let g := Tab.get {} s.plr.groups group
    if !sessionOpen s session ∨ !g.valid ∨ g.rank = rank ∨ g.size < rank ∨
        Tab.get 0 s.plr.groupMap (group * 1024 + rank) ≠ session ∨ (Machine.session s session).ctx ≠ g.ctx then s
    else
      let old := (collPart s group seq rank).getD { group := group, seq := seq, rank := rank, shape := shape, data := [], size := none }
      let d := unitData units
      let new := { old with
        shape := shape, size := total.or old.size
        data := (List.zip (List.range d.length) d).foldl (fun t e => Tab.ins t (offset + e.1) e.2) old.data }
      let rest := s.plr.coll.filter (fun p => !(p.group == group && p.seq == seq && p.rank == rank))
      { s with plr := { s.plr with coll := rest ++ [new] } })

/-! Packets (R411 to R421) -/

/-- A torus response from the peer reaches the request that waits on the session. -/
def takeResponse (i : Nat) (h : Header) (units : List Unit256) (s : State) : State :=
  match takeFirst (fun w => w.opcode == h.opcode && w.tag == h.tag) (session s i).waiting with
  | none => s
  | some (w, rest) =>
    let st := h.opArg % 256
    let s := modSession i (fun x => { x with waiting := rest }) s
    let s := emit (.response { h with dst := w.src, dstSub := w.srcSub, srcSub := w.dstSub } st units) s
    if 0x88 ≤ w.opcode then emberAnswered w st s
    else if st = 0 ∧ (w.opcode = 0x82 ∨ w.opcode = 0x84) then kilnAnswered w s else s

/-- A whole torus packet of the peer is passed on, under the session's context and this block's node (R413). -/
def passOn (i : Nat) (plane : Plane) (h : Header) (units : List Unit256) (s : State) : State :=
  let h := { h with ctx := (session s i).ctx, src := blockNode .plarus }
  match plane with
  | .req => emit (.delivered h units) s
  | .rsp => takeResponse i h units s

/-- The data units of a packet are put with those that have arrived (R412). -/
def reassemble (i : Nat) (plane : Plane) (h : Header) (first : Nat) (units : List Unit256) (s : State) : State :=
  let x := session s i
  let same (p : RxPkt) : Bool := p.plane == plane && p.hdr == h
  let old := ((x.rxParts.find? same).map (fun p => p.units)).getD []
  let got := (List.zip (List.range units.length) units).foldl (fun t e => Tab.ins t (first + e.1) e.2) old
  let others := x.rxParts.filter (fun p => !same p)
  if (List.range h.len).all (fun j => got.any (fun e => e.1 == j)) then
    passOn i plane h (got.map (fun e => e.2)) (setSession i { x with rxParts := others } s)
  else setSession i { x with rxParts := others ++ [{ plane := plane, hdr := h, units := got }] } s

/-- R412: a `DATA` packet. In `CLOSING` nothing is passed on; an opcode outside 0x70 to 0x8F is dropped (R413); eight
packets without an acknowledgement bring one. -/
def execData (h : PlrHdr) (plane : Plane) (hd : Header) (units : List Unit256) (s : State) : Res :=
  .next (plrReceive h (fun s =>
    let i := h.session
    let s := modSession i (fun x => { x with due := x.due + 1 }) s
    let s := if 8 ≤ (session s i).due then plrAck i s else s
    if hd.opcode < 0x70 ∨ 0x8F < hd.opcode then countAuthDrop i s
    else if (session s i).st = 4 then s
    else
      let n := units.foldl (fun n u => n + unitLen u) 64
      reassemble i plane hd h.firstUnit units (countPlarus (session s i).ctx n s)) s)

/-- R421: an acknowledgement. -/
def execAck (h : PlrHdr) (s : State) : Res := .next (plrReceive { h with ackPresent := true } id s)

/-- The entry that an `INIT` is for (R417): bound to the context it names, its peer the sender. -/
def initEntry (s : State) (hs : Handshake) : Option Nat :=
  (s.plr.sessions.map (fun e => e.1)).find? (fun i =>
    let x := session s i
    decide (1 ≤ x.st) && decide (x.st ≤ 3) && x.keyId == keyIdOf hs.attKey && x.ctx == hs.peerCtx && x.peerCtx == hs.ctx
      && peerAcceptable s x hs)

/-- R417, R418: an `INIT`. Of two that cross, the hub with the lower `KEY_ID` keeps its own. -/
def execInit (hs : Handshake) (s : State) : Res :=
  .next (
    match if handshakeSigned hs [] then initEntry s hs else none with
    | none => countUnauth s
    | some i =>
      if (session s i).st = 1 ∧ keyIdBig (keyIdOf (attestKey s)) < keyIdBig (keyIdOf hs.attKey) then s
      else
        let s := drawHandshake i s
        let own := ownHandshake s i (handshakeBytes hs)
        sessionOpened i hs (saltOf hs own) (emit (.plarus i 4 0 0 {} [] (handshakeBytes own)) s))

/-- R417: a `RESP` to the entry that sent the `INIT`. -/
def execResp (session : Nat) (hs : Handshake) (s : State) : Res :=
  .next (
    let x := Machine.session s session
    if 1024 ≤ session ∨ x.st ≠ 1 then s
    else
      let own := ownHandshake s session []
      if handshakeSigned hs (handshakeBytes own) && x.keyId == keyIdOf hs.attKey && x.ctx == hs.peerCtx && x.peerCtx == hs.ctx
          && peerAcceptable s x hs then
        sessionOpened session hs (saltOf own hs) s
      else countUnauth s)

/-- R418: the peer's `REKEY` is answered; the new keys wait for its first packet under the new phase. -/
def execRekey (h : PlrHdr) (nonce key : List Byte) (s : State) : Res :=
  .next (plrReceive h (fun s =>
    let i := h.session
    if (session s i).st = 4 then s
    else
      let secret := drawn s
      let own := freeBytes s 32
      let s := modSession i (fun x => { x with nextKeys := some (Config.deriveKeys secret key (nonce ++ own) 3) }) (drew s)
      plrControl i 6 (own ++ Config.publicKey secret) s) s)

/-- R418: `REKEY_ACK`: the new keys, the other phase. -/
def execRekeyAck (h : PlrHdr) (nonce key : List Byte) (s : State) : Res :=
  .next (plrReceive h (fun s =>
    modSession h.session (fun x =>
      if x.st = 3 then { x with
        st := 2, keys := Config.deriveKeys x.secret key (x.nonce ++ nonce) 3, keyPhase := 1 - x.keyPhase, oldOk := true
        txUnder := 0, rxUnder := 0 }
      else x) s) s)

/-- R419: an authentic `FIN`. -/
def execFin (h : PlrHdr) (s : State) : Res :=
  .next (plrReceive h (fun s =>
    let s := plrControl h.session 8 [] s
    if (session s h.session).st = 4 then sessionFree h.session s else sessionLost h.session s) s)

/-- R419: `FIN_ACK`. -/
def execFinAck (h : PlrHdr) (s : State) : Res :=
  .next (plrReceive h (fun s => if (session s h.session).st = 4 then sessionFree h.session s else s) s)

/-! Timers -/

/-- R417: every 10 ms while connecting. -/
def execInitResend (session : Nat) (s : State) : Res :=
  .next (if session < 1024 ∧ (Machine.session s session).st = 1 then sendInit session s else s)

/-- R417: no acceptable answer within 1 s. -/
def execHandshakeTimeout (session : Nat) (s : State) : Res :=
  .next (
    let st := (Machine.session s session).st
    if session < 1024 ∧ (st = 1 ∨ st = 3) then raiseSrc plarusPage 1 (sessionLost session s) else s)

/-- A session ends by itself: `LOST`, or `FREE` where it was closing (R419). -/
def sessionFails (i : Nat) (s : State) : State := if (session s i).st = 4 then sessionFree i s else sessionLost i s

/-- R421: a packet's RTO expires. -/
def execRtoExpiry (session pn : Nat) (s : State) : Res :=
  .next (
    match if sessionLive s session then (Machine.session s session).unacked.find? (fun p => p.pn == pn) else none with
    | none => s
    | some p =>
      if max 1 (fld s plarusPage Reg.RTX_CTRL_RETRY_MAX) ≤ p.expiries + 1 then sessionFails session s
      else retransmit session { p with expiries := p.expiries + 1 } s)

/-- R421: 2 us after an arrival that has not been acknowledged. -/
def execTransportAckTimer (session : Nat) (s : State) : Res :=
  .next (if sessionLive s session ∧ 0 < (Machine.session s session).due then plrAck session s else s)

/-- The congestion loop (R422): the cut as a fraction, the larger of the delay's and ECE's, at most one half. -/
def ccStep (s : State) (x : Session) : Nat :=
  let n := x.samples.length
  let sum := x.samples.foldl (· + ·) 0
  let least := (x.mins.filter (fun m => decide (s.time.sec < m.1 + 10))).foldl (fun a m => min a m.2) (2 ^ 32)
  let t := (least + fld s plarusPage Reg.CC_CTRL_TARGET_NS) * n
  let a := if t < sum then fld s plarusPage Reg.CC_CTRL_BETA * (sum - t) else 0
  let e := if x.eceSeen then fld s plarusPage Reg.CC_CTRL_ECN_CUT else 0
  let den := 256 * max 1 sum
  let num := min (max a (e * max 1 sum)) (den / 2)
  clampCwnd s (if num = 0 then x.cwnd + fld s plarusPage Reg.CC_CTRL_AI_BYTES else x.cwnd * (den - num) / den)

/-- R422: once per SRTT. -/
def execCcUpdate (session : Nat) (s : State) : Res :=
  .next (
    let x := Machine.session s session
    if !sessionLive s session then s
    else
      let c := if flag s plarusPage Reg.CC_CTRL_FREEZE ∨ x.override then x.cwnd else ccStep s x
      pump session (setSession session { x with
        cwnd := c, samples := [], eceSeen := false, mins := x.mins.filter (fun m => decide (s.time.sec < m.1 + 10)) } s))

/-- R419: `CLOSING` ends after 100 us. -/
def execClosingTimeout (session : Nat) (s : State) : Res :=
  .next (if session < 1024 ∧ (Machine.session s session).st = 4 then sessionFree session s else s)

/-- R418: 2^39 packets under one key. -/
def execRekeyTrigger (session : Nat) (s : State) : Res :=
  .next (
    let x := Machine.session s session
    if session < 1024 ∧ x.st = 2 ∧ (2 ^ 39 ≤ x.txUnder ∨ 2 ^ 39 ≤ x.rxUnder) then
      let s := drawHandshake session s
      let y := Machine.session s session
      plrControl session 5 (y.nonce ++ Config.publicKey y.secret) (setSession session { y with st := 3 } s)
    else s)

/-- R418: 2^40 packets under one key. -/
def execKeyLimit (session : Nat) (s : State) : Res :=
  .next (
    let x := Machine.session s session
    if sessionLive s session ∧ (2 ^ 40 ≤ x.txUnder ∨ 2 ^ 40 ≤ x.rxUnder) then sessionFails session s else s)

/-- R418: the old phase ends. -/
def execOldPhaseExpiry (session : Nat) (s : State) : Res :=
  .next (if session < 1024 then modSession session (fun x => { x with oldOk := false }) s else s)

/-! Operations and tables (R414, R424) -/

/-- R414: operation 0x10 binds an entry to the kiln. -/
def execKilnSessionBind (index : Nat) (s : State) : Res :=
  .next (
    let i := index % 1024
    if (pageOp s plarusPage).isSome then opRefused plarusPage s
    else
      let s := opRun plarusPage 0x10 i s
      if (session s i).kiln ∧ (session s i).st = 0 then opEnd plarusPage 3 (sessionBind i 0xFE s) else opEnd plarusPage 4 s)

/-- R414: operation 0x11 releases one; it ends when the entry is free. -/
def execKilnSessionRelease (index : Nat) (s : State) : Res :=
  .next (
    let i := index % 1024
    if (pageOp s plarusPage).isSome then opRefused plarusPage s
    else
      let s := opRun plarusPage 0x11 i s
      if (session s i).kiln ∧ (session s i).st ≠ 0 ∧ (session s i).ctx = 0xFE then sessionRelease i s else opEnd plarusPage 4 s)

/-- R414: a write of `SESSION_CFG` (word 0) or of a word of `SESSION_PEER` (1 and 2 the address, 3 and 4 the `KEY_ID`). -/
def sessionCfg (i word v : Nat) (s : State) : State :=
  if (session s i).st ≠ 0 then opRefused plarusPage s
  else modSession i (fun x =>
    let low (n : Nat) : Nat := n / 2 ^ 64 * 2 ^ 64 + v % 2 ^ 64
    let high (n : Nat) : Nat := v % 2 ^ 64 * 2 ^ 64 + n % 2 ^ 64
    match word with
    | 0 => { x with
        peerMac := bits v 47 0, framing := bit v 48, kiln := tst v 49, allowDebug := tst v 50, peerCtx := bits v 63 56 }
    | 1 => { x with ip6 := high x.ip6 }
    | 2 => { x with ip6 := low x.ip6 }
    | 3 => { x with keyId := low x.keyId }
    | _ => { x with keyId := high x.keyId }) s

/-- R414: the command. -/
def execSessionCfgWrite (session word value : Nat) (s : State) : Res :=
  .next (if 1024 ≤ session ∨ 4 < word then s else sessionCfg session word value s)

/-- R424: a write of `GROUP_CFG` of a handle; a 257th valid entry is refused. -/
def groupCfg (g v : Nat) (s : State) : State :=
  let old := Tab.get {} s.plr.groups g
  if tst v 0 ∧ !old.valid ∧ 256 ≤ (s.plr.groups.filter (fun e => e.2.valid)).length then opRefused plarusPage s
  else
    { s with plr := { s.plr with
      groups := Tab.put {} s.plr.groups g { valid := tst v 0, ctx := bits v 15 8, size := bits v 25 16, rank := bits v 41 32 } } }

/-- R424: the command. -/
def execGroupCfgWrite (handle value : Nat) (s : State) : Res := .next (groupCfg (handle % 65536) value s)

end Sys2Proof.Machine
end

