-- ==== Sys2Proof/Machine/Drunte.lean ====
section
/-! DEFINITION. The Drunte contract at work (R133 to R195): fetch, waits and checks, dispatch of pieces, the operation
classes, completion. -/

namespace Sys2Proof.Machine

/-! Fetch (R137, R138) -/

/-- A ring whose next entry may be fetched: enabled, with an entry pending, fewer than 256 outstanding, and no unit of
that fetch stalled. -/
def ringReady (s : State) (k r : Nat) : Bool :=
  ringOn s k r && ringHead s k r != ringTail s k r && decide (ringOutstanding s k r < 256) &&
  !((s.xlate.faults.filter (fun f => f.ctx == k)).flatMap (fun f => f.units) ++
      (s.xlate.unrecorded.filter (fun u => u.1 == k)).map (fun u => u.2.2.2.2.2)).any
    (fun u => u.isFetch && u.ring == r && u.index == ringHead s k r)

/-- Fetches one entry of a ring; `again`: an entry that a promotion fetches a second time (R504), whose `HEAD` has moved
already. -/
def fetchEntry (k r index : Nat) (again : Bool) (s : State) : State :=
  let w := pageWin k 0
  let va := fld s w (Reg.RING_BASE_ADDR.at 32 r) * 4096 + 128 * index
  match vread s 80 k va 128 with
  | .error e =>
    accessFailed k e { holder := 80, va := va, len := 128, access := 0, ring := r, passValid := true, index := index } none s
  | .ok b =>
    let p : Pass := { ctx := k, id := s.nextPass, ring := r, index := index, words := (List.range 16).map (word64 b) }
    let s := accessed 80 k va 128 false { s with passes := s.passes ++ [p], nextPass := s.nextPass + 1 }
    let s := if again then modCtx k (fun c => { c with refetch := c.refetch.drop 1 }) s
      else modCtx k (fun c => { c with lastRing := r })
        (setFld w (Reg.RING_STATUS_HEAD.at 32 r) ((index + 1) % 2 ^ ringLog2 s k r) s)
    refreshFull k (setFlds w [(Reg.RING_STATUS_OUTSTANDING.at 32 r, ringOutstanding s k r + 1),
      (Reg.CQ_STATUS_RESERVED, fld s w Reg.CQ_STATUS_RESERVED + 1)] s)

/-- R137: the next entry of context `ctx` is fetched: from the ring after the one served last, in ascending order. -/
def execDescriptorFetch (ctx : Nat) (s : State) : Res :=
  .next (
    if 64 ≤ ctx ∨ ctxState s ctx ≠ 2 ∨ s.errs.dispatchStopped ∨ !flag s (pageWin ctx 0) Reg.CQ_CFG_ENABLE ∨ cqFree s ctx = 0 then
      refreshFull ctx s
    else match (Machine.ctx s ctx).refetch with
      | e :: _ => if ringOutstanding s ctx e.1 < 256 then fetchEntry ctx e.1 e.2 true s else s
      | [] =>
        match ((List.range 16).map (fun i => ((Machine.ctx s ctx).lastRing + 1 + i) % 16)).find? (ringReady s ctx) with
        | none => s
        | some r => fetchEntry ctx r (ringHead s ctx r) false s)

/-! Waits and checks (R142, R143, R151) -/

/-- The waits that a pass names: counter and threshold. -/
def passWaits (p : Pass) : List (Nat × Nat) :=
  [p.word 2, p.word 3].filterMap (fun w => if tst w 7 then some (bits w 5 0, bits w 63 16) else none)

/-- Reads the tensor descriptors of the slots present. -/
def readTds (s : State) (p : Pass) : Except UnitErr (List (Option (List Nat))) :=
  mapE (fun i =>
    if !p.present i then .ok none
    else match rd s 80 p.ctx (bits (p.word (8 + i)) 54 6 * 64) 64 with
      | .error e => .error e
      | .ok b => .ok (some ((List.range 8).map (word64 b)))) (List.range 6)

/-- A stalled access unit holds the pass back. -/
def passStalled (s : State) (p : Pass) : Bool := (stalledPasses s p.ctx).contains p.id

/-- Ends a pass with a status before it has run (R152). -/
def refusePass (p : Pass) (status detail : Nat) (s : State) : State :=
  completePass { p with status := status, detail := detail } s

/-- A unit of a pass's work failed at the dispatcher. -/
def dispatchFailed (p : Pass) (e : UnitErr) (s : State) : State :=
  accessFailed p.ctx e.err (dispatchUnit p e.va e.len e.access) (some p) s

/-- The waits of a pass are met: an error bit ends it, its descriptors are read and the checks applied; accepted, it is
ready, behind every pass that became ready before it. -/
def waitsSatisfied (p : Pass) (s : State) : State :=
  match (passWaits p).find? (fun w => fenceError s p.ctx w.1) with
  | some w => refusePass p 0x0A w.1 s
  | none =>
    match readTds s p with
    | .error e => dispatchFailed p e s
    | .ok tds =>
      let s := ((List.range 6).filter p.present).foldl (fun s i => accessed 80 p.ctx (bits (p.word (8 + i)) 54 6 * 64) 64 false s) s
      let q := { p with tds := tds, phase := .ready }
      match checkPass s q with
      | some (status, detail) => refusePass p status detail s
      | none => { s with passes := s.passes.filter (fun x => x.id != p.id) ++ [q] }

/-- R142: the waits of a fetched pass are satisfied together. -/
def execFenceWaitSatisfied (pass : Nat) (s : State) : Res :=
  .next (match Machine.pass s pass with
    | none => s
    | some p =>
      if p.phase ≠ .waiting ∨ ctxState s p.ctx ≠ 2 ∨ passStalled s p ∨
          !(passWaits p).all (fun w => waitMet (fence s p.ctx w.1) w.2) then s
      else waitsSatisfied p s)

/-! Dispatch (R157, R158, R169 to R187) -/

/-- Nodes of a tree table that one group of trees takes (R186). -/
def treeGroups (p : Pass) : Nat := match p.td 1 with | some t => max 1 (ceilDiv (t.dim 1) 262144) | none => 1

/-- Features of a group whose part of the histogram fits in 4 MiB (R183). -/
def featureGroup (o : TD) : Nat := max 1 (2 ^ 22 / max 1 (o.dim 2 * o.dim 0 * 4))

/-- Entries of the index list (R181). -/
def indexEntries (p : Pass) : Nat :=
  match p.td 1 with
  | some t => if p.opclass = 0x05 ∧ p.variant = 1 then t.dim 1 else t.dim 0
  | none => 0

/-- The primary output. -/
def Pass.out (p : Pass) : TD := ((outSlots p.opclass).head?.bind p.td).getD ⟨[]⟩

/-- Positions of a pass that the dispatcher has to place: none for a class without pieces (R169 to R188). -/
def passTotal (p : Pass) : Nat :=
  let o := p.out
  let blocks := ceilDiv (o.dim 1) 4096 * (o.dim 2 * o.dim 3)
  match p.opclass with
  | 0x01 => blocks * o.dim 0
  | 0x02 => blocks
  | 0x05 => ceilDiv (indexEntries p) 4096
  | 0x06 => ceilDiv (indexEntries p) 4096
  | 0x07 => o.dim 1
  | 0x08 => ceilDiv (o.dim 1) 4096 * treeGroups p
  | c => if 0x0C ≤ c then 0 else ceilDiv (o.dim 0) 4096 * o.rows

/-- The next piece of a pass for an executor of `cols` columns, and the positions it takes. -/
def cutPiece (p : Pass) (cols : Nat) (guest : Bool) : Piece × Nat :=
  let o := p.out
  let n := p.placed
  let nb := max 1 (ceilDiv (o.dim 1) 4096)
  let rowBlock (b : Nat) : Nat × Nat := (b / nb * o.dim 1 + b % nb * 4096, min 4096 (o.dim 1 - b % nb * 4096))
  let piece (row0 rows col0 cols : Nat) : Piece := { id := p.pieces.length, row0 := row0, rows := rows, col0 := col0, cols := cols, exec := 0, state := .running }
  let entries (c : Nat) : Piece × Nat := (piece (4096 * n) (min 4096 (indexEntries p - 4096 * n)) 0 c, 1)
  match p.opclass with
  | 0x01 =>
    let col := n % max 1 (o.dim 0)
    let b := rowBlock (n / max 1 (o.dim 0))
    let fit := min cols (o.dim 0 - col)
    let whole := if guest ∧ col + fit < o.dim 0 then fit / 4 * 4 else fit
    (piece b.1 b.2 col whole, whole)
  | 0x02 => (piece (rowBlock n).1 (rowBlock n).2 0 (o.dim 0), 1)
  | 0x05 => entries (o.dim 0)
  | 0x06 => entries 1
  | 0x07 =>
    let f := min (featureGroup o) (o.dim 1 - n)
    (piece n f 0 (o.dim 0), f)
  | 0x08 => (piece (rowBlock (n / treeGroups p)).1 (rowBlock (n / treeGroups p)).2 0 (o.dim 0), 1)
  | _ =>
    let runs := max 1 (ceilDiv (o.dim 0) 4096)
    (piece (n / runs) 1 (4096 * (n % runs)) (min 4096 (o.dim 0 - 4096 * (n % runs))), 1)

/-- The class uses the array (R166, R170). -/
def Pass.onArray (p : Pass) : Bool := p.opclass == 0x01 || p.opclass == 0x02

/-- An executor is bound to context k and takes pieces (R158). -/
def executorBound (s : State) (k x : Nat) : Bool :=
  decide (x < 72) && bindState s (execPage x) == 1 && bindCtx s (execPage x) == k &&
  (if x < 64 then arrayWorks s x
   else siteLink s (x - 64) == 5 && tst (fld s (pageSite (x - 64)) Reg.SITE_DECL0_CLASSES) 0 && !(site s (x - 64)).pausing)

/-- An executor can run the work of a pass, leaving its width aside: a tile's array must have room for a leading pass, a
guest must have declared class and formats and hold fewer than 16 pieces (R157, R358). -/
def executorFits (s : State) (p : Pass) (x : Nat) : Bool :=
  if x < 64 then !p.onArray || (tile s x).lead.isNone
  else
    let g := site s (x - 64)
    decide (p.opclass < 0x0C) && tst g.drunteClasses p.opclass && decide (g.pieces.length < 16) &&
    (List.range 6).all (fun i => match p.td i with | some t => tst g.drunteFormats t.fmt | none => true) &&
    !(p.opclass == 0x08 && treeGroups p != 1)

/-- Columns that an executor takes at once: a guest an N block of 128. -/
def executorColumns (s : State) (x : Nat) : Nat := if x < 64 then tileColumns s x else 128

/-- A guest's piece of a MATMUL begins at a whole byte of the output's rows. -/
def guestStart (p : Pass) (q : Piece) : Bool := q.col0 * p.out.width % 8 == 0 && decide (0 < q.cols)

/-- The biases that a pass takes at its start (R128). -/
def startPass (p : Pass) (s : State) : Pass :=
  let o := p.out
  let t := tag s p.ctx (bits (p.word 0) 31 20)
  let tagged := tst (p.word 0) 19 && (draughtEmax o.fmt).isSome && !(outSlots p.opclass).isEmpty
  { p with
    phase := .running
    bias := if tagged then limitBias s p.ctx t.nextBias else 0
    winBase := if tagged then t.base else sext 8 (bits (p.word 0) 39 32)
    inBias := (List.range 6).map (fun i => match p.td i with
      | some d => if d.draughtEn ∧ !(outSlots p.opclass).contains i then (tag s p.ctx d.tag).appliedBias else 0
      | none => 0) }

/-- Start and count in dimensions 0 to 3 of the iteration space of a piece (R358). -/
def pieceBox (p : Pass) (q : Piece) : List (Nat × Nat) :=
  let o := p.out
  let batch : List (Nat × Nat) := [(q.row0 / o.dim 1 % o.dim 2, 1), (q.row0 / o.dim 1 / o.dim 2, 1)]
  match p.opclass with
  | 0x06 => [(q.row0, q.rows), (0, 1), (0, 1), (0, 1)]
  | 0x07 => [(0, o.dim 0), (q.row0, q.rows), (0, o.dim 2), (0, o.dim 3)]
  | _ => [(q.col0, q.cols), (q.row0 % o.dim 1, q.rows)] ++ batch

/-- Body of a `PIECE` message (R358). -/
def pieceBody (p : Pass) (q : Piece) (kid : Nat) : List Byte :=
  leBytes 4 kid ++ leBytes 1 p.ctx ++ ofWords p.words ++
  (List.range 6).flatMap (fun i => ofWords (((p.tds.drop i).headD none).getD (List.replicate 8 0))) ++
  (pieceBox p q).flatMap (fun b => leBytes 4 b.1 ++ leBytes 4 b.2)

/-- K blocks of a MATMUL, or key blocks of an ATTEND. -/
def passKBlocks (p : Pass) : Nat :=
  let a := (p.td 0).getD ⟨[]⟩
  let b := (p.td 1).getD ⟨[]⟩
  if p.opclass = 0x01 then ceilDiv (if p.param 0 0 = 1 then a.dim 1 else a.dim 0) (Num.kBlockLen a.fmt b.fmt)
  else ceilDiv (a.dim 0) (Num.kBlockLen a.fmt b.fmt)

/-- Gives a piece of pass p to its executor: the array's leading pass on a tile, a `PIECE` message to a guest. -/
def sendPiece (p : Pass) (q : Piece) (s : State) : State :=
  if q.exec < 64 then
    if p.onArray then
      showArray q.exec (modTile q.exec (fun t => { t with lead := some {
        passId := p.id, piece := q.id, row0 := q.row0, col0 := q.col0, fmtA := ((p.td 0).getD ⟨[]⟩).fmt, fmtB := ((p.td 1).getD ⟨[]⟩).fmt
        sat := p.satMode, rows := q.rows, cols := q.cols, kBlocks := passKBlocks p } }) s)
    else s
  else
    let n := q.exec - 64
    let kid := (site s n).nextPiece
    sendMgmt n 9 [kid] (pieceBody p q kid)
      (modSite n (fun x => { x with pieces := x.pieces ++ [(kid, p.id, q.id)], nextPiece := (kid + 1) % 2 ^ 32 }) s)

/-- The piece of p that an executor can take next. -/
def nextPiece (s : State) (p : Pass) (x : Nat) : Option (Pass × Piece × Nat) :=
  if (p.phase ≠ .ready ∧ p.phase ≠ .running) ∨ passTotal p ≤ p.placed ∨ p.computed ∨ !executorFits s p x then none
  else
    let c := cutPiece p (executorColumns s x) (decide (64 ≤ x))
    if 64 ≤ x ∧ !guestStart p c.1 then none else some (p, { c.1 with exec := x, wrote := decide (64 ≤ x) }, c.2)

/-- A piece to be re-issued that an executor may take: not one that has failed the pass, and wide enough (R492). -/
def reissuePiece (s : State) (p : Pass) (x : Nat) : Option (Pass × Piece) :=
  if p.phase ≠ .running ∨ p.failed.contains x ∨ !executorFits s p x then none
  else (p.pieces.find? (fun q => q.state == .waiting && (!p.onArray || decide (p.opclass = 0x02) || decide (q.cols ≤ executorColumns s x)) &&
      (decide (x < 64) || guestStart p q))).map (fun q =>
    (p, { q with exec := x, state := .running, reissue := false, wrote := decide (64 ≤ x) }))

/-- The context may place pieces: it runs, dispatch has not stopped, no ember point is under way (R158, R195, R490). -/
def mayDispatch (s : State) (k : Nat) : Bool :=
  decide (k < 64) && ctxState s k == 2 && !s.errs.dispatchStopped && emberState s k != 3

/-- R157: the executor that can start soonest takes the oldest-ready pass's next piece; a re-issued piece comes first. -/
def execPieceDispatch (ctx exec : Nat) (s : State) : Res :=
  .next (
    if !mayDispatch s ctx ∨ !executorBound s ctx exec then s
    else
      let mine := s.passes.filter (fun p => p.ctx == ctx)
      if mine.any (fun p => (reissuePiece s p exec).isSome) then s
      else match mine.findSome? (fun p => nextPiece s p exec) with
        | none => s
        | some (p, q, n) =>
          let r := if p.phase = .ready then startPass p s else p
          let r := { r with pieces := r.pieces ++ [q], placed := r.placed + n, total := passTotal p }
          sendPiece r q (modPass p.id (fun _ => r) s))

/-- R492: a piece that must run again is placed before any other. A pass of which nothing runs or has run takes its biases
afresh, for its start is this one. -/
def execPieceReissue (ctx exec : Nat) (s : State) : Res :=
  .next (
    if !mayDispatch s ctx ∨ !executorBound s ctx exec then s
    else match (s.passes.filter (fun p => p.ctx == ctx)).findSome? (fun p => reissuePiece s p exec) with
      | none => s
      | some (p, q) =>
        let r := if p.pieces.all (fun x => x.state == .waiting) then startPass p s else p
        let r := setPiece r q.id (fun _ => q)
        sendPiece r q (modPass p.id (fun _ => r) s))

/-! The classes on native tiles -/

/-- Pieces that native tiles run. -/
def Pass.nativePieces (p : Pass) : List Piece := p.pieces.filter (fun q => decide (q.exec < 64))

/-- Drops a pass from the arrays of the tiles that run some of its pieces. -/
def leaveTiles (p : Pass) (qs : List Piece) (s : State) : State :=
  qs.foldl (fun s q =>
    let mine (a : Option ArrayPass) : Option ArrayPass := match a with
      | some a => if a.passId = p.id then none else some a
      | none => none
    showArray q.exec (modTile q.exec (fun t => { t with
      lead := mine t.lead, trail := mine t.trail
      flight := t.flight.filter (fun f => f.passId != p.id) }) s)) s

/-- Gated fraction of a `MATMUL` piece (R94): products of a zero with an element that is neither NaN nor Inf, among those
of its rows, its columns and K. -/
def zeroFraction (p : Pass) (q : Piece) (a b : Tensor) : Nat :=
  let ta := p.param 0 0 = 1
  let k := if ta then a.td.dim 1 else a.td.dim 0
  let bn := q.row0 / p.out.dim 1
  let elem (t : Tensor) (fast : Bool) (m i : Nat) : Num.Val := (matElem t fast m i (bn % p.out.dim 2) (bn / p.out.dim 2)).val
  let wild (v : Num.Val) : Bool := match v with | .nan => true | .inf _ => true | _ => false
  let gated := (List.range k).foldl (fun n i =>
    let xs := (List.range q.rows).map (fun r => elem a (!ta) (q.row0 % p.out.dim 1 + r) i)
    let ws := (List.range q.cols).map (fun c => elem b (p.param 1 1 = 1) (q.col0 + c) i)
    let za := xs.countP Num.isZero
    let zb := ws.countP Num.isZero
    n + za * (q.cols - ws.countP wild) + zb * (q.rows - xs.countP wild) - za * zb) 0
  let all := q.rows * q.cols * k
  if all = 0 then 0 else min 0xFFFF (gated * 65536 / all)

/-- A tile has completed its array pass for a piece: it is counted, with the fraction of products that were gated (R94);
that of an `ATTEND`, whose second product multiplies values the hub does not fix, is a free value (log entry 44). -/
def pieceComputed (p : Pass) (s : State) (q : Piece) : State :=
  let t := tile s q.exec
  let n := ([t.lead, t.trail].filter (fun a => match a with | some a => a.passId == p.id | none => false)).length
  let z := match p.opclass, readSlot s p 0, readSlot s p 1 with
    | 0x01, .ok a, .ok b => zeroFraction p q a b
    | _, _, _ => drawn s % 65536
  leaveTiles p [q] (if n = 0 then s
    else count (pageTile q.exec) Reg.PASS_COUNT n (setFld (pageTile q.exec) Reg.ZERO_FRACTION_LAST_PASS z s))

/-- A class works on the pieces of a pass that native tiles now run; the groups of a forest's trees run together, for
their scores are summed (R186). -/
def classReady (p : Pass) : Bool :=
  p.pieces.any (fun q => decide (q.exec < 64) && q.state == .running) &&
  (p.opclass != 0x08 || treeGroups p == 1 ||
    (decide (p.total ≤ p.placed) && p.pieces.all (fun q => q.state != .waiting && q.state != .parked)))

/-- What a class reads of its operands, slot by slot: of a table that indices select from, the rows they name (R179). -/
def operandSpans (s : State) (p : Pass) : List (List (Nat × Nat)) :=
  if p.opclass = 0x05 then
    match p.td 0, readSlot s p 1 with
    | some t, .ok ix =>
      let entries := (List.range ix.td.rows).flatMap (fun r => (List.range (ix.td.dim 0)).map (fun i => ix.int r i))
      let rows := (entries.filterMap (fun i => (gatherRow (p.param 0 0 = 1) (t.dim 1) i).bind id)).foldl addNew []
      rows.map (fun r => (t.rowAddr r, t.rowBytes)) :: (p.inputs.drop 1).map TD.spans
    | _, _ => (p.inputs.drop 1).map TD.spans
  else p.inputs.flatMap (fun t => if t.mx then [t.spans.take t.rows, t.spans.drop t.rows] else [t.spans])

/-- Failed units: every one that meets a translation fault, and the first that fails otherwise. -/
def faultsFirst (es : List UnitErr) : List UnitErr :=
  let xl (e : UnitErr) : Bool := match e.err with | .xlate .. => true | _ => false
  es.filter xl ++ (es.filter (fun e => !xl e)).take 1

/-- The reads of a class that fail, at most one for each operand block (R260, R261: other access units
of the pass go on). -/
def operandErrs (s : State) (p : Pass) : List UnitErr :=
  let es := (operandSpans s p).filterMap (fun g => g.findSome? (fun e => match rd s p.holder p.ctx e.1 e.2 with | .error x => some x | .ok _ => none))
  faultsFirst es

/-- The write unit of an array class is a pair of epilogue rows (R260): the pair of the primary output's rows in which a write
lies. -/
def rowPair (p : Pass) (e : UnitErr) : UnitErr :=
  let o := p.out
  match (List.range o.rows).find? (fun r => decide (o.rowAddr r ≤ e.va) && decide (e.va < o.rowAddr r + o.rowBytes)) with
  | none => e
  | some r =>
    let i := r % o.dim 1
    let r0 := r - i % 2
    { e with va := e.va - o.rowAddr r + o.rowAddr r0, len := e.len * (if i - i % 2 + 1 < o.dim 1 then 2 else 1) }

/-- The writes of a class that fail, unit by unit. -/
def writeErrs (s : State) (p : Pass) (us : List (Nat × List Byte)) : List UnitErr :=
  let es := us.filterMap (fun u => match writePas s p.holder p.ctx u.1 u.2.length with
    | .error e => some (⟨e, u.1, u.2.length, 1⟩ : UnitErr)
    | .ok _ => none)
  let es := if p.onArray then es.map (rowPair p) else es
  faultsFirst (es.foldl (fun l e => if l.any (fun x => x.va == e.va) then l else l ++ [e]) [])

/-- The work of a class on the pieces of a pass that native tiles run: its reads, its writes, its flags and histogram
(R144, R159). A unit that fails stalls the pass, or its context is charged. -/
def runClass (c : Nat) (f : State → Pass → Except UnitErr ClassOut) (id : Nat) (s : State) : State :=
  match pass s id with
  | none => s
  | some p =>
    if p.opclass ≠ c ∨ p.phase ≠ .running ∨ !classReady p ∨ p.computed ∨ ctxState s p.ctx ≠ 2 ∨ passStalled s p then s
    else
      let running := p.nativePieces.filter (fun q => q.state == .running)
      let h := p.holder
      let failed (s : State) (e : UnitErr) : State := accessFailed p.ctx e.err (tileUnit h p e) (some p) s
      match f s p with
      | .error e => if (operandErrs s p).isEmpty then failed s e else (operandErrs s p).foldl failed s
      | .ok (us, g) =>
        let t := (operandSpans s p).foldl (spansRead h p) s
        match writeUnits h p.ctx us t with
        | .error _ => (writeErrs t p us).foldl failed t
        | .ok t =>
          drew (modPass id (fun p => { mergePiece p g.nonfinite g.saturated g.hist with
            pieces := p.pieces.map (fun q => if q.exec < 64 && q.state == .running then { q with state := .done } else q) })
            (running.foldl (pieceComputed p) t))

/-- R166. -/
def execMatmul (pass : Nat) (s : State) : Res := .next (runClass 0x01 matmul pass s)
/-- R170. -/
def execAttend (pass : Nat) (s : State) : Res := .next (runClass 0x02 attend pass s)
/-- R174. -/
def execVector (pass : Nat) (s : State) : Res := .next (runClass 0x03 vector pass s)
/-- R176. -/
def execReduce (pass : Nat) (s : State) : Res := .next (runClass 0x04 reduce pass s)
/-- R179. -/
def execGather (pass : Nat) (s : State) : Res := .next (runClass 0x05 gatherClass pass s)
/-- R180. -/
def execScatter (pass : Nat) (s : State) : Res := .next (runClass 0x06 scatter pass s)
/-- R182. -/
def execHisto (pass : Nat) (s : State) : Res := .next (runClass 0x07 histo pass s)
/-- R186. -/
def execTrees (pass : Nat) (s : State) : Res := .next (runClass 0x08 trees pass s)
/-- R187. -/
def execConvert (pass : Nat) (s : State) : Res := .next (runClass 0x09 convertClass pass s)
/-- R188. -/
def execCopy (pass : Nat) (s : State) : Res := .next (runClass 0x0A copyClass pass s)
/-- R189. -/
def execLayout (pass : Nat) (s : State) : Res := .next (runClass 0x0B layout pass s)

/-! The classes without pieces -/

/-- Runs f on a pass of class c that is ready or running and has not ended, in a context that runs. -/
def withPass (c id : Nat) (f : Pass → State → State) (s : State) : State :=
  match pass s id with
  | none => s
  | some p =>
    if p.opclass ≠ c ∨ (p.phase ≠ .ready ∧ p.phase ≠ .running) ∨ p.computed ∨ ctxState s p.ctx ≠ 2 ∨ s.errs.dispatchStopped ∨
        passStalled s p then s
    else f p s

/-- The pass starts: it has no pieces to place. -/
def beginWhole (p : Pass) (s : State) : State := modPass p.id (fun _ => { startPass p s with placed := 0, total := 0 }) s

/-- The pass's work is done with what it gathered. -/
def endWhole (id : Nat) (g : Gathered) (s : State) : State :=
  drew (modPass id (fun p => { mergePiece p g.nonfinite g.saturated g.hist with computed := true }) s)

/-- A unit of the collective engine failed. -/
def collectiveFailed (p : Pass) (e : UnitErr) (s : State) : State :=
  accessFailed p.ctx e.err { dispatchUnit p e.va e.len e.access with holder := 81 } (some p) s

/-- What members' passes must have in common (R190): kind, operation, dimension, formats and sizes. -/
def collShape (p : Pass) : Nat :=
  let i := (p.td 0).getD ⟨[]⟩
  p.param 5 0 + i.fmt * 64 + p.out.fmt * 1024 + i.dim 0 * 2 ^ 14 + i.dim 1 * 2 ^ 39 + i.dim 2 * 2 ^ 71 + i.dim 3 * 2 ^ 103

/-- Sends this hub's input to the other members, in transfers of up to 4 KiB; the last names the size in all. -/
def sendInput (p : Pass) (g : Group) (d : List Byte) (s : State) : State :=
  let n := ceilDiv d.length 4096
  ((List.range (g.size + 1)).filter (· != g.rank)).foldl (fun s r =>
    let i := Tab.get 0 s.plr.groupMap (p.param 47 32 * 1024 + r)
    (List.range n).foldl (fun s j =>
      let c := slice d (4096 * j) (min 4096 (d.length - 4096 * j))
      plrSend i .req {
        ctx := p.ctx, prio := 2, opcode := 0x74, dst := blockNode .plarus, src := blockNode .plarus, len := ceilDiv c.length 256
        addr := 4096 * j, opArg := i, opData := p.param 63 32 + g.rank * 2 ^ 32
        inlineData := leBytes 24 (collShape p) ++ leBytes 8 (if j + 1 = n then d.length else 0) } (unitsOf c) s) s) s

/-- COLLECTIVE: this hub's input goes out; once every other member's has come, the output is written. Members that do not
match end the pass (R191). -/
def collectiveStep (p : Pass) (s : State) : State :=
  match groupOf s p with
  | none => failPasses 0 [p.id] s
  | some g =>
    match readSlot s p 0 with
    | .error e => collectiveFailed p e s
    | .ok x =>
      if p.phase = .ready then sendInput p g x.packed (beginWhole p (p.inputs.foldl (fun s t => spansRead 81 p s t.spans) s))
      else
        let parts := (List.range (g.size + 1)).map (fun r => (r, collPart s (p.param 47 32) (p.param 63 48) r))
        let others := parts.filter (fun e => e.1 != g.rank)
        if others.any (fun e => match e.2 with
            | some c => c.shape != collShape p || (match c.size with | some n => n != x.packed.length | none => false)
            | none => false) then failPasses 0 [p.id] s
        else if !others.all (fun e => match e.2 with
            | some c => c.size.isSome && (List.range x.packed.length).all (fun i => c.data.any (fun b => b.1 == i))
            | none => false) then s
        else
          let xs := parts.map (fun e => match e.2 with
            | some c => if e.1 = g.rank then x else unpackAs x ((List.range x.packed.length).map (Tab.get 0 c.data))
            | none => x)
          let out := collective s.fresh p xs g.rank
          match writeUnits 81 p.ctx out.1 s with
          | .error e => collectiveFailed p e s
          | .ok s =>
            endWhole p.id out.2 { s with plr := { s.plr with
              coll := s.plr.coll.filter (fun c => !(c.group == p.param 47 32 && c.seq == p.param 63 48)) } }

/-- R190: one step of a collective on this hub. -/
def execCollective (pass : Nat) (s : State) : Res := .next (withPass 0x0C pass collectiveStep s)

/-- KILN_PUT: the contribution waits for its engine's commit (R192, R336). -/
def kilnPutStep (p : Pass) (s : State) : State :=
  match roundOfHandle s (p.param 31 0) with
  | none => failPasses 0 [p.id] s
  | some i =>
    if p.phase ≠ .ready then s
    else if (kround s i).st ≠ 1 then failPasses 0 [p.id] s
    else kilnPut i p.id (beginWhole p s)

/-- R192: a put goes to its kiln engine. -/
def execKilnPut (pass : Nat) (s : State) : Res := .next (withPass 0x0D pass kilnPutStep s)

/-- KILN_TAKE: the released sum is written to slot 0 with one rounding (R193). -/
def kilnTakeStep (p : Pass) (s : State) : State :=
  match roundOfHandle s (p.param 31 0) with
  | none => failPasses 0 [p.id] s
  | some i =>
    let r := kround s i
    if r.st ≠ 4 then failPasses 0 [p.id] s
    else match badInSum s r with
      | some pa => failPasses 0 [p.id] (destroyRound i 2 (uncorrectable 0xFE pa none s))
      | none =>
        let q := if p.phase = .ready then startPass p s else p
        let o := q.out
        let out := classOut q 0 (tabulate o.rows (o.dim 0) (fun r' c => Num.ofF32 (sumCode s r (r' * o.dim 0 + c)))) {}
        match writeUnits (82 + i / 32) p.ctx out.1 s with
        | .error e => accessFailed p.ctx e.err { dispatchUnit p e.va e.len e.access with holder := 82 + i / 32 } (some p) s
        | .ok s => endWhole p.id out.2 (modPass p.id (fun _ => { q with placed := 0, total := 0 }) s)

/-- R193: the released sum of a round is read. -/
def execKilnTake (pass : Nat) (s : State) : Res := .next (withPass 0x0E pass kilnTakeStep s)

/-- R194: a fence completes as soon as it is ready. -/
def execFence (pass : Nat) (s : State) : Res :=
  .next (withPass 0x0F pass (fun p s => completePass p s) s)

/-- EMBER_POINT: the point starts when nothing of the context runs; then the cut is sent (R195, R501). A journal that is
lost cannot commit it. -/
def emberPointStep (p : Pass) (s : State) : State :=
  let k := p.ctx
  if emberState s k = 4 then failPasses 0 [p.id] s
  else if p.phase = .ready then
    let t := emberPointStart k p.id s
    if emberState t k = 3 ∧ (ember t k).point = some p.id then beginWhole p t else s
  else if p.total = 0 ∧ emberState s k = 3 ∧ (ember s k).point = some p.id then
    emberPointSend k (modPass p.id (fun q => { q with placed := 1, total := 1 }) s)
  else s

/-- R195: a step of an ember point. -/
def execEmberPoint (pass : Nat) (s : State) : Res := .next (withPass 0x10 pass emberPointStep s)

/-! Completion (R145, R159) -/

/-- Every piece is done; a class without pieces has done its work. -/
def passFinished (p : Pass) : Bool :=
  decide (p.phase = .running) && decide (p.total ≤ p.placed) && p.pieces.all (fun q => q.state == .done) &&
  (p.computed || !p.pieces.isEmpty)

/-- Step 2 of R145: the histogram, then the tag. -/
def finishOutputs (p : Pass) (s : State) : Except UnitErr (Pass × State) :=
  let hist := if p.hist.isEmpty then Num.emptyHist else p.hist
  let o := p.out
  let tagged (s : State) : State :=
    match draughtEmax o.fmt with
    | some emax =>
      if tst (p.word 0) 19 ∧ !(outSlots p.opclass).isEmpty then
        tagWritten p.ctx (bits (p.word 0) 31 20) p.bias p.winBase emax hist p.tagReset s
      else s
    | none => s
  if !p.histoEn then .ok (p, tagged s)
  else match writeUnits 80 p.ctx [(bits (p.word 14) 54 6 * 64, (hist.map (leBytes 4)).flatten)] s with
    | .error e => .error e
    | .ok s => .ok ({ p with histoWritten := true }, tagged s)

/-- R145: the end of a pass whose last piece has ended; a record that could not be written is tried again. -/
def execPassComplete (pass : Nat) (s : State) : Res :=
  .next (match Machine.pass s pass with
    | none => s
    | some p =>
      if passStalled s p then s
      else if p.phase = .ended then completePass p s
      else if !passFinished p then s
      else if p.status ≠ 0 then completePass p (leaveTiles p p.nativePieces s)
      else match finishOutputs p s with
        | .error e => dispatchFailed p e s
        | .ok (q, s) => completePass q s)

end Sys2Proof.Machine
end

