-- ==== Sys2Proof/Machine/Frames.lean ====
section
/-! DEFINITION. Received Ethernet frames: PTP, the transport's header (R409 to R412), transit (R425, R426). -/

namespace Sys2Proof.Machine

/-- The state a command that goes on leaves; the state before it otherwise. -/
def after (s : State) (r : Res) : State :=
  match r with
  | .next t => t
  | _ => s

/-- A big-endian field of a packet. -/
def beAt (b : List Byte) (o n : Nat) : Nat := ofBytes (slice b o n).reverse

/-- Key material for a packet's `KEY_PHASE` (R416, R418). -/
def phaseKeys (x : Session) (phase : Nat) : Nat := if phase = x.keyPhase then x.keys else x.nextKeys.getD x.keys

/-- The associated data (R415): the header with `CE` as 0. -/
def plrAssociated (b : List Byte) : List Byte :=
  (slice b 0 48).set 1 (BitVec.ofNat 8 (clrBit (leAt b 1 1) 1))

/-- Reads a transport header (R410) from a frame's body; its tag is judged under the session's key. -/
def decodePlr (s : State) (f : Frame) (arrival : Nat) : PlrHdr :=
  let b := f.body
  let i := beAt b 2 2 % 1024
  let x := session s i
  let flags := leAt b 1 1
  { session := i, keyPhase := bit flags 0, ce := tst flags 1 || f.ecn == 3, ece := tst flags 2, ackPresent := tst flags 3
    pn := beAt b 4 8, txTs := beAt b 12 4, echoTs := beAt b 16 4, ackDelay := beAt b 20 4, ackLargest := beAt b 24 8
    ackMap := beAt b 32 8, firstUnit := leAt b 42 1 % 32, arrival := arrival % 2 ^ 32
    authentic := Config.gcmVerify (phaseKeys x (bit flags 0)) (beAt b 4 8) (plrAssociated b) (b.drop 48) }

/-- Reads the data units of a `DATA` packet from unit `first` on (R412). -/
def decodeRun (h : Header) (first : Nat) : Nat → List Byte → List Unit256
  | 0, _ => []
  | n + 1, b =>
    let be := tst h.beSummary first
    let u : Unit256 := {
      bytes := b.take 256
      be := if be then some ((List.range 256).map (fun j => tst (ofBytes (slice b 256 32)) j)) else none }
    u :: decodeRun h (first + 1) n (b.drop (if be then 288 else 256))

/-- Reads a handshake message, as the hub writes one. -/
def decodeHandshake (b : List Byte) : Handshake :=
  { nonce := slice b 0 32, ephemeral := slice b 32 133, attKey := slice b 165 133, session := leAt b 298 2, ctx := leAt b 300 1
    peerCtx := leAt b 301 1, lifeCycle := leAt b 302 1, debug := leAt b 303 1, signature := b.drop 304 }

/-- A transport frame (R410, R411). A request or a response of the peer is told apart by what waits on the session. -/
def plarusFrame (f : Frame) (arrival : Nat) (s : State) : State :=
  let b := f.body
  let h := decodePlr s f arrival
  let x := session s h.session
  let text := Config.gcmOpen (phaseKeys x h.keyPhase) h.pn (b.drop 48)
  let run (r : Res) : State := after s r
  if leAt b 0 1 % 16 ≠ 1 then countUnauth s
  else match leAt b 0 1 / 16 with
  | 1 =>
    let hd := decodeHeader text
    let rsp := x.waiting.any (fun w => w.opcode == hd.opcode && w.tag == hd.tag)
    run (execData h (if rsp then .rsp else .req) hd (decodeRun hd h.firstUnit (leAt b 43 1 % 32) (text.drop 64)) s)
  | 2 => run (execAck h s)
  | 3 => run (execInit (decodeHandshake (b.drop 48)) s)
  | 4 => run (execResp h.session (decodeHandshake (b.drop 48)) s)
  | 5 => run (execRekey h (slice text 0 32) (slice text 32 133) s)
  | 6 => run (execRekeyAck h (slice text 0 32) (slice text 32 133) s)
  | 7 => run (execFin h s)
  | 8 => run (execFinAck h s)
  | _ => countUnauth s

/-! Transit -/

def forwards (s : State) (p : Nat) : Bool := flag s (pagePort p) Reg.PORT_STATUS_UP && !s.plr.removed.contains p

/-- Bytes of a frame as it leaves: addresses, its 802.1Q tag, EtherType, for IPv6 the fields the switch reads, the rest. -/
def frameBytes (f : Frame) : List Byte :=
  (leBytes 6 f.dst).reverse ++ (leBytes 6 f.src).reverse ++
  (match f.pcp with | some q => (leBytes 2 0x8100).reverse ++ (leBytes 2 (q * 0x2000 + f.vid)).reverse | none => []) ++
  (leBytes 2 f.etherType).reverse ++
  (if f.etherType = 0x86DD then leBytes 1 f.ecn ++ (leBytes 3 f.flow).reverse ++ (leBytes 2 f.udpPort).reverse else []) ++ f.body

/-- The egress port of a transit frame (R425): one of the matching entry's up ports, by a hash of the addresses and, for
IPv6, the flow label. -/
def egressPort (s : State) (f : Frame) : Option Nat :=
  if !flag s plarusPage Reg.SWITCH_CTRL_ENABLE then none
  else match s.plr.fwd.find? (fun e => e.2.valid && e.2.mac == f.dst) with
    | none => none
    | some e =>
      let l := (setBits e.2.ports 48).filter (forwards s)
      let k := Config.flowHash (leBytes 6 f.dst ++ leBytes 6 f.src ++ (if f.etherType = 0x86DD then leBytes 3 f.flow else []))
      l[k % max 1 l.length]?

/-- The switch marks a frame that leaves a long queue (R426). -/
def ecnMark (s : State) (f : Frame) : Option Frame :=
  if f.etherType = 0x86DD then (if f.ecn = 1 ∨ f.ecn = 2 then some { f with ecn := 3 } else none)
  else if f.etherType = fld s plarusPage Reg.PLR_CFG_ETHERTYPE then
    some { f with body := f.body.set 1 (BitVec.ofNat 8 (setBit (leAt f.body 1 1) 1)) }
  else none

/-- A transit frame (R425, R426): `full`, the shared buffer has no room for it; `queued`, the KiB in its egress queue. -/
def transit (f : Frame) (full : Bool) (queued : Nat) (s : State) : State :=
  match egressPort s f with
  | none => count plarusPage Reg.PLR_COUNTS_FWD_MISS 1 s
  | some p =>
    if full then count (pagePort p) Reg.PORT_COUNTS_DROPS 1 s
    else match if fld s plarusPage Reg.SWITCH_CTRL_ECN_KIB < queued then ecnMark s f else none with
      | some g => emit (.frame p (frameBytes g)) (count (pagePort p) Reg.PORT_COUNTS_ECN_MARKED 1 s)
      | none => emit (.frame p (frameBytes f)) s

/-- R425: a frame arrives at a port. `domain` and `msg` are what a PTP frame says; `full` and `queued` are the switch's
buffer as a transit frame finds it. -/
def execFrameReceive (port : Nat) (f : Frame) (domain : Nat) (msg : PtpMsg) (full : Bool) (queued : Nat) (s : State) : Res :=
  let drop (s : State) : State := count (pagePort port) Reg.PORT_COUNTS_DROPS 1 s
  let udp := f.etherType == 0x86DD
  .next (
    if 48 ≤ port ∨ isDown s (blockNode .plarus) ∨ !flag s (pagePort port) Reg.PORT_STATUS_UP then s
    else if f.control then drop s
    else if f.etherType = 0x88F7 then ptpMessage port domain true msg s
    else if udp ∧ (f.udpPort = 319 ∨ f.udpPort = 320) then ptpMessage port domain false msg s
    else if f.dst = fld s plarusPage Reg.PLR_ADDR_MAC then
      if f.etherType = fld s plarusPage Reg.PLR_CFG_ETHERTYPE ∨ (udp ∧ f.udpPort = fld s plarusPage Reg.PLR_CFG_UDP_PORT) then
        if f.checksOk then plarusFrame f (nowNs s) s else drop s
      else drop s
    else transit f full queued s)

end Sys2Proof.Machine
end

