-- ==== Sys2Proof/Machine/HostPort.lean ====
section
/-! DEFINITION. The host port (R376 to R395): configuration space, apertures, requests to host memory, IDE, PTM, and the
resets of the host (R390 to R392). -/

namespace Sys2Proof.Machine

/-! Functions (R376, R377) -/

/-- The function exists: PF0, or a VF that is enabled. -/
def fnExists (s : State) (fn : Nat) : Bool := fn == 0 || (vfEnable s && decide (fn ≤ min 63 (numVfs s)))

/-- `Memory Space Enable` (of the VFs: in the SR-IOV capability). -/
def memEnable (s : State) (fn : Nat) : Bool := if fn = 0 then tst (cfgDw s 0 0x04) 1 else tst (cfgDw s 0 0x268) 3

/-- PF0 is in D3hot (R378). -/
def inD3 (s : State) : Bool := cfgDw s 0 0x44 % 4 == 3

/-- Bytes of PF0's BAR2 (R378, R379). -/
def bar2Bytes (s : State) : Nat := 2 ^ (20 + bits (cfgDw s 0 0x2A8) 13 8)

/-- A configuration request of the function gets Request Retry Status (R391): bring-up has not completed, contexts that a
reset ends are not EMPTY, an FLR of the VF is pending. -/
def retries (s : State) (fn : Nat) : Bool :=
  !flag s 0x001 Reg.RESET_BRINGUP_DONE || s.host.ends.any (fun k => ctxState s k != 0) ||
    (fn != 0 && (ctx s fn).flrPending)

/-! Completions and errors to the host -/

/-- A completion to the host: status 0 successful, 1 UR, 2 Request Retry, 4 Completer Abort. -/
def complete (fn tag status : Nat) (data : List Byte) (s : State) : State := emit (.completion fn tag status data) s

/-- An error is logged in PF0's AER status: bit 12 poisoned, 14 completion timeout, 15 Completer Abort, 16 unexpected
completion, 20 UR; an advisory one sets the correctable status too (R378, R403). -/
def aerLog (n : Nat) (advisory : Bool) (s : State) : State :=
  let s := setCfg 0 0x104 (setBit (cfgDw s 0 0x104) n) s
  let s := if advisory then setCfg 0 0x110 (setBit (cfgDw s 0 0x110) 13) s else s
  raiseSrc hostPage 0 s

/-- A non-posted request is answered UR. -/
def answerUr (fn tag : Nat) (s : State) : State :=
  complete fn tag 1 [] (aerLog 20 true (count hostPage Reg.HOST_COUNTS_UR_SENT 1 s))

/-- A read is answered with Completer Abort status. -/
def answerCa (fn tag : Nat) (s : State) : State :=
  complete fn tag 4 [] (aerLog 15 false (count hostPage Reg.HOST_ERRS_CA_SENT 1 s))

/-! IDE (R393) -/

/-- Makes a stream Secure or Insecure. -/
def setSecure (i : Nat) (b : Bool) (s : State) : State :=
  if i = 0 then setFld hostPage Reg.HOST_IDE_LINK_SECURE (b2n b) s
  else
    let m := fld s hostPage Reg.HOST_IDE_SEL
    setFld hostPage Reg.HOST_IDE_SEL (if b then setBit m (i - 1) else clrBit m (i - 1)) s

/-- An inbound request: on a stream that is not Secure it is discarded and counted; in clear it is refused while
`HOST_IDE.REQUIRE` is 1. -/
def inbound (stream : Option Nat) (refuse f : State → State) (s : State) : State :=
  match stream with
  | none => if flag s hostPage Reg.HOST_IDE_REQUIRE then refuse s else f s
  | some i => if streamSecure s i then f s else count hostPage Reg.HOST_ERRS_IDE_DROPPED 1 s

/-- A request that is refused as unsupported: answered UR, or discarded where it is posted. -/
def refuseUr (fn tag : Nat) (posted : Bool) (s : State) : State := if posted then aerLog 20 false s else answerUr fn tag s

/-- R393: an integrity failure on a stream. -/
def execIdeIntegrityFailure (stream : Nat) (s : State) : Res :=
  .next (
    if 64 < stream ∨ !streamSecure s stream then s
    else
      let s := setSecure stream false { s with host := { s.host with ideKeys := s.host.ideKeys.filter (· != stream) } }
      let s := raiseSrc hostPage 2 (count hostPage Reg.HOST_ERRS_IDE_DROPPED 1 s)
      raiseErr { page := hostPage, sev := 2, cls := 0x071 } s)

/-! Apertures (R379 to R381, R383) -/



/-- Why an access to a physical range under a context does not complete, if it does not (R204, R210). -/
def physErr (s : State) (c pa n : Nat) (write : Bool) : Option AccErr :=
  if !(isHbm pa || isPeat pa) || !allowed s c pa then some (.owner pa)
  else match if write then writeBad s [(pa, n)] else firstBad s [(pa, n)] with
    | some a => some (.data a)
    | none => none

/-- Reads granules one at a time; the first that fails ends the read. -/
def physRead (c : Nat) (s : State) : List (Nat × Nat) → Except AccErr (List Byte)
  | [] => .ok []
  | (pa, n) :: t =>
    match physErr s c pa n false with
    | some e => .error e
    | none =>
      match physRead c s t with
      | .error e => .error e
      | .ok d => .ok (bytesAt s pa n ++ d)

/-- Writes the enabled bytes of granules one at a time; a granule that fails is discarded and handled. -/
def physWrite (c : Nat) : List (Nat × Nat) → List Byte → List Bool → State → State
  | [], _, _, s => s
  | (pa, n) :: t, d, en, s =>
    let ws := enabledWrites pa (slice d 0 n) (if en.isEmpty then none else some (en.take n))
    let s := match physErr s c pa n (!en.isEmpty && !(en.take n).all id) with
      | some e => accessFailed c e (plainUnit 86 0 pa n 1) none s
      | none => countBytes c pa n (ws.foldl (fun s w => writeParts c [(w.1, w.2.length)] w.2 s) s)
    physWrite c t (d.drop n) (en.drop n) s

/-- R380: an access at an offset of PF0's BAR2, under context 0x00. -/
def execPf0ApertureAccess (stream : Option Nat) (tag off : Nat) (write : Bool) (len : Nat) (data : List Byte) (en : List Bool)
    (s : State) : Res :=
  let n := if write then data.length else len
  .next (inbound stream (refuseUr 0 tag write) (fun s =>
    if !memEnable s 0 || inD3 s || decide (bar2Bytes s < off + n) then refuseUr 0 tag write s
    else
      let parts := granuleParts (fld s hostPage Reg.HOST_APERTURE_BASE * 2 ^ 21 + off) n
      if write then physWrite 0 parts data en s
      else match physRead 0 s parts with
        | .ok d => complete 0 tag 0 d (parts.foldl (fun s p => countBytes 0 p.1 p.2 s) s)
        | .error e => answerCa 0 tag (accessFailed 0 e (plainUnit 86 0 0 n 0) none s)) s)

/-- R381: an access at an offset of VF n's BAR2, through context n's translation. A fault does not stall. -/
def execVfApertureAccess (stream : Option Nat) (fn tag off : Nat) (write : Bool) (len : Nat) (data : List Byte) (en : List Bool)
    (s : State) : Res :=
  let n := if write then data.length else len
  .next (inbound stream (refuseUr fn tag write) (fun s =>
    if fn = 0 || !fnExists s fn || !memEnable s fn || decide (2 ^ 36 < off + n) then refuseUr fn tag write s
    else if ctxState s fn = 0 ∨ 5 ≤ ctxState s fn ∨ (ctx s fn).flrPending = true then
      (if write then s else answerUr fn tag s)
    else
      let va := fld s (pageWin fn 0) Reg.APERTURE_BASE * 2 ^ 21 + off
      let u := plainUnit 86 0 va n (b2n write)
      if write then
        match writeUnits 86 fn (enabledWrites va data (if en.isEmpty then none else some en)) s with
        | .ok s => s
        | .error e => accessFailed fn e.err u none s
      else match vread s 86 fn va n with
        | .ok d => complete fn tag 0 d (accessed 86 fn va n false s)
        | .error e => answerCa fn tag (accessFailed fn e u none s)) s)

/-- R383: an inbound request that nothing serves. -/
def execInboundUnsupported (fn tag : Nat) (what : Unserved) (s : State) : Res :=
  .next (match what with
    | .outside posted => refuseUr fn tag posted s
    | .io | .atomicOp => answerUr fn tag s
    | .poisonedWrite => aerLog 12 false (count hostPage Reg.HOST_ERRS_POISONED 1 s)
    | .vendorMessage => s)

/-! Requests to host memory (R385 to R387, R389) -/

/-- The passes a request of an executor serves: those of its context with a piece that runs there. -/
def servedPasses (s : State) (h : Header) : List Nat :=
  let x := match nodeBlock h.src with
    | some (.engine t) => some t
    | some (.site i) => some (64 + i)
    | _ => none
  match x with
  | none => []
  | some x => (s.passes.filter (fun p => p.ctx == h.ctx && p.pieces.any (fun q => q.exec == x && q.state == .running))).map (·.id)

/-- A request to host memory that failed is answered `DATA_ERROR`: a record of class 0x070 with the function, the AER bit
and the tag; the pass it served fails and its context runs on (R389, R403). -/
def hostFailed (h : Header) (aer tag : Nat) (s : State) : State :=
  let ids := servedPasses s h
  let r : ErrRec := { page := hostPage, ctx := h.ctx, sev := 1, cls := 0x070, addr := h.addr, addrValid := true
                      detail := h.ctx % 256 + aer * 2 ^ 8 + tag % 2 ^ 14 * 2 ^ 16 }
  respond h 4 [] (failPasses 1 ids (raiseErr (r.ofPass (ids.head?.bind (pass s))) s))

/-- The host bytes a request asks for: address and length. -/
def hostSpan (h : Header) : Nat × Nat :=
  if h.opcode = 0x30 then
    let l := setBits (h.opArg % 256) 8
    let lo := l.headD 0
    (busAddr (h.addr / 256 * 256) + 32 * lo, 32 * (l.getLastD 0 - lo + 1))
  else if h.opcode = 0x35 then (busAddr h.addr, 0)
  else if h.opcode = 0x31 then (busAddr (h.addr / 256 * 256), 256)
  else (busAddr (h.addr / 32 * 32), 32)

/-- An add to a sector of the request is in progress: other requests to it are held back (R385). -/
def sectorHeld (s : State) (h : Header) : Bool :=
  let r := hostSpan h
  s.host.tags.any (fun t => t.hdr.opcode == 0x34 && decide (r.1 < t.addr + 32) && decide (t.addr < r.1 + max 1 r.2))

/-- The lowest tag that is neither outstanding nor quarantined. -/
def freeTag (s : State) : Option Nat :=
  (List.range 8192).find? (fun t => !s.host.tags.any (fun x => x.tag == t) && !s.host.quarantined.contains t)

/-- Issues a request to the host: a posted write at once, a read under a tag. -/
def hostIssue (h : Header) (units : List Unit256) (s : State) : State :=
  let sec := h.addr / 32 * 32
  let u := units.headD {}
  if h.opcode = 0x31 then respondOk h (hostWrite h.ctx (h.addr / 256 * 256) (slice u.bytes 0 256) (u.be.getD []) s)
  else if h.opcode = 0x33 then respondOk h (hostWrite h.ctx sec (slice h.inlineData 0 32) (narrowEnables h) s)
  else if h.opcode = 0x30 ∧ h.opArg % 256 = 0 then respond h 0 [{ bytes := List.replicate 256 0 }] s
  else match freeTag s with
    | none => s
    | some t =>
      let r := hostSpan h
      emit (.hostReq h.ctx (outStream s h.ctx) t false r.1 [] [] r.2)
        { s with host := { s.host with tags := s.host.tags ++ [{ tag := t, fn := h.ctx, hdr := h, addr := r.1, len := r.2 }] } }

/-- A request can be issued now: no add holds its sector, and a read finds room among 4,096. -/
def hostRoom (s : State) (h : Header) : Bool :=
  !sectorHeld s h && (h.opcode == 0x31 || h.opcode == 0x33 || (decide (s.host.tags.length < 4096) && (freeTag s).isSome))

/-- Waiting requests leave in order. -/
def drainHost : Nat → State → State
  | 0, s => s
  | n + 1, s =>
    match s.host.waiting with
    | [] => s
    | (h, us) :: t => if hostRoom s h then drainHost n (hostIssue h us { s with host := { s.host with waiting := t } }) else s

/-- A request reaches the host port: it is checked, and issued or made to wait (R385, R386, R393). -/
def hostArrive (h : Header) (units : List Unit256) (s : State) : State :=
  if !h.xlated || !isHost h.addr || decide (64 ≤ h.ctx) || (h.opcode == 0x34 && decide (2 < h.opArg % 16)) then respond h 2 [] s
  else if !busMaster s h.ctx then hostFailed h 0 0 (count hostPage Reg.HOST_COUNTS_BME_BLOCKED 1 s)
  else if flag s hostPage Reg.HOST_IDE_REQUIRE && outStream s h.ctx == 0 then hostFailed h 0 0 s
  else if s.host.waiting.isEmpty && hostRoom s h then hostIssue h units s
  else { s with host := { s.host with waiting := s.host.waiting ++ [(h, units)] } }

/-- R385, R386: a granule of host memory is read. -/
def execHmRd (h : Header) (s : State) : Res := .next (hostArrive { h with opcode := 0x30 } [] s)
/-- R387: host memory is written, and answered once the write has been transmitted. -/
def execHmWr (h : Header) (units : List Unit256) (s : State) : Res := .next (hostArrive { h with opcode := 0x31 } units s)
/-- R385: a sector of host memory is read. -/
def execHmRdNarrow (h : Header) (s : State) : Res := .next (hostArrive { h with opcode := 0x32 } [] s)
/-- R385: a sector of host memory is written. -/
def execHmWrNarrow (h : Header) (s : State) : Res := .next (hostArrive { h with opcode := 0x33 } [] s)
/-- R385: an add into host memory, by a read and a write. -/
def execHmAddNarrow (h : Header) (s : State) : Res := .next (hostArrive { h with opcode := 0x34 } [] s)
/-- R387: answered once every earlier write has been transmitted and a zero-length read has completed. -/
def execHmFlush (h : Header) (s : State) : Res := .next (hostArrive { h with opcode := 0x35 } [] s)

/-- A read has completed whole: the request it served is answered; an add writes its sector back. -/
def hostDone (t : HostTag) (d : List Byte) (s : State) : State :=
  let h := t.hdr
  if h.opcode = 0x30 then
    let base := t.addr - busAddr (h.addr / 256 * 256)
    let all := List.replicate base 0 ++ d ++ List.replicate (256 - base - d.length) 0
    respond h 0 [{ bytes := (List.range 256).map (fun i => if tst h.opArg (i / 32) then (all.drop i).headD 0 else 0) }] s
  else if h.opcode = 0x32 then respondInline h d 0 s
  else if h.opcode = 0x34 then
    respondOk h (hostWrite t.fn (h.addr / 32 * 32) (addElems (h.opArg % 16) d (slice h.inlineData 0 32)) [] s)
  else respondOk h s

/-- Removes an outstanding tag. -/
def dropTag (tag : Nat) (s : State) : State := { s with host := { s.host with tags := s.host.tags.filter (fun t => t.tag != tag) } }

/-- A completion that no request expects is discarded (R389). -/
def unexpectedCompletion (s : State) : State := aerLog 16 true (count hostPage Reg.HOST_COUNTS_UNEXPECTED 1 s)

/-- R389: a completion arrives: its status, byte count and lower address, and whether it is poisoned. -/
def execHostCompletion (tag status : Nat) (poisoned : Bool) (byteCount lower : Nat) (data : List Byte) (s : State) : Res :=
  .next (match s.host.tags.find? (fun t => t.tag == tag) with
    | none => unexpectedCompletion s
    | some t =>
      let left := t.len - t.got.length
      let d := data.take left
      if status ≠ 0 then drainHost s.host.waiting.length (hostFailed t.hdr (if status = 4 then 15 else 20) tag (dropTag tag s))
      else if byteCount ≠ max 1 left ∨ lower ≠ (t.addr + t.got.length) % 128 ∨ (d = [] ∧ left ≠ 0) then unexpectedCompletion s
      else if poisoned then
        drainHost s.host.waiting.length
          (hostFailed t.hdr 12 tag (dropTag tag (aerLog 12 false (count hostPage Reg.HOST_ERRS_POISONED 1 s))))
      else if d.length = left then drainHost s.host.waiting.length (hostDone t (t.got ++ d) (dropTag tag s))
      else { s with host := { s.host with tags := s.host.tags.map (fun x => if x.tag = tag then { x with got := t.got ++ d } else x) } })

/-- R389: an outbound request times out. -/
def execCompletionTimeout (tag : Nat) (s : State) : Res :=
  .next (match s.host.tags.find? (fun t => t.tag == tag) with
    | none => s
    | some t =>
      let s := dropTag tag { s with host := { s.host with quarantined := addNew s.host.quarantined tag } }
      let s := aerLog 14 false (count hostPage Reg.HOST_COUNTS_TIMEOUTS 1 s)
      drainHost s.host.waiting.length (hostFailed t.hdr 14 tag s))

/-- R389: a quarantined tag can be used again. -/
def execTagQuarantineEnd (tag : Nat) (s : State) : Res :=
  .next (drainHost s.host.waiting.length { s with host := { s.host with quarantined := s.host.quarantined.filter (· != tag) } })

/-! Resets (R390 to R392) -/

/-- The registers of every BAR0 page that a host reset clears. -/
def hostResets (key : Nat) : Bool :=
  let off := key / 64 % 0x10000
  decide (key / 64 / 0x10000 < 0x400) &&
    (off == 0x010 || off == 0x020 || off == 0x028 || (decide (0x038 ≤ off) && decide (off ≤ 0x058)) || off == 0x078 ||
      (off == 0x068 && key % 64 == 32))

/-- Configuration dwords whose bits are sticky: AER, flit logging, lane margining (R390). -/
def stickyCfg (key : Nat) : Bool :=
  let off := key % 4096
  key / 4096 == 0 && ((decide (0x100 ≤ off) && decide (off < 0x150)) || (decide (0x330 ≤ off) && decide (off < 0x360)))

/-- Context 0x00's queue, translation and fence registers return to their reset values; its bindings are kept. -/
def resetCtx0 (s : State) : State :=
  let s := discardFaults 0 (dropAll 0 s)
  let s := { s with
    regs := s.regs.filter (fun e => !(e.1 / 64 / 0x10000 == pageWin 0 0 && decide (e.1 / 64 % 0x10000 < 0x3000)))
    passes := s.passes.filter (fun p => p.ctx != 0)
    xlate := { s.xlate with seqs := Tab.del s.xlate.seqs 0, invals := s.xlate.invals.filter (fun i => i.ctx != 0) } }
  modCtx 0 (fun c => { c with lastRing := 15 }) ((boundTiles s 0).foldl (fun s n => clearArray n 1 s) s)

/-- Hot reset, link-down, PF0 FLR (R390): code as `HOST_RESET.LAST`. -/
def hostReset (code : Nat) (s : State) : State :=
  let ks := ((List.range 64).filter (fun k => k != 0 && ctxState s k != 0))
  let s := ks.foldl (fun s k => ctxEnd k s) s
  let s := resetCtx0 s
  let s := { s with
    regs := s.regs.filter (fun e => !hostResets e.1), msix := []
    host := { s.host with cfg := s.host.cfg.filter (fun e => stickyCfg e.1), ideKeys := [], ends := ks, doe := [] }
    heart := { s.heart with spdm := 0, spdmKeys := 0, spdmDone := false } }
  setFlds hostPage [(Reg.HOST_IDE_LINK_SECURE, 0), (Reg.HOST_IDE_SEL, 0), (Reg.HOST_RESET_LAST, code)] s

/-- R390: a hot reset. -/
def execHotReset (s : State) : Res := .next (hostReset 2 s)

/-- R390: the host link goes down. -/
def execHostLinkDown (s : State) : Res :=
  .next (
    let up := fld s hostPage Reg.HOST_LINK_RATE != 0
    let s := setFlds hostPage [(Reg.HOST_LINK_RATE, 0), (Reg.HOST_LINK_WIDTH, 0), (Reg.HOST_LINK_FLIT, 0)] (hostReset 3 s)
    if up then raiseSrc hostPage 3 s else s)

/-- R390: a function-level reset of PF0. -/
def execPf0Flr (s : State) : Res := .next (hostReset 4 s)

/-- A function-level reset of VF k (R390 to R392): its configuration and MSI-X table are reset and context k ends; it
completes when the context is EMPTY. -/
def vfFlr (k : Nat) (s : State) : State :=
  let s := { s with msix := s.msix.filter (fun e => e.1 / 512 != k)
                    host := { s.host with cfg := s.host.cfg.filter (fun e => e.1 / 4096 != k) } }
  if ctxState s k = 0 then emit (.answer 0x00E k []) (count hostPage Reg.HOST_RESET_VF_FLRS 1 s)
  else ctxEnd k (modCtx k (fun c => { c with flrPending := true }) s)

/-- R390: a function-level reset of a VF. -/
def execVfFlr (fn : Nat) (s : State) : Res := .next (if fn = 0 ∨ !fnExists s fn then s else vfFlr fn s)

/-- Clearing `VF Enable` is an FLR of every enabled VF (R377, R390). -/
def vfEnableClear (s : State) : State :=
  if !vfEnable s then s
  else
    let ks := (List.range 64).filter (fun k => k != 0 && fnExists s k)
    let s := ks.foldl (fun s k => vfFlr k s) s
    setCfg 0 0x268 (clrBit (cfgDw s 0 0x268) 0) s

/-- R377: `VF Enable` is cleared. -/
def execVfEnableClear (s : State) : Res := .next (vfEnableClear s)

/-- R377: a write of `NumVFs`, ignored while `VF Enable` is 1. -/
def numVfsWrite (v : Nat) (s : State) : State := if vfEnable s then s else setCfg 0 0x270 (v % 65536) s

def execNumvfsWrite (value : Nat) (s : State) : Res := .next (numVfsWrite value s)

/-- R378: a resize of BAR2, by PCIe's size code (16 for 64 GiB to 20 for 1 TiB): ignored while `Memory Space Enable` is 1,
and for a size not offered. -/
def barResize (v : Nat) (s : State) : State :=
  if memEnable s 0 || decide (v < 16) || decide (20 < v) then s else setCfg 0 0x2A8 (v * 256) s

def execBarResize (size : Nat) (s : State) : Res := .next (barResize size s)

/-! Configuration space (R376 to R379) -/

/-- Extended capabilities of PF0 in order: offset, PCIe's capability ID and version, next pointer. -/
def extCaps : List (Nat × Nat × Nat × Nat) :=
  [(0x100, 0x0001, 2, 0x150), (0x150, 0x000E, 1, 0x160), (0x160, 0x0019, 1, 0x180), (0x180, 0x0025, 1, 0x190),
   (0x190, 0x0026, 1, 0x1C0), (0x1C0, 0x002A, 1, 0x1F0), (0x1F0, 0x0031, 1, 0x220), (0x220, 0x0027, 1, 0x260),
   (0x260, 0x0010, 1, 0x2A0), (0x2A0, 0x0015, 1, 0x2B0), (0x2B0, 0x001F, 1, 0x2C0), (0x2C0, 0x002E, 2, 0x300),
   (0x300, 0x0003, 1, 0x310), (0x310, 0x0022, 1, 0x320), (0x320, 0x002F, 1, 0x330), (0x330, 0x0032, 1, 0x360),
   (0x360, 0x0023, 1, 0x400), (0x400, 0x0030, 1, 0)]

/-- `DEVICE_ID` as one word. -/
def deviceId (s : State) : Nat := regWord s 0 .global_ 0x100

/-- Speed code of PCIe for a rate of `HOST_LINK`. -/
def linkSpeed (rate : Nat) : Nat := if rate = 0 then 0 else rate + 3

/-- The fixed bits of a dword of PF0, or of a VF. -/
def cfgFixed (s : State) (fn off : Nat) : Nat :=
  match off with
  | 0x00 => 0x1DF7 + (if fn = 0 then 0x4004 else 0x4005) * 65536
  | 0x04 => 0x100000
  | 0x08 => 0x12000000 + fld s 0 Reg.DEVICE_ID_STEPPING
  | 0x10 => if fn = 0 then 0x4 else 0
  | 0x18 => if fn = 0 then 0xC else 0
  | 0x20 => if fn = 0 then 0x4 else 0
  | 0x2C => s.heart.subsys
  | 0x34 => if fn = 0 then 0x40 else 0x50
  | 0x40 => if fn = 0 then 0x00035001 else 0
  | 0x44 => if fn = 0 then 0x8 else 0
  | 0x50 => 0x0002B010
  | 0x54 => 0x10008002
  | 0x5C => 0x106
  | 0x60 => (linkSpeed (fld s hostPage Reg.HOST_LINK_RATE) + fld s hostPage Reg.HOST_LINK_WIDTH * 16) * 65536
  | 0x74 => 0xF
  | 0x7C => 0x70
  | 0xB0 => 0x11 + (if fn = 0 then 322 else 2) * 65536
  | 0xB4 => if fn = 0 then 0x000E8000 else 0x3F000
  | 0xB8 => if fn = 0 then 0x000EA000 else 0x3F800
  | _ =>
    if fn ≠ 0 then (if off = 0x100 then 0x15000000 else if off = 0x150 then 0x1000E else 0)
    else match extCaps.find? (fun c => c.1 == off) with
      | some c => c.2.1 + c.2.2.1 * 65536 + c.2.2.2 * 2 ^ 20
      | none =>
        match off with
        | 0x26C => 63 + 63 * 65536
        | 0x274 => 1 + 65536
        | 0x278 => 0x4005 * 65536
        | 0x284 => 0x4
        | 0x28C => 0xC
        | 0x2A4 => 0x01F00000
        | 0x2A8 => 0x22
        | 0x2B4 => 0x106
        | 0x2CC => if s.host.doe.isEmpty then 0 else 2 ^ 31
        | 0x2D4 => leAt s.host.doe 0 4
        | 0x304 => Config.deviceSerial % 2 ^ 32
        | 0x308 => Config.deviceSerial / 2 ^ 32 % 2 ^ 32
        | 0x314 => Config.readinessTimes % 2 ^ 32
        | 0x364 => 0x1DF7 + 0x018 * 2 ^ 20
        | 0x368 => 0x0001 + 0x0001 * 65536
        | 0x36C => deviceId s % 2 ^ 32
        | 0x370 => deviceId s / 2 ^ 32 % 2 ^ 32
        | 0x404 => 0x003F0063
        | 0x410 => b2n (streamSecure s 0) * 2
        | _ =>
          if 0x414 ≤ off ∧ off < 0x914 ∧ (off - 0x414) % 20 = 8 then b2n (streamSecure s ((off - 0x414) / 20 + 1)) * 2 else 0

/-- The bits of a dword that software sets: for PF0, for a VF. -/
def cfgMask (s : State) (fn off : Nat) : Nat :=
  if fn ≠ 0 then (match off with | 0x04 => 0x4 | 0x58 => 0x79FF | 0x78 => 0xF | 0xB0 => 0xC0000000 | _ => 0)
  else match off with
    | 0x04 => 0x146
    | 0x10 => 0xFC000000
    | 0x14 => 0xFFFFFFFF
    | 0x1C => 2 ^ 32 - bar2Bytes s / 2 ^ 32
    | 0x20 => 0xFF000000
    | 0x24 => 0xFFFFFFFF
    | 0x30 => 0xFFE00001
    | 0x44 => 0x3
    | 0x58 => 0x79FF
    | 0x78 => 0x100F
    | 0xB0 => 0xC0000000
    | 0x104 => 0xFFFFFFFF
    | 0x108 => 0xFFFFFFFF
    | 0x10C => 0xFFFFFFFF
    | 0x110 => 0xFFFFFFFF
    | 0x114 => 0xFFFFFFFF
    | 0x268 => 0x19
    | 0x270 => 0xFFFF
    | 0x284 => 0xFFFC0000
    | 0x288 => 0xFFFFFFFF
    | 0x290 => 0xFFFFFFF0
    | 0x2A8 => 0x3F00
    | 0x2B8 => 0x3
    | 0x40C => 0xFF000001
    | _ =>
      if 0x414 ≤ off ∧ off < 0x914 then
        (match (off - 0x414) % 20 with | 4 => 0xFF000001 | 12 => 0x00FFFF00 | 16 => 0xFFFFFF01 | _ => 0)
      else 0

/-- A dword of configuration space as it reads. -/
def cfgRead (s : State) (fn off : Nat) : Nat := cfgFixed s fn off ||| (cfgDw s fn off &&& cfgMask s fn off)

/-- The bytes of `new` that the enables name, the others of `old`. -/
def mergeDw (old new be : Nat) : Nat :=
  ofBytes ((List.range 4).map (fun i => if tst be i then BitVec.ofNat 8 (new / 2 ^ (8 * i)) else BitVec.ofNat 8 (old / 2 ^ (8 * i))))

/-- Every pending message of a function whose vector is unmasked is sent (R384). -/
def sendPending (fn : Nat) (s : State) : State :=
  (s.msix.filter (fun e => e.1 / 512 == fn && e.2.pending && !e.2.masked)).foldl (fun s e =>
    if tst (cfgDw s fn 0xB0) 31 && !tst (cfgDw s fn 0xB0) 30 then
      emit (.msix fn (e.1 % 512)) { s with msix := Tab.put {} s.msix e.1 { e.2 with pending := false } }
    else s) s

/-- A dword of configuration space is written. -/
def cfgWrite (fn off data be : Nat) (s : State) : State :=
  let v := mergeDw (cfgDw s fn off) (data % 2 ^ 32) be &&& cfgMask s fn off
  if off = 0x58 ∧ tst be 1 = true ∧ tst data 15 = true then (if fn = 0 then hostReset 4 s else vfFlr fn s)
  else if off = 0x44 ∧ (v % 4 = 1 ∨ v % 4 = 2) then s
  else if off = 0xB0 then sendPending fn (setCfg fn off v s)
  else if fn = 0 ∧ (off = 0x104 ∨ off = 0x110) then
    setCfg 0 off (cfgDw s 0 off &&& (2 ^ 32 - 1 - mergeDw 0 (data % 2 ^ 32) be)) s
  else if fn = 0 ∧ off = 0x268 then
    if vfEnable s ∧ !tst v 0 then setCfg 0 off v (vfEnableClear s) else setCfg 0 off v s
  else if fn = 0 ∧ off = 0x270 then numVfsWrite (mergeDw (numVfs s) (data % 2 ^ 32) be) s
  else if fn = 0 ∧ off = 0x2A8 then barResize (bits v 13 8) s
  else if fn = 0 ∧ off = 0x2C8 then (if tst be 0 && tst data 0 then { s with host := { s.host with doe := [] } } else s)
  else if fn = 0 ∧ off = 0x2D4 then { s with host := { s.host with doe := s.host.doe.drop 4 } }
  else if cfgMask s fn off = 0 then s
  else setCfg fn off v s

/-- R391: a configuration request for a dword, of function `fn` as reached on bus `bus`. -/
def execConfigRequest (stream : Option Nat) (bus fn tag off : Nat) (write : Bool) (data be : Nat) (s : State) : Res :=
  let off := off % 4096 / 4 * 4
  .next (inbound stream (answerUr fn tag) (fun s =>
    if !fnExists s fn then answerUr fn tag s
    else if retries s fn then complete fn tag 2 [] s
    else if write then
      complete fn tag 0 [] (cfgWrite fn off data be { s with host := { s.host with bus := bus % 256 } })
    else complete fn tag 0 (leBytes 4 (cfgRead s fn off)) s) s)

/-- R384: a vector is unmasked; its pending message is sent. -/
def msixUnmask (fn vec : Nat) (s : State) : State :=
  sendPending fn { s with msix := Tab.mod {} s.msix (msixKey fn vec) (fun e => { e with masked := false }) }

def execMsixUnmask (fn vec : Nat) (s : State) : Res :=
  .next (if 64 ≤ fn ∨ (if fn = 0 then 323 else 3) ≤ vec then s else msixUnmask fn vec s)

/-! PTM and the link (R394, R403, R477) -/

/-- R394: a PTM Request, answered after an interval in ns: code 2 ResponseD with the time and the interval, code 1 Response. -/
def execPtmRequest (delay : Nat) (s : State) : Res :=
  .next (
    if !tst (cfgDw s 0 0x2B8) 0 then s
    else if timeState s = 2 ∨ timeState s = 3 then
      emit (.answer 0x2B0 2 (leBytes 8 (nowNs s % 2 ^ 64) ++ leBytes 4 delay)) (count hostPage Reg.HOST_PTM_RESPONSES 1 s)
    else emit (.answer 0x2B0 1 []) s)

/-- R403: the host link has trained: rate 1 16, 2 32, 3 64 GT/s. It trains after bring-up step 2 and with `PERST_N` high. -/
def execHostLinkUp (rate width : Nat) (flit : Bool) (s : State) : Res :=
  .next (
    if s.power.perst ∨ s.power.off ∨ fld s 0x001 Reg.RESET_BRINGUP_STEP < 3 ∨ rate % 4 = 0 then s
    else raiseSrc hostPage 3 (setFlds hostPage [(Reg.HOST_LINK_RATE, rate), (Reg.HOST_LINK_WIDTH, width),
      (Reg.HOST_LINK_FLIT, b2n flit)] s))

end Sys2Proof.Machine
end

