-- ==== Sys2Proof/Machine/Peat.lean ====
section
/-! DEFINITION. The peat ports (R229, R385, R396 to R405): requests to the expanders, entering and leaving service. -/

namespace Sys2Proof.Machine

def peat (s : State) (p : Nat) : PeatSt := Tab.get {} s.peats p
def setPeat (p : Nat) (x : PeatSt) (s : State) : State := { s with peats := Tab.put {} s.peats p x }

/-- Pins of port p (R512): slot power, `PTp_PERST_N`, and the two indicators. -/
def pinSlotPower (p : Nat) : Nat := 40 + p
def pinSlotPerst (p : Nat) : Nat := 44 + p
def pinAttnLed (p : Nat) : Nat := 48 + p
def pinPwrLed (p : Nat) : Nat := 52 + p

/-- The first frame of a port's window (R196). -/
def peatBase (p : Nat) : Nat := 2 ^ 27 + 2 ^ 21 * p

def inService (s : State) (p : Nat) : Bool := flag s (pagePeat p) Reg.PAGE_STATUS_IN_SERVICE

/-- The power indicator (R399): 1 on, 2 blinking, 3 off. -/
def powerLed (p code : Nat) (s : State) : State :=
  setPin (pinPwrLed p) (code != 3) (setFld (pagePeat p) Reg.SLOT_CTRL_PWR_IND code s)

/-! Requests (R385, R398) -/

/-- A CXL.mem request failed: cause 1 poison, 2 timeout. The sector is marked and the requester charged as R210 states. -/
def peatFailed (c pa cause : Nat) (s : State) : State :=
  if cause = 1 then uncorrectable c pa none s
  else
    let p := pagePeat (peatPort pa)
    let s := count p Reg.PEAT_COUNTS_TIMEOUTS 1 (markBad pa s)
    let r : ErrRec := { page := p, ctx := if c < 0x40 then c else 0, sev := 1, cls := 0x072, addr := pa, addrValid := true
                        detail := cause }
    raiseAndFault r [] s

/-- The first address a request touches. -/
def peatAddr (h : Header) : Nat :=
  if h.opcode ≤ 0x21 then h.addr / 256 * 256 + 32 * ((setBits (if h.opcode = 0x20 then h.opArg % 256 else 255) 8).headD 0)
  else h.addr / 32 * 32

/-- Writes the enabled bytes of sectors at a port; answers whether a sector was discarded (R210). -/
def peatWrite (c pa : Nat) (data : List Byte) (en : List Bool) (s : State) : State × Bool :=
  (List.range (data.length / 32)).foldl (fun r i =>
    let e := (en.drop (32 * i)).take 32
    if !en.isEmpty && !e.any id then r
    else
      let w := mcWriteSector c (pa + 32 * i) (slice data (32 * i) 32) e r.1
      (w.1, r.2 || w.2)) (s, false)

/-- A request that the expander answers cleanly. -/
def peatPerform (h : Header) (data : List Byte) (en : List Bool) (s : State) : State :=
  let g := h.addr / 256 * 256
  let sec := h.addr / 32 * 32
  let wrote (r : State × Bool) : State := respond h (if r.2 then 4 else 0) [] r.1
  match h.opcode with
  | 0x20 =>
    let m := h.opArg % 256
    (match (setBits m 8).find? (fun i => isBad s (g + 32 * i)) with
     | some i => respond h 4 [] (peatFailed h.ctx (g + 32 * i) 1 s)
     | none => respond h 0 [{ bytes := memSectors s g m 8 }] s)
  | 0x21 => wrote (peatWrite h.ctx g data en s)
  | 0x22 => if isBad s sec then respond h 4 [] (peatFailed h.ctx sec 1 s) else respondInline h (memSectors s sec 1 1) 0 s
  | 0x23 => wrote (peatWrite h.ctx sec data en s)
  | _ =>
    if isBad s sec then respond h 4 [] (peatFailed h.ctx sec 1 s)
    else respondOk h (mcWriteSector h.ctx sec (addElems (h.opArg % 16) (memSectors s sec 1 1) data) [] s).1

/-- A request reaches port `port`: it is checked (R203, R385), and goes to the expander, which answers now or later. -/
def peatArrive (port : Nat) (h : Header) (data : List Byte) (en : List Bool) (answer : CxlAnswer) (s : State) : State :=
  if !h.xlated || !isPeat h.addr || peatPort h.addr != port || (h.opcode == 0x24 && decide (2 < h.opArg % 16)) then respond h 2 [] s
  else if !allowed s h.ctx h.addr then respond h 3 [] (ownerViolation h.ctx h.addr none s)
  else
    let rw := h.opcode == 0x21 || h.opcode == 0x23 || h.opcode == 0x24
    let s := emit (.cxlReq port rw h.addr (if rw then data else []) (if h.opcode ≤ 0x21 then 256 else 32)) s
    match answer with
    | .clean => peatPerform h data en s
    | .poison => respond h 4 [] (peatFailed h.ctx (peatAddr h) 1 s)
    | .pending => setPeat port { peat s port with outstanding := (peat s port).outstanding ++ [(h, data, en)] } s

/-- R385: a granule of the peat tier is read. -/
def execPtRd (port : Nat) (h : Header) (answer : CxlAnswer) (s : State) : Res :=
  .next (peatArrive (port % 4) { h with opcode := 0x20 } [] [] answer s)
/-- R385: a granule is written. -/
def execPtWr (port : Nat) (h : Header) (units : List Unit256) (answer : CxlAnswer) (s : State) : Res :=
  let u := units.headD {}
  .next (peatArrive (port % 4) { h with opcode := 0x21 } (slice u.bytes 0 256) (u.be.getD []) answer s)
/-- R385: a sector is read. -/
def execPtRdNarrow (port : Nat) (h : Header) (answer : CxlAnswer) (s : State) : Res :=
  .next (peatArrive (port % 4) { h with opcode := 0x22 } [] [] answer s)
/-- R385: a sector is written. -/
def execPtWrNarrow (port : Nat) (h : Header) (answer : CxlAnswer) (s : State) : Res :=
  .next (peatArrive (port % 4) { h with opcode := 0x23 } (slice h.inlineData 0 32) (narrowEnables h) answer s)
/-- R385: an add into a sector, with no other request to its line in between. -/
def execPtAddNarrow (port : Nat) (h : Header) (answer : CxlAnswer) (s : State) : Res :=
  .next (peatArrive (port % 4) { h with opcode := 0x24 } (slice h.inlineData 0 32) [] answer s)

/-- R398: the oldest request has gone unanswered for 1 ms. What a write in doubt left behind is a free value. -/
def execPeatRequestTimeout (port : Nat) (s : State) : Res :=
  let p := port % 4
  .next (match (peat s p).outstanding with
    | [] => s
    | (h, d, en) :: t =>
      let s := setPeat p { peat s p with outstanding := t } s
      let at_ := if h.opcode ≤ 0x21 then h.addr / 256 * 256 else h.addr / 32 * 32
      let s := if d.isEmpty then s else drew (setMem (s.mem.writes at_ (freeBytes s d.length) en) s)
      respond h 4 [] (peatFailed h.ctx (peatAddr h) 2 s))

/-- R398: firmware has read an event record of the expander. -/
def execExpanderEvent (port : Nat) (s : State) : Res := .next (raiseErr { page := pagePeat (port % 4), sev := 0, cls := 0x074 } s)

/-- R405: CXL IDE has failed on a link: the port's page records cause 0x3. -/
def execPeatIdeFailure (port : Nat) (s : State) : Res :=
  let p := pagePeat (port % 4)
  .next (if !flag s p Reg.PEAT_LINK_IDE_SECURE then s
    else raiseErr { page := p, sev := 2, cls := 0x071, detail := 3 } (setFld p Reg.PEAT_LINK_IDE_SECURE 0 s))

/-! Entering service (R397) -/

/-- The slot loses power: reset asserted, link down, its domain off. -/
def slotOff (p : Nat) (s : State) : State :=
  let pg := pagePeat p
  let was := flag s pg Reg.PEAT_LINK_RATE
  let s := setFlds pg [(Reg.SLOT_STATUS_POWER_ON, 0), (Reg.PEAT_LINK_RATE, 0), (Reg.PEAT_LINK_WIDTH, 0), (Reg.PEAT_LINK_FLIT256, 0),
    (Reg.PEAT_LINK_IDE_SECURE, 0), (Reg.PEAT_CAPACITY_GIB, 0), (Reg.PEAT_CAPACITY_DEVICE, 0), (Reg.PAGE_STATUS_IN_SERVICE, 0)] s
  let s := if was then raiseSrc pg 4 s else s
  let s := setPin (pinSlotPower p) false (setPin (pinSlotPerst p) false (setDomain (168 + p) false s))
  refreshPools (powerLed p 3 (setPeat p {} s))

/-- Ends the page's op, if it is the one. -/
def endPeatOp (p op result reason : Nat) (s : State) : State :=
  match pageOp s (pagePeat p) with
  | some o => if o.op = op then opEnd (pagePeat p) result (setFld (pagePeat p) Reg.PEAT_OP_REASON reason s) else s
  | none => s

/-- The port could not enter service. -/
def peatRefused (p reason : Nat) (s : State) : State :=
  endPeatOp p 0x10 4 reason (setFld (pagePeat p) Reg.PEAT_OP_REASON reason (slotOff p s))

/-- Steps 1 to 6 of R397; step 7 goes on frame by frame. -/
def peatStart (p : Nat) (found : Option PeatStart) (s : State) : State :=
  let pg := pagePeat p
  let s := powerLed p 2 (setPin (pinSlotPower p) true (setFld pg Reg.SLOT_STATUS_POWER_ON 1 (setDomain (168 + p) true s)))
  match found with
  | none => peatRefused p 1 s
  | some d =>
    let top := if fld s pg Reg.PEAT_CFG_MAX_RATE = 1 then 1 else 2
    let n := min (d.bytes / 2 ^ 21) (2 ^ 21)
    if !d.powerOk then peatRefused p 1 (raiseSrc pg 3 (setFld pg Reg.SLOT_STATUS_POWER_FAULT 1 s))
    else
      let s := setPin (pinSlotPerst p) true s
      if d.rate % 4 = 0 ∨ d.rate % 4 = 3 then peatRefused p 3 s
      else if !d.supported ∨ n = 0 then peatRefused p 4 s
      else if !d.ide ∧ flag s pg Reg.PEAT_CFG_IDE_REQUIRED = true then peatRefused p 5 s
      else
        let s := setFlds pg [(Reg.PEAT_LINK_RATE, min top (d.rate % 4)), (Reg.PEAT_LINK_WIDTH, d.width),
          (Reg.PEAT_LINK_FLIT256, b2n d.flit256), (Reg.PEAT_LINK_IDE_SECURE, b2n d.ide), (Reg.PEAT_CAPACITY_GIB, n / 512),
          (Reg.PEAT_CAPACITY_DEVICE, d.device), (Reg.PEAT_OP_REASON, 0)] (raiseSrc pg 4 s)
        let s := (List.range n).foldl (fun s i =>
          let f := peatBase p + i
          setFrame f { frame s f with ctx := 0xFF, state := .ashing } s) s
        refreshPools (setPeat p { frames := n, entering := true } s)

/-- R397: `OP_CONTROL.OP` 0x10; `found`: what the steps find in the slot (none: no device). -/
def execPeatEnterService (port : Nat) (found : Option PeatStart) (s : State) : Res :=
  let p := port % 4
  let pg := pagePeat p
  let begun := match pageOp s pg with | some o => o.op == 0x10 && !(peat s p).entering && !inService s p | none => false
  .next (if begun then peatStart p (if flag s pg Reg.SLOT_STATUS_PRESENT then found else none) s
    else if (pageOp s pg).isSome ∨ (peat s p).entering = true then opRefused pg s
    else
      let s := opRun pg 0x10 0 s
      if inService s p then endPeatOp p 0x10 4 2 s
      else peatStart p (if flag s pg Reg.SLOT_STATUS_PRESENT then found else none) s)

/-- R397: the next frame's ash completes. -/
def execPeatFrameAshed (port : Nat) (s : State) : Res :=
  let p := port % 4
  let x := peat s p
  .next (
    if !x.entering then s
    else
      let f := peatBase p + x.ashed
      let s := freeFrame f (ashFrameNow f s)
      let s := if x.ashed = 0 then powerLed p 1 (setFld (pagePeat p) Reg.PAGE_STATUS_IN_SERVICE 1 s) else s
      let s := setPeat p { x with ashed := x.ashed + 1, entering := decide (x.ashed + 1 < x.frames) } s
      match pageOp s (pagePeat p) with
      | some o =>
        if o.op ≠ 0x10 then s
        else
          let s := opStep (pagePeat p) ((x.ashed + 1) * 100 / x.frames) (x.ashed + 1) s
          if x.ashed + 1 < x.frames then s else endPeatOp p 0x10 3 0 s
      | none => s)

/-! Leaving service (R399 to R402) -/

/-- Frames of a port that the state lists. -/
def portFrames (s : State) (p : Nat) : List (Nat × FrameEnt) :=
  s.mem.frames.filter (fun e => decide (peatBase p ≤ e.1) && decide (e.1 < peatBase p + 2 ^ 21))

/-- Every frame of the port becomes GONE. -/
def framesGone (p : Nat) (s : State) : State :=
  (portFrames s p).foldl (fun s e => setFrame e.1 { e.2 with ctx := 0xFF, state := .gone, pinned := false } s) s

/-- R400: `OP_CONTROL.OP` 0x11. -/
def execPeatRemoval (port : Nat) (s : State) : Res :=
  let p := port % 4
  let pg := pagePeat p
  .next (if (pageOp s pg).isSome then opRefused pg s
    else
      let s := opRun pg 0x11 0 s
      if (portFrames s p).any (fun e => e.2.state == .owned || e.2.state == .ashing) then endPeatOp p 0x11 4 2 s
      else endPeatOp p 0x11 3 0 (opStep pg 99 4 (slotOff p (framesGone p s))))

/-- SURPRISE_REMOVAL (R401): cause 4 link-down, 5 power fault, 6 presence lost. -/
def surprise (p cause : Nat) (s : State) : State :=
  let pg := pagePeat p
  if !inService s p ∧ !(peat s p).entering then s
  else
    let outs := (peat s p).outstanding
    let owners := (((portFrames s p).filter (fun e => e.2.state == .owned && decide (e.2.ctx < 64))).map (fun e => e.2.ctx)).foldl addNew []
    let ms := s.xlate.migrations.filter (fun m => [m.frameA, m.frameB].any (fun f => decide (peatBase p ≤ f) && decide (f < peatBase p + 2 ^ 21)))
    let s := slotOff p s
    let s := outs.foldl (fun s o => respond o.1 4 [] s) s
    let s := ms.foldl (fun s m => dropMigration m s) (framesGone p s)
    let s := owners.foldl (fun s k => raiseAndFault { page := pg, ctx := k, sev := 1, cls := 0x035, detail := cause } [] s) s
    let s := if cause = 5 then raiseSrc pg 3 (setFld pg Reg.SLOT_STATUS_POWER_FAULT 1 s) else s
    let s := raiseErr { page := pg, sev := 2, cls := 0x073, detail := cause } s
    let s := raiseSrc pg 2 (setFld pg Reg.SLOT_STATUS_SURPRISE 1 (count pg Reg.PEAT_COUNTS_SURPRISE 1 s))
    endPeatOp p 0x10 4 6 s

/-- R401: the link goes down, the power fails or presence is lost while the port is in service. -/
def execSurpriseRemoval (port cause : Nat) (s : State) : Res :=
  .next (if cause < 4 ∨ 6 < cause then s else surprise (port % 4) cause s)

/-- R399, R401, R402: presence changes, debounced. -/
def execPresenceChange (port : Nat) (present : Bool) (s : State) : Res :=
  let p := port % 4
  let pg := pagePeat p
  .next (if flag s pg Reg.SLOT_STATUS_PRESENT = present then s
    else
      let s := raiseSrc pg 0 (setFlds pg [(Reg.SLOT_STATUS_PRESENT, b2n present), (Reg.SLOT_STATUS_PRESENCE_CHANGED, 1)] s)
      if present then s else surprise p 6 s)

/-- R399: the attention button is pressed. -/
def execAttnButton (port : Nat) (s : State) : Res :=
  let pg := pagePeat (port % 4)
  .next (raiseSrc pg 1 (setFld pg Reg.SLOT_STATUS_ATTN_PRESSED 1 s))

end Sys2Proof.Machine
end

