-- ==== Sys2Proof/Machine/Heartwood.lean ====
section
/-! DEFINITION. Heartwood (R36 to R38, R395, R436 to R464): OTP, measurements, the mailbox, debug openings, the SPDM
responder of the DOE mailbox. -/

namespace Sys2Proof.Machine

def mbxPage : Nat := 0x00B
def lcPage : Nat := 0x00C
def debugPage : Nat := 0x00D

def modOtp (f : Otp → Otp) (s : State) : State := { s with heart := { s.heart with otp := f s.heart.otp } }

/-! OTP words (R449) -/

/-- Copy values of the life-cycle codes, and of the debug-policy codes. -/
def lcValues : List Nat := [0, 0xFFF, 0xFFFFFF, 0xFFFFFFFFF, 0xFFFFFFFFFFFF, 0xFFFFFFFFFFFFFFF]
def policyValues : List Nat := [0, 0xFFF, 0xFFF000, 0xFFFFFF]

/-- The code on which at least two copies agree, else the most restrictive one. -/
def decideWord (values copies : List Nat) : Nat :=
  match (List.range values.length).find? (fun c => decide (2 ≤ (copies.filter (· == values.getD c 0)).length)) with
  | some c => c
  | none => values.length - 1

/-- Bit i: copy i equals the decided code. -/
def copiesAgree (values copies : List Nat) : Nat :=
  mapOf ((List.range 3).filter (fun i => copies.getD i 0 == values.getD (decideWord values copies) 0))

def Otp.lifeCycle (o : Otp) : Nat := decideWord lcValues o.lc
def Otp.debugPolicy (o : Otp) : Nat := decideWord policyValues o.policy

/-- A record is open while its step 1 is taken and its step 4 is not (R454). -/
def OtpRecord.isOpen (r : OtpRecord) : Bool := decide (1 ≤ r.steps) && decide (r.steps < 4)

/-- The repair slot used of site n, or of stack n: the higher-numbered whose record checks (R38); none: no valid record. -/
def Otp.slotUsed (o : Otp) (base : Nat) : Option Nat :=
  [1, 0].find? (fun j => Tab.get none o.repair (base + j) == some true)

def Otp.ownerValid (o : Otp) : Nat := mapOf ((List.range 4).filter (fun j => o.ownerKeys.getD j 0 != 0 && !tst o.ownerRevoked j))
def Otp.vendorValid (o : Otp) : Nat := mapOf ((List.range 4).filter (fun j => !tst o.vendorRevoked j))

/-- What the life-cycle page and the sites' and stacks' pages show of the OTP (R463, R38). -/
def showOtp (s : State) : State :=
  let o := s.heart.otp
  let last := o.records.getLastD { target := 0, steps := 0 }
  let s := setFlds lcPage [(Reg.LC_STATE_STATE, o.lifeCycle), (Reg.LC_STATE_DEBUG_POLICY, o.debugPolicy),
    (Reg.LC_STATE_COPIES_AGREE, copiesAgree lcValues o.lc), (Reg.LC_STATE_POLICY_AGREE, copiesAgree policyValues o.policy),
    (Reg.LC_TRANSITION_STEPS, last.steps), (Reg.LC_TRANSITION_TARGET, last.target), (Reg.LC_TRANSITION_ENTRIES, o.records.length),
    (Reg.OTP_ROLLBACK_HW, Tab.get 0 o.thermo 1), (Reg.OTP_ROLLBACK_MGMT, Tab.get 0 o.thermo 2),
    (Reg.OTP_ROLLBACK_UEFI, Tab.get 0 o.thermo 3), (Reg.OTP_ROLLBACK_OWNER, Tab.get 0 o.thermo 4),
    (Reg.OTP_KEYS_VENDOR_VALID, o.vendorValid), (Reg.OTP_KEYS_OWNER_VALID, o.ownerValid)] s
  let s := (List.range 8).foldl (fun s n => setFlds (pageSite n) [
    (Reg.SITE_STATE_OTP_STATE, o.sites.getD n 0), (Reg.SITE_STATE_REPAIR_VALID, b2n (o.slotUsed (2 * n)).isSome),
    (Reg.SITE_STATE_SLOT_USED, (o.slotUsed (2 * n)).getD 0)] s) s
  (List.range 12).foldl (fun s n =>
    setFld (pageHbm n) Reg.HBM_REPAIR_SLOT_USED (match o.slotUsed (16 + 2 * n) with | some j => j | none => 2) s) s

/-! Measurements (R445) -/

/-- Register i becomes SHA-512 of its contents followed by v. -/
def extendMeas (i : Nat) (v : List Byte) (s : State) : State :=
  { s with heart := { s.heart with
      meas := Tab.put 0 s.heart.meas i (Config.sha512 (leBytes 64 (Tab.get 0 s.heart.meas i) ++ v) % 2 ^ 512) } }

/-! The mailbox (R462) -/

def mbxBody (s : State) (len : Nat) : List Byte := (List.range len).map (Tab.get 0 s.heart.mbx)

/-- A command completes: its code, its response over the body. -/
def mbxEnd (code : Nat) (resp : List Byte) (s : State) : State :=
  let mbx := (List.range resp.length).foldl (fun t i => Tab.put 0 t i (resp.getD i 0)) s.heart.mbx
  let s := { s with heart := { s.heart with mbx := mbx } }
  raiseSrc mbxPage 0 (setFlds mbxPage [(Reg.MBX_STATUS_BUSY, 0), (Reg.MBX_STATUS_CODE, code), (Reg.MBX_STATUS_LENGTH, resp.length)] s)

/-- A command that writes OTP has completed, or has failed (R463). -/
def otpEnd (code : Nat) (s : State) : State :=
  mbxEnd code [] (if code = 0 then bump lcPage Reg.OTP_STATUS_WRITES 1 (showOtp s)
    else raiseSrc lcPage 0 (setFld lcPage Reg.OTP_STATUS_LAST_ERROR code s))

/-- A body longer than the mailbox is refused before anything else. -/
def mbxCmd (len : Nat) (f : State → State) (s : State) : State := if 16384 < len then mbxEnd 0x0A [] s else f s

def vppOn (s : State) : Bool := flag s lcPage Reg.OTP_STATUS_VPP

/-- What consumes the nonce (R452, R460). -/
def consumeNonce (s : State) : State := setFlds debugPage ((List.range 4).map (fun i => (Reg.DEBUG_NONCE.at 8 i, 0))) s

/-- The bytes of `DEBUG_NONCE`. -/
def nonceBytes (s : State) : List Byte := ((List.range 4).map (fun i => leBytes 8 (fld s debugPage (Reg.DEBUG_NONCE.at 8 i)))).flatten

/-- What a mailbox signature covers: a code, `DEVICE_ID`, the nonce (R452). -/
def signedText (s : State) (head : List Byte) : List Byte := head ++ leBytes 8 (deviceId s) ++ nonceBytes s

/-- Whether a key hashes to a slot: 0x00 valid, 0x08 revoked, 0x03 none. -/
def keyFate (s : State) (vendor : Bool) (key : List Byte) : Nat :=
  let o := s.heart.otp
  let h := Config.sha512 key % 2 ^ 512
  let hit (j : Nat) : Bool := if vendor then Config.vendorKey j % 2 ^ 512 == h else o.ownerKeys.getD j 0 == h && h != 0
  let dead (j : Nat) : Bool := if vendor then tst o.vendorRevoked j else tst o.ownerRevoked j
  if (List.range 4).any (fun j => hit j && !dead j) then 0 else if (List.range 4).any hit then 0x08 else 0x03

/-- A signature block: a 133-byte public key and a 132-byte signature over a text. -/
def sigFate (s : State) (vendor : Bool) (blk text : List Byte) : Nat :=
  let key := blk.take 133
  let f := keyFate s vendor key
  if f ≠ 0 then f else if Config.ecdsaVerify key text (blk.drop 133) then 0 else 0x03

/-- R445: the mailbox command `EXTEND`. -/
def execExtend (len arg : Nat) (s : State) : Res :=
  .next (mbxCmd len (fun s =>
    if arg % 16 < 8 then mbxEnd 0x02 [] s
    else if len ≠ 64 then mbxEnd 0x0A [] s
    else mbxEnd 0 [] (extendMeas (arg % 16) (mbxBody s 64) s)) s)

/-- R462, R451: `ROLLBACK_COMMIT` raises a type's thermometer to the running image's version. -/
def execRollbackCommit (len arg : Nat) (s : State) : Res :=
  .next (mbxCmd len (fun s =>
    let t := arg % 16
    let v := Tab.get 0 s.heart.running t
    if t = 0 ∨ 4 < t then otpEnd 0x02 s
    else if lifeCycle s < 1 ∨ 3 < lifeCycle s ∨ v = 0 then otpEnd 0x04 s
    else if !vppOn s then otpEnd 0x05 s
    else if v - 1 < Tab.get 0 s.heart.otp.thermo t then otpEnd 0x07 s
    else otpEnd 0 (modOtp (fun o => { o with thermo := Tab.put 0 o.thermo t (v - 1) }) s)) s)

/-- R457, R449: `DEBUG_POLICY`: the new code and an owner signature. -/
def execDebugPolicy (len : Nat) (s : State) : Res :=
  .next (mbxCmd len (fun s =>
    let b := mbxBody s len
    let new := leAt b 0 1
    let old := s.heart.otp.debugPolicy
    let value := policyValues.getD new 0
    let fate := sigFate s false (b.drop 1) (signedText s (b.take 1))
    if lifeCycle s ≠ 2 ∧ lifeCycle s ≠ 3 then otpEnd 0x04 s
    else if len ≠ 266 ∨ 3 < new then otpEnd (if len ≠ 266 then 0x0A else 0x02) s
    else if fate ≠ 0 then otpEnd fate s
    else if !vppOn s then otpEnd 0x05 s
    else if value ||| policyValues.getD old 0 ≠ value then otpEnd 0x09 s
    else otpEnd 0 (modOtp (fun o => { o with policy := List.replicate 3 value }) s)) s)

/-- R453: `REVOKE_KEY`: the slot's kind (0 vendor, 1 owner) and number, and a signature of that kind. -/
def execRevokeKey (len : Nat) (s : State) : Res :=
  .next (mbxCmd len (fun s =>
    let b := mbxBody s len
    let vendor := leAt b 0 1 == 0
    let slot := leAt b 1 1
    let fate := sigFate s vendor (b.drop 2) (signedText s (b.take 2))
    if len ≠ 267 then otpEnd 0x0A s
    else if 1 < leAt b 0 1 ∨ 3 < slot then otpEnd 0x02 s
    else if vendor = false ∧ lifeCycle s ≠ 2 ∧ lifeCycle s ≠ 3 then otpEnd 0x04 s
    else if fate ≠ 0 then otpEnd fate s
    else if !vppOn s then otpEnd 0x05 s
    else if vendor ∧ clrBit (s.heart.otp.vendorValid) slot = 0 then otpEnd 0x09 s
    else otpEnd 0 (modOtp (fun o =>
      if vendor then { o with vendorRevoked := setBit o.vendorRevoked slot }
      else { o with ownerRevoked := setBit o.ownerRevoked slot }) s)) s)

/-- Repair records and per-site states (R37, R38, R450): the code an OTP item's write completes with. -/
def otpItemFate (s : State) (i : OtpItem) : Nat :=
  let lc := lifeCycle s
  let used (k : Nat) : Bool := (Tab.get none s.heart.otp.repair k).isSome
  match i with
  | .siteState n v =>
    if 8 ≤ n ∨ 2 < v then 0x02
    else if !(lc == 1 || lc == 2 || (lc == 3 && v == 2)) then 0x04
    else if !vppOn s then 0x05
    else if v < s.heart.otp.sites.getD n 0 then 0x09 else 0
  | .siteRepair n j _ =>
    if 8 ≤ n ∨ 2 ≤ j then 0x02 else if lc ≠ 1 ∧ lc ≠ 2 then 0x04 else if !vppOn s then 0x05
    else if used (2 * n + j) then 0x09 else 0
  | .hbmRepair n j _ =>
    if 12 ≤ n ∨ 2 ≤ j then 0x02 else if lc ≠ 1 ∧ lc ≠ 2 then 0x04 else if !vppOn s then 0x05
    else if used (16 + 2 * n + j) then 0x09 else 0

/-- Programs an item. -/
def otpItem (i : OtpItem) (o : Otp) : Otp :=
  match i with
  | .siteState n v => { o with sites := o.sites.set n v }
  | .siteRepair n j ok => { o with repair := Tab.put none o.repair (2 * n + j) (some ok) }
  | .hbmRepair n j ok => { o with repair := Tab.put none o.repair (16 + 2 * n + j) (some ok) }

/-- R37: the mailbox command `OTP_PROGRAM`. -/
def execOtpProgram (item : OtpItem) (s : State) : Res :=
  let fate := otpItemFate s item
  .next (otpEnd fate (if fate = 0 then modOtp (otpItem item) s else s))

/-- R462: `GET_CERT`: the slot 0 chain. -/
def execGetCert (len : Nat) (s : State) : Res :=
  .next (mbxCmd len (fun s => mbxEnd 0 ((Config.certChain (attestKey s)).take 16384) s) s)

/-! Wipes and debug openings (R454, R459, R460) -/

/-- A frame after a wipe of all memory: FREE, or as a bad, retired or gone frame stays. -/
def wipedFrame (e : FrameEnt) : FrameEnt :=
  match e.state with
  | .gone => e
  | .retired => e
  | _ => { ctx := 0xFF, state := if e.bad then .retired else .free, bad := e.bad, pinned := false }

/-- Every on-die SRAM, every HBM frame and the frames of the peat ports in service are wiped (R315, R454). -/
def wipeMem (s : State) : State :=
  let frames := s.mem.frames.foldl (fun t e => Tab.put (frameDefault e.1) t e.1 (wipedFrame e.2)) s.mem.frames
  let m := s.mem.wipe
  let s := { s with
    mem := { m with frames := frames }
    cache := []
    coh := { s.coh with agents := [], homes := [] }
    xlate := { s.xlate with holders := [], walkCache := [] }
    kiln := { s.kiln with pools := [] } }
  let s := (List.range 64).foldl (fun s n => modTile n (fun t => { t with bank0 := {}, bank1 := {}, acc := [], hist := [] }) s) s
  showKiln 0 (showKiln 1 s)

/-- Every memory key slot, session key and ember image is destroyed (R454, R459). -/
def destroyKeys (s : State) : State :=
  let s := (List.range 1024).foldl (fun s i => if (session s i).st = 0 then s else sessionFree i s) s
  let s := { s with ember := [], ctxs := s.ctxs.map (fun e => (e.1, { e.2 with keys := 0, session := 0, keySlot := false })) }
  (List.range 64).foldl (fun s k => setEmberState k 0 s) s

/-- Contexts 0x01 to 0x3F are EMPTY and no kiln round exists. -/
def hubVacant (s : State) : Bool :=
  (List.range 64).all (fun k => k == 0 || ctxState s k == 0) && (List.range 64).all (fun i => (kround s i).handle == 0)

/-- Debug opens: in `PROVISIONED` or `MISSION` `HOW` names the opening (R464). -/
def openDebug (how : Nat) (s : State) : State :=
  let s := if lifeCycle s = 2 ∨ lifeCycle s = 3 then setFld debugPage Reg.DEBUG_STATE_HOW how s else s
  raiseSrc debugPage 0 (setFld debugPage Reg.DEBUG_STATE_OPEN 1 s)

/-- The policy, honoured in `PROVISIONED` and `MISSION` (R457), forbids an opening: bits [11:0] the challenge, bits [23:12]
the erase. -/
def policyForbids (s : State) (erase : Bool) : Bool :=
  let p := s.heart.otp.debugPolicy
  (lifeCycle s == 2 || lifeCycle s == 3) && (p == 3 || p == (if erase then 2 else 1))

/-- R460: `DEBUG_TOKEN`. The token: 16 bytes of the identity key's hash, the nonce, a vendor key, its signature. -/
def debugToken (len : Nat) (s : State) : State :=
  let b := mbxBody s len
  let want := slice (leBytes 64 (Config.sha512 Config.identityKey)) 0 16 ++ nonceBytes s
  let key := slice b 48 133
  let good := decide (len = 313) && ofBytes (nonceBytes s) != 0 && b.take 48 == want && keyFate s true key == 0 &&
    Config.ecdsaVerify key (b.take 181) (b.drop 181)
  let s := consumeNonce s
  if policyForbids s false then mbxEnd 0x09 [] s
  else if !good then mbxEnd 0x03 [] s
  else
    let s := ((List.range 64).filter (fun k => isSealed s k)).foldl (fun s k => ctxEnd k s) s
    let s := extendMeas 7 (leBytes 64 (Config.sha512 b)) (destroyAllRounds s)
    mbxEnd 0 [] (openDebug 3 s)

def execDebugToken (len : Nat) (s : State) : Res := .next (mbxCmd len (debugToken len) s)

/-- The 64 bytes that the erase opening extends register 7 with: ASCII "erase", zeros. -/
def eraseText : List Byte := [0x65, 0x72, 0x61, 0x73, 0x65] ++ List.replicate 59 0

/-- R459: `DEBUG_REQ.ERASE`. -/
def debugErase (s : State) : State :=
  if policyForbids s true then mbxEnd 0x09 [] s
  else if !hubVacant s then mbxEnd 0x06 [] s
  else mbxEnd 0 [] (openDebug 2 (extendMeas 7 eraseText (destroyKeys (wipeMem s))))

def execDebugErase (s : State) : Res := .next (debugErase s)

/-- R460: `DEBUG_REQ.NEW_NONCE`. -/
def debugNonce (s : State) : State :=
  let b := freeBytes s 32
  drew (setFlds debugPage ((List.range 4).map (fun i => (Reg.DEBUG_NONCE.at 8 i, leAt b (8 * i) 8))) s)

def execDebugNewNonce (s : State) : Res := .next (debugNonce s)

/-! The DOE mailbox (R395, R458) -/

/-- The response in the mailbox; the DOE interrupt. -/
def doeReply (d : List Byte) (s : State) : State :=
  raiseSrc hostPage 1 (emit (.answer 0x00E 0x2C0 d) { s with host := { s.host with doe := d } })

/-- An SPDM 1.3 response: version, code, two parameters, items. -/
def spdmReply (code p1 p2 : Nat) (items : List Byte) (s : State) : State :=
  doeReply ([0x13, BitVec.ofNat 8 code, BitVec.ofNat 8 p1, BitVec.ofNat 8 p2] ++ items) s

/-- An SPDM `ERROR`: 0x04 unexpected request, 0x07 unsupported request. -/
def spdmError (code : Nat) (s : State) : State := spdmReply 0x7F code 0 [] s

def setSpdm (n : Nat) (s : State) : State := { s with heart := { s.heart with spdm := n } }

/-- Measurement blocks: 0 to 15 the registers, 16 the life-cycle code, 17 the debug state. -/
def measBlock (s : State) (i : Nat) : List Byte :=
  if i < 16 then leBytes 64 (Tab.get 0 s.heart.meas i) else if i = 16 then leBytes 1 (lifeCycle s) else leBytes 1 (b2n (debugOpen s))

def measBlocks (s : State) : List Byte := ((List.range 18).map (measBlock s)).flatten

/-- The attestation key's signature over what a response covers. -/
def spdmSign (s : State) (text : List Byte) : List Byte := slice (Config.ecdsaSign (attestSecret s) text) 0 132

/-- IDE keys and streams over the secured session (R393): only once `FINISH` has closed its handshake. -/
def ideKm (stream : Nat) (f : State → State) (s : State) : State :=
  if s.heart.spdmKeys = 0 ∨ !s.heart.spdmDone ∨ 65 ≤ stream then spdmError 0x04 s else spdmReply 0x7E 0 0 [] (f s)

/-- The responder. -/
def doeRequest (r : DoeReq) (s : State) : State :=
  let n := s.heart.spdm
  let chain := Config.certChain (attestKey s)
  match r with
  | .discovery i =>
    doeReply (leBytes 2 1 ++ leBytes 1 (if i < 3 then i else 0) ++ leBytes 1 (if i < 2 then i + 1 else 0)) s
  | .getVersion => spdmReply 0x04 0 0 (leBytes 2 0x1300)
      { s with heart := { s.heart with spdm := 1, spdmKeys := 0, spdmDone := false } }
  | .getCapabilities => if n ≠ 1 then spdmError 0x04 s else spdmReply 0x61 0 0 [] (setSpdm 2 s)
  | .negotiate p521 sha512 =>
    if n ≠ 2 then spdmError 0x04 s else if !p521 ∨ !sha512 then spdmError 0x07 s else spdmReply 0x63 0 0 [] (setSpdm 3 s)
  | .getDigests => if n < 3 then spdmError 0x04 s else spdmReply 0x01 0 1 (leBytes 64 (Config.sha512 chain)) s
  | .getCertificate slot o len =>
    if n < 3 ∨ slot ≠ 0 then spdmError (if n < 3 then 0x04 else 0x01) s
    else
      let d := (chain.drop o).take len
      spdmReply 0x02 0 0 (leBytes 2 d.length ++ leBytes 2 (chain.length - o - d.length) ++ d) s
  | .challenge slot nonce =>
    if n < 3 ∨ slot ≠ 0 then spdmError (if n < 3 then 0x04 else 0x01) s
    else
      let own := freeBytes s 32
      let body := leBytes 64 (Config.sha512 chain) ++ own ++ leBytes 64 (Config.sha512 (measBlocks s))
      spdmReply 0x03 0 1 (body ++ spdmSign s (nonce ++ body)) (drew s)
  | .getMeasurements block sign nonce =>
    if n < 3 then spdmError 0x04 s
    else match block with
      | some b =>
        if 17 < b then spdmError 0x01 s
        else spdmReply 0x60 1 0 (measBlock s b ++ (if sign then spdmSign s (nonce ++ measBlock s b) else [])) s
      | none => spdmReply 0x60 18 0 (measBlocks s ++ (if sign then spdmSign s (nonce ++ measBlocks s) else [])) s
  | .keyExchange slot key =>
    if n < 3 ∨ slot ≠ 0 then spdmError (if n < 3 then 0x04 else 0x01) s
    else
      let pub := Config.publicKey (drawn s)
      spdmReply 0x64 0 0 (pub ++ spdmSign s (key ++ pub))
        (drew { s with heart := { s.heart with spdmKeys := s.fresh + 1, spdmDone := false } })
  | .finish ok =>
    if s.heart.spdmKeys = 0 ∨ s.heart.spdmDone then spdmError 0x04 s
    else if !ok then spdmError 0x06 { s with heart := { s.heart with spdmKeys := 0 } }
    else spdmReply 0x65 0 0 [] { s with heart := { s.heart with spdmDone := true } }
  | .keyProg i => ideKm i (fun s => drew { s with host := { s.host with ideKeys := addNew s.host.ideKeys i } }) s
  | .keySetGo i => ideKm i (fun s => if s.host.ideKeys.contains i then setSecure i true s else s) s
  | .keySetStop i => ideKm i (fun s => setSecure i false { s with host := { s.host with ideKeys := s.host.ideKeys.filter (· != i) } }) s
  | .other => spdmError 0x07 s

/-- R458: a DOE data object is processed; a requester that proposes other algorithms gets `UnsupportedRequest`. -/
def execDoeRequest (req : DoeReq) (s : State) : Res := .next (doeRequest req s)

/-- R395: a DOE abort: the mailbox is empty. -/
def execDoeAbort (s : State) : Res := .next { s with host := { s.host with doe := [] } }

end Sys2Proof.Machine
end

