-- ==== Sys2Proof/Machine/Kpp.lean ====
section
/-! DEFINITION. KPP management messages as flits carry them (R352, R353), and the site operations that need the site
free (R361, R365, R374). -/

namespace Sys2Proof.Machine

/-! Management messages -/

/-- A position of R124 in a `PIECE_DONE`: row in bits [39:0], column in bits [63:40], as in R152. -/
def msgPosition (b : List Byte) (o : Nat) : Nat × Nat := (leAt b o 8 % 2 ^ 40, leAt b o 8 / 2 ^ 40)

/-- A `PIECE_DONE` body: piece ID, status, flags (bit 0 non-finite, bit 1 saturated), their positions, the histogram. -/
def pieceDoneMsg (n : Nat) (b : List Byte) (s : State) : State :=
  let flags := leAt b 5 1
  pieceDone n (leAt b 0 4) (leAt b 4 1) (if tst flags 0 then some (msgPosition b 8) else none)
    (if tst flags 1 then some (msgPosition b 16) else none)
    (if b.length < 312 then [] else (List.range 72).map (fun i => leAt b (24 + 4 * i) 4)) s

/-- A `REG_RSP` body: status, then eight bytes of data. -/
def regRspMsg (n : Nat) (b : List Byte) (s : State) : State :=
  if (site s n).regReads.isEmpty then kppDrop n s
  else endGuestRead n (if leAt b 0 1 = 0 then some (leAt b 8 8) else none) s

/-- A whole management message of a guest (R353): its type's effect; a type that a guest never sends is counted. -/
def mgmtMessage (n mtype : Nat) (b : List Byte) (s : State) : State :=
  match mtype with
  | 0x01 => hello n b s
  | 0x02 => spdmStep n (Config.spdmAnswer b) s
  | 0x05 => clearDone n (leAt b 0 2) s
  | 0x07 => unlessClearing n (pausedMsg n) s
  | 0x0A => unlessClearing n (pieceBeat n (leAt b 0 4)) s
  | 0x0B => unlessClearing n (pieceDoneMsg n b) s
  | 0x0F => unlessClearing n (regRspMsg n b) s
  | 0x11 => unlessClearing n (pwrAck n (leAt b 0 1)) s
  | 0x12 => unlessClearing n (kppErrorMsg n (leAt b 0 1)) s
  | _ => kppDrop n s

/-- A fragment of a management message (R352): one that breaks the framing is discarded and counted. -/
def mgmtFragment (n : Nat) (payload : List Byte) (s : State) : State :=
  let mtype := leAt payload 0 1
  let first := tst (leAt payload 1 1) 0
  let last := tst (leAt payload 1 1) 1
  let len := leAt payload 2 2
  let x := site s n
  if len = 0 ∨ 236 < len then kppDrop n s
  else
    let old := match x.msg with
      | none => if first then some [] else none
      | some (t, b) => if first ∨ t ≠ mtype ∨ 65536 < b.length + len then none else some b
    match old with
    | none => kppDrop n s
    | some b =>
      let b := b ++ slice payload 4 len
      if last then mgmtMessage n mtype b (setSite n { x with msg := none } s)
      else setSite n { x with msg := some (mtype, b) } s

/-- R352: a `MGMT` flit. -/
def execMgmt (site : Nat) (f : Flit) (s : State) : Res := .next (flitIn site f true (mgmtFragment site f.payload) s)

/-! Operations 0x07 and 0x11 (R361, R365) -/

/-- Starts an operation of site n that needs the site free, waits for it, or coppices the site away first (R79). -/
def siteOp (n op : Nat) (force : Bool) (start : State → State) (s : State) : State :=
  let p := pageSite n
  match startFate s p true force with
  | .refused => opRefused p s
  | .starts => start (opRun p op 0 s)
  | .queued => opQueue p op 0 s
  | .forced => coppiceForced (bindCtx s p) 4 n (opQueue p op 0 s)

/-- R361: operation 0x11: the full sequence of R360. -/
def execSiteAttest (site : Nat) (force : Bool) (s : State) : Res :=
  .next (if 8 ≤ site then s else siteOp site 0x11 force (attestStart site .op 1) s)

/-- The lane test's findings (R365, R367): modules' modes, spares in use by module and direction, modules whose repair was
re-chosen. A module that has lost lanes makes the check fail, and a site left below its least bandwidth is fenced. -/
def laneFindings (n : Nat) (modes spares : List Nat) (rechosen : Nat) (s : State) : State :=
  let p := pageSite n
  let lost := (List.zip (laneModes s n) modes).any (fun e => modeHalves e.1 &&& modeHalves e.2 != modeHalves e.1)
  let s := showLanes n modes (modSite n (fun x => { x with spares := spares.map (min 4) }) s)
  let s := (List.range 4).foldl (fun s m => if tst rechosen m then setFld p (Reg.LANE_STATUS_RECHOSEN.up (8 * m)) 1 s else s) s
  let s := opEnd p (if lost then 4 else 3) (unbindPage p 0 s)
  if lost then degraded n ((List.range 4).find? (fun m => modes.getD m 0 != 0) |>.getD 0) 0 0 s else s

/-- R365: operation 0x07: it starts as R79 states; while it runs, this command gives what the test of every lane has
found. -/
def execSiteLaneCheck (site : Nat) (force : Bool) (modes spares : List Nat) (rechosen : Nat) (s : State) : Res :=
  let p := pageSite site
  .next (
    if 8 ≤ site then s
    else match pageOp s p with
      | some o => if o.op = 7 ∧ !o.queued then laneFindings site modes spares rechosen s else opRefused p s
      | none => siteOp site 7 force (unbindPage p 4) s)

end Sys2Proof.Machine
end

