-- ==== Sys2Proof/Machine/Power.lean ====
section
/-! DEFINITION. Resets, bring-up, boot, clocks, power loops, temperature, management cores, the board's buses (R27 to R34,
R441 to R444, R452 to R455, R465 to R486, R494 to R497, R518, R519). -/

namespace Sys2Proof.Machine

def resetPage : Nat := 0x001
def clockPage : Nat := 0x002
def powerPage : Nat := 0x003
def telePage : Nat := 0x004

def modPower (f : Power → Power) (s : State) : State := { s with power := f s.power }

/-! Fundamental resets (R315, R475, R480) -/

/-- Every driven pin returns to the level before service. -/
def restPins (s : State) : State := s.power.pins.foldl (fun s e => setPin e.1 (pinRest e.1) s) s

/-- Everything but OTP, the always-on island, host memory, what waits outside and `MEM_SPREAD_NEXT` returns to reset. -/
def clearHub (keepSpread : Bool) (s : State) : State :=
  let s := restPins s
  let t : State := { State.reset with
    pending := s.pending, out := s.out, fresh := s.fresh, mem := s.mem.wipe
    heart := { otp := s.heart.otp }
    errs := { latched := s.errs.latched }
    power := { perst := s.power.perst, vaux := s.power.vaux, tripped := s.power.tripped, tripSensors := s.power.tripSensors,
               hadTrip := s.power.hadTrip, hadRail := s.power.hadRail, toLog := s.power.toLog } }
  let t := if keepSpread then (List.range 7).foldl (fun t i => setFlds 0 [
      (Reg.MEM_SPREAD_NEXT_STACKS.at 8 (i + 1), fld s 0 (Reg.MEM_SPREAD_NEXT_STACKS.at 8 (i + 1))),
      (Reg.MEM_SPREAD_NEXT_GIB.at 8 (i + 1), fld s 0 (Reg.MEM_SPREAD_NEXT_GIB.at 8 (i + 1)))] t) t
    else t
  showOtp t

/-- Debug as the life cycle leaves it after a reset (R456, R464). -/
def resetDebug (s : State) : State :=
  let lc := lifeCycle s
  let o := decide (lc = 0 ∨ lc = 1 ∨ lc = 4)
  setFlds debugPage [(Reg.DEBUG_STATE_OPEN, b2n o), (Reg.DEBUG_STATE_HOW, b2n o)] s

/-- A fundamental reset (R475): causes as `RESET_CAUSE.LAST`; a fresh `HUB_EPOCH` is drawn. -/
def fundamentalReset (cause : Nat) (s : State) : State :=
  let t := clearHub (decide (cause ≠ 1)) s
  let t := setFlds resetPage [(Reg.RESET_CAUSE_LAST, cause), (Reg.RESET_CAUSE_RAIL_LOST, b2n s.power.hadRail),
    (Reg.RESET_CAUSE_TRIP, b2n s.power.hadTrip), (Reg.HUB_EPOCH, drawn t)] t
  resetDebug (modPower (fun p => { p with hadRail := false, hadTrip := false }) (drew t))

/-- VAUX is lost: the hub is off, the island's latches are gone (R32, R506). -/
def vauxLoss (s : State) : State :=
  let t := clearHub false s
  modPower (fun p => { p with vaux := false, tripped := false, tripSensors := [], toLog := [] })
    { t with errs := { t.errs with latched := [] } }

/-- Every phase goes off (R32, R467); the island keeps a record with `SEQ` 0, which the next start logs. -/
def phasesOff (r : ErrRec) (s : State) : State :=
  let r := { stamp r s with seq := 0 }
  let t := clearHub true s
  let t := modPower (fun p => { p with off := true, toLog := (r :: p.toLog).take 8 }) (latch r t)
  setPin 2 false t

/-- R475: VAUX becomes good. -/
def execPowerOn (s : State) : Res :=
  .next (if s.power.vaux then s else fundamentalReset 1 (modPower (fun p => { p with vaux := true }) s))

/-- R32: VAUX falls below its reset threshold. -/
def execVauxLoss (s : State) : Res := .next (vauxLoss s)

/-- R475, R32, R467: `PERST_N` has been low for 10 us: ignored while a trip is latched or the rails are lost. -/
def execPerstAssert (s : State) : Res :=
  let s := modPower (fun p => { p with perst := true }) s
  .next (if !s.power.vaux || s.power.tripped || s.power.off then s else fundamentalReset 2 s)

/-- R477: `PERST_N` deasserts: the host port may train its link once step 2 has ended. -/
def execPerstDeassert (s : State) : Res := .next (modPower (fun p => { p with perst := false }) s)

/-- R467: VIN_CORE or VIN_IO is lost. -/
def execRailLoss (vinIo : Bool) (s : State) : Res :=
  .next (if !s.power.vaux || s.power.off then s
    else modPower (fun p => { p with hadRail := true }) (phasesOff { page := resetPage, sev := 3, cls := 0x0C2, detail := b2n vinIo } s))

/-- R475: both rails are good again. -/
def execRailsRestored (s : State) : Res :=
  .next (if !s.power.vaux || !s.power.off || s.power.tripped then s else fundamentalReset 4 s)

/-! Life-cycle transitions (R452 to R455) -/

/-- What a target state forbids is destroyed (R452). -/
def destroyFor (target : Nat) (o : Otp) : Otp :=
  if target = 4 then { o with ownerRevoked := 15 }
  else if target = 5 then { o with ownerRevoked := 15, vendorRevoked := 15, seedGone := true }
  else o

/-- The latest record has taken n steps. -/
def recordStep (n : Nat) (o : Otp) : Otp :=
  { o with records := o.records.dropLast ++ (o.records.drop (o.records.length - 1)).map (fun r => { r with steps := max r.steps n }) }

/-- Copy i of the life-cycle word is programmed. -/
def programCopy (target i : Nat) (o : Otp) : Otp := { o with lc := o.lc.set i (lcValues.getD target 0) }

/-- The stages of an accepted transition, in order (R454). -/
def transitionStages (target : Nat) : List (State → State) :=
  [modOtp (fun o => { o with records := o.records ++ [{ target := target, steps := 1 }] }),
   fun s => modOtp (fun o => recordStep 2 (destroyFor target o)) (destroyKeys (wipeMem s)),
   modOtp (programCopy target 0),
   modOtp (programCopy target 1),
   modOtp (fun o => recordStep 3 (programCopy target 2 o)),
   modOtp (recordStep 4)]

/-- The status a `TRANSITION` is answered with: pair, body, contexts and rounds, VPP, open record, free record, signatures. -/
def transitionFate (s : State) (b : List Byte) : Nat :=
  let t := leAt b 0 1
  let lc := lifeCycle s
  let n := b.length
  let text := signedText s (b.take 1)
  let sigs : List (Bool × Nat) :=
    if t = 4 then [(false, 1), (true, 266)] else if t = 3 then [(false, 1)]
    else if t = 5 then [(lc == 0 || lc == 1 || lc == 4, 1)] else [(true, n - 265)]
  let pair := (lc == 0 && t == 1) || (lc == 1 && t == 2) || (lc == 2 && t == 3) || ((lc == 2 || lc == 3) && t == 4) ||
    (decide (lc < 5) && t == 5)
  let size := if t = 2 then decide (n = 330 ∨ n = 394 ∨ n = 458 ∨ n = 522) else decide (n = 1 + 265 * sigs.length)
  let fates := sigs.map (fun x => sigFate s x.1 (slice b x.2 265) text)
  if !pair then 0x04
  else if !size then 0x0A
  else if !hubVacant s then 0x06
  else if !vppOn s then 0x05
  else if s.heart.otp.records.any OtpRecord.isOpen then 0x01
  else if 8 ≤ s.heart.otp.records.length then 0x09
  else if ofBytes (nonceBytes s) = 0 then 0x03
  else (fates.find? (· != 0)).getD 0

/-- R454: the mailbox command `TRANSITION`; `lost`: VAUX is lost after this many of its stages. -/
def execTransition (len : Nat) (lost : Option Nat) (s : State) : Res :=
  .next (mbxCmd len (fun s =>
    let b := mbxBody s len
    let t := leAt b 0 1
    let fate := transitionFate s b
    let s := consumeNonce s
    if fate ≠ 0 then otpEnd fate s
    else
      let keys := (List.range ((len - 266) / 64)).map (fun i => leAt b (1 + 64 * i) 64)
      let s := if t = 2 then modOtp (fun o => { o with ownerKeys := keys ++ List.replicate (4 - keys.length) 0 }) s else s
      match lost with
      | some n => if n < 6 then vauxLoss (((transitionStages t).take n).foldl (fun s f => f s) s)
                  else fundamentalReset 3 ((transitionStages t).foldl (fun s f => f s) s)
      | none => fundamentalReset 3 ((transitionStages t).foldl (fun s f => f s) s)) s)

/-- Kindling finishes an open record (R455), from its first step not taken; a target that is no code or lies behind the word
that two copies agree on is taken as `SCRAPPED`. -/
def resumeTransition (r : OtpRecord) (s : State) : State :=
  let o := s.heart.otp
  let agreed := lcValues.any (fun v => decide (2 ≤ (o.lc.filter (· == v)).length))
  let t := if 5 < r.target ∨ (agreed = true ∧ r.target < o.lifeCycle) then 5 else r.target
  let s := if r.steps < 2 then modOtp (fun o => recordStep 2 (destroyFor t o)) s else s
  showOtp (modOtp (fun o => recordStep 4 (programCopy t 2 (programCopy t 1 (programCopy t 0 o)))) s)

/-! Boot images (R441 to R444) -/

def zeroBytes (b : List Byte) (lo hi : Nat) : Bool := (slice b lo (hi - lo)).all (· == 0)

/-- The header obeys R441. -/
def imageHeaderOk (i : BootImage) : Bool :=
  let h := i.header
  let signer := leAt h 5 1
  decide (h.length = 512) && slice h 0 4 == [0x4B, 0x56, 0x49, 0x4D] && leAt h 4 1 == i.itype && decide (1 ≤ i.itype) &&
    decide (i.itype ≤ 4) && decide (signer < 8) && tst signer 2 == (i.itype == 4) && zeroBytes h 6 8 &&
    decide (leAt h 8 4 ≤ 64) && leAt h 12 4 == i.body.length && zeroBytes h 213 216 && zeroBytes h 348 512

/-- R442. -/
def imageOk (s : State) (i : BootImage) : Bool :=
  let h := i.header
  let o := s.heart.otp
  let slot := leAt h 5 1 % 4
  let vendor := !tst (leAt h 5 1) 2
  let key := slice h 80 133
  let hash := Config.sha512 key % 2 ^ 512
  imageHeaderOk i &&
    (if vendor then Config.vendorKey slot % 2 ^ 512 == hash && !tst o.vendorRevoked slot
     else o.ownerKeys.getD slot 0 == hash && hash != 0 && !tst o.ownerRevoked slot) &&
    Config.ecdsaVerify key (slice h 0 216) (slice h 216 132) && slice h 16 64 == leBytes 64 (Config.sha512 i.body) &&
    decide (Tab.get 0 o.thermo i.itype ≤ leAt h 8 4)

/-- The image of a type that is used: slot 0 is tried first, then slot 1. -/
def bootImage (s : State) (l : List BootImage) (t : Nat) : Option BootImage :=
  (l.filter (fun i => i.itype == t && i.slot == 0) ++ l.filter (fun i => i.itype == t && i.slot == 1)).find? (imageOk s)

def imageDigest (i : BootImage) : List Byte := slice i.header 16 64

/-- An accepted image runs: its type's version, its digest in a register, its key in register 6 (R445, R462). -/
def runImage (reg : Nat) (i : BootImage) (s : State) : State :=
  let s := extendMeas 6 (leBytes 64 (Config.sha512 (slice i.header 80 133))) (extendMeas reg (imageDigest i) s)
  { s with heart := { s.heart with running := Tab.put 0 s.heart.running i.itype (leAt i.header 8 4 + 1) } }

/-- The start ends in recovery (R443): the rails stay off. -/
def recovery (code : Nat) (s : State) : State :=
  modPower (fun p => { p with halted := true, domains := [] }) (hubFault (setFld lcPage Reg.BOOT_STATUS_RECOVERY code s))

/-- The owner configuration's body obeys R444. -/
def ownerCfgOk (b : List Byte) : Bool :=
  let spread (i : Nat) : Bool :=
    let w := leAt b (8 + 8 * i) 8
    let st := bits w 11 0
    let g := bits w 21 16
    w == st + g * 65536 && (if st = 0 then w == 0 else decide (1 ≤ g) && decide (g ≤ 62))
  let mv (i : Nat) : Bool :=
    let v := leAt b (64 + 2 * i) 2
    v == 0 || (decide (550 ≤ v) && decide (v ≤ 950) && v % 5 == 0)
  leAt b 0 2 == 1 && decide (leAt b 2 1 ≤ 16) && zeroBytes b 3 4 && b.length == 256 + 64 * leAt b 2 1 && (List.range 7).all spread &&
    (List.range 8).all mv && (List.range 48).all (fun i => decide (leAt b (80 + i) 1 ≤ 6)) && zeroBytes b 134 136 && zeroBytes b 152 256

/-- The 48-bit default address and its link-local IPv6 address (R478). -/
def defaultMac : Nat := 0x02 * 2 ^ 40 + Config.deviceSerial % 2 ^ 40
def linkLocal (mac : Nat) : Nat :=
  0xFE80 * 2 ^ 112 + ((mac / 2 ^ 24) ^^^ (0x02 * 2 ^ 16)) * 2 ^ 40 + 0xFFFE * 2 ^ 24 + mac % 2 ^ 24

/-- The boot-flash values take effect: of an accepted body, or (none) R478's defaults. -/
def applyOwnerCfg (b : Option (List Byte)) (s : State) : State :=
  let d := b.getD []
  let s := if fld s resetPage Reg.RESET_CAUSE_LAST = 1 then
      (List.range 7).foldl (fun s i => setFlds 0 [(Reg.MEM_SPREAD_NEXT_STACKS.at 8 (i + 1), bits (leAt d (8 + 8 * i) 8) 11 0),
        (Reg.MEM_SPREAD_NEXT_GIB.at 8 (i + 1), bits (leAt d (8 + 8 * i) 8) 21 16)] s) s
    else s
  let s := (List.range 8).foldl (fun s n =>
    let v := leAt d (64 + 2 * n) 2
    setFld (pageSite n) Reg.SITE_RAIL_SETPOINT_MV (if v = 0 then 750 else v) s) s
  let s := (List.range 48).foldl (fun s p => setFld (pagePort p) Reg.PORT_CFG_MODE (leAt d (80 + p) 1) s) s
  let mac := ofBytes (slice d 128 6).reverse
  let mac := if mac = 0 then defaultMac else mac
  let ip := ofBytes (slice d 136 16).reverse
  let ip := if ip = 0 then linkLocal mac else ip
  let s := setFlds plarusPage [(Reg.PLR_ADDR_MAC, mac), (Reg.PLR_ADDR6_W0, ip / 2 ^ 64), (Reg.PLR_ADDR6_W1, ip % 2 ^ 64)] s
  let vendor := leAt d 4 2
  let subsys := if vendor = 0 then 0x1DF7 + leAt d 6 2 * 65536 else vendor + leAt d 6 2 * 65536
  let roots := (List.range (leAt d 2 1)).map (fun j => leAt d (256 + 64 * j) 64)
  { s with heart := { s.heart with subsys := subsys, guestRoots := roots } }

/-! Bring-up (R476) -/

def nextStep (n : Nat) (s : State) : State := setFld resetPage Reg.RESET_BRINGUP_STEP n s

/-- Step 1: Kindling. -/
def bringUp1 (b : BringUp) (s : State) : State :=
  let s := setFld resetPage Reg.RAIL_STATUS_VAUX 1 (setFld resetPage Reg.RAIL_STATUS_VPP (b2n b.vpp) (setFld lcPage Reg.OTP_STATUS_VPP (b2n b.vpp) s))
  let s := setFld clockPage Reg.PLL_LOCK (2 ^ 42 + 2 ^ 43) s
  let s := extendMeas 0 (leBytes 64 Config.kindlingHash) s
  let go (s : State) : State :=
    let s := resetDebug (showOtp s)
    let o := s.heart.otp
    let lc := lifeCycle s
    let rec2 := [BitVec.ofNat 8 lc, BitVec.ofNat 8 o.debugPolicy] ++ (List.range 4).map (fun i => BitVec.ofNat 8 (Tab.get 0 o.thermo (i + 1)))
    let s := extendMeas 2 (slice rec2 0 64) s
    if lc = 0 then s
    else if lc = 5 then recovery 2 s
    else match bootImage s b.images 1 with
      | none => recovery 1 s
      | some i => nextStep 2 (setFld lcPage Reg.BOOT_STATUS_HW_SLOT (i.slot % 2) (runImage 1 i s))
  match s.heart.otp.records.find? OtpRecord.isOpen with
  | none => go s
  | some r => if b.vpp then go (resumeTransition r s) else recovery 3 s

/-- Step 2: rails, always-on domains, images, cores. -/
def bringUp2 (b : BringUp) (s : State) : State :=
  let core := decide (1550 ≤ b.vinCoreMv) && decide (b.vinCoreMv ≤ 2100)
  let io := decide (1140 ≤ b.vinIoMv)
  let s := setFlds resetPage [(Reg.RAIL_MEAS_VIN_CORE_MV, b.vinCoreMv), (Reg.RAIL_MEAS_VIN_IO_MV, b.vinIoMv),
    (Reg.RAIL_STATUS_VIN_CORE, b2n core), (Reg.RAIL_STATUS_VIN_IO, b2n io)] s
  if !core ∨ !io then s
  else
    let s := ((List.range 64).map (· + 64) ++ [172, 181, 182, 183, 184, 185]).foldl (fun s d => setDomain d true s) s
    let s := setFld clockPage Reg.PLL_LOCK (2 ^ 44 - 1) s
    let s := drew { s with heart := { s.heart with bootKeys := s.fresh + 1 } }
    match bootImage s b.images 2 with
    | none => recovery 4 s
    | some m =>
      let s := setFld lcPage Reg.BOOT_STATUS_MGMT_SLOT (m.slot % 2) (runImage 3 m s)
      let s := match bootImage s b.images 4 with
        | some o =>
          let good := ownerCfgOk o.body
          setFld lcPage Reg.BOOT_STATUS_OWNER_CFG (if good then 0 else 3)
            (applyOwnerCfg (if good then some o.body else none) (runImage 4 o s))
        | none =>
          setFld lcPage Reg.BOOT_STATUS_OWNER_CFG (if b.images.any (fun i => i.itype == 4) then 2 else 1)
            (applyOwnerCfg none (extendMeas 4 (List.replicate 64 0) s))
      let s := match bootImage s b.images 3 with
        | some u => let s := runImage 5 u s; { s with heart := { s.heart with rom := u.body } }
        | none => extendMeas 5 (List.replicate 64 0) s
      nextStep 3 ((List.range 8).foldl (fun s m => setFld (pageCore m) Reg.CORE_STATE_STATE 1 (setDomain (173 + m) true s)) s)

/-- Step 3: torus links, tensor-array domains. A link that does not train is a `DEVICE` error, and bring-up stops. -/
def bringUp3 (b : BringUp) (s : State) : State :=
  if !b.links then modPower (fun p => { p with halted := true }) (raiseErr { page := 0, sev := 3, cls := 0x020 } s)
  else nextStep 4 ((List.range 64).foldl (fun s n => if arrayInService s n then tileOn n s else s) s)

/-- A stored spread layout obeys R199: the partitions of a stack come to 62 GiB at most, and no present entry is empty. -/
def spreadLoad (l : List (Nat × Nat)) (stk : Nat) : Nat := (l.filter (fun e => tst e.1 stk)).foldl (fun n e => n + e.2) 0
def spreadOk (l : List (Nat × Nat)) : Bool :=
  (List.range 12).all (fun k => decide (spreadLoad l k ≤ 62)) && l.all (fun e => (e.1 == 0) == (e.2 == 0))

/-- The layout in force (R198, R199). -/
def applySpread (s : State) : State :=
  let l := (List.range 7).map (fun i => (fld s 0 (Reg.MEM_SPREAD_NEXT_STACKS.at 8 (i + 1)), fld s 0 (Reg.MEM_SPREAD_NEXT_GIB.at 8 (i + 1))))
  let ok := spreadOk l
  let l := if ok then l else []
  let m := (List.range 12).foldl (fun n k => max n (spreadLoad l k)) 0
  let r0 := 62 - m
  let stranded := (List.range 12).foldl (fun n k => n + (62 - r0 - spreadLoad l k)) 0
  let s := setFlds 0 [(Reg.MEM_SPREAD_STATUS_REGION0_GIB, r0), (Reg.MEM_SPREAD_STATUS_STRANDED_GIB, stranded),
    (Reg.MEM_SPREAD_STATUS_LAYOUT_REJECTED, b2n (!ok))] s
  ((List.range 7).foldl (fun (a : State × Nat) i =>
    let e := l.getD i (0, 0)
    if e.1 = 0 then (setFlds 0 [(Reg.MEM_SPREAD_ACTIVE_STACKS.at 8 (i + 1), 0), (Reg.MEM_SPREAD_ACTIVE_GIB.at 8 (i + 1), 0),
        (Reg.MEM_SPREAD_ACTIVE_BASE_FRAME.at 8 (i + 1), 0)] a.1, a.2)
    else (setFlds 0 [(Reg.MEM_SPREAD_ACTIVE_STACKS.at 8 (i + 1), e.1), (Reg.MEM_SPREAD_ACTIVE_GIB.at 8 (i + 1), e.2),
        (Reg.MEM_SPREAD_ACTIVE_BASE_FRAME.at 8 (i + 1), a.2)] a.1, a.2 + e.2 * popCount e.1 12 * 512)) (s, r0 * 12 * 512)).1

/-- Step 4: HBM. A stack that fails to train is fenced and its channels are absent (R197); every frame is ashed. -/
def bringUp4 (b : BringUp) (s : State) : State :=
  let s := applySpread ((List.range 12).foldl (fun s n => setDomain (128 + n) true s) s)
  let s := (List.range 12).foldl (fun s n =>
    if tst b.stackSet n then s else setFlds (pageHbm n) [(Reg.HBM_CAP_CHANNELS_PRESENT, 0)] (fenceStack n s)) s
  nextStep 5 (setMem s.mem.wipe s)

/-- A guest site's start is under way. -/
def siteStarting (s : State) (n : Nat) : Bool := decide (1 ≤ siteLink s n) && decide (siteLink s n ≤ 4)

/-- The latched records of the island reach the device log (R490). -/
def logLatched (s : State) : State :=
  s.power.toLog.reverse.foldl (fun s r =>
    { s with errs := { s.errs with seq := nextSeq s.errs.seq, flight := s.errs.flight ++ [{ r with seq := s.errs.seq }] } })
    (modPower (fun p => { p with toLog := [] }) s)

/-- Step 6: bring-up is complete. -/
def bringUp6 (s : State) : State :=
  let s := setFlds resetPage [(Reg.RESET_BRINGUP_STEP, 6), (Reg.RESET_BRINGUP_DONE, 1), (Reg.RESET_BRINGUP_TIME_MS, s.power.ms)] s
  let s := raiseSrc resetPage 0 s
  logLatched (if s.errs.latched.isEmpty then s else raiseSrc telePage 1 s)

/-- Step 5: sites one at a time, peat ports and the timebase beside them; once the last start has ended, step 6. -/
def bringUp5 (b : BringUp) (s : State) : State :=
  let s := if s.power.portsStarted then s
    else
      let s := modPower (fun p => { p with portsStarted := true }) s
      let s := (List.range 8).foldl (fun s n =>
        let s := setFld (pageSite n) Reg.SITE_STATE_PRESENT (bit b.present n) s
        let o := s.heart.otp
        setDomain (140 + n) (o.sites.getD n 0 == 1 && (o.slotUsed (2 * n)).isSome) s) s
      let s := (List.range 4).foldl (fun s p => match b.peats.getD p none with
        | some d => peatStart p (some d) (setFld (pagePeat p) Reg.SLOT_STATUS_PRESENT 1 s)
        | none => s) s
      showTime s
  if (List.range 8).any (siteStarting s) then s
  else match (List.range 8).find? (fun n => decide (s.power.nextSite ≤ n) && startable s n) with
    | some n => startSite n (modPower (fun p => { p with nextSite := n + 1 }) s)
    | none => bringUp6 s

/-- R476: the step in progress does its work; `b`: what it finds. -/
def execBringupStep (b : BringUp) (s : State) : Res :=
  .next (
    if !s.power.vaux || s.power.off || s.power.tripped || s.power.halted then s
    else
      let s := modPower (fun p => { p with ms := p.ms + b.ms }) s
      match fld s resetPage Reg.RESET_BRINGUP_STEP with
      | 1 => bringUp1 b s
      | 2 => bringUp2 b s
      | 3 => bringUp3 b s
      | 4 => bringUp4 b s
      | 5 => bringUp5 b s
      | _ => s)

/-! Clocks (R479, R484) -/

def plarusNodes : List Nat := (List.range 1024).filter (fun n => nodeBlock n == some .plarus)

/-- XCLK stops: transport and switch are down, sessions are lost, ports leave every forwarding set, PTP stops. -/
def xclkLost (s : State) : State :=
  let s := { s with
    torus := { s.torus with down := plarusNodes.foldl addNew s.torus.down }
    plr := { s.plr with removed := List.range 48 }
    time := { s.time with masters := [] } }
  let s := (List.range 1024).foldl (fun s i => if 2 ≤ (session s i).st ∧ (session s i).st ≤ 4 ∨ (session s i).st = 1 then sessionLost i s else s) s
  showTime ((List.range 48).foldl (fun s p => setFld (pagePort p) Reg.PORT_STATUS_PTP_ROLE 0 s) s)

/-- A PLL's block after the loss. -/
def pllBlock (i : Nat) (s : State) : State :=
  if 3 ≤ i ∧ i ≤ 14 then fenceStack (i - 3) s
  else if 15 ≤ i ∧ i ≤ 22 then fenceSite (i - 15) 0x0C 0 s
  else if i = 23 then
    let up := fld s hostPage Reg.HOST_LINK_RATE != 0
    let s := setFlds hostPage [(Reg.HOST_LINK_RATE, 0), (Reg.HOST_LINK_WIDTH, 0), (Reg.HOST_LINK_FLIT, 0)] (hostReset 3 s)
    if up then raiseSrc hostPage 3 s else s
  else if i = 24 then (List.range 4).foldl (fun s p => surprise p 4 s) s
  else if 25 ≤ i ∧ i ≤ 36 then (List.range 4).foldl (fun s j => portDown (4 * (i - 25) + j) s) s
  else xclkLost (raiseErr { page := clockPage, sev := 2, cls := 0x0C1, detail := i } s)

/-- R479: a PLL that had lock loses it. -/
def execPllLockLoss (pll : Nat) (s : State) : Res :=
  .next (
    let l := fld s clockPage Reg.PLL_LOCK
    if 44 ≤ pll ∨ !tst l pll then s
    else
      let s := raiseSrc clockPage 0 (bump clockPage Reg.PLL_LOSSES_COUNT 1 (setFld clockPage Reg.PLL_LOCK (clrBit l pll) s))
      if 3 ≤ pll ∧ pll ≤ 37 then pllBlock pll s
      else modPower (fun p => { p with halted := true }) (raiseErr { page := clockPage, sev := 3, cls := 0x0C0, detail := pll } s))

/-- R479: a block's PLL locks again. With XCLK the switch resumes and the ports retrain. -/
def execPllRelock (pll : Nat) (s : State) : Res :=
  .next (
    let l := fld s clockPage Reg.PLL_LOCK
    if pll < 3 ∨ 37 < pll ∨ tst l pll then s
    else
      let s := setFld clockPage Reg.PLL_LOCK (setBit l pll) s
      if pll ≠ 37 then s
      else
        let s := { s with torus := { s.torus with down := s.torus.down.filter (fun n => !plarusNodes.contains n) } }
        (List.range 48).foldl (fun s p => if portUp s p then setFld (pagePort p) Reg.PORT_STATUS_RETRAINING 1 (portDown p s) else s) s)

/-! Tile voltage and clock (R471, R472) -/

/-- Sets a tile's voltage and TCLK, counting changes. -/
def setPoint (n v f : Nat) (s : State) : State :=
  let t := tile s n
  let s := setTile n { t with volt := v, mhz := f } s
  if t.volt = v ∧ t.mhz = f then s else count (pageTile n) Reg.TILE_LOOP_COUNTS_SETPOINTS 1 s

/-- R471: one decision of the setpoint and frequency loops: slack 0 below the low band, 1 between, 2 above the high band. -/
def execTileSetpointLoop (tile slack : Nat) (s : State) : Res :=
  let t := Machine.tile s tile
  let p := pageTile tile
  .next (
    if 64 ≤ tile ∨ !domainOn s tile ∨ t.sealedSetting then s
    else
      let v := clampN (10 * vMin s tile) (10 * vMax s tile)
      let f := clampN (mhzMin s tile) (mhzMax s tile)
      if flag s p Reg.TILE_LOOP_CTRL_OVERRIDE then
        setPoint tile (v (10 * fld s p Reg.TILE_LOOP_CTRL_V_OVR_MV)) (f (fld s p Reg.TILE_LOOP_CTRL_TCLK_OVR_MHZ)) s
      else if flag s p Reg.TILE_LOOP_CTRL_FREEZE then s
      else if slack = 0 then
        if 10 * vMax s tile ≤ t.volt then setPoint tile (v t.volt) (f (t.mhz - 25)) s else setPoint tile (v (t.volt + 25)) (f t.mhz) s
      else if slack = 1 then setPoint tile (v t.volt) (f t.mhz) s
      else if t.mhz < mhzMax s tile then setPoint tile (v t.volt) (f (t.mhz + 25)) s
      else setPoint tile (v (t.volt - 25)) (f t.mhz) s)

/-- R471, R472: a droop is detected: counted, and stretched except on a sealed tile. -/
def execDroopDetect (tile : Nat) (s : State) : Res :=
  .next (if 64 ≤ tile ∨ !domainOn s tile then s
    else
      let s := count (pageTile tile) Reg.TILE_LOOP_COUNTS_DROOPS 1 s
      if (Machine.tile s tile).sealedSetting then s else modTile tile (fun t => { t with stretch := 32 }) s)

/-- R470: a tile has been FREE with no operation for `TILE_IDLE_US`: its domain is switched off. -/
def execTileIdleGate (tile : Nat) (s : State) : Res :=
  let p := pageTile tile
  .next (if 64 ≤ tile ∨ fld s powerPage Reg.PWR_GATE_TILE_IDLE_US = 0 ∨ bindState s p ≠ 0 ∨ (pageOp s p).isSome ∨ !domainOn s tile then s
    else modTile tile (fun t => { t with bank0 := {}, bank1 := {}, acc := [], hist := [], volt := 0, mhz := 0, stretch := 0 })
      (clearArray tile 0 (setDomain tile false s)))

/-! Tile self-test (R79, R105, R481) -/

/-- Operation 0x02 on a tile: it starts, waits, or coppices the tile away first. -/
def tileSelfTest (n : Nat) (force : Bool) (s : State) : State :=
  let p := pageTile n
  if bindState s p = 6 then opRefused p s
  else match startFate s p true force with
    | .refused => opRefused p s
    | .starts => startSelfTest n false s
    | .queued => opQueue p 2 0 s
    | .forced => coppiceForced (bindCtx s p) 1 n (opQueue p 2 0 s)

/-- R105: `OP_CONTROL.OP` 0x02 on a tile's page. -/
def execTileSelfTest (tile : Nat) (force : Bool) (s : State) : Res := .next (if 64 ≤ tile then s else tileSelfTest tile force s)

/-- R481: the interval has passed: the next tile in service is tested, without force. -/
def execPeriodicSelfTest (s : State) : Res :=
  .next (if fld s resetPage Reg.SELFTEST_POLICY_INTERVAL_H = 0 then s
    else match ((List.range 64).map (fun i => (s.power.nextTest + i) % 64)).find? (fun n => arrayInService s n) with
      | none => s
      | some n =>
        let s := modPower (fun p => { p with nextTest := (n + 1) % 64 }) s
        if (pageOp s (pageTile n)).isSome then s else tileSelfTest n false s)

/-! The package power limit (R473, R474) -/

/-- The limits as they act (R485). -/
def plW (s : State) : Nat := clampN 400 1250 (fld s powerPage Reg.PWR_LIMIT_PL_W)
def tempTarget (s : State) : Int := (clampN 70 103 (fld s powerPage Reg.PWR_LIMIT_TEMP_TARGET) : Nat)
def dutyMin (s : State) : Nat := clampN 8 64 (fld s powerPage Reg.PWR_LIMIT_DUTY_MIN)

/-- A context is SEALED: the loop plans (R473). -/
def planning (s : State) : Bool := (List.range 64).any (isSealed s)

/-- The duty a decision arrives at: input and tile dynamic power in W, temperature in 0.125 degrees. -/
def nextDuty (s : State) (d p dyn : Nat) (t : Int) : Nat :=
  let lo := dutyMin s
  let margin := fld s powerPage Reg.PWR_LIMIT_MARGIN_W
  if flag s powerPage Reg.PWR_CTRL_OVERRIDE then clampN lo 64 (fld s powerPage Reg.PWR_CTRL_DUTY_OVR)
  else if flag s powerPage Reg.PWR_CTRL_FREEZE then d
  else if planning s then
    let n := ((List.range 64).filter (domainOn s)).length
    let room : Int := (plW s : Int) - ((p : Int) - (dyn : Int))
    let plan : Int := if n = 0 then 64 else (64 * room).fdiv ((n * fld s powerPage Reg.PWR_STATUS_TILE_MAX_W : Nat) : Int)
    let plan := if 8 * tempTarget s < t then min plan ((d : Int) - 4) else plan
    (clampI lo 64 plan).toNat
  else if plW s < p ∨ 8 * tempTarget s < t then max lo (d - 4)
  else if p + margin < plW s ∧ t < 8 * (tempTarget s - 2) then min 64 (d + 1)
  else d

/-- R473, R474: a decision, on the averages of its period. The new duty is taken at the next window. -/
def execPowerLimitDecision (inputW tileDynW : Nat) (s : State) : Res :=
  .next (
    let t := s.power.hottest
    let old := fld s powerPage Reg.PWR_STATUS_DUTY
    let d := nextDuty s old inputW tileDynW t
    let unmet := decide (old ≤ dutyMin s) && decide (plW s < inputW)
    let s := setFlds powerPage [(Reg.PWR_STATUS_DUTY, d), (Reg.PWR_STATUS_PLANNING, b2n (planning s)), (Reg.PWR_STATUS_LIMIT_UNMET, b2n unmet),
      (Reg.PWR_STATUS_INPUT_W, min inputW 65535), (Reg.PWR_STATUS_TILE_DYN_W, min tileDynW 65535), (Reg.PWR_STATUS_HOTTEST, tc 8 (t / 8))] s
    let s := modPower (fun p => { p with hottest := -2048 }) s
    let s := if unmet then raiseSrc powerPage 0 s else s
    if d = old then s
    else
      let s := (List.range 64).foldl (fun s n => modTile n (fun t => { t with nextDuty := d }) s) s
      raiseSrc powerPage 1 (count powerPage Reg.PWR_COUNTS_DUTY_CHANGES 1 s))

/-! Temperature (R30 to R34) -/

/-- The switched domain a sensor lies in; none: it is always powered with the hub. -/
def sensorDomain (i : Nat) : Option Nat :=
  if i < 64 then some i else if i < 76 then some (i + 64) else if i < 84 then some (i + 64) else if i < 96 then some (i + 72)
  else if i < 100 then some (i + 72) else if i = 100 then some 172 else if i = 101 then some 181 else if i = 102 then some 182 else none

/-- A Plarus quad has a port with a mode (R468). -/
def quadOn (s : State) (q : Nat) : Bool := (List.range 4).any (fun j => fld s (pagePort (4 * q + j)) Reg.PORT_CFG_MODE != 0)

/-- A domain as R468 has it; the quads' follow their ports' modes. -/
def domainView (s : State) (d : Nat) : Bool := if 156 ≤ d ∧ d < 168 then quadOn s (d - 156) else domainOn s d

def sensorOn (s : State) (i : Nat) : Bool := match sensorDomain i with | some d => domainView s d | none => true

/-- One sensor's sample. -/
def takeTemp (i : Nat) (r : Int) (s : State) : State :=
  let v := clampI (-2048) 2047 r
  if !sensorOn s i then setFld telePage (Reg.TEMP_VALID.at 8 i) 0 s
  else
    let first := !flag s telePage (Reg.TEMP_VALID.at 8 i)
    let peak := sext 12 (fld s telePage (Reg.TEMP_PEAK.at 8 i))
    setFlds telePage [(Reg.TEMP_NOW.at 8 i, tc 12 v), (Reg.TEMP_VALID.at 8 i, 1),
      (Reg.TEMP_PEAK.at 8 i, tc 12 (if first ∧ peak = 0 then v else max peak v))] s

/-- The sensor with the highest reading of a list, lowest number first. -/
def hottestOf (l : List (Nat × Int)) : Option (Nat × Int) :=
  l.foldl (fun a x => match a with | some y => if y.2 < x.2 then some x else a | none => some x) none

/-- R30 to R34: the 144 sensors are sampled, in 0.125 degrees: readings, peaks, alert, site removal, trip. -/
def tempSample (readings : List Int) (s : State) : State :=
  if !s.power.vaux || s.power.off || s.power.tripped then s
  else
    let s := (List.range 144).foldl (fun s i => takeTemp i (readings.getD i 0) s) s
    let live := ((List.range 144).filter (sensorOn s)).map (fun i => (i, clampI (-2048) 2047 (readings.getD i 0)))
    let shown := live.filter (fun x => !(decide (x.1 < 64) && flag s (pageTile x.1) Reg.BINDING_SEALED))
    let s := match hottestOf shown with
      | some (i, v) => setFlds telePage [(Reg.TEMP_HOTTEST_INDEX, i), (Reg.TEMP_HOTTEST_VALUE, tc 12 v)] s
      | none => s
    let s := match hottestOf live with
      | some (_, v) => modPower (fun p => { p with hottest := max p.hottest v }) s
      | none => s
    let high := (live.filter (fun x => decide (8 * (fld s telePage Reg.TEMP_ALERT_THRESHOLD : Int) ≤ x.2))).map (·.1)
    let new := high.any (fun i => !s.power.alerted.contains i)
    let s := modPower (fun p => { p with alerted := high }) s
    let s := if new then raiseSrc telePage 2 s else s
    let trip := (live.filter (fun x => decide (1000 ≤ x.2))).map (·.1)
    let warm := (live.filter (fun x => decide (116 ≤ x.1) && decide (x.1 < 124) && decide (920 ≤ x.2))).map (·.1)
    if trip.isEmpty then
      warm.foldl (fun s i => if siteLink s (i - 116) = 0 then s else fenceSite (i - 116) 3 0 s) s
    else
      let all := warm.foldl addNew trip
      let t := phasesOff { page := telePage, sev := 3, cls := 0x0C3, detail := trip.headD 0 + trip.length * 256 } s
      setPin 1 false (modPower (fun p => { p with tripped := true, hadTrip := true, tripSensors := all }) t)

def execTempSample (readings : List Int) (s : State) : Res := .next (tempSample readings s)

/-! Management cores (R494 to R497) -/

/-- R494: a core's watchdog expires. -/
def execWatchdogExpiry (core : Nat) (s : State) : Res := .next (if 8 ≤ core then s else restartCore core 1 s)

/-- R494: an uncorrectable error in a core's local SRAM. -/
def execCoreSramError (core : Nat) (s : State) : Res := .next (if 8 ≤ core then s else restartCore core 3 s)

/-- `OP_CONTROL.OP` 0x10 on a core's page (R494, R497). -/
def coreRestart (m : Nat) (s : State) : State :=
  let p := pageCore m
  if (pageOp s p).isSome then opRefused p s
  else
    let s := restartCore m 4 (opRun p 0x10 0 s)
    if coreState s m = 2 then s else opEnd p 4 s

/-- R494: PF0 requests a restart. -/
def execCoreRestart (core : Nat) (s : State) : Res := .next (if 8 ≤ core then s else coreRestart core s)

/-- R494: the core runs again; `ms`: how long the restart took. -/
def execCoreRestartDone (core ms : Nat) (s : State) : Res :=
  let p := pageCore core
  .next (if 8 ≤ core ∨ coreState s core ≠ 2 then s
    else
      let s := setFlds p [(Reg.CORE_STATE_STATE, 1), (Reg.CORE_COUNTS_LAST_MS, ms)] s
      match pageOp s p with
      | some o => if o.op = 0x10 then opEnd p 3 s else s
      | none => s)

/-! The board's buses (R518, R519) -/

/-- The bytes of a latched record, 0 the newest (R506). -/
def latchWord (s : State) (i word : Nat) : Nat :=
  match (s.errs.latched.drop i).head? with
  | some r => word64 (r.bytes false false 0) word
  | none => 0

/-- R518: a PLDM read of a sensor, or the provisional ID, over I3C; 1: not supported. -/
def execI3cMctpMessage (msg : BoardMsg) (s : State) : Res :=
  let reply (code n : Nat) (v : Nat) : Res := .next (emit (.answer 0x401 code (leBytes n v)) s)
  if !s.power.vaux then .next s
  else match msg with
  | .temperature i => if i < 144 then reply 0 2 (fld s telePage (Reg.TEMP_NOW.at 8 i)) else reply 1 0 0
  | .inputPower => reply 0 2 (fld s powerPage Reg.PWR_STATUS_INPUT_W)
  | .rail vinIo => reply 0 2 (if vinIo then fld s resetPage Reg.RAIL_MEAS_VIN_IO_MV else fld s resetPage Reg.RAIL_MEAS_VIN_CORE_MV)
  | .bootStatus => reply 0 8 (regWord s lcPage .lifeCycle 0x128)
  | .latched i w => if i < s.errs.latched.length ∧ w < 8 then reply 0 8 (latchWord s i w) else reply 1 0 0
  | .provisionalId => reply 0 4 (Config.deviceSerial % 2 ^ 32)
  | .other => reply 1 0 0

/-- IDCODE (R519): version, part number, manufacturer, and the 1 that IEEE 1149.1 puts last. -/
def idCode (s : State) : Nat := fld s 0 Reg.DEVICE_ID_STEPPING % 16 * 2 ^ 28 + 0x0004 * 2 ^ 12 + 0x2B5 * 2 + 1

/-- The instruction that is loaded: `EXTEST` only while `PERST_N` is low, private ones only while debug is open. -/
def jtagLoads (s : State) (i : JtagInstr) : Nat :=
  match i with
  | .bypass => 0
  | .idcode => 1
  | .sample => 2
  | .preload => 3
  | .extest => if s.power.perst then 4 else 0
  | .privateInstr n => if debugOpen s then 5 + n else 0

/-- R519: a JTAG instruction is loaded, or BYPASS in its place; IDCODE answers its value. -/
def execJtagInstruction (instr : JtagInstr) (s : State) : Res :=
  let n := jtagLoads s instr
  .next (emit (.answer 0x402 n (if n = 1 then leBytes 4 (idCode s) else [])) (modPower (fun p => { p with jtag := n }) s))

end Sys2Proof.Machine
end

