-- ==== Sys2Proof/Machine/Views.lean ====
section
/-! DEFINITION. What a read of a register shows: fields that stand for typed parts of the state, masks of R71 and R72,
windows of bytes (R64 to R72, R154, R303, R384, R462). -/

namespace Sys2Proof.Machine

/-- Bring-up has passed step n (R476). -/
def pastStep (s : State) (n : Nat) : Bool :=
  decide (n < fld s resetPage Reg.RESET_BRINGUP_STEP) || flag s resetPage Reg.RESET_BRINGUP_DONE

/-! `PAGE_STATUS` (R73) -/

/-- The switched domain of a page's block; none: always on from bring-up step 2 (R468). -/
def pageDomain (p : Nat) (k : PageKind) : Option Nat :=
  match k with
  | .tile => some (p - pageTile 0)
  | .hbm => some (128 + (p - pageHbm 0))
  | .site => some (140 + (p - pageSite 0))
  | .plarusPort => some (156 + (p - pagePort 0) / 4)
  | .peat => some (168 + (p - pagePeat 0))
  | .hostPort => some 172
  | .core => some (173 + (p - pageCore 0))
  | .kiln => some (181 + (p - pageKiln 0))
  | .ember => some 183
  | .walker => some 184
  | .regulator => some 185
  | _ => none

def pageInService (s : State) (p : Nat) (k : PageKind) : Bool :=
  match k with
  | .tile => pastStep s 3
  | .hbm => pastStep s 4 && !flag s p Reg.THERMAL_FENCED
  | .core => decide (1 ≤ fld s p Reg.CORE_STATE_STATE) && decide (fld s p Reg.CORE_STATE_STATE ≤ 2)
  | .site | .peat => flag s p Reg.PAGE_STATUS_IN_SERVICE
  | .plarusPort => pastStep s 5
  | _ => pastStep s 2

def powered (s : State) (p : Nat) (k : PageKind) : Bool :=
  match pageDomain p k with
  | some d => domainView s d
  | none => pastStep s 2

/-- A field of the common header. -/
def commonView (s : State) (p : Nat) (k : PageKind) (f : Field) : Nat :=
  if f = Reg.PAGE_STATUS_IN_SERVICE then b2n (pageInService s p k)
  else if f = Reg.PAGE_STATUS_POWERED then b2n (powered s p k)
  else if f = Reg.PAGE_STATUS_FENCED then (if k = .hbm then fld s p Reg.THERMAL_FENCED else fld s p f)
  else if f = Reg.PAGE_STATUS_DEGRADED then
    b2n (k == .site && pageInService s p k && fld s p Reg.SITE_STATE_LIVE_HALVES != 0xFF)
  else fld s p f

/-! Block registers -/

/-- R106, R484: a tile's registers. Those of the array read zero while it is out of service. -/
def tileView (s : State) (p : Nat) (f : Field) : Nat :=
  let n := p - pageTile 0
  let t := tile s n
  let here := arrayInService s n
  let narrow := tst (fld s 0 Reg.ARRAYS_NARROW) n
  let spared := tst (fld s 0 Reg.ARRAYS_SPARED) n
  if !here && (decide (f.off < 0xC00) || decide (0xE00 ≤ f.off)) then 0
  else if f = Reg.TILE_CAP_ARRAY_PRESENT then 1
  else if f = Reg.TILE_CAP_COLUMNS then (if narrow then 0x7F else 0x80)
  else if f = Reg.TILE_CAP_LATENCY then (if spared then 257 else 256)
  else if f = Reg.TILE_CAP_SPARED then b2n spared
  else if f = Reg.TILE_CAP_NARROW then b2n narrow
  else if f = Reg.ROUTER_STATUS_LINK_UP then
    (if pastStep s 3 then 15 - fld s p Reg.ROUTER_STATUS_LINK_FAILED else 0)
  else if f = Reg.ROUTER_STATUS_EDGE_DOWN then edgeDown s n
  else if f = Reg.COH_TABLE_OCCUPANCY then min 640 (cohOccupancy s n)
  else if f = Reg.COH_TABLE_TRANSIENT then
    (s.coh.homes.filter (fun e => sliceOf (e.1 * 128) == n && e.2.state.transient)).length
  else if !domainOn s n && f.off == 0xE00 then 0
  else if f = Reg.TILE_PWR_V_MV then (if t.sealedSetting then fld s p Reg.TILE_PWR_TRIM_V_SEALED_MV else t.volt / 10)
  else if f = Reg.TILE_PWR_TCLK_MHZ then (if t.sealedSetting then sealedMhz s else t.mhz)
  else if f = Reg.TILE_PWR_SEALED then b2n t.sealedSetting
  else if f = Reg.TILE_PWR_STRETCHING then b2n (t.stretch != 0)
  else fld s p f

/-- R234: an HBM controller's registers. -/
def hbmView (s : State) (p : Nat) (f : Field) : Nat :=
  let x := channel s (32 * (p - pageHbm 0) + fld s p Reg.CAL_SELECT_CHANNEL)
  if f = Reg.OWN_LOOKUP_ENTRY then
    let e := frame s (fld s p Reg.OWN_LOOKUP_FRAME)
    let st := match e.state with | .free => 0 | .owned => 1 | .ashing => 2 | .retired => 3 | .gone => 4
    (if decide (e.ctx < 64) && isSealed s e.ctx then 0 else e.ctx) + st * 2 ^ 8 + b2n e.bad * 2 ^ 11 + b2n e.pinned * 2 ^ 12
  else if f = Reg.CAL_TRIM_READ then (if x.override then x.ovRead else x.adaptRead)
  else if f = Reg.CAL_TRIM_WRITE then (if x.override then x.ovWrite else x.adaptWrite)
  else if f = Reg.CAL_TRIM_OVERRIDE then b2n x.override
  else if f = Reg.CAL_TRIM_RETRAINS then x.retrains
  else fld s p f

/-- R344: a kiln engine's registers. -/
def kilnView (s : State) (p : Nat) (f : Field) : Nat :=
  let r := kround s (32 * (p - pageKiln 0) + fld s p Reg.KILN_SELECT_SLOT)
  let live (n : Nat) : Nat := if r.handle = 0 then 0 else n
  if f = Reg.KILN_ROUND_HANDLE then r.handle
  else if f = Reg.KILN_ROUND_STATE then live r.st
  else if f = Reg.KILN_ROUND_COUNTED then live (popCount r.counted 64)
  else if f = Reg.KILN_ROUND_QUORUM then live (polQuorum r.policy)
  else if f = Reg.KILN_ROUND_PARTIES then live (polParties r.policy)
  else if f = Reg.KILN_ROUND_FRAMES then live r.frames.length
  else fld s p f

/-- R437: the switch and transport. -/
def plarusView (s : State) (p : Nat) (f : Field) : Nat :=
  let e := Tab.get {} s.plr.fwd (fld s p Reg.FWD_SELECT_ENTRY)
  let x := session s (fld s p Reg.SESSION_SELECT_INDEX)
  let h := fld s p Reg.GROUP_SELECT_HANDLE
  let g := Tab.get {} s.plr.groups h
  if f = Reg.FWD_KEY_MAC then e.mac
  else if f = Reg.FWD_ENTRY_VALID then b2n e.valid
  else if f = Reg.FWD_ENTRY_PORTS then e.ports
  else if f = Reg.SESSION_CFG_PEER_MAC then x.peerMac
  else if f = Reg.SESSION_CFG_FRAMING then x.framing
  else if f = Reg.SESSION_CFG_KILN then b2n x.kiln
  else if f = Reg.SESSION_CFG_ALLOW_DEBUG then b2n x.allowDebug
  else if f = Reg.SESSION_CFG_PEER_CTX then x.peerCtx
  else if f = Reg.SESSION_PEER_IP6_W0 then x.ip6 / 2 ^ 64
  else if f = Reg.SESSION_PEER_IP6_W1 then x.ip6 % 2 ^ 64
  else if f = Reg.SESSION_PEER_KEY_ID_W0 then x.keyId % 2 ^ 64
  else if f = Reg.SESSION_PEER_KEY_ID_W1 then x.keyId / 2 ^ 64
  else if f = Reg.SESSION_STATE_STATE then x.st
  else if f = Reg.SESSION_STATE_KEY_PHASE then x.keyPhase
  else if f = Reg.SESSION_STATE_CTX then x.ctx
  else if f = Reg.SESSION_STATE_PEER_INDEX then x.peerIndex
  else if f = Reg.SESSION_CC_CWND then x.cwnd
  else if f = Reg.SESSION_CC_SRTT_NS then x.srtt
  else if f = Reg.SESSION_CC_OVR_CWND then x.ovrCwnd
  else if f = Reg.SESSION_CC_OVR_OVERRIDE then b2n x.override
  else if f = Reg.SESSION_COUNTS_RETRANSMITS then min x.retransmits (2 ^ 32 - 1)
  else if f = Reg.SESSION_COUNTS_AUTH_DROPS then min x.authDrops (2 ^ 32 - 1)
  else if f = Reg.GROUP_CFG_VALID then b2n g.valid
  else if f = Reg.GROUP_CFG_CTX then g.ctx
  else if f = Reg.GROUP_CFG_SIZE then g.size
  else if f = Reg.GROUP_CFG_RANK then g.rank
  else if f = Reg.GROUP_MAP_SESSION then Tab.get 0 s.plr.groupMap (h * 1024 + fld s p Reg.GROUP_MAP_RANK)
  else fld s p f

/-- The lane that `EQ_CTRL` selects, as a key of `Plarus.taps`. -/
def eqLane (s : State) (p : Nat) : Nat := 4 * (p - pagePort 0) + fld s p Reg.EQ_CTRL_LANE

/-- A lane's taps move with the loop: they are neither written nor held (R407). -/
def eqAdapts (s : State) (p : Nat) : Bool :=
  flag s p Reg.PORT_STATUS_UP && !flag s p Reg.EQ_CTRL_FREEZE && !Tab.get false s.plr.tapOverride (eqLane s p)

/-- R438: a Plarus port's registers. What the loop decides and measures on a live link is a free value. -/
def portView (s : State) (p : Nat) (f : Field) : Nat :=
  let l := eqLane s p
  if f = Reg.EQ_TAPS then (if eqAdapts s p then drawn s else Tab.get 0 s.plr.taps l)
  else if f = Reg.EQ_CTRL_OVERRIDE then b2n (Tab.get false s.plr.tapOverride l)
  else if f = Reg.EQ_MARGIN_MV then
    (if flag s p Reg.PORT_STATUS_UP then Config.freeNat (s.fresh + 1) else Tab.get 0 s.plr.margins l)
  else fld s p f

/-- Phases of a domain's group where the spec gives their number (R27, R28, R468). -/
def domainPhases (d : Nat) : Nat :=
  if d < 64 then 10 else if 128 ≤ d ∧ d < 140 then 8 else if 140 ≤ d ∧ d < 148 then 4 else if 148 ≤ d ∧ d < 156 then 64
  else Config.domainPhases d

/-- R485: the power page. -/
def powerView (s : State) (p : Nat) (f : Field) : Nat :=
  let d := fld s p Reg.DOMAIN_SELECT_INDEX
  if f = Reg.DOMAIN_STATE_ON then b2n (domainView s d)
  else if f = Reg.DOMAIN_STATE_PHASES then (if d < 186 then domainPhases d else 0)
  else if f = Reg.DOMAIN_STATE_POWER_W then (if domainView s d then drawn s else 0)
  else fld s p f

/-- R34, R506: the telemetry page. -/
def telemetryView (s : State) (p : Nat) (f : Field) : Nat :=
  if f = Reg.ERR_LATCH_COUNT then s.errs.latched.length
  else if 0x840 ≤ f.off ∧ f.off < 0x880 then latchWord s (fld s p Reg.ERR_LATCH_SELECT_INDEX) ((f.off - 0x840) / 8)
  else if 0x100 ≤ f.off ∧ f.off < 0x580 ∧ f.lo = 31 then
    b2n (flag s p f && sensorOn s ((f.off - 0x100) / 8))
  else fld s p f

/-- R439: the timebase page. -/
def timeView (s : State) (p : Nat) (f : Field) : Nat :=
  if f = Reg.TB_NOW_NS then s.time.ns
  else if f = Reg.TB_NOW_SEC then s.time.sec % 2 ^ 34
  else if f = Reg.TB_NOW_HI_SEC then s.time.sec / 2 ^ 34
  else fld s p f

/-- R374: a guest site's registers. Current and power of a rail that is on are measured: free values. -/
def siteView (s : State) (p : Nat) (f : Field) : Nat :=
  let on := domainOn s (148 + (p - pageSite 0))
  if f = Reg.SITE_RAIL_STATUS_CURRENT_A then (if on then drawn s else 0)
  else if f = Reg.SITE_RAIL_STATUS_POWER_W then (if on then Config.freeNat (s.fresh + 1) else 0)
  else fld s p f

/-- The registers of page 0x100 + k. A source's `PENDING_MIB` is its dirty pages not yet sent (R508). -/
def ownerView (s : State) (p : Nat) (f : Field) : Nat :=
  let k := p - pageCtx 0
  let st := fld s p Reg.EMBER_STATUS_STATE
  if f = Reg.EMBER_STATUS2_PENDING_MIB ∧ 1 ≤ st ∧ st ≤ 4 then ceilDiv ((dirtyPages s k).length * 65536) (2 ^ 20)
  else fld s p f

/-! Context pages (R71) -/

/-- R131, R134, R322, R440: the control page of context k. -/
def tenantView (s : State) (k : Nat) (f : Field) : Nat :=
  let w := pageWin k 0
  let d := tag s k (fld s w Reg.DRAUGHT_SELECT_TAG)
  let i := fld s w Reg.SESSION_VIEW_SELECT_INDEX
  let x := session s i
  let bound := decide (x.st ≠ 0) && x.ctx == k
  let phase (q : PassPhase) : Nat := (s.passes.filter (fun p => p.ctx == k && p.phase == q)).length
  if f = Reg.CTX_STATE_STATE then ctxState s k
  else if f = Reg.CTX_STATE_SEALED then b2n (isSealed s k)
  else if f = Reg.DRAUGHT_STATE_NEXT_BIAS then tc 8 d.nextBias
  else if f = Reg.DRAUGHT_STATE_APPLIED_BIAS then tc 8 d.appliedBias
  else if f = Reg.DRAUGHT_STATE_FROZEN then b2n d.frozen
  else if f = Reg.DRAUGHT_STATE_OVERRIDDEN then b2n d.overridden
  else if f = Reg.DRAUGHT_STATE_WRITTEN then b2n d.written
  else if f = Reg.DRAUGHT_STATE_LAST_TOP then d.lastTop
  else if f = Reg.DRAUGHT_STATE_UPDATES then d.updates
  else if f = Reg.DRAUGHT_CONFIG_BASE then tc 8 d.base
  else if f = Reg.DRAUGHT_CONFIG_HEADROOM then d.headroom
  else if f = Reg.DRAUGHT_CONFIG_STEP then d.step
  else if f = Reg.DRAUGHT_CONFIG_DEADBAND then d.deadband
  else if f = Reg.DISPATCH_STATUS_WAITING_EXEC then min 65535 (phase .ready)
  else if f = Reg.DISPATCH_STATUS_WAITING_FENCE then min 65535 (phase .waiting)
  else if f = Reg.SESSION_VIEW_BOUND then b2n bound
  else if f = Reg.SESSION_VIEW_STATE then (if bound then x.st else 0)
  else if f = Reg.SESSION_VIEW_PEER_CTX then (if bound then x.peerCtx else 0)
  else if f = Reg.SESSION_VIEW_PEER_KEY_ID_W0 then (if bound then x.verified % 2 ^ 64 else 0)
  else if f = Reg.SESSION_VIEW_PEER_KEY_ID_W1 then (if bound then x.verified / 2 ^ 64 else 0)
  else fld s w f

/-- Feature bits of a class (R163). -/
def opFeatures (c : Nat) : Nat :=
  [0, 0x3F, 0x1F, 1, 1, 7, 3, 7, 7, 1, 1, 3, 7, 1, 1, 1, 1].getD c 0

/-- Class T guests bound to a context, by site (R154). -/
def boundGuests (s : State) (k : Nat) : List Nat :=
  (boundSites s k).filter (fun n => tst (fld s (pageSite n) Reg.SITE_DECL0_CLASSES) 0)

/-- R154: the contract-information page. -/
def infoView (s : State) (k : Nat) (f : Field) : Nat :=
  let tiles := boundTiles s k
  let guest (g : Nat) (v : Nat → Nat) : Nat := match (boundGuests s k)[g]? with | some n => v n | none => 0
  let g := (f.off - 0x400) / 32
  if f = Reg.CI_EXEC_NATIVE then tiles.length
  else if f = Reg.CI_EXEC_MIN_COLUMNS then
    (if tiles.isEmpty then 0 else if tiles.any (tst (fld s 0 Reg.ARRAYS_NARROW)) then 0x7F else 0x80)
  else if f = Reg.CI_EXEC_GUESTS then (boundGuests s k).length
  else if 0x40 ≤ f.off ∧ f.off < 0x400 then opFeatures ((f.off - 0x40) / 8)
  else if f = Reg.CI_GUEST_SITE.at 32 g then guest g (fun n => n)
  else if f = Reg.CI_GUEST_VALID.at 32 g then guest g (fun _ => 1)
  else if f = Reg.CI_GUEST_CLASSES.at 32 g then guest g (fun n => (site s n).drunteClasses)
  else if f = Reg.CI_GUEST_FORMATS.at 32 g then guest g (fun n => (site s n).drunteFormats)
  else fld s (pageWin k 2) f

/-- R323: the scoped telemetry. The times are measured: free values once the context exists. -/
def scopedView (s : State) (k : Nat) (f : Field) : Nat :=
  if f = Reg.CT_TILE_TIME_US ∨ f = Reg.CT_GUEST_TIME_US then drawn s else fld s (pageWin k 3) f

/-- The header of a window message (R304). -/
def WinMsg.header (m : WinMsg) : List Byte :=
  leBytes 1 m.type ++ leBytes 1 (b2n m.encrypted) ++ leBytes 2 0 ++ leBytes 4 m.body.length ++ leBytes 8 m.seq ++
    leBytes 8 m.session ++ leBytes 8 0

/-- A hub message as `OUT_BUF` shows it: header, then text and tag, or the clear body (R304). -/
def WinMsg.bytes (m : WinMsg) : List Byte :=
  m.header ++ (if m.encrypted then Config.gcmSeal m.keys (2 * 2 ^ 64 + m.seq) m.header m.body else m.body)

/-- Bytes of a hub message: a tag adds 16. -/
def WinMsg.size (m : WinMsg) : Nat := 32 + m.body.length + (if m.encrypted then 16 else 0)

/-- R303: the window's registers. -/
def windowView (s : State) (k : Nat) (f : Field) : Nat :=
  let q := (ctx s k).outQ
  if f = Reg.OUT_STATUS_LENGTH then (match q with | m :: _ => m.size | [] => 0)
  else if f = Reg.OUT_STATUS_QUEUED then min q.length 512
  else fld s (pageWin k 1) f

/-- What a field reads as, masks apart. -/
def fieldView (s : State) (p : Nat) (k : PageKind) (f : Field) : Nat :=
  let c := (p - 0x400) / 4
  let v := match k with
    | .tenant => tenantView s c f
    | .window => windowView s c f
    | .info => infoView s c f
    | .scoped => scopedView s c f
    | _ =>
      if f.off < 0x100 then commonView s p k f
      else match k with
        | .tile => tileView s p f
        | .hbm => hbmView s p f
        | .kiln => kilnView s p f
        | .plarus => plarusView s p f
        | .plarusPort => portView s p f
        | .power => powerView s p f
        | .telemetry => telemetryView s p f
        | .timebase => timeView s p f
        | .site => siteView s p f
        | .owner => ownerView s p f
        | _ => fld s p f
  v % 2 ^ f.width

/-! Masks (R72) -/

/-- Block registers that their chapters mark as masked when sealed (R106, R233, R292, R484). -/
def maskedField (k : PageKind) (f : Field) : Bool :=
  match k with
  | .tile =>
    decide (f ∈ [Reg.LEAD_POSITION_K_BLOCK, Reg.LEAD_POSITION_M_ROW, Reg.TRAIL_POSITION_ROW, Reg.ZERO_FRACTION_LAST_PASS,
      Reg.BUBBLES_FEEDER, Reg.BUBBLES_DRAIN, Reg.TILE_PWR_STRETCHING, Reg.TILE_LOOP_COUNTS_DROOPS])
  | .owner =>
    f == Reg.PLACE_LAST_REGION || f.off == 0x980 || f.off == 0x988 || f.off == 0xA10 ||
    (List.range 8).any (fun i => f == Reg.REG_DECISION_PRIO.at 8 i || f == Reg.REG_DECISION_LAT_AVG_NS.at 8 i)
  | _ => false

/-- A field reads zero to PF0. -/
def sealMask (s : State) (p : Nat) (k : PageKind) (f : Field) : Bool :=
  (flag s p Reg.BINDING_SEALED &&
    (f.off == 0x50 || f.off == 0x58 || f == Reg.ERR_FIRST_SRC_CLASS || maskedField k f)) ||
  (k == .telemetry && decide (0x100 ≤ f.off) && decide (f.off < 0x300) && decide (f.lo < 31) &&
    flag s (pageTile ((f.off - 0x100) / 8)) Reg.BINDING_SEALED) ||
  (k == .plarus && (f.off == 0x190 || f.off == 0x1A0) &&
    (let x := session s (fld s p Reg.SESSION_SELECT_INDEX)
     decide (x.st ≠ 0) && decide (x.ctx < 64) && isSealed s x.ctx))

/-! Words -/

/-- The fields of a page: the common header's and the block's, or the context page's. -/
def pageFields (p : Nat) (k : PageKind) (off : Nat) : List Field :=
  if p < 0x400 ∧ off < 0x100 then pageTable .common else pageTable k

/-- An MSI-X table entry's 64-bit word: address, or data and mask (R384). -/
def msixWord (s : State) (fn vec half : Nat) : Nat :=
  let e := Tab.get {} s.msix (msixKey fn vec)
  if half = 0 then e.addr else e.data + b2n e.masked * 2 ^ 32

/-- The pending bits of a function, by word. -/
def pbaWord (s : State) (fn w vecs : Nat) : Nat :=
  ((List.range 64).filter (fun i => decide (64 * w + i < vecs) && (Tab.get {} s.msix (msixKey fn (64 * w + i))).pending)).foldl
    (fun n i => n + 2 ^ i) 0

/-- The MSI-X table (entries of 16 bytes) and pending bits of a function at `table` and `pba`; none: another offset. -/
def msixView (s : State) (fn vecs table pba off : Nat) : Option Nat :=
  if table ≤ off ∧ off < table + 16 * vecs then some (msixWord s fn ((off - table) / 16) ((off - table) / 8 % 2))
  else if pba ≤ off ∧ off < pba + 8 * ceilDiv vecs 64 then some (pbaWord s fn ((off - pba) / 8) vecs)
  else none

/-- The 64-bit register at an offset as function fn reads it. -/
def readWord (s : State) (fn p : Nat) (k : PageKind) (off : Nat) : Nat :=
  let c := (p - 0x400) / 4
  let fields : Nat := ((pageFields p k off).filter (fun f => f.off == off)).foldl (fun w f =>
    if fn = 0 ∧ sealMask s p k f then w else w + fieldView s p k f * 2 ^ f.lo) 0
  match k with
  | .hostPort => (match msixView s 0 323 0x8000 0xA000 off with | some w => w | none => fields)
  | .mailbox =>
    if 0x1000 ≤ off ∧ off < 0x5000 then ofBytes ((List.range 8).map (fun i => Tab.get 0 s.heart.mbx (off - 0x1000 + i))) else fields
  | .window =>
    if 0x8000 ≤ off ∧ off < 0xC000 then
      (match (ctx s c).outQ with
       | m :: _ => if fn = c then leAt m.bytes (off - 0x8000) 8 else 0
       | [] => 0)
    else fields
  | .scoped =>
    if 0xF000 ≤ off then (if fn = 0 then 0 else (msixView s fn 3 0xF000 0xF800 off).getD 0) else fields
  | _ => fields

/-! Visibility (R71, R296) -/

/-- A function has a path to a page: PF0 and the management cores (0xFF) to BAR0's, PF0 and VF k to context k's. -/
def hasPath (fn p : Nat) : Bool :=
  if p < 0x400 then fn == 0 || fn == 0xFF else decide (p < 0x500) && (fn == 0 || fn == (p - 0x400) / 4)

/-- A context page shows its registers to a function. -/
def ctxReads (s : State) (fn p off : Nat) : Bool :=
  let k := (p - 0x400) / 4
  let j := p % 4
  if j = 3 ∧ 0xF000 ≤ off then true
  else if j = 2 then true
  else if ctxState s k = 0 then j == 0 && off == 0x3008
  else !(fn == 0 && k != 0 && isSealed s k && decide (j < 2))

/-- The register at an 8-byte aligned offset as a function sees it. -/
def regView (s : State) (fn p off : Nat) : Nat :=
  match pageKind p with
  | none => 0
  | some k => if 0x400 ≤ p && !ctxReads s fn p off then 0 else readWord s fn p k off

/-- A read shows measured values: it draws from the series of free values. -/
def measures (p off : Nat) : Bool :=
  match pageKind p with
  | some .site => off == 0x110
  | some .power => off == 0x128
  | some .plarusPort => off == 0x120
  | some .scoped => off == 0x30 || off == 0x38
  | _ => false

end Sys2Proof.Machine
end

