-- ==== Sys2Proof/Machine/Writes.lean ====
section
/-! DEFINITION. What a write of a register does, field by field (R11, R64 to R82), and the operations it starts. -/

namespace Sys2Proof.Machine

/-- A write of a register: its page, the register's offset, the bits [from, to) that the request carries, the word with
those bits in place (R67, R68). -/
structure RegW where
  fn : Nat
  page : Nat
  off : Nat
  lo : Nat
  hi : Nat
  word : Nat

/-- A request of 4 or 8 bytes at an offset. -/
def RegW.of (fn page off width data : Nat) : RegW :=
  let lo := if width = 8 then 0 else 32 * (off / 4 % 2)
  ⟨fn, page, off / 8 * 8, lo, lo + 8 * width, data % 2 ^ (8 * width) * 2 ^ lo⟩

/-- The field lies wholly in the bits written (R68). -/
def RegW.got (w : RegW) (f : Field) : Bool := decide (w.lo ≤ f.lo) && decide (f.lo + f.width ≤ w.hi)

/-- The value written to a field; `d` where the request does not carry it. -/
def RegW.valOr (w : RegW) (f : Field) (d : Nat) : Nat := if w.got f then bits w.word (f.lo + f.width - 1) f.lo else d
def RegW.val (w : RegW) (f : Field) : Nat := w.valOr f 0
def RegW.on (w : RegW) (f : Field) : Bool := w.val f != 0

/-- The field's written value, or the one it holds. -/
def RegW.keep (w : RegW) (s : State) (f : Field) : Nat := w.valOr f (fld s w.page f)

/-- A field that software can write. -/
def Access.writable : Access → Bool
  | .rw | .rwl | .w1c | .w1s | .wo => true
  | _ => false

/-- The register holds a writable field over bits 31 and 32, which a 32-bit write breaks (R68). -/
def spanned (w : RegW) (k : PageKind) : Bool :=
  decide (w.hi ≠ w.lo + 64) && (pageFields w.page k w.off).any (fun f =>
    f.off == w.off && decide (f.lo ≤ 31) && decide (32 < f.lo + f.width) && Access.writable f.acc)

/-- A field takes a write as its access code states (R11). -/
def plainField (w : RegW) (f : Field) (s : State) : State :=
  if !w.got f then s
  else match f.acc with
    | .rw => setFld w.page f (w.val f) s
    | .rwl =>
      if bindState s w.page = 0 then setFld w.page f (w.val f) s else accessErr w.page Reg.ERR_SUMMARY_LOCKED_WRITE s
    | .w1c => setFld w.page f (fld s w.page f &&& (2 ^ f.width - 1 - w.val f)) s
    | .w1s => setFld w.page f (fld s w.page f ||| w.val f) s
    | _ => s

/-- The fields of the register take the write. -/
def plainWrite (w : RegW) (k : PageKind) (s : State) : State :=
  ((pageFields w.page k w.off).filter (fun f => f.off == w.off)).foldl (fun s f => plainField w f s) s

/-- Only these fields take the write. -/
def plainOnly (w : RegW) (l : List Field) (s : State) : State := l.foldl (fun s f => plainField w f s) s

/-! Operations (R76, R79) -/

/-- `OP_CONTROL.START` with `OP` and `ARG`: the operation of the page's chapter, or refused (R76). Operations whose own
command says what they find begin here and take that command next. -/
def opStart (p : Nat) (k : PageKind) (op arg : Nat) (force : Bool) (s : State) : State :=
  let idle := (pageOp s p).isNone
  match k, op with
  | .tile, 0x02 => after s (execTileSelfTest (p - pageTile 0) force s)
  | .hbm, 0x04 => after s (execChannelEvacuation (p - pageHbm 0) (arg % 512) s)
  | .hbm, 0x05 => after s (execImmediateRetrain (p - pageHbm 0) (arg % 512) s)
  | .hbm, 0x07 =>
    if idle && arg % 512 / 32 == p - pageHbm 0 && serves s (arg % 512) then opQueue p 7 (arg % 512) s else opRefused p s
  | .site, 0x07 => siteOp (p - pageSite 0) 7 force (unbindPage p 4) s
  | .site, 0x10 => after s (execSiteReturn (p - pageSite 0) (flag s p Reg.SITE_STATE_PRESENT) s)
  | .site, 0x11 => after s (execSiteAttest (p - pageSite 0) force s)
  | .kiln, 0x10 => after s (execKilnPoolAdd (p - pageKiln 0) (arg % 2 ^ 19) s)
  | .kiln, 0x11 => after s (execKilnPoolRemove (p - pageKiln 0) (arg % 2 ^ 19) s)
  | .peat, 0x10 =>
    if inService s (p - pagePeat 0) || !flag s p Reg.SLOT_STATUS_PRESENT || !idle || (peat s (p - pagePeat 0)).entering then
      after s (execPeatEnterService (p - pagePeat 0) none s)
    else opRun p 0x10 0 s
  | .peat, 0x11 => after s (execPeatRemoval (p - pagePeat 0) s)
  | .plarus, 0x10 => after s (execKilnSessionBind (arg % 1024) s)
  | .plarus, 0x11 => after s (execKilnSessionRelease (arg % 1024) s)
  | .plarusPort, 0x05 => after s (execPortRetrain (p - pagePort 0) s)
  | .core, 0x10 => coreRestart (p - pageCore 0) s
  | .owner, 0x10 =>
    coppiceStart (p - pageCtx 0) (fld s p Reg.COPPICE_REQ_KIND) (fld s p Reg.COPPICE_REQ_INDEX) (fld s p Reg.COPPICE_COUNT_COUNT)
      (fld s p Reg.COPPICE_REQ_TARGET) (flag s p Reg.COPPICE_REQ_PARK) s
  | .owner, 0x11 => emberOp (p - pageCtx 0) 0x11 s
  | .owner, 0x12 => emberOp (p - pageCtx 0) 0x12 s
  | .owner, 0x13 => emberOp (p - pageCtx 0) 0x13 s
  | _, _ => opRefused p s

/-- A self-test stops at a step boundary: the tile is `FREE`, or `FAULTED` where it entered the test from a fault (R105). -/
def abortSelfTest (n : Nat) (s : State) : State :=
  let fault := (tile s n).testFromFault
  let s := modTile n (fun t => { t with bank0 := {}, bank1 := {}, acc := [], testFromFault := false }) s
  opEnd (pageTile n) 5 (setArrayState n (if fault then 6 else 1) (unbindPage (pageTile n) (if fault then 5 else 0) s))

/-- An aborted evacuation leaves the engine's list, and the page shows the next request it has waiting (R224). -/
def unlistEvac (p ch : Nat) (s : State) : State :=
  let s := { s with hbm := { s.hbm with waiting := s.hbm.waiting.filter (fun r => r.channel != ch) } }
  match s.hbm.waiting.find? (fun r => r.channel / 32 == p - pageHbm 0) with
  | some r => opQueue p 4 r.channel s
  | none => s

/-- `OP_CONTROL.ABORT` (R79): a queued operation is dequeued; of the running ones only a tile's self-test stops. -/
def opAbort (p : Nat) (s : State) : State :=
  match pageOp s p with
  | none => s
  | some o =>
    if o.queued then
      let s := opEnd p 5 s
      if pageKind p = some .hbm ∧ o.op = 4 then showWaiting p (unlistEvac p o.arg s)
      else if pageKind p = some .hbm ∧ o.op = 5 then
        refreshPools (setChannel o.arg { channel s o.arg with announced := false } s)
      else s
    else if pageKind p = some .tile ∧ o.op = 2 then abortSelfTest (p - pageTile 0) s
    else opRefused p s

/-- A queued operation whose page is `FREE`, or whose engine is free, starts (R79, R224). -/
def queuedStart (p : Nat) (s : State) : State :=
  match pageOp s p with
  | none => s
  | some o =>
    if !o.queued then s
    else match pageKind p, o.op with
      | some .tile, 0x02 => if bindState s p = 0 then startSelfTest (p - pageTile 0) false s else s
      | some .site, 0x07 => if bindState s p = 0 then unbindPage p 4 (opRun p 7 o.arg s) else s
      | some .site, 0x11 => if bindState s p = 0 then attestStart (p - pageSite 0) .op 1 (opRun p 0x11 o.arg s) else s
      | some .hbm, 0x04 =>
        (match s.hbm.waiting with
         | r :: _ => if r.channel / 32 = p - pageHbm 0 then after s (execEvacuationDequeue s) else s
         | [] => s)
      | some .hbm, 0x05 => if stackRetraining s (p - pageHbm 0) then s else announce o.arg s
      | _, _ => s

/-- A write of `OP_CONTROL`: `ABORT` wins over `START` (R79). -/
def opControl (w : RegW) (k : PageKind) (s : State) : State :=
  let s := plainOnly w [Reg.OP_CONTROL_ARG] s
  if w.on Reg.OP_CONTROL_ABORT then opAbort w.page s
  else if w.on Reg.OP_CONTROL_START then
    opStart w.page k (w.val Reg.OP_CONTROL_OP) (fld s w.page Reg.OP_CONTROL_ARG) (w.on Reg.OP_CONTROL_FORCE) s
  else s

/-! The common header -/

def commonWrite (w : RegW) (k : PageKind) (s : State) : State :=
  let p := w.page
  match w.off with
  | 0x10 =>
    let s := watchIrq p (plainOnly w [Reg.PAGE_CTRL_IRQ_MASTER_EN, Reg.PAGE_CTRL_COUNTER_FREEZE]) s
    if w.on Reg.PAGE_CTRL_PAGE_RESET then pageReset p s else s
  | 0x20 => irqClear p (if w.got Reg.IRQ_STATUS_BLOCK then w.word else w.word / 2 ^ 62 * 2 ^ 62) s
  | 0x28 => if w.got Reg.IRQ_ENABLE then watchIrq p (setFld p Reg.IRQ_ENABLE w.word) s else s
  | 0x30 => if w.got Reg.IRQ_FORCE then raiseIrq p w.word s else s
  | 0x38 => errSummaryClear p w.word s
  | 0x68 => opControl w k s
  | _ => plainWrite w k s

/-! Blocks -/

/-- A log's configuration register (R489): enabling takes the size with it. -/
def logConfig (g : LogRegs) (w : RegW) (s : State) : State :=
  if !w.got g.enable then s
  else if w.on g.enable then logEnable g (w.val g.size) s
  else
    let s := if flag s g.page g.enable then s else setFld g.page g.size (w.val g.size) s
    setFld g.page g.enable 0 s

/-- R34, R489, R506. -/
def telemetryWrite (w : RegW) (s : State) : State :=
  match w.off with
  | 0x800 => if flag s w.page Reg.ERRLOG_CFG_ENABLE then s else plainWrite w .telemetry s
  | 0x808 => logConfig deviceLog w s
  | 0x818 => if w.got Reg.ERRLOG_DOORBELL_HEAD then logDoorbell deviceLog (w.val Reg.ERRLOG_DOORBELL_HEAD) s else s
  | 0x880 => if w.on Reg.ERR_LATCH_CLEAR_GO then after s (execErrLatchClear s) else s
  | _ => plainWrite w .telemetry s

/-- R222, R234: `CAL_TRIM` of the selected channel. -/
def hbmWrite (w : RegW) (s : State) : State :=
  if w.off = 0x138 then
    let x := channel s (32 * (w.page - pageHbm 0) + fld s w.page Reg.CAL_SELECT_CHANNEL)
    if !w.got Reg.CAL_TRIM_READ then s
    else calTrimWrite (w.page - pageHbm 0) (w.valOr Reg.CAL_TRIM_READ x.ovRead) (w.valOr Reg.CAL_TRIM_WRITE x.ovWrite)
      (w.on Reg.CAL_TRIM_OVERRIDE) s
  else plainWrite w .hbm s

/-- R279, R292. -/
def regulatorWrite (w : RegW) (s : State) : State :=
  if w.off = 0x200 then (if w.got Reg.CLASS_POOL then classPoolWrite (w.val Reg.CLASS_POOL) s else s)
  else if 0x100 ≤ w.off ∧ w.off < 0x200 ∧ w.off % 16 = 0 then
    let i := (w.off - 0x100) / 16
    if w.on (Reg.RANGE_ENABLE.at 16 i) then
      rangeEnable i (w.keep s (Reg.RANGE_CLASS.at 16 i)) (w.keep s (Reg.RANGE_BASE.at 16 i)) s
    else plainWrite w .regulator s
  else plainWrite w .regulator s

/-- R374: the rail's setpoint; 5 mV steps from 550 to 950. -/
def siteWrite (w : RegW) (s : State) : State :=
  let f := Reg.SITE_RAIL_SETPOINT_MV
  if w.off = 0x108 ∧ w.got f = true then
    if bindState s w.page ≠ 0 then accessErr w.page Reg.ERR_SUMMARY_LOCKED_WRITE s
    else if w.val f < 550 ∨ 950 < w.val f then opRefused w.page s
    else setFld w.page f (w.val f / 5 * 5) s
  else plainWrite w .site s

/-- R399: the attention indicator follows `SLOT_CTRL.ATTN_IND`. -/
def peatPageWrite (w : RegW) (s : State) : State :=
  let s := plainWrite w .peat s
  if w.off = 0x108 ∧ w.got Reg.SLOT_CTRL_ATTN_IND = true then
    let v := fld s w.page Reg.SLOT_CTRL_ATTN_IND
    setPin (pinAttnLed (w.page - pagePeat 0)) (v == 1 || v == 2) s
  else s

/-- R414, R422, R424, R425, R437: the tables behind the selectors. -/
def plarusWrite (w : RegW) (s : State) : State :=
  let p := w.page
  let i := fld s p Reg.SESSION_SELECT_INDEX
  let h := fld s p Reg.GROUP_SELECT_HANDLE
  let full := w.lo == 0 && w.hi == 64
  let modFwd (f : FwdEnt → FwdEnt) (s : State) : State :=
    { s with plr := { s.plr with fwd := Tab.mod {} s.plr.fwd (fld s p Reg.FWD_SELECT_ENTRY) f } }
  match w.off with
  | 0x148 => if full then modFwd (fun e => { e with mac := w.val Reg.FWD_KEY_MAC }) s else s
  | 0x150 => modFwd (fun e => { e with
      valid := w.valOr Reg.FWD_ENTRY_VALID (b2n e.valid) != 0, ports := w.valOr Reg.FWD_ENTRY_PORTS e.ports }) s
  | 0x160 =>
    let x := session s i
    let old := x.peerMac + x.framing * 2 ^ 48 + b2n x.kiln * 2 ^ 49 + b2n x.allowDebug * 2 ^ 50 + x.peerCtx * 2 ^ 56
    if full then sessionCfg i 0 w.word s
    else if w.lo = 32 then sessionCfg i 0 (old % 2 ^ 48 + w.word / 2 ^ 48 * 2 ^ 48) s
    else s
  | 0x168 => if full then sessionCfg i 1 w.word s else s
  | 0x170 => if full then sessionCfg i 2 w.word s else s
  | 0x178 => if full then sessionCfg i 3 w.word s else s
  | 0x180 => if full then sessionCfg i 4 w.word s else s
  | 0x198 => modSession i (fun x => { x with
      ovrCwnd := w.valOr Reg.SESSION_CC_OVR_CWND x.ovrCwnd
      override := w.valOr Reg.SESSION_CC_OVR_OVERRIDE (b2n x.override) != 0 }) s
  | 0x1B8 =>
    let g := Tab.get {} s.plr.groups h
    groupCfg h (w.valOr Reg.GROUP_CFG_VALID (b2n g.valid) + w.valOr Reg.GROUP_CFG_CTX g.ctx * 2 ^ 8
      + w.valOr Reg.GROUP_CFG_SIZE g.size * 2 ^ 16 + w.valOr Reg.GROUP_CFG_RANK g.rank * 2 ^ 32) s
  | 0x1C0 =>
    let s := plainOnly w [Reg.GROUP_MAP_RANK] s
    if w.got Reg.GROUP_MAP_SESSION then
      
      let m := Tab.put 0 s.plr.groupMap (h * 1024 + fld s p Reg.GROUP_MAP_RANK) (w.val Reg.GROUP_MAP_SESSION)
      { s with plr := { s.plr with groupMap := m } }
    else s
  | _ => plainWrite w .plarus s

/-- The taps last written for lane l of a port, plus 1; kept beside the register, which shows the lane's own (R407). -/
def writtenTaps (l : Nat) : Field := ⟨0x120, 40 + l, 19, .rsv, 0⟩

def setTaps (key v : Nat) (s : State) : State := { s with plr := { s.plr with taps := Tab.put 0 s.plr.taps key (v % 2 ^ 18) } }

/-- `EQ_CTRL` (R407): a freeze holds the taps that the loop has now; an override uses the written ones. -/
def eqCtrlWrite (w : RegW) (s : State) : State :=
  let p := w.page
  let was := flag s p Reg.EQ_CTRL_FREEZE
  let base := 4 * (p - pagePort 0)
  let live := flag s p Reg.PORT_STATUS_UP
  let s := plainOnly w [Reg.EQ_CTRL_FREEZE, Reg.EQ_CTRL_LANE] s
  let s := if live && !was && flag s p Reg.EQ_CTRL_FREEZE then
      let t := (List.range 4).foldl (fun t l =>
        if Tab.get false t.plr.tapOverride (base + l) then t else setTaps (base + l) (Config.freeNat (s.fresh + l)) t) s
      { t with fresh := s.fresh + 4 }
    else s
  if !w.got Reg.EQ_CTRL_OVERRIDE then s
  else
    let l := fld s p Reg.EQ_CTRL_LANE
    let key := base + l
    let on := w.on Reg.EQ_CTRL_OVERRIDE
    let written := fld s p (writtenTaps l)
    let s := if !on || Tab.get false s.plr.tapOverride key then s
      else if written ≠ 0 then setTaps key (written - 1) s
      else if eqAdapts s p then drew (setTaps key (drawn s) s)
      else s
    { s with plr := { s.plr with tapOverride := Tab.put false s.plr.tapOverride key on } }

/-- R406, R407, R431, R438: a Plarus port. -/
def portWrite (w : RegW) (s : State) : State :=
  let p := w.page
  let n := p - pagePort 0
  match w.off with
  | 0x100 =>
    let was := flag s p Reg.PORT_CFG_PTP_EN
    let s := plainOnly w [Reg.PORT_CFG_AN_EN, Reg.PORT_CFG_PTP_EN, Reg.PORT_CFG_PTP_DELAY, Reg.PORT_CFG_PTP_L2] s
    let s := if w.got Reg.PORT_CFG_MODE then portMode n (w.val Reg.PORT_CFG_MODE) s else s
    if flag s p Reg.PORT_CFG_PTP_EN = was then s else ptpChange n s
  | 0x118 => eqCtrlWrite w s
  | 0x120 =>
    let l := fld s p Reg.EQ_CTRL_LANE
    if !w.got Reg.EQ_TAPS then s
    else
      let s := setFld p (writtenTaps l) (w.val Reg.EQ_TAPS + 1) s
      if Tab.get false s.plr.tapOverride (eqLane s p) then setTaps (eqLane s p) (w.val Reg.EQ_TAPS) s else s
  | _ => plainWrite w .plarusPort s

/-- R428, R429, R439: the timebase. -/
def timeWrite (w : RegW) (s : State) : State :=
  let p := w.page
  match w.off with
  | 0x110 => if w.on Reg.TB_CAPTURE_GO then tbCapture s else s
  | 0x128 =>
    let c := w.keep s Reg.TB_CTRL_SOURCE
    let s := plainOnly w [Reg.TB_CTRL_FREEZE, Reg.TB_CTRL_UTC_OFFSET, Reg.TB_CTRL_GM_CAPABLE, Reg.TB_CTRL_PRIORITY1,
      Reg.TB_CTRL_PRIORITY2, Reg.TB_CTRL_DOMAIN] s
    chooseRoles (if c = fld s p Reg.TB_CTRL_SOURCE then showTime s else tbSource c s)
  | 0x140 => showTime (plainWrite w .timebase s)
  | 0x148 =>
    if w.got Reg.TB_SET_NS then tbSet (w.val Reg.TB_SET_NS) (w.valOr Reg.TB_SET_SEC (s.time.sec % 2 ^ 34)) s else s
  | _ => plainWrite w .timebase s

/-- `MBX_CMD` (R462): the command over the body in `MBX_DATA`. The spec gives `OTP_PROGRAM` no body layout. -/
def mailboxCommand (op len arg : Nat) (s : State) : State :=
  match op with
  | 1 => after s (execExtend len arg s)
  | 2 => after s (execRollbackCommit len arg s)
  | 3 => after s (execTransition len none s)
  | 4 => after s (execDebugPolicy len s)
  | 5 => after s (execRevokeKey len s)
  | 6 => after s (execDebugToken len s)
  | 7 => mbxCmd len (fun s => after s (execOtpProgram (Config.otpBody (mbxBody s len)) s)) s
  | 8 => after s (execGetCert len s)
  | _ => mbxEnd 0x02 [] s

/-- Bytes written into a table of bytes. -/
def putBytes (t : Tab Byte) (base width data : Nat) : Tab Byte :=
  (List.range width).foldl (fun t i => Tab.put 0 t (base + i) (BitVec.ofNat 8 (data / 256 ^ i))) t

def mailboxWrite (w : RegW) (s : State) : State :=
  if 0x1000 ≤ w.off ∧ w.off < 0x5000 then
    { s with heart := { s.heart with
      mbx := putBytes s.heart.mbx (w.off - 0x1000 + w.lo / 8) ((w.hi - w.lo) / 8) (w.word / 2 ^ w.lo) } }
  else if w.off = 0x100 then
    (if w.got Reg.MBX_CMD_OP then mailboxCommand (w.val Reg.MBX_CMD_OP) (w.val Reg.MBX_CMD_LENGTH) (w.val Reg.MBX_CMD_ARG) s else s)
  else plainWrite w .mailbox s

/-- R459, R460. -/
def debugWrite (w : RegW) (s : State) : State :=
  if w.off = 0x108 then
    let s := if w.on Reg.DEBUG_REQ_NEW_NONCE then debugNonce s else s
    if w.on Reg.DEBUG_REQ_ERASE then debugErase s else s
  else plainWrite w .debug s

/-- A write into a function's MSI-X table (R384): the entry's half; a cleared mask sends what is pending. -/
def msixWrite (fn vec half : Nat) (w : RegW) (s : State) : State :=
  let e := Tab.get {} s.msix (msixKey fn vec)
  let old := msixWord s fn vec half
  let v := old - bits old (w.hi - 1) w.lo * 2 ^ w.lo + w.word
  let put (e : MsixEnt) (s : State) : State := { s with msix := Tab.put {} s.msix (msixKey fn vec) e }
  if half = 0 then put { e with addr := v / 4 * 4 } s
  else
    let m := tst v 32
    let s := put { e with data := v % 2 ^ 32, masked := m } s
    if e.masked && !m then msixUnmask fn vec s else s

/-- The MSI-X entry at an offset. -/
def msixAt (vecs table off : Nat) : Option (Nat × Nat) :=
  if table ≤ off ∧ off < table + 16 * vecs then some ((off - table) / 16, (off - table) / 8 % 2) else none

def hostPageWrite (w : RegW) (s : State) : State :=
  match msixAt 323 0x8000 w.off with
  | some (v, h) => msixWrite 0 v h w s
  | none => plainWrite w .hostPort s

/-- R217, R236, R285, R297, R508: page 0x100 + k. -/
def ownerPageWrite (w : RegW) (s : State) : State :=
  let p := w.page
  let k := p - pageCtx 0
  let i := (w.off - 0xB00) / 8
  if w.off = 0x900 then
    let s := plainOnly w [Reg.CACHE_POLICY_KEEP_WAYS] s
    if w.got Reg.CACHE_POLICY_WAY_MASK then wayMaskWrite k (w.val Reg.CACHE_POLICY_WAY_MASK) s else s
  else if w.off = 0x980 ∨ w.off = 0x988 ∨ w.off = 0xA10 then ownerWrite k w.off (plainWrite w .owner) s
  else if w.off = 0x990 then
    (if w.got Reg.PLACE_CMD_OP then ownerWrite k w.off (placeCmd k (w.val Reg.PLACE_CMD_REGION) (w.val Reg.PLACE_CMD_OP)) s else s)
  else if w.off = 0x100 then (if w.got Reg.CTX_CMD_OP then ctxCmd k (w.val Reg.CTX_CMD_OP) s else s)
  else if w.off = 0xC00 ∨ w.off = 0xC08 then
    if isSealed s k then opRefused p (setFld p Reg.EMBER_STATUS_REASON 6 s)
    else if emberState s k ≠ 0 then opRefused p s
    else plainWrite w .owner s
  else if 0xB00 ≤ w.off ∧ w.off < 0xB40 then
    let s := plainOnly w [Reg.REG_CLASS_CEILING.at 8 i, Reg.REG_CLASS_LATENCY_NS.at 8 i, Reg.REG_CLASS_BASE_PRIO.at 8 i] s
    if w.got (Reg.REG_CLASS_GUARANTEE.at 8 i) then guaranteeWrite k i (w.val (Reg.REG_CLASS_GUARANTEE.at 8 i)) s else s
  else plainWrite w .owner s

/-! Context pages (R71) -/

/-- `RING_CFG[r]` (R135, R140): size and enable, then `ABORT`. -/
def ringCfgWrite (k r : Nat) (w : RegW) (s : State) : State :=
  let l := w.val (Reg.RING_CFG_LOG2_SIZE.at 32 r)
  let en := w.on (Reg.RING_CFG_ENABLE.at 32 r)
  if !w.got (Reg.RING_CFG_ENABLE.at 32 r) then s
  else
    let s := if en then ringEnable k r l s
      else
        let s := ringConfig k r false l s
        if ringOn s k r then ringDisable k r s else s
    if w.on (Reg.RING_CFG_ABORT.at 32 r) then ringAbort k r s else s

/-- `CQ_CFG` (R135). -/
def cqCfgWrite (k : Nat) (w : RegW) (s : State) : State :=
  let l := w.val Reg.CQ_CFG_LOG2_SIZE
  if !w.got Reg.CQ_CFG_ENABLE then s
  else if w.on Reg.CQ_CFG_ENABLE then cqEnable k l (w.on Reg.CQ_CFG_IRQ_EN) s
  else
    let s := ringConfig k 16 false l (plainOnly w [Reg.CQ_CFG_IRQ_EN] s)
    if flag s w.page Reg.CQ_CFG_ENABLE then cqDisable k s else s

/-- `FQ_CFG` (R274). -/
def fqCfgWrite (k : Nat) (w : RegW) (s : State) : State :=
  if !w.got Reg.FQ_CFG_ENABLE then s
  else if w.on Reg.FQ_CFG_ENABLE then fqEnable k (w.val Reg.FQ_CFG_LOG2_SIZE) (w.on Reg.FQ_CFG_IRQ_EN) s
  else
    let s := plainOnly w [Reg.FQ_CFG_IRQ_EN] s
    if flag s w.page Reg.FQ_CFG_ENABLE then fqDisable k s else plainOnly w [Reg.FQ_CFG_LOG2_SIZE] s

/-- The draught window's `DRAUGHT_CMD` (R132). -/
def draughtCmdWrite (k : Nat) (w : RegW) (s : State) : State :=
  let s := match w.val Reg.DRAUGHT_CMD_OP with
    | 1 => draughtFreeze k s
    | 2 => draughtUnfreeze k s
    | 3 => draughtOverride k (w.val Reg.DRAUGHT_CMD_VALUE) s
    | _ => s
  if w.on Reg.DRAUGHT_CMD_RESET_TAG then draughtResetTag k s else s

/-- The control page of context k (R131, R134, R274, R322, R489). -/
def tenantRegs (k : Nat) (w : RegW) (s : State) : State :=
  let p := w.page
  let o := w.off
  if o < 0x80 then
    (let f := Reg.DOORBELL_TAIL.at 8 (o / 8); if w.got f then ringDoorbell k (o / 8) (w.val f) s else s)
  else if o = 0x80 then (if w.got Reg.CQ_DOORBELL_HEAD then cqDoorbell k (w.val Reg.CQ_DOORBELL_HEAD) s else s)
  else if 0x100 ≤ o ∧ o < 0x300 ∧ o % 32 = 0 then
    (let f := Reg.RING_BASE_ADDR.at 32 ((o - 0x100) / 32)
     if w.got f then ringConfig k ((o - 0x100) / 32) true (w.val f) s else s)
  else if 0x100 ≤ o ∧ o < 0x300 ∧ o % 32 = 8 then ringCfgWrite k ((o - 0x100) / 32) w s
  else if o = 0x300 then (if w.got Reg.CQ_BASE_ADDR then ringConfig k 16 true (w.val Reg.CQ_BASE_ADDR) s else s)
  else if o = 0x308 then cqCfgWrite k w s
  else if 0x1200 ≤ o ∧ o < 0x1400 then
    (let f := Reg.FENCE_ADD_ADD.at 8 ((o - 0x1200) / 8); if w.got f then addFence k ((o - 0x1200) / 8) (w.val f) s else s)
  else if o = 0x2000 then
    (if w.got Reg.XLATE_ROOT_TABLE then rootWrite k (w.on Reg.XLATE_ROOT_VALID) (w.val Reg.XLATE_ROOT_TABLE) false s else s)
  else if o = 0x2008 then (if flag s p Reg.FQ_CFG_ENABLE then s else plainWrite w .tenant s)
  else if o = 0x2010 then fqCfgWrite k w s
  else if o = 0x2020 then (if w.got Reg.FQ_DOORBELL_HEAD then fqDoorbell k (w.val Reg.FQ_DOORBELL_HEAD) s else s)
  else if o = 0x2028 then
    (if w.got Reg.FAULT_RESUME_ID then faultResume k (w.val Reg.FAULT_RESUME_ID) (w.val Reg.FAULT_RESUME_ACTION) false s else s)
  else if o = 0x2040 then
    (if w.got Reg.INV_CMD_EPOCH then
      postInval k (w.val Reg.INV_CMD_EPOCH) (fld s p Reg.INV_RANGE_BASE * 65536) (fld s p Reg.INV_RANGE_PAGES)
        (w.val Reg.INV_CMD_SIGNAL) (w.on Reg.INV_CMD_SIGNAL_EN) false s
     else s)
  else if o = 0x3018 then
    let s := if w.got Reg.PARK_AREA_SLOTS then setFld p Reg.PARK_AREA_SLOTS (min 64 (w.val Reg.PARK_AREA_SLOTS)) s else s
    plainOnly w [Reg.PARK_AREA_ADDR] s
  else if o = 0x3300 then (if flag s p Reg.ERRQ_CFG_ENABLE then s else plainWrite w .tenant s)
  else if o = 0x3308 then logConfig (tenantLog k) w (plainOnly w [Reg.ERRQ_CFG_IRQ_EN] s)
  else if o = 0x3318 then (if w.got Reg.ERRQ_DOORBELL_HEAD then logDoorbell (tenantLog k) (w.val Reg.ERRQ_DOORBELL_HEAD) s else s)
  else if o = 0x8010 then
    modSelected k (fun d => { d with
      base := sext 8 (w.valOr Reg.DRAUGHT_CONFIG_BASE (tc 8 d.base)), headroom := w.valOr Reg.DRAUGHT_CONFIG_HEADROOM d.headroom
      step := w.valOr Reg.DRAUGHT_CONFIG_STEP d.step, deadband := w.valOr Reg.DRAUGHT_CONFIG_DEADBAND d.deadband }) s
  else if o = 0x8018 then draughtCmdWrite k w s
  else plainWrite w .tenant s

/-- Registers that only window messages set while the context is SEALED (R273, R322). -/
def sealedRegister (o : Nat) : Bool := (decide (0x2000 ≤ o) && decide (o < 0x2058)) || o == 0x3018

/-! Posting a window message (R303 to R306) -/

/-- Header and text of the message posted in `IN_BUF`. -/
def inBytes (s : State) (k len : Nat) : List Byte := (List.range len).map (Tab.get 0 (ctx s k).inBuf)

/-- The envelope of a posted message; its tag is judged under the session's key, with the tenant's nonce prefix (R304). -/
def inEnvelope (s : State) (k len : Nat) : Envelope :=
  let b := inBytes s k len
  let seq := leAt b 8 8
  { posted := len, encrypted := leAt b 1 1 == 1, bodyLen := leAt b 4 4, seq := seq, session := leAt b 16 8
    verifies := Config.gcmVerify (ctx s k).keys (2 ^ 64 + seq) (b.take 32) (b.drop 32) }

/-- Plaintext of a posted message. -/
def inBody (s : State) (k len : Nat) : List Byte :=
  let b := inBytes s k len
  if leAt b 1 1 = 1 then (Config.gcmOpen (ctx s k).keys (2 ^ 64 + leAt b 8 8) (b.drop 32)).take (leAt b 4 4) else b.drop 32

/-- `IN_POST` (R303): the message goes to its type's command; a type that is reserved, or not a tenant's, is answered with
`ERROR` 0x01; a clear message other than `KEY_EXCHANGE` is discarded. -/
def inPost (k len : Nat) (s : State) : State :=
  let e := inEnvelope s k len
  let b := inBody s k len
  let ty := leAt (inBytes s k len) 0 1
  let run (r : Res) : State := after s r
  if ty = 1 then run (execKeyExchange k e (b.take 32) (slice b 32 133) s)
  else if !e.encrypted then run (execInPostDiscard k e s)
  else match ty with
    | 0x03 => run (execTenantStart k e s)
    | 0x04 => run (execReportReq k e (slice b 0 32) s)
    | 0x05 => run (execTenantEnd k e s)
    | 0x07 => run (execParkSet k e (word64 b 0) s)
    | 0x09 => run (execWindowRekey k e (slice b 0 32) (slice b 32 133) s)
    | 0x0A => run (execLogReq k e (leAt b 0 8) s)
    | 0x20 => run (execRootSet k e (word64 b 0) s)
    | 0x21 => run (execInvalidate k e (word64 b 0) (word64 b 1) (word64 b 2) s)
    | 0x22 => run (execSealedResume k e (word64 b 0) s)
    | 0x23 => run (execPlaceSet k e (word64 b 0) (word64 b 1) (word64 b 2) (word64 b 3) (word64 b 4) s)
    | 0x30 => run (execKilnJoin k e b s)
    | 0x32 => run (execKilnQuery k e (slice b 0 32) s)
    | 0x40 => run (execEmberSet k e (word64 b 0) (word64 b 1) s)
    | 0x41 => run (execEmberStart k e s)
    | 0x42 => run (execEmberStop k e s)
    | 0x43 => run (execEmberPromote k e s)
    | _ => winAccept k e (winError k 1 0 ty e.seq) s

/-- The sealed-message window (R303): `IN_BUF` and `IN_POST` for PF0 and VF k, `OUT_ACK` for VF k. -/
def windowWrite (k : Nat) (w : RegW) (s : State) : State :=
  if w.off < 0x4000 then
    modCtx k (fun c => { c with inBuf := putBytes c.inBuf (w.off + w.lo / 8) ((w.hi - w.lo) / 8) (w.word / 2 ^ w.lo) }) s
  else if w.off = 0x4000 then (if w.got Reg.IN_POST_LENGTH then inPost k (w.val Reg.IN_POST_LENGTH) s else s)
  else if w.off = 0xC008 then after s (execOutAckRelease w.fn k (w.on Reg.OUT_ACK_RELEASE) s)
  else s

/-- A write of a context page (R71, R273, R296, R384). -/
def contextWrite (w : RegW) (s : State) : State :=
  let k := (w.page - 0x400) / 4
  let j := w.page % 4
  if j = 3 then
    (if w.fn = k ∧ k ≠ 0 then (match msixAt 3 0xF000 w.off with | some (v, h) => msixWrite k v h w s | none => s) else s)
  else if j = 2 ∨ ctxState s k = 0 then s
  else if j = 1 then windowWrite k w s
  else if sealedRegister w.off then sealedWrite w.fn k w.off (tenantRegs k w) s
  else tenantWrite w.fn k w.off (tenantRegs k w) s

/-- A write of a register takes effect. -/
def regWrite (w : RegW) (k : PageKind) (s : State) : State :=
  if 0x400 ≤ w.page then contextWrite w s
  else
    let s := if spanned w k then accessErr w.page Reg.ERR_SUMMARY_BAD_ACCESS s else s
    if w.off < 0x100 then commonWrite w k s
    else match k with
      | .telemetry => telemetryWrite w s
      | .hbm => hbmWrite w s
      | .regulator => regulatorWrite w s
      | .site => siteWrite w s
      | .peat => peatPageWrite w s
      | .plarus => plarusWrite w s
      | .plarusPort => portWrite w s
      | .timebase => timeWrite w s
      | .mailbox => mailboxWrite w s
      | .debug => debugWrite w s
      | .hostPort => hostPageWrite w s
      | .owner => ownerPageWrite w s
      | _ => plainWrite w k s

end Sys2Proof.Machine
end

