-- ==== Sys2Proof/Machine/HostAccess.lean ====
section
/-! DEFINITION. Register access by the functions and the management cores (R11, R66 to R72), and the operations' own
commands (R79). -/

namespace Sys2Proof.Machine

/-- R67: a read of this length at this offset. -/
def readOk (off width : Nat) : Bool :=
  (width == 4 && off % 4 == 0 && decide (off + 4 ≤ 0x10000)) ||
  (decide (8 ≤ width) && decide (width ≤ 64) && width % 8 == 0 && off % 8 == 0 && decide (off + width ≤ 0x10000))

/-- R67: a write of this length at this offset. -/
def writeOk (off width : Nat) : Bool := (width == 4 || width == 8) && off % width == 0 && decide (off + width ≤ 0x10000)

/-- Registers read one after the other, lowest first. -/
def readWords (s : State) (fn p off : Nat) : Nat → Nat
  | 0 => 0
  | n + 1 => regView s fn p off + 2 ^ 64 * readWords s fn p (off + 8) n

/-- What a read of 4 bytes, or of registers, returns. -/
def readData (s : State) (fn p off width : Nat) : Nat :=
  if width = 4 then bits (regView s fn p (off / 8 * 8)) (32 * (off / 4 % 2) + 31) (32 * (off / 4 % 2))
  else readWords s fn p off (width / 8)

/-- The read touches a measured value. -/
def readMeasures (p off width : Nat) : Bool := (List.range (width / 8 + 1)).any (fun i => measures p (off / 8 * 8 + 8 * i))

/-- Registers of a site page from 0x8000 up are the guest's own; each is answered when the guest answers (R357). -/
def readGuest (fn p off width : Nat) (s : State) : State :=
  let n := p - pageSite 0
  if width = 4 then guestReg fn n (off - 0x8000) 4 false 0 s
  else (List.range (width / 8)).foldl (fun s i =>
    let o := off + 8 * i
    if 0x8000 ≤ o then guestReg fn n (o - 0x8000) 8 false 0 s else answerAccess fn p o false (regView s fn p o) s) s

/-- R70: a register read. A request that R67 does not accept is answered with zeros; a function without a path to the page
(R71) reads nothing. -/
def execRegRd (fn page off width : Nat) (s : State) : Res :=
  if !hasPath fn page then .next s
  else if !readOk off width then
    (if page < 0x400 then execBadAccess fn page off false s else .next (answerAccess fn page off false 0 s))
  else if page < 0x400 ∧ assigned page = false then execUnassignedAccess fn page off false s
  else if page < 0x400 ∧ off = 0x060 ∧ width = 4 then execProgressShadowRead fn page s
  else if page < 0x400 ∧ off = 0x064 ∧ width = 4 then execProgressUpperRead fn page s
  else if pageKind page = some .site ∧ 0x8000 < off + width then .next (readGuest fn page off width (dropShadow fn page s))
  else
    let t := answerAccess fn page off false (readData s fn page off width) (dropShadow fn page s)
    .next (if readMeasures page off width then drew (drew t) else t)

/-- The effect of a write that R67 accepts, on a page the function has a path to. -/
def writeEffect (fn page off width data : Nat) (s : State) : State :=
  match pageKind page with
  | none => s
  | some k => regWrite (RegW.of fn page off width data) k (dropShadow fn page s)

/-- R70: a register write, answered once it has taken effect. -/
def execRegWr (fn page off width data : Nat) (s : State) : Res :=
  if !hasPath fn page then .next s
  else if !writeOk off width then
    (if page < 0x400 then execBadAccess fn page off true s else .next (answerAccess fn page off true 0 s))
  else if page < 0x400 ∧ assigned page = false then execUnassignedAccess fn page off true s
  else if pageKind page = some .site ∧ 0x8000 ≤ off then
    .next (guestReg fn (page - pageSite 0) (off - 0x8000) width true data (dropShadow fn page s))
  else .next (answerAccess fn page off true 0 (writeEffect fn page off width data s))

/-- R11: a write of register fields takes effect as their access codes state, and as their chapters say of fields that
do more. -/
def execRegisterWrite (fn page off width data : Nat) (s : State) : Res :=
  .next (if hasPath fn page && writeOk off width && (pageKind page).isSome && !(pageKind page == some .site && decide (0x8000 ≤ off))
    then writeEffect fn page off width data s else s)

/-- R79: `OP_CONTROL.ABORT`. -/
def execOpAbort (page : Nat) (s : State) : Res :=
  .next (if assigned page then opAbort page (dropShadow 0 page s) else s)

/-- R79: a queued operation starts once its page is `FREE`, or its engine takes it up. -/
def execQueuedOpStart (page : Nat) (s : State) : Res := .next (if assigned page then queuedStart page s else s)

end Sys2Proof.Machine
end

