-- ==== Sys2Proof/Machine/Dispatch.lean ====
section
/-! DEFINITION. One arm per command. -/

namespace Sys2Proof.Machine

def exec (i : Instr) (s : State) : Host.Outcome State Fault Refusal :=
  match i with
  | .injectHeader src plane h units => Sys2Proof.Machine.execInjectHeader src plane h units s
  | .routerArbitrate router out plane => Sys2Proof.Machine.execRouterArbitrate router out plane s
  | .arbitrationStarvation router out plane => Sys2Proof.Machine.execArbitrationStarvation router out plane s
  | .endpointDown node cause => Sys2Proof.Machine.execEndpointDown node cause s
  | .linkBeatReceive router dir check => Sys2Proof.Machine.execLinkBeatReceive router dir check s
  | .creditReturn buffer => Sys2Proof.Machine.execCreditReturn buffer s
  | .responseArrival node h units clock age => Sys2Proof.Machine.execResponseArrival node h units clock age s
  | .registerWrite fn page off width data => Sys2Proof.Machine.execRegisterWrite fn page off width data s
  | .badAccess fn page off write => Sys2Proof.Machine.execBadAccess fn page off write s
  | .unassignedAccess fn page off write => Sys2Proof.Machine.execUnassignedAccess fn page off write s
  | .progressShadowRead fn page => Sys2Proof.Machine.execProgressShadowRead fn page s
  | .progressUpperRead fn page => Sys2Proof.Machine.execProgressUpperRead fn page s
  | .regRd fn page off width => Sys2Proof.Machine.execRegRd fn page off width s
  | .regWr fn page off width data => Sys2Proof.Machine.execRegWr fn page off width data s
  | .errRecord => Sys2Proof.Machine.execErrRecord s
  | .irqRaise => Sys2Proof.Machine.execIrqRaise s
  | .mgmtMsg h => Sys2Proof.Machine.execMgmtMsg h s
  | .mgmtBulk h units => Sys2Proof.Machine.execMgmtBulk h units s
  | .queueReport page occupancy => Sys2Proof.Machine.execQueueReport page occupancy s
  | .irqStatusClear page mask => Sys2Proof.Machine.execIrqStatusClear page mask s
  | .irqForce page mask => Sys2Proof.Machine.execIrqForce page mask s
  | .errSummaryClear page mask => Sys2Proof.Machine.execErrSummaryClear page mask s
  | .pageReset page => Sys2Proof.Machine.execPageReset page s
  | .opAbort page => Sys2Proof.Machine.execOpAbort page s
  | .queuedOpStart page => Sys2Proof.Machine.execQueuedOpStart page s
  | .feederIssue tile ready codes scales => Sys2Proof.Machine.execFeederIssue tile ready codes scales s
  | .stationaryLoad tile rows scales => Sys2Proof.Machine.execStationaryLoad tile rows scales s
  | .accumulatorWrite tile => Sys2Proof.Machine.execAccumulatorWrite tile s
  | .epilogueRow tile => Sys2Proof.Machine.execEpilogueRow tile s
  | .throttleWindow tile vector => Sys2Proof.Machine.execThrottleWindow tile vector s
  | .preemptRequest tile => Sys2Proof.Machine.execPreemptRequest tile s
  | .arrayDrainDone tile => Sys2Proof.Machine.execArrayDrainDone tile s
  | .arrayFrozen tile => Sys2Proof.Machine.execArrayFrozen tile s
  | .arrayResume tile slot => Sys2Proof.Machine.execArrayResume tile slot s
  | .arrayFault tile check row col accRow word => Sys2Proof.Machine.execArrayFault tile check row col accRow word s
  | .tileFaultAsh tile => Sys2Proof.Machine.execTileFaultAsh tile s
  | .sramCorrected tile accumulator accRow word => Sys2Proof.Machine.execSramCorrected tile accumulator accRow word s
  | .tileSelfTest tile force => Sys2Proof.Machine.execTileSelfTest tile force s
  | .selfTestEnd tile passed => Sys2Proof.Machine.execSelfTestEnd tile passed s
  | .draughtFreeze fn ctx => Sys2Proof.Machine.execDraughtFreeze fn ctx s
  | .draughtUnfreeze fn ctx => Sys2Proof.Machine.execDraughtUnfreeze fn ctx s
  | .draughtOverride fn ctx value => Sys2Proof.Machine.execDraughtOverride fn ctx value s
  | .draughtResetTag fn ctx => Sys2Proof.Machine.execDraughtResetTag fn ctx s
  | .ringDoorbell fn ctx ring tail => Sys2Proof.Machine.execRingDoorbell fn ctx ring tail s
  | .cqDoorbell fn ctx head => Sys2Proof.Machine.execCqDoorbell fn ctx head s
  | .ringEnable fn ctx ring log2Size => Sys2Proof.Machine.execRingEnable fn ctx ring log2Size s
  | .ringDisable fn ctx ring => Sys2Proof.Machine.execRingDisable fn ctx ring s
  | .ringAbort fn ctx ring => Sys2Proof.Machine.execRingAbort fn ctx ring s
  | .ringConfigWrite fn ctx ring isBase value => Sys2Proof.Machine.execRingConfigWrite fn ctx ring isBase value s
  | .cqEnable fn ctx log2Size irqEn => Sys2Proof.Machine.execCqEnable fn ctx log2Size irqEn s
  | .cqDisable fn ctx => Sys2Proof.Machine.execCqDisable fn ctx s
  | .fenceValue fn ctx num value error => Sys2Proof.Machine.execFenceValue fn ctx num value error s
  | .fenceAdd fn ctx num add => Sys2Proof.Machine.execFenceAdd fn ctx num add s
  | .descriptorFetch ctx => Sys2Proof.Machine.execDescriptorFetch ctx s
  | .fenceWaitSatisfied pass => Sys2Proof.Machine.execFenceWaitSatisfied pass s
  | .pieceDispatch ctx exec => Sys2Proof.Machine.execPieceDispatch ctx exec s
  | .pieceReissue ctx exec => Sys2Proof.Machine.execPieceReissue ctx exec s
  | .passComplete pass => Sys2Proof.Machine.execPassComplete pass s
  | .matmul pass => Sys2Proof.Machine.execMatmul pass s
  | .attend pass => Sys2Proof.Machine.execAttend pass s
  | .vector pass => Sys2Proof.Machine.execVector pass s
  | .reduce pass => Sys2Proof.Machine.execReduce pass s
  | .gather pass => Sys2Proof.Machine.execGather pass s
  | .scatter pass => Sys2Proof.Machine.execScatter pass s
  | .histo pass => Sys2Proof.Machine.execHisto pass s
  | .trees pass => Sys2Proof.Machine.execTrees pass s
  | .convert pass => Sys2Proof.Machine.execConvert pass s
  | .copy pass => Sys2Proof.Machine.execCopy pass s
  | .layout pass => Sys2Proof.Machine.execLayout pass s
  | .collective pass => Sys2Proof.Machine.execCollective pass s
  | .kilnPut pass => Sys2Proof.Machine.execKilnPut pass s
  | .kilnTake pass => Sys2Proof.Machine.execKilnTake pass s
  | .fence pass => Sys2Proof.Machine.execFence pass s
  | .emberPoint pass => Sys2Proof.Machine.execEmberPoint pass s
  | .rd h => Sys2Proof.Machine.execRd h s
  | .wr h units => Sys2Proof.Machine.execWr h units s
  | .rdNarrow h => Sys2Proof.Machine.execRdNarrow h s
  | .wrNarrow h => Sys2Proof.Machine.execWrNarrow h s
  | .addNarrow h => Sys2Proof.Machine.execAddNarrow h s
  | .fill h check => Sys2Proof.Machine.execFill h check s
  | .writeback h units => Sys2Proof.Machine.execWriteback h units s
  | .mcRd32 h check => Sys2Proof.Machine.execMcRd32 h check s
  | .mcWr32 h add check => Sys2Proof.Machine.execMcWr32 h add check s
  | .patrolScrub pa check => Sys2Proof.Machine.execPatrolScrub pa check s
  | .ceThreshold channel => Sys2Proof.Machine.execCeThreshold channel s
  | .hbmTempRead stack reading => Sys2Proof.Machine.execHbmTempRead stack reading s
  | .hbmThrottleDecision stack => Sys2Proof.Machine.execHbmThrottleDecision stack s
  | .hbmStackReturn stack => Sys2Proof.Machine.execHbmStackReturn stack s
  | .periodicRetrain stack => Sys2Proof.Machine.execPeriodicRetrain stack s
  | .retrainPause channel => Sys2Proof.Machine.execRetrainPause channel s
  | .retrainOverrun channel => Sys2Proof.Machine.execRetrainOverrun channel s
  | .calTrimOverride stack read write => Sys2Proof.Machine.execCalTrimOverride stack read write s
  | .immediateRetrain stack channel => Sys2Proof.Machine.execImmediateRetrain stack channel s
  | .hbmLaneCheck stack channel failed => Sys2Proof.Machine.execHbmLaneCheck stack channel failed s
  | .channelEvacuation stack channel => Sys2Proof.Machine.execChannelEvacuation stack channel s
  | .evacuationDequeue => Sys2Proof.Machine.execEvacuationDequeue s
  | .evacBlockCopied block lost => Sys2Proof.Machine.execEvacBlockCopied block lost s
  | .evacSwitch => Sys2Proof.Machine.execEvacSwitch s
  | .placementInterval ctx => Sys2Proof.Machine.execPlacementInterval ctx s
  | .migrationCopyDone ctx => Sys2Proof.Machine.execMigrationCopyDone ctx s
  | .migrationInstall ctx => Sys2Proof.Machine.execMigrationInstall ctx s
  | .placeHoldHbm ctx region => Sys2Proof.Machine.execPlaceHoldHbm ctx region s
  | .placeHoldPeat ctx region => Sys2Proof.Machine.execPlaceHoldPeat ctx region s
  | .placeReleaseHold ctx region => Sys2Proof.Machine.execPlaceReleaseHold ctx region s
  | .wayMaskWrite ctx mask => Sys2Proof.Machine.execWayMaskWrite ctx mask s
  | .rdShared h => Sys2Proof.Machine.execRdShared h s
  | .rdOwn h => Sys2Proof.Machine.execRdOwn h s
  | .upgrade h => Sys2Proof.Machine.execUpgrade h s
  | .evictClean h => Sys2Proof.Machine.execEvictClean h s
  | .evictDirty h units => Sys2Proof.Machine.execEvictDirty h units s
  | .snpShared agent pa => Sys2Proof.Machine.execSnpShared agent pa s
  | .snpInv agent pa => Sys2Proof.Machine.execSnpInv agent pa s
  | .snoopAnswer agent pa status state withData dirty data => Sys2Proof.Machine.execSnoopAnswer agent pa status state withData dirty data s
  | .fillData pa status mask data => Sys2Proof.Machine.execFillData pa status mask data s
  | .coreLoad core pa => Sys2Proof.Machine.execCoreLoad core pa s
  | .coreStore core pa data => Sys2Proof.Machine.execCoreStore core pa data s
  | .coreReplace core pa => Sys2Proof.Machine.execCoreReplace core pa s
  | .grant agent pa status state withData data => Sys2Proof.Machine.execGrant agent pa status state withData data s
  | .evictionAck agent pa => Sys2Proof.Machine.execEvictionAck agent pa s
  | .holdRelease agent pa => Sys2Proof.Machine.execHoldRelease agent pa s
  | .snoopAnswerTimeout agent pa => Sys2Proof.Machine.execSnoopAnswerTimeout agent pa s
  | .walkRd h => Sys2Proof.Machine.execWalkRd h s
  | .pteUpdate h => Sys2Proof.Machine.execPteUpdate h s
  | .xlateReq holder sub h => Sys2Proof.Machine.execXlateReq holder sub h s
  | .xlateInv holder h placement => Sys2Proof.Machine.execXlateInv holder h placement s
  | .dirtySet holder sub h => Sys2Proof.Machine.execDirtySet holder sub h s
  | .resume holder h => Sys2Proof.Machine.execResume holder h s
  | .countAdd h => Sys2Proof.Machine.execCountAdd h s
  | .faultResume fn ctx id action => Sys2Proof.Machine.execFaultResume fn ctx id action s
  | .invCmd fn ctx epoch signal signalEn => Sys2Proof.Machine.execInvCmd fn ctx epoch signal signalEn s
  | .invComplete ctx => Sys2Proof.Machine.execInvComplete ctx s
  | .xlateRootWrite fn ctx valid table => Sys2Proof.Machine.execXlateRootWrite fn ctx valid table s
  | .fqEnable fn ctx log2Size irqEn => Sys2Proof.Machine.execFqEnable fn ctx log2Size irqEn s
  | .fqDisable fn ctx => Sys2Proof.Machine.execFqDisable fn ctx s
  | .fqDoorbell fn ctx head => Sys2Proof.Machine.execFqDoorbell fn ctx head s
  | .faultTimeout ctx id => Sys2Proof.Machine.execFaultTimeout ctx id s
  | .guestInvLate site ctx epoch => Sys2Proof.Machine.execGuestInvLate site ctx epoch s
  | .rootSet ctx env word => Sys2Proof.Machine.execRootSet ctx env word s
  | .invalidate ctx env base pages cmd => Sys2Proof.Machine.execInvalidate ctx env base pages cmd s
  | .sealedResume ctx env word => Sys2Proof.Machine.execSealedResume ctx env word s
  | .placeSet ctx env present ctrl list cnt cmd => Sys2Proof.Machine.execPlaceSet ctx env present ctrl list cnt cmd s
  | .rateRecompute => Sys2Proof.Machine.execRateRecompute s
  | .queueStarvation page queue => Sys2Proof.Machine.execQueueStarvation page queue s
  | .guaranteeWrite ctx cls gbs => Sys2Proof.Machine.execGuaranteeWrite ctx cls gbs s
  | .rangeEnableWrite range cls base => Sys2Proof.Machine.execRangeEnableWrite range cls base s
  | .classPoolWrite value => Sys2Proof.Machine.execClassPoolWrite value s
  | .slotBoundary channel slot => Sys2Proof.Machine.execSlotBoundary channel slot s
  | .sealedResponseRelease ctx tag age => Sys2Proof.Machine.execSealedResponseRelease ctx tag age s
  | .ctxCreate ctx => Sys2Proof.Machine.execCtxCreate ctx s
  | .ctxSeal ctx => Sys2Proof.Machine.execCtxSeal ctx s
  | .ctxStart ctx => Sys2Proof.Machine.execCtxStart ctx s
  | .ctxPause ctx => Sys2Proof.Machine.execCtxPause ctx s
  | .ctxPark ctx => Sys2Proof.Machine.execCtxPark ctx s
  | .ctxResume ctx => Sys2Proof.Machine.execCtxResume ctx s
  | .ctxEnd ctx => Sys2Proof.Machine.execCtxEnd ctx s
  | .endingAshDone ctx => Sys2Proof.Machine.execEndingAshDone ctx s
  | .coppiceTile ctx tile target park => Sys2Proof.Machine.execCoppiceTile ctx tile target park s
  | .coppiceFrames ctx first count target => Sys2Proof.Machine.execCoppiceFrames ctx first count target s
  | .coppiceWays ctx first count target => Sys2Proof.Machine.execCoppiceWays ctx first count target s
  | .coppiceSite ctx site target => Sys2Proof.Machine.execCoppiceSite ctx site target s
  | .coppiceSession ctx session target => Sys2Proof.Machine.execCoppiceSession ctx session target s
  | .coppiceKilnRound ctx handle target => Sys2Proof.Machine.execCoppiceKilnRound ctx handle target s
  | .coppiceStepDone ctx => Sys2Proof.Machine.execCoppiceStepDone ctx s
  | .keyExchange ctx env nonce key => Sys2Proof.Machine.execKeyExchange ctx env nonce key s
  | .tenantStart ctx env => Sys2Proof.Machine.execTenantStart ctx env s
  | .reportReq ctx env nonce => Sys2Proof.Machine.execReportReq ctx env nonce s
  | .tenantEnd ctx env => Sys2Proof.Machine.execTenantEnd ctx env s
  | .parkSet ctx env word => Sys2Proof.Machine.execParkSet ctx env word s
  | .windowRekey ctx env nonce key => Sys2Proof.Machine.execWindowRekey ctx env nonce key s
  | .logReq ctx env first => Sys2Proof.Machine.execLogReq ctx env first s
  | .outAckRelease fn ctx release => Sys2Proof.Machine.execOutAckRelease fn ctx release s
  | .ashFrames h => Sys2Proof.Machine.execAshFrames h s
  | .ashInval h => Sys2Proof.Machine.execAshInval h s
  | .ashSram h => Sys2Proof.Machine.execAshSram h s
  | .ashXlate h => Sys2Proof.Machine.execAshXlate h s
  | .ashWays h => Sys2Proof.Machine.execAshWays h s
  | .kilnPoolAdd engine first => Sys2Proof.Machine.execKilnPoolAdd engine first s
  | .kilnPoolRemove engine first => Sys2Proof.Machine.execKilnPoolRemove engine first s
  | .kilnJoin ctx env body => Sys2Proof.Machine.execKilnJoin ctx env body s
  | .kilnQuery ctx env head => Sys2Proof.Machine.execKilnQuery ctx env head s
  | .klnSig h units => Sys2Proof.Machine.execKlnSig h units s
  | .klnOpen h => Sys2Proof.Machine.execKlnOpen h s
  | .klnPart h units => Sys2Proof.Machine.execKlnPart h units s
  | .klnPartEnd h => Sys2Proof.Machine.execKlnPartEnd h s
  | .klnRel h units => Sys2Proof.Machine.execKlnRel h units s
  | .klnRelEnd h => Sys2Proof.Machine.execKlnRelEnd h s
  | .klnNotice h => Sys2Proof.Machine.execKlnNotice h s
  | .kilnCommit engine => Sys2Proof.Machine.execKilnCommit engine s
  | .kilnNoiseDone slot => Sys2Proof.Machine.execKilnNoiseDone slot s
  | .kilnDeadline slot => Sys2Proof.Machine.execKilnDeadline slot s
  | .kilnMargin slot => Sys2Proof.Machine.execKilnMargin slot s
  | .kilnWaitExpiry slot => Sys2Proof.Machine.execKilnWaitExpiry slot s
  | .kilnRetainExpiry slot => Sys2Proof.Machine.execKilnRetainExpiry slot s
  | .kilnSigResend slot => Sys2Proof.Machine.execKilnSigResend slot s
  | .kilnRoundAshDone slot => Sys2Proof.Machine.execKilnRoundAshDone slot s
  | .idle site f => Sys2Proof.Machine.execIdle site f s
  | .packet site clock f => Sys2Proof.Machine.execPacket site clock f s
  | .mgmt site f => Sys2Proof.Machine.execMgmt site f s
  | .kppAckTimer site => Sys2Proof.Machine.execKppAckTimer site s
  | .kppRetrain site => Sys2Proof.Machine.execKppRetrain site s
  | .hello site body => Sys2Proof.Machine.execHello site body s
  | .spdm site answer => Sys2Proof.Machine.execSpdm site answer s
  | .clearDone site gen => Sys2Proof.Machine.execClearDone site gen s
  | .paused site => Sys2Proof.Machine.execPaused site s
  | .pieceBeat site id => Sys2Proof.Machine.execPieceBeat site id s
  | .pieceDone site id status nonfinite saturated hist => Sys2Proof.Machine.execPieceDone site id status nonfinite saturated hist s
  | .regRsp site data => Sys2Proof.Machine.execRegRsp site data s
  | .pwrAck site state => Sys2Proof.Machine.execPwrAck site state s
  | .kppError site severity code => Sys2Proof.Machine.execKppError site severity code s
  | .guestRegAccess fn site off width write data => Sys2Proof.Machine.execGuestRegAccess fn site off width write data s
  | .guestRegTimeout site => Sys2Proof.Machine.execGuestRegTimeout site s
  | .pieceBeatTimeout site => Sys2Proof.Machine.execPieceBeatTimeout site s
  | .stopBoundTimeout site => Sys2Proof.Machine.execStopBoundTimeout site s
  | .clearBoundTimeout site => Sys2Proof.Machine.execClearBoundTimeout site s
  | .spdmTimeout site => Sys2Proof.Machine.execSpdmTimeout site s
  | .siteStartTimeout site => Sys2Proof.Machine.execSiteStartTimeout site s
  | .laneFailure site module dir lane => Sys2Proof.Machine.execLaneFailure site module dir lane s
  | .siteReturn site present => Sys2Proof.Machine.execSiteReturn site present s
  | .siteAttest site force => Sys2Proof.Machine.execSiteAttest site force s
  | .siteLaneCheck site force modes spares rechosen => Sys2Proof.Machine.execSiteLaneCheck site force modes spares rechosen s
  | .siteRailGood site mv => Sys2Proof.Machine.execSiteRailGood site mv s
  | .siteResetRelease site => Sys2Proof.Machine.execSiteResetRelease site s
  | .siteOvercurrent site => Sys2Proof.Machine.execSiteOvercurrent site s
  | .siteUndervoltage site => Sys2Proof.Machine.execSiteUndervoltage site s
  | .gsTherm site => Sys2Proof.Machine.execGsTherm site s
  | .siteIdle site => Sys2Proof.Machine.execSiteIdle site s
  | .configRequest stream bus fn tag off write data be => Sys2Proof.Machine.execConfigRequest stream bus fn tag off write data be s
  | .pf0ApertureAccess stream tag off write len data en => Sys2Proof.Machine.execPf0ApertureAccess stream tag off write len data en s
  | .vfApertureAccess stream fn tag off write len data en => Sys2Proof.Machine.execVfApertureAccess stream fn tag off write len data en s
  | .inboundUnsupported fn tag what => Sys2Proof.Machine.execInboundUnsupported fn tag what s
  | .ptRd port h answer => Sys2Proof.Machine.execPtRd port h answer s
  | .ptWr port h units answer => Sys2Proof.Machine.execPtWr port h units answer s
  | .ptRdNarrow port h answer => Sys2Proof.Machine.execPtRdNarrow port h answer s
  | .ptWrNarrow port h answer => Sys2Proof.Machine.execPtWrNarrow port h answer s
  | .ptAddNarrow port h answer => Sys2Proof.Machine.execPtAddNarrow port h answer s
  | .hmRd h => Sys2Proof.Machine.execHmRd h s
  | .hmWr h units => Sys2Proof.Machine.execHmWr h units s
  | .hmRdNarrow h => Sys2Proof.Machine.execHmRdNarrow h s
  | .hmWrNarrow h => Sys2Proof.Machine.execHmWrNarrow h s
  | .hmAddNarrow h => Sys2Proof.Machine.execHmAddNarrow h s
  | .hmFlush h => Sys2Proof.Machine.execHmFlush h s
  | .hostCompletion tag status poisoned byteCount lower data => Sys2Proof.Machine.execHostCompletion tag status poisoned byteCount lower data s
  | .completionTimeout tag => Sys2Proof.Machine.execCompletionTimeout tag s
  | .tagQuarantineEnd tag => Sys2Proof.Machine.execTagQuarantineEnd tag s
  | .hotReset => Sys2Proof.Machine.execHotReset s
  | .hostLinkDown => Sys2Proof.Machine.execHostLinkDown s
  | .pf0Flr => Sys2Proof.Machine.execPf0Flr s
  | .vfFlr fn => Sys2Proof.Machine.execVfFlr fn s
  | .vfEnableClear => Sys2Proof.Machine.execVfEnableClear s
  | .numvfsWrite value => Sys2Proof.Machine.execNumvfsWrite value s
  | .barResize size => Sys2Proof.Machine.execBarResize size s
  | .ideIntegrityFailure stream => Sys2Proof.Machine.execIdeIntegrityFailure stream s
  | .ptmRequest delay => Sys2Proof.Machine.execPtmRequest delay s
  | .doeRequest req => Sys2Proof.Machine.execDoeRequest req s
  | .doeAbort => Sys2Proof.Machine.execDoeAbort s
  | .msixUnmask fn vec => Sys2Proof.Machine.execMsixUnmask fn vec s
  | .peatEnterService port found => Sys2Proof.Machine.execPeatEnterService port found s
  | .peatFrameAshed port => Sys2Proof.Machine.execPeatFrameAshed port s
  | .peatRemoval port => Sys2Proof.Machine.execPeatRemoval port s
  | .surpriseRemoval port cause => Sys2Proof.Machine.execSurpriseRemoval port cause s
  | .presenceChange port present => Sys2Proof.Machine.execPresenceChange port present s
  | .attnButton port => Sys2Proof.Machine.execAttnButton port s
  | .peatRequestTimeout port => Sys2Proof.Machine.execPeatRequestTimeout port s
  | .expanderEvent port => Sys2Proof.Machine.execExpanderEvent port s
  | .portModeWrite port mode => Sys2Proof.Machine.execPortModeWrite port mode s
  | .portLinkDown port => Sys2Proof.Machine.execPortLinkDown port s
  | .portLinkUp port => Sys2Proof.Machine.execPortLinkUp port s
  | .portRetrain port => Sys2Proof.Machine.execPortRetrain port s
  | .retrainDrainDone port left => Sys2Proof.Machine.execRetrainDrainDone port left s
  | .frameReceive port f domain msg full queued => Sys2Proof.Machine.execFrameReceive port f domain msg full queued s
  | .data h plane hd units => Sys2Proof.Machine.execData h plane hd units s
  | .ack h => Sys2Proof.Machine.execAck h s
  | .init hs => Sys2Proof.Machine.execInit hs s
  | .resp session hs => Sys2Proof.Machine.execResp session hs s
  | .rekey h nonce key => Sys2Proof.Machine.execRekey h nonce key s
  | .rekeyAck h nonce key => Sys2Proof.Machine.execRekeyAck h nonce key s
  | .fin h => Sys2Proof.Machine.execFin h s
  | .finAck h => Sys2Proof.Machine.execFinAck h s
  | .initResend session => Sys2Proof.Machine.execInitResend session s
  | .handshakeTimeout session => Sys2Proof.Machine.execHandshakeTimeout session s
  | .rtoExpiry session pn => Sys2Proof.Machine.execRtoExpiry session pn s
  | .transportAckTimer session => Sys2Proof.Machine.execTransportAckTimer session s
  | .ccUpdate session => Sys2Proof.Machine.execCcUpdate session s
  | .closingTimeout session => Sys2Proof.Machine.execClosingTimeout session s
  | .rekeyTrigger session => Sys2Proof.Machine.execRekeyTrigger session s
  | .keyLimit session => Sys2Proof.Machine.execKeyLimit session s
  | .oldPhaseExpiry session => Sys2Proof.Machine.execOldPhaseExpiry session s
  | .rmRd fromPeer session h => Sys2Proof.Machine.execRmRd fromPeer session h s
  | .rmWr fromPeer session h units => Sys2Proof.Machine.execRmWr fromPeer session h units s
  | .rmRd32 fromPeer session h => Sys2Proof.Machine.execRmRd32 fromPeer session h s
  | .rmWr32 fromPeer session h => Sys2Proof.Machine.execRmWr32 fromPeer session h s
  | .collData session group seq rank shape offset total units => Sys2Proof.Machine.execCollData session group seq rank shape offset total units s
  | .kilnSessionBind index => Sys2Proof.Machine.execKilnSessionBind index s
  | .kilnSessionRelease index => Sys2Proof.Machine.execKilnSessionRelease index s
  | .sessionCfgWrite session word value => Sys2Proof.Machine.execSessionCfgWrite session word value s
  | .groupCfgWrite handle value => Sys2Proof.Machine.execGroupCfgWrite handle value s
  | .ppsInEdge rawPs => Sys2Proof.Machine.execPpsInEdge rawPs s
  | .ppsMissed => Sys2Proof.Machine.execPpsMissed s
  | .holdoverEntry => Sys2Proof.Machine.execHoldoverEntry s
  | .lockAchieved => Sys2Proof.Machine.execLockAchieved s
  | .phaseJump => Sys2Proof.Machine.execPhaseJump s
  | .timebaseStep => Sys2Proof.Machine.execTimebaseStep s
  | .timeEpoch => Sys2Proof.Machine.execTimeEpoch s
  | .tbSet ns sec => Sys2Proof.Machine.execTbSet ns sec s
  | .tbCapture => Sys2Proof.Machine.execTbCapture s
  | .tbSourceWrite source => Sys2Proof.Machine.execTbSourceWrite source s
  | .ptpMessage port domain l2 msg => Sys2Proof.Machine.execPtpMessage port domain l2 msg s
  | .ptpSyncTimer port => Sys2Proof.Machine.execPtpSyncTimer port s
  | .guestTimeMessage site => Sys2Proof.Machine.execGuestTimeMessage site s
  | .ppsOutPulse high => Sys2Proof.Machine.execPpsOutPulse high s
  | .extend len arg => Sys2Proof.Machine.execExtend len arg s
  | .rollbackCommit len arg => Sys2Proof.Machine.execRollbackCommit len arg s
  | .transition len lost => Sys2Proof.Machine.execTransition len lost s
  | .debugPolicy len => Sys2Proof.Machine.execDebugPolicy len s
  | .revokeKey len => Sys2Proof.Machine.execRevokeKey len s
  | .debugToken len => Sys2Proof.Machine.execDebugToken len s
  | .otpProgram item => Sys2Proof.Machine.execOtpProgram item s
  | .getCert len => Sys2Proof.Machine.execGetCert len s
  | .debugErase => Sys2Proof.Machine.execDebugErase s
  | .debugNewNonce => Sys2Proof.Machine.execDebugNewNonce s
  | .powerOn => Sys2Proof.Machine.execPowerOn s
  | .vauxLoss => Sys2Proof.Machine.execVauxLoss s
  | .perstAssert => Sys2Proof.Machine.execPerstAssert s
  | .railLoss vinIo => Sys2Proof.Machine.execRailLoss vinIo s
  | .railsRestored => Sys2Proof.Machine.execRailsRestored s
  | .bringupStep b => Sys2Proof.Machine.execBringupStep b s
  | .pllLockLoss pll => Sys2Proof.Machine.execPllLockLoss pll s
  | .pllRelock pll => Sys2Proof.Machine.execPllRelock pll s
  | .tileSetpointLoop tile slack => Sys2Proof.Machine.execTileSetpointLoop tile slack s
  | .droopDetect tile => Sys2Proof.Machine.execDroopDetect tile s
  | .powerLimitDecision inputW tileDynW => Sys2Proof.Machine.execPowerLimitDecision inputW tileDynW s
  | .tileIdleGate tile => Sys2Proof.Machine.execTileIdleGate tile s
  | .periodicSelfTest => Sys2Proof.Machine.execPeriodicSelfTest s
  | .tempSample readings => Sys2Proof.Machine.execTempSample readings s
  | .errlogEnable log2Size => Sys2Proof.Machine.execErrlogEnable log2Size s
  | .errlogDisable => Sys2Proof.Machine.execErrlogDisable s
  | .errlogDoorbell head => Sys2Proof.Machine.execErrlogDoorbell head s
  | .errqEnable ctx log2Size irqEn => Sys2Proof.Machine.execErrqEnable ctx log2Size irqEn s
  | .errqDisable ctx => Sys2Proof.Machine.execErrqDisable ctx s
  | .errqDoorbell ctx head => Sys2Proof.Machine.execErrqDoorbell ctx head s
  | .errLatchClear => Sys2Proof.Machine.execErrLatchClear s
  | .watchdogExpiry core => Sys2Proof.Machine.execWatchdogExpiry core s
  | .coreRestart core => Sys2Proof.Machine.execCoreRestart core s
  | .coreRestartDone core ms => Sys2Proof.Machine.execCoreRestartDone core ms s
  | .emberJournalStart ctx => Sys2Proof.Machine.execEmberJournalStart ctx s
  | .emberJournalStop ctx => Sys2Proof.Machine.execEmberJournalStop ctx s
  | .emberPromoteOp ctx => Sys2Proof.Machine.execEmberPromoteOp ctx s
  | .emberSet ctx env cfg log => Sys2Proof.Machine.execEmberSet ctx env cfg log s
  | .emberStart ctx env => Sys2Proof.Machine.execEmberStart ctx env s
  | .emberStop ctx env => Sys2Proof.Machine.execEmberStop ctx env s
  | .emberPromote ctx env => Sys2Proof.Machine.execEmberPromote ctx env s
  | .emberStream ctx va => Sys2Proof.Machine.execEmberStream ctx va s
  | .embData h units => Sys2Proof.Machine.execEmbData h units s
  | .embState h units => Sys2Proof.Machine.execEmbState h units s
  | .embCommit h => Sys2Proof.Machine.execEmbCommit h s
  | .embAck h => Sys2Proof.Machine.execEmbAck h s
  | .emberApply ctx => Sys2Proof.Machine.execEmberApply ctx s
  | .i3cMctpMessage msg => Sys2Proof.Machine.execI3cMctpMessage msg s
  | .jtagInstruction instr => Sys2Proof.Machine.execJtagInstruction instr s
  | .perstDeassert => Sys2Proof.Machine.execPerstDeassert s
  | .hostLinkUp rate width flit => Sys2Proof.Machine.execHostLinkUp rate width flit s
  | .siteSidebandUp site => Sys2Proof.Machine.execSiteSidebandUp site s
  | .siteLinkTrained site rate modes spares rechosen => Sys2Proof.Machine.execSiteLinkTrained site rate modes spares rechosen s
  | .ref10mInChange present => Sys2Proof.Machine.execRef10mInChange present s
  | .coreSramError core => Sys2Proof.Machine.execCoreSramError core s
  | .inPostDiscard ctx env => Sys2Proof.Machine.execInPostDiscard ctx env s
  | .retrainEnd channel read write => Sys2Proof.Machine.execRetrainEnd channel read write s
  | .peatIdeFailure port => Sys2Proof.Machine.execPeatIdeFailure port s

end Sys2Proof.Machine
end

