-- ==== Sys2Proof/Safety.lean ====
section
/-! DEFINITION. What counts as a safe run of the block, and what statements say a command leaves alone. -/

namespace Sys2Proof.Machine

/-- The command completes: its effect is a next state. -/
def completes (c : Instr) (s : State) : Prop := ∃ t, exec c s = .next t

/-- The block can take its next step. -/
def safe (s : State) : Prop := ∃ t, step s = .next t

/-- The state after `n` steps, where none of them stops. -/
def run : Nat → State → Option State
  | 0, s => some s
  | n + 1, s => match step s with
    | .next t => run n t
    | _ => none

/-- Every byte of memory reads as before. -/
def sameBytes (s t : State) : Prop := ∀ a, byteAt t a = byteAt s a

/-- Every register field reads as before, but those at the places listed (page and field). -/
def sameFields (l : List (Nat × Field)) (s t : State) : Prop :=
  ∀ p f, (∀ x ∈ l, fieldKey p f ≠ fieldKey x.1 x.2) → fld t p f = fld s p f

/-- The fields of a page's `IRQ_STATUS`. -/
def irqPlaces (p : Nat) : List (Nat × Field) :=
  [(p, Reg.IRQ_STATUS_BLOCK), (p, Reg.IRQ_STATUS_OP_DONE), (p, Reg.IRQ_STATUS_ERR)]

/-- The fields of a page that an operation's progress and end write, `IRQ_STATUS` among them. -/
def opPlaces (p : Nat) : List (Nat × Field) :=
  irqPlaces p ++ [(p, Reg.OP_CONTROL_RESULT), (p, Reg.PAGE_STATUS_OP_ACTIVE), (p, Reg.PROGRESS_PERCENT),
    (p, Reg.PROGRESS_VALID), (p, Reg.PROGRESS_OPCODE), (p, Reg.PROGRESS_POSITION)]

/-- The fields of a page that a block error writes: `ERR_SUMMARY`, `ERR_FIRST`, `IRQ_STATUS`. -/
def errPlaces (p : Nat) : List (Nat × Field) :=
  irqPlaces p ++ [(p, Reg.ERR_SUMMARY_OVERFLOW), (p, Reg.ERR_SUMMARY_FIRST_VALID), (p, Reg.ERR_SUMMARY_SEEN),
    (p, Reg.ERR_SUMMARY_COUNT), (p, Reg.ERR_FIRST_TIME_NS), (p, Reg.ERR_FIRST_TIME_SEC), (p, Reg.ERR_FIRST_SRC_PAGE),
    (p, Reg.ERR_FIRST_SRC_CTX), (p, Reg.ERR_FIRST_SRC_SEVERITY), (p, Reg.ERR_FIRST_SRC_CLASS),
    (p, Reg.ERR_FIRST_SRC_SEQ), (p, Reg.ERR_FIRST_ADDR_ADDR), (p, Reg.ERR_FIRST_ADDR_VIRT),
    (p, Reg.ERR_FIRST_ADDR_VALID), (p, Reg.ERR_FIRST_DETAIL)]

/-- A function's writes of context k's control page take effect: its own VF's always, PF0's unless k is SEALED (R71). -/
def pageOpen (s : State) (fn k : Nat) : Bool := decide (k < 64) && (fn == k || (fn == 0 && !isSealed s k))

/-- Command `i`, the work of class `c` on pass `id`, does the work of the native tiles' pieces: from every state in which
the pass runs, ready, unstalled, in a running context, with its operands read and its results written, the pieces that
native tiles run are done, its other pieces stand as they stood, and the flags, the histogram and the series of free
values take what was computed. -/
def classWorks (c : Nat) (f : State → Pass → Except UnitErr ClassOut) (id : Nat) (i : Instr) : Prop :=
  ∀ (p : Pass) (us : List (Nat × List Byte)) (g : Gathered) (s u : State), pass s id = some p → p.opclass = c →
    p.phase = .running → classReady p = true → p.computed = false → ctxState s p.ctx = 2 → passStalled s p = false →
    f s p = .ok (us, g) →
    writeUnits (((p.nativePieces.filter (fun q => q.state == .running)).map (fun q => q.exec)).headD 0) p.ctx us
      ((operandSpans s p).foldl
        (spansRead (((p.nativePieces.filter (fun q => q.state == .running)).map (fun q => q.exec)).headD 0) p) s) = .ok u →
    ∃ t, exec i s = .next t ∧ t.mem = u.mem ∧ t.cache = u.cache ∧ t.fresh = u.fresh + 1 ∧
      pass t id = some { mergePiece p g.nonfinite g.saturated g.hist with
        pieces := p.pieces.map (fun q => if q.exec < 64 && q.state == .running then { q with state := .done } else q) }

/-- The set of an address holds only lines that belong there, and no line twice. -/
def setSound (s : State) (pa : Nat) : Prop :=
  (∀ l ∈ linesOf s pa, cacheKey l.pa = cacheKey pa) ∧ ((linesOf s pa).map (fun l => l.pa)).Nodup

/-- A narrow write or add of context c to a 32-byte sector of HBM is served at its home at once: the address is HBM's, the
line is stable, lists no agent and belongs to the context, and the sector may be read and written. -/
def sectorReady (s : State) (c pa : Nat) : Prop :=
  isHbm pa = true ∧ isTransient s pa = false ∧ s.coh.breaches = [] ∧ setSound s pa ∧
  unreachable s (pa / 32 * 32) = false ∧ allowed s c (pa / 32 * 32) = true ∧ isBad s (pa / 32 * 32) = false ∧
  ∀ l, findLine s pa = some l → l.ctx = c ∧ l.dir = 0 ∧ l.excl = false ∧ l.data.length = 128

/-- As `pageOpen`, for a register that no function writes while the context is SEALED (R273, R322). -/
def plainOpen (s : State) (fn k : Nat) : Bool := pageOpen s fn k && (k == 0 || !isSealed s k)

/-- The state in which R309's conditions of a coppice are judged: its registers written, its operation running. -/
def coppiceAsked (k kind index cnt target : Nat) (park : Bool) (s : State) : State :=
  setFld (pageCtx k) Reg.COPPICE_STATUS_REASON 0 (opRun (pageCtx k) 0x10 0
    (setFlds (pageCtx k) [(Reg.COPPICE_REQ_KIND, kind), (Reg.COPPICE_REQ_PARK, b2n park), (Reg.COPPICE_REQ_INDEX, index),
      (Reg.COPPICE_REQ_TARGET, target), (Reg.COPPICE_COUNT_COUNT, cnt)] s))

/-- A coppice may be requested on the page of context k, and no condition of R309 refuses it. -/
def coppiceAllowed (k kind index cnt target : Nat) (park : Bool) (s : State) : Prop :=
  k < 64 ∧ pageOp s (pageCtx k) = none ∧ (ctx s k).coppice = none ∧
  coppiceReason (coppiceAsked k kind index cnt target park s) k kind index cnt target = none

/-- An encrypted message is accepted at the window of context k (R304). -/
def windowOpen (s : State) (k : Nat) (e : Envelope) : Prop :=
  0 < k ∧ k < 64 ∧ fld s (pageWin k 1) Reg.IN_STATUS_BUSY = 0 ∧ Machine.envelopeOk (ctx s k) e = true

/-- A kiln transfer reaches the round in a slot, over a kiln session of one of the round's hubs (R332, R334). -/
def kilnFrom (s : State) (h : Header) (slot hub : Nat) : Prop :=
  roundOfHead s h.inlineData = some slot ∧ sessionLive s (h.opArg % 1024) = true ∧ (session s (h.opArg % 1024)).ctx = 0xFE ∧
  (otherHubs s (kround s slot)).find? (fun n => polHubKey (kround s slot).policy n == (session s (h.opArg % 1024)).verified) = some hub

/-- A packet of a live session arrives that authenticates, under a key phase the session accepts, with a fresh number
(R415, R416). -/
def plrAccepted (s : State) (h : PlrHdr) : Prop :=
  sessionLive s h.session = true ∧ h.authentic = true ∧ phaseOk (session s h.session) h.keyPhase = true ∧
  pnFresh (session s h.session) h.pn = true

/-- The number a value stands for, where it is finite. -/
def valueOf : Num.Val → Option ℚ
  | .fin n m e => some ((if n then -1 else 1) * (m : ℚ) * (2 : ℚ) ^ e)
  | _ => none

/-- A value is the zero with a minus sign. -/
def minusZero : Num.Val → Bool
  | .fin n m _ => n && m == 0
  | _ => false

/-- The links a packet crosses within n arbitrations: the router it leaves, the direction, the virtual channel. -/
def links : Nat → NetPkt → List (Nat × Nat × Nat)
  | 0, _ => []
  | n + 1, p =>
    let d := route p.router p.hdr.dst
    if d < 4 then
      (p.router, d, nextVc p d) :: links n { p with router := nextRouter p.router d, inPort := d, vc := nextVc p d }
    else []

/-- The links from a router on, in one direction and of a given number, with the virtual channel of each: 1 from the
dateline on. -/
def straight (dir : Nat) : Nat → Nat → Nat → List (Nat × Nat × Nat)
  | 0, _, _ => []
  | n + 1, r, vc =>
    let vc := if dateline r dir then 1 else vc
    (r, dir, vc) :: straight dir n (nextRouter r dir) vc

/-- The commands none of whose forms stores a byte: what they change is registers, tables and messages. -/
def storesNothing : Instr → Bool
  | .injectHeader .. | .routerArbitrate .. | .arbitrationStarvation .. | .endpointDown .. | .linkBeatReceive ..
  | .creditReturn .. | .responseArrival .. | .badAccess .. | .unassignedAccess .. | .progressShadowRead ..
  | .progressUpperRead .. | .regRd .. | .irqRaise .. | .mgmtMsg .. | .mgmtBulk .. | .queueReport .. | .irqStatusClear ..
  | .irqForce .. | .errSummaryClear .. | .pageReset .. | .opAbort .. | .feederIssue .. | .stationaryLoad ..
  | .accumulatorWrite .. | .throttleWindow .. | .preemptRequest .. | .arrayDrainDone .. | .arrayFrozen ..
  | .arrayResume .. | .arrayFault .. | .tileFaultAsh .. | .sramCorrected .. | .selfTestEnd .. | .draughtFreeze ..
  | .draughtUnfreeze .. | .draughtOverride .. | .draughtResetTag .. | .ringDoorbell .. | .cqDoorbell .. | .ringEnable ..
  | .ringDisable .. | .ringConfigWrite .. | .cqEnable .. | .cqDisable .. | .fenceValue .. | .fenceAdd ..
  | .pieceDispatch .. | .pieceReissue .. | .kilnPut .. | .hbmThrottleDecision .. | .hbmStackReturn ..
  | .periodicRetrain .. | .retrainPause .. | .calTrimOverride .. | .immediateRetrain .. | .hbmLaneCheck ..
  | .placeHoldHbm .. | .placeHoldPeat .. | .placeReleaseHold .. | .wayMaskWrite .. | .invCmd .. | .invComplete ..
  | .xlateRootWrite .. | .fqEnable .. | .fqDisable .. | .faultTimeout .. | .rootSet .. | .invalidate .. | .placeSet ..
  | .rateRecompute .. | .guaranteeWrite .. | .rangeEnableWrite .. | .classPoolWrite .. | .sealedResponseRelease ..
  | .keyExchange .. | .tenantStart .. | .reportReq .. | .parkSet .. | .windowRekey .. | .logReq .. | .outAckRelease ..
  | .ashSram .. | .ashXlate .. | .kilnJoin .. | .kilnQuery .. | .klnOpen .. | .kilnMargin .. | .kilnSigResend ..
  | .kppAckTimer .. | .spdm .. | .clearDone .. | .paused .. | .pieceBeat .. | .pieceDone .. | .regRsp .. | .pwrAck ..
  | .guestRegAccess .. | .guestRegTimeout .. | .spdmTimeout .. | .siteStartTimeout .. | .siteReturn ..
  | .siteRailGood .. | .siteResetRelease .. | .gsTherm .. | .siteIdle .. | .inboundUnsupported .. | .numvfsWrite ..
  | .barResize .. | .ideIntegrityFailure .. | .ptmRequest .. | .doeRequest .. | .doeAbort .. | .msixUnmask ..
  | .attnButton .. | .expanderEvent .. | .portModeWrite .. | .portLinkDown .. | .portLinkUp .. | .portRetrain ..
  | .retrainDrainDone .. | .ack .. | .init .. | .resp .. | .rekey .. | .rekeyAck .. | .initResend ..
  | .transportAckTimer .. | .ccUpdate .. | .rekeyTrigger .. | .oldPhaseExpiry .. | .collData .. | .kilnSessionBind ..
  | .sessionCfgWrite .. | .groupCfgWrite .. | .ppsInEdge .. | .ppsMissed .. | .holdoverEntry .. | .lockAchieved ..
  | .phaseJump .. | .timebaseStep .. | .timeEpoch .. | .tbSet .. | .tbCapture .. | .tbSourceWrite .. | .ptpMessage ..
  | .ptpSyncTimer .. | .guestTimeMessage .. | .ppsOutPulse .. | .extend .. | .rollbackCommit .. | .debugPolicy ..
  | .revokeKey .. | .otpProgram .. | .getCert .. | .debugNewNonce .. | .pllRelock .. | .tileSetpointLoop ..
  | .droopDetect .. | .powerLimitDecision .. | .tileIdleGate .. | .errlogEnable .. | .errlogDisable ..
  | .errlogDoorbell .. | .errqEnable .. | .errqDisable .. | .errqDoorbell .. | .errLatchClear .. | .coreRestartDone ..
  | .emberJournalStart .. | .emberJournalStop .. | .emberPromoteOp .. | .emberSet .. | .emberStart .. | .emberStop ..
  | .emberPromote .. | .embState .. | .embCommit .. | .embAck .. | .i3cMctpMessage .. | .jtagInstruction ..
  | .perstDeassert .. | .hostLinkUp .. | .siteSidebandUp .. | .siteLinkTrained .. | .ref10mInChange ..
  | .inPostDiscard .. | .peatIdeFailure .. => true
  | _ => false

/-- The commands that may change what Heartwood keeps: life cycle, policies, keys, nonces and sessions. -/
def mayTouchHeart : Instr → Bool
  | .registerWrite .. | .regWr .. | .keyExchange .. | .reportReq .. | .windowRekey .. | .configRequest .. | .hotReset ..
  | .hostLinkDown .. | .pf0Flr .. | .doeRequest .. | .extend .. | .rollbackCommit .. | .transition .. | .debugPolicy ..
  | .revokeKey .. | .debugToken .. | .otpProgram .. | .getCert .. | .debugErase .. | .powerOn .. | .vauxLoss ..
  | .perstAssert .. | .railLoss .. | .railsRestored .. | .bringupStep .. | .pllLockLoss .. | .tempSample .. => true
  | _ => false

/-- The commands that may change a management core. -/
def mayTouchCores : Instr → Bool
  | .registerWrite .. | .regWr .. | .rd .. | .wr .. | .rdNarrow .. | .wrNarrow .. | .addNarrow .. | .rdShared ..
  | .rdOwn .. | .upgrade .. | .evictClean .. | .evictDirty .. | .snoopAnswer .. | .fillData .. | .snoopAnswerTimeout ..
  | .walkRd .. | .pteUpdate .. | .transition .. | .powerOn .. | .vauxLoss .. | .perstAssert .. | .railLoss ..
  | .railsRestored .. | .tempSample .. | .watchdogExpiry .. | .coreRestart .. | .coreSramError .. => true
  | _ => false

/-- The commands that may change the draught tags of a context. -/
def mayTouchTags : Instr → Bool
  | .registerWrite .. | .regWr .. | .draughtFreeze .. | .draughtUnfreeze .. | .draughtOverride .. | .draughtResetTag ..
  | .passComplete .. | .ctxCreate .. | .ctxSeal .. | .ctxStart .. | .ctxPause .. | .ctxPark .. | .ctxResume ..
  | .ctxEnd .. | .endingAshDone .. | .transition .. | .powerOn .. | .vauxLoss .. | .perstAssert .. | .railLoss ..
  | .railsRestored .. | .tempSample .. | .emberJournalStart .. | .emberJournalStop .. | .emberPromoteOp ..
  | .emberPromote .. | .emberApply .. => true
  | _ => false

/-- The commands that may change the timebase or what its ports keep. -/
def mayTouchTime : Instr → Bool
  | .registerWrite .. | .regWr .. | .portModeWrite .. | .portLinkDown .. | .portLinkUp .. | .retrainDrainDone ..
  | .frameReceive .. | .ppsInEdge .. | .ppsMissed .. | .holdoverEntry .. | .lockAchieved .. | .phaseJump ..
  | .timebaseStep .. | .timeEpoch .. | .tbSet .. | .tbSourceWrite .. | .ptpMessage .. | .guestTimeMessage ..
  | .ppsOutPulse .. | .transition .. | .powerOn .. | .vauxLoss .. | .perstAssert .. | .railLoss .. | .railsRestored ..
  | .pllLockLoss .. | .pllRelock .. | .tempSample .. | .ref10mInChange .. => true
  | _ => false

/-- The commands that may change a channel, a stack or the evacuation engine of HBM. -/
def mayTouchHbm : Instr → Bool
  | .registerWrite .. | .regWr .. | .opAbort .. | .queuedOpStart .. | .fill .. | .writeback .. | .mcRd32 .. | .mcWr32 ..
  | .patrolScrub .. | .ceThreshold .. | .hbmTempRead .. | .hbmThrottleDecision .. | .hbmStackReturn ..
  | .periodicRetrain .. | .retrainPause .. | .retrainOverrun .. | .calTrimOverride .. | .immediateRetrain ..
  | .hbmLaneCheck .. | .channelEvacuation .. | .evacuationDequeue .. | .evacBlockCopied .. | .evacSwitch ..
  | .queueStarvation .. | .slotBoundary .. | .transition .. | .powerOn .. | .vauxLoss .. | .perstAssert ..
  | .railLoss .. | .railsRestored .. | .bringupStep .. | .pllLockLoss .. | .tempSample .. | .retrainEnd .. => true
  | _ => false

/-- The commands that may change what a peat port keeps. -/
def mayTouchPeats : Instr → Bool
  | .registerWrite .. | .regWr .. | .ptRd .. | .ptWr .. | .ptRdNarrow .. | .ptWrNarrow .. | .ptAddNarrow ..
  | .peatEnterService .. | .peatFrameAshed .. | .peatRemoval .. | .surpriseRemoval .. | .presenceChange ..
  | .peatRequestTimeout .. | .transition .. | .powerOn .. | .vauxLoss .. | .perstAssert .. | .railLoss ..
  | .railsRestored .. | .bringupStep .. | .pllLockLoss .. | .tempSample .. => true
  | _ => false

end Sys2Proof.Machine
end

