-- ==== Sys2Proof/Certificates/Slice0/Obligations.lean ====
section
/-! DEFINITION. The statements about the block. -/

open Sys2Proof Sys2Proof.Machine

/-- A step takes the command at the front of the queue and runs it on the state with the queue's rest. The empty queue's idling is
the model's choice (log entry 1). -/
def Obligations.StepRunsFrontCommand : Prop :=
  (∀ (c : Instr) (s : State), step { s with pending := c :: s.pending } = exec c s) ∧
  (∀ s : State, s.pending = [] → step s = .next s)

/-- Every command completes in every state, so a run of any length goes on: no step of the block faults or refuses. -/
def Obligations.NoCommandStops : Prop := ∀ (n : Nat) (s : State), (run n s).isSome = true

/-- The queue is first in, first out, and only a step takes from it: whatever the front command does, the next state waits for
exactly the commands behind it. -/
def Obligations.CommandsLeaveQueue : Prop :=
  ∀ s t : State, step s = .next t → t.pending = s.pending.tail

/-- Memory's canonical form (addresses rise strictly, no listed byte equals what the address reads as unlisted) is kept by every
step, so that equal memories are equal data. -/
def Obligations.MemoryStaysCanonical : Prop :=
  ∀ s t : State, s.mem.wf = true → step s = .next t → t.mem.wf = true

/-- What reset leaves: nothing waits, memory lists nothing, tiles and sites are FREE, contexts 0x01 to 0x3F are EMPTY, and context
0x00 is RUNNING and its page BOUND; every cache set is sound. Life cycle TEST and `PERST_N` low are the model's choices (log
entries 31 and 32), and so is memory that lists nothing reading 0 (log entry 6). -/
def Obligations.ResetIsCanonical : Prop :=
  State.reset.pending = [] ∧ State.reset.mem.wf = true ∧ State.reset.mem.cells = [] ∧ State.reset.passes = [] ∧
  (∀ n, n < 64 → bindState State.reset (pageTile n) = 0 ∧ bindCtx State.reset (pageTile n) = 0xFF) ∧
  (∀ n, n < 8 → bindState State.reset (pageSite n) = 0 ∧ bindCtx State.reset (pageSite n) = 0xFF) ∧
  (∀ k, 0 < k → k < 64 → ctxState State.reset k = 0) ∧ ctxState State.reset 0 = 2 ∧ bindState State.reset (pageCtx 0) = 1 ∧
  (∀ pa, setSound State.reset pa) ∧ lifeCycle State.reset = 1 ∧ State.reset.power.perst = true

/-- R49, R51 to R54, R281: a header that passes the checks enters at its source's router; an arbitration moves the winner on, and
a starved packet wins. -/
def Obligations.TorusInjectionAndArbitration : Prop :=
  (∀ (src : Nat) (plane : Plane) (h h' : Header) (us : List Unit256) (s : State),
    h' = stampSource s plane src { h with len := if h.len ≤ 16 then us.length else h.len } →
    (nodeBlock src).isSome = true → ctxPermitted s src h' = true → headerOk s plane src h' = true →
    creditFree s plane h' (nodeRouter src) (4 + nodePort src) 0 = true → (plane = .req → requestsFull s src h' = false) →
    (plane = .req → regulated src h' = true → requestBytes h' ≤ Tab.get 0 s.regul.buckets (regKey src h'.ctx h'.sclass)) →
    ∃ t, exec (.injectHeader src plane h us) s = .next t ∧
      t.torus.pkts = s.torus.pkts ++ [{ plane := plane, hdr := h', units := us, router := nodeRouter src, inPort := 4 + nodePort src }] ∧
      sameBytes s t) ∧
  (∀ (r out i : Nat) (plane : Plane) (p : NetPkt) (s : State), out < 4 → winner (candidates s r out plane) false = some (i, p) →
    ∃ t, exec (.routerArbitrate r out plane) s = .next t ∧ sameBytes s t ∧ t.regs = s.regs ∧
      { p with router := nextRouter r out, inPort := out, vc := nextVc p out, lost := 0 } ∈ t.torus.pkts) ∧
  (∀ (r out i : Nat) (p : NetPkt) (s : State), 4 ≤ out → winner (candidates s r out .rsp) false = some (i, p) →
    isDown s p.hdr.dst = false → p.plane = .rsp →
    ∃ t, exec (.routerArbitrate r out .rsp) s = .next t ∧ t.out = .delivered p.hdr p.units :: s.out) ∧
  (∀ (r out i : Nat) (plane : Plane) (p : NetPkt) (s : State), out < 4 →
    (candidates s r out plane).find? (fun e => decide (256 ≤ e.2.lost)) = some (i, p) →
    ∃ t, exec (.arbitrationStarvation r out plane) s = .next t ∧ sameBytes s t ∧
      { p with router := nextRouter r out, inPort := out, vc := nextVc p out, lost := 0 } ∈ t.torus.pkts)

/-- R45, R54, R55, R59: what an endpoint's loss, a beat, a credit and a response change. -/
def Obligations.TorusEndpointsAndLinks : Prop :=
  (∀ (n : Nat) (c : DownCause) (s : State), ∃ t, exec (.endpointDown n c) s = .next t ∧ isDown t n = true ∧
    (∀ h ∈ t.torus.accepted, h.dst ≠ n) ∧ sameBytes s t) ∧
  (∀ (r d : Nat) (s : State), r < 64 → d < 4 → ∃ t, exec (.linkBeatReceive r d .clean) s = .next t ∧
    Tab.get 0 t.torus.replays (r * 4 + d) = 0 ∧ t.regs = s.regs ∧ sameBytes s t) ∧
  (∀ (r d n : Nat) (s : State), r < 64 → d < 4 → fld s (pageTile r) Reg.PAGE_CTRL_COUNTER_FREEZE = 0 →
    ∃ t, exec (.linkBeatReceive r d (.corrected n)) s = .next t ∧ sameBytes s t ∧
      sameFields [(pageTile r, Reg.LINK_CORRECTED)] s t ∧ Tab.get 0 t.torus.replays (r * 4 + d) = 0 ∧
      bits (fld t (pageTile r) Reg.LINK_CORRECTED) (16 * d + 15) (16 * d) =
        min (bits (fld s (pageTile r) Reg.LINK_CORRECTED) (16 * d + 15) (16 * d) + n) 0xFFFF) ∧
  (∀ (r d : Nat) (s : State), r < 64 → d < 4 → Tab.get 0 s.torus.replays (r * 4 + d) < 3 →
    ∃ t, exec (.linkBeatReceive r d .uncorrectable) s = .next t ∧ sameBytes s t ∧
      Tab.get 0 t.torus.replays (r * 4 + d) = Tab.get 0 s.torus.replays (r * 4 + d) + 1 ∧
      t.out = .linkReplay r d :: s.out ∧ sameFields [(pageTile r, Reg.LINK_REPLAYS)] s t) ∧
  (∀ (r d : Nat) (s : State), r < 64 → d < 4 → 3 ≤ Tab.get 0 s.torus.replays (r * 4 + d) →
    ∃ t, exec (.linkBeatReceive r d .uncorrectable) s = .next t ∧ sameBytes s t ∧
      fld t (pageTile r) Reg.ROUTER_STATUS_LINK_FAILED =
        setBit (fld s (pageTile r) Reg.ROUTER_STATUS_LINK_FAILED) d % 16 ∧ t.errs.dispatchStopped = true) ∧
  (∀ (b : Nat) (s : State), 0 < Tab.get 0 s.torus.due b → s.torus.waiting = [] →
    ∃ t, exec (.creditReturn b) s = .next t ∧ sameBytes s t ∧ t.regs = s.regs ∧
      Tab.get 0 t.torus.used b = Tab.get 0 s.torus.used b - 1 ∧ Tab.get 0 t.torus.due b = Tab.get 0 s.torus.due b - 1) ∧
  (∀ (node : Nat) (h r : Header) (rest : List Header) (us : List Unit256) (clock age : Nat) (s : State),
    takeFirst (fun r => r.src == node && r.srcSub == h.dstSub && r.tag == h.tag) s.torus.outstanding = some (r, rest) → s.torus.waiting = [] →
    ∃ t, exec (.responseArrival node h us clock age) s = .next t ∧ t.torus.outstanding = rest ∧ sameBytes s t)

/-- R66 whole: reads of an unassigned page of BAR0 return zero, writes to it are ignored, each access is counted and its page
recorded. `UNASSIGNED_ACCESS.COUNT` saturates. An access R67 does not accept also sets `BAD_ACCESS` in the global page. -/
def Obligations.UnassignedPageRule : Prop :=
  (∀ (fn page off width : Nat) (s : State), hasPath fn page = true → page < 0x400 → pageKind page = none →
    ∃ t, exec (.regRd fn page off width) s = .next t ∧ t.out = .regData fn page off 0 :: s.out ∧ sameBytes s t ∧
      fld t 0 Reg.UNASSIGNED_ACCESS_COUNT = min (fld s 0 Reg.UNASSIGNED_ACCESS_COUNT + 1) 0xFFFFFFFF ∧
      fld t 0 Reg.UNASSIGNED_ACCESS_LAST_PAGE = page ∧
      sameFields ([(0, Reg.UNASSIGNED_ACCESS_COUNT), (0, Reg.UNASSIGNED_ACCESS_LAST_PAGE)] ++
        if readOk off width then [] else (0, Reg.ERR_SUMMARY_BAD_ACCESS) :: irqPlaces 0) s t) ∧
  (∀ (fn page off width data : Nat) (s : State), hasPath fn page = true → page < 0x400 → pageKind page = none →
    ∃ t, exec (.regWr fn page off width data) s = .next t ∧ t.out = .regDone fn page off :: s.out ∧ sameBytes s t ∧
      fld t 0 Reg.UNASSIGNED_ACCESS_COUNT = min (fld s 0 Reg.UNASSIGNED_ACCESS_COUNT + 1) 0xFFFFFFFF ∧
      fld t 0 Reg.UNASSIGNED_ACCESS_LAST_PAGE = page ∧
      sameFields ([(0, Reg.UNASSIGNED_ACCESS_COUNT), (0, Reg.UNASSIGNED_ACCESS_LAST_PAGE)] ++
        if writeOk off width then [] else (0, Reg.ERR_SUMMARY_BAD_ACCESS) :: irqPlaces 0) s t) ∧
  (∀ (fn page off : Nat) (write : Bool) (s : State), page < 0x400 → pageKind page = none →
    ∃ t, exec (.unassignedAccess fn page off write) s = .next t ∧ sameBytes s t ∧
      t.out = (if write then .regDone fn page off else .regData fn page off 0) :: s.out ∧
      fld t 0 Reg.UNASSIGNED_ACCESS_COUNT = min (fld s 0 Reg.UNASSIGNED_ACCESS_COUNT + 1) 0xFFFFFFFF ∧
      fld t 0 Reg.UNASSIGNED_ACCESS_LAST_PAGE = page ∧
      sameFields [(0, Reg.UNASSIGNED_ACCESS_COUNT), (0, Reg.UNASSIGNED_ACCESS_LAST_PAGE)] s t)

/-- R11, R67, R73, R78: a plain write and its read back on every assigned page, a request that is not accepted, and the two
halves of `PROGRESS`. -/
def Obligations.RegisterWriteThenRead : Prop :=
  (∀ (fn page data : Nat) (s : State), hasPath fn page = true → assigned page = true → data < 2 ^ 64 →
    ∃ t, exec (.registerWrite fn page 0x78 8 data) s = .next t ∧ fld t page Reg.PAGE_SCRATCH = data ∧
      sameFields [(page, Reg.PAGE_SCRATCH)] s t ∧ sameBytes s t ∧ t.out = s.out) ∧
  (∀ (fn page data : Nat) (s : State), hasPath fn page = true → assigned page = true → data < 2 ^ 64 →
    ∃ t, exec (.registerWrite fn page 0x28 8 data) s = .next t ∧ fld t page Reg.IRQ_ENABLE = data ∧
      sameFields [(page, Reg.IRQ_ENABLE)] s t ∧ sameBytes s t ∧ t.out = s.out) ∧
  (∀ (fn page data : Nat) (s : State), hasPath fn page = true → assigned page = true → data < 2 ^ 64 →
    ∃ t, exec (.regWr fn page 0x78 8 data) s = .next t ∧ fld t page Reg.PAGE_SCRATCH = data ∧
      sameFields [(page, Reg.PAGE_SCRATCH)] s t ∧ sameBytes s t ∧ t.out = .regDone fn page 0x78 :: s.out) ∧
  (∀ (fn page : Nat) (s : State), hasPath fn page = true → assigned page = true → fld s page Reg.PAGE_SCRATCH < 2 ^ 64 →
    ∃ t, exec (.regRd fn page 0x78 8) s = .next t ∧ sameBytes s t ∧ t.regs = s.regs ∧
      t.out = .regData fn page 0x78 (fld s page Reg.PAGE_SCRATCH) :: s.out) ∧
  (∀ (fn page off : Nat) (write : Bool) (s : State), assigned page = true →
    ∃ t, exec (.badAccess fn page off write) s = .next t ∧ sameBytes s t ∧
      t.out = (if write then .regDone fn page off else .regData fn page off 0) :: s.out ∧
      fld t page Reg.ERR_SUMMARY_BAD_ACCESS = 1 ∧ fld t page Reg.IRQ_STATUS_ERR = 1 ∧
      sameFields ((page, Reg.ERR_SUMMARY_BAD_ACCESS) :: irqPlaces page) s t) ∧
  (∀ (fn page : Nat) (s : State), assigned page = true →
    ∃ t, exec (.progressShadowRead fn page) s = .next t ∧ sameBytes s t ∧ t.regs = s.regs ∧
      t.out = .regData fn page 0x060 (progressWord s page % 2 ^ 32) :: s.out ∧
      Tab.get 0 t.shadows (shadowKey page fn) = progressWord s page + 1) ∧
  (∀ (fn page w : Nat) (s : State), assigned page = true → Tab.get 0 s.shadows (shadowKey page fn) = w + 1 →
    ∃ t, exec (.progressUpperRead fn page) s = .next t ∧ sameBytes s t ∧ t.regs = s.regs ∧
      t.out = .regData fn page 0x064 (w / 2 ^ 32) :: s.out ∧ Tab.get 0 t.shadows (shadowKey page fn) = 0)

/-- R70, R73 to R75, R79, R82, R282, R384, R489: the registers every page has, its operations, and the messages between blocks. -/
def Obligations.InterruptsErrorsAndMessages : Prop :=
  (∀ (page mask : Nat) (s : State), assigned page = true → ∃ t, exec (.irqStatusClear page mask) s = .next t ∧ sameBytes s t ∧
    irqWord t page = irqWord s page % 2 ^ 64 &&& (2 ^ 64 - 1 - mask % 2 ^ 64) ∧ sameFields (irqPlaces page) s t ∧
    (irqCond t page = true → t.errs.irqs = s.errs.irqs ++ [page])) ∧
  (∀ (page mask : Nat) (s : State), assigned page = true → ∃ t, exec (.irqForce page mask) s = .next t ∧ sameBytes s t ∧
    irqWord t page = (irqWord s page ||| mask) % 2 ^ 64 ∧ sameFields (irqPlaces page) s t ∧
    (irqCond s page = false → irqCond t page = true → t.errs.irqs = s.errs.irqs ++ [page])) ∧
  (∀ (page mask : Nat) (s : State), assigned page = true → ∃ t, exec (.errSummaryClear page mask) s = .next t ∧ sameBytes s t ∧
    (tst mask 4 = true → fld t page Reg.ERR_SUMMARY_FIRST_VALID = 0) ∧ (tst mask 3 = true → fld t page Reg.ERR_SUMMARY_OVERFLOW = 0) ∧
    (tst mask 4 = false → fld t page Reg.ERR_SUMMARY_FIRST_VALID = fld s page Reg.ERR_SUMMARY_FIRST_VALID) ∧
    fld t page Reg.ERR_SUMMARY_COUNT = fld s page Reg.ERR_SUMMARY_COUNT ∧
    sameFields [(page, Reg.ERR_SUMMARY_LOCKED_WRITE), (page, Reg.ERR_SUMMARY_BAD_ACCESS), (page, Reg.ERR_SUMMARY_OP_REFUSED),
      (page, Reg.ERR_SUMMARY_OVERFLOW), (page, Reg.ERR_SUMMARY_FIRST_VALID), (page, Reg.ERR_SUMMARY_SEEN)] s t) ∧
  (∀ (page : Nat) (s : State), assigned page = true → ∃ t, exec (.pageReset page) s = .next t ∧ sameBytes s t ∧
    irqWord t page = 0 ∧ fld t page Reg.ERR_SUMMARY_COUNT = 0 ∧ fld t page Reg.ERR_SUMMARY_FIRST_VALID = 0 ∧
    fld t page Reg.IRQ_ENABLE = fld s page Reg.IRQ_ENABLE ∧ fld t page Reg.PAGE_SCRATCH = fld s page Reg.PAGE_SCRATCH ∧
    bindState t page = bindState s page ∧ bindCtx t page = bindCtx s page ∧ t.ops = s.ops) ∧
  (∀ (n arg : Nat) (s : State), n < 64 → pageOp s (pageTile n) = some ⟨2, arg, true⟩ →
    ∃ t, exec (.opAbort (pageTile n)) s = .next t ∧ pageOp t (pageTile n) = none ∧ fld t (pageTile n) Reg.OP_CONTROL_RESULT = 5 ∧
      fld t (pageTile n) Reg.IRQ_STATUS_OP_DONE = 1 ∧ sameBytes s t ∧ sameFields (opPlaces (pageTile n)) s t) ∧
  (∀ (n arg : Nat) (s : State), n < 64 → pageOp s (pageTile n) = some ⟨2, arg, true⟩ → bindState s (pageTile n) = 0 →
    ∃ t, exec (.queuedOpStart (pageTile n)) s = .next t ∧ bindState t (pageTile n) = 4 ∧
      fld t (pageTile n) Reg.OP_CONTROL_RESULT = 2 ∧ sameBytes s t) ∧
  (∀ (r : ErrRec) (rest : List ErrRec) (s : State), s.errs.flight = r :: rest → r.ctx = 0 →
    fld s 0x004 Reg.ERRLOG_CFG_ENABLE = 0 → ∃ t, exec .errRecord s = .next t ∧ t.errs.flight = rest ∧ sameBytes s t ∧
      fld t 0x004 Reg.ERRLOG_STATUS_DROPPED = min (fld s 0x004 Reg.ERRLOG_STATUS_DROPPED + 1) (2 ^ Reg.ERRLOG_STATUS_DROPPED.width - 1) ∧
      sameFields [(0x004, Reg.ERRLOG_STATUS_DROPPED)] s t) ∧
  (∀ (p : Nat) (rest : List Nat) (s : State), s.errs.irqs = p :: rest → tst (cfgDw s 0 0xB0) 31 = true →
    tst (cfgDw s 0 0xB0) 30 = false → (Tab.get {} s.msix (msixKey 0 p)).masked = false →
    ∃ t, exec .irqRaise s = .next t ∧ t.errs.irqs = rest ∧ t.out = .msix 0 p :: s.out ∧ t.regs = s.regs ∧ sameBytes s t) ∧
  (∀ (h : Header) (s : State), ∃ t, exec (.mgmtMsg h) s = .next t ∧ t.regs = s.regs ∧ sameBytes s t ∧
    ∃ bs : List Byte, bs.length = 32 ∧ t.out = .response { reply h 0 0 with inlineData := bs, opData := 0 } 0 [] :: s.out) ∧
  (∀ (h : Header) (us : List Unit256) (s : State), h.noResp = false → ∃ t, exec (.mgmtBulk h us) s = .next t ∧
    t.out = .response (reply h 0 0) 0 [] :: s.out ∧ t.regs = s.regs ∧ sameBytes s t) ∧
  (∀ (occ : List Nat) (s : State), ∃ t, exec (.queueReport 0x00E occ) s = .next t ∧ sameBytes s t ∧ t.out = s.out ∧
    ∀ i, i < 32 → i < occ.length →
      Tab.get [] t.regul.qHist (queueKey 0x00E i) = (min (occ.getD i 0) 64 :: Tab.get [] s.regul.qHist (queueKey 0x00E i)).take 4)

/-- R86 to R92, R97: what one slot, one load, one row and one window do to a tile's array. -/
def Obligations.TileRowsAndBanks : Prop :=
  (∀ (n : Nat) (rows scales : List (List Nat)) (a : ArrayPass) (s : State), n < 64 → arrayWorks s n = true →
    (tile s n).lead = some a → a.kBlock ≠ a.kBlocks → (tile s n).bank.holds a = false →
    ∃ t, exec (.stationaryLoad n rows scales) s = .next t ∧
      (tile t n).bank = { passId := a.passId, col0 := a.col0, kBlock := a.kBlock, rows := rows, scales := scales, valid := true } ∧
      (tile t n).feederSlot = (tile s n).feederSlot + 128 ∧ (tile t n).lead = some a ∧ (tile t n).acc = (tile s n).acc) ∧
  (∀ (n : Nat) (codes scales : List Nat) (a : ArrayPass) (s : State), n < 64 → arrayWorks s n = true →
    (tile s n).lead = some a → a.kBlock ≠ a.kBlocks → (tile s n).bank.valid = true → (tile s n).bank.passId = a.passId →
    (tile s n).bank.kBlock = a.kBlock → (tile s n).bank.col0 = a.col0 → issues (tile s n).feederSlot (tile s n).feederDuty = true → tagBusy (tile s n) a = false →
    a.mRow + 1 < a.rows →
    ∃ t, exec (.feederIssue n true codes scales) s = .next t ∧ (tile t n).lead = some { a with mRow := a.mRow + 1 } ∧
      (tile t n).feederSlot = (tile s n).feederSlot + 1 ∧ ∃ f : InFlight, (tile t n).flight = (tile s n).flight ++ [f] ∧
        f.passId = a.passId ∧ f.tag = a.mRow ∧ f.first = (a.kBlock == 0) ∧ f.last = (a.kBlock + 1 == a.kBlocks)) ∧
  (∀ (n : Nat) (codes scales : List Nat) (a : ArrayPass) (s : State), n < 64 → arrayWorks s n = true →
    (tile s n).lead = some a → a.kBlock ≠ a.kBlocks → (tile s n).bank.valid = true → (tile s n).bank.passId = a.passId →
    (tile s n).bank.kBlock = a.kBlock → (tile s n).bank.col0 = a.col0 → issues (tile s n).feederSlot (tile s n).feederDuty = true →
    exec (.feederIssue n false codes scales) s = .next (count (pageTile n) Reg.BUBBLES_FEEDER 1 (modTile n feederTick s))) ∧
  (∀ (n : Nat) (f : InFlight) (fs : List InFlight) (s : State), n < 64 → (tile s n).flight = f :: fs →
    ∃ t, exec (.accumulatorWrite n) s = .next t ∧ (tile t n).flight = fs ∧ t.regs = s.regs ∧
      (Tab.get {} (tile t n).acc f.tag).passId = f.passId ∧ (Tab.get {} (tile t n).acc f.tag).final = f.last ∧
      (Tab.get {} (tile t n).acc f.tag).unread = true ∧ (Tab.get {} (tile t n).acc f.tag).cells.length = f.wides.length) ∧
  (∀ (n : Nat) (a : ArrayPass) (p : Pass) (s : State), n < 64 → arrayWorks s n = true → (tile s n).trail = some a → a.epiRow + 1 < a.rows →
    (Tab.get {} (tile s n).acc a.epiRow).passId = a.passId →
    (Tab.get {} (tile s n).acc a.epiRow).piece = a.piece → (Tab.get {} (tile s n).acc a.epiRow).final = true →
    issues (tile s n).vectorSlot (tile s n).vectorDuty = true → pass s a.passId = some p → p.opclass ≠ 1 →
    ∃ t, exec (.epilogueRow n) s = .next t ∧ (tile t n).trail = some { a with epiRow := a.epiRow + 1 } ∧
      (Tab.get {} (tile t n).acc a.epiRow).unread = false ∧ (tile t n).vectorSlot = (tile s n).vectorSlot + 1) ∧
  (∀ (n : Nat) (s : State), n < 64 → exec (.throttleWindow n true) s = .next (modTile n (fun t =>
      { t with vectorSlot := (t.vectorSlot / 64 + 1) * 64, vectorDuty := t.nextDuty }) s)) ∧
  (∀ (n : Nat) (s : State), n < 64 → ∃ t, exec (.throttleWindow n false) s = .next t ∧
      (tile t n).feederSlot = ((tile s n).feederSlot / 64 + 1) * 64 ∧ (tile t n).feederDuty = (tile s n).nextDuty ∧
      fld t (pageTile n) Reg.THROTTLE_DUTY = (tile s n).nextDuty % 2 ^ Reg.THROTTLE_DUTY.width ∧
      sameFields [(pageTile n, Reg.THROTTLE_DUTY)] s t)

/-- R98 to R105: a tile's array from the pre-emption to the freeze and back, a fault, its ash and the self-test. -/
def Obligations.TilePreemptionAndFaults : Prop :=
  (∀ (n : Nat) (s : State), n < 64 → arrayWorks s n = true → ∃ t, exec (.preemptRequest n) s = .next t ∧ arrayState t n = 4 ∧
    (tile t n).draining = true ∧ sameFields [(pageTile n, Reg.ARRAY_STATE_STATE)] s t) ∧
  (∀ (n : Nat) (s : State), n < 64 → (tile s n).draining = true → ∃ t, exec (.arrayDrainDone n) s = .next t ∧
    (tile t n).flight = [] ∧ (tile t n).parkValid = true ∧ (tile t n).lead = (tile s n).lead ∧ (tile t n).trail = (tile s n).trail ∧
    t.regs = s.regs) ∧
  (∀ (n : Nat) (a : ArrayPass) (s : State), n < 64 → (tile s n).draining = true → (tile s n).lead = some a →
    ∃ t, exec (.arrayFrozen n) s = .next t ∧ arrayState t n = 5 ∧ (tile t n).draining = false ∧
      fld t (pageTile n) Reg.LEAD_POSITION_VALID = 1 ∧
      fld t (pageTile n) Reg.LEAD_POSITION_M_ROW = a.mRow % 2 ^ Reg.LEAD_POSITION_M_ROW.width ∧
      fld t (pageTile n) Reg.LEAD_POSITION_K_BLOCK = a.kBlock % 2 ^ Reg.LEAD_POSITION_K_BLOCK.width) ∧
  (∀ (n : Nat) (s : State), n < 64 → bindState s (pageTile n) = 1 → ctxState s (bindCtx s (pageTile n)) = 2 → arrayState s n = 5 →
    ∃ t, exec (.arrayResume n none) s = .next t ∧ fld t (pageTile n) Reg.LEAD_POSITION_VALID = 0 ∧ (tile t n).parkValid = false ∧
      (tile t n).bank.valid = false ∧
      arrayState t n = if (tile s n).lead.isNone && (tile s n).trail.isNone then 1 else 3) ∧
  (∀ (n slot : Nat) (i : ParkImg) (s : State), n < 64 → bindState s (pageTile n) = 1 → ctxState s (bindCtx s (pageTile n)) = 2 →
    (ctx s (bindCtx s (pageTile n))).parks.find? (fun i => i.slot == slot) = some i → i.valid = true → arrayState s n ≤ 1 →
    (tile s n).lead = none → (tile s n).trail = none → i.tile.width ≤ tileColumns s n →
    ∃ t, exec (.arrayResume n (some slot)) s = .next t ∧ (tile t n).lead = i.tile.lead ∧ (tile t n).trail = i.tile.trail ∧
      (tile t n).acc = i.tile.acc) ∧
  (∀ (n check row col accRow word : Nat) (s : State), n < 64 → check < 4 → arrayState s n ≠ 0 → arrayState s n ≠ 6 →
    tileCoppice s n = none → ∃ t, exec (.arrayFault n check row col accRow word) s = .next t ∧
      bindState t (pageTile n) = 5 ∧ arrayState t n = 6 ∧ (tile t n).lead = none ∧ (tile t n).flight = []) ∧
  (∀ (n : Nat) (s : State), n < 64 → bindState s (pageTile n) = 5 → (tile s n).returnedAt = 0 →
    ∃ t, exec (.tileFaultAsh n) s = .next t ∧ bindState t (pageTile n) = 4 ∧ arrayState t n = 7 ∧ (tile t n).testFromFault = true) ∧
  (∀ (n : Nat) (s : State), n < 64 → bindState s (pageTile n) = 5 → (tile s n).returnedAt ≠ 0 →
    s.time.sec + 1 ≤ (tile s n).returnedAt + 3600 →
    ∃ t, exec (.tileFaultAsh n) s = .next t ∧ bindState t (pageTile n) = 6 ∧ fld t (pageTile n) Reg.TILE_CAP_ARRAY_PRESENT = 0) ∧
  (∀ (n accRow word : Nat) (accumulator : Bool) (s : State), n < 64 → fld s (pageTile n) Reg.PAGE_CTRL_COUNTER_FREEZE = 0 →
    ∃ t, exec (.sramCorrected n accumulator accRow word) s = .next t ∧ tst (fld t (pageTile n) Reg.IRQ_STATUS_BLOCK) 2 = true ∧
      fld t (pageTile n) Reg.CHECK_COUNTS_SRAM_CORRECTED = min (fld s (pageTile n) Reg.CHECK_COUNTS_SRAM_CORRECTED + 1)
        (2 ^ Reg.CHECK_COUNTS_SRAM_CORRECTED.width - 1) ∧
      sameFields ((pageTile n, Reg.CHECK_COUNTS_SRAM_CORRECTED) :: errPlaces (pageTile n)) s t) ∧
  (∀ (n : Nat) (force : Bool) (s : State), n < 64 → pageOp s (pageTile n) = none → bindState s (pageTile n) = 0 →
    ∃ t, exec (.tileSelfTest n force) s = .next t ∧ bindState t (pageTile n) = 4 ∧ arrayState t n = 7 ∧
      fld t (pageTile n) Reg.OP_CONTROL_RESULT = 2) ∧
  (∀ (n : Nat) (s : State), n < 64 → pageOp s (pageTile n) = none → bindState s (pageTile n) = 1 →
    exec (.tileSelfTest n false) s = .next (opQueue (pageTile n) 2 0 s)) ∧
  (∀ (n : Nat) (force : Bool) (s : State), n < 64 → bindState s (pageTile n) = 6 →
    exec (.tileSelfTest n force) s = .next (opRefused (pageTile n) s)) ∧
  (∀ (n : Nat) (passed : Bool) (s : State), n < 64 → bindState s (pageTile n) = 4 →
    ∃ t, exec (.selfTestEnd n passed) s = .next t ∧ bindState t (pageTile n) = (if passed then 0 else 6) ∧
      arrayState t n = (if passed then 1 else 0) ∧ fld t (pageTile n) Reg.OP_CONTROL_RESULT = (if passed then 3 else 4) ∧
      fld t (pageTile n) Reg.PROGRESS_PERCENT = 100 ∧ pageOp t (pageTile n) = none)

/-- R71, R130 to R132, R135, R136, R138, R140, R141: on a context's page open to the function. -/
def Obligations.DraughtTagsRingsAndFences : Prop :=
  (∀ (fn k : Nat) (s : State), pageOpen s fn k = true → exec (.draughtFreeze fn k) s =
    .next (setTag k (selectedTag s k) { tag s k (selectedTag s k) with frozen := true } s)) ∧
  (∀ (fn k : Nat) (s : State), pageOpen s fn k = true → exec (.draughtUnfreeze fn k) s =
    .next (setTag k (selectedTag s k) { tag s k (selectedTag s k) with frozen := false, overridden := false } s)) ∧
  (∀ (fn k v : Nat) (s : State), pageOpen s fn k = true → ∃ t, exec (.draughtOverride fn k v) s = .next t ∧
    tag t k (selectedTag s k) = { tag s k (selectedTag s k) with
      nextBias := limitBias s k (sext 8 (v % 256)), overridden := true, frozen := true } ∧
    -126 ≤ (tag t k (selectedTag s k)).nextBias ∧ (tag t k (selectedTag s k)).nextBias ≤ biasMax s k ∧
    sameFields [(pageCtx k, Reg.DRAUGHT_STATS_CLAMPED)] s t) ∧
  (∀ (fn k : Nat) (s : State), pageOpen s fn k = true → ∃ t, exec (.draughtResetTag fn k) s = .next t ∧
    tag t k (selectedTag s k) = {} ∧ t.regs = s.regs ∧
    ∀ p ∈ t.passes, p.ctx = k → p.phase = .running → tst (p.words.headD 0) 19 = true →
      bits (p.words.headD 0) 31 20 = selectedTag s k → p.tagReset = true) ∧
  (∀ (k v : Nat) (s : State), 0 < k → k < 64 → isSealed s k = true → ∃ t, exec (.draughtOverride 0 k v) s = .next t ∧
    t.tags = s.tags ∧ fld t (pageCtx k) Reg.SEALED_DENIED_LAST = 0x8018 % 2 ^ Reg.SEALED_DENIED_LAST.width ∧
    sameFields [(pageCtx k, Reg.SEALED_DENIED_COUNT), (pageCtx k, Reg.SEALED_DENIED_LAST)] s t) ∧
  (∀ (fn k r v : Nat) (s : State), pageOpen s fn k = true → r < 16 → v < 65536 → ringOn s k r = true → v < 2 ^ ringLog2 s k r →
    exec (.ringDoorbell fn k r v) s = .next (setFld (pageWin k 0) (Reg.RING_STATUS_TAIL.at 32 r) v s)) ∧
  (∀ (fn k r v : Nat) (s : State), pageOpen s fn k = true → r < 16 → v < 65536 → (ringOn s k r = false ∨ 2 ^ ringLog2 s k r ≤ v) →
    exec (.ringDoorbell fn k r v) s = .next (setFld (pageWin k 0) (Reg.RING_STATUS_BAD_DOORBELL.at 32 r) 1 s)) ∧
  (∀ (fn k h : Nat) (s : State), pageOpen s fn k = true → h < 65536 → flag s (pageWin k 0) Reg.CQ_CFG_ENABLE = true →
    headOk (fld s (pageWin k 0) Reg.CQ_CFG_LOG2_SIZE) (fld s (pageWin k 0) Reg.CQ_STATUS_TAIL) (fld s (pageWin k 0) Reg.CQ_STATUS_HEAD) h = true →
    ∃ t, exec (.cqDoorbell fn k h) s = .next t ∧ fld t (pageWin k 0) Reg.CQ_STATUS_HEAD = h ∧
      sameFields [(pageWin k 0, Reg.CQ_STATUS_HEAD), (pageWin k 0, Reg.CQ_STATUS_FULL)] s t) ∧
  (∀ (fn k r l : Nat) (s : State), pageOpen s fn k = true → r < 16 → 6 ≤ l → l ≤ 16 → ringOn s k r = false →
    flag s (pageWin k 0) Reg.CQ_CFG_ENABLE = true → ringOutstanding s k r = 0 → ∃ t, exec (.ringEnable fn k r l) s = .next t ∧
      ringOn t k r = true ∧ ringLog2 t k r = l ∧ ringHead t k r = 0 ∧ ringTail t k r = 0 ∧
      sameFields [(pageWin k 0, Reg.RING_CFG_LOG2_SIZE.at 32 r), (pageWin k 0, Reg.RING_CFG_ENABLE.at 32 r),
        (pageWin k 0, Reg.RING_STATUS_HEAD.at 32 r), (pageWin k 0, Reg.RING_STATUS_TAIL.at 32 r)] s t) ∧
  (∀ (fn k r : Nat) (s : State), pageOpen s fn k = true → r < 16 →
    exec (.ringDisable fn k r) s = .next (setFld (pageWin k 0) (Reg.RING_CFG_ENABLE.at 32 r) 0 s)) ∧
  (∀ (fn k r : Nat) (s : State), pageOpen s fn k = true → r < 16 → s.passes = [] →
    exec (.ringAbort fn k r) s = .next (setFld (pageWin k 0) (Reg.RING_STATUS_HEAD.at 32 r) (ringTail s k r) s)) ∧
  (∀ (fn k r v : Nat) (s : State), pageOpen s fn k = true → r < 16 → ringOn s k r = false →
    exec (.ringConfigWrite fn k r true v) s = .next (setFld (pageWin k 0) (Reg.RING_BASE_ADDR.at 32 r) v s)) ∧
  (∀ (fn k r v : Nat) (s : State), pageOpen s fn k = true → r < 16 → ringOn s k r = true → ringLog2 s k r ≠ v → v < 32 →
    exec (.ringConfigWrite fn k r false v) s = .next (setFld (pageWin k 0) (Reg.RING_STATUS_CONFIG_REFUSED.at 32 r) 1 s)) ∧
  (∀ (fn k l : Nat) (irqEn : Bool) (s : State), pageOpen s fn k = true → 6 ≤ l → l ≤ 16 →
    flag s (pageWin k 0) Reg.CQ_CFG_ENABLE = false → ∃ t, exec (.cqEnable fn k l irqEn) s = .next t ∧
      fld t (pageWin k 0) Reg.CQ_CFG_ENABLE = 1 ∧ fld t (pageWin k 0) Reg.CQ_CFG_LOG2_SIZE = l ∧
      fld t (pageWin k 0) Reg.CQ_CFG_IRQ_EN = b2n irqEn ∧ fld t (pageWin k 0) Reg.CQ_STATUS_TAIL = 0 ∧
      fld t (pageWin k 0) Reg.CQ_STATUS_HEAD = 0 ∧ fld t (pageWin k 0) Reg.CQ_STATUS_PHASE = 1) ∧
  (∀ (fn k : Nat) (s : State), pageOpen s fn k = true → (∀ r, r < 16 → ringOn s k r = false) →
    fld s (pageWin k 0) Reg.CQ_STATUS_RESERVED = 0 → ∃ t, exec (.cqDisable fn k) s = .next t ∧
      fld t (pageWin k 0) Reg.CQ_CFG_ENABLE = 0 ∧ sameFields [(pageWin k 0, Reg.CQ_CFG_ENABLE), (pageWin k 0, Reg.CQ_STATUS_FULL)] s t) ∧
  (∀ (fn k i v : Nat) (err : Bool) (s : State), pageOpen s fn k = true → i < 64 → ∃ t, exec (.fenceValue fn k i v err) s = .next t ∧
    fence t k i = v % 2 ^ 48 ∧ fenceError t k i = err ∧
    sameFields [(pageWin k 0, Reg.FENCE_VALUE_VALUE.at 8 i), (pageWin k 0, Reg.FENCE_VALUE_ERROR.at 8 i)] s t) ∧
  (∀ (fn k i v : Nat) (s : State), pageOpen s fn k = true → i < 64 → ∃ t, exec (.fenceAdd fn k i v) s = .next t ∧
    fence t k i = (fence s k i + v) % 2 ^ 48 ∧ sameFields [(pageWin k 0, Reg.FENCE_VALUE_VALUE.at 8 i)] s t)

/-- R137, R142, R145, R157, R492: the dispatcher's steps. -/
def Obligations.DispatchOfPasses : Prop :=
  (∀ (k r : Nat) (b : List Byte) (s : State), k < 64 → ctxState s k = 2 → s.errs.dispatchStopped = false →
    flag s (pageWin k 0) Reg.CQ_CFG_ENABLE = true → cqFree s k ≠ 0 → (ctx s k).refetch = [] →
    ((List.range 16).map (fun i => ((ctx s k).lastRing + 1 + i) % 16)).find? (ringReady s k) = some r →
    vread s 80 k (fld s (pageWin k 0) (Reg.RING_BASE_ADDR.at 32 r) * 4096 + 128 * ringHead s k r) 128 = .ok b →
    ∃ t, exec (.descriptorFetch k) s = .next t ∧ t.nextPass = s.nextPass + 1 ∧ (ctx t k).lastRing = r ∧
      ringHead t k r = (ringHead s k r + 1) % 2 ^ ringLog2 s k r % 2 ^ 16 ∧
      t.passes = s.passes ++ [{ ctx := k, id := s.nextPass, ring := r, index := ringHead s k r, words := (List.range 16).map (word64 b) }]) ∧
  (∀ (id : Nat) (p : Pass) (tds : List (Option (List Nat))) (s : State), pass s id = some p → p.phase = .waiting → ctxState s p.ctx = 2 →
    passStalled s p = false → (∀ w ∈ passWaits p, waitMet (fence s p.ctx w.1) w.2 = true ∧ fenceError s p.ctx w.1 = false) →
    readTds s p = .ok tds →
    checkPass (((List.range 6).filter p.present).foldl (fun s i => accessed 80 p.ctx (bits (p.word (8 + i)) 54 6 * 64) 64 false s) s)
      { p with tds := tds, phase := .ready } = none →
    ∃ t, exec (.fenceWaitSatisfied id) s = .next t ∧
      t.passes = s.passes.filter (fun x => x.id != p.id) ++ [{ p with tds := tds, phase := .ready }]) ∧
  (∀ (k x n : Nat) (p : Pass) (q : Piece) (s : State), mayDispatch s k = true → executorBound s k x = true →
    (s.passes.filter (fun p => p.ctx == k)).any (fun p => (reissuePiece s p x).isSome) = false →
    (s.passes.filter (fun p => p.ctx == k)).findSome? (fun p => nextPiece s p x) = some (p, q, n) →
    ∃ t, exec (.pieceDispatch k x) s = .next t ∧
      ∃ r, pass t p.id = some r ∧ r.phase = .running ∧ r.pieces = p.pieces ++ [q] ∧ r.placed = p.placed + n ∧ r.total = passTotal p) ∧
  (∀ (k x : Nat) (p : Pass) (q : Piece) (s : State), mayDispatch s k = true → executorBound s k x = true →
    (s.passes.filter (fun p => p.ctx == k)).findSome? (fun p => reissuePiece s p x) = some (p, q) →
    ∃ t, exec (.pieceReissue k x) s = .next t ∧ q.exec = x ∧ q.state = .running ∧
      ∃ r, pass t p.id = some r ∧ r.pieces = p.pieces.map (fun y => if y.id = q.id then q else y)) ∧
  (∀ (id : Nat) (p : Pass) (s u : State), pass s id = some p → passStalled s p = false → p.phase = .ended → ctxState s p.ctx ≠ 5 →
    vwrite 80 p.ctx (fld s (pageWin p.ctx 0) Reg.CQ_BASE_ADDR * 4096 + 32 * fld s (pageWin p.ctx 0) Reg.CQ_STATUS_TAIL)
      (recordBytes p (flag s (pageWin p.ctx 0) Reg.CQ_STATUS_PHASE)) s = .ok u →
    ∃ t, exec (.passComplete id) s = .next t ∧ t.passes = s.passes.filter (fun q => q.id != p.id) ∧
      fld t (pageWin p.ctx 0) Reg.CQ_STATUS_TAIL =
        (fld s (pageWin p.ctx 0) Reg.CQ_STATUS_TAIL + 1) % 2 ^ fld s (pageWin p.ctx 0) Reg.CQ_CFG_LOG2_SIZE % 2 ^ 16)

/-- R166 to R189: each of the classes that tiles run. -/
def Obligations.ClassesOfTiles : Prop :=
  ∀ id : Nat, classWorks 0x01 matmul id (.matmul id) ∧ classWorks 0x02 attend id (.attend id) ∧
    classWorks 0x03 vector id (.vector id) ∧ classWorks 0x04 reduce id (.reduce id) ∧ classWorks 0x05 gatherClass id (.gather id) ∧
    classWorks 0x06 scatter id (.scatter id) ∧ classWorks 0x07 histo id (.histo id) ∧ classWorks 0x08 trees id (.trees id) ∧
    classWorks 0x09 convertClass id (.convert id) ∧ classWorks 0x0A copyClass id (.copy id) ∧ classWorks 0x0B layout id (.layout id)

/-- R190 to R195: the classes that the Plarus, kiln and ember engines and the dispatcher itself run. -/
def Obligations.ClassesOfEngines : Prop :=
  (∀ (id : Nat) (p : Pass) (g : Group) (x : Tensor) (s : State), pass s id = some p → p.opclass = 0x0C → p.phase = .ready →
    p.computed = false → ctxState s p.ctx = 2 → s.errs.dispatchStopped = false → passStalled s p = false →
    groupOf s p = some g → readSlot s p 0 = .ok x →
    ∃ t, exec (.collective id) s = .next t ∧ ∃ r, pass t id = some r ∧ r.phase = .running ∧ r.pieces = p.pieces ∧ r.total = 0) ∧
  (∀ (id i : Nat) (p : Pass) (s : State), pass s id = some p → p.opclass = 0x0D → p.phase = .ready →
    p.computed = false → ctxState s p.ctx = 2 → s.errs.dispatchStopped = false → passStalled s p = false →
    roundOfHandle s (p.param 31 0) = some i → (kround s i).st = 1 →
    ∃ t, exec (.kilnPut id) s = .next t ∧ kilnQueue t (i / 32) = kilnQueue s (i / 32) ++ [{ slot := i, pass := some id }] ∧
      ∃ r, pass t id = some r ∧ r.phase = .running) ∧
  (∀ (id i : Nat) (p : Pass) (s : State), pass s id = some p → p.opclass = 0x0D → p.phase = .ready →
    p.computed = false → ctxState s p.ctx = 2 → s.errs.dispatchStopped = false → passStalled s p = false →
    roundOfHandle s (p.param 31 0) = some i → (kround s i).st ≠ 1 →
    exec (.kilnPut id) s = .next (failPasses 0 [p.id] s)) ∧
  (∀ (id i : Nat) (p : Pass) (s : State), pass s id = some p → p.opclass = 0x0E → p.phase = .ready →
    p.computed = false → ctxState s p.ctx = 2 → s.errs.dispatchStopped = false → passStalled s p = false →
    roundOfHandle s (p.param 31 0) = some i → (kround s i).st ≠ 4 →
    exec (.kilnTake id) s = .next (failPasses 0 [p.id] s)) ∧
  (∀ (id i : Nat) (p q : Pass) (s u : State), pass s id = some p → p.opclass = 0x0E → p.phase = .ready →
    p.computed = false → ctxState s p.ctx = 2 → s.errs.dispatchStopped = false → passStalled s p = false →
    roundOfHandle s (p.param 31 0) = some i → (kround s i).st = 4 → badInSum s (kround s i) = none → startPass p s = q →
    writeUnits (82 + i / 32) p.ctx (classOut q 0 (tabulate q.out.rows (q.out.dim 0)
      (fun r' c => Num.ofF32 (sumCode s (kround s i) (r' * q.out.dim 0 + c)))) {}).1 s = .ok u →
    ∃ t, exec (.kilnTake id) s = .next t ∧ t.mem = u.mem ∧ t.cache = u.cache ∧ ∃ r, pass t id = some r ∧ r.computed = true) ∧
  (∀ (id : Nat) (p : Pass) (s u : State), pass s id = some p → p.opclass = 0x0F → p.phase = .ready →
    p.computed = false → ctxState s p.ctx = 2 → s.errs.dispatchStopped = false → passStalled s p = false →
    vwrite 80 p.ctx (fld s (pageWin p.ctx 0) Reg.CQ_BASE_ADDR * 4096 + 32 * fld s (pageWin p.ctx 0) Reg.CQ_STATUS_TAIL)
      (recordBytes p (flag s (pageWin p.ctx 0) Reg.CQ_STATUS_PHASE)) s = .ok u →
    ∃ t, exec (.fence id) s = .next t ∧ t.passes = s.passes.filter (fun q => q.id != p.id)) ∧
  (∀ (id : Nat) (p : Pass) (s : State), pass s id = some p → p.opclass = 0x10 → p.phase = .ready →
    p.computed = false → ctxState s p.ctx = 2 → s.errs.dispatchStopped = false → passStalled s p = false → p.ctx < 64 →
    (emberState s p.ctx = 1 ∨ emberState s p.ctx = 2) →
    s.passes.any (fun x => x.ctx == p.ctx && x.id != id && x.pieces.any (fun q => q.state == .running)) = false →
    ∃ t, exec (.emberPoint id) s = .next t ∧ emberState t p.ctx = 3 ∧ (ember t p.ctx).point = some id ∧
      ∃ r, pass t id = some r ∧ r.phase = .running) ∧
  (∀ (id : Nat) (p : Pass) (s : State), pass s id = some p → p.opclass = 0x10 → p.phase = .ready →
    p.computed = false → ctxState s p.ctx = 2 → s.errs.dispatchStopped = false → passStalled s p = false →
    emberState s p.ctx = 4 → exec (.emberPoint id) s = .next (failPasses 0 [p.id] s))

/-- A line is held in its own set and once only: every step keeps this of every set, so that a line found is the line. -/
def Obligations.CacheSetsStaySound : Prop :=
  ∀ s t : State, (∀ pa, setSound s pa) → step s = .next t → ∀ pa, setSound t pa

/-- R214, R218, R219, R248: what the five memory requests do at a home that can serve them at once, in the bytes the whole block
sees, and where a granule read waits for its fill. -/
def Obligations.HomeAccesses : Prop :=
  (∀ (h h' : Header) (s : State), h' = { h with opcode := 0x02 } → h.xlated = true → sectorReady s h.ctx h.addr → h.hint ≠ 3 →
    ∃ t, exec (.rdNarrow h) s = .next t ∧ sameBytes s t ∧
      .response { reply h' 0 0 with inlineData := bytesAt s (h.addr / 32 * 32) 32, opData := 0 } 0 [] ∈ t.out) ∧
  (∀ (h h' : Header) (s : State), h' = { h with opcode := 0x03 } → h.xlated = true → h.noResp = false → sectorReady s h.ctx h.addr →
    ∃ t, exec (.wrNarrow h) s = .next t ∧ .response (reply h' 0 0) 0 [] ∈ t.out ∧
      ∀ a, byteAt t a = if h.addr / 32 * 32 ≤ a ∧ a < h.addr / 32 * 32 + 32 ∧ tst (h.opData % 2 ^ 32) (a - h.addr / 32 * 32) = true
        then (slice h.inlineData 0 32).getD (a - h.addr / 32 * 32) 0 else byteAt s a) ∧
  (∀ (h h' : Header) (s : State), h' = { h with opcode := 0x04 } → h.xlated = true → h.noResp = false → sectorReady s h.ctx h.addr →
    h.opArg % 16 ≤ 2 → ∃ t, exec (.addNarrow h) s = .next t ∧ .response (reply h' 0 0) 0 [] ∈ t.out ∧
      ∀ a, byteAt t a = if h.addr / 32 * 32 ≤ a ∧ a < h.addr / 32 * 32 + 32
        then (addElems (h.opArg % 16) (bytesAt s (h.addr / 32 * 32) 32) (slice h.inlineData 0 32)).getD (a - h.addr / 32 * 32) 0
        else byteAt s a) ∧
  (∀ (h h' : Header) (base : Nat) (s : State), h' = { h with opcode := 0x00 } → base = h.addr / 256 * 256 → h.xlated = true →
    isHbm h.addr = true → h.noResp = false → h.hint ≠ 3 → s.coh.breaches = [] → setSound s base → setSound s (base + 128) →
    (∀ i, i < 2 → isTransient s (base + 128 * i) = false ∧ ∃ l, findLine s (base + 128 * i) = some l ∧ l.ctx = h.ctx ∧
      l.dir = 0 ∧ l.excl = false ∧ bits (h.opArg % 256) (4 * i + 3) (4 * i) &&& l.valid = bits (h.opArg % 256) (4 * i + 3) (4 * i)) →
    ∃ t, exec (.rd h) s = .next t ∧ sameBytes s t ∧ .response (reply h' 0 1) 0
      [{ bytes := (List.range 256).map (fun j => if tst (h.opArg % 256) (j / 32) then byteAt s (base + j) else 0) }] ∈ t.out) ∧
  (∀ (h h' : Header) (base w : Nat) (s u : State), h' = { h with opcode := 0x00 } → base = h.addr / 256 * 256 → h.xlated = true →
    isHbm h.addr = true → h.hint ≠ 1 → s.coh.breaches = [] → bits (h.opArg % 256) 3 0 ≠ 0 → isTransient s base = false →
    findLine s base = none → makeRoom base h.ctx s = .way w u →
    ∃ t, exec (.rd h) s = .next t ∧ (homeLine t base).state = .if_ ∧
      (homeLine t base).inHand = some (.read h' 0 (List.replicate 256 0))) ∧
  (∀ (h h' : Header) (us : List Unit256) (base : Nat) (s : State), h' = { h with opcode := 0x01 } → base = h.addr / 256 * 256 →
    h.xlated = true → isHbm h.addr = true → h.noResp = false → s.coh.breaches = [] → (us.headD {}).be = none →
    setSound s base → setSound s (base + 128) →
    (∀ i, i < 2 → isTransient s (base + 128 * i) = false ∧ ∃ l, findLine s (base + 128 * i) = some l ∧ l.ctx = h.ctx ∧
      l.dir = 0 ∧ l.excl = false ∧ l.data.length = 128) →
    ∃ t, exec (.wr h us) s = .next t ∧ .response (reply h' 0 0) 0 [] ∈ t.out ∧
      ∀ a, byteAt t a = if base ≤ a ∧ a < base + 256 then (slice (us.headD {}).bytes 0 256).getD (a - base) 0 else byteAt s a)

/-- R203, R209, R210, R218, R219, R222: the controllers' own service, in the bytes that memory holds. -/
def Obligations.ControllerAccesses : Prop :=
  (∀ (h h' : Header) (ch : Nat) (x : Nat × Nat) (s : State), h' = { h with opcode := 0x10 } → h.noResp = false →
    placeOf s h.addr = some (ch, x) → channelOpen s ch h.ctx = true → unreachable s (h.addr / 128 * 128) = false →
    allowed s h.ctx (h.addr / 128 * 128) = true → (maskSectors (h.addr / 128 * 128) (h.opArg % 16) 4).find? (isBad s) = none →
    ∃ t, exec (.fill h .clean) s = .next t ∧ t.mem = s.mem ∧ t.regs = s.regs ∧ t.out = .response (reply h' 0 1) 0
      [{ bytes := memSectors s (h.addr / 128 * 128) (h.opArg % 16) 4 ++ List.replicate 128 0 }] :: s.out) ∧
  (∀ (h : Header) (us : List Unit256) (ch : Nat) (x : Nat × Nat) (s : State),
    placeOf s h.addr = some (ch, x) → channelOpen s ch h.ctx = true → unreachable s (h.addr / 128 * 128) = false →
    allowed s h.ctx (h.addr / 128 * 128) = true →
    ∃ t, exec (.writeback h us) s = .next t ∧ t.regs = s.regs ∧ t.cache = s.cache ∧
      ∀ a, t.mem.read a = if h.addr / 128 * 128 ≤ a ∧ a < h.addr / 128 * 128 + 128 ∧
          tst (h.opArg % 16) ((a - h.addr / 128 * 128) / 32) = true
        then (slice (us.headD {}).bytes 0 128).getD (a - h.addr / 128 * 128) 0 else s.mem.read a) ∧
  (∀ (h h' : Header) (ch : Nat) (x : Nat × Nat) (s : State), h' = { h with opcode := 0x12 } →
    placeOf s h.addr = some (ch, x) → channelOpen s ch h.ctx = true → unreachable s (h.addr / 32 * 32) = false →
    allowed s h.ctx (h.addr / 32 * 32) = true → isBad s (h.addr / 32 * 32) = false →
    ∃ t, exec (.mcRd32 h .clean) s = .next t ∧ t.mem = s.mem ∧ t.regs = s.regs ∧
      t.out = .response { reply h' 0 0 with inlineData := memSectors s (h.addr / 32 * 32) 1 1, opData := 0 } 0 [] :: s.out) ∧
  (∀ (h : Header) (ch : Nat) (x : Nat × Nat) (s : State),
    placeOf s h.addr = some (ch, x) → channelOpen s ch h.ctx = true → unreachable s (h.addr / 32 * 32) = false →
    allowed s h.ctx (h.addr / 32 * 32) = true → isBad s (h.addr / 32 * 32) = false →
    ∃ t, exec (.mcWr32 h false .clean) s = .next t ∧ t.regs = s.regs ∧ t.cache = s.cache ∧
      ∀ a, t.mem.read a = if h.addr / 32 * 32 ≤ a ∧ a < h.addr / 32 * 32 + 32 ∧ tst (h.opData % 2 ^ 32) (a - h.addr / 32 * 32) = true
        then (slice h.inlineData 0 32).getD (a - h.addr / 32 * 32) 0 else s.mem.read a) ∧
  (∀ (h : Header) (ch : Nat) (x : Nat × Nat) (s : State),
    placeOf s h.addr = some (ch, x) → channelOpen s ch h.ctx = true → unreachable s (h.addr / 32 * 32) = false →
    allowed s h.ctx (h.addr / 32 * 32) = true → isBad s (h.addr / 32 * 32) = false → h.opArg % 16 ≤ 2 →
    ∃ t, exec (.mcWr32 h true .clean) s = .next t ∧ t.regs = s.regs ∧ t.cache = s.cache ∧
      ∀ a, t.mem.read a = if h.addr / 32 * 32 ≤ a ∧ a < h.addr / 32 * 32 + 32
        then (addElems (h.opArg % 16) (memSectors s (h.addr / 32 * 32) 1 1) (slice h.inlineData 0 32)).getD (a - h.addr / 32 * 32) 0
        else s.mem.read a) ∧
  (∀ (h : Header) (us : List Unit256) (ch : Nat) (x : Nat × Nat) (s : State),
    placeOf s h.addr = some (ch, x) → channelOpen s ch h.ctx = false →
    exec (.writeback h us) s = .next (setQueue ch (queueOf s ch ++ [({ h with opcode := 0x11 }, us)]) s)) ∧
  (∀ (pa ch : Nat) (x : Nat × Nat) (s : State), placeOf s pa = some (ch, x) →
    ∃ t, exec (.patrolScrub pa .uncorrectable) s = .next t ∧ isBad t pa = true ∧ (frame t (frameOf pa)).bad = true ∧
      tst (fld t (pageHbm (ch / 32)) Reg.IRQ_STATUS_BLOCK) 2 = true ∧ sameBytes s t) ∧
  (∀ (pa ch y : Nat) (x : Nat × Nat) (s : State), placeOf s pa = some (ch, x) → ch < 384 →
    fld s (pageHbm (ch / 32)) Reg.PAGE_CTRL_COUNTER_FREEZE = 0 →
    ∃ t, exec (.patrolScrub pa (.corrected y)) s = .next t ∧ t.mem = s.mem ∧ fld t (pageHbm (ch / 32)) Reg.ECC_COUNTS_CORRECTED =
      min (fld s (pageHbm (ch / 32)) Reg.ECC_COUNTS_CORRECTED + 1) (2 ^ Reg.ECC_COUNTS_CORRECTED.width - 1))

/-- R211, R220 to R223, R234, R479: what happens to a stack and its channels besides accesses. -/
def Obligations.HbmHealthAndRetraining : Prop :=
  (∀ (ch : Nat) (s : State), ch < 384 → (channel s ch).correctedSec = s.time.sec →
    fld s (pageHbm (ch / 32)) Reg.CE_POLICY_THRESHOLD ≤ (channel s ch).correctedNow →
    fld s (pageHbm (ch / 32)) Reg.CE_POLICY_AUTO_EVAC = 0 →
    exec (.ceThreshold ch) s = .next (raiseSrc (pageHbm (ch / 32)) 3 s)) ∧
  (∀ (ch : Nat) (s : State), ch < 384 → (channel s ch).correctedSec = s.time.sec →
    fld s (pageHbm (ch / 32)) Reg.CE_POLICY_THRESHOLD ≤ (channel s ch).correctedNow →
    fld s (pageHbm (ch / 32)) Reg.CE_POLICY_AUTO_EVAC ≠ 0 → (channel s ch).evacuated = false → (channel s ch).fenced = false →
    evacPending s ch = false → s.hbm.evac.isSome = true →
    ∃ t, exec (.ceThreshold ch) s = .next t ∧ t.hbm.waiting = s.hbm.waiting ++ [⟨ch, false⟩]) ∧
  (∀ (n : Nat) (r : Int) (s : State), n < 12 → r ≤ 1050 → ∃ t, exec (.hbmTempRead n (some r)) s = .next t ∧
    (stack t n).readings = (r :: (stack s n).readings).take 10 ∧ (stack t n).unread = 0 ∧ (stack t n).fenced = (stack s n).fenced ∧
    fld t (pageHbm n) Reg.THERMAL_TEMP = tc 8 (r / 10) ∧ sameFields [(pageHbm n, Reg.THERMAL_TEMP)] s t) ∧
  (∀ (n : Nat) (r : Int) (s : State), n < 12 → 1050 < r → (stack s n).fenced = false →
    ∃ t, exec (.hbmTempRead n (some r)) s = .next t ∧ (stack t n).fenced = true ∧ fld t (pageHbm n) Reg.THERMAL_FENCED = 1) ∧
  (∀ (n : Nat) (s : State), n < 12 → (stack s n).unread = 2 → (stack s n).fenced = false →
    ∃ t, exec (.hbmTempRead n none) s = .next t ∧ (stack t n).fenced = true ∧ fld t (pageHbm n) Reg.THERMAL_FENCED = 1) ∧
  (∀ (n : Nat) (r : Int) (rs : List Int) (s : State), n < 12 → (stack s n).readings = r :: rs →
    ∃ t, exec (.hbmThrottleDecision n) s = .next t ∧ fld t (pageHbm n) Reg.THERMAL_LEVEL =
      nextLevel (rs.foldl max r) (if rs.foldl max r ≤ 820 then (stack s n).coolRun + 1 else 0) (fld s (pageHbm n) Reg.THERMAL_LEVEL) % 8) ∧
  (∀ (n : Nat) (s : State), n < 12 → (stack s n).fenced = true → 1000 ≤ (stack s n).coolMs →
    tst (fld s 0x002 Reg.PLL_LOCK) (3 + n) = true → ∃ t, exec (.hbmStackReturn n) s = .next t ∧
      (stack t n).fenced = false ∧ fld t (pageHbm n) Reg.THERMAL_FENCED = 0 ∧
      fld t (pageHbm n) Reg.HBM_CAP_CHANNELS_PRESENT =
        (if fld s (pageHbm n) Reg.HBM_CAP_CHANNELS_PRESENT = 0 then 2 ^ 32 - 1 else fld s (pageHbm n) Reg.HBM_CAP_CHANNELS_PRESENT)) ∧
  (∀ (n i : Nat) (s : State), n < 12 → fld s (pageHbm n) Reg.CAL_CTRL_FREEZE = 0 → (stack s n).fenced = false →
    stackRetraining s n = false →
    ((List.range 32).map (fun j => ((stack s n).nextRetrain + j) % 32)).find? (fun j => retrainable s (32 * n + j)) = some i →
    ∃ t, exec (.periodicRetrain n) s = .next t ∧ (channel t (32 * n + i)).announced = true ∧
      (stack t n).nextRetrain = (i + 1) % 32) ∧
  (∀ (ch : Nat) (s : State), ch < 384 → (channel s ch).announced = true → (channel s ch).paused = false → retrainOp s ch = false →
    exec (.retrainPause ch) s = .next (setChannel ch { channel s ch with paused := true } s)) ∧
  (∀ (ch : Nat) (s : State), ch < 384 → (channel s ch).paused = true → ∃ t, exec (.retrainOverrun ch) s = .next t ∧
    (channel t ch).longRetrain = true) ∧
  (∀ (n rd wr : Nat) (s : State), n < 12 → ∃ t, exec (.calTrimOverride n rd wr) s = .next t ∧ t.regs = s.regs ∧
    channel t (32 * n + fld s (pageHbm n) Reg.CAL_SELECT_CHANNEL) =
      { channel s (32 * n + fld s (pageHbm n) Reg.CAL_SELECT_CHANNEL) with override := true, ovRead := rd % 256, ovWrite := wr % 256 }) ∧
  (∀ (n ch : Nat) (s : State), n < 12 → ch / 32 = n → serves s ch = true → pageOp s (pageHbm n) = none → stackRetraining s n = false →
    ∃ t, exec (.immediateRetrain n ch) s = .next t ∧ (channel t ch).announced = true ∧ fld t (pageHbm n) Reg.OP_CONTROL_RESULT = 1) ∧
  (∀ (n ch failed : Nat) (s : State), n < 12 → ch / 32 = n → serves s ch = true → pageOp s (pageHbm n) = none →
    stackRetraining s n = false → ∃ t, exec (.hbmLaneCheck n ch failed) s = .next t ∧ pageOp t (pageHbm n) = none ∧
      fld t (pageHbm n) Reg.OP_CONTROL_RESULT = (if failed ≤ (channel s ch).spareLanes then 3 else 4) ∧
      (channel t ch).spareLanes = (channel s ch).spareLanes - failed)

/-- R217, R224 to R228, R231, R232, R236, R270: what moves data between places, and the ways a context may use. -/
def Obligations.EvacuationPlacementAndWays : Prop :=
  (∀ (n ch : Nat) (s : State), n < 12 → ch / 32 = n → (channel s ch).evacuated = false → evacPending s ch = false →
    pageOp s (pageHbm n) = none → s.hbm.evac.isSome = true → ∃ t, exec (.channelEvacuation n ch) s = .next t ∧
      t.hbm.waiting = s.hbm.waiting ++ [⟨ch, true⟩] ∧ fld t (pageHbm n) Reg.OP_CONTROL_RESULT = 1 ∧ sameFields (opPlaces (pageHbm n)) s t) ∧
  (∀ (n ch : Nat) (ts : List (Nat × Nat)) (s : State), n < 12 → ch / 32 = n → (channel s ch).evacuated = false →
    pageOp s (pageHbm n) = none → s.hbm.evac = none → s.hbm.waiting = [] → remapOf s ch = some ts →
    ∃ t, exec (.channelEvacuation n ch) s = .next t ∧ fld t (pageHbm n) Reg.OP_CONTROL_RESULT = 2 ∧
      ∃ e, t.hbm.evac = some e ∧ e.channel = ch ∧ e.owner = true ∧ e.doneBits = [] ∧ e.targets = ts.map (fun t => t.1)) ∧
  (∀ (r : EvacReq) (rest : List EvacReq) (s : State), s.hbm.evac = none → s.hbm.waiting = r :: rest →
    (channel s r.channel).evacuated = false → ∃ t, exec .evacuationDequeue s = .next t ∧ t.hbm.waiting = rest ∧
      ((∃ e, t.hbm.evac = some e ∧ e.channel = r.channel) ∨ (channel t r.channel).fenced = true)) ∧
  (∀ (b : Nat) (e : EvacRun) (s : State), s.hbm.evac = some e → e.paused = false → b < e.blocks → e.doneBits.contains b = false →
    ∃ t, exec (.evacBlockCopied b none) s = .next t ∧ t.hbm.evac = some { e with doneBits := b :: e.doneBits } ∧ sameBytes s t ∧
      sameFields [(pageHbm (e.channel / 32), Reg.PROGRESS_PERCENT), (pageHbm (e.channel / 32), Reg.PROGRESS_POSITION)] s t) ∧
  (∀ (b x : Nat) (e : EvacRun) (s : State), s.hbm.evac = some e → e.targets.contains x = true →
    ∃ t, exec (.evacBlockCopied b (some x)) s = .next t ∧ t.hbm.evac = none ∧ (channel t x).fenced = true ∧
      (channel t e.channel).fenced = true) ∧
  (∀ (e : EvacRun) (s : State), s.hbm.evac = some e → e.blocks ≤ e.doneBits.length →
    ∃ t, exec .evacSwitch s = .next t ∧ t.hbm.evac = none ∧ t.hbm.remaps = s.hbm.remaps ++ [(e.channel, e.targets)] ∧
      (channel t e.channel).evacuated = true) ∧
  (∀ (k : Nat) (s : State), k < 64 → fld s (pageCtx k) Reg.PLACE_CTRL_ENABLE = 1 → fld s (pageCtx k) Reg.PLACE_CTRL_FREEZE = 0 →
    ctxState s k = 2 → fld s (pageCtx k) Reg.PLACE_COUNT_ADDR ≠ 0 → ∃ t, exec (.placementInterval k) s = .next t ∧ t.regs = s.regs ∧
      ∃ ms, t.xlate.migrations = s.xlate.migrations ++ ms ∧ ms.length ≤ 2 * fld s (pageCtx k) Reg.PLACE_CTRL_MIGRATE_MAX ∧
        ∀ m ∈ ms, m.ctx = k ∧ m.withdrawn = false) ∧
  (∀ (k : Nat) (m : Migration) (s : State), firstMigration s k = some m → m.withdrawn = false → (frame s m.frameA).state ≠ .gone →
    (frame s m.frameB).state ≠ .gone → badIn s m.frameA = none → ∃ t, exec (.migrationCopyDone k) s = .next t ∧
      t.xlate.placementEpoch = s.xlate.placementEpoch + 1 ∧ t.xlate.heldRanges = s.xlate.heldRanges ++ [(k, m.region * 32, 32)] ∧
      firstMigration t k = some { m with withdrawn := true, epoch := s.xlate.placementEpoch + 1 }) ∧
  (∀ (k : Nat) (m : Migration) (i : Inval) (s : State), firstMigration s k = some m → m.withdrawn = true →
    s.xlate.invals.find? (fun i => i.ctx == k && i.placement && i.epoch == m.epoch) = some i → i.waiting = [] →
    (frame s m.frameA).state ≠ .gone → (frame s m.frameB).state ≠ .gone → badIn s m.frameA = none → s.xlate.heldReqs = [] → s.xlate.heldGuest = [] →
    ∃ t, exec (.migrationInstall k) s = .next t ∧ (∀ n ∈ t.xlate.migrations, n ≠ m) ∧ (∀ j ∈ t.xlate.invals, j ≠ i) ∧
      fld t (pageCtx k) Reg.PLACE_LAST_REGION = m.region % 2 ^ 34 ∧ fld t (pageCtx k) Reg.PLACE_LAST_KIND = (if m.promote then 1 else 2)) ∧
  (∀ (k r : Nat) (s : State), pageOpen s 0 k = true → r < 2 ^ 34 → ∃ t, exec (.placeHoldHbm k r) s = .next t ∧
    (k, r, 1) ∈ t.xlate.placeHolds ∧ (∀ x, (k, r, x) ∈ t.xlate.placeHolds → x = 1) ∧ t.regs = s.regs) ∧
  (∀ (k r : Nat) (s : State), pageOpen s 0 k = true → r < 2 ^ 34 → ∃ t, exec (.placeHoldPeat k r) s = .next t ∧
    (k, r, 2) ∈ t.xlate.placeHolds ∧ (∀ x, (k, r, x) ∈ t.xlate.placeHolds → x = 2) ∧ t.regs = s.regs ∧
    t.xlate.migrations = s.xlate.migrations) ∧
  (∀ (k r : Nat) (s : State), pageOpen s 0 k = true → r < 2 ^ 34 → ∃ t, exec (.placeReleaseHold k r) s = .next t ∧
    (∀ x, (k, r, x) ∉ t.xlate.placeHolds) ∧ t.regs = s.regs ∧ t.xlate.migrations = s.xlate.migrations) ∧
  (∀ (k m : Nat) (s : State), k < 64 → m < 65536 → bindState s (pageCtx k) = 0 → maskOk s k m = true →
    exec (.wayMaskWrite k m) s = .next (setFld (pageCtx k) Reg.CACHE_POLICY_WAY_MASK m s)) ∧
  (∀ (k m : Nat) (s : State), k < 64 → bindState s (pageCtx k) ≠ 0 →
    exec (.wayMaskWrite k m) s = .next (accessErr (pageCtx k) Reg.ERR_SUMMARY_LOCKED_WRITE s))

/-- R237, R241, R243 to R248: the directory of a home, from a stable line of the context's own and from a transient one. -/
def Obligations.DirectoryGrantsAndSnoops : Prop :=
  (∀ (h h' : Header) (a : Nat) (l : Line) (s : State), h' = { h with opcode := 0x40 } → h.xlated = true → isHbm h.addr = true →
    agentOf s h.src h.srcSub = some a → s.coh.breaches = [] → isTransient s (lineBase h.addr) = false →
    findLine s (lineBase h.addr) = some l → l.ctx = h.ctx → l.dir = 0 → l.valid = 0xF →
    ∃ t, exec (.rdShared h) s = .next t ∧ findLine t (lineBase h.addr) = some { l with dir := 2 ^ a, excl := true } ∧
      t.out = .response { reply h' 0 1 with opData := 6 } 0 [{ bytes := l.data ++ List.replicate 128 0 }] :: s.out) ∧
  (∀ (h h' : Header) (a : Nat) (l : Line) (s : State), h' = { h with opcode := 0x40 } → h.xlated = true → isHbm h.addr = true →
    agentOf s h.src h.srcSub = some a → s.coh.breaches = [] → isTransient s (lineBase h.addr) = false →
    findLine s (lineBase h.addr) = some l → l.ctx = h.ctx → l.dir ≠ 0 → l.excl = false → tst l.dir a = false → l.valid = 0xF →
    ∃ t, exec (.rdShared h) s = .next t ∧ findLine t (lineBase h.addr) = some { l with dir := setBit l.dir a } ∧
      t.out = .response { reply h' 0 1 with opData := 5 } 0 [{ bytes := l.data ++ List.replicate 128 0 }] :: s.out) ∧
  (∀ (h h' : Header) (a : Nat) (l : Line) (s : State), h' = { h with opcode := 0x41 } → h.xlated = true → isHbm h.addr = true →
    agentOf s h.src h.srcSub = some a → s.coh.breaches = [] → isTransient s (lineBase h.addr) = false →
    findLine s (lineBase h.addr) = some l → l.ctx = h.ctx → l.dir = 0 → l.valid = 0xF →
    ∃ t, exec (.rdOwn h) s = .next t ∧ findLine t (lineBase h.addr) = some { l with dir := 2 ^ a, excl := true } ∧
      t.out = .response { reply h' 0 1 with opData := 7 } 0 [{ bytes := l.data ++ List.replicate 128 0 }] :: s.out) ∧
  (∀ (h h' : Header) (a : Nat) (l : Line) (s : State), h' = { h with opcode := 0x41 } → h.xlated = true → isHbm h.addr = true →
    agentOf s h.src h.srcSub = some a → s.coh.breaches = [] → isTransient s (lineBase h.addr) = false →
    findLine s (lineBase h.addr) = some l → l.ctx = h.ctx → l.dir ≠ 0 → l.excl = true → tst l.dir a = false →
    ∃ t, exec (.rdOwn h) s = .next t ∧ (homeLine t (lineBase h.addr)).state = .snpI ∧
      (homeLine t (lineBase h.addr)).pending = l.dir ∧ (homeLine t (lineBase h.addr)).inHand = some (.rdOwn a h')) ∧
  (∀ (h h' : Header) (a : Nat) (l : Line) (s : State), h' = { h with opcode := 0x42 } → h.xlated = true → isHbm h.addr = true →
    agentOf s h.src h.srcSub = some a → s.coh.breaches = [] → isTransient s (lineBase h.addr) = false →
    findLine s (lineBase h.addr) = some l → l.ctx = h.ctx → l.dir ≠ 0 → l.excl = false → clrBit l.dir a = 0 →
    ∃ t, exec (.upgrade h) s = .next t ∧ findLine t (lineBase h.addr) = some { l with dir := 2 ^ a, excl := true } ∧
      t.out = .response { reply h' 0 0 with opData := 3 } 0 [] :: s.out) ∧
  (∀ (h h' : Header) (a : Nat) (l : Line) (s : State), h' = { h with opcode := 0x43 } → h.xlated = true → isHbm h.addr = true →
    h.noResp = false → agentOf s h.src h.srcSub = some a → s.coh.breaches = [] → findLine s (lineBase h.addr) = some l →
    tst l.dir a = true → l.excl = false → (homeLine s (lineBase h.addr)).state = .i →
    ∃ t, exec (.evictClean h) s = .next t ∧ findLine t (lineBase h.addr) = some { l with dir := clrBit l.dir a, excl := false } ∧
      t.out = .response (reply h' 0 0) 0 [] :: s.out) ∧
  (∀ (h h' : Header) (us : List Unit256) (a : Nat) (l : Line) (s : State), h' = { h with opcode := 0x44 } → h.xlated = true →
    isHbm h.addr = true → h.noResp = false → agentOf s h.src h.srcSub = some a → s.coh.breaches = [] →
    findLine s (lineBase h.addr) = some l → l.dir = 2 ^ a → l.excl = true →
    ∃ t, exec (.evictDirty h us) s = .next t ∧ findLine t (lineBase h.addr) =
        some { mergeLine l (slice (us.headD {}).bytes 0 128) (h.opArg % 16) with dir := 0, excl := false } ∧
      t.out = .response (reply h' 0 0) 0 [] :: s.out) ∧
  (∀ (a pa state dirty : Nat) (withData : Bool) (data : List Byte) (l : Line) (s : State), a < 40 → isHbm pa = true →
    s.coh.breaches = [] → (homeLine s (lineBase pa)).state = .snpI → tst (homeLine s (lineBase pa)).pending a = true →
    clrBit (homeLine s (lineBase pa)).pending a ≠ 0 → findLine s (lineBase pa) = some l →
    ∃ t, exec (.snoopAnswer a pa 0 state withData dirty data) s = .next t ∧
      (homeLine t (lineBase pa)).pending = clrBit (homeLine s (lineBase pa)).pending a ∧
      ∃ l', findLine t (lineBase pa) = some l' ∧ l'.dir = clrBit l.dir a ∧ l'.excl = false ∧
        l'.valid = l.valid ||| (if withData then dirty % 16 else 0)) ∧
  (∀ (a b pa state : Nat) (hd : Header) (data : List Byte) (l : Line) (s : State), a < 40 → isHbm pa = true →
    s.coh.breaches = [] → (homeLine s (lineBase pa)).state = .snpI → (homeLine s (lineBase pa)).pending = 2 ^ a →
    (homeLine s (lineBase pa)).inHand = some (.rdOwn b hd) → (homeLine s (lineBase pa)).queue = [] →
    findLine s (lineBase pa) = some l → l.dir = 2 ^ a → l.valid = 0xF →
    ∃ t, exec (.snoopAnswer a pa 0 state false 0 data) s = .next t ∧ homeLine t (lineBase pa) = {} ∧
      ∃ l', findLine t (lineBase pa) = some l' ∧ l'.dir = 2 ^ b ∧ l'.excl = true ∧ l'.valid = 0xF) ∧
  (∀ (pa mask a : Nat) (hd : Header) (data : List Byte) (l : Line) (s : State), isHbm pa = true → s.coh.breaches = [] →
    (homeLine s (lineBase pa)).state = .if_ → (homeLine s (lineBase pa)).inHand = some (.rdShared a hd) →
    (homeLine s (lineBase pa)).queue = [] → findLine s (lineBase pa) = some l → l.ctx = hd.ctx → l.dir = 0 →
    lineBase hd.addr = lineBase pa → l.valid ||| (mask % 16 - (mask % 16 &&& l.valid)) = 0xF →
    ∃ t, exec (.fillData pa 0 mask data) s = .next t ∧ homeLine t (lineBase pa) = {} ∧
      ∃ l', findLine t (lineBase pa) = some l' ∧ l'.dir = 2 ^ a ∧ l'.excl = true ∧ l'.valid = 0xF) ∧
  (∀ (pa status mask a : Nat) (hd : Header) (data : List Byte) (s : State), isHbm pa = true → s.coh.breaches = [] → status ≠ 0 →
    (homeLine s (lineBase pa)).state = .if_ → (homeLine s (lineBase pa)).inHand = some (.rdShared a hd) → hd.noResp = false →
    (homeLine s (lineBase pa)).queue = [] →
    ∃ t, exec (.fillData pa status mask data) s = .next t ∧ homeLine t (lineBase pa) = {} ∧
      t.out = .response (reply hd status 0) status [] :: s.out) ∧
  (∀ (a pa : Nat) (l : Line) (s : State), 32 ≤ a → a < 40 → isHbm pa = true → s.coh.breaches = [] →
    (homeLine s (lineBase pa)).state = .snpI → tst (homeLine s (lineBase pa)).pending a = true →
    clrBit (homeLine s (lineBase pa)).pending a ≠ 0 → findLine s (lineBase pa) = some l → l.excl = false →
    fld s (homePage (lineBase pa)) Reg.PAGE_CTRL_COUNTER_FREEZE = 0 →
    ∃ t, exec (.snoopAnswerTimeout a pa) s = .next t ∧
      (homeLine t (lineBase pa)).pending = clrBit (homeLine s (lineBase pa)).pending a ∧
      fld t (homePage (lineBase pa)) Reg.COH_FAULTS_LOST = min (fld s (homePage (lineBase pa)) Reg.COH_FAULTS_LOST + 1)
        (2 ^ Reg.COH_FAULTS_LOST.width - 1) ∧
      findLine t (lineBase pa) = some { l with dir := clrBit l.dir a, excl := false })

/-- R238, R239, R241, R242, R246: the rows of the agent's table of states. -/
def Obligations.CachingAgents : Prop :=
  (∀ (m pa : Nat) (s : State), coreAble s m pa = true → (agLine s (32 + m) pa).state = .i → agentBusy s (32 + m) < 16 →
    ∃ t, exec (.coreLoad m pa) s = .next t ∧ agLine t (32 + m) pa = { state := .isD } ∧
      ∃ h, t.out = .request h [] :: s.out ∧ h.opcode = 0x40 ∧ h.addr = lineBase pa ∧ h.dst = homeNode pa) ∧
  (∀ (m pa : Nat) (data : List Byte) (s : State), coreAble s m pa = true → (agLine s (32 + m) pa).state = .s → agentBusy s (32 + m) < 16 →
    ∃ t, exec (.coreStore m pa data) s = .next t ∧ agLine t (32 + m) pa = { agLine s (32 + m) pa with state := .smA } ∧
      ∃ h, t.out = .request h [] :: s.out ∧ h.opcode = 0x42 ∧ h.addr = lineBase pa) ∧
  (∀ (m pa : Nat) (data : List Byte) (s : State), coreAble s m pa = true →
    ((agLine s (32 + m) pa).state = .m ∨ (agLine s (32 + m) pa).state = .e) → pa % 128 + data.length ≤ 128 →
    ∃ t, exec (.coreStore m pa data) s = .next t ∧ (agLine t (32 + m) pa).state = .m ∧ t.out = s.out ∧
      (agLine t (32 + m) pa).data = patch (agLine s (32 + m) pa).data (pa % 128) data []) ∧
  (∀ (m pa : Nat) (s : State), m < 8 → isHbm pa = true → agentBusy s (32 + m) < 16 → (agLine s (32 + m) pa).state = .m →
    ∃ t, exec (.coreReplace m pa) s = .next t ∧ agLine t (32 + m) pa = { agLine s (32 + m) pa with state := .miA } ∧
      ∃ h, t.out = .request h [{ bytes := (agLine s (32 + m) pa).data ++ List.replicate 128 0 }] :: s.out ∧ h.opcode = 0x44 ∧
        h.opArg = (agLine s (32 + m) pa).dirty) ∧
  (∀ (a pa : Nat) (s : State), 32 ≤ a → a < 40 → isHbm pa = true → portHold s a pa = {} → (agLine s a pa).state = .s →
    ∃ t, exec (.snpShared a pa) s = .next t ∧ (agLine t a pa).state = .s ∧
      t.out = .response { reply (snoopAt s a pa false) 0 0 with opData := 1 } 0 [] :: s.out) ∧
  (∀ (a pa : Nat) (s : State), 32 ≤ a → a < 40 → isHbm pa = true → portHold s a pa = {} → (agLine s a pa).state = .m →
    ∃ t, exec (.snpInv a pa) s = .next t ∧ agLine t a pa = {} ∧
      t.out = .response { reply (snoopAt s a pa true) 0 1 with opData := 4 + 16 * (agLine s a pa).dirty } 0
        [{ bytes := (agLine s a pa).data ++ List.replicate 128 0 }] :: s.out) ∧
  (∀ (a pa : Nat) (s : State), a < 40 → isHbm pa = true → (portHold s a pa).holding = true →
    exec (.snpInv a pa) s = .next (setPortHold a pa { portHold s a pa with waiting := (portHold s a pa).waiting ++ [true] } s)) ∧
  (∀ (a pa : Nat) (s : State), a < 32 → isHbm pa = true → portHold s a pa = {} → (agLine s a pa).state = .i →
    exec (.snpShared a pa) s = .next (emit (.delivered (snoopAt s a pa false) []) s)) ∧
  (∀ (a pa : Nat) (data : List Byte) (s : State), 32 ≤ a → a < 40 → isHbm pa = true → (agLine s a pa).state = .imD →
    ∃ t, exec (.grant a pa 0 3 true data) s = .next t ∧ agLine t a pa = { state := .m, data := slice data 0 128 } ∧
      (portHold t a pa).holding = true) ∧
  (∀ (a pa status state : Nat) (withData : Bool) (data : List Byte) (s : State), 32 ≤ a → a < 40 → isHbm pa = true → status ≠ 0 →
    (agLine s a pa).state = .isD → portHold s a pa = {} →
    ∃ t, exec (.grant a pa status state withData data) s = .next t ∧ agLine t a pa = {} ∧ portHold t a pa = {} ∧ t.out = s.out) ∧
  (∀ (a pa state : Nat) (withData : Bool) (data : List Byte) (s : State), a < 32 → isHbm pa = true →
    ∃ t, exec (.grant a pa 0 state withData data) s = .next t ∧ (portHold t a pa).holding = true ∧
      ∃ h us, t.out = .delivered h us :: s.out ∧ h.dst = (agentNode a).1 ∧ h.dstSub = (agentNode a).2) ∧
  (∀ (a pa : Nat) (s : State), ((agLine s a pa).state = .miA ∨ (agLine s a pa).state = .ciA) →
    exec (.evictionAck a pa) s = .next (setAgLine a pa {} s)) ∧
  (∀ (a pa : Nat) (s : State), (portHold s a pa).holding = true → (portHold s a pa).waiting = [] →
    exec (.holdRelease a pa) s = .next (setPortHold a pa {} s))

/-- R256, R257, R259, R266, R267, R270. -/
def Obligations.TranslationRequests : Prop :=
  (∀ (h h' : Header) (base : Nat) (s : State), h' = { h with opcode := 0x60, opArg := 0xFF, hint := 0, lastRead := false } →
    base = h.addr / 256 * 256 → h.xlated = true → isHbm h.addr = true → h.noResp = false → s.coh.breaches = [] →
    setSound s base → setSound s (base + 128) →
    (∀ i, i < 2 → isTransient s (base + 128 * i) = false ∧ ∃ l, findLine s (base + 128 * i) = some l ∧ l.ctx = h.ctx ∧
      l.dir = 0 ∧ l.excl = false ∧ l.valid = 0xF) →
    ∃ t, exec (.walkRd h) s = .next t ∧ sameBytes s t ∧ .response (reply h' 0 1) 0 [{ bytes := bytesAt s base 256 }] ∈ t.out) ∧
  (∀ (h h' : Header) (pa : Nat) (s : State), h' = { h with opcode := 0x61 } → pa = h.addr / 8 * 8 → h.xlated = true →
    sectorReady s h.ctx pa → ∃ t, exec (.pteUpdate h) s = .next t ∧
      .response { reply h' 0 0 with inlineData := [], opData := leAt (bytesAt s pa 8) 0 8 } 0 [] ∈ t.out ∧
      ∀ a, byteAt t a = if leAt (bytesAt s pa 8) 0 8 = leAt h.inlineData 0 8 ∧ pa ≤ a ∧ a < pa + 8
        then (leBytes 8 (leAt h.inlineData 8 8)).getD (a - pa) 0 else byteAt s a) ∧
  (∀ (x sub : Nat) (h : Header) (s : State), x < 87 → heldPage s h.ctx h.addr = true →
    ∃ t, exec (.xlateReq x sub h) s = .next t ∧ t.xlate.heldReqs = s.xlate.heldReqs ++ [(x, sub, { h with opcode := 0x62 })] ∧
      t.regs = s.regs ∧ t.out = s.out ∧ sameBytes s t) ∧
  (∀ (x sub : Nat) (h : Header) (l : Leaf) (w : Bool) (s : State), x < 87 → heldPage s h.ctx h.addr = false →
    walk s h.ctx (h.addr % 2 ^ 55) (b2n (tst h.opArg 0)) = .ok l → ∃ t, exec (.xlateReq x sub h) s = .next t ∧
      ∃ v, .response { reply { h with opcode := 0x62 } 0 0 with inlineData := [], opData := v } 0 [] ∈ t.out) ∧
  (∀ (x : Nat) (h : Header) (placement : Bool) (i : Inval) (s : State), h.noResp = false →
    s.xlate.invals.find? (fun i => i.ctx == h.ctx && i.placement == placement && i.epoch % 256 == h.opArg % 256 && i.waiting.contains x) = some i →
    ∃ t, exec (.xlateInv x h placement) s = .next t ∧ .response (reply { h with opcode := 0x63 } 0 0) 0 [] ∈ t.out ∧
      (∀ e ∈ tlb t x, meets e h.ctx (bits h.opData 54 16 * 65536) (leAt h.inlineData 0 5) = false) ∧
      ∀ j ∈ t.xlate.invals, j.ctx = h.ctx → j.epoch = i.epoch → j.placement = placement → x ∉ j.waiting)

/-- R257 to R276: the commands of translation faults and invalidations, from the registers and through the window. -/
def Obligations.FaultsAndInvalidations : Prop :=
  (∀ (x sub : Nat) (h : Header) (l : Leaf) (s : State), x < 87 → h.noResp = false → walk s h.ctx (h.addr % 2 ^ 55) 1 = .ok l →
    ∃ t, exec (.dirtySet x sub h) s = .next t ∧ .response (reply { h with opcode := 0x64 } 0 0) 0 [] ∈ t.out ∧ t.regs = s.regs ∧
      ∀ e ∈ tlb t x, e.ctx = h.ctx → e.va ≤ h.addr % 2 ^ 55 → h.addr % 2 ^ 55 < e.va + sizeBytes e.size →
        tst e.dirty (if e.size = 1 then h.addr % 2 ^ 55 % 2 ^ 21 / 65536 else 0) = true) ∧
  (∀ (x : Nat) (h : Header) (s : State), h.noResp = false → ∃ t, exec (.resume x h) s = .next t ∧
    .response (reply { h with opcode := 0x65 } 0 0) 0 [] ∈ t.out ∧
    ∀ r ∈ t.xlate.resuming, ¬(r.1 = h.ctx ∧ r.2.1 = h.opArg % 256 ∧ r.2.2.holder = x)) ∧
  (∀ (h : Header) (s : State), h.noResp = false → ∃ t, exec (.countAdd h) s = .next t ∧ t.regs = s.regs ∧
    .response (reply { h with opcode := 0x66 } 0 0) 0 [] ∈ t.out ∧
    (countEntry s h.ctx (h.opData % 2 ^ 32) = none → sameBytes s t)) ∧
  (∀ (fn k id : Nat) (f : FaultSt) (s : State), plainOpen s fn k = true → id < 256 →
    s.xlate.faults.find? (fun f => f.ctx == k && f.id == id) = some f → s.xlate.unrecorded = [] →
    ∃ t, exec (.faultResume fn k id 1) s = .next t ∧ t.xlate.faults = s.xlate.faults.filter (fun g => !(g.ctx == k && g.id == id)) ∧
      t.xlate.resuming = s.xlate.resuming ++ f.units.map (fun u => (k, id, u)) ∧
      fld t (pageWin k 0) Reg.FQ_STATUS_OUTSTANDING = faultCount t k % 2 ^ Reg.FQ_STATUS_OUTSTANDING.width) ∧
  (∀ (fn k signal : Nat) (signalEn : Bool) (epoch : Nat) (s : State), plainOpen s fn k = true → epoch < 2 ^ 32 →
    epoch = (fld s (pageWin k 0) Reg.INV_STATUS_POSTED + 1) % 2 ^ 32 →
    (fld s (pageWin k 0) Reg.INV_STATUS_POSTED + 2 ^ 32 - fld s (pageWin k 0) Reg.INV_STATUS_DONE) % 2 ^ 32 < 16 →
    fld s (pageWin k 0) Reg.INV_RANGE_PAGES ≠ 0 → ∃ t, exec (.invCmd fn k epoch signal signalEn) s = .next t ∧
      fld t (pageWin k 0) Reg.INV_STATUS_POSTED = epoch ∧ sameFields [(pageWin k 0, Reg.INV_STATUS_POSTED)] s t ∧
      ∃ i ∈ t.xlate.invals, i.ctx = k ∧ i.epoch = epoch ∧ i.base = fld s (pageWin k 0) Reg.INV_RANGE_BASE * 65536 ∧
        i.pages = fld s (pageWin k 0) Reg.INV_RANGE_PAGES ∧ i.placement = false) ∧
  (∀ (k : Nat) (i : Inval) (s : State), s.xlate.invals.find? (fun i => i.ctx == k && !i.placement) = some i → i.waiting = [] →
    ∃ t, exec (.invComplete k) s = .next t ∧ fld t (pageWin k 0) Reg.INV_STATUS_DONE = i.epoch % 2 ^ 32 ∧
      ∀ j ∈ t.xlate.invals, ¬(j.ctx = k ∧ j.epoch = i.epoch ∧ j.placement = false)) ∧
  (∀ (fn k table : Nat) (valid : Bool) (s : State), plainOpen s fn k = true → fld s (pageWin k 0) Reg.CQ_CFG_ENABLE = 0 →
    (∀ r, r < 16 → ringOn s k r = false ∧ ringOutstanding s k r = 0) → ∃ t, exec (.xlateRootWrite fn k valid table) s = .next t ∧
      fld t (pageWin k 0) Reg.XLATE_ROOT_VALID = b2n valid ∧
      fld t (pageWin k 0) Reg.XLATE_ROOT_TABLE = table % 2 ^ Reg.XLATE_ROOT_TABLE.width ∧
      sameFields [(pageWin k 0, Reg.XLATE_ROOT_VALID), (pageWin k 0, Reg.XLATE_ROOT_TABLE)] s t) ∧
  (∀ (fn k l : Nat) (irqEn : Bool) (s : State), plainOpen s fn k = true → fld s (pageWin k 0) Reg.FQ_CFG_ENABLE = 0 → 8 ≤ l → l ≤ 12 →
    ∃ t, exec (.fqEnable fn k l irqEn) s = .next t ∧ fld t (pageWin k 0) Reg.FQ_CFG_ENABLE = 1 ∧
      fld t (pageWin k 0) Reg.FQ_CFG_LOG2_SIZE = l ∧ fld t (pageWin k 0) Reg.FQ_CFG_IRQ_EN = b2n irqEn ∧
      fld t (pageWin k 0) Reg.FQ_STATUS_TAIL = 0 ∧ fld t (pageWin k 0) Reg.FQ_STATUS_HEAD = 0 ∧
      fld t (pageWin k 0) Reg.FQ_STATUS_PHASE = 1) ∧
  (∀ (fn k : Nat) (s : State), plainOpen s fn k = true → faultCount s k = 0 →
    exec (.fqDisable fn k) s = .next (setFld (pageWin k 0) Reg.FQ_CFG_ENABLE 0 s)) ∧
  (∀ (fn k h : Nat) (s : State), plainOpen s fn k = true → h < 4096 → fld s (pageWin k 0) Reg.FQ_CFG_ENABLE = 1 →
    headOk (fld s (pageWin k 0) Reg.FQ_CFG_LOG2_SIZE) (fld s (pageWin k 0) Reg.FQ_STATUS_TAIL) (fld s (pageWin k 0) Reg.FQ_STATUS_HEAD) h = true →
    ∃ t, exec (.fqDoorbell fn k h) s = .next t ∧ fld t (pageWin k 0) Reg.FQ_STATUS_HEAD = h) ∧
  (∀ (k id : Nat) (f : FaultSt) (s : State), 0 < k → k < 64 → fld s (pageCtx k) Reg.FAULT_POLICY_TIMEOUT_MS ≠ 0 →
    s.xlate.faults.find? (fun f => f.ctx == k && f.id == id) = some f → ctxState s k = 2 →
    ∃ t, exec (.faultTimeout k id) s = .next t ∧ ctxState t k = 5 ∧ tst (fld t 0x007 Reg.IRQ_STATUS_BLOCK) 1 = true) ∧
  (∀ (n k epoch : Nat) (s : State), n < 8 → s.xlate.invals.any (fun i => i.ctx == k && i.epoch == epoch && i.waiting.contains (72 + n)) = true →
    siteLink s n ≠ 9 → ∃ t, exec (.guestInvLate n k epoch) s = .next t ∧ siteLink t n = 9 ∧ bindState t (pageSite n) = 5) ∧
  (∀ (k word : Nat) (e : Envelope) (s : State), 0 < k → k < 64 → fld s (pageWin k 1) Reg.IN_STATUS_BUSY = 0 →
    Machine.envelopeOk (ctx s k) e = true → fld s (pageWin k 0) Reg.CQ_CFG_ENABLE = 0 →
    (∀ r, r < 16 → ringOn s k r = false ∧ ringOutstanding s k r = 0) → ∃ t, exec (.rootSet k e word) s = .next t ∧
      (ctx t k).inSeq = e.seq ∧ fld t (pageWin k 0) Reg.XLATE_ROOT_VALID = bit word 0 ∧
      fld t (pageWin k 0) Reg.XLATE_ROOT_TABLE = bits word 51 16) ∧
  (∀ (k base pages cmd : Nat) (e : Envelope) (s : State), 0 < k → k < 64 → fld s (pageWin k 1) Reg.IN_STATUS_BUSY = 0 →
    Machine.envelopeOk (ctx s k) e = true → cmd % 2 ^ 32 = (fld s (pageWin k 0) Reg.INV_STATUS_POSTED + 1) % 2 ^ 32 →
    (fld s (pageWin k 0) Reg.INV_STATUS_POSTED + 2 ^ 32 - fld s (pageWin k 0) Reg.INV_STATUS_DONE) % 2 ^ 32 < 16 →
    bits pages 39 0 ≠ 0 → ∃ t, exec (.invalidate k e base pages cmd) s = .next t ∧ (ctx t k).inSeq = e.seq ∧
      fld t (pageWin k 0) Reg.INV_STATUS_POSTED = cmd % 2 ^ 32) ∧
  (∀ (k word : Nat) (e : Envelope) (f : FaultSt) (s : State), 0 < k → k < 64 → fld s (pageWin k 1) Reg.IN_STATUS_BUSY = 0 →
    Machine.envelopeOk (ctx s k) e = true → bits word 9 8 = 1 →
    s.xlate.faults.find? (fun f => f.ctx == k && f.id == bits word 7 0) = some f → s.xlate.unrecorded = [] →
    ∃ t, exec (.sealedResume k e word) s = .next t ∧ (ctx t k).inSeq = e.seq ∧
      t.xlate.faults = s.xlate.faults.filter (fun g => !(g.ctx == k && g.id == bits word 7 0))) ∧
  (∀ (k ctrl l cnt cmd : Nat) (e : Envelope) (s : State), 0 < k → k < 64 → fld s (pageWin k 1) Reg.IN_STATUS_BUSY = 0 →
    Machine.envelopeOk (ctx s k) e = true → ∃ t, exec (.placeSet k e 1 ctrl l cnt cmd) s = .next t ∧ (ctx t k).inSeq = e.seq ∧
      fld t (pageCtx k) Reg.PLACE_CTRL_ENABLE = bit ctrl 0 ∧ fld t (pageCtx k) Reg.PLACE_CTRL_FREEZE = bit ctrl 1 ∧
      fld t (pageCtx k) Reg.PLACE_CTRL_MIGRATE_MAX = bits ctrl 23 16 ∧ t.xlate = s.xlate)

/-- R279, R281 to R289, R302. -/
def Obligations.BandwidthRegulation : Prop :=
  (∀ s : State, ∃ t, exec .rateRecompute s = .next t ∧ ∀ k c, k < 64 → c < 8 → effective s k c ≤ rateOf t k c ∧
    rateOf t k c ≤ max (effective s k c) (max (fld s (pageCtx k) (Reg.REG_CLASS_CEILING.at 8 c)) (guarantee s k c))) ∧
  (∀ (n q : Nat) (e : Header × List Unit256) (rest : List (Header × List Unit256)) (s : State), n < 12 → q < 32 →
    takeFirst (fun e : Header × List Unit256 => channelOpen s (32 * n + q) e.1.ctx) (queueOf s (32 * n + q)) = some (e, rest) →
    ∃ t, exec (.queueStarvation (pageHbm n) q) s = .next t ∧ queueOf t (32 * n + q) = rest) ∧
  (∀ (k c g : Nat) (s : State), k < 64 → c < 8 → g < 65536 → isSealed s k = false →
    guaranteed (setFld (pageCtx k) (Reg.REG_CLASS_GUARANTEE.at 8 c) g (refreshPools s)) (poolOfClass s c) ≤
      guaranteed (refreshPools s) (poolOfClass s c) →
    ∃ t, exec (.guaranteeWrite k c g) s = .next t ∧
      fld t (pageCtx k) (Reg.REG_CLASS_GUARANTEE.at 8 c) = g % 2 ^ Reg.REG_CLASS_GUARANTEE.width) ∧
  (∀ (k c g : Nat) (s : State), k < 64 → c < 8 → g < 65536 → isSealed s k = false →
    guaranteed (refreshPools s) (poolOfClass s c) <
      guaranteed (setFld (pageCtx k) (Reg.REG_CLASS_GUARANTEE.at 8 c) g (refreshPools s)) (poolOfClass s c) →
    4 * deliver (refreshPools s) (poolOfClass s c) <
      5 * guaranteed (setFld (pageCtx k) (Reg.REG_CLASS_GUARANTEE.at 8 c) g (refreshPools s)) (poolOfClass s c) →
    fld s 0x006 Reg.PAGE_CTRL_COUNTER_FREEZE = 0 →
    ∃ t, exec (.guaranteeWrite k c g) s = .next t ∧ fld t (pageCtx k) Reg.ERR_SUMMARY_OP_REFUSED = 1 ∧
      fld t (pageCtx k) (Reg.REG_CLASS_GUARANTEE.at 8 c) = fld s (pageCtx k) (Reg.REG_CLASS_GUARANTEE.at 8 c) ∧
      fld t 0x006 Reg.ADMIT_STATS_REFUSED = min (fld s 0x006 Reg.ADMIT_STATS_REFUSED + 1) (2 ^ Reg.ADMIT_STATS_REFUSED.width - 1)) ∧
  (∀ (i c base : Nat) (s : State), i < 16 → c < 8 → base < 2 ^ 31 →
    framesIn (poolOfClass s c) base (fld s 0x006 (Reg.RANGE_END_LAST.at 16 i)) = true →
    ∃ t, exec (.rangeEnableWrite i c base) s = .next t ∧ fld t 0x006 (Reg.RANGE_ENABLE.at 16 i) = 1 ∧
      fld t 0x006 (Reg.RANGE_CLASS.at 16 i) = c ∧ fld t 0x006 (Reg.RANGE_BASE.at 16 i) = base ∧
      sameFields [(0x006, Reg.RANGE_ENABLE.at 16 i), (0x006, Reg.RANGE_CLASS.at 16 i), (0x006, Reg.RANGE_BASE.at 16 i)] s t) ∧
  (∀ (i c base : Nat) (s : State), i < 16 → c < 8 → base < 2 ^ 31 →
    framesIn (poolOfClass s c) base (fld s 0x006 (Reg.RANGE_END_LAST.at 16 i)) = false →
    exec (.rangeEnableWrite i c base) s = .next (opRefused 0x006 s)) ∧
  (∀ (v : Nat) (s : State), v < 65536 → (∀ c, c < 8 → bits v (2 * c + 1) (2 * c) ≠ poolOfClass s c →
      classHeld s c (bits v (2 * c + 1) (2 * c)) = false) →
    ∃ t, exec (.classPoolWrite v) s = .next t ∧ fld t 0x006 Reg.CLASS_POOL = v) ∧
  (∀ (ch slot : Nat) (s : State), ch < 384 → slot < 64 → ∃ t, exec (.slotBoundary ch slot) s = .next t ∧
    Tab.get 0 t.hbm.slotNow ch = match (List.range 64).find? (fun k => (Tab.get [] s.regul.slotPos (k * 384 + ch)).contains slot) with
      | some k => k + 1
      | none => 0) ∧
  (∀ (k tag age : Nat) (e : Header × List Unit256 × Nat) (rest : List (Header × List Unit256 × Nat)) (s : State),
    takeFirst (fun e : Header × List Unit256 × Nat => e.1.tag == tag && decide (e.2.2 ≤ age)) (ctx s k).paced = some (e, rest) →
    ∃ t, exec (.sealedResponseRelease k tag age) s = .next t ∧ (ctx t k).paced = rest ∧ t.regs = s.regs ∧
      t.out = .delivered e.1 (if e.1.opArg % 256 = 0 then e.2.1 else []) :: s.out)

/-- R297 to R300, R321: the states of a tenant context under its owner's commands. -/
def Obligations.ContextLifecycle : Prop :=
  (∀ (k : Nat) (s : State), 0 < k → k < 64 → ctxState s k = 0 → vfEnable s = true → k ≤ numVfs s →
    ∃ t, exec (.ctxCreate k) s = .next t ∧ ctxState t k = 1 ∧ bindState t (pageCtx k) = 1 ∧ (ctx t k).keySlot = true) ∧
  (∀ (k : Nat) (s : State), 0 < k → k < 64 → ctxState s k ≠ 0 → exec (.ctxCreate k) s = .next (ctxRefuse k 1 s)) ∧
  (∀ (k : Nat) (s : State), 0 < k → k < 64 → sealReason s k = none →
    ∃ t, exec (.ctxSeal k) s = .next t ∧ isSealed t k = true ∧ fld t (pageCtx k) Reg.BINDING_SEALED = 1 ∧ ctxState t k = 1) ∧
  (∀ (k : Nat) (s : State), 0 < k → k < 64 → ctxState s k = 1 → isSealed s k = false →
    ∃ t, exec (.ctxStart k) s = .next t ∧ ctxState t k = 2 ∧
      sameFields [(pageCtx k, Reg.CTX_STATUS_STATE), (pageCtx k, Reg.BINDING_STATE)] s t) ∧
  (∀ (k : Nat) (s : State), 0 < k → k < 64 → ctxState s k = 1 → isSealed s k = true →
    exec (.ctxStart k) s = .next (ctxRefuse k 8 s)) ∧
  (∀ (k : Nat) (s : State), 0 < k → k < 64 → ctxState s k = 2 → ∃ t, exec (.ctxPause k) s = .next t ∧ ctxState t k = 3 ∧
    bindState t (pageCtx k) = 1) ∧
  (∀ (k : Nat) (s : State), 0 < k → k < 64 → (ctxState s k = 2 ∨ ctxState s k = 3) → ∃ t, exec (.ctxPark k) s = .next t ∧
    ctxState t k = 4 ∧ bindState t (pageCtx k) = 1) ∧
  (∀ (k : Nat) (s : State), 0 < k → k < 64 → (ctxState s k = 3 ∨ ctxState s k = 4) → ∃ t, exec (.ctxResume k) s = .next t ∧
    ctxState t k = 2) ∧
  (∀ (k : Nat) (s : State), 0 < k → k < 64 → ctxState s k ≠ 0 → ctxState s k ≠ 6 → ∃ t, exec (.ctxEnd k) s = .next t ∧
    ctxState t k = 6 ∧ bindState t (pageCtx k) = 3 ∧ (ctx t k).parks = []) ∧
  (∀ (k : Nat) (s : State), 0 < k → k < 64 → ctxState s k = 6 → (ctx s k).coppice = none →
    (∀ e ∈ (ctx s k).ending, ashedReady s e = true) → ∃ t, exec (.endingAshDone k) s = .next t ∧ ctxState t k = 0 ∧
      bindState t (pageCtx k) = 0 ∧ fld t (pageCtx k) Reg.BINDING_SEALED = 0 ∧ ctx t k = {}) ∧
  (∀ s : State, exec (.ctxPause 0) s = .next (ctxRefuse 0 2 s) ∧ exec (.ctxCreate 0) s = .next (ctxRefuse 0 2 s))

/-- R309 to R313: the six kinds of coppice and the step that ends a tile's. -/
def Obligations.Coppices : Prop :=
  (∀ (k n : Nat) (park : Bool) (s : State), coppiceAllowed k 1 n 1 k park s → ∃ t, exec (.coppiceTile k n k park) s = .next t ∧
    bindState t (pageTile n) = 1 ∧ bindCtx t (pageTile n) = k ∧ fld t (pageCtx k) Reg.OP_CONTROL_RESULT = 3 ∧
    (ctx t k).coppice = none ∧ pageOp t (pageCtx k) = none) ∧
  (∀ (k n x : Nat) (park : Bool) (s : State), coppiceAllowed k 1 n 1 x park s → x ≠ k → ∃ t, exec (.coppiceTile k n x park) s = .next t ∧
    bindState t (pageTile n) = 2 ∧ fld t (pageCtx k) Reg.OP_CONTROL_RESULT = 2 ∧
    (ctx t k).coppice = some { kind := 1, index := n, count := 1, target := x, park := park }) ∧
  (∀ (k i n : Nat) (s : State), coppiceAllowed k 2 i n k false s → ∃ t, exec (.coppiceFrames k i n k) s = .next t ∧
    fld t (pageCtx k) Reg.OP_CONTROL_RESULT = 3 ∧
    ∀ f ∈ rangeFrames i n, (frame s f).state ≠ .gone → (frame s f).bad = false → (frame t f).ctx = k ∧ (frame t f).state = .owned) ∧
  (∀ (k i n : Nat) (s : State), coppiceAllowed k 3 i n k false s → ∃ t, exec (.coppiceWays k i n k) s = .next t ∧
    fld t (pageCtx k) Reg.CACHE_POLICY_WAY_MASK = (fld s (pageCtx k) Reg.CACHE_POLICY_WAY_MASK ||| wayRun i n) % 65536 ∧
    fld t (pageCtx k) Reg.OP_CONTROL_RESULT = 3) ∧
  (∀ (k n x : Nat) (s : State), coppiceAllowed k 4 n 1 x false s → x ≠ k → ∃ t, exec (.coppiceSite k n x) s = .next t ∧
    bindState t (pageSite n) = 2 ∧ (ctx t k).coppice = some { kind := 4, index := n, count := 1, target := x, park := false }) ∧
  (∀ (k i x : Nat) (s : State), coppiceAllowed k 5 i 1 x false s → x ≠ k → ∃ t, exec (.coppiceSession k i x) s = .next t ∧
    fld t (pageCtx k) Reg.OP_CONTROL_RESULT = 2 ∧
    (ctx t k).coppice = some { kind := 5, index := i, count := 1, target := x, park := false, step := 2 }) ∧
  (∀ (k h x i : Nat) (s : State), coppiceAllowed k 6 h 1 x false s → x ≠ k → roundOfHandle s h = some i → (kround s i).st ≠ 5 →
    ∃ t, exec (.coppiceKilnRound k h x) s = .next t ∧ (kround t i).st = 5 ∧
      (ctx t k).coppice = some { kind := 6, index := h, count := 1, target := x, park := false, step := 2 }) ∧
  (∀ (k n x reason : Nat) (park : Bool) (s : State), k < 64 → pageOp s (pageCtx k) = none → (ctx s k).coppice = none →
    coppiceReason (coppiceAsked k 1 n 1 x park s) k 1 n 1 x = some reason → ∃ t, exec (.coppiceTile k n x park) s = .next t ∧
      fld t (pageCtx k) Reg.COPPICE_STATUS_REASON = reason % 2 ^ Reg.COPPICE_STATUS_REASON.width ∧
      fld t (pageCtx k) Reg.OP_CONTROL_RESULT = 4 ∧ bindState t (pageTile n) = bindState s (pageTile n)) ∧
  (∀ (k n x : Nat) (park : Bool) (s : State), k < 64 → (pageOp s (pageCtx k)).isSome = true →
    exec (.coppiceTile k n x park) s = .next (opRefused (pageCtx k) s)) ∧
  (∀ (k n : Nat) (park : Bool) (s : State), k < 64 → n < 64 → (ctx s k).coppice =
      some { kind := 1, index := n, count := 1, target := 0xFF, park := park, step := 2 } →
    ∃ t, exec (.coppiceStepDone k) s = .next t ∧ bindState t (pageTile n) = 0 ∧ bindCtx t (pageTile n) = 0xFF ∧
      (ctx t k).coppice = none ∧ fld t (pageCtx k) Reg.OP_CONTROL_RESULT = 3 ∧ (tile t n).acc = [])

/-- R303 to R306: what the window accepts, what each message does, and what is discarded. -/
def Obligations.SealedWindowMessages : Prop :=
  (∀ (k : Nat) (e : Envelope) (nonce key : List Byte) (s : State), 0 < k → k < 64 → isSealed s k = true → ctxState s k = 1 →
    (ctx s k).session = 0 → e.encrypted = false → e.bodyLen = 165 → e.posted = 197 → e.seq = 0 → e.session = 0 →
    ∃ t, exec (.keyExchange k e nonce key) s = .next t ∧ (ctx t k).session = s.heart.reports + 1 ∧ (ctx t k).inSeq = 0 ∧
      (ctx t k).outSeq = 0 ∧ fld t (pageCtx k) Reg.CTX_STATUS_SESSION = 1 ∧ t.heart.reports = s.heart.reports + 1) ∧
  (∀ (k : Nat) (e : Envelope) (nonce key : List Byte) (s : State), 0 < k → k < 64 → isSealed s k = false →
    exec (.keyExchange k e nonce key) s = .next (winDrop k s)) ∧
  (∀ (k : Nat) (e : Envelope) (s : State), windowOpen s k e → ctxState s k = 1 →
    ∃ t, exec (.tenantStart k e) s = .next t ∧ ctxState t k = 2 ∧ (ctx t k).inSeq = e.seq) ∧
  (∀ (k : Nat) (e : Envelope) (s : State), windowOpen s k e → (ctxState s k = 0 ∨ ctxState s k = 5) →
    ∃ t, exec (.tenantStart k e) s = .next t ∧ ctxState t k = ctxState s k ∧ (ctx t k).outSeq = (ctx s k).outSeq + 1) ∧
  (∀ (k : Nat) (e : Envelope) (nonce : List Byte) (s : State), windowOpen s k e →
    ∃ t, exec (.reportReq k e nonce) s = .next t ∧ t.heart.reports = s.heart.reports + 1 ∧ (ctx t k).inSeq = e.seq ∧
      (ctx t k).outSeq = (ctx s k).outSeq + 1) ∧
  (∀ (k : Nat) (e : Envelope) (s : State), windowOpen s k e → ctxState s k ≠ 0 → ctxState s k ≠ 6 →
    ∃ t, exec (.tenantEnd k e) s = .next t ∧ ctxState t k = 6) ∧
  (∀ (k word : Nat) (e : Envelope) (s : State), windowOpen s k e →
    ∃ t, exec (.parkSet k e word) s = .next t ∧ fld t (pageWin k 0) Reg.PARK_AREA_SLOTS = min 64 (bits word 6 0) ∧
      fld t (pageWin k 0) Reg.PARK_AREA_ADDR = bits word 54 16 ∧ (ctx t k).inSeq = e.seq ∧ sameBytes s t) ∧
  (∀ (k : Nat) (e : Envelope) (nonce key : List Byte) (s : State), windowOpen s k e →
    ∃ t, exec (.windowRekey k e nonce key) s = .next t ∧ (ctx t k).session = s.heart.reports + 1 ∧ (ctx t k).inSeq = 0 ∧
      (ctx t k).outSeq = 0) ∧
  (∀ (k first : Nat) (e : Envelope) (s : State), windowOpen s k e →
    ∃ t, exec (.logReq k e first) s = .next t ∧ (ctx t k).inSeq = e.seq ∧ (ctx t k).outSeq = (ctx s k).outSeq + 1 ∧
      (ctx t k).log = (ctx s k).log) ∧
  (∀ (k : Nat) (m : WinMsg) (rest : List WinMsg) (s : State), 0 < k → k < 64 → (ctx s k).outQ = m :: rest →
    ∃ t, exec (.outAckRelease k k true) s = .next t ∧ (ctx t k).outQ = rest) ∧
  (∀ (k fn : Nat) (release : Bool) (s : State), fn ≠ k → exec (.outAckRelease fn k release) s = .next s) ∧
  (∀ (k word first : Nat) (e : Envelope) (nonce key body head : List Byte) (s : State), 0 < k → k < 64 →
    Machine.envelopeOk (ctx s k) e = false →
    exec (.tenantStart k e) s = .next (winDrop k s) ∧ exec (.reportReq k e nonce) s = .next (winDrop k s) ∧
    exec (.tenantEnd k e) s = .next (winDrop k s) ∧ exec (.parkSet k e word) s = .next (winDrop k s) ∧
    exec (.windowRekey k e nonce key) s = .next (winDrop k s) ∧ exec (.logReq k e first) s = .next (winDrop k s) ∧
    exec (.kilnJoin k e body) s = .next (winDrop k s) ∧ exec (.kilnQuery k e head) s = .next (winDrop k s))

/-- R316: the five ash commands, and who may send them. -/
def Obligations.AshCommands : Prop :=
  (∀ (h : Header) (c : Nat) (s : State), ashAllowed h false = true → nodeBlock h.dst = some (.hbm c) → h.xlated = true →
    (∀ f ∈ ashRange h, frameExists f = true ∧ isHbm (f * 2 ^ 21) = true ∧ (frame s f).state = .ashing) →
    ∃ t, exec (.ashFrames h) s = .next t ∧ (∀ x ∈ t.mem.cells, frameOf x.1 ∉ ashRange h) ∧
      ∀ f ∈ ashRange h, (frame t f).state = .ashing) ∧
  (∀ (h : Header) (c f : Nat) (s : State), ashAllowed h false = true → nodeBlock h.dst = some (.hbm c) → h.xlated = true →
    f ∈ ashRange h → (frame s f).state ≠ .ashing →
    ∃ t, exec (.ashFrames h) s = .next t ∧ t.mem = s.mem ∧ t.cache = s.cache) ∧
  (∀ (h : Header) (n : Nat) (s : State), ashAllowed h true = true → nodeBlock h.dst = some (.home n) →
    (∀ f ∈ ashRange h, frameExists f = true ∧ (frame s f).state = .ashing) →
    (∀ l ∈ cacheLines s (fun l => (ashRange h).contains (frameOf l.pa) && sliceOf l.pa == n), isTransient s l.pa = false ∧ l.dir = 0) →
    ∃ t, exec (.ashInval h) s = .next t ∧ t.mem = s.mem ∧
      ∀ pa, frameOf pa ∈ ashRange h → sliceOf pa = n → findLine t pa = none) ∧
  (∀ (h : Header) (n : Nat) (s : State), ashAllowed h false = true → nodeBlock h.dst = some (.control n) → h.opArg % 16 = 0 →
    ∃ t, exec (.ashSram h) s = .next t ∧ (tile t n).acc = [] ∧ (tile t n).lead = none ∧ (tile t n).bank0 = {} ∧
      (tile t n).bank1 = {} ∧ sameBytes s t) ∧
  (∀ (h : Header) (n : Nat) (s : State), ashAllowed h false = true → nodeBlock h.dst = some (.control n) → h.opArg % 16 = 1 →
    ∃ t, exec (.ashSram h) s = .next t ∧ tlb t n = [] ∧ sameBytes s t) ∧
  (∀ (h : Header) (n : Nat) (s : State), ashAllowed h false = true → nodeBlock h.dst = some (.site n) → h.opArg % 16 = 2 →
    ∃ t, exec (.ashSram h) s = .next t ∧ (Machine.site t n).slots = [] ∧ sameBytes s t) ∧
  (∀ (h : Header) (s : State), ashAllowed h false = true → (nodeHolders h.dst).isEmpty = false → h.opArg % 256 < 64 →
    ∃ t, exec (.ashXlate h) s = .next t ∧ (∀ x ∈ nodeHolders h.dst, ∀ e ∈ tlb t x, e.ctx ≠ h.opArg % 256) ∧
      ∀ x, x ∉ nodeHolders h.dst → tlb t x = tlb s x) ∧
  (∀ (h : Header) (n : Nat) (s : State), ashAllowed h false = true → nodeBlock h.dst = some (.home n) →
    exec (.ashWays h) s = .next (respondOk h (withdrawWays (some n) (h.opData % 2 ^ 16) none s))) ∧
  (∀ (h : Header) (s : State), ashAllowed h false = false →
    exec (.ashFrames h) s = .next (malformedReject .req h.src false h s) ∧
    exec (.ashSram h) s = .next (malformedReject .req h.src false h s) ∧
    exec (.ashXlate h) s = .next (malformedReject .req h.src false h s) ∧
    exec (.ashWays h) s = .next (malformedReject .req h.src false h s)) ∧
  (∀ (h : Header) (s : State), ashAllowed h true = false →
    exec (.ashInval h) s = .next (malformedReject .req h.src false h s))

/-- R324, R325, R329, R330, R332 to R336, R339, R341, R342: pools and joins, and the events of a round that no transfer brings. -/
def Obligations.KilnPoolsAndRounds : Prop :=
  (∀ (e first n : Nat) (s : State), e < 2 → pageOp s (pageKiln e) = none → pageOp s (pageKiln (1 - e)) = none →
    fld s (pageKiln e) Reg.KILN_POOL_REQ_COUNT = n → 0 < n → first + n ≤ hbmFrames →
    (∀ f ∈ firstInRange first n, (frame s f).state = .free) →
    ∃ t, exec (.kilnPoolAdd e first) s = .next t ∧ kilnPool t e = kilnPool s e ++ firstInRange first n ∧
      fld t (pageKiln e) Reg.OP_CONTROL_RESULT = 3 ∧ ∀ f ∈ firstInRange first n, (frame t f).ctx = 0xFE ∧ (frame t f).state = .owned) ∧
  (∀ (e first n : Nat) (s : State), e < 2 → pageOp s (pageKiln e) = none → pageOp s (pageKiln (1 - e)) = none →
    fld s (pageKiln e) Reg.KILN_POOL_REQ_COUNT = n → 0 < n → first + n ≤ hbmFrames →
    (∀ f ∈ firstInRange first n, f ∈ kilnPool s e) →
    ∃ t, exec (.kilnPoolRemove e first) s = .next t ∧
      kilnPool t e = (kilnPool s e).filter (fun f => !(firstInRange first n).contains f) ∧
      fld t (pageKiln e) Reg.OP_CONTROL_RESULT = 3 ∧
      ∀ f ∈ firstInRange first n, (frame s f).state ≠ .gone → (frame s f).bad = false → (frame t f).ctx = 0xFF ∧ (frame t f).state = .free) ∧
  (∀ (e first : Nat) (s : State), e < 2 → (pageOp s (pageKiln e)).isSome = true →
    exec (.kilnPoolAdd e first) s = .next (opRefused (pageKiln e) s) ∧
    exec (.kilnPoolRemove e first) s = .next (opRefused (pageKiln e) s)) ∧
  (∀ (k i : Nat) (e : Envelope) (body : List Byte) (s : State), windowOpen s k e → joinCheck k body s = .ok i →
    ∃ t slot, exec (.kilnJoin k e body) s = .next t ∧ i ∈ (kround t slot).joined ∧
      (kround t slot).digest = policyDigest (body.take (body.length - 132)) ∧ (ctx t k).inSeq = e.seq) ∧
  (∀ (k n : Nat) (e : Envelope) (body : List Byte) (s : State), windowOpen s k e → joinCheck k body s = .error n →
    ∃ t, exec (.kilnJoin k e body) s = .next t ∧ t.kiln = s.kiln ∧ (ctx t k).outSeq = (ctx s k).outSeq + 1 ∧ sameBytes s t) ∧
  (∀ (k : Nat) (e : Envelope) (head : List Byte) (s : State), windowOpen s k e →
    ∃ t, exec (.kilnQuery k e head) s = .next t ∧ t.kiln = s.kiln ∧ (ctx t k).outSeq = (ctx s k).outSeq + 1 ∧ sameBytes s t) ∧
  (∀ (e slot hub map : Nat) (rest : List KilnCommit) (s : State), e < 2 → slot / 32 = e →
    kilnQueue s e = { slot := slot, pass := none, map := map, hub := hub } :: rest → badInSum s (kround s slot) = none →
    ∃ t, exec (.kilnCommit e) s = .next t ∧ Tab.get [] (kround t slot).staging hub = [] ∧
      (kround t slot).adds = (kround s slot).adds + 1 ∧ (kround t slot).counted = (kround s slot).counted ||| map ∧
      (kround t slot).second = !(kround s slot).second) ∧
  (∀ (e : Nat) (s : State), kilnQueue s e = [] → exec (.kilnCommit e) s = .next s) ∧
  (∀ (slot : Nat) (s : State), (kround s slot).handle ≠ 0 → (kround s slot).st = 3 → badInSum s (kround s slot) = none →
    ∃ t, exec (.kilnNoiseDone slot) s = .next t ∧ (kround t slot).st = 4 ∧ (kround t slot).second = !(kround s slot).second ∧
      t.fresh = s.fresh + 1) ∧
  (∀ (slot : Nat) (s : State), (kround s slot).handle ≠ 0 → (kround s slot).st = 0 → (kround s slot).due = false →
    ∃ t, exec (.kilnDeadline slot) s = .next t ∧ (kround t slot).st = 5 ∧ (kround t slot).cause = 1 ∧ (kround t slot).due = true) ∧
  (∀ (slot : Nat) (s : State), (kround s slot).handle ≠ 0 → (kround s slot).st = 1 → (kround s slot).due = false →
    isLead s (kround s slot) = false →
    ∃ t, exec (.kilnDeadline slot) s = .next t ∧ (kround t slot).st = 5 ∧ (kround t slot).cause = 1) ∧
  (∀ (slot : Nat) (s : State), (kround s slot).handle ≠ 0 →
    ∃ t, exec (.kilnMargin slot) s = .next t ∧ (kround t slot).margin = true ∧ sameBytes s t) ∧
  (∀ (slot : Nat) (s : State), (kround s slot).handle ≠ 0 → (kround s slot).st = 2 → (kround s slot).due = true →
    ∃ t, exec (.kilnWaitExpiry slot) s = .next t ∧ (kround t slot).st = 5 ∧ (kround t slot).cause = 1) ∧
  (∀ (slot : Nat) (s : State), (kround s slot).st ≠ 2 → exec (.kilnWaitExpiry slot) s = .next s) ∧
  (∀ (slot : Nat) (s : State), (kround s slot).handle ≠ 0 → (kround s slot).st = 4 →
    ∃ t, exec (.kilnRetainExpiry slot) s = .next t ∧ (kround t slot).st = 5 ∧ (kround t slot).cause = 0) ∧
  (∀ (slot : Nat) (s : State), (kround s slot).handle ≠ 0 → (kround s slot).st < 2 →
    ∃ t, exec (.kilnSigResend slot) s = .next t ∧ (kround t slot).sigs = (kround s slot).sigs ∧
      (kround t slot).joined = (kround s slot).joined ∧ sameBytes s t) ∧
  (∀ (slot : Nat) (s : State), 2 ≤ (kround s slot).st → exec (.kilnSigResend slot) s = .next s) ∧
  (∀ (slot : Nat) (s : State), (kround s slot).handle ≠ 0 → (kround s slot).st = 5 →
    ∃ t, exec (.kilnRoundAshDone slot) s = .next t ∧ kround t slot = noRound ∧
      kilnPool t (slot / 32) = kilnPool s (slot / 32) ++ (kround s slot).frames)

/-- R331 to R336, R341: what each kiln transfer does at the round it names. -/
def Obligations.KilnTransfers : Prop :=
  (∀ (h : Header) (u : Unit256) (slot hub : Nat) (s : State), kilnFrom s h slot hub → (kround s slot).st = 0 →
    leAt u.bytes 0 1 < polParties (kround s slot).policy →
    Config.ecdsaVerify (polParty (kround s slot).policy (leAt u.bytes 0 1)).key (leBytes 64 (kround s slot).digest)
      (slice u.bytes 4 132) = true →
    ∃ t, exec (.klnSig h [u]) s = .next t ∧ Tab.get [] (kround t slot).sigs (leAt u.bytes 0 1) = slice u.bytes 4 132) ∧
  (∀ (h : Header) (us : List Unit256) (u : Unit256) (slot hub : Nat) (s : State), kilnFrom s h slot hub → (kround s slot).st = 0 →
    u ∈ us → Config.ecdsaVerify (polParty (kround s slot).policy (leAt u.bytes 0 1)).key (leBytes 64 (kround s slot).digest)
      (slice u.bytes 4 132) = false →
    ∃ t, exec (.klnSig h us) s = .next t ∧ (kround t slot).st = 5 ∧ (kround t slot).cause = 2) ∧
  (∀ (h : Header) (slot hub : Nat) (s : State), kilnFrom s h slot hub → (kround s slot).st ≠ 5 →
    ∃ t, exec (.klnOpen h) s = .next t ∧ hub ∈ (kround t slot).opened) ∧
  (∀ (h : Header) (us : List Unit256) (slot hub : Nat) (s : State), kilnFrom s h slot hub → (kround s slot).st = 1 →
    isLead s (kround s slot) = true → Tab.get [] (kround s slot).staging hub ≠ [] →
    ∃ t, exec (.klnPart h us) s = .next t ∧ Tab.get [] (kround t slot).staging hub = Tab.get [] (kround s slot).staging hub ∧
      t.mem = (writeBuf (Tab.get [] (kround s slot).staging hub) h.addr (unitData us) (setRound slot { kround s slot with
        staging := Tab.put [] (kround s slot).staging hub (Tab.get [] (kround s slot).staging hub) } s)).mem) ∧
  (∀ (h : Header) (us : List Unit256) (slot hub : Nat) (s : State), kilnFrom s h slot hub → (kround s slot).st = 1 →
    isLead s (kround s slot) = true → (kround s slot).staging = [] →
    polFrames (kround s slot).policy ≤ (kilnPool s (slot / 32)).length →
    ∃ t, exec (.klnPart h us) s = .next t ∧
      Tab.get [] (kround t slot).staging hub = (kilnPool s (slot / 32)).take (polFrames (kround s slot).policy) ∧
      kilnPool t (slot / 32) = (kilnPool s (slot / 32)).drop (polFrames (kround s slot).policy)) ∧
  (∀ (h : Header) (slot hub : Nat) (s : State), kilnFrom s h slot hub → (kround s slot).st = 1 →
    isLead s (kround s slot) = true → Tab.get [] (kround s slot).staging hub ≠ [] →
    (∀ i ∈ setBits h.opData 64, i < polParties (kround s slot).policy ∧ (polParty (kround s slot).policy i).hub = hub) →
    ∃ t, exec (.klnPartEnd h) s = .next t ∧ t.mem = s.mem ∧
      kilnQueue t (slot / 32) = kilnQueue s (slot / 32) ++ [{ slot := slot, pass := none, map := h.opData, hub := hub }]) ∧
  (∀ (h : Header) (us : List Unit256) (slot : Nat) (s : State), kilnFrom s h slot (polLead (kround s slot).policy) →
    ((kround s slot).st = 1 ∨ (kround s slot).st = 2) →
    ∃ t, exec (.klnRel h us) s = .next t ∧ t.kiln = s.kiln ∧
      t.mem = (writeBuf (kround s slot).idle h.addr (unitData us) s).mem) ∧
  (∀ (h : Header) (slot : Nat) (s : State), kilnFrom s h slot (polLead (kround s slot).policy) →
    ((kround s slot).st = 1 ∨ (kround s slot).st = 2) →
    ∃ t, exec (.klnRelEnd h) s = .next t ∧ (kround t slot).st = 4 ∧ (kround t slot).second = !(kround s slot).second ∧
      (kround t slot).counted &&& (kround s slot).counted = (kround s slot).counted) ∧
  (∀ (h : Header) (slot : Nat) (s : State), kilnFrom s h slot (polLead (kround s slot).policy) → h.opData % 4 < 2 →
    (kround s slot).st ≠ 5 →
    ∃ t, exec (.klnNotice h) s = .next t ∧ (kround t slot).st = 5 ∧ (kround t slot).cause = 3) ∧
  (∀ (h : Header) (us : List Unit256) (s : State), roundOfHead s h.inlineData = none →
    exec (.klnSig h us) s = .next (kilnDiscard none s) ∧ exec (.klnOpen h) s = .next (kilnDiscard none s) ∧
    exec (.klnPart h us) s = .next (kilnDiscard none s) ∧ exec (.klnPartEnd h) s = .next (kilnDiscard none s) ∧
    exec (.klnRel h us) s = .next (kilnDiscard none s) ∧ exec (.klnRelEnd h) s = .next (kilnDiscard none s) ∧
    exec (.klnNotice h) s = .next (kilnDiscard none s))

/-- R347 to R352, R365: what a flit does at the hub's end of a site's link. -/
def Obligations.FlitsOfGuestSites : Prop :=
  (∀ (n : Nat) (f : Flit) (s u : State), linkUp s n = true → f.crcOk = true → takeReturns n f s = (u, true) →
    exec (.idle n f) s = .next u) ∧
  (∀ (n : Nat) (f : Flit) (s u : State), linkUp s n = true → f.crcOk = true → takeReturns n f s = (u, false) →
    ∃ t, exec (.idle n f) s = .next t ∧ siteLink t n = 9 ∧ fld t (pageSite n) Reg.SITE_STATE_FENCE_CAUSE = 0xB) ∧
  (∀ (n clock : Nat) (f : Flit) (s u : State), siteRuns s n = true → siteLink s n ≠ 6 → f.crcOk = true → takeReturns n f s = (u, true) →
    f.seq = (site s n).rxNext → f.validSlots ≠ 0 →
    ((site s n).slots ++ slice f.payload 0 (16 * (f.validSlots % 16))).length < 64 →
    ∃ t, exec (.packet n clock f) s = .next t ∧ (site t n).rxNext = (f.seq + 1) % 4096 ∧ (site t n).naking = false ∧
      (site t n).slots = (site s n).slots ++ slice f.payload 0 (16 * (f.validSlots % 16)) ∧ sameBytes s t) ∧
  (∀ (n clock : Nat) (f : Flit) (b : List Byte) (h : Header) (s u v : State), siteRuns s n = true → siteLink s n ≠ 6 → f.crcOk = true →
    takeReturns n f s = (u, true) → f.seq = (site s n).rxNext → f.validSlots ≠ 0 →
    b = (site s n).slots ++ slice f.payload 0 (16 * (f.validSlots % 16)) → 64 ≤ b.length → packetBytes h ≤ b.length →
    h = { decodeHeader b with issueTs := clock % 65536 } →
    v = setSite n { site u n with rxNext := (f.seq + 1) % 4096, naking := false, replays := 0, slots := b.drop (packetBytes h) } u →
    ∃ t, exec (.packet n clock f) s = .next t ∧
      t = parsePackets n clock 15 (guestPacket n h (decodeUnits h h.len (b.drop 64)) v)) ∧
  (∀ (n clock : Nat) (f : Flit) (s u : State), linkUp s n = true → f.crcOk = true → takeReturns n f s = (u, true) →
    f.seq ≠ (site s n).rxNext →
    (∃ t, exec (.packet n clock f) s = .next t ∧ (site t n).naking = true ∧ (site t n).rxNext = (site s n).rxNext ∧ sameBytes s t) ∧
    (∃ t, exec (.mgmt n f) s = .next t ∧ (site t n).naking = true ∧ (site t n).rxNext = (site s n).rxNext ∧ sameBytes s t)) ∧
  (∀ (n clock : Nat) (f : Flit) (s : State), linkUp s n = true → f.crcOk = false → (site s n).naking = false →
    exec (.packet n clock f) s = exec (.idle n f) s ∧ exec (.mgmt n f) s = exec (.idle n f) s ∧
    ∃ t, exec (.idle n f) s = .next t ∧ (site t n).naking = true ∧ (site t n).rxNext = (site s n).rxNext) ∧
  (∀ (n clock : Nat) (f : Flit) (s u : State), linkUp s n = true → f.crcOk = true → takeReturns n f s = (u, true) →
    f.seq = (site s n).rxNext → f.validSlots = 0 →
    ∃ t, exec (.packet n clock f) s = .next t ∧ siteLink t n = 9 ∧ fld t (pageSite n) Reg.SITE_STATE_FENCE_CAUSE = 0xB) ∧
  (∀ (n len : Nat) (f : Flit) (s u : State), linkUp s n = true → f.crcOk = true → takeReturns n f s = (u, true) →
    f.seq = (site s n).rxNext → (site s n).msg = none → leAt f.payload 1 1 % 4 = 1 → leAt f.payload 2 2 = len → 0 < len → len ≤ 236 →
    ∃ t, exec (.mgmt n f) s = .next t ∧ (site t n).msg = some (leAt f.payload 0 1, slice f.payload 4 len) ∧
      (site t n).rxNext = (f.seq + 1) % 4096) ∧
  (∀ (n len : Nat) (f : Flit) (s u : State), linkUp s n = true → f.crcOk = true → takeReturns n f s = (u, true) →
    f.seq = (site s n).rxNext → (site s n).msg = none → leAt f.payload 1 1 % 4 = 3 → leAt f.payload 2 2 = len → 0 < len → len ≤ 236 →
    exec (.mgmt n f) s = .next (mgmtMessage n (leAt f.payload 0 1) (slice f.payload 4 len)
      (setSite n { site u n with rxNext := (f.seq + 1) % 4096, naking := false, replays := 0, msg := none } u))) ∧
  (∀ (n : Nat) (s : State), linkUp s n = true → (site s n).ackDue = true →
    ∃ t, exec (.kppAckTimer n) s = .next t ∧ (site t n).ackDue = false ∧ t.regs = s.regs ∧
      t.out = .kpp n 0x102 [((site s n).rxNext + 4095) % 4096] [] :: s.out) ∧
  (∀ (n : Nat) (s : State), linkUp s n = true → ((site s n).retrains.filter (fun t => decide (nowNs s < t + 1000000000))).length < 3 →
    ∃ t, exec (.kppRetrain n) s = .next t ∧ siteLink t n = siteLink s n ∧
      (site t n).retrains = nowNs s :: (site s n).retrains.filter (fun t => decide (nowNs s < t + 1000000000))) ∧
  (∀ (n : Nat) (s : State), linkUp s n = true → 3 ≤ ((site s n).retrains.filter (fun t => decide (nowNs s < t + 1000000000))).length →
    ∃ t, exec (.kppRetrain n) s = .next t ∧ siteLink t n = 9 ∧ fld t (pageSite n) Reg.SITE_STATE_FENCE_CAUSE = 0xC)

/-- R353 to R364, R371, R372: the messages a guest sends. -/
def Obligations.GuestMessages : Prop :=
  (∀ (n : Nat) (b : List Byte) (s : State), n < 8 → siteLink s n = 3 → helloOk s b = true → leAt b 6 2 ≤ siteGbs s n →
    ∃ t, exec (.hello n b) s = .next t ∧ siteLink t n = 4 ∧ fld t (pageSite n) Reg.SITE_DECL0_CLASSES = leAt b 2 1 ∧
      fld t (pageSite n) Reg.SITE_DECL0_MIN_GBS = leAt b 6 2 ∧ (site t n).drunteClasses = leAt b 24 8 ∧
      (site t n).why = .bringUp ∧ (site t n).step = 1) ∧
  (∀ (n : Nat) (b : List Byte) (s : State), n < 8 → siteLink s n = 3 → helloOk s b = false →
    ∃ t, exec (.hello n b) s = .next t ∧ siteLink t n = 0 ∧ bindState t (pageSite n) = 5 ∧ fld t (pageSite n) Reg.SITE_OP_REASON = 4) ∧
  (∀ (n : Nat) (b : List Byte) (s : State), linkUp s n = true → 5 ≤ siteLink s n →
    ∃ t, exec (.hello n b) s = .next t ∧ siteLink t n = 9 ∧ fld t (pageSite n) Reg.SITE_STATE_FENCE_CAUSE = 0xB) ∧
  (∀ (n : Nat) (s : State), linkUp s n = true → (site s n).why ≠ .none → (site s n).step = 1 →
    ∃ t, exec (.spdm n (.version true)) s = .next t ∧ (site t n).step = 2 ∧ (site t n).why = (site s n).why ∧ t.regs = s.regs) ∧
  (∀ (n : Nat) (blocks sig : List Byte) (s : State), linkUp s n = true → (site s n).why = .bringUp → (site s n).step = 6 →
    (site s n).chain ≠ [] → Config.ecdsaVerify (Config.chainKey (site s n).chain) ((site s n).nonce ++ blocks) sig = true →
    ∃ t, exec (.spdm n (.measurements blocks sig)) s = .next t ∧ siteLink t n = 5 ∧ bindState t (pageSite n) = 0 ∧
      fld t (pageSite n) Reg.SITE_STATE_ATTESTED = 1 ∧ fld t (pageSite n) Reg.PAGE_STATUS_IN_SERVICE = 1 ∧ (site t n).why = .none) ∧
  (∀ (n : Nat) (s : State), linkUp s n = true → (site s n).why = .op → (site s n).step = 1 →
    ∃ t, exec (.spdm n (.version false)) s = .next t ∧ (site t n).why = .none ∧ siteLink t n = siteLink s n ∧
      fld t (pageSite n) Reg.SITE_STATE_ATTESTED = 0 ∧ fld t (pageSite n) (Reg.SITE_MEAS.at 8 7) = 0) ∧
  (∀ (n gen : Nat) (s : State), n < 8 → siteLink s n = 6 → (site s n).why = .none →
    gen = fld s (pageSite n) Reg.SITE_STATE_CLEAR_GEN →
    ∃ t, exec (.clearDone n gen) s = .next t ∧ (site t n).why = .clear ∧ (site t n).step = 5 ∧ siteLink t n = 6) ∧
  (∀ (n gen : Nat) (s : State), linkUp s n = true → siteLink s n ≠ 6 → exec (.clearDone n gen) s = .next (kppDrop n s)) ∧
  (∀ (n : Nat) (s : State), linkUp s n = true → siteLink s n ≠ 6 → (site s n).pausing = true →
    ∃ t, exec (.paused n) s = .next t ∧ siteLink t n = 7 ∧ (site t n).pausing = false ∧ sameFields [(pageSite n, Reg.SITE_STATE_LINK)] s t) ∧
  (∀ (n id : Nat) (s : State), linkUp s n = true → siteLink s n ≠ 6 → id ∈ (site s n).pieces.map (fun e => e.1) →
    exec (.pieceBeat n id) s = .next s) ∧
  (∀ (n id : Nat) (s : State), linkUp s n = true → siteLink s n ≠ 6 → id ∉ (site s n).pieces.map (fun e => e.1) →
    exec (.pieceBeat n id) s = .next (kppDrop n s)) ∧
  (∀ (n id pid q : Nat) (nf sat : Option (Nat × Nat)) (p : Pass) (s : State), linkUp s n = true → siteLink s n ≠ 6 →
    (site s n).pieces.find? (fun e => e.1 == id) = some (id, pid, q) → pass s pid = some p → p.computed = false →
    ∃ t, exec (.pieceDone n id 0 nf sat []) s = .next t ∧ (site t n).pieces = (site s n).pieces.filter (fun e => e.1 != id) ∧
      pass t pid = some (mergePiece (setPiece p q (fun c => { c with state := .done })) nf sat [])) ∧
  (∀ (n id pid q : Nat) (p : Pass) (s : State), linkUp s n = true → siteLink s n ≠ 6 →
    (site s n).pieces.find? (fun e => e.1 == id) = some (id, pid, q) → pass s pid = some p → p.computed = false →
    p.unrepeatable = false → (addNew p.failed (64 + n)).length < 3 →
    ∃ t, exec (.pieceDone n id 1 none none []) s = .next t ∧
      pass t pid = some (setPiece { p with failed := addNew p.failed (64 + n) } q (fun c => { c with state := .waiting, reissue := true }))) ∧
  (∀ (n d : Nat) (r : GuestRead) (rest : List GuestRead) (s : State), linkUp s n = true → siteLink s n ≠ 6 →
    (site s n).regReads = r :: rest →
    ∃ t, exec (.regRsp n (some d)) s = .next t ∧ (site t n).regReads = rest ∧
      t.out = .regData r.fn (pageSite n) (0x8000 + r.off) (d % 2 ^ (8 * r.width)) :: s.out) ∧
  (∀ (n v : Nat) (s : State), linkUp s n = true → siteLink s n ≠ 6 → (site s n).pwrWait = some v →
    ∃ t, exec (.pwrAck n v) s = .next t ∧ (site t n).pwrWait = none ∧ (site t n).l1 = (v == 1) ∧ t.regs = s.regs) ∧
  (∀ (n code : Nat) (s : State), linkUp s n = true → siteLink s n ≠ 6 →
    (∃ t, exec (.kppError n 1 code) s = .next t ∧ siteLink t n = 9 ∧ fld t (pageSite n) Reg.SITE_STATE_FENCE_CAUSE = 0xD) ∧
    (∃ t, exec (.kppError n 0 code) s = .next t ∧ siteLink t n = siteLink s n ∧ t.sites = s.sites)) ∧
  (∀ (n id status code : Nat) (v : Nat) (d : Option Nat) (nf sat : Option (Nat × Nat)) (hist : List Nat) (s : State), n < 8 →
    siteLink s n = 6 →
    exec (.paused n) s = .next (kppDrop n s) ∧ exec (.pieceBeat n id) s = .next (kppDrop n s) ∧
    exec (.pieceDone n id status nf sat hist) s = .next (kppDrop n s) ∧ exec (.regRsp n d) s = .next (kppDrop n s) ∧
    exec (.pwrAck n v) s = .next (kppDrop n s) ∧ exec (.kppError n status code) s = .next (kppDrop n s))

/-- R29, R357 to R370: register accesses to a guest, and what fences its site. -/
def Obligations.SiteRegistersAndBounds : Prop :=
  (∀ (fn n off width data : Nat) (s : State), n < 8 → off < 0x8000 → (width = 4 ∨ width = 8) → off % width = 0 →
    (bindState s (pageSite n) ≠ 1 ∨ fld s (pageSite n) Reg.BINDING_SEALED = 0) → (siteLink s n = 5 ∨ siteLink s n = 7) →
    (∃ t, exec (.guestRegAccess fn n off width false data) s = .next t ∧ (site t n).regReads = (site s n).regReads ++ [⟨fn, off, width⟩]) ∧
    (∃ t, exec (.guestRegAccess fn n off width true data) s = .next t ∧ (site t n).regReads = (site s n).regReads ∧
      t.out = .regDone fn (pageSite n) (0x8000 + off) :: .kpp n 0xE [off, width, data % 2 ^ (8 * width)] [] :: s.out)) ∧
  (∀ (fn n off width data : Nat) (write : Bool) (s : State), n < 8 → off < 0x8000 → (width = 4 ∨ width = 8) → off % width = 0 →
    bindState s (pageSite n) = 1 → fld s (pageSite n) Reg.BINDING_SEALED = 1 →
    ∃ t, exec (.guestRegAccess fn n off width write data) s = .next t ∧ t.sites = s.sites ∧
      t.out = (if write then .regDone fn (pageSite n) (0x8000 + off) else .regData fn (pageSite n) (0x8000 + off) 0) :: s.out ∧
      sameFields [(pageSite n, Reg.SITE_STATUS_REG_BLOCKED)] s t) ∧
  (∀ (n : Nat) (r : GuestRead) (rest : List GuestRead) (s : State), n < 8 → (site s n).regReads = r :: rest →
    ∃ t, exec (.guestRegTimeout n) s = .next t ∧ (site t n).regReads = rest ∧ fld t (pageSite n) Reg.SITE_STATUS_REG_TIMEOUT = 1 ∧
      t.out = .regData r.fn (pageSite n) (0x8000 + r.off) (2 ^ (8 * r.width) - 1) :: s.out) ∧
  (∀ (n : Nat) (s : State), n < 8 → siteLink s n = 5 → (site s n).pieces ≠ [] →
    ∃ t, exec (.pieceBeatTimeout n) s = .next t ∧ siteLink t n = 9 ∧ fld t (pageSite n) Reg.SITE_STATE_FENCE_CAUSE = 9 ∧
      bindState t (pageSite n) = 5 ∧ fld t (pageSite n) Reg.PAGE_STATUS_FENCED = 1) ∧
  (∀ (n : Nat) (s : State), siteRuns s n = true → (site s n).pausing = true →
    ∃ t, exec (.stopBoundTimeout n) s = .next t ∧ siteLink t n = 9 ∧ fld t (pageSite n) Reg.SITE_STATE_FENCE_CAUSE = 8 ∧
      bindState t (pageSite n) = 5) ∧
  (∀ (n : Nat) (s : State), n < 8 → siteLink s n = 6 →
    ∃ t, exec (.clearBoundTimeout n) s = .next t ∧ siteLink t n = 9 ∧ fld t (pageSite n) Reg.SITE_STATE_FENCE_CAUSE = 7 ∧
      bindState t (pageSite n) = 5) ∧
  (∀ (n : Nat) (s : State), railOn s n = true →
    ∃ t, exec (.siteOvercurrent n) s = .next t ∧ siteLink t n = 9 ∧ fld t (pageSite n) Reg.SITE_STATE_FENCE_CAUSE = 1 ∧
      bindState t (pageSite n) = 5 ∧ fld t (pageSite n) Reg.SITE_RAIL_STATUS_RAIL_GOOD = 0) ∧
  (∀ (n : Nat) (s : State), railOn s n = true → (site s n).ramping = false →
    ∃ t, exec (.siteUndervoltage n) s = .next t ∧ siteLink t n = 9 ∧ fld t (pageSite n) Reg.SITE_STATE_FENCE_CAUSE = 2 ∧
      bindState t (pageSite n) = 5) ∧
  (∀ (n : Nat) (s : State), (site s n).ramping = true → exec (.siteUndervoltage n) s = .next s) ∧
  (∀ (n : Nat) (s : State), linkUp s n = true → (site s n).why = .op →
    ∃ t, exec (.spdmTimeout n) s = .next t ∧ (site t n).why = .none ∧ fld t (pageSite n) Reg.SITE_STATE_ATTESTED = 0 ∧
      siteLink t n = siteLink s n) ∧
  (∀ (n : Nat) (s : State), n < 8 → 1 ≤ siteLink s n → siteLink s n ≤ 3 →
    ∃ t, exec (.siteStartTimeout n) s = .next t ∧ siteLink t n = 0 ∧ bindState t (pageSite n) = 5 ∧
      fld t (pageSite n) Reg.SITE_OP_REASON = 5)

/-- R28, R361 to R372: the operations of a site's page, its lanes and its rail. -/
def Obligations.SiteOperations : Prop :=
  (∀ (n m dir lane : Nat) (s : State), linkUp s n = true → m < 4 → dir < 2 → lane < 64 →
    tst (fld s (pageSite n) Reg.SITE_STATE_LIVE_HALVES) (2 * m + lane / 32) = true → (site s n).spares.getD (2 * m + dir) 0 < 4 →
    ((site s n).retrains.filter (fun t => decide (nowNs s < t + 1000000000))).length < 3 →
    ∃ t, exec (.laneFailure n m dir lane) s = .next t ∧ siteLink t n = siteLink s n ∧
      (site t n).spares.getD (2 * m + dir) 0 = (site s n).spares.getD (2 * m + dir) 0 + 1 ∧
      fld t (pageSite n) (Reg.LANE_STATUS_RECHOSEN.up (8 * m)) = 1) ∧
  (∀ (n m dir lane : Nat) (s : State), tst (fld s (pageSite n) Reg.SITE_STATE_LIVE_HALVES) (2 * m + lane / 32) = false →
    exec (.laneFailure n m dir lane) s = .next s) ∧
  (∀ (n : Nat) (s : State), n < 8 → pageOp s (pageSite n) = none → (bindState s (pageSite n) = 0 ∨ bindState s (pageSite n) = 5) →
    fld s (pageSite n) Reg.SITE_STATE_OTP_STATE = 1 → fld s (pageSite n) Reg.SITE_STATE_REPAIR_VALID = 1 →
    ∃ t, exec (.siteReturn n true) s = .next t ∧ siteLink t n = 1 ∧ (site t n).ramping = true ∧
      fld t (pageSite n) Reg.OP_CONTROL_RESULT = 2 ∧ fld t (pageSite n) Reg.SITE_OP_REASON = 0) ∧
  (∀ (n : Nat) (s : State), n < 8 → pageOp s (pageSite n) = none → (bindState s (pageSite n) = 0 ∨ bindState s (pageSite n) = 5) →
    ∃ t, exec (.siteReturn n false) s = .next t ∧ siteLink t n = 0 ∧ bindState t (pageSite n) = 5 ∧
      fld t (pageSite n) Reg.OP_CONTROL_RESULT = 4 ∧ fld t (pageSite n) Reg.SITE_OP_REASON = 1) ∧
  (∀ (n : Nat) (force : Bool) (s : State), n < 8 → startFate s (pageSite n) true force = .starts →
    ∃ t, exec (.siteAttest n force) s = .next t ∧ (site t n).why = .op ∧ (site t n).step = 1 ∧
      fld t (pageSite n) Reg.OP_CONTROL_RESULT = 2) ∧
  (∀ (n : Nat) (force : Bool) (modes spares : List Nat) (rechosen : Nat) (s : State), n < 8 → pageOp s (pageSite n) = none →
    startFate s (pageSite n) true force = .starts →
    ∃ t, exec (.siteLaneCheck n force modes spares rechosen) s = .next t ∧ bindState t (pageSite n) = 4 ∧
      fld t (pageSite n) Reg.OP_CONTROL_RESULT = 2) ∧
  (∀ (n : Nat) (force : Bool) (modes spares : List Nat) (rechosen : Nat) (o : PageOp) (s : State), n < 8 →
    pageOp s (pageSite n) = some o → o.op = 7 → o.queued = false →
    (List.zip (laneModes s n) modes).any (fun e => modeHalves e.1 &&& modeHalves e.2 != modeHalves e.1) = false →
    ∃ t, exec (.siteLaneCheck n force modes spares rechosen) s = .next t ∧ bindState t (pageSite n) = 0 ∧
      fld t (pageSite n) Reg.OP_CONTROL_RESULT = 3 ∧ (site t n).spares = spares.map (min 4)) ∧
  (∀ (n : Nat) (force : Bool) (o : PageOp) (s : State), n < 8 → pageOp s (pageSite n) = some o →
    exec (.siteReturn n true) s = .next (opRefused (pageSite n) s) ∧ exec (.siteAttest n force) s = .next (opRefused (pageSite n) s)) ∧
  (∀ (n mv : Nat) (s : State), n < 8 → siteLink s n = 1 → (site s n).ramping = true →
    ∃ t, exec (.siteRailGood n mv) s = .next t ∧ (site t n).ramping = false ∧ fld t (pageSite n) Reg.SITE_RAIL_STATUS_RAIL_GOOD = 1 ∧
      t.out = .pin (pinRailGood n) true :: s.out) ∧
  (∀ (n : Nat) (s : State), n < 8 → siteLink s n = 1 → fld s (pageSite n) Reg.SITE_RAIL_STATUS_RAIL_GOOD = 1 →
    ∃ t, exec (.siteResetRelease n) s = .next t ∧ (site t n).released = true ∧ t.regs = s.regs ∧
      t.out = .pin (pinSiteReset n) true :: s.out) ∧
  (∀ (n : Nat) (s : State), n < 8 → ∃ t, exec (.gsTherm n) s = .next t ∧ (site t n).therm = (site s n).therm + 1 ∧
    sameFields (irqPlaces (pageSite n)) s t) ∧
  (∀ (n : Nat) (s : State), n < 8 → siteLink s n = 5 → bindState s (pageSite n) = 0 →
    flag s (pageSite n) Reg.SITE_CFG_IDLE_MS = true → (site s n).l1 = false → (site s n).pwrWait = none →
    ∃ t, exec (.siteIdle n) s = .next t ∧ (site t n).pwrWait = some 1 ∧ t.regs = s.regs ∧
      t.out = .kpp n 0x10 [1] [] :: s.out)

/-- R380 to R394: what comes in from the host, and its answers. -/
def Obligations.HostInboundRequests : Prop :=
  (∀ (bus fn tag off data be : Nat) (s : State), fld s hostPage Reg.HOST_IDE_REQUIRE = 0 → fnExists s fn = true → retries s fn = false →
    exec (.configRequest none bus fn tag off false data be) s = .next (complete fn tag 0 (leBytes 4 (cfgRead s fn (off % 4096 / 4 * 4))) s)) ∧
  (∀ (bus tag data be : Nat) (s : State), fld s hostPage Reg.HOST_IDE_REQUIRE = 0 → retries s 0 = false →
    ∃ t, exec (.configRequest none bus 0 tag 4 true data be) s = .next t ∧
      cfgDw t 0 4 = mergeDw (cfgDw s 0 4) (data % 2 ^ 32) be &&& 0x146 ∧ t.host.bus = bus % 256 ∧ t.regs = s.regs ∧ sameBytes s t) ∧
  (∀ (bus fn tag off data be : Nat) (write : Bool) (s : State), fld s hostPage Reg.HOST_IDE_REQUIRE = 0 → fnExists s fn = true →
    retries s fn = true → exec (.configRequest none bus fn tag off write data be) s = .next (complete fn tag 2 [] s)) ∧
  (∀ (bus fn tag off data be : Nat) (write : Bool) (s : State), fnExists s fn = false →
    exec (.configRequest none bus fn tag off write data be) s = .next (answerUr fn tag s)) ∧
  (∀ (i bus fn tag off data be : Nat) (write : Bool) (s : State), streamSecure s i = false →
    exec (.configRequest (some i) bus fn tag off write data be) s = .next (count hostPage Reg.HOST_ERRS_IDE_DROPPED 1 s)) ∧
  (∀ (tag off len : Nat) (d : List Byte) (s : State), fld s hostPage Reg.HOST_IDE_REQUIRE = 0 → memEnable s 0 = true → inD3 s = false →
    off + len ≤ bar2Bytes s →
    physRead 0 s (granuleParts (fld s hostPage Reg.HOST_APERTURE_BASE * 2 ^ 21 + off) len) = .ok d →
    ∃ t, exec (.pf0ApertureAccess none tag off false len [] []) s = .next t ∧ t.out = .completion 0 tag 0 d :: s.out ∧ sameBytes s t) ∧
  (∀ (tag off : Nat) (data : List Byte) (en : List Bool) (s : State), fld s hostPage Reg.HOST_IDE_REQUIRE = 0 → memEnable s 0 = true →
    inD3 s = false → off + data.length ≤ bar2Bytes s →
    ∃ t, exec (.pf0ApertureAccess none tag off true 0 data en) s = .next t ∧ t.host = s.host ∧
      t = physWrite 0 (granuleParts (fld s hostPage Reg.HOST_APERTURE_BASE * 2 ^ 21 + off) data.length) data en s) ∧
  (∀ (tag off len : Nat) (en : List Bool) (s : State), bar2Bytes s < off + len →
    exec (.pf0ApertureAccess none tag off false len [] en) s = .next (answerUr 0 tag s)) ∧
  (∀ (fn tag off len : Nat) (d : List Byte) (s : State), fld s hostPage Reg.HOST_IDE_REQUIRE = 0 → fn ≠ 0 → fnExists s fn = true →
    memEnable s fn = true → off + len ≤ 2 ^ 36 → 0 < ctxState s fn → ctxState s fn < 5 → (ctx s fn).flrPending = false →
    vread s 86 fn (fld s (pageWin fn 0) Reg.APERTURE_BASE * 2 ^ 21 + off) len = .ok d →
    ∃ t, exec (.vfApertureAccess none fn tag off false len [] []) s = .next t ∧ t.out.head? = some (.completion fn tag 0 d)) ∧
  (∀ (fn tag off : Nat) (data : List Byte) (s u : State), fld s hostPage Reg.HOST_IDE_REQUIRE = 0 → fn ≠ 0 → fnExists s fn = true →
    memEnable s fn = true → off + data.length ≤ 2 ^ 36 → 0 < ctxState s fn → ctxState s fn < 5 → (ctx s fn).flrPending = false →
    writeUnits 86 fn [(fld s (pageWin fn 0) Reg.APERTURE_BASE * 2 ^ 21 + off, data)] s = .ok u →
    exec (.vfApertureAccess none fn tag off true 0 data []) s = .next u) ∧
  (∀ (fn tag : Nat) (s : State), exec (.inboundUnsupported fn tag .io) s = .next (answerUr fn tag s) ∧
    exec (.inboundUnsupported fn tag .atomicOp) s = .next (answerUr fn tag s) ∧
    exec (.inboundUnsupported fn tag (.outside false)) s = .next (answerUr fn tag s) ∧
    exec (.inboundUnsupported fn tag .vendorMessage) s = .next s ∧
    ∃ t, exec (.inboundUnsupported fn tag .poisonedWrite) s = .next t ∧ tst (cfgDw t 0 0x104) 12 = true ∧ sameBytes s t) ∧
  (∀ (delay : Nat) (s : State), tst (cfgDw s 0 0x2B8) 0 = true → (timeState s = 2 ∨ timeState s = 3) →
    ∃ t, exec (.ptmRequest delay) s = .next t ∧ t.time = s.time ∧
      t.out = .answer 0x2B0 2 (leBytes 8 (nowNs s % 2 ^ 64) ++ leBytes 4 delay) :: s.out)

/-- R385, R398, R403: requests at a peat port. -/
def Obligations.PeatAccesses : Prop :=
  (∀ (port : Nat) (h h' : Header) (s : State), h' = { h with opcode := 0x20 } → h.xlated = true → isPeat h.addr = true →
    peatPort h.addr = port % 4 → allowed s h.ctx h.addr = true →
    (∀ i ∈ setBits (h.opArg % 256) 8, isBad s (h.addr / 256 * 256 + 32 * i) = false) →
    ∃ t, exec (.ptRd port h .clean) s = .next t ∧ t.mem = s.mem ∧
      t = respond h' 0 [{ bytes := memSectors s (h.addr / 256 * 256) (h.opArg % 256) 8 }]
        (emit (.cxlReq (port % 4) false h.addr [] 256) s)) ∧
  (∀ (port : Nat) (h : Header) (us : List Unit256) (s : State), h.xlated = true →
    isPeat h.addr = true → peatPort h.addr = port % 4 → allowed s h.ctx h.addr = true →
    ∃ t, exec (.ptWr port h us .clean) s = .next t ∧
      t.mem = (peatWrite h.ctx (h.addr / 256 * 256) (slice (us.headD {}).bytes 0 256) ((us.headD {}).be.getD [])
        (emit (.cxlReq (port % 4) true h.addr (slice (us.headD {}).bytes 0 256) 256) s)).1.mem) ∧
  (∀ (port : Nat) (h h' : Header) (s : State), h' = { h with opcode := 0x22 } → h.xlated = true → isPeat h.addr = true →
    peatPort h.addr = port % 4 → allowed s h.ctx h.addr = true → isBad s (h.addr / 32 * 32) = false →
    ∃ t, exec (.ptRdNarrow port h .clean) s = .next t ∧ t.mem = s.mem ∧
      t.out = .response { reply h' 0 0 with inlineData := memSectors s (h.addr / 32 * 32) 1 1 } 0 [] ::
        .cxlReq (port % 4) false h.addr [] 32 :: s.out) ∧
  (∀ (port : Nat) (h : Header) (s : State), h.xlated = true → isPeat h.addr = true → peatPort h.addr = port % 4 →
    allowed s h.ctx h.addr = true →
    ∃ t, exec (.ptWrNarrow port h .clean) s = .next t ∧
      t.mem = (peatWrite h.ctx (h.addr / 32 * 32) (slice h.inlineData 0 32) (narrowEnables h)
        (emit (.cxlReq (port % 4) true h.addr (slice h.inlineData 0 32) 32) s)).1.mem) ∧
  (∀ (port : Nat) (h : Header) (s : State), h.xlated = true → isPeat h.addr = true → peatPort h.addr = port % 4 → h.opArg % 16 ≤ 2 →
    allowed s h.ctx h.addr = true → isBad s (h.addr / 32 * 32) = false →
    ∃ t, exec (.ptAddNarrow port h .clean) s = .next t ∧ t.mem.cells = (s.mem.writes (h.addr / 32 * 32)
      (addElems (h.opArg % 16) (memSectors s (h.addr / 32 * 32) 1 1) (slice h.inlineData 0 32)) []).cells) ∧
  (∀ (port : Nat) (h : Header) (s : State), h.xlated = true → isPeat h.addr = true → peatPort h.addr = port % 4 → 2 < h.opArg % 16 →
    exec (.ptAddNarrow port h .clean) s = .next (respond { h with opcode := 0x24 } 2 [] s)) ∧
  (∀ (port : Nat) (h h' : Header) (s : State), h' = { h with opcode := 0x20 } → h.xlated = true → isPeat h.addr = true →
    peatPort h.addr = port % 4 → allowed s h.ctx h.addr = true →
    (∃ t, exec (.ptRd port h .pending) s = .next t ∧ t.mem = s.mem ∧
      (peat t (port % 4)).outstanding = (peat s (port % 4)).outstanding ++ [(h', [], [])]) ∧
    (∃ t, exec (.ptRd port h .poison) s = .next t ∧ isBad t (peatAddr h') = true)) ∧
  (∀ (port : Nat) (h h' : Header) (s : State), h' = { h with opcode := 0x20 } → h.xlated = true → isPeat h.addr = true →
    peatPort h.addr = port % 4 → allowed s h.ctx h.addr = false →
    exec (.ptRd port h .clean) s = .next (respond h' 3 [] (ownerViolation h.ctx h.addr none s))) ∧
  (∀ (port : Nat) (h : Header) (us : List Unit256) (a : CxlAnswer) (s : State), (h.xlated = false ∨ peatPort h.addr ≠ port % 4) →
    exec (.ptRd port h a) s = .next (respond { h with opcode := 0x20 } 2 [] s) ∧
    exec (.ptWr port h us a) s = .next (respond { h with opcode := 0x21 } 2 [] s) ∧
    exec (.ptRdNarrow port h a) s = .next (respond { h with opcode := 0x22 } 2 [] s) ∧
    exec (.ptWrNarrow port h a) s = .next (respond { h with opcode := 0x23 } 2 [] s)) ∧
  (∀ (port : Nat) (h : Header) (d : List Byte) (en : List Bool) (rest : List (Header × List Byte × List Bool)) (s : State),
    (peat s (port % 4)).outstanding = (h, d, en) :: rest →
    ∃ t, exec (.peatRequestTimeout port) s = .next t ∧ (peat t (port % 4)).outstanding = rest ∧ isBad t (peatAddr h) = true) ∧
  (∀ (port : Nat) (s : State), (peat s (port % 4)).outstanding = [] → exec (.peatRequestTimeout port) s = .next s) ∧
  (∀ (port : Nat) (s : State), heldBack { page := pagePeat (port % 4), sev := 0, cls := 0x074 } s = false →
    ∃ t r, exec (.expanderEvent port) s = .next t ∧ t.errs.flight = s.errs.flight ++ [r] ∧ r.page = pagePeat (port % 4) ∧
      r.cls = 0x074 ∧ sameBytes s t)

/-- R385 to R389: the host port's outbound side. -/
def Obligations.HostMemoryRequests : Prop :=
  (∀ (h h' : Header) (us : List Unit256) (s : State), h' = { h with opcode := 0x31 } → h.xlated = true → isHost h.addr = true →
    h.ctx < 64 → busMaster s h.ctx = true → fld s hostPage Reg.HOST_IDE_REQUIRE = 0 → s.host.waiting = [] → hostRoom s h' = true →
    ∃ t, exec (.hmWr h us) s = .next t ∧ t.host = s.host ∧
      t.mem = s.mem.writes (h.addr / 256 * 256) (slice (us.headD {}).bytes 0 256) ((us.headD {}).be.getD [])) ∧
  (∀ (h h' : Header) (s : State), h' = { h with opcode := 0x33 } → h.xlated = true → isHost h.addr = true →
    h.ctx < 64 → busMaster s h.ctx = true → fld s hostPage Reg.HOST_IDE_REQUIRE = 0 → s.host.waiting = [] → hostRoom s h' = true →
    ∃ t, exec (.hmWrNarrow h) s = .next t ∧ t.host = s.host ∧
      t.mem = s.mem.writes (h.addr / 32 * 32) (slice h.inlineData 0 32) (narrowEnables h)) ∧
  (∀ (h h' : Header) (tg : Nat) (s : State), h' = { h with opcode := 0x30 } → h.xlated = true → isHost h.addr = true →
    h.ctx < 64 → busMaster s h.ctx = true → fld s hostPage Reg.HOST_IDE_REQUIRE = 0 → s.host.waiting = [] → hostRoom s h' = true →
    h.opArg % 256 ≠ 0 → freeTag s = some tg →
    ∃ t, exec (.hmRd h) s = .next t ∧ t.mem = s.mem ∧
      t.host.tags = s.host.tags ++ [{ tag := tg, fn := h.ctx, hdr := h', addr := (hostSpan h').1, len := (hostSpan h').2 }]) ∧
  (∀ (h : Header) (tg : Nat) (s : State), h.xlated = true → isHost h.addr = true → h.ctx < 64 → busMaster s h.ctx = true →
    fld s hostPage Reg.HOST_IDE_REQUIRE = 0 → s.host.waiting = [] → sectorHeld s { h with opcode := 0x32 } = false →
    s.host.tags.length < 4096 → freeTag s = some tg →
    (∃ t, exec (.hmRdNarrow h) s = .next t ∧ t.mem = s.mem ∧ t.host.tags = s.host.tags ++
      [{ tag := tg, fn := h.ctx, hdr := { h with opcode := 0x32 }, addr := busAddr (h.addr / 32 * 32), len := 32 }]) ∧
    (h.opArg % 16 ≤ 2 → ∃ t, exec (.hmAddNarrow h) s = .next t ∧ t.mem = s.mem ∧ t.host.tags = s.host.tags ++
      [{ tag := tg, fn := h.ctx, hdr := { h with opcode := 0x34 }, addr := busAddr (h.addr / 32 * 32), len := 32 }])) ∧
  (∀ (h : Header) (tg : Nat) (s : State), h.xlated = true → isHost h.addr = true → h.ctx < 64 → busMaster s h.ctx = true →
    fld s hostPage Reg.HOST_IDE_REQUIRE = 0 → s.host.waiting = [] → sectorHeld s { h with opcode := 0x35 } = false →
    s.host.tags.length < 4096 → freeTag s = some tg →
    ∃ t, exec (.hmFlush h) s = .next t ∧ t.mem = s.mem ∧ t.host.tags = s.host.tags ++
      [{ tag := tg, fn := h.ctx, hdr := { h with opcode := 0x35 }, addr := busAddr h.addr, len := 0 }]) ∧
  (∀ (h h' : Header) (s : State), h' = { h with opcode := 0x30 } → h.xlated = true → isHost h.addr = true → h.ctx < 64 →
    busMaster s h.ctx = true → fld s hostPage Reg.HOST_IDE_REQUIRE = 0 → s.host.waiting ≠ [] →
    ∃ t, exec (.hmRd h) s = .next t ∧ t.host.waiting = s.host.waiting ++ [(h', [])] ∧ t.host.tags = s.host.tags ∧ sameBytes s t) ∧
  (∀ (h : Header) (us : List Unit256) (s : State), (h.xlated = false ∨ isHost h.addr = false ∨ 64 ≤ h.ctx) →
    exec (.hmRd h) s = .next (respond { h with opcode := 0x30 } 2 [] s) ∧ exec (.hmWr h us) s = .next (respond { h with opcode := 0x31 } 2 [] s) ∧
    exec (.hmRdNarrow h) s = .next (respond { h with opcode := 0x32 } 2 [] s) ∧
    exec (.hmWrNarrow h) s = .next (respond { h with opcode := 0x33 } 2 [] s) ∧
    exec (.hmAddNarrow h) s = .next (respond { h with opcode := 0x34 } 2 [] s) ∧
    exec (.hmFlush h) s = .next (respond { h with opcode := 0x35 } 2 [] s)) ∧
  (∀ (tag : Nat) (x : HostTag) (data : List Byte) (s : State), s.host.tags.find? (fun t => t.tag == tag) = some x →
    s.host.waiting = [] → data.length = x.len - x.got.length →
    ∃ t, exec (.hostCompletion tag 0 false (max 1 (x.len - x.got.length)) ((x.addr + x.got.length) % 128) data) s = .next t ∧
      t = hostDone x (x.got ++ data) (dropTag tag s) ∧ t.host.tags = s.host.tags.filter (fun y => y.tag != tag)) ∧
  (∀ (tag : Nat) (x : HostTag) (data : List Byte) (s : State), s.host.tags.find? (fun t => t.tag == tag) = some x →
    data.length < x.len - x.got.length → data ≠ [] →
    ∃ t y, exec (.hostCompletion tag 0 false (max 1 (x.len - x.got.length)) ((x.addr + x.got.length) % 128) data) s = .next t ∧
      t.host.tags.find? (fun t => t.tag == tag) = some y ∧ y.got = x.got ++ data ∧ t.out = s.out ∧ sameBytes s t) ∧
  (∀ (tag status bc lower : Nat) (p : Bool) (data : List Byte) (s : State), s.host.tags.find? (fun t => t.tag == tag) = none →
    exec (.hostCompletion tag status p bc lower data) s = .next (unexpectedCompletion s)) ∧
  (∀ (tag : Nat) (x : HostTag) (s : State), s.host.tags.find? (fun t => t.tag == tag) = some x → s.host.waiting = [] →
    ∃ t, exec (.completionTimeout tag) s = .next t ∧ tag ∈ t.host.quarantined ∧
      t.host.tags = s.host.tags.filter (fun y => y.tag != tag)) ∧
  (∀ (tag : Nat) (s : State), s.host.waiting = [] →
    ∃ t, exec (.tagQuarantineEnd tag) s = .next t ∧ t.host.quarantined = s.host.quarantined.filter (· != tag) ∧
      t.host.tags = s.host.tags ∧ t.regs = s.regs ∧ sameBytes s t)

/-- R377 to R395, R458: what ends, and what the host's controls set. -/
def Obligations.HostResetsAndStreams : Prop :=
  (∀ s : State, ∃ t, exec .hotReset s = .next t ∧ fld t hostPage Reg.HOST_RESET_LAST = 2 ∧ t.msix = [] ∧ t.host.ideKeys = [] ∧
    t.host.doe = [] ∧ t.heart.spdm = 0 ∧ ∀ k, 0 < k → k < 64 → ctxState s k ≠ 0 → ctxState t k = 6) ∧
  (∀ s : State, ∃ t, exec .hostLinkDown s = .next t ∧ fld t hostPage Reg.HOST_RESET_LAST = 3 ∧ fld t hostPage Reg.HOST_LINK_RATE = 0 ∧
    ∀ k, 0 < k → k < 64 → ctxState s k ≠ 0 → ctxState t k = 6) ∧
  (∀ s : State, ∃ t, exec .pf0Flr s = .next t ∧ fld t hostPage Reg.HOST_RESET_LAST = 4 ∧
    ∀ k, 0 < k → k < 64 → ctxState s k ≠ 0 → ctxState t k = 6) ∧
  (∀ (k : Nat) (s : State), 0 < k → k < 64 → fnExists s k = true → ctxState s k = 0 →
    ∃ t, exec (.vfFlr k) s = .next t ∧ t.out = .answer 0x00E k [] :: s.out ∧ ctxState t k = 0 ∧ sameBytes s t) ∧
  (∀ (k : Nat) (s : State), 0 < k → k < 64 → fnExists s k = true → ctxState s k ≠ 0 → ctxState s k ≠ 6 →
    ∃ t, exec (.vfFlr k) s = .next t ∧ ctxState t k = 6 ∧ (ctx t k).flrPending = true) ∧
  (∀ s : State, ∃ t, exec .vfEnableClear s = .next t ∧ vfEnable t = false) ∧
  (∀ (v : Nat) (s : State), vfEnable s = false → ∃ t, exec (.numvfsWrite v) s = .next t ∧ numVfs t = v % 65536 ∧ t.regs = s.regs ∧ sameBytes s t) ∧
  (∀ (v : Nat) (s : State), vfEnable s = true → exec (.numvfsWrite v) s = .next s) ∧
  (∀ (v : Nat) (s : State), memEnable s 0 = false → 16 ≤ v → v ≤ 20 → ∃ t, exec (.barResize v) s = .next t ∧ bar2Bytes t = 2 ^ (20 + v) ∧
    t.regs = s.regs ∧ sameBytes s t) ∧
  (∀ (v : Nat) (s : State), (memEnable s 0 = true ∨ v < 16 ∨ 20 < v) → exec (.barResize v) s = .next s) ∧
  (∀ (i : Nat) (s : State), i ≤ 64 → streamSecure s i = true →
    ∃ t, exec (.ideIntegrityFailure i) s = .next t ∧ streamSecure t i = false ∧ i ∉ t.host.ideKeys ∧ sameBytes s t) ∧
  (∀ s : State, ∃ t, exec (.doeRequest .getVersion) s = .next t ∧ t.heart.spdm = 1 ∧ t.heart.spdmKeys = 0 ∧
    t.host.doe = [0x13, 0x04, 0, 0] ++ leBytes 2 0x1300) ∧
  (∀ s : State, s.heart.spdm = 2 → ∃ t, exec (.doeRequest (.negotiate true true)) s = .next t ∧ t.heart.spdm = 3) ∧
  (∀ s : State, s.heart.spdm ≠ 2 → ∃ t, exec (.doeRequest (.negotiate true true)) s = .next t ∧ t.heart = s.heart ∧
    t.host.doe = [0x13, 0x7F, 0x04, 0]) ∧
  (∀ (i : Nat) (s : State), s.heart.spdmKeys ≠ 0 → s.heart.spdmDone = true → i < 65 → i ∈ s.host.ideKeys →
    ∃ t, exec (.doeRequest (.keySetGo i)) s = .next t ∧ streamSecure t i = true) ∧
  (∀ s : State, ∃ t, exec .doeAbort s = .next t ∧ t.host.doe = [] ∧ t.host.tags = s.host.tags ∧ t.regs = s.regs ∧ sameBytes s t) ∧
  (∀ (fn vec : Nat) (s : State), fn < 64 → vec < 3 → ∃ t, exec (.msixUnmask fn vec) s = .next t ∧
    (Tab.get {} t.msix (msixKey fn vec)).masked = false ∧ t.regs = s.regs ∧ sameBytes s t)

/-- R397 to R402: a peat slot. -/
def Obligations.PeatSlots : Prop :=
  (∀ (port : Nat) (d : PeatStart) (s : State), pageOp s (pagePeat (port % 4)) = none → (peat s (port % 4)).entering = false →
    inService s (port % 4) = false → fld s (pagePeat (port % 4)) Reg.SLOT_STATUS_PRESENT = 1 → d.powerOk = true →
    (d.rate % 4 = 1 ∨ d.rate % 4 = 2) → d.supported = true → 2 ^ 21 ≤ d.bytes → d.ide = true →
    ∃ t, exec (.peatEnterService port (some d)) s = .next t ∧ (peat t (port % 4)).entering = true ∧
      (peat t (port % 4)).frames = min (d.bytes / 2 ^ 21) (2 ^ 21) ∧ fld t (pagePeat (port % 4)) Reg.OP_CONTROL_RESULT = 2 ∧
      fld t (pagePeat (port % 4)) Reg.PEAT_LINK_IDE_SECURE = 1 ∧
      ∀ i, i < min (d.bytes / 2 ^ 21) (2 ^ 21) → (frame t (peatBase (port % 4) + i)).state = .ashing) ∧
  (∀ (port : Nat) (s : State), pageOp s (pagePeat (port % 4)) = none → (peat s (port % 4)).entering = false →
    inService s (port % 4) = false → ∃ t, exec (.peatEnterService port none) s = .next t ∧
      fld t (pagePeat (port % 4)) Reg.OP_CONTROL_RESULT = 4 ∧ fld t (pagePeat (port % 4)) Reg.PEAT_OP_REASON = 1 ∧ t.mem = s.mem) ∧
  (∀ (port : Nat) (found : Option PeatStart) (s : State), pageOp s (pagePeat (port % 4)) = none → (peat s (port % 4)).entering = false →
    inService s (port % 4) = true → ∃ t, exec (.peatEnterService port found) s = .next t ∧ t.peats = s.peats ∧ t.mem = s.mem ∧
      fld t (pagePeat (port % 4)) Reg.OP_CONTROL_RESULT = 4 ∧ fld t (pagePeat (port % 4)) Reg.PEAT_OP_REASON = 2) ∧
  (∀ (port f : Nat) (s : State), (peat s (port % 4)).entering = true → f = peatBase (port % 4) + (peat s (port % 4)).ashed →
    (frame s f).state ≠ .gone → (frame s f).bad = false →
    ∃ t, exec (.peatFrameAshed port) s = .next t ∧ (frame t f).state = .free ∧ (frame t f).ctx = 0xFF ∧
      (peat t (port % 4)).ashed = (peat s (port % 4)).ashed + 1 ∧
      (peat t (port % 4)).entering = decide ((peat s (port % 4)).ashed + 1 < (peat s (port % 4)).frames) ∧
      ∀ x ∈ t.mem.cells, frameOf x.1 ≠ f) ∧
  (∀ (port : Nat) (o : PageOp) (s : State), (peat s (port % 4)).entering = true → (peat s (port % 4)).ashed + 1 = (peat s (port % 4)).frames →
    pageOp s (pagePeat (port % 4)) = some o → o.op = 0x10 →
    ∃ t, exec (.peatFrameAshed port) s = .next t ∧ fld t (pagePeat (port % 4)) Reg.OP_CONTROL_RESULT = 3) ∧
  (∀ (port : Nat) (s : State), pageOp s (pagePeat (port % 4)) = none →
    (∀ e ∈ portFrames s (port % 4), e.2.state ≠ .owned ∧ e.2.state ≠ .ashing) →
    ∃ t, exec (.peatRemoval port) s = .next t ∧ fld t (pagePeat (port % 4)) Reg.OP_CONTROL_RESULT = 3 ∧
      inService t (port % 4) = false ∧ ∀ e ∈ portFrames s (port % 4), (frame t e.1).state = .gone) ∧
  (∀ (port : Nat) (e : Nat × FrameEnt) (s : State), pageOp s (pagePeat (port % 4)) = none → e ∈ portFrames s (port % 4) →
    e.2.state = .owned → ∃ t, exec (.peatRemoval port) s = .next t ∧ t.mem = s.mem ∧
      fld t (pagePeat (port % 4)) Reg.OP_CONTROL_RESULT = 4 ∧ fld t (pagePeat (port % 4)) Reg.PEAT_OP_REASON = 2) ∧
  (∀ (port : Nat) (s : State), (pageOp s (pagePeat (port % 4))).isSome = true →
    exec (.peatRemoval port) s = .next (opRefused (pagePeat (port % 4)) s)) ∧
  (∀ (port cause : Nat) (s : State), 4 ≤ cause → cause ≤ 6 → inService s (port % 4) = true →
    ∃ t, exec (.surpriseRemoval port cause) s = .next t ∧ inService t (port % 4) = false ∧ (peat t (port % 4)).outstanding = [] ∧
      fld t (pagePeat (port % 4)) Reg.SLOT_STATUS_SURPRISE = 1 ∧ fld t (pagePeat (port % 4)) Reg.SLOT_STATUS_POWER_ON = 0) ∧
  (∀ (port : Nat) (s : State), fld s (pagePeat (port % 4)) Reg.SLOT_STATUS_PRESENT = 0 →
    ∃ t, exec (.presenceChange port true) s = .next t ∧ fld t (pagePeat (port % 4)) Reg.SLOT_STATUS_PRESENT = 1 ∧
      fld t (pagePeat (port % 4)) Reg.SLOT_STATUS_PRESENCE_CHANGED = 1 ∧ t.mem = s.mem) ∧
  (∀ (port : Nat) (s : State), fld s (pagePeat (port % 4)) Reg.SLOT_STATUS_PRESENT = 1 → exec (.presenceChange port true) s = .next s) ∧
  (∀ (port : Nat) (s : State), ∃ t, exec (.attnButton port) s = .next t ∧ fld t (pagePeat (port % 4)) Reg.SLOT_STATUS_ATTN_PRESSED = 1 ∧
    sameFields ((pagePeat (port % 4), Reg.SLOT_STATUS_ATTN_PRESSED) :: irqPlaces (pagePeat (port % 4))) s t)

/-- R406, R408, R425: the ports. -/
def Obligations.PlarusPorts : Prop :=
  (∀ (p mode : Nat) (s : State), p < 48 → mode < 7 → fld s (pagePort p) Reg.PORT_CFG_MODE ≠ mode →
    ∃ t, exec (.portModeWrite p mode) s = .next t ∧ fld t (pagePort p) Reg.PORT_CFG_MODE = mode ∧ portUp t p = false ∧ sameBytes s t) ∧
  (∀ (p : Nat) (s : State), p < 48 → exec (.portModeWrite p 7) s = .next (opRefused (pagePort p) s)) ∧
  (∀ (p : Nat) (s : State), p < 48 → ∃ t, exec (.portLinkDown p) s = .next t ∧ portUp t p = false ∧
    fld t (pagePort p) Reg.PORT_STATUS_LANES_UP = 0 ∧ sameBytes s t) ∧
  (∀ (p : Nat) (s : State), p < 48 → modeLanes (fld s (pagePort p) Reg.PORT_CFG_MODE) ≠ 0 → portUp s p = false →
    ∃ t, exec (.portLinkUp p) s = .next t ∧ portUp t p = true ∧ p ∉ t.plr.removed ∧ t.fresh = s.fresh + 8 ∧
      fld t (pagePort p) Reg.PORT_STATUS_LANES_UP = modeLanes (fld s (pagePort p) Reg.PORT_CFG_MODE) ∧ sameBytes s t) ∧
  (∀ (p : Nat) (s : State), p < 48 → pageOp s (pagePort p) = none → fld s (pagePort p) Reg.PORT_CFG_MODE ≠ 0 →
    ∃ t, exec (.portRetrain p) s = .next t ∧ p ∈ t.plr.removed ∧ fld t (pagePort p) Reg.OP_CONTROL_RESULT = 2 ∧
      portUp t p = portUp s p ∧ sameBytes s t) ∧
  (∀ (p : Nat) (s : State), p < 48 → (pageOp s (pagePort p)).isSome = true → exec (.portRetrain p) s = .next (opRefused (pagePort p) s)) ∧
  (∀ (p left : Nat) (o : PageOp) (s : State), p < 48 → fld s (pagePort p) Reg.PORT_STATUS_RETRAINING = 0 →
    pageOp s (pagePort p) = some o → o.op = 5 → o.queued = false →
    ∃ t, exec (.retrainDrainDone p left) s = .next t ∧ fld t (pagePort p) Reg.PORT_STATUS_RETRAINING = 1 ∧ portUp t p = false ∧ sameBytes s t) ∧
  (∀ (p domain queued : Nat) (f : Frame) (msg : PtpMsg) (full : Bool) (s : State), p < 48 → portUp s p = false →
    exec (.frameReceive p f domain msg full queued) s = .next s) ∧
  (∀ (p domain queued : Nat) (f : Frame) (msg : PtpMsg) (full : Bool) (s : State), p < 48 → isDown s (blockNode .plarus) = false →
    portUp s p = true → f.control = false → f.etherType = 0x88F7 →
    exec (.frameReceive p f domain msg full queued) s = .next (ptpMessage p domain true msg s)) ∧
  (∀ (p domain queued : Nat) (f : Frame) (msg : PtpMsg) (full : Bool) (s : State), p < 48 → isDown s (blockNode .plarus) = false →
    portUp s p = true → f.control = false → f.etherType ≠ 0x88F7 → f.etherType ≠ 0x86DD → f.dst = fld s plarusPage Reg.PLR_ADDR_MAC →
    f.etherType = fld s plarusPage Reg.PLR_CFG_ETHERTYPE →
    (f.checksOk = true → exec (.frameReceive p f domain msg full queued) s = .next (plarusFrame f (nowNs s) s)) ∧
    (f.checksOk = false → exec (.frameReceive p f domain msg full queued) s = .next (count (pagePort p) Reg.PORT_COUNTS_DROPS 1 s))) ∧
  (∀ (p e domain queued : Nat) (f : Frame) (msg : PtpMsg) (s : State), p < 48 → isDown s (blockNode .plarus) = false →
    portUp s p = true → f.control = false → f.etherType ≠ 0x88F7 → f.etherType ≠ 0x86DD → f.dst ≠ fld s plarusPage Reg.PLR_ADDR_MAC →
    egressPort s f = some e → queued ≤ fld s plarusPage Reg.SWITCH_CTRL_ECN_KIB →
    ∃ t, exec (.frameReceive p f domain msg false queued) s = .next t ∧ t.out = .frame e (frameBytes f) :: s.out ∧ t.regs = s.regs)

/-- R412 to R421: what arrives on a session. -/
def Obligations.PlarusPackets : Prop :=
  (∀ (h : PlrHdr) (hd : Header) (us : List Unit256) (s : State), plrAccepted s h → h.ackPresent = false → h.firstUnit = 0 →
    0x70 ≤ hd.opcode → hd.opcode ≤ 0x8F → (session s h.session).st ≠ 4 → (session s h.session).due < 7 →
    (session s h.session).rxParts = [] → us.length = hd.len →
    ∃ t, exec (.data h .req hd us) s = .next t ∧ (session t h.session).due = (session s h.session).due + 1 ∧
      (session t h.session).rxLargest = max (session s h.session).rxLargest h.pn ∧
      t.out = .delivered { hd with ctx := (session s h.session).ctx, src := blockNode .plarus } us :: s.out) ∧
  (∀ (h : PlrHdr) (plane : Plane) (hd : Header) (us : List Unit256) (s : State), plrAccepted s h → h.ackPresent = false →
    (hd.opcode < 0x70 ∨ 0x8F < hd.opcode) → (session s h.session).due < 7 →
    ∃ t, exec (.data h plane hd us) s = .next t ∧ t.out = s.out ∧ (session t h.session).rxParts = (session s h.session).rxParts ∧
      t.regs = s.regs ∧ sameBytes s t) ∧
  (∀ (h : PlrHdr) (p : TxPkt) (s : State), plrAccepted s h → h.ackMap = 0 → (session s h.session).unacked = [p] →
    p.pn = h.ackLargest → (session s h.session).sendQ = [] →
    ∃ t, exec (.ack h) s = .next t ∧ (session t h.session).unacked = [] ∧ (session t h.session).st = (session s h.session).st ∧
      t.out = s.out ∧ sameBytes s t) ∧
  (∀ (i : Nat) (hs : Handshake) (s : State), handshakeSigned hs [] = true → initEntry s hs = some i → (session s i).st ≠ 1 →
    ∃ t, exec (.init hs) s = .next t ∧ (session t i).st = 2 ∧ (session t i).verified = keyIdOf hs.attKey ∧
      (session t i).peerIndex = hs.session % 1024 ∧ t.fresh = s.fresh + 1 ∧ sameBytes s t) ∧
  (∀ (hs : Handshake) (s : State), (handshakeSigned hs [] = false ∨ initEntry s hs = none) → exec (.init hs) s = .next (countUnauth s)) ∧
  (∀ (i : Nat) (hs : Handshake) (s : State), i < 1024 → (session s i).st = 1 →
    handshakeSigned hs (handshakeBytes (ownHandshake s i [])) = true → (session s i).keyId = keyIdOf hs.attKey →
    (session s i).ctx = hs.peerCtx → (session s i).peerCtx = hs.ctx → peerAcceptable s (session s i) hs = true →
    ∃ t, exec (.resp i hs) s = .next t ∧ (session t i).st = 2 ∧ (session t i).verified = keyIdOf hs.attKey ∧
      (session t i).peerIndex = hs.session % 1024 ∧ sameBytes s t) ∧
  (∀ (i : Nat) (hs : Handshake) (s : State), i < 1024 → (session s i).st = 1 → (session s i).keyId ≠ keyIdOf hs.attKey →
    exec (.resp i hs) s = .next (countUnauth s)) ∧
  (∀ (h : PlrHdr) (nonce key : List Byte) (s : State), plrAccepted s h → h.ackPresent = false → (session s h.session).st ≠ 4 →
    ∃ t, exec (.rekey h nonce key) s = .next t ∧ (session t h.session).nextKeys.isSome = true ∧ t.fresh = s.fresh + 1 ∧
      (session t h.session).st = (session s h.session).st) ∧
  (∀ (h : PlrHdr) (nonce key : List Byte) (s : State), plrAccepted s h → h.ackPresent = false → (session s h.session).st = 3 →
    (session s h.session).nextKeys = none →
    ∃ t, exec (.rekeyAck h nonce key) s = .next t ∧ (session t h.session).st = 2 ∧ (session t h.session).oldOk = true ∧
      (session t h.session).keyPhase = 1 - (session s h.session).keyPhase ∧ t.out = s.out) ∧
  (∀ (h : PlrHdr) (s : State), plrAccepted s h → h.ackPresent = false → (session s h.session).st = 4 →
    (∃ t, exec (.fin h) s = .next t ∧ (session t h.session).st = 0 ∧ (session t h.session).keys = 0) ∧
    (∃ t, exec (.finAck h) s = .next t ∧ (session t h.session).st = 0 ∧ (session t h.session).keys = 0)) ∧
  (∀ (h : PlrHdr) (s : State), plrAccepted s h → h.ackPresent = false → (session s h.session).st = 2 →
    (∃ t, exec (.fin h) s = .next t ∧ (session t h.session).st = 5 ∧ (session t h.session).keys = 0) ∧
    (∃ t, exec (.finAck h) s = .next t ∧ (session t h.session).st = 2 ∧ t.out = s.out)) ∧
  (∀ (h : PlrHdr) (plane : Plane) (hd : Header) (us : List Unit256) (nonce key : List Byte) (s : State),
    (sessionLive s h.session = false ∨ h.authentic = false) →
    exec (.data h plane hd us) s = .next (countUnauth s) ∧ exec (.ack h) s = .next (countUnauth s) ∧
    exec (.rekey h nonce key) s = .next (countUnauth s) ∧ exec (.rekeyAck h nonce key) s = .next (countUnauth s) ∧
    exec (.fin h) s = .next (countUnauth s) ∧ exec (.finAck h) s = .next (countUnauth s))

/-- R417 to R422: what time brings to a session. -/
def Obligations.PlarusTimers : Prop :=
  (∀ (i : Nat) (s : State), i < 1024 → (session s i).st = 1 → ∃ t, exec (.initResend i) s = .next t ∧ t.plr = s.plr ∧
    t.out = .plarus i 3 0 0 {} [] (handshakeBytes (ownHandshake s i [])) :: s.out) ∧
  (∀ (i : Nat) (s : State), (session s i).st ≠ 1 → exec (.initResend i) s = .next s) ∧
  (∀ (i : Nat) (s : State), i < 1024 → ((session s i).st = 1 ∨ (session s i).st = 3) →
    ∃ t, exec (.handshakeTimeout i) s = .next t ∧ (session t i).st = 5 ∧ (session t i).keys = 0 ∧ (session t i).waiting = []) ∧
  (∀ (i pn : Nat) (p : TxPkt) (s : State), sessionLive s i = true → (session s i).unacked.find? (fun q => q.pn == pn) = some p →
    p.kind ≠ 2 → p.expiries + 1 < fld s plarusPage Reg.RTX_CTRL_RETRY_MAX →
    ∃ t, exec (.rtoExpiry i pn) s = .next t ∧ (session t i).txNext = (session s i).txNext + 1 ∧ (session t i).st = (session s i).st ∧
      { p with expiries := p.expiries + 1, pn := (session s i).txNext, passed := 0, stepped := false } ∈ (session t i).unacked) ∧
  (∀ (i pn : Nat) (p : TxPkt) (s : State), sessionLive s i = true → (session s i).st ≠ 4 →
    (session s i).unacked.find? (fun q => q.pn == pn) = some p → max 1 (fld s plarusPage Reg.RTX_CTRL_RETRY_MAX) ≤ p.expiries + 1 →
    ∃ t, exec (.rtoExpiry i pn) s = .next t ∧ (session t i).st = 5) ∧
  (∀ (i : Nat) (s : State), sessionLive s i = true → 0 < (session s i).due →
    ∃ t, exec (.transportAckTimer i) s = .next t ∧ (session t i).due = 0 ∧ (session t i).ceSeen = false ∧
      (session t i).txNext = (session s i).txNext + 1 ∧ (session t i).unacked = (session s i).unacked ∧ sameBytes s t) ∧
  (∀ (i : Nat) (s : State), sessionLive s i = true → fld s plarusPage Reg.CC_CTRL_FREEZE = 0 → (session s i).override = false →
    ∃ t, exec (.ccUpdate i) s = .next t ∧ (session t i).cwnd = ccStep s (session s i) ∧ (session t i).samples = [] ∧
      (session t i).eceSeen = false ∧ sameBytes s t) ∧
  (∀ (i : Nat) (s : State), sessionLive s i = true → fld s plarusPage Reg.CC_CTRL_FREEZE = 1 →
    ∃ t, exec (.ccUpdate i) s = .next t ∧ (session t i).cwnd = (session s i).cwnd ∧ (session t i).samples = []) ∧
  (∀ (i : Nat) (s : State), i < 1024 → (session s i).st = 4 →
    ∃ t, exec (.closingTimeout i) s = .next t ∧ (session t i).st = 0 ∧ (session t i).keys = 0) ∧
  (∀ (i : Nat) (s : State), i < 1024 → (session s i).st = 2 → 2 ^ 39 ≤ (session s i).txUnder →
    ∃ t, exec (.rekeyTrigger i) s = .next t ∧ (session t i).st = 3 ∧ t.fresh = s.fresh + 1 ∧ sameBytes s t) ∧
  (∀ (i : Nat) (s : State), sessionLive s i = true → (session s i).st ≠ 4 → 2 ^ 40 ≤ (session s i).rxUnder →
    ∃ t, exec (.keyLimit i) s = .next t ∧ (session t i).st = 5) ∧
  (∀ (i : Nat) (s : State), (session s i).txUnder < 2 ^ 40 → (session s i).rxUnder < 2 ^ 40 → exec (.keyLimit i) s = .next s) ∧
  (∀ (i : Nat) (s : State), i < 1024 → ∃ t, exec (.oldPhaseExpiry i) s = .next t ∧ (session t i).oldOk = false ∧
    (session t i).keyPhase = (session s i).keyPhase ∧ t.regs = s.regs ∧ sameBytes s t)

/-- R414, R423, R424: remote requests and the block's tables. -/
def Obligations.RemoteRequestsAndEntries : Prop :=
  (∀ (i c : Nat) (h : Header) (us : List Unit256) (s : State), i < 1024 → sessionOpen s i = true → (session s i).ctx = 0 →
    nodeBlock h.src = some (.core c) →
    (∃ t, exec (.rmRd false i h) s = .next t ∧
      (session t i).waiting = (session s i).waiting ++ [{ h with opcode := 0x70, xlated := false, opArg := i }] ∧ sameBytes s t) ∧
    (∃ t, exec (.rmWr false i h us) s = .next t ∧
      (session t i).waiting = (session s i).waiting ++ [{ h with opcode := 0x71, xlated := false, opArg := i }] ∧ sameBytes s t) ∧
    (∃ t, exec (.rmRd32 false i h) s = .next t ∧
      (session t i).waiting = (session s i).waiting ++ [{ h with opcode := 0x72, xlated := false, opArg := i }] ∧ sameBytes s t) ∧
    (∃ t, exec (.rmWr32 false i h) s = .next t ∧
      (session t i).waiting = (session s i).waiting ++ [{ h with opcode := 0x73, xlated := false, opArg := i }] ∧ sameBytes s t)) ∧
  (∀ (i : Nat) (h : Header) (d : List Byte) (s u : State), i < 1024 → sessionOpen s i = true →
    remoteAccess i { h with opcode := 0x70, xlated := false } [] s = .answer 0 d u →
    exec (.rmRd true i h) s = .next (plrSend i .rsp (reply { h with opcode := 0x70, xlated := false } 0 1) [{ bytes := d }] u)) ∧
  (∀ (i st : Nat) (h : Header) (us : List Unit256) (d : List Byte) (s u : State), i < 1024 → sessionOpen s i = true →
    remoteAccess i { h with opcode := 0x71, xlated := false } (us.take 1) s = .answer st d u →
    exec (.rmWr true i h us) s = .next (plrSend i .rsp (reply { h with opcode := 0x71, xlated := false } st 0) [] u)) ∧
  (∀ (i : Nat) (h : Header) (us : List Unit256) (s : State), i < 1024 → sessionOpen s i = false →
    exec (.rmRd true i h) s = .next s ∧ exec (.rmWr true i h us) s = .next s ∧ exec (.rmRd32 true i h) s = .next s ∧
    exec (.rmWr32 true i h) s = .next s) ∧
  (∀ (i g q r shape off : Nat) (us : List Unit256) (s : State), sessionOpen s i = true → (Tab.get {} s.plr.groups g).valid = true →
    (Tab.get {} s.plr.groups g).rank ≠ r → r ≤ (Tab.get {} s.plr.groups g).size → Tab.get 0 s.plr.groupMap (g * 1024 + r) = i →
    (session s i).ctx = (Tab.get {} s.plr.groups g).ctx →
    ∃ t p, exec (.collData i g q r shape off none us) s = .next t ∧ collPart t g q r = some p ∧ p.shape = shape ∧
      (∀ j, j < (unitData us).length → Tab.get 0 p.data (off + j) = (unitData us).getD j 0) ∧ t.regs = s.regs ∧ sameBytes s t) ∧
  (∀ (i g q r shape off : Nat) (total : Option Nat) (us : List Unit256) (s : State), sessionOpen s i = false →
    exec (.collData i g q r shape off total us) s = .next s) ∧
  (∀ (i : Nat) (s : State), i < 1024 → pageOp s plarusPage = none → (session s i).kiln = true → (session s i).st = 0 →
    ∃ t, exec (.kilnSessionBind i) s = .next t ∧ (session t i).st = 1 ∧ (session t i).ctx = 0xFE ∧
      fld t plarusPage Reg.OP_CONTROL_RESULT = 3 ∧ sameBytes s t) ∧
  (∀ (i : Nat) (s : State), i < 1024 → pageOp s plarusPage = none → (session s i).st ≠ 0 →
    ∃ t, exec (.kilnSessionBind i) s = .next t ∧ t.plr = s.plr ∧ fld t plarusPage Reg.OP_CONTROL_RESULT = 4) ∧
  (∀ (i : Nat) (s : State), i < 1024 → pageOp s plarusPage = none → (session s i).kiln = true → (session s i).ctx = 0xFE →
    (session s i).st = 2 → ∃ t, exec (.kilnSessionRelease i) s = .next t ∧ (session t i).st = 4 ∧ (session t i).sendQ = [] ∧
      fld t plarusPage Reg.OP_CONTROL_RESULT = 2) ∧
  (∀ (i : Nat) (s : State), i < 1024 → pageOp s plarusPage = none → (session s i).kiln = true → (session s i).ctx = 0xFE →
    (session s i).st = 5 → ∃ t, exec (.kilnSessionRelease i) s = .next t ∧ (session t i).st = 0 ∧
      fld t plarusPage Reg.OP_CONTROL_RESULT = 3) ∧
  (∀ (i v : Nat) (s : State), i < 1024 → (session s i).st = 0 →
    ∃ t, exec (.sessionCfgWrite i 0 v) s = .next t ∧ (session t i).peerMac = bits v 47 0 ∧ (session t i).framing = bit v 48 ∧
      (session t i).kiln = tst v 49 ∧ (session t i).allowDebug = tst v 50 ∧ (session t i).peerCtx = bits v 63 56 ∧
      (session t i).keyId = (session s i).keyId ∧ t.regs = s.regs) ∧
  (∀ (i word v : Nat) (s : State), i < 1024 → word ≤ 4 → (session s i).st ≠ 0 →
    exec (.sessionCfgWrite i word v) s = .next (opRefused plarusPage s)) ∧
  (∀ (g v : Nat) (s : State), g < 65536 → (s.plr.groups.filter (fun e => e.2.valid)).length < 256 →
    ∃ t, exec (.groupCfgWrite g v) s = .next t ∧ Tab.get {} t.plr.groups g =
        { valid := tst v 0, ctx := bits v 15 8, size := bits v 25 16, rank := bits v 41 32 } ∧ t.regs = s.regs ∧ sameBytes s t)

/-- R428 to R435, R439: the timebase; PTP, guest time messages and `PPS_OUT`. -/
def Obligations.TimebaseAndTimeMessages : Prop :=
  (∀ (raw e : Int) (s : State), s.time.st = 2 → fld s timePage Reg.TB_CTRL_SOURCE = 2 → timeHeld s = false →
    e = raw + 1000 * sext 32 (fld s timePage Reg.PPS_CFG_PPS_IN_DELAY_NS) → (1000000 < e ∨ e < -1000000) →
    ∃ t, exec (.ppsInEdge raw) s = .next t ∧ t.time.pps = true ∧ t.time.jumped = true ∧ t.time.sec = s.time.sec ∧ t.time.ns = s.time.ns) ∧
  (∀ (raw e : Int) (s : State), s.time.st = 2 → fld s timePage Reg.TB_CTRL_SOURCE = 2 → timeHeld s = false →
    e = raw + 1000 * sext 32 (fld s timePage Reg.PPS_CFG_PPS_IN_DELAY_NS) → -1000000 ≤ e → e ≤ 1000000 →
    ∃ t, exec (.ppsInEdge raw) s = .next t ∧ t.time.pps = true ∧ t.time.jumped = false ∧ t.time.stepDue = none ∧ t.fresh = s.fresh + 1 ∧
      (t.time.sec, t.time.ns, t.time.frac) = ((addTime (-(e * 65536 / 1000)) s).time.sec, (addTime (-(e * 65536 / 1000)) s).time.ns,
        (addTime (-(e * 65536 / 1000)) s).time.frac)) ∧
  (∀ s : State, s.time.st = 2 → ∃ t, exec .ppsMissed s = .next t ∧ t.time = { s.time with pps := false } ∧ sameBytes s t) ∧
  (∀ s : State, s.time.st = 2 → sourcePresent s = false → ∃ t, exec .holdoverEntry s = .next t ∧ t.time = { s.time with st := 3 }) ∧
  (∀ s : State, sourcePresent s = true → exec .holdoverEntry s = .next s) ∧
  (∀ s : State, s.time.st = 1 → sourcePresent s = true → timeHeld s = false → -20000 ≤ sext 32 (fld s timePage Reg.TB_STATE_OFFSET_PS) →
    sext 32 (fld s timePage Reg.TB_STATE_OFFSET_PS) ≤ 20000 →
    ∃ t, exec .lockAchieved s = .next t ∧ t.time = { s.time with st := 2, held := activeSource s }) ∧
  (∀ s : State, timeHeld s = true → exec .lockAchieved s = .next s ∧ exec .timebaseStep s = .next s) ∧
  (∀ s : State, s.time.st = 2 → s.time.jumped = true → ∃ t, exec .phaseJump s = .next t ∧ t.time = { s.time with st := 1, jumped := false }) ∧
  (∀ (d : Int) (s : State), s.time.stepDue = some d → s.time.st = 1 → timeHeld s = false →
    ∃ t, exec .timebaseStep s = .next t ∧ t.time = { (addTime d s).time with stepDue := none, stepped := List.range 8 } ∧
      fld t timePage Reg.TB_STATE_OFFSET_PS = 0) ∧
  (∀ s : State, ∃ t, exec .timeEpoch s = .next t ∧ t.time = { s.time with sec := (s.time.sec + 1) % 2 ^ 48, ns := 0, frac := 0 } ∧
    t.regs = s.regs ∧ sameBytes s t) ∧
  (∀ (ns sec : Nat) (s : State), secondsFromSet s = true → ns < 10 ^ 9 → s.time.sec < 2 ^ 48 →
    ∃ t, exec (.tbSet ns sec) s = .next t ∧ t.time.ns = ns ∧ t.time.sec = s.time.sec / 2 ^ 34 * 2 ^ 34 + sec % 2 ^ 34 ∧ t.time.frac = 0) ∧
  (∀ (ns sec : Nat) (s : State), secondsFromSet s = false → exec (.tbSet ns sec) s = .next (opRefused timePage s)) ∧
  (∀ s : State, s.time.ns < 2 ^ 30 → s.time.sec < 2 ^ 48 → s.time.frac < 2 ^ 16 →
    ∃ t, exec .tbCapture s = .next t ∧ t.time = s.time ∧ fld t timePage Reg.TB_CAP0_NS = s.time.ns ∧
      fld t timePage Reg.TB_CAP0_SEC = s.time.sec % 2 ^ 34 ∧ fld t timePage Reg.TB_CAP1_SEC_HI = s.time.sec / 2 ^ 34 ∧
      fld t timePage Reg.TB_CAP1_FRAC = s.time.frac) ∧
  (∀ s : State, ∃ t, exec (.tbSourceWrite 2) s = .next t ∧ fld t timePage Reg.TB_CTRL_SOURCE = 2 ∧
    t.time = { s.time with held := 0, stepDue := none, jumped := false, st := b2n s.time.pps }) ∧
  (∀ (v : Bool) (s : State), s.time.st = 2 → ∃ t, exec (.ref10mInChange v) s = .next t ∧ t.time = { s.time with ref := v } ∧ sameBytes s t) ∧
  (∀ (p d path : Nat) (l2 : Bool) (off : Int) (s : State), isDown s (blockNode .plarus) = false → ptpPort s p = true →
    d = fld s timePage Reg.TB_CTRL_DOMAIN → l2 = flag s (pagePort p) Reg.PORT_CFG_PTP_L2 → ptpRole s p = 2 → activeSource s ≠ 4 → path < 2 ^ 32 →
    ∃ t, exec (.ptpMessage p d l2 (.sync off path)) s = .next t ∧ fld t (pagePort p) Reg.PTP_OFFSET_PATH_PS = path ∧ t.time = s.time ∧
      sameFields [(pagePort p, Reg.PTP_OFFSET_OFFSET_PS), (pagePort p, Reg.PTP_OFFSET_PATH_PS)] s t) ∧
  (∀ (p d : Nat) (l2 : Bool) (a : List Nat) (s : State), isDown s (blockNode .plarus) = false → ptpPort s p = true →
    d = fld s timePage Reg.TB_CTRL_DOMAIN → l2 = flag s (pagePort p) Reg.PORT_CFG_PTP_L2 →
    ∃ t, exec (.ptpMessage p d l2 (.announce a)) s = .next t ∧ Tab.get [] t.time.masters p = a ∧ t.time.ns = s.time.ns) ∧
  (∀ (p d : Nat) (l2 : Bool) (m : PtpMsg) (s : State), (ptpPort s p = false ∨ d ≠ fld s timePage Reg.TB_CTRL_DOMAIN) →
    exec (.ptpMessage p d l2 m) s = .next s) ∧
  (∀ (p d : Nat) (l2 : Bool) (s : State), isDown s (blockNode .plarus) = false → ptpPort s p = true →
    d = fld s timePage Reg.TB_CTRL_DOMAIN → l2 = flag s (pagePort p) Reg.PORT_CFG_PTP_L2 → fld s (pagePort p) Reg.PORT_CFG_PTP_DELAY = 1 →
    exec (.ptpMessage p d l2 .pdelayReq) s = .next (emit (.frame p (leBytes 1 3 ++ ptpStamp s)) s)) ∧
  (∀ (p : Nat) (s : State), ptpPort s p = true → ptpRole s p = 1 → ∃ t, exec (.ptpSyncTimer p) s = .next t ∧
    t.out = .frame p (leBytes 1 0 ++ ptpStamp s) :: s.out ∧ t.regs = s.regs ∧ t.time = s.time) ∧
  (∀ (p : Nat) (s : State), ptpRole s p ≠ 1 → exec (.ptpSyncTimer p) s = .next s) ∧
  (∀ (n : Nat) (s : State), n < 8 → siteLink s n = 5 → ∃ t w, exec (.guestTimeMessage n) s = .next t ∧ t.out = .kpp n 0x103 [w] [] :: s.out ∧
    n ∉ t.time.stepped ∧ t.time.sec = s.time.sec ∧ t.regs = s.regs ∧
    (s.time.sec < 2 ^ 48 → s.time.ns < 2 ^ 30 → s.time.frac < 2 ^ 16 →
      bits w 47 0 = s.time.sec ∧ bits w 77 48 = s.time.ns ∧ bits w 93 78 = s.time.frac ∧ tst w 95 = s.time.stepped.contains n)) ∧
  (∀ (n : Nat) (s : State), siteLink s n ≠ 5 → exec (.guestTimeMessage n) s = .next s) ∧
  (∀ s : State, fld s timePage Reg.PPS_CFG_PPS_OUT_EN = 1 → s.time.ppsHigh = false →
    ∃ t, exec (.ppsOutPulse true) s = .next t ∧ t.time.ppsHigh = true ∧ t.out = .pin pinPpsOut true :: s.out ∧ t.regs = s.regs) ∧
  (∀ s : State, fld s timePage Reg.PPS_CFG_PPS_OUT_EN = 0 → s.time.ppsHigh = false → exec (.ppsOutPulse true) s = .next s) ∧
  (∀ s : State, s.time.ppsHigh = true → ∃ t, exec (.ppsOutPulse false) s = .next t ∧ t.time.ppsHigh = false ∧
    t.out = .pin pinPpsOut false :: s.out ∧ t.regs = s.regs)

/-- R37, R445 to R463: the mailbox. -/
def Obligations.HeartwoodMailbox : Prop :=
  (∀ (arg : Nat) (s : State), 8 ≤ arg % 16 → ∃ t, exec (.extend 64 arg) s = .next t ∧
    Tab.get 0 t.heart.meas (arg % 16) = Config.sha512 (leBytes 64 (Tab.get 0 s.heart.meas (arg % 16)) ++ mbxBody s 64) % 2 ^ 512 ∧
    fld t mbxPage Reg.MBX_STATUS_CODE = 0 ∧ t.heart.otp = s.heart.otp) ∧
  (∀ (len arg : Nat) (s : State), len ≤ 16384 → arg % 16 < 8 → exec (.extend len arg) s = .next (mbxEnd 0x02 [] s)) ∧
  (∀ (len arg v : Nat) (s : State), len ≤ 16384 → 0 < arg % 16 → arg % 16 ≤ 4 → 1 ≤ lifeCycle s → lifeCycle s ≤ 3 → vppOn s = true →
    Tab.get 0 s.heart.running (arg % 16) = v + 1 → Tab.get 0 s.heart.otp.thermo (arg % 16) ≤ v →
    ∃ t, exec (.rollbackCommit len arg) s = .next t ∧ Tab.get 0 t.heart.otp.thermo (arg % 16) = v ∧ fld t mbxPage Reg.MBX_STATUS_CODE = 0) ∧
  (∀ (len arg v : Nat) (s : State), len ≤ 16384 → 0 < arg % 16 → arg % 16 ≤ 4 → 1 ≤ lifeCycle s → lifeCycle s ≤ 3 → vppOn s = false →
    Tab.get 0 s.heart.running (arg % 16) = v + 1 →
    ∃ t, exec (.rollbackCommit len arg) s = .next t ∧ t.heart.otp = s.heart.otp ∧ fld t mbxPage Reg.MBX_STATUS_CODE = 5 ∧
      fld t lcPage Reg.OTP_STATUS_LAST_ERROR = 5) ∧
  (∀ (len tg : Nat) (s : State), len ≤ 16384 → transitionFate s (mbxBody s len) = 0 → tg = leAt (mbxBody s len) 0 1 → s.heart.otp.lc.length = 3 →
    ∃ t, exec (.transition len none) s = .next t ∧ fld t resetPage Reg.RESET_CAUSE_LAST = 3 ∧
      t.heart.otp.lc = List.replicate 3 (lcValues.getD tg 0) ∧ (∀ x ∈ t.mem.cells, isHost x.1 = true)) ∧
  (∀ (len fate : Nat) (lost : Option Nat) (s : State), len ≤ 16384 → transitionFate s (mbxBody s len) = fate → fate ≠ 0 → fate < 256 →
    ∃ t, exec (.transition len lost) s = .next t ∧ t.heart.otp = s.heart.otp ∧ fld t mbxPage Reg.MBX_STATUS_CODE = fate ∧ nonceBytes t = List.replicate 32 0) ∧
  (∀ (new : Nat) (s : State), (lifeCycle s = 2 ∨ lifeCycle s = 3) → leAt (mbxBody s 266) 0 1 = new → new ≤ 3 → vppOn s = true →
    sigFate s false ((mbxBody s 266).drop 1) (signedText s ((mbxBody s 266).take 1)) = 0 →
    policyValues.getD new 0 ||| policyValues.getD s.heart.otp.debugPolicy 0 = policyValues.getD new 0 →
    ∃ t, exec (.debugPolicy 266) s = .next t ∧ t.heart.otp.policy = List.replicate 3 (policyValues.getD new 0) ∧
      fld t mbxPage Reg.MBX_STATUS_CODE = 0) ∧
  (∀ (slot : Nat) (s : State), leAt (mbxBody s 267) 0 1 = 1 → leAt (mbxBody s 267) 1 1 = slot → slot ≤ 3 →
    (lifeCycle s = 2 ∨ lifeCycle s = 3) → vppOn s = true →
    sigFate s false ((mbxBody s 267).drop 2) (signedText s ((mbxBody s 267).take 2)) = 0 →
    ∃ t, exec (.revokeKey 267) s = .next t ∧ t.heart.otp.ownerRevoked = setBit s.heart.otp.ownerRevoked slot ∧
      fld t mbxPage Reg.MBX_STATUS_CODE = 0) ∧
  (∀ s : State, policyForbids s false = false → keyFate s true (slice (mbxBody s 313) 48 133) = 0 → ofBytes (nonceBytes s) ≠ 0 →
    (mbxBody s 313).take 48 = slice (leBytes 64 (Config.sha512 Config.identityKey)) 0 16 ++ nonceBytes s →
    Config.ecdsaVerify (slice (mbxBody s 313) 48 133) ((mbxBody s 313).take 181) ((mbxBody s 313).drop 181) = true →
    ∃ t, exec (.debugToken 313) s = .next t ∧ debugOpen t = true ∧ fld t mbxPage Reg.MBX_STATUS_CODE = 0 ∧
      ∀ k, 0 < k → k < 64 → isSealed s k = true → ctxState s k ≠ 0 → ctxState t k = 6) ∧
  (∀ (len : Nat) (s : State), len ≤ 16384 → len ≠ 313 → policyForbids s false = false →
    ∃ t, exec (.debugToken len) s = .next t ∧ debugOpen t = debugOpen s ∧ fld t mbxPage Reg.MBX_STATUS_CODE = 3) ∧
  (∀ (n v : Nat) (s : State), otpItemFate s (.siteState n v) = 0 → n < s.heart.otp.sites.length →
    ∃ t, exec (.otpProgram (.siteState n v)) s = .next t ∧ t.heart.otp.sites.getD n 0 = v ∧ fld t mbxPage Reg.MBX_STATUS_CODE = 0) ∧
  (∀ (item : OtpItem) (s : State), otpItemFate s item ≠ 0 →
    ∃ t, exec (.otpProgram item) s = .next t ∧ t.heart.otp = s.heart.otp ∧ fld t mbxPage Reg.MBX_STATUS_CODE = otpItemFate s item) ∧
  (∀ (len : Nat) (s : State), len ≤ 16384 → exec (.getCert len) s = .next (mbxEnd 0 ((Config.certChain (attestKey s)).take 16384) s)) ∧
  (∀ s : State, policyForbids s true = false → hubVacant s = true →
    ∃ t, exec .debugErase s = .next t ∧ debugOpen t = true ∧ t.kiln.pools = [] ∧ t.ember = [] ∧
      (∀ i, i < 1024 → (session t i).st = 0) ∧ fld t mbxPage Reg.MBX_STATUS_CODE = 0) ∧
  (∀ s : State, policyForbids s true = false → hubVacant s = false → exec .debugErase s = .next (mbxEnd 0x06 [] s)) ∧
  (∀ s : State, ∃ t, exec .debugNewNonce s = .next t ∧ t.fresh = s.fresh + 1 ∧ nonceBytes t = freeBytes s 32 ∧ t.heart = s.heart ∧ sameBytes s t) ∧
  (∀ (len arg : Nat) (lost : Option Nat) (s : State), 16384 < len →
    exec (.extend len arg) s = .next (mbxEnd 0x0A [] s) ∧ exec (.rollbackCommit len arg) s = .next (mbxEnd 0x0A [] s) ∧
    exec (.transition len lost) s = .next (mbxEnd 0x0A [] s) ∧ exec (.debugPolicy len) s = .next (mbxEnd 0x0A [] s) ∧
    exec (.revokeKey len) s = .next (mbxEnd 0x0A [] s) ∧ exec (.debugToken len) s = .next (mbxEnd 0x0A [] s) ∧
    exec (.getCert len) s = .next (mbxEnd 0x0A [] s))

/-- R32, R465 to R479: power and reset. -/
def Obligations.PowerAndReset : Prop :=
  (∀ s : State, s.power.vaux = false → ∃ t, exec .powerOn s = .next t ∧ t.power.vaux = true ∧ fld t resetPage Reg.RESET_CAUSE_LAST = 1 ∧
    t.heart.otp = s.heart.otp ∧ t.passes = [] ∧ t.fresh = s.fresh + 1) ∧
  (∀ s : State, s.power.vaux = true → exec .powerOn s = .next s) ∧
  (∀ s : State, ∃ t, exec .vauxLoss s = .next t ∧ t.power.vaux = false ∧ t.errs.latched = [] ∧ t.heart.otp = s.heart.otp ∧
    ∀ x ∈ t.mem.cells, isHost x.1 = true) ∧
  (∀ s : State, s.power.vaux = true → s.power.tripped = false → s.power.off = false →
    ∃ t, exec .perstAssert s = .next t ∧ t.power.perst = true ∧ fld t resetPage Reg.RESET_CAUSE_LAST = 2 ∧ t.heart.otp = s.heart.otp ∧ t.passes = []) ∧
  (∀ s : State, s.power.tripped = true → exec .perstAssert s = .next (modPower (fun p => { p with perst := true }) s)) ∧
  (∀ s : State, ∃ t, exec .perstDeassert s = .next t ∧ t.power = { s.power with perst := false } ∧ t.regs = s.regs ∧ sameBytes s t) ∧
  (∀ (v : Bool) (s : State), s.power.vaux = true → s.power.off = false →
    ∃ t, exec (.railLoss v) s = .next t ∧ t.power.off = true ∧ t.power.hadRail = true ∧ t.out.head? = some (.pin 2 false) ∧
      t.heart.otp = s.heart.otp) ∧
  (∀ s : State, s.power.vaux = true → s.power.off = true → s.power.tripped = false →
    ∃ t, exec .railsRestored s = .next t ∧ t.power.off = false ∧ fld t resetPage Reg.RESET_CAUSE_LAST = 4) ∧
  (∀ (b : BringUp) (s : State), (s.power.vaux = false ∨ s.power.off = true ∨ s.power.tripped = true ∨ s.power.halted = true) →
    exec (.bringupStep b) s = .next s) ∧
  (∀ (b : BringUp) (s : State), s.power.vaux = true → s.power.off = false → s.power.tripped = false → s.power.halted = false →
    fld s resetPage Reg.RESET_BRINGUP_STEP = 1 → s.heart.otp.records.find? OtpRecord.isOpen = none → s.heart.otp.lifeCycle = 0 →
    ∃ t, exec (.bringupStep b) s = .next t ∧ fld t resetPage Reg.RESET_BRINGUP_STEP = 1 ∧ fld t clockPage Reg.PLL_LOCK = 2 ^ 42 + 2 ^ 43 ∧
      fld t resetPage Reg.RAIL_STATUS_VAUX = 1 ∧ t.power.ms = s.power.ms + b.ms) ∧
  (∀ (b : BringUp) (s : State), s.power.vaux = true → s.power.off = false → s.power.tripped = false → s.power.halted = false →
    fld s resetPage Reg.RESET_BRINGUP_STEP = 2 → b.vinCoreMv < 1550 →
    ∃ t, exec (.bringupStep b) s = .next t ∧ fld t resetPage Reg.RESET_BRINGUP_STEP = 2 ∧ fld t resetPage Reg.RAIL_STATUS_VIN_CORE = 0 ∧
      t.heart = s.heart) ∧
  (∀ (b : BringUp) (s : State), s.power.vaux = true → s.power.off = false → s.power.tripped = false → s.power.halted = false →
    fld s resetPage Reg.RESET_BRINGUP_STEP = 3 → b.links = true →
    ∃ t, exec (.bringupStep b) s = .next t ∧ fld t resetPage Reg.RESET_BRINGUP_STEP = 4 ∧
      ∀ n, n < 64 → arrayInService s n = true → domainOn t n = true) ∧
  (∀ (b : BringUp) (s : State), s.power.vaux = true → s.power.off = false → s.power.tripped = false → s.power.halted = false →
    fld s resetPage Reg.RESET_BRINGUP_STEP = 3 → b.links = false →
    ∃ t, exec (.bringupStep b) s = .next t ∧ fld t resetPage Reg.RESET_BRINGUP_STEP = 3 ∧ t.power.halted = true ∧
      t.errs.dispatchStopped = true) ∧
  (∀ (b : BringUp) (s : State), s.power.vaux = true → s.power.off = false → s.power.tripped = false → s.power.halted = false →
    fld s resetPage Reg.RESET_BRINGUP_STEP = 4 →
    ∃ t, exec (.bringupStep b) s = .next t ∧ fld t resetPage Reg.RESET_BRINGUP_STEP = 5 ∧ ∀ x ∈ t.mem.cells, isHost x.1 = true) ∧
  (∀ (b : BringUp) (n : Nat) (s : State), s.power.vaux = true → s.power.off = false → s.power.tripped = false → s.power.halted = false →
    fld s resetPage Reg.RESET_BRINGUP_STEP = 5 → s.power.portsStarted = true → n < 8 → siteStarting s n = true →
    exec (.bringupStep b) s = .next (modPower (fun p => { p with ms := p.ms + b.ms }) s)) ∧
  (∀ (b : BringUp) (s : State), s.power.vaux = true → s.power.off = false → s.power.tripped = false → s.power.halted = false →
    fld s resetPage Reg.RESET_BRINGUP_STEP = 5 → s.power.portsStarted = true → s.power.nextSite = 8 → (∀ n, n < 8 → siteStarting s n = false) →
    ∃ t, exec (.bringupStep b) s = .next t ∧ fld t resetPage Reg.RESET_BRINGUP_STEP = 6 ∧ fld t resetPage Reg.RESET_BRINGUP_DONE = 1) ∧
  (∀ (i : Nat) (s : State), 38 ≤ i → i < 44 → tst (fld s clockPage Reg.PLL_LOCK) i = true →
    ∃ t, exec (.pllLockLoss i) s = .next t ∧ tst (fld t clockPage Reg.PLL_LOCK) i = false ∧ t.power.halted = true ∧ t.errs.dispatchStopped = true) ∧
  (∀ (i : Nat) (s : State), 3 ≤ i → i < 37 → tst (fld s clockPage Reg.PLL_LOCK) i = false →
    ∃ t, exec (.pllRelock i) s = .next t ∧ tst (fld t clockPage Reg.PLL_LOCK) i = true ∧ sameFields [(clockPage, Reg.PLL_LOCK)] s t)

/-- R30 to R34, R470 to R486: power management. -/
def Obligations.PowerManagement : Prop :=
  (∀ (n slack : Nat) (s : State), (tile s n).sealedSetting = true → exec (.tileSetpointLoop n slack) s = .next s) ∧
  (∀ (n slack : Nat) (s : State), n < 64 → domainOn s n = true → (tile s n).sealedSetting = false →
    fld s (pageTile n) Reg.TILE_LOOP_CTRL_OVERRIDE = 1 →
    ∃ t, exec (.tileSetpointLoop n slack) s = .next t ∧
      (tile t n).volt = clampN (10 * vMin s n) (10 * vMax s n) (10 * fld s (pageTile n) Reg.TILE_LOOP_CTRL_V_OVR_MV) ∧
      (tile t n).mhz = clampN (mhzMin s n) (mhzMax s n) (fld s (pageTile n) Reg.TILE_LOOP_CTRL_TCLK_OVR_MHZ)) ∧
  (∀ (n slack : Nat) (s : State), fld s (pageTile n) Reg.TILE_LOOP_CTRL_OVERRIDE = 0 → fld s (pageTile n) Reg.TILE_LOOP_CTRL_FREEZE = 1 →
    exec (.tileSetpointLoop n slack) s = .next s) ∧
  (∀ (n : Nat) (s : State), n < 64 → domainOn s n = true → (tile s n).sealedSetting = false →
    fld s (pageTile n) Reg.TILE_LOOP_CTRL_OVERRIDE = 0 → fld s (pageTile n) Reg.TILE_LOOP_CTRL_FREEZE = 0 →
    10 * vMin s n ≤ (tile s n).volt → (tile s n).volt + 25 ≤ 10 * vMax s n → mhzMin s n ≤ (tile s n).mhz → (tile s n).mhz ≤ mhzMax s n →
    ∃ t, exec (.tileSetpointLoop n 0) s = .next t ∧ (tile t n).volt = (tile s n).volt + 25 ∧ (tile t n).mhz = (tile s n).mhz ∧ sameBytes s t) ∧
  (∀ (n : Nat) (s : State), n < 64 → domainOn s n = true →
    ∃ t, exec (.droopDetect n) s = .next t ∧
      (tile t n).stretch = (if (tile s n).sealedSetting then (tile s n).stretch else 32) ∧ (tile t n).volt = (tile s n).volt ∧
      sameFields [(pageTile n, Reg.TILE_LOOP_COUNTS_DROOPS)] s t) ∧
  (∀ (w d : Nat) (s : State), ∃ t, exec (.powerLimitDecision w d) s = .next t ∧
    fld t powerPage Reg.PWR_STATUS_DUTY = nextDuty s (fld s powerPage Reg.PWR_STATUS_DUTY) w d s.power.hottest % 128 ∧
    fld t powerPage Reg.PWR_STATUS_INPUT_W = min w 65535 ∧ t.power.hottest = -2048 ∧ sameBytes s t) ∧
  (∀ (w d : Nat) (s : State), fld s powerPage Reg.PWR_CTRL_OVERRIDE = 0 → fld s powerPage Reg.PWR_CTRL_FREEZE = 1 →
    fld s powerPage Reg.PWR_STATUS_DUTY < 128 →
    ∃ t, exec (.powerLimitDecision w d) s = .next t ∧ fld t powerPage Reg.PWR_STATUS_DUTY = fld s powerPage Reg.PWR_STATUS_DUTY ∧ t.tiles = s.tiles) ∧
  (∀ (n : Nat) (s : State), n < 64 → fld s powerPage Reg.PWR_GATE_TILE_IDLE_US ≠ 0 → bindState s (pageTile n) = 0 →
    pageOp s (pageTile n) = none → domainOn s n = true →
    ∃ t, exec (.tileIdleGate n) s = .next t ∧ domainOn t n = false ∧ (tile t n).bank0 = {} ∧ (tile t n).acc = [] ∧ (tile t n).mhz = 0 ∧ sameBytes s t) ∧
  (∀ (n : Nat) (s : State), fld s powerPage Reg.PWR_GATE_TILE_IDLE_US = 0 → exec (.tileIdleGate n) s = .next s) ∧
  (∀ (n : Nat) (s : State), fld s resetPage Reg.SELFTEST_POLICY_INTERVAL_H ≠ 0 →
    ((List.range 64).map (fun i => (s.power.nextTest + i) % 64)).find? (fun n => arrayInService s n) = some n →
    bindState s (pageTile n) = 0 → pageOp s (pageTile n) = none →
    ∃ t, exec .periodicSelfTest s = .next t ∧ bindState t (pageTile n) = 4 ∧ arrayState t n = 7 ∧ t.power.nextTest = (n + 1) % 64) ∧
  (∀ s : State, fld s resetPage Reg.SELFTEST_POLICY_INTERVAL_H = 0 → exec .periodicSelfTest s = .next s) ∧
  (∀ (i : Nat) (l : List Int) (s : State), s.power.vaux = true → s.power.off = false → s.power.tripped = false → i < 144 →
    sensorOn s i = true → 1000 ≤ l.getD i 0 →
    ∃ t, exec (.tempSample l) s = .next t ∧ t.power.tripped = true ∧ t.power.off = true ∧ t.out.head? = some (.pin 1 false) ∧
      i ∈ t.power.tripSensors ∧ t.heart.otp = s.heart.otp) ∧
  (∀ (i : Nat) (l : List Int) (s : State), s.power.vaux = true → s.power.off = false → s.power.tripped = false → i < 144 →
    sensorOn s i = true → (∀ j, j < 144 → l.getD j 0 < 920) →
    ∃ t, exec (.tempSample l) s = .next t ∧ t.power.tripped = false ∧ t.power.off = false ∧ sameBytes s t ∧
      fld t telePage (Reg.TEMP_NOW.at 8 i) = tc 12 (clampI (-2048) 2047 (l.getD i 0)))

/-- R138, R489, R494, R506: the logs, the latch, the cores. -/
def Obligations.LogsAndCores : Prop :=
  (∀ (l : Nat) (s : State), fld s 0x004 Reg.ERRLOG_CFG_ENABLE = 0 → 8 ≤ l → l ≤ 16 →
    ∃ t, exec (.errlogEnable l) s = .next t ∧ fld t 0x004 Reg.ERRLOG_CFG_ENABLE = 1 ∧ fld t 0x004 Reg.ERRLOG_CFG_LOG2_SIZE = l ∧
      fld t 0x004 Reg.ERRLOG_STATUS_HEAD = 0 ∧ fld t 0x004 Reg.ERRLOG_STATUS_TAIL = 0 ∧ fld t 0x004 Reg.ERRLOG_STATUS_PHASE = 1 ∧ sameBytes s t) ∧
  (∀ (l : Nat) (s : State), (fld s 0x004 Reg.ERRLOG_CFG_ENABLE = 1 ∨ l < 8 ∨ 16 < l) → exec (.errlogEnable l) s = .next s) ∧
  (∀ s : State, ∃ t, exec .errlogDisable s = .next t ∧ fld t 0x004 Reg.ERRLOG_CFG_ENABLE = 0 ∧
    sameFields [(0x004, Reg.ERRLOG_CFG_ENABLE)] s t ∧ sameBytes s t) ∧
  (∀ (h : Nat) (s : State), fld s 0x004 Reg.ERRLOG_CFG_ENABLE = 1 → h < 2 ^ 16 →
    headOk (fld s 0x004 Reg.ERRLOG_CFG_LOG2_SIZE) (fld s 0x004 Reg.ERRLOG_STATUS_TAIL) (fld s 0x004 Reg.ERRLOG_STATUS_HEAD) h = true →
    ∃ t, exec (.errlogDoorbell h) s = .next t ∧ fld t 0x004 Reg.ERRLOG_STATUS_HEAD = h ∧ sameFields [(0x004, Reg.ERRLOG_STATUS_HEAD)] s t) ∧
  (∀ (h : Nat) (s : State), fld s 0x004 Reg.ERRLOG_CFG_ENABLE = 0 →
    ∃ t, exec (.errlogDoorbell h) s = .next t ∧ fld t 0x004 Reg.ERRLOG_STATUS_BAD_DOORBELL = 1 ∧
      sameFields [(0x004, Reg.ERRLOG_STATUS_BAD_DOORBELL)] s t) ∧
  (∀ (k l : Nat) (irq : Bool) (s : State), k < 64 → fld s (pageWin k 0) Reg.ERRQ_CFG_ENABLE = 0 → 6 ≤ l → l ≤ 12 →
    ∃ t, exec (.errqEnable k l irq) s = .next t ∧ fld t (pageWin k 0) Reg.ERRQ_CFG_ENABLE = 1 ∧ fld t (pageWin k 0) Reg.ERRQ_CFG_LOG2_SIZE = l ∧
      fld t (pageWin k 0) Reg.ERRQ_STATUS_PHASE = 1 ∧ fld t (pageWin k 0) Reg.ERRQ_CFG_IRQ_EN = b2n irq ∧ sameBytes s t) ∧
  (∀ (k : Nat) (s : State), k < 64 → ∃ t, exec (.errqDisable k) s = .next t ∧ fld t (pageWin k 0) Reg.ERRQ_CFG_ENABLE = 0 ∧
    sameFields [(pageWin k 0, Reg.ERRQ_CFG_ENABLE)] s t ∧ sameBytes s t) ∧
  (∀ (k h : Nat) (s : State), k < 64 → h < 2 ^ 12 → fld s (pageWin k 0) Reg.ERRQ_CFG_ENABLE = 1 →
    headOk (fld s (pageWin k 0) Reg.ERRQ_CFG_LOG2_SIZE) (fld s (pageWin k 0) Reg.ERRQ_STATUS_TAIL) (fld s (pageWin k 0) Reg.ERRQ_STATUS_HEAD) h = true →
    ∃ t, exec (.errqDoorbell k h) s = .next t ∧ fld t (pageWin k 0) Reg.ERRQ_STATUS_HEAD = h ∧ sameFields [(pageWin k 0, Reg.ERRQ_STATUS_HEAD)] s t) ∧
  (∀ s : State, ∃ t, exec .errLatchClear s = .next t ∧ t.errs = { s.errs with latched := [] } ∧ t.regs = s.regs ∧ sameBytes s t) ∧
  (∀ (m : Nat) (s : State), m < 8 → coreState s m = 1 → s.coh.breaches = [] →
    ((Tab.get [] s.cores.restarts m).filter (fun t => decide (nowNs s < t + 600000000000))).length < 2 →
    (∃ t, exec (.watchdogExpiry m) s = .next t ∧ coreState t m = 2 ∧ fld t (pageCore m) Reg.CORE_CAUSE_LAST = 1) ∧
    (∃ t, exec (.coreSramError m) s = .next t ∧ coreState t m = 2 ∧ fld t (pageCore m) Reg.CORE_CAUSE_LAST = 3)) ∧
  (∀ (m : Nat) (s : State), m < 8 → coreState s m = 1 → s.coh.breaches = [] →
    2 ≤ ((Tab.get [] s.cores.restarts m).filter (fun t => decide (nowNs s < t + 600000000000))).length →
    ∃ t, exec (.watchdogExpiry m) s = .next t ∧ coreState t m = 3 ∧ domainOn t (173 + m) = false) ∧
  (∀ (m : Nat) (s : State), m < 8 → coreState s m = 3 → exec (.watchdogExpiry m) s = .next s ∧ exec (.coreSramError m) s = .next s) ∧
  (∀ (m : Nat) (s : State), m < 8 → coreState s m = 1 → s.coh.breaches = [] → pageOp s (pageCore m) = none →
    ((Tab.get [] s.cores.restarts m).filter (fun t => decide (nowNs s < t + 600000000000))).length < 2 →
    ∃ t, exec (.coreRestart m) s = .next t ∧ coreState t m = 2 ∧ fld t (pageCore m) Reg.OP_CONTROL_RESULT = 2 ∧
      fld t (pageCore m) Reg.CORE_CAUSE_LAST = 4) ∧
  (∀ (m : Nat) (s : State), m < 8 → (pageOp s (pageCore m)).isSome = true → exec (.coreRestart m) s = .next (opRefused (pageCore m) s)) ∧
  (∀ (m ms : Nat) (o : PageOp) (s : State), m < 8 → coreState s m = 2 → pageOp s (pageCore m) = some o → o.op = 0x10 → ms < 2 ^ 16 →
    ∃ t, exec (.coreRestartDone m ms) s = .next t ∧ coreState t m = 1 ∧ fld t (pageCore m) Reg.CORE_COUNTS_LAST_MS = ms ∧
      fld t (pageCore m) Reg.OP_CONTROL_RESULT = 3 ∧ sameBytes s t)

/-- R498 to R505, R508: the source of a journal, and the operations. -/
def Obligations.EmberJournals : Prop :=
  (∀ (k : Nat) (s : State), k < 64 → pageOp s (pageCtx k) = none → isSealed s k = false → startReason s k = 0 →
    ∃ t, exec (.emberJournalStart k) s = .next t ∧ emberState t k = 1 ∧ emberId t k = Config.freeNat (drawn s) % 2 ^ 32 ∧ ember t k = {} ∧
      fld t (pageCtx k) Reg.OP_CONTROL_RESULT = 3 ∧ t.fresh = s.fresh + 1 ∧ sameBytes s t) ∧
  (∀ (k : Nat) (s : State), k < 64 → pageOp s (pageCtx k) = none → isSealed s k = false → emberState s k ≠ 0 →
    ∃ t, exec (.emberJournalStop k) s = .next t ∧ emberState t k = 0 ∧ fld t (pageCtx k) Reg.OP_CONTROL_RESULT = 3 ∧ sameBytes s t) ∧
  (∀ (k : Nat) (s : State), 0 < k → k < 64 → pageOp s (pageCtx k) = none → isSealed s k = false → promoteReason s k = 0 → committedLog s k = [] →
    ∃ t, exec (.emberPromoteOp k) s = .next t ∧ emberState t k = 7 ∧ ctxState t k = 2 ∧ fld t (pageCtx k) Reg.OP_CONTROL_RESULT = 3 ∧ sameBytes s t) ∧
  (∀ (k : Nat) (s : State), k < 64 → pageOp s (pageCtx k) = none → isSealed s k = true →
    (∃ t, exec (.emberJournalStart k) s = .next t ∧ fld t (pageCtx k) Reg.EMBER_STATUS_REASON = 6 ∧
      fld t (pageCtx k) Reg.OP_CONTROL_RESULT = 4 ∧ t.ember = s.ember) ∧
    (∃ t, exec (.emberJournalStop k) s = .next t ∧ fld t (pageCtx k) Reg.EMBER_STATUS_REASON = 6 ∧
      fld t (pageCtx k) Reg.OP_CONTROL_RESULT = 4 ∧ t.ember = s.ember) ∧
    (∃ t, exec (.emberPromoteOp k) s = .next t ∧ fld t (pageCtx k) Reg.EMBER_STATUS_REASON = 6 ∧
      fld t (pageCtx k) Reg.OP_CONTROL_RESULT = 4 ∧ t.ember = s.ember)) ∧
  (∀ (k : Nat) (s : State), k < 64 → (pageOp s (pageCtx k)).isSome = true →
    exec (.emberJournalStart k) s = .next (opRefused (pageCtx k) s) ∧ exec (.emberJournalStop k) s = .next (opRefused (pageCtx k) s) ∧
    exec (.emberPromoteOp k) s = .next (opRefused (pageCtx k) s)) ∧
  (∀ (k cfg log : Nat) (e : Envelope) (s : State), windowOpen s k e → emberState s k = 0 →
    ∃ t, exec (.emberSet k e cfg log) s = .next t ∧ emberRole t k = cfg % 4 ∧ (ctx t k).inSeq = e.seq ∧ (ctx t k).outSeq = (ctx s k).outSeq + 1) ∧
  (∀ (k cfg log : Nat) (e : Envelope) (s : State), windowOpen s k e → emberState s k ≠ 0 →
    ∃ t, exec (.emberSet k e cfg log) s = .next t ∧ fld t (pageCtx k) Reg.EMBER_STATUS_REASON = 1 ∧
      (ctx t k).outSeq = (ctx s k).outSeq + 1 ∧ emberRole t k = emberRole s k) ∧
  (∀ (k : Nat) (e : Envelope) (s : State), windowOpen s k e → startReason s k = 0 →
    ∃ t, exec (.emberStart k e) s = .next t ∧ emberState t k = 1 ∧ ember t k = {} ∧ (ctx t k).inSeq = e.seq) ∧
  (∀ (k : Nat) (e : Envelope) (s : State), windowOpen s k e → emberState s k ≠ 0 →
    ∃ t, exec (.emberStop k e) s = .next t ∧ emberState t k = 0 ∧ (ctx t k).inSeq = e.seq) ∧
  (∀ (k : Nat) (e : Envelope) (s : State), windowOpen s k e → promoteReason s k = 0 → committedLog s k = [] →
    ∃ t, exec (.emberPromote k e) s = .next t ∧ emberState t k = 7 ∧ ctxState t k = 2 ∧ (ctx t k).inSeq = e.seq) ∧
  (∀ (k va : Nat) (l : Leaf) (p : Nat × Nat × Nat × Nat) (s : State), k < 64 → emberState s k ≠ 0 → emberState s k ≤ 3 → (ember s k).full = false →
    walkLeaf s k va = .ok l → l.size ≠ 2 → p = (va / 65536 * 65536, 2 ^ 16, l.entryPa, l.entry) → pageDirty s k p = true →
    exec (.emberStream k va) s = .next (streamPage k p s)) ∧
  (∀ (k va : Nat) (s : State), emberState s k = 0 → exec (.emberStream k va) s = .next s) ∧
  (∀ (i k id : Nat) (h : Header) (p : Pass) (s : State), i = h.opArg % 1024 → sessionLive s i = true → (session s i).ctx = k → k < 64 →
    emberState s k = 3 → h.opData % 2 ^ 32 = emberId s k → h.opData / 2 ^ 32 % 2 ^ 32 = (ember s k).openCut % 2 ^ 32 →
    (ember s k).point = some id → pass s id = some p →
    ∃ t, exec (.embAck h) s = .next t ∧ emberState t k = 2 ∧ (ember t k).point = none ∧ (ember t k).firstDone = true ∧
      (ember t k).openCut = (ember s k).openCut + 1 ∧ pass t id = some { p with status := 0, computed := true, placed := p.total } ∧ sameBytes s t)

/-- R498 to R504: the partner of a journal. -/
def Obligations.EmberPartners : Prop :=
  (∀ (i k : Nat) (h : Header) (us : List Unit256) (s : State), i = h.opArg % 1024 → sessionLive s i = true → (session s i).ctx = k → k < 64 →
    emberRole s k = 2 → emberState s k = 0 → h.opData % 2 ^ 32 ∉ (ember s k).past →
    ∃ t, exec (.embState h us) s = .next t ∧ emberState t k = 5 ∧ emberId t k = h.opData % 2 ^ 32 ∧
      (∀ j, j < (unitData us).length → Tab.get 0 (ember t k).state (h.addr + j) = (unitData us).getD j 0) ∧ sameBytes s t) ∧
  (∀ (i k : Nat) (h : Header) (us : List Unit256) (u : State) (s : State), i = h.opArg % 1024 → sessionLive s i = true → (session s i).ctx = k →
    k < 64 → emberRole s k = 2 → emberState s k = 6 → emberId s k = h.opData % 2 ^ 32 → emberEpoch s k = leAt h.inlineData 0 8 →
    (ember s k).tail + (unitData us).length ≤ logBytes s k →
    vwrite 84 k (logBase s k + (ember s k).tail) (unitData us) s = .ok u →
    ∃ t, exec (.embData h us) s = .next t ∧ emberState t k = 6 ∧
      (ember t k).log = (ember s k).log ++
        [{ cut := h.opData / 2 ^ 32 % 2 ^ 32, va := h.addr, off := (ember s k).tail, len := (unitData us).length }] ∧
      (ember t k).tail = (ember s k).tail + (unitData us).length ∧
      (ember t k).gotBytes = (ember s k).gotBytes + (unitData us).length) ∧
  (∀ (i k m : Nat) (h : Header) (s : State), i = h.opArg % 1024 → sessionLive s i = true → (session s i).ctx = k → k < 64 →
    emberRole s k = 2 → (emberState s k = 5 ∨ emberState s k = 6) → emberId s k = h.opData % 2 ^ 32 → emberEpoch s k = leAt h.inlineData 0 8 →
    (ember s k).gotBytes = leAt h.inlineData 8 8 → m = leAt h.inlineData 16 8 →
    (∀ j, j < m → ∃ b ∈ (ember s k).state, b.1 = j) →
    ∃ t, exec (.embCommit h) s = .next t ∧ emberState t k = 6 ∧ fld t (pageCtx k) Reg.EMBER_STATUS_CUT = h.opData / 2 ^ 32 % 2 ^ 32 ∧
      (ember t k).committed = (List.range m).map (fun j => Tab.get 0 (ember s k).state j) ∧ (ember t k).gotBytes = 0 ∧ sameBytes s t) ∧
  (∀ (i k : Nat) (h : Header) (s : State), i = h.opArg % 1024 → sessionLive s i = true → (session s i).ctx = k → k < 64 →
    emberRole s k = 2 → (emberState s k = 5 ∨ emberState s k = 6) → emberId s k = h.opData % 2 ^ 32 → emberEpoch s k = leAt h.inlineData 0 8 →
    (ember s k).gotBytes ≠ leAt h.inlineData 8 8 →
    ∃ t, exec (.embCommit h) s = .next t ∧ t.ember = s.ember ∧ fld t (pageCtx k) Reg.EMBER_STATUS_CUT = fld s (pageCtx k) Reg.EMBER_STATUS_CUT) ∧
  (∀ (k : Nat) (s : State), committedLog s k = [] → exec (.emberApply k) s = .next s) ∧
  (∀ (k : Nat) (e : EmberEnt) (d : List Byte) (u : State) (s : State), k < 64 → (ember s k).log = [e] → committedLog s k = [e] →
    (ember s k).promoting = false → rd s 84 k (logBase s k + e.off) e.len = .ok d →
    vwrite 84 k e.va d s = .ok u →
    ∃ t, exec (.emberApply k) s = .next t ∧ (ember t k).log = [] ∧ (ember t k).tail = 0) ∧
  (∀ (i : Nat) (h : Header) (us : List Unit256) (s : State), i = h.opArg % 1024 → emberState s (session s i).ctx = 6 →
    (sessionLive s i = false ∨ emberRole s (session s i).ctx ≠ 2) →
    exec (.embData h us) s = .next (count emberPage Reg.EMBER_STATS2_DISCARDED 1 s) ∧
    exec (.embState h us) s = .next (count emberPage Reg.EMBER_STATS2_DISCARDED 1 s) ∧
    exec (.embCommit h) s = .next (count emberPage Reg.EMBER_STATS2_DISCARDED 1 s))

/-- R222, R304, R365, R371, R403, R405, R518, R519. -/
def Obligations.SidebandsAndLinks : Prop :=
  (∀ (i : Nat) (s : State), s.power.vaux = true → i < 144 →
    exec (.i3cMctpMessage (.temperature i)) s = .next (emit (.answer 0x401 0 (leBytes 2 (fld s telePage (Reg.TEMP_NOW.at 8 i)))) s)) ∧
  (∀ (i : Nat) (s : State), s.power.vaux = true → 144 ≤ i →
    exec (.i3cMctpMessage (.temperature i)) s = .next (emit (.answer 0x401 1 []) s)) ∧
  (∀ (m : BoardMsg) (s : State), s.power.vaux = false → exec (.i3cMctpMessage m) s = .next s) ∧
  (∀ s : State, ∃ t, exec (.jtagInstruction .idcode) s = .next t ∧ t.power = { s.power with jtag := 1 } ∧
    t.out = .answer 0x402 1 (leBytes 4 (idCode s)) :: s.out ∧ t.regs = s.regs) ∧
  (∀ s : State, s.power.perst = false → ∃ t, exec (.jtagInstruction .extest) s = .next t ∧ t.power = { s.power with jtag := 0 }) ∧
  (∀ (n : Nat) (s : State), ∃ t, exec (.jtagInstruction (.privateInstr n)) s = .next t ∧
    t.power.jtag = (if debugOpen s then 5 + n else 0) ∧ t.regs = s.regs) ∧
  (∀ (rate width : Nat) (flit : Bool) (s : State), s.power.perst = false → s.power.off = false →
    3 ≤ fld s resetPage Reg.RESET_BRINGUP_STEP → rate < 4 → 0 < rate →
    ∃ t, exec (.hostLinkUp rate width flit) s = .next t ∧ fld t hostPage Reg.HOST_LINK_RATE = rate ∧
      fld t hostPage Reg.HOST_LINK_FLIT = b2n flit ∧ sameBytes s t) ∧
  (∀ (rate width : Nat) (flit : Bool) (s : State), (s.power.perst = true ∨ fld s resetPage Reg.RESET_BRINGUP_STEP < 3) →
    exec (.hostLinkUp rate width flit) s = .next s) ∧
  (∀ (n : Nat) (s : State), n < 8 → siteLink s n = 1 → (site s n).released = true →
    ∃ t, exec (.siteSidebandUp n) s = .next t ∧ siteLink t n = 2 ∧ t.sites = s.sites ∧ sameFields [(pageSite n, Reg.SITE_STATE_LINK)] s t) ∧
  (∀ (n : Nat) (s : State), (site s n).released = false → exec (.siteSidebandUp n) s = .next s) ∧
  (∀ (n rate : Nat) (spares : List Nat) (s : State), n < 8 → siteLink s n = 2 → 0 < rate → rate ≤ 3 →
    rate ≤ max 1 (fld s (pageSite n) Reg.SITE_CFG_MAX_RATE) →
    ∃ t, exec (.siteLinkTrained n rate [0, 0, 0, 0] spares 0) s = .next t ∧ siteLink t n = 3 ∧
      fld t (pageSite n) Reg.SITE_STATE_RATE = rate ∧ fld t (pageSite n) Reg.SITE_STATE_LIVE_HALVES = 0xFF ∧
      (site t n).spares = spares.map (min 4)) ∧
  (∀ (n rate rechosen : Nat) (modes spares : List Nat) (s : State), n < 8 → siteLink s n = 2 →
    max 1 (fld s (pageSite n) Reg.SITE_CFG_MAX_RATE) < rate →
    ∃ t, exec (.siteLinkTrained n rate modes spares rechosen) s = .next t ∧ siteLink t n = 0 ∧ bindState t (pageSite n) = 5 ∧
      fld t (pageSite n) Reg.SITE_OP_REASON = 3) ∧
  (∀ (k : Nat) (e : Envelope) (s : State), 0 < k → k < 64 → Machine.envelopeOk (ctx s k) e = false →
    ∃ t, exec (.inPostDiscard k e) s = .next t ∧ sameFields [(pageWin k 1, Reg.IN_STATUS_DROPPED)] s t ∧ t.ctxs = s.ctxs ∧ sameBytes s t ∧
      (fld s (pageWin k 1) Reg.IN_STATUS_DROPPED + 1 < 2 ^ Reg.IN_STATUS_DROPPED.width →
        fld t (pageWin k 1) Reg.IN_STATUS_DROPPED = fld s (pageWin k 1) Reg.IN_STATUS_DROPPED + 1)) ∧
  (∀ (c read write : Nat) (s : State), c < 384 → (channel s c).paused = true → trimSteps read (channel s c).adaptRead ≤ 16 →
    trimSteps write (channel s c).adaptWrite ≤ 16 → queueOf s c = [] → pageOp s (pageHbm (c / 32)) = none →
    ∃ t, exec (.retrainEnd c read write) s = .next t ∧ (channel t c).paused = false ∧ (channel t c).adaptRead = read % 256 ∧
      (channel t c).adaptWrite = write % 256 ∧ sameBytes s t) ∧
  (∀ (c read write : Nat) (s : State), (channel s c).paused = false → exec (.retrainEnd c read write) s = .next s) ∧
  (∀ (port : Nat) (s : State), fld s (pagePeat (port % 4)) Reg.PEAT_LINK_IDE_SECURE = 1 →
    ∃ t, exec (.peatIdeFailure port) s = .next t ∧ fld t (pagePeat (port % 4)) Reg.PEAT_LINK_IDE_SECURE = 0 ∧ t.peats = s.peats ∧ sameBytes s t) ∧
  (∀ (port : Nat) (s : State), fld s (pagePeat (port % 4)) Reg.PEAT_LINK_IDE_SECURE = 0 → exec (.peatIdeFailure port) s = .next s)

/-- R53 whole: dimension order, the shorter way (+ when both are 4 hops), the datelines and their virtual channels, at most 8
hops; and that the arbitration of an output moves only packets whose route leads there. -/
def Obligations.TorusRouting : Prop :=
  (∀ (p : NetPkt) (d dx dy a b : Nat), d = nodeRouter p.hdr.dst → p.router < 64 → d < 64 → 4 ≤ p.inPort → p.vc = 0 →
    dx = (d % 8 + 8 - p.router % 8) % 8 → dy = (d / 8 + 8 - p.router / 8) % 8 →
    a = (if dx ≤ 4 then 0 else 1) → b = (if dy ≤ 4 then 2 else 3) →
    links 9 p = straight a (min dx (8 - dx)) p.router 0 ++ straight b (min dy (8 - dy)) (d % 8 + 8 * (p.router / 8)) 0 ∧
    (links 9 p).length ≤ 8 ∧ ((links 9 p).foldl (fun r l => nextRouter r l.2.1) p.router) = d) ∧
  (∀ r dir, r < 64 → dir < 4 → (dateline r dir = true ↔
    (dir = 0 ∧ r % 8 = 7) ∨ (dir = 1 ∧ r % 8 = 0) ∨ (dir = 2 ∧ r / 8 = 7) ∨ (dir = 3 ∧ r / 8 = 0))) ∧
  (∀ (s : State) (r out i : Nat) (plane : Plane) (p : NetPkt), (i, p) ∈ candidates s r out plane →
    p.router = r ∧ route r p.hdr.dst = out)

/-- R60 whole. The limit of R488 on repeated CORRECTED records turns the record into a count; `PAGE_CTRL.COUNTER_FREEZE` holds the
counter (R73). -/
def Obligations.UnmatchedResponses : Prop :=
  ∀ (node p : Nat) (h : Header) (us : List Unit256) (clock age : Nat) (s : State), p = pageTile (nodeRouter node % 64) →
    takeFirst (fun r => r.src == node && r.srcSub == h.dstSub && r.tag == h.tag) s.torus.outstanding = none →
    ∃ t, exec (.responseArrival node h us clock age) s = .next t ∧ t.torus = s.torus ∧ t.out = s.out ∧ t.mem = s.mem ∧
      sameBytes s t ∧ sameFields ((p, Reg.ROUTER_UNEXPECTED_COUNT) :: errPlaces p) s t ∧
      (fld s p Reg.PAGE_CTRL_COUNTER_FREEZE = 0 → fld t p Reg.ROUTER_UNEXPECTED_COUNT =
        min (fld s p Reg.ROUTER_UNEXPECTED_COUNT + 1) (2 ^ Reg.ROUTER_UNEXPECTED_COUNT.width - 1)) ∧
      (heldBack { page := p, cls := 0x022 } s = false → ∃ r : ErrRec, t.errs.flight = s.errs.flight ++ [r] ∧
        r.sev = 0 ∧ r.cls = 0x022 ∧ r.page = p ∧ r.ctx = 0) ∧
      (heldBack { page := p, cls := 0x022 } s = true → t.errs.flight = s.errs.flight)

/-- R204 and R205, at the controllers: FILL, WRITEBACK, MC_RD32 and MC_WR32 (writing and adding). `base` is the line or the
sector that the request is for. -/
def Obligations.OwnershipViolations : Prop :=
  ∀ (h : Header) (us : List Unit256) (add : Bool) (c base : Nat) (e : FrameEnt) (i : Instr) (o ch : Nat) (x : Nat × Nat) (s : State),
    ((i = .fill h .clean ∧ o = 0x10 ∧ base = h.addr / 128 * 128) ∨ (i = .writeback h us ∧ o = 0x11 ∧ base = h.addr / 128 * 128) ∨
      (i = .mcRd32 h .clean ∧ o = 0x12 ∧ base = h.addr / 32 * 32) ∨ (i = .mcWr32 h add .clean ∧ o = 0x13 ∧ base = h.addr / 32 * 32)) →
    c = h.ctx → (c < 0x40 ∨ c = 0xFE ∨ c = 0xFF) → placeOf s h.addr = some (ch, x) → channelOpen s ch c = true →
    unreachable s base = false → h.noResp = false → e = frame s (frameOf base) →
    ¬ (e.state = .owned ∧ e.ctx = c) → ¬ (c = 0xFF ∧ e.state = .ashing) → ¬ (c = 0xFE ∧ e.state = .owned ∧ e.ctx = 0xFE) →
    ∃ t, exec i s = .next t ∧ t.mem = s.mem ∧ sameBytes s t ∧
      t.out.head? = some (.response (reply { h with opcode := o } 3 0) 3 []) ∧
      (∃ r ∈ t.errs.flight, r.cls = 0x032 ∧ r.addr = base ∧ r.addrValid = true ∧
        (0 < c ∧ c < 0x40 → r.ctx = c ∧ r.sev = 1) ∧ (¬ (0 < c ∧ c < 0x40) → r.ctx = 0 ∧ r.sev = 2)) ∧
      (0 < c ∧ c < 0x40 → 0 < ctxState s c → ctxState s c < 5 → ctxState t c = 5 ∧ (∀ p ∈ t.passes, p.ctx ≠ c) ∧
        (∀ f ∈ t.xlate.faults, f.ctx ≠ c)) ∧
      (¬ (0 < c ∧ c < 0x40) → ∀ k, k < 64 → ctxState t k = ctxState s k)

/-- R113 and R114 whole, over the arithmetic that every tile product goes through. No function of it takes the setting of zero
gating, so gating changes none of this. -/
def Obligations.SpecialOperandsAndScales : Prop :=
  (∀ (a b : Sys2Proof.Num.Val) (x y : ℚ), valueOf a = some x → valueOf b = some y →
    valueOf (Sys2Proof.Num.mul a b) = some (x * y) ∧ valueOf (Sys2Proof.Num.add a b) = some (x + y)) ∧
  (∀ (l : List Sys2Proof.Num.Val) (xs : List ℚ), l.map valueOf = xs.map some → valueOf (Sys2Proof.Num.sum l) = some xs.sum) ∧
  (∀ a : Sys2Proof.Num.Val, Sys2Proof.Num.mul .nan a = .nan ∧ Sys2Proof.Num.mul a .nan = .nan) ∧
  (∀ (b n : Bool) (e : Int), Sys2Proof.Num.mul (.inf b) (.fin n 0 e) = .nan ∧ Sys2Proof.Num.mul (.fin n 0 e) (.inf b) = .nan) ∧
  (∀ (b n : Bool) (m : Nat) (e : Int), m ≠ 0 → Sys2Proof.Num.mul (.inf b) (.fin n m e) = .inf (b ^^ n) ∧
    Sys2Proof.Num.mul (.fin n m e) (.inf b) = .inf (n ^^ b)) ∧
  (∀ l : List Sys2Proof.Num.Val, .nan ∈ l → Sys2Proof.Num.sum l = .nan) ∧
  (∀ l : List Sys2Proof.Num.Val, .inf true ∈ l → .inf false ∈ l → Sys2Proof.Num.sum l = .nan) ∧
  (∀ (l : List Sys2Proof.Num.Val) (b : Bool), .nan ∉ l → .inf b ∈ l → .inf (!b) ∉ l → Sys2Proof.Num.sum l = .inf b) ∧
  (∀ (v : Sys2Proof.Num.Val) (l : List Sys2Proof.Num.Val), (∀ w ∈ v :: l, Sys2Proof.Num.isZero w = true) → Sys2Proof.Num.isZero (Sys2Proof.Num.sum (v :: l)) = true ∧
    minusZero (Sys2Proof.Num.sum (v :: l)) = (v :: l).all minusZero) ∧
  (∀ v : Sys2Proof.Num.Val, Sys2Proof.Num.applyScale 0xFF v = .nan) ∧
  (∀ (md : Sys2Proof.Num.Mode) (segs : List (Nat × Nat × List Sys2Proof.Num.Val × List Sys2Proof.Num.Val)),
    (∃ g ∈ segs, g.1 = 0xFF ∨ g.2.1 = 0xFF) → Sys2Proof.Num.columnWide md segs = .nan) ∧
  (∀ (sat : Bool) (entry : Nat), (Sys2Proof.Num.accWrite true sat entry .nan).code = 0x7FC00000 ∧
    (Sys2Proof.Num.accWrite false sat entry .nan).code = 0x7FC00000)

/-- The frame of memory: a command that stores nothing in any of its forms leaves every byte, in memory, in the hub cache and
in an agent's cache, as it was. What a storing command changes is in the statement about it. -/
def Obligations.FrameOfMemory : Prop :=
  ∀ (i : Instr) (s t : State), storesNothing i = true → exec i s = .next t → sameBytes s t

/-- The frame of the life cycle, the keys, the policies and the sessions, and of the management cores: no other command, with any
operand and in any state, changes them. -/
def Obligations.FrameOfIdentityAndCores : Prop :=
  (∀ (i : Instr) (s t : State), mayTouchHeart i = false → exec i s = .next t → t.heart = s.heart) ∧
  (∀ (i : Instr) (s t : State), mayTouchCores i = false → exec i s = .next t → t.cores = s.cores)

/-- The frames of four special units, over all commands. -/
def Obligations.FrameOfTagsTimeHbmAndPeats : Prop :=
  (∀ (i : Instr) (s t : State), mayTouchTags i = false → exec i s = .next t → t.tags = s.tags) ∧
  (∀ (i : Instr) (s t : State), mayTouchTime i = false → exec i s = .next t → t.time = s.time) ∧
  (∀ (i : Instr) (s t : State), mayTouchHbm i = false → exec i s = .next t → t.hbm = s.hbm) ∧
  (∀ (i : Instr) (s t : State), mayTouchPeats i = false → exec i s = .next t → t.peats = s.peats)
end

