-- ==== Sys2Proof/Laws/State.lean ====
section
/-! SUPPORT. Laws of the state: what each named update leaves alone, field by field, so that no proof unfolds a record update. -/

namespace Sys2Proof.Machine

/-! `setFld` -/

@[simp] theorem setFld_pending (p : Nat) (f : Field) (v : Nat) (s : State) : (setFld p f v s).pending = s.pending := rfl
@[simp] theorem setFld_out (p : Nat) (f : Field) (v : Nat) (s : State) : (setFld p f v s).out = s.out := rfl
@[simp] theorem setFld_fresh (p : Nat) (f : Field) (v : Nat) (s : State) : (setFld p f v s).fresh = s.fresh := rfl
@[simp] theorem setFld_mem (p : Nat) (f : Field) (v : Nat) (s : State) : (setFld p f v s).mem = s.mem := rfl
@[simp] theorem setFld_cache (p : Nat) (f : Field) (v : Nat) (s : State) : (setFld p f v s).cache = s.cache := rfl
@[simp] theorem setFld_torus (p : Nat) (f : Field) (v : Nat) (s : State) : (setFld p f v s).torus = s.torus := rfl
@[simp] theorem setFld_errs (p : Nat) (f : Field) (v : Nat) (s : State) : (setFld p f v s).errs = s.errs := rfl
@[simp] theorem setFld_ops (p : Nat) (f : Field) (v : Nat) (s : State) : (setFld p f v s).ops = s.ops := rfl
@[simp] theorem setFld_shadows (p : Nat) (f : Field) (v : Nat) (s : State) : (setFld p f v s).shadows = s.shadows := rfl
@[simp] theorem setFld_tiles (p : Nat) (f : Field) (v : Nat) (s : State) : (setFld p f v s).tiles = s.tiles := rfl
@[simp] theorem setFld_passes (p : Nat) (f : Field) (v : Nat) (s : State) : (setFld p f v s).passes = s.passes := rfl
@[simp] theorem setFld_nextPass (p : Nat) (f : Field) (v : Nat) (s : State) : (setFld p f v s).nextPass = s.nextPass := rfl
@[simp] theorem setFld_tags (p : Nat) (f : Field) (v : Nat) (s : State) : (setFld p f v s).tags = s.tags := rfl
@[simp] theorem setFld_hbm (p : Nat) (f : Field) (v : Nat) (s : State) : (setFld p f v s).hbm = s.hbm := rfl
@[simp] theorem setFld_xlate (p : Nat) (f : Field) (v : Nat) (s : State) : (setFld p f v s).xlate = s.xlate := rfl
@[simp] theorem setFld_coh (p : Nat) (f : Field) (v : Nat) (s : State) : (setFld p f v s).coh = s.coh := rfl
@[simp] theorem setFld_regul (p : Nat) (f : Field) (v : Nat) (s : State) : (setFld p f v s).regul = s.regul := rfl
@[simp] theorem setFld_ctxs (p : Nat) (f : Field) (v : Nat) (s : State) : (setFld p f v s).ctxs = s.ctxs := rfl
@[simp] theorem setFld_msix (p : Nat) (f : Field) (v : Nat) (s : State) : (setFld p f v s).msix = s.msix := rfl
@[simp] theorem setFld_time (p : Nat) (f : Field) (v : Nat) (s : State) : (setFld p f v s).time = s.time := rfl
@[simp] theorem setFld_sites (p : Nat) (f : Field) (v : Nat) (s : State) : (setFld p f v s).sites = s.sites := rfl
@[simp] theorem setFld_heart (p : Nat) (f : Field) (v : Nat) (s : State) : (setFld p f v s).heart = s.heart := rfl
@[simp] theorem setFld_cores (p : Nat) (f : Field) (v : Nat) (s : State) : (setFld p f v s).cores = s.cores := rfl
@[simp] theorem setFld_plr (p : Nat) (f : Field) (v : Nat) (s : State) : (setFld p f v s).plr = s.plr := rfl
@[simp] theorem setFld_kiln (p : Nat) (f : Field) (v : Nat) (s : State) : (setFld p f v s).kiln = s.kiln := rfl
@[simp] theorem setFld_ember (p : Nat) (f : Field) (v : Nat) (s : State) : (setFld p f v s).ember = s.ember := rfl
@[simp] theorem setFld_host (p : Nat) (f : Field) (v : Nat) (s : State) : (setFld p f v s).host = s.host := rfl
@[simp] theorem setFld_peats (p : Nat) (f : Field) (v : Nat) (s : State) : (setFld p f v s).peats = s.peats := rfl
@[simp] theorem setFld_power (p : Nat) (f : Field) (v : Nat) (s : State) : (setFld p f v s).power = s.power := rfl

/-! `resetFlds` -/

@[simp] theorem resetFlds_pending (p : Nat) (l : List Field) (s : State) : (resetFlds p l s).pending = s.pending := rfl
@[simp] theorem resetFlds_out (p : Nat) (l : List Field) (s : State) : (resetFlds p l s).out = s.out := rfl
@[simp] theorem resetFlds_fresh (p : Nat) (l : List Field) (s : State) : (resetFlds p l s).fresh = s.fresh := rfl
@[simp] theorem resetFlds_mem (p : Nat) (l : List Field) (s : State) : (resetFlds p l s).mem = s.mem := rfl
@[simp] theorem resetFlds_cache (p : Nat) (l : List Field) (s : State) : (resetFlds p l s).cache = s.cache := rfl
@[simp] theorem resetFlds_torus (p : Nat) (l : List Field) (s : State) : (resetFlds p l s).torus = s.torus := rfl
@[simp] theorem resetFlds_errs (p : Nat) (l : List Field) (s : State) : (resetFlds p l s).errs = s.errs := rfl
@[simp] theorem resetFlds_ops (p : Nat) (l : List Field) (s : State) : (resetFlds p l s).ops = s.ops := rfl
@[simp] theorem resetFlds_shadows (p : Nat) (l : List Field) (s : State) : (resetFlds p l s).shadows = s.shadows := rfl
@[simp] theorem resetFlds_tiles (p : Nat) (l : List Field) (s : State) : (resetFlds p l s).tiles = s.tiles := rfl
@[simp] theorem resetFlds_passes (p : Nat) (l : List Field) (s : State) : (resetFlds p l s).passes = s.passes := rfl
@[simp] theorem resetFlds_nextPass (p : Nat) (l : List Field) (s : State) : (resetFlds p l s).nextPass = s.nextPass := rfl
@[simp] theorem resetFlds_tags (p : Nat) (l : List Field) (s : State) : (resetFlds p l s).tags = s.tags := rfl
@[simp] theorem resetFlds_hbm (p : Nat) (l : List Field) (s : State) : (resetFlds p l s).hbm = s.hbm := rfl
@[simp] theorem resetFlds_xlate (p : Nat) (l : List Field) (s : State) : (resetFlds p l s).xlate = s.xlate := rfl
@[simp] theorem resetFlds_coh (p : Nat) (l : List Field) (s : State) : (resetFlds p l s).coh = s.coh := rfl
@[simp] theorem resetFlds_regul (p : Nat) (l : List Field) (s : State) : (resetFlds p l s).regul = s.regul := rfl
@[simp] theorem resetFlds_ctxs (p : Nat) (l : List Field) (s : State) : (resetFlds p l s).ctxs = s.ctxs := rfl
@[simp] theorem resetFlds_msix (p : Nat) (l : List Field) (s : State) : (resetFlds p l s).msix = s.msix := rfl
@[simp] theorem resetFlds_time (p : Nat) (l : List Field) (s : State) : (resetFlds p l s).time = s.time := rfl
@[simp] theorem resetFlds_sites (p : Nat) (l : List Field) (s : State) : (resetFlds p l s).sites = s.sites := rfl
@[simp] theorem resetFlds_heart (p : Nat) (l : List Field) (s : State) : (resetFlds p l s).heart = s.heart := rfl
@[simp] theorem resetFlds_cores (p : Nat) (l : List Field) (s : State) : (resetFlds p l s).cores = s.cores := rfl
@[simp] theorem resetFlds_plr (p : Nat) (l : List Field) (s : State) : (resetFlds p l s).plr = s.plr := rfl
@[simp] theorem resetFlds_kiln (p : Nat) (l : List Field) (s : State) : (resetFlds p l s).kiln = s.kiln := rfl
@[simp] theorem resetFlds_ember (p : Nat) (l : List Field) (s : State) : (resetFlds p l s).ember = s.ember := rfl
@[simp] theorem resetFlds_host (p : Nat) (l : List Field) (s : State) : (resetFlds p l s).host = s.host := rfl
@[simp] theorem resetFlds_peats (p : Nat) (l : List Field) (s : State) : (resetFlds p l s).peats = s.peats := rfl
@[simp] theorem resetFlds_power (p : Nat) (l : List Field) (s : State) : (resetFlds p l s).power = s.power := rfl

/-! `emit` -/

@[simp] theorem emit_pending (o : Out) (s : State) : (emit o s).pending = s.pending := rfl
@[simp] theorem emit_fresh (o : Out) (s : State) : (emit o s).fresh = s.fresh := rfl
@[simp] theorem emit_regs (o : Out) (s : State) : (emit o s).regs = s.regs := rfl
@[simp] theorem emit_mem (o : Out) (s : State) : (emit o s).mem = s.mem := rfl
@[simp] theorem emit_cache (o : Out) (s : State) : (emit o s).cache = s.cache := rfl
@[simp] theorem emit_torus (o : Out) (s : State) : (emit o s).torus = s.torus := rfl
@[simp] theorem emit_errs (o : Out) (s : State) : (emit o s).errs = s.errs := rfl
@[simp] theorem emit_ops (o : Out) (s : State) : (emit o s).ops = s.ops := rfl
@[simp] theorem emit_shadows (o : Out) (s : State) : (emit o s).shadows = s.shadows := rfl
@[simp] theorem emit_tiles (o : Out) (s : State) : (emit o s).tiles = s.tiles := rfl
@[simp] theorem emit_passes (o : Out) (s : State) : (emit o s).passes = s.passes := rfl
@[simp] theorem emit_nextPass (o : Out) (s : State) : (emit o s).nextPass = s.nextPass := rfl
@[simp] theorem emit_tags (o : Out) (s : State) : (emit o s).tags = s.tags := rfl
@[simp] theorem emit_hbm (o : Out) (s : State) : (emit o s).hbm = s.hbm := rfl
@[simp] theorem emit_xlate (o : Out) (s : State) : (emit o s).xlate = s.xlate := rfl
@[simp] theorem emit_coh (o : Out) (s : State) : (emit o s).coh = s.coh := rfl
@[simp] theorem emit_regul (o : Out) (s : State) : (emit o s).regul = s.regul := rfl
@[simp] theorem emit_ctxs (o : Out) (s : State) : (emit o s).ctxs = s.ctxs := rfl
@[simp] theorem emit_msix (o : Out) (s : State) : (emit o s).msix = s.msix := rfl
@[simp] theorem emit_time (o : Out) (s : State) : (emit o s).time = s.time := rfl
@[simp] theorem emit_sites (o : Out) (s : State) : (emit o s).sites = s.sites := rfl
@[simp] theorem emit_heart (o : Out) (s : State) : (emit o s).heart = s.heart := rfl
@[simp] theorem emit_cores (o : Out) (s : State) : (emit o s).cores = s.cores := rfl
@[simp] theorem emit_plr (o : Out) (s : State) : (emit o s).plr = s.plr := rfl
@[simp] theorem emit_kiln (o : Out) (s : State) : (emit o s).kiln = s.kiln := rfl
@[simp] theorem emit_ember (o : Out) (s : State) : (emit o s).ember = s.ember := rfl
@[simp] theorem emit_host (o : Out) (s : State) : (emit o s).host = s.host := rfl
@[simp] theorem emit_peats (o : Out) (s : State) : (emit o s).peats = s.peats := rfl
@[simp] theorem emit_power (o : Out) (s : State) : (emit o s).power = s.power := rfl

/-! `drew` -/

@[simp] theorem drew_pending (s : State) : (drew s).pending = s.pending := rfl
@[simp] theorem drew_out (s : State) : (drew s).out = s.out := rfl
@[simp] theorem drew_regs (s : State) : (drew s).regs = s.regs := rfl
@[simp] theorem drew_mem (s : State) : (drew s).mem = s.mem := rfl
@[simp] theorem drew_cache (s : State) : (drew s).cache = s.cache := rfl
@[simp] theorem drew_torus (s : State) : (drew s).torus = s.torus := rfl
@[simp] theorem drew_errs (s : State) : (drew s).errs = s.errs := rfl
@[simp] theorem drew_ops (s : State) : (drew s).ops = s.ops := rfl
@[simp] theorem drew_shadows (s : State) : (drew s).shadows = s.shadows := rfl
@[simp] theorem drew_tiles (s : State) : (drew s).tiles = s.tiles := rfl
@[simp] theorem drew_passes (s : State) : (drew s).passes = s.passes := rfl
@[simp] theorem drew_nextPass (s : State) : (drew s).nextPass = s.nextPass := rfl
@[simp] theorem drew_tags (s : State) : (drew s).tags = s.tags := rfl
@[simp] theorem drew_hbm (s : State) : (drew s).hbm = s.hbm := rfl
@[simp] theorem drew_xlate (s : State) : (drew s).xlate = s.xlate := rfl
@[simp] theorem drew_coh (s : State) : (drew s).coh = s.coh := rfl
@[simp] theorem drew_regul (s : State) : (drew s).regul = s.regul := rfl
@[simp] theorem drew_ctxs (s : State) : (drew s).ctxs = s.ctxs := rfl
@[simp] theorem drew_msix (s : State) : (drew s).msix = s.msix := rfl
@[simp] theorem drew_time (s : State) : (drew s).time = s.time := rfl
@[simp] theorem drew_sites (s : State) : (drew s).sites = s.sites := rfl
@[simp] theorem drew_heart (s : State) : (drew s).heart = s.heart := rfl
@[simp] theorem drew_cores (s : State) : (drew s).cores = s.cores := rfl
@[simp] theorem drew_plr (s : State) : (drew s).plr = s.plr := rfl
@[simp] theorem drew_kiln (s : State) : (drew s).kiln = s.kiln := rfl
@[simp] theorem drew_ember (s : State) : (drew s).ember = s.ember := rfl
@[simp] theorem drew_host (s : State) : (drew s).host = s.host := rfl
@[simp] theorem drew_peats (s : State) : (drew s).peats = s.peats := rfl
@[simp] theorem drew_power (s : State) : (drew s).power = s.power := rfl

/-! `setPin` -/

@[simp] theorem setPin_pending (n : Nat) (b : Bool) (s : State) : (setPin n b s).pending = s.pending := rfl
@[simp] theorem setPin_fresh (n : Nat) (b : Bool) (s : State) : (setPin n b s).fresh = s.fresh := rfl
@[simp] theorem setPin_regs (n : Nat) (b : Bool) (s : State) : (setPin n b s).regs = s.regs := rfl
@[simp] theorem setPin_mem (n : Nat) (b : Bool) (s : State) : (setPin n b s).mem = s.mem := rfl
@[simp] theorem setPin_cache (n : Nat) (b : Bool) (s : State) : (setPin n b s).cache = s.cache := rfl
@[simp] theorem setPin_torus (n : Nat) (b : Bool) (s : State) : (setPin n b s).torus = s.torus := rfl
@[simp] theorem setPin_errs (n : Nat) (b : Bool) (s : State) : (setPin n b s).errs = s.errs := rfl
@[simp] theorem setPin_ops (n : Nat) (b : Bool) (s : State) : (setPin n b s).ops = s.ops := rfl
@[simp] theorem setPin_shadows (n : Nat) (b : Bool) (s : State) : (setPin n b s).shadows = s.shadows := rfl
@[simp] theorem setPin_tiles (n : Nat) (b : Bool) (s : State) : (setPin n b s).tiles = s.tiles := rfl
@[simp] theorem setPin_passes (n : Nat) (b : Bool) (s : State) : (setPin n b s).passes = s.passes := rfl
@[simp] theorem setPin_nextPass (n : Nat) (b : Bool) (s : State) : (setPin n b s).nextPass = s.nextPass := rfl
@[simp] theorem setPin_tags (n : Nat) (b : Bool) (s : State) : (setPin n b s).tags = s.tags := rfl
@[simp] theorem setPin_hbm (n : Nat) (b : Bool) (s : State) : (setPin n b s).hbm = s.hbm := rfl
@[simp] theorem setPin_xlate (n : Nat) (b : Bool) (s : State) : (setPin n b s).xlate = s.xlate := rfl
@[simp] theorem setPin_coh (n : Nat) (b : Bool) (s : State) : (setPin n b s).coh = s.coh := rfl
@[simp] theorem setPin_regul (n : Nat) (b : Bool) (s : State) : (setPin n b s).regul = s.regul := rfl
@[simp] theorem setPin_ctxs (n : Nat) (b : Bool) (s : State) : (setPin n b s).ctxs = s.ctxs := rfl
@[simp] theorem setPin_msix (n : Nat) (b : Bool) (s : State) : (setPin n b s).msix = s.msix := rfl
@[simp] theorem setPin_time (n : Nat) (b : Bool) (s : State) : (setPin n b s).time = s.time := rfl
@[simp] theorem setPin_sites (n : Nat) (b : Bool) (s : State) : (setPin n b s).sites = s.sites := rfl
@[simp] theorem setPin_heart (n : Nat) (b : Bool) (s : State) : (setPin n b s).heart = s.heart := rfl
@[simp] theorem setPin_cores (n : Nat) (b : Bool) (s : State) : (setPin n b s).cores = s.cores := rfl
@[simp] theorem setPin_plr (n : Nat) (b : Bool) (s : State) : (setPin n b s).plr = s.plr := rfl
@[simp] theorem setPin_kiln (n : Nat) (b : Bool) (s : State) : (setPin n b s).kiln = s.kiln := rfl
@[simp] theorem setPin_ember (n : Nat) (b : Bool) (s : State) : (setPin n b s).ember = s.ember := rfl
@[simp] theorem setPin_host (n : Nat) (b : Bool) (s : State) : (setPin n b s).host = s.host := rfl
@[simp] theorem setPin_peats (n : Nat) (b : Bool) (s : State) : (setPin n b s).peats = s.peats := rfl

/-! `setDomain` -/

@[simp] theorem setDomain_pending (d : Nat) (b : Bool) (s : State) : (setDomain d b s).pending = s.pending := rfl
@[simp] theorem setDomain_out (d : Nat) (b : Bool) (s : State) : (setDomain d b s).out = s.out := rfl
@[simp] theorem setDomain_fresh (d : Nat) (b : Bool) (s : State) : (setDomain d b s).fresh = s.fresh := rfl
@[simp] theorem setDomain_regs (d : Nat) (b : Bool) (s : State) : (setDomain d b s).regs = s.regs := rfl
@[simp] theorem setDomain_mem (d : Nat) (b : Bool) (s : State) : (setDomain d b s).mem = s.mem := rfl
@[simp] theorem setDomain_cache (d : Nat) (b : Bool) (s : State) : (setDomain d b s).cache = s.cache := rfl
@[simp] theorem setDomain_torus (d : Nat) (b : Bool) (s : State) : (setDomain d b s).torus = s.torus := rfl
@[simp] theorem setDomain_errs (d : Nat) (b : Bool) (s : State) : (setDomain d b s).errs = s.errs := rfl
@[simp] theorem setDomain_ops (d : Nat) (b : Bool) (s : State) : (setDomain d b s).ops = s.ops := rfl
@[simp] theorem setDomain_shadows (d : Nat) (b : Bool) (s : State) : (setDomain d b s).shadows = s.shadows := rfl
@[simp] theorem setDomain_tiles (d : Nat) (b : Bool) (s : State) : (setDomain d b s).tiles = s.tiles := rfl
@[simp] theorem setDomain_passes (d : Nat) (b : Bool) (s : State) : (setDomain d b s).passes = s.passes := rfl
@[simp] theorem setDomain_nextPass (d : Nat) (b : Bool) (s : State) : (setDomain d b s).nextPass = s.nextPass := rfl
@[simp] theorem setDomain_tags (d : Nat) (b : Bool) (s : State) : (setDomain d b s).tags = s.tags := rfl
@[simp] theorem setDomain_hbm (d : Nat) (b : Bool) (s : State) : (setDomain d b s).hbm = s.hbm := rfl
@[simp] theorem setDomain_xlate (d : Nat) (b : Bool) (s : State) : (setDomain d b s).xlate = s.xlate := rfl
@[simp] theorem setDomain_coh (d : Nat) (b : Bool) (s : State) : (setDomain d b s).coh = s.coh := rfl
@[simp] theorem setDomain_regul (d : Nat) (b : Bool) (s : State) : (setDomain d b s).regul = s.regul := rfl
@[simp] theorem setDomain_ctxs (d : Nat) (b : Bool) (s : State) : (setDomain d b s).ctxs = s.ctxs := rfl
@[simp] theorem setDomain_msix (d : Nat) (b : Bool) (s : State) : (setDomain d b s).msix = s.msix := rfl
@[simp] theorem setDomain_time (d : Nat) (b : Bool) (s : State) : (setDomain d b s).time = s.time := rfl
@[simp] theorem setDomain_sites (d : Nat) (b : Bool) (s : State) : (setDomain d b s).sites = s.sites := rfl
@[simp] theorem setDomain_heart (d : Nat) (b : Bool) (s : State) : (setDomain d b s).heart = s.heart := rfl
@[simp] theorem setDomain_cores (d : Nat) (b : Bool) (s : State) : (setDomain d b s).cores = s.cores := rfl
@[simp] theorem setDomain_plr (d : Nat) (b : Bool) (s : State) : (setDomain d b s).plr = s.plr := rfl
@[simp] theorem setDomain_kiln (d : Nat) (b : Bool) (s : State) : (setDomain d b s).kiln = s.kiln := rfl
@[simp] theorem setDomain_ember (d : Nat) (b : Bool) (s : State) : (setDomain d b s).ember = s.ember := rfl
@[simp] theorem setDomain_host (d : Nat) (b : Bool) (s : State) : (setDomain d b s).host = s.host := rfl
@[simp] theorem setDomain_peats (d : Nat) (b : Bool) (s : State) : (setDomain d b s).peats = s.peats := rfl

/-! `setCfg` -/

@[simp] theorem setCfg_pending (fn o v : Nat) (s : State) : (setCfg fn o v s).pending = s.pending := rfl
@[simp] theorem setCfg_out (fn o v : Nat) (s : State) : (setCfg fn o v s).out = s.out := rfl
@[simp] theorem setCfg_fresh (fn o v : Nat) (s : State) : (setCfg fn o v s).fresh = s.fresh := rfl
@[simp] theorem setCfg_regs (fn o v : Nat) (s : State) : (setCfg fn o v s).regs = s.regs := rfl
@[simp] theorem setCfg_mem (fn o v : Nat) (s : State) : (setCfg fn o v s).mem = s.mem := rfl
@[simp] theorem setCfg_cache (fn o v : Nat) (s : State) : (setCfg fn o v s).cache = s.cache := rfl
@[simp] theorem setCfg_torus (fn o v : Nat) (s : State) : (setCfg fn o v s).torus = s.torus := rfl
@[simp] theorem setCfg_errs (fn o v : Nat) (s : State) : (setCfg fn o v s).errs = s.errs := rfl
@[simp] theorem setCfg_ops (fn o v : Nat) (s : State) : (setCfg fn o v s).ops = s.ops := rfl
@[simp] theorem setCfg_shadows (fn o v : Nat) (s : State) : (setCfg fn o v s).shadows = s.shadows := rfl
@[simp] theorem setCfg_tiles (fn o v : Nat) (s : State) : (setCfg fn o v s).tiles = s.tiles := rfl
@[simp] theorem setCfg_passes (fn o v : Nat) (s : State) : (setCfg fn o v s).passes = s.passes := rfl
@[simp] theorem setCfg_nextPass (fn o v : Nat) (s : State) : (setCfg fn o v s).nextPass = s.nextPass := rfl
@[simp] theorem setCfg_tags (fn o v : Nat) (s : State) : (setCfg fn o v s).tags = s.tags := rfl
@[simp] theorem setCfg_hbm (fn o v : Nat) (s : State) : (setCfg fn o v s).hbm = s.hbm := rfl
@[simp] theorem setCfg_xlate (fn o v : Nat) (s : State) : (setCfg fn o v s).xlate = s.xlate := rfl
@[simp] theorem setCfg_coh (fn o v : Nat) (s : State) : (setCfg fn o v s).coh = s.coh := rfl
@[simp] theorem setCfg_regul (fn o v : Nat) (s : State) : (setCfg fn o v s).regul = s.regul := rfl
@[simp] theorem setCfg_ctxs (fn o v : Nat) (s : State) : (setCfg fn o v s).ctxs = s.ctxs := rfl
@[simp] theorem setCfg_msix (fn o v : Nat) (s : State) : (setCfg fn o v s).msix = s.msix := rfl
@[simp] theorem setCfg_time (fn o v : Nat) (s : State) : (setCfg fn o v s).time = s.time := rfl
@[simp] theorem setCfg_sites (fn o v : Nat) (s : State) : (setCfg fn o v s).sites = s.sites := rfl
@[simp] theorem setCfg_heart (fn o v : Nat) (s : State) : (setCfg fn o v s).heart = s.heart := rfl
@[simp] theorem setCfg_cores (fn o v : Nat) (s : State) : (setCfg fn o v s).cores = s.cores := rfl
@[simp] theorem setCfg_plr (fn o v : Nat) (s : State) : (setCfg fn o v s).plr = s.plr := rfl
@[simp] theorem setCfg_kiln (fn o v : Nat) (s : State) : (setCfg fn o v s).kiln = s.kiln := rfl
@[simp] theorem setCfg_ember (fn o v : Nat) (s : State) : (setCfg fn o v s).ember = s.ember := rfl
@[simp] theorem setCfg_peats (fn o v : Nat) (s : State) : (setCfg fn o v s).peats = s.peats := rfl
@[simp] theorem setCfg_power (fn o v : Nat) (s : State) : (setCfg fn o v s).power = s.power := rfl

/-! `setTile` -/

@[simp] theorem setTile_pending (n : Nat) (x : TileSt) (s : State) : (setTile n x s).pending = s.pending := rfl
@[simp] theorem setTile_out (n : Nat) (x : TileSt) (s : State) : (setTile n x s).out = s.out := rfl
@[simp] theorem setTile_fresh (n : Nat) (x : TileSt) (s : State) : (setTile n x s).fresh = s.fresh := rfl
@[simp] theorem setTile_regs (n : Nat) (x : TileSt) (s : State) : (setTile n x s).regs = s.regs := rfl
@[simp] theorem setTile_mem (n : Nat) (x : TileSt) (s : State) : (setTile n x s).mem = s.mem := rfl
@[simp] theorem setTile_cache (n : Nat) (x : TileSt) (s : State) : (setTile n x s).cache = s.cache := rfl
@[simp] theorem setTile_torus (n : Nat) (x : TileSt) (s : State) : (setTile n x s).torus = s.torus := rfl
@[simp] theorem setTile_errs (n : Nat) (x : TileSt) (s : State) : (setTile n x s).errs = s.errs := rfl
@[simp] theorem setTile_ops (n : Nat) (x : TileSt) (s : State) : (setTile n x s).ops = s.ops := rfl
@[simp] theorem setTile_shadows (n : Nat) (x : TileSt) (s : State) : (setTile n x s).shadows = s.shadows := rfl
@[simp] theorem setTile_passes (n : Nat) (x : TileSt) (s : State) : (setTile n x s).passes = s.passes := rfl
@[simp] theorem setTile_nextPass (n : Nat) (x : TileSt) (s : State) : (setTile n x s).nextPass = s.nextPass := rfl
@[simp] theorem setTile_tags (n : Nat) (x : TileSt) (s : State) : (setTile n x s).tags = s.tags := rfl
@[simp] theorem setTile_hbm (n : Nat) (x : TileSt) (s : State) : (setTile n x s).hbm = s.hbm := rfl
@[simp] theorem setTile_xlate (n : Nat) (x : TileSt) (s : State) : (setTile n x s).xlate = s.xlate := rfl
@[simp] theorem setTile_coh (n : Nat) (x : TileSt) (s : State) : (setTile n x s).coh = s.coh := rfl
@[simp] theorem setTile_regul (n : Nat) (x : TileSt) (s : State) : (setTile n x s).regul = s.regul := rfl
@[simp] theorem setTile_ctxs (n : Nat) (x : TileSt) (s : State) : (setTile n x s).ctxs = s.ctxs := rfl
@[simp] theorem setTile_msix (n : Nat) (x : TileSt) (s : State) : (setTile n x s).msix = s.msix := rfl
@[simp] theorem setTile_time (n : Nat) (x : TileSt) (s : State) : (setTile n x s).time = s.time := rfl
@[simp] theorem setTile_sites (n : Nat) (x : TileSt) (s : State) : (setTile n x s).sites = s.sites := rfl
@[simp] theorem setTile_heart (n : Nat) (x : TileSt) (s : State) : (setTile n x s).heart = s.heart := rfl
@[simp] theorem setTile_cores (n : Nat) (x : TileSt) (s : State) : (setTile n x s).cores = s.cores := rfl
@[simp] theorem setTile_plr (n : Nat) (x : TileSt) (s : State) : (setTile n x s).plr = s.plr := rfl
@[simp] theorem setTile_kiln (n : Nat) (x : TileSt) (s : State) : (setTile n x s).kiln = s.kiln := rfl
@[simp] theorem setTile_ember (n : Nat) (x : TileSt) (s : State) : (setTile n x s).ember = s.ember := rfl
@[simp] theorem setTile_host (n : Nat) (x : TileSt) (s : State) : (setTile n x s).host = s.host := rfl
@[simp] theorem setTile_peats (n : Nat) (x : TileSt) (s : State) : (setTile n x s).peats = s.peats := rfl
@[simp] theorem setTile_power (n : Nat) (x : TileSt) (s : State) : (setTile n x s).power = s.power := rfl

/-! `modTile` -/

@[simp] theorem modTile_pending (n : Nat) (f : TileSt → TileSt) (s : State) : (modTile n f s).pending = s.pending := rfl
@[simp] theorem modTile_out (n : Nat) (f : TileSt → TileSt) (s : State) : (modTile n f s).out = s.out := rfl
@[simp] theorem modTile_fresh (n : Nat) (f : TileSt → TileSt) (s : State) : (modTile n f s).fresh = s.fresh := rfl
@[simp] theorem modTile_regs (n : Nat) (f : TileSt → TileSt) (s : State) : (modTile n f s).regs = s.regs := rfl
@[simp] theorem modTile_mem (n : Nat) (f : TileSt → TileSt) (s : State) : (modTile n f s).mem = s.mem := rfl
@[simp] theorem modTile_cache (n : Nat) (f : TileSt → TileSt) (s : State) : (modTile n f s).cache = s.cache := rfl
@[simp] theorem modTile_torus (n : Nat) (f : TileSt → TileSt) (s : State) : (modTile n f s).torus = s.torus := rfl
@[simp] theorem modTile_errs (n : Nat) (f : TileSt → TileSt) (s : State) : (modTile n f s).errs = s.errs := rfl
@[simp] theorem modTile_ops (n : Nat) (f : TileSt → TileSt) (s : State) : (modTile n f s).ops = s.ops := rfl
@[simp] theorem modTile_shadows (n : Nat) (f : TileSt → TileSt) (s : State) : (modTile n f s).shadows = s.shadows := rfl
@[simp] theorem modTile_passes (n : Nat) (f : TileSt → TileSt) (s : State) : (modTile n f s).passes = s.passes := rfl
@[simp] theorem modTile_nextPass (n : Nat) (f : TileSt → TileSt) (s : State) : (modTile n f s).nextPass = s.nextPass := rfl
@[simp] theorem modTile_tags (n : Nat) (f : TileSt → TileSt) (s : State) : (modTile n f s).tags = s.tags := rfl
@[simp] theorem modTile_hbm (n : Nat) (f : TileSt → TileSt) (s : State) : (modTile n f s).hbm = s.hbm := rfl
@[simp] theorem modTile_xlate (n : Nat) (f : TileSt → TileSt) (s : State) : (modTile n f s).xlate = s.xlate := rfl
@[simp] theorem modTile_coh (n : Nat) (f : TileSt → TileSt) (s : State) : (modTile n f s).coh = s.coh := rfl
@[simp] theorem modTile_regul (n : Nat) (f : TileSt → TileSt) (s : State) : (modTile n f s).regul = s.regul := rfl
@[simp] theorem modTile_ctxs (n : Nat) (f : TileSt → TileSt) (s : State) : (modTile n f s).ctxs = s.ctxs := rfl
@[simp] theorem modTile_msix (n : Nat) (f : TileSt → TileSt) (s : State) : (modTile n f s).msix = s.msix := rfl
@[simp] theorem modTile_time (n : Nat) (f : TileSt → TileSt) (s : State) : (modTile n f s).time = s.time := rfl
@[simp] theorem modTile_sites (n : Nat) (f : TileSt → TileSt) (s : State) : (modTile n f s).sites = s.sites := rfl
@[simp] theorem modTile_heart (n : Nat) (f : TileSt → TileSt) (s : State) : (modTile n f s).heart = s.heart := rfl
@[simp] theorem modTile_cores (n : Nat) (f : TileSt → TileSt) (s : State) : (modTile n f s).cores = s.cores := rfl
@[simp] theorem modTile_plr (n : Nat) (f : TileSt → TileSt) (s : State) : (modTile n f s).plr = s.plr := rfl
@[simp] theorem modTile_kiln (n : Nat) (f : TileSt → TileSt) (s : State) : (modTile n f s).kiln = s.kiln := rfl
@[simp] theorem modTile_ember (n : Nat) (f : TileSt → TileSt) (s : State) : (modTile n f s).ember = s.ember := rfl
@[simp] theorem modTile_host (n : Nat) (f : TileSt → TileSt) (s : State) : (modTile n f s).host = s.host := rfl
@[simp] theorem modTile_peats (n : Nat) (f : TileSt → TileSt) (s : State) : (modTile n f s).peats = s.peats := rfl
@[simp] theorem modTile_power (n : Nat) (f : TileSt → TileSt) (s : State) : (modTile n f s).power = s.power := rfl

/-! `setCtx` -/

@[simp] theorem setCtx_pending (k : Nat) (c : CtxSt) (s : State) : (setCtx k c s).pending = s.pending := rfl
@[simp] theorem setCtx_out (k : Nat) (c : CtxSt) (s : State) : (setCtx k c s).out = s.out := rfl
@[simp] theorem setCtx_fresh (k : Nat) (c : CtxSt) (s : State) : (setCtx k c s).fresh = s.fresh := rfl
@[simp] theorem setCtx_regs (k : Nat) (c : CtxSt) (s : State) : (setCtx k c s).regs = s.regs := rfl
@[simp] theorem setCtx_mem (k : Nat) (c : CtxSt) (s : State) : (setCtx k c s).mem = s.mem := rfl
@[simp] theorem setCtx_cache (k : Nat) (c : CtxSt) (s : State) : (setCtx k c s).cache = s.cache := rfl
@[simp] theorem setCtx_torus (k : Nat) (c : CtxSt) (s : State) : (setCtx k c s).torus = s.torus := rfl
@[simp] theorem setCtx_errs (k : Nat) (c : CtxSt) (s : State) : (setCtx k c s).errs = s.errs := rfl
@[simp] theorem setCtx_ops (k : Nat) (c : CtxSt) (s : State) : (setCtx k c s).ops = s.ops := rfl
@[simp] theorem setCtx_shadows (k : Nat) (c : CtxSt) (s : State) : (setCtx k c s).shadows = s.shadows := rfl
@[simp] theorem setCtx_tiles (k : Nat) (c : CtxSt) (s : State) : (setCtx k c s).tiles = s.tiles := rfl
@[simp] theorem setCtx_passes (k : Nat) (c : CtxSt) (s : State) : (setCtx k c s).passes = s.passes := rfl
@[simp] theorem setCtx_nextPass (k : Nat) (c : CtxSt) (s : State) : (setCtx k c s).nextPass = s.nextPass := rfl
@[simp] theorem setCtx_tags (k : Nat) (c : CtxSt) (s : State) : (setCtx k c s).tags = s.tags := rfl
@[simp] theorem setCtx_hbm (k : Nat) (c : CtxSt) (s : State) : (setCtx k c s).hbm = s.hbm := rfl
@[simp] theorem setCtx_xlate (k : Nat) (c : CtxSt) (s : State) : (setCtx k c s).xlate = s.xlate := rfl
@[simp] theorem setCtx_coh (k : Nat) (c : CtxSt) (s : State) : (setCtx k c s).coh = s.coh := rfl
@[simp] theorem setCtx_regul (k : Nat) (c : CtxSt) (s : State) : (setCtx k c s).regul = s.regul := rfl
@[simp] theorem setCtx_msix (k : Nat) (c : CtxSt) (s : State) : (setCtx k c s).msix = s.msix := rfl
@[simp] theorem setCtx_time (k : Nat) (c : CtxSt) (s : State) : (setCtx k c s).time = s.time := rfl
@[simp] theorem setCtx_sites (k : Nat) (c : CtxSt) (s : State) : (setCtx k c s).sites = s.sites := rfl
@[simp] theorem setCtx_heart (k : Nat) (c : CtxSt) (s : State) : (setCtx k c s).heart = s.heart := rfl
@[simp] theorem setCtx_cores (k : Nat) (c : CtxSt) (s : State) : (setCtx k c s).cores = s.cores := rfl
@[simp] theorem setCtx_plr (k : Nat) (c : CtxSt) (s : State) : (setCtx k c s).plr = s.plr := rfl
@[simp] theorem setCtx_kiln (k : Nat) (c : CtxSt) (s : State) : (setCtx k c s).kiln = s.kiln := rfl
@[simp] theorem setCtx_ember (k : Nat) (c : CtxSt) (s : State) : (setCtx k c s).ember = s.ember := rfl
@[simp] theorem setCtx_host (k : Nat) (c : CtxSt) (s : State) : (setCtx k c s).host = s.host := rfl
@[simp] theorem setCtx_peats (k : Nat) (c : CtxSt) (s : State) : (setCtx k c s).peats = s.peats := rfl
@[simp] theorem setCtx_power (k : Nat) (c : CtxSt) (s : State) : (setCtx k c s).power = s.power := rfl

/-! `modCtx` -/

@[simp] theorem modCtx_pending (k : Nat) (f : CtxSt → CtxSt) (s : State) : (modCtx k f s).pending = s.pending := rfl
@[simp] theorem modCtx_out (k : Nat) (f : CtxSt → CtxSt) (s : State) : (modCtx k f s).out = s.out := rfl
@[simp] theorem modCtx_fresh (k : Nat) (f : CtxSt → CtxSt) (s : State) : (modCtx k f s).fresh = s.fresh := rfl
@[simp] theorem modCtx_regs (k : Nat) (f : CtxSt → CtxSt) (s : State) : (modCtx k f s).regs = s.regs := rfl
@[simp] theorem modCtx_mem (k : Nat) (f : CtxSt → CtxSt) (s : State) : (modCtx k f s).mem = s.mem := rfl
@[simp] theorem modCtx_cache (k : Nat) (f : CtxSt → CtxSt) (s : State) : (modCtx k f s).cache = s.cache := rfl
@[simp] theorem modCtx_torus (k : Nat) (f : CtxSt → CtxSt) (s : State) : (modCtx k f s).torus = s.torus := rfl
@[simp] theorem modCtx_errs (k : Nat) (f : CtxSt → CtxSt) (s : State) : (modCtx k f s).errs = s.errs := rfl
@[simp] theorem modCtx_ops (k : Nat) (f : CtxSt → CtxSt) (s : State) : (modCtx k f s).ops = s.ops := rfl
@[simp] theorem modCtx_shadows (k : Nat) (f : CtxSt → CtxSt) (s : State) : (modCtx k f s).shadows = s.shadows := rfl
@[simp] theorem modCtx_tiles (k : Nat) (f : CtxSt → CtxSt) (s : State) : (modCtx k f s).tiles = s.tiles := rfl
@[simp] theorem modCtx_passes (k : Nat) (f : CtxSt → CtxSt) (s : State) : (modCtx k f s).passes = s.passes := rfl
@[simp] theorem modCtx_nextPass (k : Nat) (f : CtxSt → CtxSt) (s : State) : (modCtx k f s).nextPass = s.nextPass := rfl
@[simp] theorem modCtx_tags (k : Nat) (f : CtxSt → CtxSt) (s : State) : (modCtx k f s).tags = s.tags := rfl
@[simp] theorem modCtx_hbm (k : Nat) (f : CtxSt → CtxSt) (s : State) : (modCtx k f s).hbm = s.hbm := rfl
@[simp] theorem modCtx_xlate (k : Nat) (f : CtxSt → CtxSt) (s : State) : (modCtx k f s).xlate = s.xlate := rfl
@[simp] theorem modCtx_coh (k : Nat) (f : CtxSt → CtxSt) (s : State) : (modCtx k f s).coh = s.coh := rfl
@[simp] theorem modCtx_regul (k : Nat) (f : CtxSt → CtxSt) (s : State) : (modCtx k f s).regul = s.regul := rfl
@[simp] theorem modCtx_msix (k : Nat) (f : CtxSt → CtxSt) (s : State) : (modCtx k f s).msix = s.msix := rfl
@[simp] theorem modCtx_time (k : Nat) (f : CtxSt → CtxSt) (s : State) : (modCtx k f s).time = s.time := rfl
@[simp] theorem modCtx_sites (k : Nat) (f : CtxSt → CtxSt) (s : State) : (modCtx k f s).sites = s.sites := rfl
@[simp] theorem modCtx_heart (k : Nat) (f : CtxSt → CtxSt) (s : State) : (modCtx k f s).heart = s.heart := rfl
@[simp] theorem modCtx_cores (k : Nat) (f : CtxSt → CtxSt) (s : State) : (modCtx k f s).cores = s.cores := rfl
@[simp] theorem modCtx_plr (k : Nat) (f : CtxSt → CtxSt) (s : State) : (modCtx k f s).plr = s.plr := rfl
@[simp] theorem modCtx_kiln (k : Nat) (f : CtxSt → CtxSt) (s : State) : (modCtx k f s).kiln = s.kiln := rfl
@[simp] theorem modCtx_ember (k : Nat) (f : CtxSt → CtxSt) (s : State) : (modCtx k f s).ember = s.ember := rfl
@[simp] theorem modCtx_host (k : Nat) (f : CtxSt → CtxSt) (s : State) : (modCtx k f s).host = s.host := rfl
@[simp] theorem modCtx_peats (k : Nat) (f : CtxSt → CtxSt) (s : State) : (modCtx k f s).peats = s.peats := rfl
@[simp] theorem modCtx_power (k : Nat) (f : CtxSt → CtxSt) (s : State) : (modCtx k f s).power = s.power := rfl

/-! `modPass` -/

@[simp] theorem modPass_pending (i : Nat) (f : Pass → Pass) (s : State) : (modPass i f s).pending = s.pending := rfl
@[simp] theorem modPass_out (i : Nat) (f : Pass → Pass) (s : State) : (modPass i f s).out = s.out := rfl
@[simp] theorem modPass_fresh (i : Nat) (f : Pass → Pass) (s : State) : (modPass i f s).fresh = s.fresh := rfl
@[simp] theorem modPass_regs (i : Nat) (f : Pass → Pass) (s : State) : (modPass i f s).regs = s.regs := rfl
@[simp] theorem modPass_mem (i : Nat) (f : Pass → Pass) (s : State) : (modPass i f s).mem = s.mem := rfl
@[simp] theorem modPass_cache (i : Nat) (f : Pass → Pass) (s : State) : (modPass i f s).cache = s.cache := rfl
@[simp] theorem modPass_torus (i : Nat) (f : Pass → Pass) (s : State) : (modPass i f s).torus = s.torus := rfl
@[simp] theorem modPass_errs (i : Nat) (f : Pass → Pass) (s : State) : (modPass i f s).errs = s.errs := rfl
@[simp] theorem modPass_ops (i : Nat) (f : Pass → Pass) (s : State) : (modPass i f s).ops = s.ops := rfl
@[simp] theorem modPass_shadows (i : Nat) (f : Pass → Pass) (s : State) : (modPass i f s).shadows = s.shadows := rfl
@[simp] theorem modPass_tiles (i : Nat) (f : Pass → Pass) (s : State) : (modPass i f s).tiles = s.tiles := rfl
@[simp] theorem modPass_nextPass (i : Nat) (f : Pass → Pass) (s : State) : (modPass i f s).nextPass = s.nextPass := rfl
@[simp] theorem modPass_tags (i : Nat) (f : Pass → Pass) (s : State) : (modPass i f s).tags = s.tags := rfl
@[simp] theorem modPass_hbm (i : Nat) (f : Pass → Pass) (s : State) : (modPass i f s).hbm = s.hbm := rfl
@[simp] theorem modPass_xlate (i : Nat) (f : Pass → Pass) (s : State) : (modPass i f s).xlate = s.xlate := rfl
@[simp] theorem modPass_coh (i : Nat) (f : Pass → Pass) (s : State) : (modPass i f s).coh = s.coh := rfl
@[simp] theorem modPass_regul (i : Nat) (f : Pass → Pass) (s : State) : (modPass i f s).regul = s.regul := rfl
@[simp] theorem modPass_ctxs (i : Nat) (f : Pass → Pass) (s : State) : (modPass i f s).ctxs = s.ctxs := rfl
@[simp] theorem modPass_msix (i : Nat) (f : Pass → Pass) (s : State) : (modPass i f s).msix = s.msix := rfl
@[simp] theorem modPass_time (i : Nat) (f : Pass → Pass) (s : State) : (modPass i f s).time = s.time := rfl
@[simp] theorem modPass_sites (i : Nat) (f : Pass → Pass) (s : State) : (modPass i f s).sites = s.sites := rfl
@[simp] theorem modPass_heart (i : Nat) (f : Pass → Pass) (s : State) : (modPass i f s).heart = s.heart := rfl
@[simp] theorem modPass_cores (i : Nat) (f : Pass → Pass) (s : State) : (modPass i f s).cores = s.cores := rfl
@[simp] theorem modPass_plr (i : Nat) (f : Pass → Pass) (s : State) : (modPass i f s).plr = s.plr := rfl
@[simp] theorem modPass_kiln (i : Nat) (f : Pass → Pass) (s : State) : (modPass i f s).kiln = s.kiln := rfl
@[simp] theorem modPass_ember (i : Nat) (f : Pass → Pass) (s : State) : (modPass i f s).ember = s.ember := rfl
@[simp] theorem modPass_host (i : Nat) (f : Pass → Pass) (s : State) : (modPass i f s).host = s.host := rfl
@[simp] theorem modPass_peats (i : Nat) (f : Pass → Pass) (s : State) : (modPass i f s).peats = s.peats := rfl
@[simp] theorem modPass_power (i : Nat) (f : Pass → Pass) (s : State) : (modPass i f s).power = s.power := rfl

/-! `setMem` -/

@[simp] theorem setMem_pending (m : Mem) (s : State) : (setMem m s).pending = s.pending := rfl
@[simp] theorem setMem_out (m : Mem) (s : State) : (setMem m s).out = s.out := rfl
@[simp] theorem setMem_fresh (m : Mem) (s : State) : (setMem m s).fresh = s.fresh := rfl
@[simp] theorem setMem_regs (m : Mem) (s : State) : (setMem m s).regs = s.regs := rfl
@[simp] theorem setMem_cache (m : Mem) (s : State) : (setMem m s).cache = s.cache := rfl
@[simp] theorem setMem_torus (m : Mem) (s : State) : (setMem m s).torus = s.torus := rfl
@[simp] theorem setMem_errs (m : Mem) (s : State) : (setMem m s).errs = s.errs := rfl
@[simp] theorem setMem_ops (m : Mem) (s : State) : (setMem m s).ops = s.ops := rfl
@[simp] theorem setMem_shadows (m : Mem) (s : State) : (setMem m s).shadows = s.shadows := rfl
@[simp] theorem setMem_tiles (m : Mem) (s : State) : (setMem m s).tiles = s.tiles := rfl
@[simp] theorem setMem_passes (m : Mem) (s : State) : (setMem m s).passes = s.passes := rfl
@[simp] theorem setMem_nextPass (m : Mem) (s : State) : (setMem m s).nextPass = s.nextPass := rfl
@[simp] theorem setMem_tags (m : Mem) (s : State) : (setMem m s).tags = s.tags := rfl
@[simp] theorem setMem_hbm (m : Mem) (s : State) : (setMem m s).hbm = s.hbm := rfl
@[simp] theorem setMem_xlate (m : Mem) (s : State) : (setMem m s).xlate = s.xlate := rfl
@[simp] theorem setMem_coh (m : Mem) (s : State) : (setMem m s).coh = s.coh := rfl
@[simp] theorem setMem_regul (m : Mem) (s : State) : (setMem m s).regul = s.regul := rfl
@[simp] theorem setMem_ctxs (m : Mem) (s : State) : (setMem m s).ctxs = s.ctxs := rfl
@[simp] theorem setMem_msix (m : Mem) (s : State) : (setMem m s).msix = s.msix := rfl
@[simp] theorem setMem_time (m : Mem) (s : State) : (setMem m s).time = s.time := rfl
@[simp] theorem setMem_sites (m : Mem) (s : State) : (setMem m s).sites = s.sites := rfl
@[simp] theorem setMem_heart (m : Mem) (s : State) : (setMem m s).heart = s.heart := rfl
@[simp] theorem setMem_cores (m : Mem) (s : State) : (setMem m s).cores = s.cores := rfl
@[simp] theorem setMem_plr (m : Mem) (s : State) : (setMem m s).plr = s.plr := rfl
@[simp] theorem setMem_kiln (m : Mem) (s : State) : (setMem m s).kiln = s.kiln := rfl
@[simp] theorem setMem_ember (m : Mem) (s : State) : (setMem m s).ember = s.ember := rfl
@[simp] theorem setMem_host (m : Mem) (s : State) : (setMem m s).host = s.host := rfl
@[simp] theorem setMem_peats (m : Mem) (s : State) : (setMem m s).peats = s.peats := rfl
@[simp] theorem setMem_power (m : Mem) (s : State) : (setMem m s).power = s.power := rfl

/-! `setFrame` -/

@[simp] theorem setFrame_pending (f : Nat) (e : FrameEnt) (s : State) : (setFrame f e s).pending = s.pending := rfl
@[simp] theorem setFrame_out (f : Nat) (e : FrameEnt) (s : State) : (setFrame f e s).out = s.out := rfl
@[simp] theorem setFrame_fresh (f : Nat) (e : FrameEnt) (s : State) : (setFrame f e s).fresh = s.fresh := rfl
@[simp] theorem setFrame_regs (f : Nat) (e : FrameEnt) (s : State) : (setFrame f e s).regs = s.regs := rfl
@[simp] theorem setFrame_cache (f : Nat) (e : FrameEnt) (s : State) : (setFrame f e s).cache = s.cache := rfl
@[simp] theorem setFrame_torus (f : Nat) (e : FrameEnt) (s : State) : (setFrame f e s).torus = s.torus := rfl
@[simp] theorem setFrame_errs (f : Nat) (e : FrameEnt) (s : State) : (setFrame f e s).errs = s.errs := rfl
@[simp] theorem setFrame_ops (f : Nat) (e : FrameEnt) (s : State) : (setFrame f e s).ops = s.ops := rfl
@[simp] theorem setFrame_shadows (f : Nat) (e : FrameEnt) (s : State) : (setFrame f e s).shadows = s.shadows := rfl
@[simp] theorem setFrame_tiles (f : Nat) (e : FrameEnt) (s : State) : (setFrame f e s).tiles = s.tiles := rfl
@[simp] theorem setFrame_passes (f : Nat) (e : FrameEnt) (s : State) : (setFrame f e s).passes = s.passes := rfl
@[simp] theorem setFrame_nextPass (f : Nat) (e : FrameEnt) (s : State) : (setFrame f e s).nextPass = s.nextPass := rfl
@[simp] theorem setFrame_tags (f : Nat) (e : FrameEnt) (s : State) : (setFrame f e s).tags = s.tags := rfl
@[simp] theorem setFrame_hbm (f : Nat) (e : FrameEnt) (s : State) : (setFrame f e s).hbm = s.hbm := rfl
@[simp] theorem setFrame_xlate (f : Nat) (e : FrameEnt) (s : State) : (setFrame f e s).xlate = s.xlate := rfl
@[simp] theorem setFrame_coh (f : Nat) (e : FrameEnt) (s : State) : (setFrame f e s).coh = s.coh := rfl
@[simp] theorem setFrame_regul (f : Nat) (e : FrameEnt) (s : State) : (setFrame f e s).regul = s.regul := rfl
@[simp] theorem setFrame_ctxs (f : Nat) (e : FrameEnt) (s : State) : (setFrame f e s).ctxs = s.ctxs := rfl
@[simp] theorem setFrame_msix (f : Nat) (e : FrameEnt) (s : State) : (setFrame f e s).msix = s.msix := rfl
@[simp] theorem setFrame_time (f : Nat) (e : FrameEnt) (s : State) : (setFrame f e s).time = s.time := rfl
@[simp] theorem setFrame_sites (f : Nat) (e : FrameEnt) (s : State) : (setFrame f e s).sites = s.sites := rfl
@[simp] theorem setFrame_heart (f : Nat) (e : FrameEnt) (s : State) : (setFrame f e s).heart = s.heart := rfl
@[simp] theorem setFrame_cores (f : Nat) (e : FrameEnt) (s : State) : (setFrame f e s).cores = s.cores := rfl
@[simp] theorem setFrame_plr (f : Nat) (e : FrameEnt) (s : State) : (setFrame f e s).plr = s.plr := rfl
@[simp] theorem setFrame_kiln (f : Nat) (e : FrameEnt) (s : State) : (setFrame f e s).kiln = s.kiln := rfl
@[simp] theorem setFrame_ember (f : Nat) (e : FrameEnt) (s : State) : (setFrame f e s).ember = s.ember := rfl
@[simp] theorem setFrame_host (f : Nat) (e : FrameEnt) (s : State) : (setFrame f e s).host = s.host := rfl
@[simp] theorem setFrame_peats (f : Nat) (e : FrameEnt) (s : State) : (setFrame f e s).peats = s.peats := rfl
@[simp] theorem setFrame_power (f : Nat) (e : FrameEnt) (s : State) : (setFrame f e s).power = s.power := rfl

/-! `clearBad` -/

@[simp] theorem clearBad_pending (a : Nat) (s : State) : (clearBad a s).pending = s.pending := rfl
@[simp] theorem clearBad_out (a : Nat) (s : State) : (clearBad a s).out = s.out := rfl
@[simp] theorem clearBad_fresh (a : Nat) (s : State) : (clearBad a s).fresh = s.fresh := rfl
@[simp] theorem clearBad_regs (a : Nat) (s : State) : (clearBad a s).regs = s.regs := rfl
@[simp] theorem clearBad_cache (a : Nat) (s : State) : (clearBad a s).cache = s.cache := rfl
@[simp] theorem clearBad_torus (a : Nat) (s : State) : (clearBad a s).torus = s.torus := rfl
@[simp] theorem clearBad_errs (a : Nat) (s : State) : (clearBad a s).errs = s.errs := rfl
@[simp] theorem clearBad_ops (a : Nat) (s : State) : (clearBad a s).ops = s.ops := rfl
@[simp] theorem clearBad_shadows (a : Nat) (s : State) : (clearBad a s).shadows = s.shadows := rfl
@[simp] theorem clearBad_tiles (a : Nat) (s : State) : (clearBad a s).tiles = s.tiles := rfl
@[simp] theorem clearBad_passes (a : Nat) (s : State) : (clearBad a s).passes = s.passes := rfl
@[simp] theorem clearBad_nextPass (a : Nat) (s : State) : (clearBad a s).nextPass = s.nextPass := rfl
@[simp] theorem clearBad_tags (a : Nat) (s : State) : (clearBad a s).tags = s.tags := rfl
@[simp] theorem clearBad_hbm (a : Nat) (s : State) : (clearBad a s).hbm = s.hbm := rfl
@[simp] theorem clearBad_xlate (a : Nat) (s : State) : (clearBad a s).xlate = s.xlate := rfl
@[simp] theorem clearBad_coh (a : Nat) (s : State) : (clearBad a s).coh = s.coh := rfl
@[simp] theorem clearBad_regul (a : Nat) (s : State) : (clearBad a s).regul = s.regul := rfl
@[simp] theorem clearBad_ctxs (a : Nat) (s : State) : (clearBad a s).ctxs = s.ctxs := rfl
@[simp] theorem clearBad_msix (a : Nat) (s : State) : (clearBad a s).msix = s.msix := rfl
@[simp] theorem clearBad_time (a : Nat) (s : State) : (clearBad a s).time = s.time := rfl
@[simp] theorem clearBad_sites (a : Nat) (s : State) : (clearBad a s).sites = s.sites := rfl
@[simp] theorem clearBad_heart (a : Nat) (s : State) : (clearBad a s).heart = s.heart := rfl
@[simp] theorem clearBad_cores (a : Nat) (s : State) : (clearBad a s).cores = s.cores := rfl
@[simp] theorem clearBad_plr (a : Nat) (s : State) : (clearBad a s).plr = s.plr := rfl
@[simp] theorem clearBad_kiln (a : Nat) (s : State) : (clearBad a s).kiln = s.kiln := rfl
@[simp] theorem clearBad_ember (a : Nat) (s : State) : (clearBad a s).ember = s.ember := rfl
@[simp] theorem clearBad_host (a : Nat) (s : State) : (clearBad a s).host = s.host := rfl
@[simp] theorem clearBad_peats (a : Nat) (s : State) : (clearBad a s).peats = s.peats := rfl
@[simp] theorem clearBad_power (a : Nat) (s : State) : (clearBad a s).power = s.power := rfl

/-! `setLines` -/

@[simp] theorem setLines_pending (a : Nat) (l : List Line) (s : State) : (setLines a l s).pending = s.pending := rfl
@[simp] theorem setLines_out (a : Nat) (l : List Line) (s : State) : (setLines a l s).out = s.out := rfl
@[simp] theorem setLines_fresh (a : Nat) (l : List Line) (s : State) : (setLines a l s).fresh = s.fresh := rfl
@[simp] theorem setLines_regs (a : Nat) (l : List Line) (s : State) : (setLines a l s).regs = s.regs := rfl
@[simp] theorem setLines_mem (a : Nat) (l : List Line) (s : State) : (setLines a l s).mem = s.mem := rfl
@[simp] theorem setLines_torus (a : Nat) (l : List Line) (s : State) : (setLines a l s).torus = s.torus := rfl
@[simp] theorem setLines_errs (a : Nat) (l : List Line) (s : State) : (setLines a l s).errs = s.errs := rfl
@[simp] theorem setLines_ops (a : Nat) (l : List Line) (s : State) : (setLines a l s).ops = s.ops := rfl
@[simp] theorem setLines_shadows (a : Nat) (l : List Line) (s : State) : (setLines a l s).shadows = s.shadows := rfl
@[simp] theorem setLines_tiles (a : Nat) (l : List Line) (s : State) : (setLines a l s).tiles = s.tiles := rfl
@[simp] theorem setLines_passes (a : Nat) (l : List Line) (s : State) : (setLines a l s).passes = s.passes := rfl
@[simp] theorem setLines_nextPass (a : Nat) (l : List Line) (s : State) : (setLines a l s).nextPass = s.nextPass := rfl
@[simp] theorem setLines_tags (a : Nat) (l : List Line) (s : State) : (setLines a l s).tags = s.tags := rfl
@[simp] theorem setLines_hbm (a : Nat) (l : List Line) (s : State) : (setLines a l s).hbm = s.hbm := rfl
@[simp] theorem setLines_xlate (a : Nat) (l : List Line) (s : State) : (setLines a l s).xlate = s.xlate := rfl
@[simp] theorem setLines_coh (a : Nat) (l : List Line) (s : State) : (setLines a l s).coh = s.coh := rfl
@[simp] theorem setLines_regul (a : Nat) (l : List Line) (s : State) : (setLines a l s).regul = s.regul := rfl
@[simp] theorem setLines_ctxs (a : Nat) (l : List Line) (s : State) : (setLines a l s).ctxs = s.ctxs := rfl
@[simp] theorem setLines_msix (a : Nat) (l : List Line) (s : State) : (setLines a l s).msix = s.msix := rfl
@[simp] theorem setLines_time (a : Nat) (l : List Line) (s : State) : (setLines a l s).time = s.time := rfl
@[simp] theorem setLines_sites (a : Nat) (l : List Line) (s : State) : (setLines a l s).sites = s.sites := rfl
@[simp] theorem setLines_heart (a : Nat) (l : List Line) (s : State) : (setLines a l s).heart = s.heart := rfl
@[simp] theorem setLines_cores (a : Nat) (l : List Line) (s : State) : (setLines a l s).cores = s.cores := rfl
@[simp] theorem setLines_plr (a : Nat) (l : List Line) (s : State) : (setLines a l s).plr = s.plr := rfl
@[simp] theorem setLines_kiln (a : Nat) (l : List Line) (s : State) : (setLines a l s).kiln = s.kiln := rfl
@[simp] theorem setLines_ember (a : Nat) (l : List Line) (s : State) : (setLines a l s).ember = s.ember := rfl
@[simp] theorem setLines_host (a : Nat) (l : List Line) (s : State) : (setLines a l s).host = s.host := rfl
@[simp] theorem setLines_peats (a : Nat) (l : List Line) (s : State) : (setLines a l s).peats = s.peats := rfl
@[simp] theorem setLines_power (a : Nat) (l : List Line) (s : State) : (setLines a l s).power = s.power := rfl

/-! `setAgLine` -/

@[simp] theorem setAgLine_pending (a pa : Nat) (l : AgLine) (s : State) : (setAgLine a pa l s).pending = s.pending := rfl
@[simp] theorem setAgLine_out (a pa : Nat) (l : AgLine) (s : State) : (setAgLine a pa l s).out = s.out := rfl
@[simp] theorem setAgLine_fresh (a pa : Nat) (l : AgLine) (s : State) : (setAgLine a pa l s).fresh = s.fresh := rfl
@[simp] theorem setAgLine_regs (a pa : Nat) (l : AgLine) (s : State) : (setAgLine a pa l s).regs = s.regs := rfl
@[simp] theorem setAgLine_mem (a pa : Nat) (l : AgLine) (s : State) : (setAgLine a pa l s).mem = s.mem := rfl
@[simp] theorem setAgLine_cache (a pa : Nat) (l : AgLine) (s : State) : (setAgLine a pa l s).cache = s.cache := rfl
@[simp] theorem setAgLine_torus (a pa : Nat) (l : AgLine) (s : State) : (setAgLine a pa l s).torus = s.torus := rfl
@[simp] theorem setAgLine_errs (a pa : Nat) (l : AgLine) (s : State) : (setAgLine a pa l s).errs = s.errs := rfl
@[simp] theorem setAgLine_ops (a pa : Nat) (l : AgLine) (s : State) : (setAgLine a pa l s).ops = s.ops := rfl
@[simp] theorem setAgLine_shadows (a pa : Nat) (l : AgLine) (s : State) : (setAgLine a pa l s).shadows = s.shadows := rfl
@[simp] theorem setAgLine_tiles (a pa : Nat) (l : AgLine) (s : State) : (setAgLine a pa l s).tiles = s.tiles := rfl
@[simp] theorem setAgLine_passes (a pa : Nat) (l : AgLine) (s : State) : (setAgLine a pa l s).passes = s.passes := rfl
@[simp] theorem setAgLine_nextPass (a pa : Nat) (l : AgLine) (s : State) : (setAgLine a pa l s).nextPass = s.nextPass := rfl
@[simp] theorem setAgLine_tags (a pa : Nat) (l : AgLine) (s : State) : (setAgLine a pa l s).tags = s.tags := rfl
@[simp] theorem setAgLine_hbm (a pa : Nat) (l : AgLine) (s : State) : (setAgLine a pa l s).hbm = s.hbm := rfl
@[simp] theorem setAgLine_xlate (a pa : Nat) (l : AgLine) (s : State) : (setAgLine a pa l s).xlate = s.xlate := rfl
@[simp] theorem setAgLine_regul (a pa : Nat) (l : AgLine) (s : State) : (setAgLine a pa l s).regul = s.regul := rfl
@[simp] theorem setAgLine_ctxs (a pa : Nat) (l : AgLine) (s : State) : (setAgLine a pa l s).ctxs = s.ctxs := rfl
@[simp] theorem setAgLine_msix (a pa : Nat) (l : AgLine) (s : State) : (setAgLine a pa l s).msix = s.msix := rfl
@[simp] theorem setAgLine_time (a pa : Nat) (l : AgLine) (s : State) : (setAgLine a pa l s).time = s.time := rfl
@[simp] theorem setAgLine_sites (a pa : Nat) (l : AgLine) (s : State) : (setAgLine a pa l s).sites = s.sites := rfl
@[simp] theorem setAgLine_heart (a pa : Nat) (l : AgLine) (s : State) : (setAgLine a pa l s).heart = s.heart := rfl
@[simp] theorem setAgLine_cores (a pa : Nat) (l : AgLine) (s : State) : (setAgLine a pa l s).cores = s.cores := rfl
@[simp] theorem setAgLine_plr (a pa : Nat) (l : AgLine) (s : State) : (setAgLine a pa l s).plr = s.plr := rfl
@[simp] theorem setAgLine_kiln (a pa : Nat) (l : AgLine) (s : State) : (setAgLine a pa l s).kiln = s.kiln := rfl
@[simp] theorem setAgLine_ember (a pa : Nat) (l : AgLine) (s : State) : (setAgLine a pa l s).ember = s.ember := rfl
@[simp] theorem setAgLine_host (a pa : Nat) (l : AgLine) (s : State) : (setAgLine a pa l s).host = s.host := rfl
@[simp] theorem setAgLine_peats (a pa : Nat) (l : AgLine) (s : State) : (setAgLine a pa l s).peats = s.peats := rfl
@[simp] theorem setAgLine_power (a pa : Nat) (l : AgLine) (s : State) : (setAgLine a pa l s).power = s.power := rfl

/-! `setPageOp` -/

@[simp] theorem setPageOp_pending (p : Nat) (o : Option PageOp) (s : State) : (setPageOp p o s).pending = s.pending := rfl
@[simp] theorem setPageOp_out (p : Nat) (o : Option PageOp) (s : State) : (setPageOp p o s).out = s.out := rfl
@[simp] theorem setPageOp_fresh (p : Nat) (o : Option PageOp) (s : State) : (setPageOp p o s).fresh = s.fresh := rfl
@[simp] theorem setPageOp_regs (p : Nat) (o : Option PageOp) (s : State) : (setPageOp p o s).regs = s.regs := rfl
@[simp] theorem setPageOp_mem (p : Nat) (o : Option PageOp) (s : State) : (setPageOp p o s).mem = s.mem := rfl
@[simp] theorem setPageOp_cache (p : Nat) (o : Option PageOp) (s : State) : (setPageOp p o s).cache = s.cache := rfl
@[simp] theorem setPageOp_torus (p : Nat) (o : Option PageOp) (s : State) : (setPageOp p o s).torus = s.torus := rfl
@[simp] theorem setPageOp_errs (p : Nat) (o : Option PageOp) (s : State) : (setPageOp p o s).errs = s.errs := rfl
@[simp] theorem setPageOp_shadows (p : Nat) (o : Option PageOp) (s : State) : (setPageOp p o s).shadows = s.shadows := rfl
@[simp] theorem setPageOp_tiles (p : Nat) (o : Option PageOp) (s : State) : (setPageOp p o s).tiles = s.tiles := rfl
@[simp] theorem setPageOp_passes (p : Nat) (o : Option PageOp) (s : State) : (setPageOp p o s).passes = s.passes := rfl
@[simp] theorem setPageOp_nextPass (p : Nat) (o : Option PageOp) (s : State) : (setPageOp p o s).nextPass = s.nextPass := rfl
@[simp] theorem setPageOp_tags (p : Nat) (o : Option PageOp) (s : State) : (setPageOp p o s).tags = s.tags := rfl
@[simp] theorem setPageOp_hbm (p : Nat) (o : Option PageOp) (s : State) : (setPageOp p o s).hbm = s.hbm := rfl
@[simp] theorem setPageOp_xlate (p : Nat) (o : Option PageOp) (s : State) : (setPageOp p o s).xlate = s.xlate := rfl
@[simp] theorem setPageOp_coh (p : Nat) (o : Option PageOp) (s : State) : (setPageOp p o s).coh = s.coh := rfl
@[simp] theorem setPageOp_regul (p : Nat) (o : Option PageOp) (s : State) : (setPageOp p o s).regul = s.regul := rfl
@[simp] theorem setPageOp_ctxs (p : Nat) (o : Option PageOp) (s : State) : (setPageOp p o s).ctxs = s.ctxs := rfl
@[simp] theorem setPageOp_msix (p : Nat) (o : Option PageOp) (s : State) : (setPageOp p o s).msix = s.msix := rfl
@[simp] theorem setPageOp_time (p : Nat) (o : Option PageOp) (s : State) : (setPageOp p o s).time = s.time := rfl
@[simp] theorem setPageOp_sites (p : Nat) (o : Option PageOp) (s : State) : (setPageOp p o s).sites = s.sites := rfl
@[simp] theorem setPageOp_heart (p : Nat) (o : Option PageOp) (s : State) : (setPageOp p o s).heart = s.heart := rfl
@[simp] theorem setPageOp_cores (p : Nat) (o : Option PageOp) (s : State) : (setPageOp p o s).cores = s.cores := rfl
@[simp] theorem setPageOp_plr (p : Nat) (o : Option PageOp) (s : State) : (setPageOp p o s).plr = s.plr := rfl
@[simp] theorem setPageOp_kiln (p : Nat) (o : Option PageOp) (s : State) : (setPageOp p o s).kiln = s.kiln := rfl
@[simp] theorem setPageOp_ember (p : Nat) (o : Option PageOp) (s : State) : (setPageOp p o s).ember = s.ember := rfl
@[simp] theorem setPageOp_host (p : Nat) (o : Option PageOp) (s : State) : (setPageOp p o s).host = s.host := rfl
@[simp] theorem setPageOp_peats (p : Nat) (o : Option PageOp) (s : State) : (setPageOp p o s).peats = s.peats := rfl
@[simp] theorem setPageOp_power (p : Nat) (o : Option PageOp) (s : State) : (setPageOp p o s).power = s.power := rfl

/-! `sendIrq` -/

@[simp] theorem sendIrq_pending (p : Nat) (s : State) : (sendIrq p s).pending = s.pending := rfl
@[simp] theorem sendIrq_out (p : Nat) (s : State) : (sendIrq p s).out = s.out := rfl
@[simp] theorem sendIrq_fresh (p : Nat) (s : State) : (sendIrq p s).fresh = s.fresh := rfl
@[simp] theorem sendIrq_regs (p : Nat) (s : State) : (sendIrq p s).regs = s.regs := rfl
@[simp] theorem sendIrq_mem (p : Nat) (s : State) : (sendIrq p s).mem = s.mem := rfl
@[simp] theorem sendIrq_cache (p : Nat) (s : State) : (sendIrq p s).cache = s.cache := rfl
@[simp] theorem sendIrq_torus (p : Nat) (s : State) : (sendIrq p s).torus = s.torus := rfl
@[simp] theorem sendIrq_ops (p : Nat) (s : State) : (sendIrq p s).ops = s.ops := rfl
@[simp] theorem sendIrq_shadows (p : Nat) (s : State) : (sendIrq p s).shadows = s.shadows := rfl
@[simp] theorem sendIrq_tiles (p : Nat) (s : State) : (sendIrq p s).tiles = s.tiles := rfl
@[simp] theorem sendIrq_passes (p : Nat) (s : State) : (sendIrq p s).passes = s.passes := rfl
@[simp] theorem sendIrq_nextPass (p : Nat) (s : State) : (sendIrq p s).nextPass = s.nextPass := rfl
@[simp] theorem sendIrq_tags (p : Nat) (s : State) : (sendIrq p s).tags = s.tags := rfl
@[simp] theorem sendIrq_hbm (p : Nat) (s : State) : (sendIrq p s).hbm = s.hbm := rfl
@[simp] theorem sendIrq_xlate (p : Nat) (s : State) : (sendIrq p s).xlate = s.xlate := rfl
@[simp] theorem sendIrq_coh (p : Nat) (s : State) : (sendIrq p s).coh = s.coh := rfl
@[simp] theorem sendIrq_regul (p : Nat) (s : State) : (sendIrq p s).regul = s.regul := rfl
@[simp] theorem sendIrq_ctxs (p : Nat) (s : State) : (sendIrq p s).ctxs = s.ctxs := rfl
@[simp] theorem sendIrq_msix (p : Nat) (s : State) : (sendIrq p s).msix = s.msix := rfl
@[simp] theorem sendIrq_time (p : Nat) (s : State) : (sendIrq p s).time = s.time := rfl
@[simp] theorem sendIrq_sites (p : Nat) (s : State) : (sendIrq p s).sites = s.sites := rfl
@[simp] theorem sendIrq_heart (p : Nat) (s : State) : (sendIrq p s).heart = s.heart := rfl
@[simp] theorem sendIrq_cores (p : Nat) (s : State) : (sendIrq p s).cores = s.cores := rfl
@[simp] theorem sendIrq_plr (p : Nat) (s : State) : (sendIrq p s).plr = s.plr := rfl
@[simp] theorem sendIrq_kiln (p : Nat) (s : State) : (sendIrq p s).kiln = s.kiln := rfl
@[simp] theorem sendIrq_ember (p : Nat) (s : State) : (sendIrq p s).ember = s.ember := rfl
@[simp] theorem sendIrq_host (p : Nat) (s : State) : (sendIrq p s).host = s.host := rfl
@[simp] theorem sendIrq_peats (p : Nat) (s : State) : (sendIrq p s).peats = s.peats := rfl
@[simp] theorem sendIrq_power (p : Nat) (s : State) : (sendIrq p s).power = s.power := rfl

/-! Several register fields at once -/

@[simp] theorem setFlds_nil (p : Nat) (s : State) : setFlds p [] s = s := rfl
@[simp] theorem setFlds_cons (p : Nat) (x : Field × Nat) (l : List (Field × Nat)) (s : State) :
    setFlds p (x :: l) s = setFlds p l (setFld p x.1 x.2 s) := rfl

/-- `setFlds` changes the register fields and nothing else. -/
theorem setFlds_eq (p : Nat) (l : List (Field × Nat)) (s : State) :
    setFlds p l s = { s with regs := (setFlds p l s).regs } := by
  induction l generalizing s with
  | nil => rfl
  | cons x l ih => rw [setFlds_cons, ih (setFld p x.1 x.2 s)]; rfl

@[simp] theorem setFlds_pending (p : Nat) (l : List (Field × Nat)) (s : State) : (setFlds p l s).pending = s.pending := by rw [setFlds_eq]
@[simp] theorem setFlds_out (p : Nat) (l : List (Field × Nat)) (s : State) : (setFlds p l s).out = s.out := by rw [setFlds_eq]
@[simp] theorem setFlds_fresh (p : Nat) (l : List (Field × Nat)) (s : State) : (setFlds p l s).fresh = s.fresh := by rw [setFlds_eq]
@[simp] theorem setFlds_mem (p : Nat) (l : List (Field × Nat)) (s : State) : (setFlds p l s).mem = s.mem := by rw [setFlds_eq]
@[simp] theorem setFlds_cache (p : Nat) (l : List (Field × Nat)) (s : State) : (setFlds p l s).cache = s.cache := by rw [setFlds_eq]
@[simp] theorem setFlds_torus (p : Nat) (l : List (Field × Nat)) (s : State) : (setFlds p l s).torus = s.torus := by rw [setFlds_eq]
@[simp] theorem setFlds_errs (p : Nat) (l : List (Field × Nat)) (s : State) : (setFlds p l s).errs = s.errs := by rw [setFlds_eq]
@[simp] theorem setFlds_ops (p : Nat) (l : List (Field × Nat)) (s : State) : (setFlds p l s).ops = s.ops := by rw [setFlds_eq]
@[simp] theorem setFlds_shadows (p : Nat) (l : List (Field × Nat)) (s : State) : (setFlds p l s).shadows = s.shadows := by rw [setFlds_eq]
@[simp] theorem setFlds_tiles (p : Nat) (l : List (Field × Nat)) (s : State) : (setFlds p l s).tiles = s.tiles := by rw [setFlds_eq]
@[simp] theorem setFlds_passes (p : Nat) (l : List (Field × Nat)) (s : State) : (setFlds p l s).passes = s.passes := by rw [setFlds_eq]
@[simp] theorem setFlds_nextPass (p : Nat) (l : List (Field × Nat)) (s : State) : (setFlds p l s).nextPass = s.nextPass := by rw [setFlds_eq]
@[simp] theorem setFlds_tags (p : Nat) (l : List (Field × Nat)) (s : State) : (setFlds p l s).tags = s.tags := by rw [setFlds_eq]
@[simp] theorem setFlds_hbm (p : Nat) (l : List (Field × Nat)) (s : State) : (setFlds p l s).hbm = s.hbm := by rw [setFlds_eq]
@[simp] theorem setFlds_xlate (p : Nat) (l : List (Field × Nat)) (s : State) : (setFlds p l s).xlate = s.xlate := by rw [setFlds_eq]
@[simp] theorem setFlds_coh (p : Nat) (l : List (Field × Nat)) (s : State) : (setFlds p l s).coh = s.coh := by rw [setFlds_eq]
@[simp] theorem setFlds_regul (p : Nat) (l : List (Field × Nat)) (s : State) : (setFlds p l s).regul = s.regul := by rw [setFlds_eq]
@[simp] theorem setFlds_ctxs (p : Nat) (l : List (Field × Nat)) (s : State) : (setFlds p l s).ctxs = s.ctxs := by rw [setFlds_eq]
@[simp] theorem setFlds_msix (p : Nat) (l : List (Field × Nat)) (s : State) : (setFlds p l s).msix = s.msix := by rw [setFlds_eq]
@[simp] theorem setFlds_time (p : Nat) (l : List (Field × Nat)) (s : State) : (setFlds p l s).time = s.time := by rw [setFlds_eq]
@[simp] theorem setFlds_sites (p : Nat) (l : List (Field × Nat)) (s : State) : (setFlds p l s).sites = s.sites := by rw [setFlds_eq]
@[simp] theorem setFlds_heart (p : Nat) (l : List (Field × Nat)) (s : State) : (setFlds p l s).heart = s.heart := by rw [setFlds_eq]
@[simp] theorem setFlds_cores (p : Nat) (l : List (Field × Nat)) (s : State) : (setFlds p l s).cores = s.cores := by rw [setFlds_eq]
@[simp] theorem setFlds_plr (p : Nat) (l : List (Field × Nat)) (s : State) : (setFlds p l s).plr = s.plr := by rw [setFlds_eq]
@[simp] theorem setFlds_kiln (p : Nat) (l : List (Field × Nat)) (s : State) : (setFlds p l s).kiln = s.kiln := by rw [setFlds_eq]
@[simp] theorem setFlds_ember (p : Nat) (l : List (Field × Nat)) (s : State) : (setFlds p l s).ember = s.ember := by rw [setFlds_eq]
@[simp] theorem setFlds_host (p : Nat) (l : List (Field × Nat)) (s : State) : (setFlds p l s).host = s.host := by rw [setFlds_eq]
@[simp] theorem setFlds_peats (p : Nat) (l : List (Field × Nat)) (s : State) : (setFlds p l s).peats = s.peats := by rw [setFlds_eq]
@[simp] theorem setFlds_power (p : Nat) (l : List (Field × Nat)) (s : State) : (setFlds p l s).power = s.power := by rw [setFlds_eq]

end Sys2Proof.Machine
end

