-- ==== Sys2Proof/Laws/Tables.lean ====
section
/-! SUPPORT. Laws of sparse tables: what is read after an entry is set, and that the canonical order is kept. -/

namespace Sys2Proof

theorem Tab.get_drop_le {α : Type} (d : α) (t : Tab α) (k : Nat) :
    Tab.get d (t.dropWhile (fun e => decide (e.1 ≤ k))) k = d := by
  induction t with
  | nil => rfl
  | cons e t ih =>
    by_cases h : e.1 ≤ k
    · simpa [List.dropWhile, h] using ih
    · simp only [List.dropWhile, h, decide_false]
      have h1 : e.1 ≠ k := by omega
      have h2 : k < e.1 := by omega
      simp [Tab.get, h1, h2]

theorem Tab.get_drop_below {α : Type} (d : α) (t : Tab α) {k i : Nat} (h : i < k) :
    Tab.get d (t.dropWhile (fun e => decide (e.1 ≤ k))) i = d := by
  induction t with
  | nil => rfl
  | cons e t ih =>
    by_cases hk : e.1 ≤ k
    · simpa [List.dropWhile, hk] using ih
    · simp only [List.dropWhile, hk, decide_false]
      have h1 : e.1 ≠ i := by omega
      have h2 : i < e.1 := by omega
      simp [Tab.get, h1, h2]

theorem Tab.get_drop_above {α : Type} (d : α) (t : Tab α) {k i : Nat} (h : k < i) :
    Tab.get d (t.dropWhile (fun e => decide (e.1 ≤ k))) i = Tab.get d t i := by
  induction t with
  | nil => rfl
  | cons e t ih =>
    by_cases hk : e.1 ≤ k
    · have h1 : e.1 ≠ i := by omega
      have h2 : ¬ i < e.1 := by omega
      simpa [List.dropWhile, hk, Tab.get, h1, h2] using ih
    · simp [List.dropWhile, hk]

@[simp] theorem Tab.get_del_same {α : Type} (d : α) (t : Tab α) (k : Nat) : Tab.get d (Tab.del t k) k = d := by
  induction t with
  | nil => rfl
  | cons e t ih =>
    unfold Tab.del
    split
    · exact Tab.get_drop_le d t k
    · split
      · simp [Tab.get, *]
      · simp [Tab.get, *]

theorem Tab.get_del_ne {α : Type} (d : α) (t : Tab α) {k i : Nat} (h : i ≠ k) :
    Tab.get d (Tab.del t k) i = Tab.get d t i := by
  induction t with
  | nil => rfl
  | cons e t ih =>
    unfold Tab.del
    split
    · rename_i hk
      rcases Nat.lt_or_gt_of_ne h with hi | hi
      · have h1 : e.1 ≠ i := by omega
        have h2 : i < e.1 := by omega
        rw [Tab.get_drop_below d t hi]; simp [Tab.get, h1, h2]
      · have h1 : e.1 ≠ i := by omega
        have h2 : ¬ i < e.1 := by omega
        rw [Tab.get_drop_above d t hi]; simp [Tab.get, h1, h2]
    · split
      · rfl
      · simp [Tab.get, ih]

@[simp] theorem Tab.get_ins_same {α : Type} (d : α) (t : Tab α) (k : Nat) (v : α) : Tab.get d (Tab.ins t k v) k = v := by
  induction t with
  | nil => simp [Tab.ins, Tab.get]
  | cons e t ih =>
    unfold Tab.ins
    split
    · simp [Tab.get]
    · split
      · simp [Tab.get]
      · simp [Tab.get, *]

theorem Tab.get_ins_ne {α : Type} (d : α) (t : Tab α) {k i : Nat} (v : α) (h : i ≠ k) :
    Tab.get d (Tab.ins t k v) i = Tab.get d t i := by
  have h' : k ≠ i := fun e => h e.symm
  induction t with
  | nil => simp [Tab.ins, Tab.get, h']
  | cons e t ih =>
    unfold Tab.ins
    split
    · rename_i hk
      have h1 : e.1 ≠ i := by omega
      simp [Tab.get, h1, h', hk]
    · split
      · rcases Nat.lt_or_gt_of_ne h with hi | hi
        · have h1 : e.1 ≠ i := by omega
          have h2 : i < e.1 := by omega
          simp [Tab.get, h', hi, h1, h2]
        · have h2 : ¬ i < k := by omega
          simp [Tab.get, h', h2]
      · simp [Tab.get, ih]

@[simp] theorem Tab.get_put_same {α : Type} [DecidableEq α] (d : α) (t : Tab α) (k : Nat) (v : α) :
    Tab.get d (Tab.put d t k v) k = v := by
  unfold Tab.put; split <;> simp_all

theorem Tab.get_put_ne {α : Type} [DecidableEq α] (d e : α) (t : Tab α) {k i : Nat} (v : α) (h : i ≠ k) :
    Tab.get e (Tab.put d t k v) i = Tab.get e t i := by
  unfold Tab.put; split
  · exact Tab.get_del_ne e t h
  · exact Tab.get_ins_ne e t v h

/-! The canonical order -/

theorem Tab.sortedFrom_mono {α : Type} {a b : Nat} (h : a ≤ b) (t : Tab α) (hs : Tab.sortedFrom b t = true) :
    Tab.sortedFrom a t = true := by
  cases t with
  | nil => rfl
  | cons e t =>
    simp only [Tab.sortedFrom, Bool.and_eq_true, decide_eq_true_eq] at hs ⊢
    exact ⟨by omega, hs.2⟩

theorem Tab.sortedFrom_dropWhile {α : Type} (p : Nat × α → Bool) (t : Tab α) (b : Nat) (hs : Tab.sortedFrom b t = true) :
    Tab.sortedFrom b (t.dropWhile p) = true := by
  induction t generalizing b with
  | nil => rfl
  | cons e t ih =>
    simp only [Tab.sortedFrom, Bool.and_eq_true, decide_eq_true_eq] at hs
    unfold List.dropWhile
    split
    · exact ih b (Tab.sortedFrom_mono (by omega) t hs.2)
    · simp [Tab.sortedFrom, hs]

theorem Tab.sortedFrom_filter {α : Type} (p : Nat × α → Bool) (t : Tab α) (b : Nat) (hs : Tab.sortedFrom b t = true) :
    Tab.sortedFrom b (t.filter p) = true := by
  induction t generalizing b with
  | nil => rfl
  | cons e t ih =>
    simp only [Tab.sortedFrom, Bool.and_eq_true, decide_eq_true_eq] at hs
    rw [List.filter_cons]
    split
    · simp [Tab.sortedFrom, hs.1, ih _ hs.2]
    · exact Tab.sortedFrom_mono (by omega) _ (ih _ hs.2)

theorem Tab.sortedFrom_del {α : Type} (t : Tab α) (k b : Nat) (hs : Tab.sortedFrom b t = true) :
    Tab.sortedFrom b (Tab.del t k) = true := by
  induction t generalizing b with
  | nil => rfl
  | cons e t ih =>
    have hs' := hs
    simp only [Tab.sortedFrom, Bool.and_eq_true, decide_eq_true_eq] at hs
    unfold Tab.del
    split
    · exact Tab.sortedFrom_mono (by omega) _ (Tab.sortedFrom_dropWhile _ t _ hs.2)
    · split
      · exact hs'
      · simp [Tab.sortedFrom, hs.1, ih _ hs.2]

theorem Tab.sortedFrom_ins {α : Type} (t : Tab α) (k b : Nat) (v : α) (hb : b ≤ k) (hs : Tab.sortedFrom b t = true) :
    Tab.sortedFrom b (Tab.ins t k v) = true := by
  induction t generalizing b with
  | nil => simp [Tab.ins, Tab.sortedFrom, hb]
  | cons e t ih =>
    simp only [Tab.sortedFrom, Bool.and_eq_true, decide_eq_true_eq] at hs
    unfold Tab.ins
    split
    · rename_i hk
      subst hk
      simp [Tab.sortedFrom, hs]
    · split
      · simp only [Tab.sortedFrom, Bool.and_eq_true, decide_eq_true_eq]
        exact ⟨hb, by omega, hs.2⟩
      · simp only [Tab.sortedFrom, Bool.and_eq_true, decide_eq_true_eq]
        exact ⟨hs.1, ih _ (by omega) hs.2⟩

theorem Tab.wf_put {α : Type} [DecidableEq α] (d : α) (t : Tab α) (k : Nat) (v : α) (hs : Tab.wf t = true) :
    Tab.wf (Tab.put d t k v) = true := by
  unfold Tab.put; split
  · exact Tab.sortedFrom_del t k 0 hs
  · exact Tab.sortedFrom_ins t k 0 v (Nat.zero_le k) hs

theorem Tab.wf_filter {α : Type} (p : Nat × α → Bool) (t : Tab α) (hs : Tab.wf t = true) : Tab.wf (t.filter p) = true :=
  Tab.sortedFrom_filter p t 0 hs

/-! Members of a table after a change -/

theorem Tab.mem_del {α : Type} (t : Tab α) (k : Nat) (x : Nat × α) (h : x ∈ Tab.del t k) : x ∈ t := by
  induction t with
  | nil => exact h
  | cons e t ih =>
    unfold Tab.del at h
    split at h
    · exact List.mem_cons_of_mem _ ((List.dropWhile_suffix _).subset h)
    · split at h
      · exact h
      · rcases List.mem_cons.mp h with rfl | h
        · exact List.mem_cons_self
        · exact List.mem_cons_of_mem _ (ih h)

theorem Tab.mem_ins {α : Type} (t : Tab α) (k : Nat) (v : α) (x : Nat × α) (h : x ∈ Tab.ins t k v) : x = (k, v) ∨ x ∈ t := by
  induction t with
  | nil => simpa [Tab.ins] using h
  | cons e t ih =>
    unfold Tab.ins at h
    split at h
    · rcases List.mem_cons.mp h with rfl | h
      · exact .inl rfl
      · exact .inr (List.mem_cons_of_mem _ h)
    · split at h
      · rcases List.mem_cons.mp h with rfl | h
        · exact .inl rfl
        · exact .inr h
      · rcases List.mem_cons.mp h with rfl | h
        · exact .inr List.mem_cons_self
        · rcases ih h with rfl | h
          · exact .inl rfl
          · exact .inr (List.mem_cons_of_mem _ h)

end Sys2Proof
end

