-- ==== Sys2Proof/Laws/Ops.lean ====
section
/-! SUPPORT. Laws of the shared operations over registers, typed parts and flags: what is read after each, and what it leaves. -/

namespace Sys2Proof.Machine

/-! Register fields -/

@[simp] theorem fld_setFld_same (p : Nat) (f : Field) (v : Nat) (s : State) : fld (setFld p f v s) p f = v % 2 ^ f.width := by
  simp [fld, setFld]

theorem fld_setFld_ne {p q : Nat} {f g : Field} (v : Nat) (s : State) (h : fieldKey q g ≠ fieldKey p f) :
    fld (setFld p f v s) q g = fld s q g := by
  simp only [fld, setFld]; exact Tab.get_put_ne _ _ _ _ h

/-- Two fields of one page have different keys where their place differs. -/
theorem fieldKey_ne {p : Nat} {f g : Field} (h : g.off * 64 + g.lo ≠ f.off * 64 + f.lo) : fieldKey p g ≠ fieldKey p f := by
  simp only [fieldKey]; omega

/-- Fields of two pages have different keys, their offsets and bits lying in range. -/
theorem fieldKey_ne_page {p q : Nat} {f g : Field} (hpq : q ≠ p) (hf : f.off < 0x10000) (hg : g.off < 0x10000)
    (hfl : f.lo < 64) (hgl : g.lo < 64) : fieldKey q g ≠ fieldKey p f := by
  simp only [fieldKey]; omega

theorem fld_setFld_field {p : Nat} {f g : Field} (v : Nat) (s : State) (h : g.off * 64 + g.lo ≠ f.off * 64 + f.lo) :
    fld (setFld p f v s) p g = fld s p g := fld_setFld_ne v s (fieldKey_ne h)

theorem fld_setFld_page {p q : Nat} {f g : Field} (v : Nat) (s : State) (hpq : q ≠ p) (hf : f.off < 0x10000)
    (hg : g.off < 0x10000) (hfl : f.lo < 64) (hgl : g.lo < 64) : fld (setFld p f v s) q g = fld s q g :=
  fld_setFld_ne v s (fieldKey_ne_page hpq hf hg hfl hgl)

theorem fld_setFlds_ne {p q : Nat} {g : Field} (l : List (Field × Nat)) (s : State)
    (h : ∀ x ∈ l, fieldKey q g ≠ fieldKey p x.1) : fld (setFlds p l s) q g = fld s q g := by
  induction l generalizing s with
  | nil => rfl
  | cons x l ih =>
    rw [setFlds_cons, ih _ (fun y hy => h y (List.mem_cons_of_mem _ hy)), fld_setFld_ne _ _ (h x List.mem_cons_self)]

/-- Where the registers are the same, so is every field. -/
theorem fld_congr {s t : State} (h : t.regs = s.regs) (p : Nat) (f : Field) : fld t p f = fld s p f := by simp [fld, h]

theorem flag_congr {s t : State} (h : t.regs = s.regs) (p : Nat) (f : Field) : flag t p f = flag s p f := by simp [flag, fld, h]

theorem bump_eq (p : Nat) (f : Field) (n : Nat) (s : State) : bump p f n s = setFld p f (min (fld s p f + n) (2 ^ f.width - 1)) s := rfl

/-- A saturating count, where nothing freezes it. -/
theorem count_running (p : Nat) (f : Field) (n : Nat) (s : State) (h : fld s p Reg.PAGE_CTRL_COUNTER_FREEZE = 0) :
    fld (count p f n s) p f = min (fld s p f + n) (2 ^ f.width - 1) := by
  have hp : 0 < 2 ^ f.width := Nat.pow_pos (by omega)
  simp only [count, flag, h, bne_self_eq_false, Bool.false_eq_true, if_false, bump, fld_setFld_same]
  exact Nat.mod_eq_of_lt (by omega)

theorem count_frozen (p : Nat) (f : Field) (n : Nat) (s : State) (h : fld s p Reg.PAGE_CTRL_COUNTER_FREEZE ≠ 0) :
    count p f n s = s := by
  simp [count, flag, h]

/-- A count changes the register fields and nothing else. -/
theorem count_eq (p : Nat) (f : Field) (n : Nat) (s : State) : count p f n s = { s with regs := (count p f n s).regs } := by
  unfold count bump setFld; split <;> rfl

theorem regs_wf_setFld (p : Nat) (f : Field) (v : Nat) (s : State) (h : Tab.wf s.regs = true) : Tab.wf (setFld p f v s).regs = true :=
  Tab.wf_put _ _ _ _ h

/-! Typed parts -/

@[simp] theorem tile_setTile_same (n : Nat) (t : TileSt) (s : State) : tile (setTile n t s) n = t := by simp [tile, setTile]
theorem tile_setTile_ne {n m : Nat} (t : TileSt) (s : State) (h : m ≠ n) : tile (setTile n t s) m = tile s m :=
  Tab.get_put_ne _ _ _ _ h
@[simp] theorem tile_modTile_same (n : Nat) (f : TileSt → TileSt) (s : State) : tile (modTile n f s) n = f (tile s n) := by
  simp [modTile]
theorem tile_modTile_ne {n m : Nat} (f : TileSt → TileSt) (s : State) (h : m ≠ n) : tile (modTile n f s) m = tile s m :=
  tile_setTile_ne _ _ h

@[simp] theorem ctx_setCtx_same (k : Nat) (c : CtxSt) (s : State) : ctx (setCtx k c s) k = c := by simp [ctx, setCtx]
theorem ctx_setCtx_ne {k j : Nat} (c : CtxSt) (s : State) (h : j ≠ k) : ctx (setCtx k c s) j = ctx s j :=
  Tab.get_put_ne _ _ _ _ h
@[simp] theorem ctx_modCtx_same (k : Nat) (f : CtxSt → CtxSt) (s : State) : ctx (modCtx k f s) k = f (ctx s k) := by
  simp [modCtx]

@[simp] theorem pageOp_setPageOp_same (p : Nat) (o : Option PageOp) (s : State) : pageOp (setPageOp p o s) p = o := by
  simp [pageOp, setPageOp]

@[simp] theorem domainOn_setDomain_same (d : Nat) (on : Bool) (s : State) : domainOn (setDomain d on s) d = on := by
  simp [domainOn, setDomain]

@[simp] theorem pinLevel_setPin_same (n : Nat) (high : Bool) (s : State) : pinLevel (setPin n high s) n = high := by
  simp [pinLevel, setPin, emit]

@[simp] theorem cfgDw_setCfg_same (fn off v : Nat) (s : State) : cfgDw (setCfg fn off v s) fn off = v := by
  simp [cfgDw, setCfg]

/-- Moving a tenant's context to a state (R297). -/
theorem ctxState_setCtxState (k v : Nat) (s : State) (hk : k ≠ 0) (hv : v < 8) : ctxState (setCtxState k v s) k = v := by
  simp only [ctxState, setCtxState, hk, if_false, setFlds_cons, setFlds_nil]
  rw [fld_setFld_field _ _ (by decide), fld_setFld_same]
  exact Nat.mod_eq_of_lt hv

/-- Context 0x00 keeps its state (R295). -/
theorem setCtxState_zero (v : Nat) (s : State) : setCtxState 0 v s = s := by simp [setCtxState]

/-! Interrupts: `raiseIrq` changes `IRQ_STATUS` and may queue one message, and nothing else -/

theorem raiseIrq_eq (p mask : Nat) (s : State) :
    raiseIrq p mask s = { s with regs := (setIrqWord p (irqWord s p ||| mask) s).regs, errs := (raiseIrq p mask s).errs } := by
  unfold raiseIrq watchIrq
  have h : setIrqWord p (irqWord s p ||| mask) s = { s with regs := (setIrqWord p (irqWord s p ||| mask) s).regs } := by
    unfold setIrqWord; exact setFlds_eq _ _ _
  dsimp only
  split
  · unfold sendIrq; rw [h]
  · rw [h]

theorem raiseIrq_regs (p mask : Nat) (s : State) : (raiseIrq p mask s).regs = (setIrqWord p (irqWord s p ||| mask) s).regs := by
  rw [raiseIrq_eq]

theorem fld_raiseIrq_ne {p q mask : Nat} {g : Field} (s : State) (hb : fieldKey q g ≠ fieldKey p Reg.IRQ_STATUS_BLOCK)
    (ho : fieldKey q g ≠ fieldKey p Reg.IRQ_STATUS_OP_DONE) (he : fieldKey q g ≠ fieldKey p Reg.IRQ_STATUS_ERR) :
    fld (raiseIrq p mask s) q g = fld s q g := by
  rw [fld_congr (raiseIrq_regs p mask s)]
  exact fld_setFlds_ne _ _ (by simp [hb, ho, he])

/-- A page takes its condition from false to true: one message is queued (R74). -/
theorem raiseIrq_errs (p mask : Nat) (s : State) :
    (raiseIrq p mask s).errs = s.errs ∨ (raiseIrq p mask s).errs = { s.errs with irqs := s.errs.irqs ++ [p] } := by
  unfold raiseIrq watchIrq
  dsimp only
  split
  · right; simp [sendIrq, setIrqWord]
  · left; simp [setIrqWord]

/-! Operations of a page -/

/-- The end of an operation (R77, R79): no operation is active and `RESULT` holds the result. -/
theorem opEnd_pageOp (p r : Nat) (s : State) : pageOp (opEnd p r s) p = none := by
  simp only [opEnd, pageOp]
  rw [raiseIrq_eq]
  split <;> simp [setPageOp]

theorem opEnd_result (p r : Nat) (s : State) (hr : r < 8) : fld (opEnd p r s) p Reg.OP_CONTROL_RESULT = r := by
  simp only [opEnd]
  rw [fld_raiseIrq_ne _ (fieldKey_ne (by decide)) (fieldKey_ne (by decide)) (fieldKey_ne (by decide))]
  have hw : r % 2 ^ Reg.OP_CONTROL_RESULT.width = r := Nat.mod_eq_of_lt (Nat.lt_of_lt_of_le hr (by decide))
  split
  · simp only [setFlds_cons, setFlds_nil]
    rw [fld_setFld_field _ _ (by decide), fld_setFld_same]; exact hw
  · simp only [setFlds_cons, setFlds_nil]
    rw [fld_setFld_field _ _ (by decide), fld_setFld_field _ _ (by decide), fld_setFld_same]; exact hw

end Sys2Proof.Machine
end

