-- ==== Sys2Proof/Laws/Memory.lean ====
section
/-! SUPPORT. Laws of memory: a read after a write, the bytes a write leaves, and that every memory operation keeps the
canonical form. -/

namespace Sys2Proof.Machine

theorem Mem.unlisted_plain (m : Mem) (a : Nat) (h : m.plain a = true) : m.unlisted a = 0 := by
  simp only [Mem.plain, Bool.or_eq_true, beq_iff_eq] at h
  simp only [Mem.unlisted]
  rcases h with h | h <;> simp [h]

@[simp] theorem Mem.unlisted_write (m : Mem) (a i : Nat) (b : Byte) : (m.write a b).unlisted i = m.unlisted i := rfl
@[simp] theorem Mem.plain_write (m : Mem) (a i : Nat) (b : Byte) : (m.write a b).plain i = m.plain i := rfl

theorem Mem.cells_write (m : Mem) (a : Nat) (b : Byte) :
    (m.write a b).cells = if b = 0 ∧ m.plain a then Tab.del m.cells a else Tab.ins m.cells a b := rfl

/-- A byte reads as it was written. -/
@[simp] theorem Mem.read_write_same (m : Mem) (a : Nat) (b : Byte) : (m.write a b).read a = b := by
  rw [Mem.read, Mem.unlisted_write, Mem.cells_write]
  split
  · rename_i h
    rw [Tab.get_del_same, Mem.unlisted_plain m a h.2, h.1]
  · exact Tab.get_ins_same _ _ _ _

/-- A write leaves every other byte alone. -/
theorem Mem.read_write_ne (m : Mem) {a i : Nat} (b : Byte) (h : i ≠ a) : (m.write a b).read i = m.read i := by
  rw [Mem.read, Mem.unlisted_write, Mem.cells_write]
  split
  · exact Tab.get_del_ne _ _ h
  · exact Tab.get_ins_ne _ _ _ h

/-- Bytes outside a run of writes are left alone. -/
theorem Mem.read_writes_outside (m : Mem) (a i : Nat) (d : List Byte) (en : List Bool) (h : i < a ∨ a + d.length ≤ i) :
    (m.writes a d en).read i = m.read i := by
  induction d generalizing m a en with
  | nil => cases en <;> rfl
  | cons b t ih =>
    have hne : i ≠ a := by simp only [List.length_cons] at h; omega
    have ht : i < a + 1 ∨ a + 1 + t.length ≤ i := by simp only [List.length_cons] at h; omega
    cases en with
    | nil => rw [Mem.writes, ih _ _ _ ht, Mem.read_write_ne _ _ hne]
    | cons e es =>
      rw [Mem.writes, ih _ _ _ ht]
      split
      · exact Mem.read_write_ne _ _ hne
      · rfl

/-- Where memory, the hub cache and the agents are the same, every byte reads the same. -/
theorem byteAt_congr {s t : State} (h1 : t.mem = s.mem) (h2 : t.cache = s.cache) (h3 : t.coh = s.coh) (a : Nat) :
    byteAt t a = byteAt s a := by
  simp only [byteAt, findLine, linesOf, dirtyAgent, agLine, h1, h2, h3]
  rfl

/-! The canonical form -/

theorem Mem.wf_iff (m : Mem) : m.wf = true ↔ Tab.wf m.cells = true ∧ ∀ c ∈ m.cells, c.2 ≠ 0 ∨ m.plain c.1 = false := by
  simp [Mem.wf, List.all_eq_true]

theorem Mem.wf_write (m : Mem) (a : Nat) (b : Byte) (h : m.wf = true) : (m.write a b).wf = true := by
  rw [Mem.wf_iff] at h ⊢
  have hp : ∀ i, (m.write a b).plain i = m.plain i := fun _ => rfl
  by_cases hb : b = 0 ∧ m.plain a = true
  · have hc : (m.write a b).cells = Tab.del m.cells a := by rw [Mem.cells_write, if_pos hb]
    refine ⟨by rw [hc]; exact Tab.sortedFrom_del _ _ _ h.1, fun c hm => ?_⟩
    rw [hp]; rw [hc] at hm
    exact h.2 c (Tab.mem_del _ _ _ hm)
  · have hc : (m.write a b).cells = Tab.ins m.cells a b := by rw [Mem.cells_write, if_neg hb]
    refine ⟨by rw [hc]; exact Tab.sortedFrom_ins _ _ _ _ (Nat.zero_le _) h.1, fun c hm => ?_⟩
    rw [hp]; rw [hc] at hm
    rcases Tab.mem_ins _ _ _ _ hm with rfl | hm
    · by_cases h0 : b = 0
      · right
        cases hpl : m.plain a
        · rfl
        · exact absurd ⟨h0, hpl⟩ hb
      · exact .inl h0
    · exact h.2 c hm

theorem Mem.wf_writes (m : Mem) (a : Nat) (d : List Byte) (en : List Bool) (h : m.wf = true) : (m.writes a d en).wf = true := by
  induction d generalizing m a en with
  | nil => cases en <;> exact h
  | cons b t ih =>
    cases en with
    | nil => exact ih _ _ _ (Mem.wf_write m a b h)
    | cons e es =>
      rw [Mem.writes]
      split
      · exact ih _ _ _ (Mem.wf_write m a b h)
      · exact ih _ _ _ h

theorem Mem.wf_ashFrame (m : Mem) (f : Nat) (h : m.wf = true) : (m.ashFrame f).wf = true := by
  rw [Mem.wf_iff] at h ⊢
  refine ⟨Tab.wf_filter _ _ h.1, fun c hm => ?_⟩
  simp only [Mem.ashFrame, List.mem_filter, bne_iff_ne] at hm
  have hp : (m.ashFrame f).plain c.1 = m.plain c.1 := by
    simp only [Mem.plain, Mem.ashFrame]
    rw [Tab.get_put_ne _ _ _ _ hm.2]
  rw [hp]; exact h.2 c hm.1

theorem Mem.wf_wipe (m : Mem) (h : m.wf = true) : m.wipe.wf = true := by
  rw [Mem.wf_iff] at h ⊢
  refine ⟨Tab.wf_filter _ _ h.1, fun c hm => ?_⟩
  simp only [Mem.wipe, List.mem_filter] at hm
  have hp : m.plain c.1 = true := by simp [Mem.plain, hm.2]
  rcases h.2 c hm.1 with h0 | h0
  · exact .inl h0
  · rw [hp] at h0; cases h0

/-- Changes of the marks of frames and sectors keep the form. -/
theorem Mem.wf_frames (m : Mem) (fs : Tab FrameEnt) (bs : List Nat) (h : m.wf = true) :
    ({ m with frames := fs, badSectors := bs } : Mem).wf = true := h

theorem wf_setFrame (f : Nat) (e : FrameEnt) (s : State) (h : s.mem.wf = true) : (setFrame f e s).mem.wf = true := h
theorem wf_markBad (pa : Nat) (s : State) (h : s.mem.wf = true) : (markBad pa s).mem.wf = true := h
theorem wf_clearBad (pa : Nat) (s : State) (h : s.mem.wf = true) : (clearBad pa s).mem.wf = true := h

/-- Memory after reset has the form. -/
theorem wf_reset : State.reset.mem.wf = true := by decide

theorem foldl_mem {α : Type} (g : State → α → State) (hg : ∀ s a, (g s a).mem = s.mem) (l : List α) (s : State) :
    (l.foldl g s).mem = s.mem := by
  induction l generalizing s with
  | nil => rfl
  | cons a t ih => rw [List.foldl_cons, ih, hg]

@[simp] theorem putLine_mem (l : Line) (s : State) : (putLine l s).mem = s.mem := rfl

@[simp] theorem recallLine_mem (l : Line) (s : State) : (recallLine l s).mem = s.mem := by
  simp only [recallLine, putLine_mem]
  exact foldl_mem _ (by intros; rfl) _ _

/-- A byte written where the block sees it keeps the form: memory takes it, or a line of the hub cache does. -/
theorem wf_writeByte (pa : Nat) (b : Byte) (s : State) (h : s.mem.wf = true) : (writeByte pa b s).mem.wf = true := by
  unfold writeByte
  split
  · exact Mem.wf_write _ _ _ h
  · rename_i l _
    have hm : (if l.dir = 0 then s else recallLine l s).mem = s.mem := by split <;> simp
    dsimp only
    split
    · simp only [setMem, hm]; exact Mem.wf_write _ _ _ h
    · split
      · simp only [putLine_mem, hm]; exact h
      · simp only [setMem, hm]; exact Mem.wf_write _ _ _ h

theorem wf_writeBytes (pa : Nat) (d : List Byte) (s : State) (h : s.mem.wf = true) : (writeBytes pa d s).mem.wf = true := by
  induction d generalizing pa s with
  | nil => exact h
  | cons b t ih => exact ih _ _ (wf_writeByte pa b s h)

theorem wf_hostWrite (fn pa : Nat) (d : List Byte) (en : List Bool) (s : State) (h : s.mem.wf = true) :
    (hostWrite fn pa d en s).mem.wf = true := by
  simp only [hostWrite, setMem]
  apply Mem.wf_writes
  exact (congrArg Mem.wf (foldl_mem _ (by intros; rfl) _ _)).trans h

theorem clearCovered_wf (p : Nat × Nat) (s : State) (h : s.mem.wf = true) : (clearCovered p s).mem.wf = true := by
  unfold clearCovered; split
  · exact h
  · exact h

theorem foldl_wf {α : Type} (g : State → α → State) (hg : ∀ s a, s.mem.wf = true → (g s a).mem.wf = true) (l : List α) (s : State)
    (h : s.mem.wf = true) : (l.foldl g s).mem.wf = true := by
  induction l generalizing s with
  | nil => exact h
  | cons a t ih => exact ih _ (hg s a h)

theorem wf_writeParts (c : Nat) (ps : List (Nat × Nat)) (d : List Byte) (s : State) (h : s.mem.wf = true) :
    (writeParts c ps d s).mem.wf = true := by
  induction ps generalizing d s with
  | nil => exact h
  | cons p t ih =>
    unfold writeParts
    apply ih
    split
    · exact foldl_wf _ (fun s g hs => wf_hostWrite _ _ _ _ s hs) _ _ h
    · exact wf_writeBytes _ _ _ (clearCovered_wf _ _ h)

end Sys2Proof.Machine
end

