-- ==== Sys2Proof/Laws/Frames.lean ====
section
/-! SUPPORT. Laws of the shared operations over flags, errors, operations, bindings and responses: the parts of the state that
each leaves alone, and the register fields beyond the common page header that errors and interrupts leave alone. -/

namespace Sys2Proof.Machine

@[simp] theorem bump_pending (p : Nat) (f : Field) (n : Nat) (s : State) : (bump p f n s).pending = s.pending := rfl
@[simp] theorem bump_out (p : Nat) (f : Field) (n : Nat) (s : State) : (bump p f n s).out = s.out := rfl
@[simp] theorem bump_fresh (p : Nat) (f : Field) (n : Nat) (s : State) : (bump p f n s).fresh = s.fresh := rfl
@[simp] theorem bump_mem (p : Nat) (f : Field) (n : Nat) (s : State) : (bump p f n s).mem = s.mem := rfl
@[simp] theorem bump_cache (p : Nat) (f : Field) (n : Nat) (s : State) : (bump p f n s).cache = s.cache := rfl
@[simp] theorem bump_torus (p : Nat) (f : Field) (n : Nat) (s : State) : (bump p f n s).torus = s.torus := rfl
@[simp] theorem bump_errs (p : Nat) (f : Field) (n : Nat) (s : State) : (bump p f n s).errs = s.errs := rfl
@[simp] theorem bump_ops (p : Nat) (f : Field) (n : Nat) (s : State) : (bump p f n s).ops = s.ops := rfl
@[simp] theorem bump_shadows (p : Nat) (f : Field) (n : Nat) (s : State) : (bump p f n s).shadows = s.shadows := rfl
@[simp] theorem bump_tiles (p : Nat) (f : Field) (n : Nat) (s : State) : (bump p f n s).tiles = s.tiles := rfl
@[simp] theorem bump_passes (p : Nat) (f : Field) (n : Nat) (s : State) : (bump p f n s).passes = s.passes := rfl
@[simp] theorem bump_nextPass (p : Nat) (f : Field) (n : Nat) (s : State) : (bump p f n s).nextPass = s.nextPass := rfl
@[simp] theorem bump_tags (p : Nat) (f : Field) (n : Nat) (s : State) : (bump p f n s).tags = s.tags := rfl
@[simp] theorem bump_hbm (p : Nat) (f : Field) (n : Nat) (s : State) : (bump p f n s).hbm = s.hbm := rfl
@[simp] theorem bump_xlate (p : Nat) (f : Field) (n : Nat) (s : State) : (bump p f n s).xlate = s.xlate := rfl
@[simp] theorem bump_coh (p : Nat) (f : Field) (n : Nat) (s : State) : (bump p f n s).coh = s.coh := rfl
@[simp] theorem bump_regul (p : Nat) (f : Field) (n : Nat) (s : State) : (bump p f n s).regul = s.regul := rfl
@[simp] theorem bump_ctxs (p : Nat) (f : Field) (n : Nat) (s : State) : (bump p f n s).ctxs = s.ctxs := rfl
@[simp] theorem bump_msix (p : Nat) (f : Field) (n : Nat) (s : State) : (bump p f n s).msix = s.msix := rfl
@[simp] theorem bump_time (p : Nat) (f : Field) (n : Nat) (s : State) : (bump p f n s).time = s.time := rfl
@[simp] theorem bump_sites (p : Nat) (f : Field) (n : Nat) (s : State) : (bump p f n s).sites = s.sites := rfl
@[simp] theorem bump_heart (p : Nat) (f : Field) (n : Nat) (s : State) : (bump p f n s).heart = s.heart := rfl
@[simp] theorem bump_cores (p : Nat) (f : Field) (n : Nat) (s : State) : (bump p f n s).cores = s.cores := rfl
@[simp] theorem bump_plr (p : Nat) (f : Field) (n : Nat) (s : State) : (bump p f n s).plr = s.plr := rfl
@[simp] theorem bump_kiln (p : Nat) (f : Field) (n : Nat) (s : State) : (bump p f n s).kiln = s.kiln := rfl
@[simp] theorem bump_ember (p : Nat) (f : Field) (n : Nat) (s : State) : (bump p f n s).ember = s.ember := rfl
@[simp] theorem bump_host (p : Nat) (f : Field) (n : Nat) (s : State) : (bump p f n s).host = s.host := rfl
@[simp] theorem bump_peats (p : Nat) (f : Field) (n : Nat) (s : State) : (bump p f n s).peats = s.peats := rfl
@[simp] theorem bump_power (p : Nat) (f : Field) (n : Nat) (s : State) : (bump p f n s).power = s.power := rfl
@[simp] theorem count_pending (p : Nat) (f : Field) (n : Nat) (s : State) : (count p f n s).pending = s.pending := by rw [count_eq]
@[simp] theorem count_out (p : Nat) (f : Field) (n : Nat) (s : State) : (count p f n s).out = s.out := by rw [count_eq]
@[simp] theorem count_fresh (p : Nat) (f : Field) (n : Nat) (s : State) : (count p f n s).fresh = s.fresh := by rw [count_eq]
@[simp] theorem count_mem (p : Nat) (f : Field) (n : Nat) (s : State) : (count p f n s).mem = s.mem := by rw [count_eq]
@[simp] theorem count_cache (p : Nat) (f : Field) (n : Nat) (s : State) : (count p f n s).cache = s.cache := by rw [count_eq]
@[simp] theorem count_torus (p : Nat) (f : Field) (n : Nat) (s : State) : (count p f n s).torus = s.torus := by rw [count_eq]
@[simp] theorem count_errs (p : Nat) (f : Field) (n : Nat) (s : State) : (count p f n s).errs = s.errs := by rw [count_eq]
@[simp] theorem count_ops (p : Nat) (f : Field) (n : Nat) (s : State) : (count p f n s).ops = s.ops := by rw [count_eq]
@[simp] theorem count_shadows (p : Nat) (f : Field) (n : Nat) (s : State) : (count p f n s).shadows = s.shadows := by rw [count_eq]
@[simp] theorem count_tiles (p : Nat) (f : Field) (n : Nat) (s : State) : (count p f n s).tiles = s.tiles := by rw [count_eq]
@[simp] theorem count_passes (p : Nat) (f : Field) (n : Nat) (s : State) : (count p f n s).passes = s.passes := by rw [count_eq]
@[simp] theorem count_nextPass (p : Nat) (f : Field) (n : Nat) (s : State) : (count p f n s).nextPass = s.nextPass := by rw [count_eq]
@[simp] theorem count_tags (p : Nat) (f : Field) (n : Nat) (s : State) : (count p f n s).tags = s.tags := by rw [count_eq]
@[simp] theorem count_hbm (p : Nat) (f : Field) (n : Nat) (s : State) : (count p f n s).hbm = s.hbm := by rw [count_eq]
@[simp] theorem count_xlate (p : Nat) (f : Field) (n : Nat) (s : State) : (count p f n s).xlate = s.xlate := by rw [count_eq]
@[simp] theorem count_coh (p : Nat) (f : Field) (n : Nat) (s : State) : (count p f n s).coh = s.coh := by rw [count_eq]
@[simp] theorem count_regul (p : Nat) (f : Field) (n : Nat) (s : State) : (count p f n s).regul = s.regul := by rw [count_eq]
@[simp] theorem count_ctxs (p : Nat) (f : Field) (n : Nat) (s : State) : (count p f n s).ctxs = s.ctxs := by rw [count_eq]
@[simp] theorem count_msix (p : Nat) (f : Field) (n : Nat) (s : State) : (count p f n s).msix = s.msix := by rw [count_eq]
@[simp] theorem count_time (p : Nat) (f : Field) (n : Nat) (s : State) : (count p f n s).time = s.time := by rw [count_eq]
@[simp] theorem count_sites (p : Nat) (f : Field) (n : Nat) (s : State) : (count p f n s).sites = s.sites := by rw [count_eq]
@[simp] theorem count_heart (p : Nat) (f : Field) (n : Nat) (s : State) : (count p f n s).heart = s.heart := by rw [count_eq]
@[simp] theorem count_cores (p : Nat) (f : Field) (n : Nat) (s : State) : (count p f n s).cores = s.cores := by rw [count_eq]
@[simp] theorem count_plr (p : Nat) (f : Field) (n : Nat) (s : State) : (count p f n s).plr = s.plr := by rw [count_eq]
@[simp] theorem count_kiln (p : Nat) (f : Field) (n : Nat) (s : State) : (count p f n s).kiln = s.kiln := by rw [count_eq]
@[simp] theorem count_ember (p : Nat) (f : Field) (n : Nat) (s : State) : (count p f n s).ember = s.ember := by rw [count_eq]
@[simp] theorem count_host (p : Nat) (f : Field) (n : Nat) (s : State) : (count p f n s).host = s.host := by rw [count_eq]
@[simp] theorem count_peats (p : Nat) (f : Field) (n : Nat) (s : State) : (count p f n s).peats = s.peats := by rw [count_eq]
@[simp] theorem count_power (p : Nat) (f : Field) (n : Nat) (s : State) : (count p f n s).power = s.power := by rw [count_eq]
@[simp] theorem countLane_pending (p : Nat) (f : Field) (lane : Nat) (n : Nat) (s : State) : (countLane p f lane n s).pending = s.pending := by
  simp only [countLane]; (repeat' split) <;> simp
@[simp] theorem countLane_out (p : Nat) (f : Field) (lane : Nat) (n : Nat) (s : State) : (countLane p f lane n s).out = s.out := by
  simp only [countLane]; (repeat' split) <;> simp
@[simp] theorem countLane_fresh (p : Nat) (f : Field) (lane : Nat) (n : Nat) (s : State) : (countLane p f lane n s).fresh = s.fresh := by
  simp only [countLane]; (repeat' split) <;> simp
@[simp] theorem countLane_mem (p : Nat) (f : Field) (lane : Nat) (n : Nat) (s : State) : (countLane p f lane n s).mem = s.mem := by
  simp only [countLane]; (repeat' split) <;> simp
@[simp] theorem countLane_cache (p : Nat) (f : Field) (lane : Nat) (n : Nat) (s : State) : (countLane p f lane n s).cache = s.cache := by
  simp only [countLane]; (repeat' split) <;> simp
@[simp] theorem countLane_torus (p : Nat) (f : Field) (lane : Nat) (n : Nat) (s : State) : (countLane p f lane n s).torus = s.torus := by
  simp only [countLane]; (repeat' split) <;> simp
@[simp] theorem countLane_errs (p : Nat) (f : Field) (lane : Nat) (n : Nat) (s : State) : (countLane p f lane n s).errs = s.errs := by
  simp only [countLane]; (repeat' split) <;> simp
@[simp] theorem countLane_ops (p : Nat) (f : Field) (lane : Nat) (n : Nat) (s : State) : (countLane p f lane n s).ops = s.ops := by
  simp only [countLane]; (repeat' split) <;> simp
@[simp] theorem countLane_shadows (p : Nat) (f : Field) (lane : Nat) (n : Nat) (s : State) : (countLane p f lane n s).shadows = s.shadows := by
  simp only [countLane]; (repeat' split) <;> simp
@[simp] theorem countLane_tiles (p : Nat) (f : Field) (lane : Nat) (n : Nat) (s : State) : (countLane p f lane n s).tiles = s.tiles := by
  simp only [countLane]; (repeat' split) <;> simp
@[simp] theorem countLane_passes (p : Nat) (f : Field) (lane : Nat) (n : Nat) (s : State) : (countLane p f lane n s).passes = s.passes := by
  simp only [countLane]; (repeat' split) <;> simp
@[simp] theorem countLane_nextPass (p : Nat) (f : Field) (lane : Nat) (n : Nat) (s : State) : (countLane p f lane n s).nextPass = s.nextPass := by
  simp only [countLane]; (repeat' split) <;> simp
@[simp] theorem countLane_tags (p : Nat) (f : Field) (lane : Nat) (n : Nat) (s : State) : (countLane p f lane n s).tags = s.tags := by
  simp only [countLane]; (repeat' split) <;> simp
@[simp] theorem countLane_hbm (p : Nat) (f : Field) (lane : Nat) (n : Nat) (s : State) : (countLane p f lane n s).hbm = s.hbm := by
  simp only [countLane]; (repeat' split) <;> simp
@[simp] theorem countLane_xlate (p : Nat) (f : Field) (lane : Nat) (n : Nat) (s : State) : (countLane p f lane n s).xlate = s.xlate := by
  simp only [countLane]; (repeat' split) <;> simp
@[simp] theorem countLane_coh (p : Nat) (f : Field) (lane : Nat) (n : Nat) (s : State) : (countLane p f lane n s).coh = s.coh := by
  simp only [countLane]; (repeat' split) <;> simp
@[simp] theorem countLane_regul (p : Nat) (f : Field) (lane : Nat) (n : Nat) (s : State) : (countLane p f lane n s).regul = s.regul := by
  simp only [countLane]; (repeat' split) <;> simp
@[simp] theorem countLane_ctxs (p : Nat) (f : Field) (lane : Nat) (n : Nat) (s : State) : (countLane p f lane n s).ctxs = s.ctxs := by
  simp only [countLane]; (repeat' split) <;> simp
@[simp] theorem countLane_msix (p : Nat) (f : Field) (lane : Nat) (n : Nat) (s : State) : (countLane p f lane n s).msix = s.msix := by
  simp only [countLane]; (repeat' split) <;> simp
@[simp] theorem countLane_time (p : Nat) (f : Field) (lane : Nat) (n : Nat) (s : State) : (countLane p f lane n s).time = s.time := by
  simp only [countLane]; (repeat' split) <;> simp
@[simp] theorem countLane_sites (p : Nat) (f : Field) (lane : Nat) (n : Nat) (s : State) : (countLane p f lane n s).sites = s.sites := by
  simp only [countLane]; (repeat' split) <;> simp
@[simp] theorem countLane_heart (p : Nat) (f : Field) (lane : Nat) (n : Nat) (s : State) : (countLane p f lane n s).heart = s.heart := by
  simp only [countLane]; (repeat' split) <;> simp
@[simp] theorem countLane_cores (p : Nat) (f : Field) (lane : Nat) (n : Nat) (s : State) : (countLane p f lane n s).cores = s.cores := by
  simp only [countLane]; (repeat' split) <;> simp
@[simp] theorem countLane_plr (p : Nat) (f : Field) (lane : Nat) (n : Nat) (s : State) : (countLane p f lane n s).plr = s.plr := by
  simp only [countLane]; (repeat' split) <;> simp
@[simp] theorem countLane_kiln (p : Nat) (f : Field) (lane : Nat) (n : Nat) (s : State) : (countLane p f lane n s).kiln = s.kiln := by
  simp only [countLane]; (repeat' split) <;> simp
@[simp] theorem countLane_ember (p : Nat) (f : Field) (lane : Nat) (n : Nat) (s : State) : (countLane p f lane n s).ember = s.ember := by
  simp only [countLane]; (repeat' split) <;> simp
@[simp] theorem countLane_host (p : Nat) (f : Field) (lane : Nat) (n : Nat) (s : State) : (countLane p f lane n s).host = s.host := by
  simp only [countLane]; (repeat' split) <;> simp
@[simp] theorem countLane_peats (p : Nat) (f : Field) (lane : Nat) (n : Nat) (s : State) : (countLane p f lane n s).peats = s.peats := by
  simp only [countLane]; (repeat' split) <;> simp
@[simp] theorem countLane_power (p : Nat) (f : Field) (lane : Nat) (n : Nat) (s : State) : (countLane p f lane n s).power = s.power := by
  simp only [countLane]; (repeat' split) <;> simp
@[simp] theorem setIrqWord_pending (p : Nat) (w : Nat) (s : State) : (setIrqWord p w s).pending = s.pending := by simp [setIrqWord]
@[simp] theorem setIrqWord_out (p : Nat) (w : Nat) (s : State) : (setIrqWord p w s).out = s.out := by simp [setIrqWord]
@[simp] theorem setIrqWord_fresh (p : Nat) (w : Nat) (s : State) : (setIrqWord p w s).fresh = s.fresh := by simp [setIrqWord]
@[simp] theorem setIrqWord_mem (p : Nat) (w : Nat) (s : State) : (setIrqWord p w s).mem = s.mem := by simp [setIrqWord]
@[simp] theorem setIrqWord_cache (p : Nat) (w : Nat) (s : State) : (setIrqWord p w s).cache = s.cache := by simp [setIrqWord]
@[simp] theorem setIrqWord_torus (p : Nat) (w : Nat) (s : State) : (setIrqWord p w s).torus = s.torus := by simp [setIrqWord]
@[simp] theorem setIrqWord_errs (p : Nat) (w : Nat) (s : State) : (setIrqWord p w s).errs = s.errs := by simp [setIrqWord]
@[simp] theorem setIrqWord_ops (p : Nat) (w : Nat) (s : State) : (setIrqWord p w s).ops = s.ops := by simp [setIrqWord]
@[simp] theorem setIrqWord_shadows (p : Nat) (w : Nat) (s : State) : (setIrqWord p w s).shadows = s.shadows := by simp [setIrqWord]
@[simp] theorem setIrqWord_tiles (p : Nat) (w : Nat) (s : State) : (setIrqWord p w s).tiles = s.tiles := by simp [setIrqWord]
@[simp] theorem setIrqWord_passes (p : Nat) (w : Nat) (s : State) : (setIrqWord p w s).passes = s.passes := by simp [setIrqWord]
@[simp] theorem setIrqWord_nextPass (p : Nat) (w : Nat) (s : State) : (setIrqWord p w s).nextPass = s.nextPass := by simp [setIrqWord]
@[simp] theorem setIrqWord_tags (p : Nat) (w : Nat) (s : State) : (setIrqWord p w s).tags = s.tags := by simp [setIrqWord]
@[simp] theorem setIrqWord_hbm (p : Nat) (w : Nat) (s : State) : (setIrqWord p w s).hbm = s.hbm := by simp [setIrqWord]
@[simp] theorem setIrqWord_xlate (p : Nat) (w : Nat) (s : State) : (setIrqWord p w s).xlate = s.xlate := by simp [setIrqWord]
@[simp] theorem setIrqWord_coh (p : Nat) (w : Nat) (s : State) : (setIrqWord p w s).coh = s.coh := by simp [setIrqWord]
@[simp] theorem setIrqWord_regul (p : Nat) (w : Nat) (s : State) : (setIrqWord p w s).regul = s.regul := by simp [setIrqWord]
@[simp] theorem setIrqWord_ctxs (p : Nat) (w : Nat) (s : State) : (setIrqWord p w s).ctxs = s.ctxs := by simp [setIrqWord]
@[simp] theorem setIrqWord_msix (p : Nat) (w : Nat) (s : State) : (setIrqWord p w s).msix = s.msix := by simp [setIrqWord]
@[simp] theorem setIrqWord_time (p : Nat) (w : Nat) (s : State) : (setIrqWord p w s).time = s.time := by simp [setIrqWord]
@[simp] theorem setIrqWord_sites (p : Nat) (w : Nat) (s : State) : (setIrqWord p w s).sites = s.sites := by simp [setIrqWord]
@[simp] theorem setIrqWord_heart (p : Nat) (w : Nat) (s : State) : (setIrqWord p w s).heart = s.heart := by simp [setIrqWord]
@[simp] theorem setIrqWord_cores (p : Nat) (w : Nat) (s : State) : (setIrqWord p w s).cores = s.cores := by simp [setIrqWord]
@[simp] theorem setIrqWord_plr (p : Nat) (w : Nat) (s : State) : (setIrqWord p w s).plr = s.plr := by simp [setIrqWord]
@[simp] theorem setIrqWord_kiln (p : Nat) (w : Nat) (s : State) : (setIrqWord p w s).kiln = s.kiln := by simp [setIrqWord]
@[simp] theorem setIrqWord_ember (p : Nat) (w : Nat) (s : State) : (setIrqWord p w s).ember = s.ember := by simp [setIrqWord]
@[simp] theorem setIrqWord_host (p : Nat) (w : Nat) (s : State) : (setIrqWord p w s).host = s.host := by simp [setIrqWord]
@[simp] theorem setIrqWord_peats (p : Nat) (w : Nat) (s : State) : (setIrqWord p w s).peats = s.peats := by simp [setIrqWord]
@[simp] theorem setIrqWord_power (p : Nat) (w : Nat) (s : State) : (setIrqWord p w s).power = s.power := by simp [setIrqWord]
@[simp] theorem raiseIrq_pending (p : Nat) (mask : Nat) (s : State) : (raiseIrq p mask s).pending = s.pending := by rw [raiseIrq_eq]
@[simp] theorem raiseIrq_out (p : Nat) (mask : Nat) (s : State) : (raiseIrq p mask s).out = s.out := by rw [raiseIrq_eq]
@[simp] theorem raiseIrq_fresh (p : Nat) (mask : Nat) (s : State) : (raiseIrq p mask s).fresh = s.fresh := by rw [raiseIrq_eq]
@[simp] theorem raiseIrq_mem (p : Nat) (mask : Nat) (s : State) : (raiseIrq p mask s).mem = s.mem := by rw [raiseIrq_eq]
@[simp] theorem raiseIrq_cache (p : Nat) (mask : Nat) (s : State) : (raiseIrq p mask s).cache = s.cache := by rw [raiseIrq_eq]
@[simp] theorem raiseIrq_torus (p : Nat) (mask : Nat) (s : State) : (raiseIrq p mask s).torus = s.torus := by rw [raiseIrq_eq]
@[simp] theorem raiseIrq_ops (p : Nat) (mask : Nat) (s : State) : (raiseIrq p mask s).ops = s.ops := by rw [raiseIrq_eq]
@[simp] theorem raiseIrq_shadows (p : Nat) (mask : Nat) (s : State) : (raiseIrq p mask s).shadows = s.shadows := by rw [raiseIrq_eq]
@[simp] theorem raiseIrq_tiles (p : Nat) (mask : Nat) (s : State) : (raiseIrq p mask s).tiles = s.tiles := by rw [raiseIrq_eq]
@[simp] theorem raiseIrq_passes (p : Nat) (mask : Nat) (s : State) : (raiseIrq p mask s).passes = s.passes := by rw [raiseIrq_eq]
@[simp] theorem raiseIrq_nextPass (p : Nat) (mask : Nat) (s : State) : (raiseIrq p mask s).nextPass = s.nextPass := by rw [raiseIrq_eq]
@[simp] theorem raiseIrq_tags (p : Nat) (mask : Nat) (s : State) : (raiseIrq p mask s).tags = s.tags := by rw [raiseIrq_eq]
@[simp] theorem raiseIrq_hbm (p : Nat) (mask : Nat) (s : State) : (raiseIrq p mask s).hbm = s.hbm := by rw [raiseIrq_eq]
@[simp] theorem raiseIrq_xlate (p : Nat) (mask : Nat) (s : State) : (raiseIrq p mask s).xlate = s.xlate := by rw [raiseIrq_eq]
@[simp] theorem raiseIrq_coh (p : Nat) (mask : Nat) (s : State) : (raiseIrq p mask s).coh = s.coh := by rw [raiseIrq_eq]
@[simp] theorem raiseIrq_regul (p : Nat) (mask : Nat) (s : State) : (raiseIrq p mask s).regul = s.regul := by rw [raiseIrq_eq]
@[simp] theorem raiseIrq_ctxs (p : Nat) (mask : Nat) (s : State) : (raiseIrq p mask s).ctxs = s.ctxs := by rw [raiseIrq_eq]
@[simp] theorem raiseIrq_msix (p : Nat) (mask : Nat) (s : State) : (raiseIrq p mask s).msix = s.msix := by rw [raiseIrq_eq]
@[simp] theorem raiseIrq_time (p : Nat) (mask : Nat) (s : State) : (raiseIrq p mask s).time = s.time := by rw [raiseIrq_eq]
@[simp] theorem raiseIrq_sites (p : Nat) (mask : Nat) (s : State) : (raiseIrq p mask s).sites = s.sites := by rw [raiseIrq_eq]
@[simp] theorem raiseIrq_heart (p : Nat) (mask : Nat) (s : State) : (raiseIrq p mask s).heart = s.heart := by rw [raiseIrq_eq]
@[simp] theorem raiseIrq_cores (p : Nat) (mask : Nat) (s : State) : (raiseIrq p mask s).cores = s.cores := by rw [raiseIrq_eq]
@[simp] theorem raiseIrq_plr (p : Nat) (mask : Nat) (s : State) : (raiseIrq p mask s).plr = s.plr := by rw [raiseIrq_eq]
@[simp] theorem raiseIrq_kiln (p : Nat) (mask : Nat) (s : State) : (raiseIrq p mask s).kiln = s.kiln := by rw [raiseIrq_eq]
@[simp] theorem raiseIrq_ember (p : Nat) (mask : Nat) (s : State) : (raiseIrq p mask s).ember = s.ember := by rw [raiseIrq_eq]
@[simp] theorem raiseIrq_host (p : Nat) (mask : Nat) (s : State) : (raiseIrq p mask s).host = s.host := by rw [raiseIrq_eq]
@[simp] theorem raiseIrq_peats (p : Nat) (mask : Nat) (s : State) : (raiseIrq p mask s).peats = s.peats := by rw [raiseIrq_eq]
@[simp] theorem raiseIrq_power (p : Nat) (mask : Nat) (s : State) : (raiseIrq p mask s).power = s.power := by rw [raiseIrq_eq]
@[simp] theorem raiseSrc_pending (p : Nat) (i : Nat) (s : State) : (raiseSrc p i s).pending = s.pending := by simp [raiseSrc]
@[simp] theorem raiseSrc_out (p : Nat) (i : Nat) (s : State) : (raiseSrc p i s).out = s.out := by simp [raiseSrc]
@[simp] theorem raiseSrc_fresh (p : Nat) (i : Nat) (s : State) : (raiseSrc p i s).fresh = s.fresh := by simp [raiseSrc]
@[simp] theorem raiseSrc_mem (p : Nat) (i : Nat) (s : State) : (raiseSrc p i s).mem = s.mem := by simp [raiseSrc]
@[simp] theorem raiseSrc_cache (p : Nat) (i : Nat) (s : State) : (raiseSrc p i s).cache = s.cache := by simp [raiseSrc]
@[simp] theorem raiseSrc_torus (p : Nat) (i : Nat) (s : State) : (raiseSrc p i s).torus = s.torus := by simp [raiseSrc]
@[simp] theorem raiseSrc_ops (p : Nat) (i : Nat) (s : State) : (raiseSrc p i s).ops = s.ops := by simp [raiseSrc]
@[simp] theorem raiseSrc_shadows (p : Nat) (i : Nat) (s : State) : (raiseSrc p i s).shadows = s.shadows := by simp [raiseSrc]
@[simp] theorem raiseSrc_tiles (p : Nat) (i : Nat) (s : State) : (raiseSrc p i s).tiles = s.tiles := by simp [raiseSrc]
@[simp] theorem raiseSrc_passes (p : Nat) (i : Nat) (s : State) : (raiseSrc p i s).passes = s.passes := by simp [raiseSrc]
@[simp] theorem raiseSrc_nextPass (p : Nat) (i : Nat) (s : State) : (raiseSrc p i s).nextPass = s.nextPass := by simp [raiseSrc]
@[simp] theorem raiseSrc_tags (p : Nat) (i : Nat) (s : State) : (raiseSrc p i s).tags = s.tags := by simp [raiseSrc]
@[simp] theorem raiseSrc_hbm (p : Nat) (i : Nat) (s : State) : (raiseSrc p i s).hbm = s.hbm := by simp [raiseSrc]
@[simp] theorem raiseSrc_xlate (p : Nat) (i : Nat) (s : State) : (raiseSrc p i s).xlate = s.xlate := by simp [raiseSrc]
@[simp] theorem raiseSrc_coh (p : Nat) (i : Nat) (s : State) : (raiseSrc p i s).coh = s.coh := by simp [raiseSrc]
@[simp] theorem raiseSrc_regul (p : Nat) (i : Nat) (s : State) : (raiseSrc p i s).regul = s.regul := by simp [raiseSrc]
@[simp] theorem raiseSrc_ctxs (p : Nat) (i : Nat) (s : State) : (raiseSrc p i s).ctxs = s.ctxs := by simp [raiseSrc]
@[simp] theorem raiseSrc_msix (p : Nat) (i : Nat) (s : State) : (raiseSrc p i s).msix = s.msix := by simp [raiseSrc]
@[simp] theorem raiseSrc_time (p : Nat) (i : Nat) (s : State) : (raiseSrc p i s).time = s.time := by simp [raiseSrc]
@[simp] theorem raiseSrc_sites (p : Nat) (i : Nat) (s : State) : (raiseSrc p i s).sites = s.sites := by simp [raiseSrc]
@[simp] theorem raiseSrc_heart (p : Nat) (i : Nat) (s : State) : (raiseSrc p i s).heart = s.heart := by simp [raiseSrc]
@[simp] theorem raiseSrc_cores (p : Nat) (i : Nat) (s : State) : (raiseSrc p i s).cores = s.cores := by simp [raiseSrc]
@[simp] theorem raiseSrc_plr (p : Nat) (i : Nat) (s : State) : (raiseSrc p i s).plr = s.plr := by simp [raiseSrc]
@[simp] theorem raiseSrc_kiln (p : Nat) (i : Nat) (s : State) : (raiseSrc p i s).kiln = s.kiln := by simp [raiseSrc]
@[simp] theorem raiseSrc_ember (p : Nat) (i : Nat) (s : State) : (raiseSrc p i s).ember = s.ember := by simp [raiseSrc]
@[simp] theorem raiseSrc_host (p : Nat) (i : Nat) (s : State) : (raiseSrc p i s).host = s.host := by simp [raiseSrc]
@[simp] theorem raiseSrc_peats (p : Nat) (i : Nat) (s : State) : (raiseSrc p i s).peats = s.peats := by simp [raiseSrc]
@[simp] theorem raiseSrc_power (p : Nat) (i : Nat) (s : State) : (raiseSrc p i s).power = s.power := by simp [raiseSrc]
@[simp] theorem accessErr_pending (p : Nat) (f : Field) (s : State) : (accessErr p f s).pending = s.pending := by simp [accessErr]
@[simp] theorem accessErr_out (p : Nat) (f : Field) (s : State) : (accessErr p f s).out = s.out := by simp [accessErr]
@[simp] theorem accessErr_fresh (p : Nat) (f : Field) (s : State) : (accessErr p f s).fresh = s.fresh := by simp [accessErr]
@[simp] theorem accessErr_mem (p : Nat) (f : Field) (s : State) : (accessErr p f s).mem = s.mem := by simp [accessErr]
@[simp] theorem accessErr_cache (p : Nat) (f : Field) (s : State) : (accessErr p f s).cache = s.cache := by simp [accessErr]
@[simp] theorem accessErr_torus (p : Nat) (f : Field) (s : State) : (accessErr p f s).torus = s.torus := by simp [accessErr]
@[simp] theorem accessErr_ops (p : Nat) (f : Field) (s : State) : (accessErr p f s).ops = s.ops := by simp [accessErr]
@[simp] theorem accessErr_shadows (p : Nat) (f : Field) (s : State) : (accessErr p f s).shadows = s.shadows := by simp [accessErr]
@[simp] theorem accessErr_tiles (p : Nat) (f : Field) (s : State) : (accessErr p f s).tiles = s.tiles := by simp [accessErr]
@[simp] theorem accessErr_passes (p : Nat) (f : Field) (s : State) : (accessErr p f s).passes = s.passes := by simp [accessErr]
@[simp] theorem accessErr_nextPass (p : Nat) (f : Field) (s : State) : (accessErr p f s).nextPass = s.nextPass := by simp [accessErr]
@[simp] theorem accessErr_tags (p : Nat) (f : Field) (s : State) : (accessErr p f s).tags = s.tags := by simp [accessErr]
@[simp] theorem accessErr_hbm (p : Nat) (f : Field) (s : State) : (accessErr p f s).hbm = s.hbm := by simp [accessErr]
@[simp] theorem accessErr_xlate (p : Nat) (f : Field) (s : State) : (accessErr p f s).xlate = s.xlate := by simp [accessErr]
@[simp] theorem accessErr_coh (p : Nat) (f : Field) (s : State) : (accessErr p f s).coh = s.coh := by simp [accessErr]
@[simp] theorem accessErr_regul (p : Nat) (f : Field) (s : State) : (accessErr p f s).regul = s.regul := by simp [accessErr]
@[simp] theorem accessErr_ctxs (p : Nat) (f : Field) (s : State) : (accessErr p f s).ctxs = s.ctxs := by simp [accessErr]
@[simp] theorem accessErr_msix (p : Nat) (f : Field) (s : State) : (accessErr p f s).msix = s.msix := by simp [accessErr]
@[simp] theorem accessErr_time (p : Nat) (f : Field) (s : State) : (accessErr p f s).time = s.time := by simp [accessErr]
@[simp] theorem accessErr_sites (p : Nat) (f : Field) (s : State) : (accessErr p f s).sites = s.sites := by simp [accessErr]
@[simp] theorem accessErr_heart (p : Nat) (f : Field) (s : State) : (accessErr p f s).heart = s.heart := by simp [accessErr]
@[simp] theorem accessErr_cores (p : Nat) (f : Field) (s : State) : (accessErr p f s).cores = s.cores := by simp [accessErr]
@[simp] theorem accessErr_plr (p : Nat) (f : Field) (s : State) : (accessErr p f s).plr = s.plr := by simp [accessErr]
@[simp] theorem accessErr_kiln (p : Nat) (f : Field) (s : State) : (accessErr p f s).kiln = s.kiln := by simp [accessErr]
@[simp] theorem accessErr_ember (p : Nat) (f : Field) (s : State) : (accessErr p f s).ember = s.ember := by simp [accessErr]
@[simp] theorem accessErr_host (p : Nat) (f : Field) (s : State) : (accessErr p f s).host = s.host := by simp [accessErr]
@[simp] theorem accessErr_peats (p : Nat) (f : Field) (s : State) : (accessErr p f s).peats = s.peats := by simp [accessErr]
@[simp] theorem accessErr_power (p : Nat) (f : Field) (s : State) : (accessErr p f s).power = s.power := by simp [accessErr]
@[simp] theorem opRefused_pending (p : Nat) (s : State) : (opRefused p s).pending = s.pending := by simp [opRefused]
@[simp] theorem opRefused_out (p : Nat) (s : State) : (opRefused p s).out = s.out := by simp [opRefused]
@[simp] theorem opRefused_fresh (p : Nat) (s : State) : (opRefused p s).fresh = s.fresh := by simp [opRefused]
@[simp] theorem opRefused_mem (p : Nat) (s : State) : (opRefused p s).mem = s.mem := by simp [opRefused]
@[simp] theorem opRefused_cache (p : Nat) (s : State) : (opRefused p s).cache = s.cache := by simp [opRefused]
@[simp] theorem opRefused_torus (p : Nat) (s : State) : (opRefused p s).torus = s.torus := by simp [opRefused]
@[simp] theorem opRefused_ops (p : Nat) (s : State) : (opRefused p s).ops = s.ops := by simp [opRefused]
@[simp] theorem opRefused_shadows (p : Nat) (s : State) : (opRefused p s).shadows = s.shadows := by simp [opRefused]
@[simp] theorem opRefused_tiles (p : Nat) (s : State) : (opRefused p s).tiles = s.tiles := by simp [opRefused]
@[simp] theorem opRefused_passes (p : Nat) (s : State) : (opRefused p s).passes = s.passes := by simp [opRefused]
@[simp] theorem opRefused_nextPass (p : Nat) (s : State) : (opRefused p s).nextPass = s.nextPass := by simp [opRefused]
@[simp] theorem opRefused_tags (p : Nat) (s : State) : (opRefused p s).tags = s.tags := by simp [opRefused]
@[simp] theorem opRefused_hbm (p : Nat) (s : State) : (opRefused p s).hbm = s.hbm := by simp [opRefused]
@[simp] theorem opRefused_xlate (p : Nat) (s : State) : (opRefused p s).xlate = s.xlate := by simp [opRefused]
@[simp] theorem opRefused_coh (p : Nat) (s : State) : (opRefused p s).coh = s.coh := by simp [opRefused]
@[simp] theorem opRefused_regul (p : Nat) (s : State) : (opRefused p s).regul = s.regul := by simp [opRefused]
@[simp] theorem opRefused_ctxs (p : Nat) (s : State) : (opRefused p s).ctxs = s.ctxs := by simp [opRefused]
@[simp] theorem opRefused_msix (p : Nat) (s : State) : (opRefused p s).msix = s.msix := by simp [opRefused]
@[simp] theorem opRefused_time (p : Nat) (s : State) : (opRefused p s).time = s.time := by simp [opRefused]
@[simp] theorem opRefused_sites (p : Nat) (s : State) : (opRefused p s).sites = s.sites := by simp [opRefused]
@[simp] theorem opRefused_heart (p : Nat) (s : State) : (opRefused p s).heart = s.heart := by simp [opRefused]
@[simp] theorem opRefused_cores (p : Nat) (s : State) : (opRefused p s).cores = s.cores := by simp [opRefused]
@[simp] theorem opRefused_plr (p : Nat) (s : State) : (opRefused p s).plr = s.plr := by simp [opRefused]
@[simp] theorem opRefused_kiln (p : Nat) (s : State) : (opRefused p s).kiln = s.kiln := by simp [opRefused]
@[simp] theorem opRefused_ember (p : Nat) (s : State) : (opRefused p s).ember = s.ember := by simp [opRefused]
@[simp] theorem opRefused_host (p : Nat) (s : State) : (opRefused p s).host = s.host := by simp [opRefused]
@[simp] theorem opRefused_peats (p : Nat) (s : State) : (opRefused p s).peats = s.peats := by simp [opRefused]
@[simp] theorem opRefused_power (p : Nat) (s : State) : (opRefused p s).power = s.power := by simp [opRefused]
@[simp] theorem sendMsix_pending (fn : Nat) (v : Nat) (s : State) : (sendMsix fn v s).pending = s.pending := by
  simp only [sendMsix]; (repeat' split) <;> simp
@[simp] theorem sendMsix_fresh (fn : Nat) (v : Nat) (s : State) : (sendMsix fn v s).fresh = s.fresh := by
  simp only [sendMsix]; (repeat' split) <;> simp
@[simp] theorem sendMsix_regs (fn : Nat) (v : Nat) (s : State) : (sendMsix fn v s).regs = s.regs := by
  simp only [sendMsix]; (repeat' split) <;> simp
@[simp] theorem sendMsix_mem (fn : Nat) (v : Nat) (s : State) : (sendMsix fn v s).mem = s.mem := by
  simp only [sendMsix]; (repeat' split) <;> simp
@[simp] theorem sendMsix_cache (fn : Nat) (v : Nat) (s : State) : (sendMsix fn v s).cache = s.cache := by
  simp only [sendMsix]; (repeat' split) <;> simp
@[simp] theorem sendMsix_torus (fn : Nat) (v : Nat) (s : State) : (sendMsix fn v s).torus = s.torus := by
  simp only [sendMsix]; (repeat' split) <;> simp
@[simp] theorem sendMsix_errs (fn : Nat) (v : Nat) (s : State) : (sendMsix fn v s).errs = s.errs := by
  simp only [sendMsix]; (repeat' split) <;> simp
@[simp] theorem sendMsix_ops (fn : Nat) (v : Nat) (s : State) : (sendMsix fn v s).ops = s.ops := by
  simp only [sendMsix]; (repeat' split) <;> simp
@[simp] theorem sendMsix_shadows (fn : Nat) (v : Nat) (s : State) : (sendMsix fn v s).shadows = s.shadows := by
  simp only [sendMsix]; (repeat' split) <;> simp
@[simp] theorem sendMsix_tiles (fn : Nat) (v : Nat) (s : State) : (sendMsix fn v s).tiles = s.tiles := by
  simp only [sendMsix]; (repeat' split) <;> simp
@[simp] theorem sendMsix_passes (fn : Nat) (v : Nat) (s : State) : (sendMsix fn v s).passes = s.passes := by
  simp only [sendMsix]; (repeat' split) <;> simp
@[simp] theorem sendMsix_nextPass (fn : Nat) (v : Nat) (s : State) : (sendMsix fn v s).nextPass = s.nextPass := by
  simp only [sendMsix]; (repeat' split) <;> simp
@[simp] theorem sendMsix_tags (fn : Nat) (v : Nat) (s : State) : (sendMsix fn v s).tags = s.tags := by
  simp only [sendMsix]; (repeat' split) <;> simp
@[simp] theorem sendMsix_hbm (fn : Nat) (v : Nat) (s : State) : (sendMsix fn v s).hbm = s.hbm := by
  simp only [sendMsix]; (repeat' split) <;> simp
@[simp] theorem sendMsix_xlate (fn : Nat) (v : Nat) (s : State) : (sendMsix fn v s).xlate = s.xlate := by
  simp only [sendMsix]; (repeat' split) <;> simp
@[simp] theorem sendMsix_coh (fn : Nat) (v : Nat) (s : State) : (sendMsix fn v s).coh = s.coh := by
  simp only [sendMsix]; (repeat' split) <;> simp
@[simp] theorem sendMsix_regul (fn : Nat) (v : Nat) (s : State) : (sendMsix fn v s).regul = s.regul := by
  simp only [sendMsix]; (repeat' split) <;> simp
@[simp] theorem sendMsix_ctxs (fn : Nat) (v : Nat) (s : State) : (sendMsix fn v s).ctxs = s.ctxs := by
  simp only [sendMsix]; (repeat' split) <;> simp
@[simp] theorem sendMsix_time (fn : Nat) (v : Nat) (s : State) : (sendMsix fn v s).time = s.time := by
  simp only [sendMsix]; (repeat' split) <;> simp
@[simp] theorem sendMsix_sites (fn : Nat) (v : Nat) (s : State) : (sendMsix fn v s).sites = s.sites := by
  simp only [sendMsix]; (repeat' split) <;> simp
@[simp] theorem sendMsix_heart (fn : Nat) (v : Nat) (s : State) : (sendMsix fn v s).heart = s.heart := by
  simp only [sendMsix]; (repeat' split) <;> simp
@[simp] theorem sendMsix_cores (fn : Nat) (v : Nat) (s : State) : (sendMsix fn v s).cores = s.cores := by
  simp only [sendMsix]; (repeat' split) <;> simp
@[simp] theorem sendMsix_plr (fn : Nat) (v : Nat) (s : State) : (sendMsix fn v s).plr = s.plr := by
  simp only [sendMsix]; (repeat' split) <;> simp
@[simp] theorem sendMsix_kiln (fn : Nat) (v : Nat) (s : State) : (sendMsix fn v s).kiln = s.kiln := by
  simp only [sendMsix]; (repeat' split) <;> simp
@[simp] theorem sendMsix_ember (fn : Nat) (v : Nat) (s : State) : (sendMsix fn v s).ember = s.ember := by
  simp only [sendMsix]; (repeat' split) <;> simp
@[simp] theorem sendMsix_host (fn : Nat) (v : Nat) (s : State) : (sendMsix fn v s).host = s.host := by
  simp only [sendMsix]; (repeat' split) <;> simp
@[simp] theorem sendMsix_peats (fn : Nat) (v : Nat) (s : State) : (sendMsix fn v s).peats = s.peats := by
  simp only [sendMsix]; (repeat' split) <;> simp
@[simp] theorem sendMsix_power (fn : Nat) (v : Nat) (s : State) : (sendMsix fn v s).power = s.power := by
  simp only [sendMsix]; (repeat' split) <;> simp
@[simp] theorem ctxMsg_pending (k : Nat) (which : Nat) (s : State) : (ctxMsg k which s).pending = s.pending := by
  simp only [ctxMsg]; (repeat' split) <;> simp
@[simp] theorem ctxMsg_fresh (k : Nat) (which : Nat) (s : State) : (ctxMsg k which s).fresh = s.fresh := by
  simp only [ctxMsg]; (repeat' split) <;> simp
@[simp] theorem ctxMsg_regs (k : Nat) (which : Nat) (s : State) : (ctxMsg k which s).regs = s.regs := by
  simp only [ctxMsg]; (repeat' split) <;> simp
@[simp] theorem ctxMsg_mem (k : Nat) (which : Nat) (s : State) : (ctxMsg k which s).mem = s.mem := by
  simp only [ctxMsg]; (repeat' split) <;> simp
@[simp] theorem ctxMsg_cache (k : Nat) (which : Nat) (s : State) : (ctxMsg k which s).cache = s.cache := by
  simp only [ctxMsg]; (repeat' split) <;> simp
@[simp] theorem ctxMsg_torus (k : Nat) (which : Nat) (s : State) : (ctxMsg k which s).torus = s.torus := by
  simp only [ctxMsg]; (repeat' split) <;> simp
@[simp] theorem ctxMsg_errs (k : Nat) (which : Nat) (s : State) : (ctxMsg k which s).errs = s.errs := by
  simp only [ctxMsg]; (repeat' split) <;> simp
@[simp] theorem ctxMsg_ops (k : Nat) (which : Nat) (s : State) : (ctxMsg k which s).ops = s.ops := by
  simp only [ctxMsg]; (repeat' split) <;> simp
@[simp] theorem ctxMsg_shadows (k : Nat) (which : Nat) (s : State) : (ctxMsg k which s).shadows = s.shadows := by
  simp only [ctxMsg]; (repeat' split) <;> simp
@[simp] theorem ctxMsg_tiles (k : Nat) (which : Nat) (s : State) : (ctxMsg k which s).tiles = s.tiles := by
  simp only [ctxMsg]; (repeat' split) <;> simp
@[simp] theorem ctxMsg_passes (k : Nat) (which : Nat) (s : State) : (ctxMsg k which s).passes = s.passes := by
  simp only [ctxMsg]; (repeat' split) <;> simp
@[simp] theorem ctxMsg_nextPass (k : Nat) (which : Nat) (s : State) : (ctxMsg k which s).nextPass = s.nextPass := by
  simp only [ctxMsg]; (repeat' split) <;> simp
@[simp] theorem ctxMsg_tags (k : Nat) (which : Nat) (s : State) : (ctxMsg k which s).tags = s.tags := by
  simp only [ctxMsg]; (repeat' split) <;> simp
@[simp] theorem ctxMsg_hbm (k : Nat) (which : Nat) (s : State) : (ctxMsg k which s).hbm = s.hbm := by
  simp only [ctxMsg]; (repeat' split) <;> simp
@[simp] theorem ctxMsg_xlate (k : Nat) (which : Nat) (s : State) : (ctxMsg k which s).xlate = s.xlate := by
  simp only [ctxMsg]; (repeat' split) <;> simp
@[simp] theorem ctxMsg_coh (k : Nat) (which : Nat) (s : State) : (ctxMsg k which s).coh = s.coh := by
  simp only [ctxMsg]; (repeat' split) <;> simp
@[simp] theorem ctxMsg_regul (k : Nat) (which : Nat) (s : State) : (ctxMsg k which s).regul = s.regul := by
  simp only [ctxMsg]; (repeat' split) <;> simp
@[simp] theorem ctxMsg_ctxs (k : Nat) (which : Nat) (s : State) : (ctxMsg k which s).ctxs = s.ctxs := by
  simp only [ctxMsg]; (repeat' split) <;> simp
@[simp] theorem ctxMsg_time (k : Nat) (which : Nat) (s : State) : (ctxMsg k which s).time = s.time := by
  simp only [ctxMsg]; (repeat' split) <;> simp
@[simp] theorem ctxMsg_sites (k : Nat) (which : Nat) (s : State) : (ctxMsg k which s).sites = s.sites := by
  simp only [ctxMsg]; (repeat' split) <;> simp
@[simp] theorem ctxMsg_heart (k : Nat) (which : Nat) (s : State) : (ctxMsg k which s).heart = s.heart := by
  simp only [ctxMsg]; (repeat' split) <;> simp
@[simp] theorem ctxMsg_cores (k : Nat) (which : Nat) (s : State) : (ctxMsg k which s).cores = s.cores := by
  simp only [ctxMsg]; (repeat' split) <;> simp
@[simp] theorem ctxMsg_plr (k : Nat) (which : Nat) (s : State) : (ctxMsg k which s).plr = s.plr := by
  simp only [ctxMsg]; (repeat' split) <;> simp
@[simp] theorem ctxMsg_kiln (k : Nat) (which : Nat) (s : State) : (ctxMsg k which s).kiln = s.kiln := by
  simp only [ctxMsg]; (repeat' split) <;> simp
@[simp] theorem ctxMsg_ember (k : Nat) (which : Nat) (s : State) : (ctxMsg k which s).ember = s.ember := by
  simp only [ctxMsg]; (repeat' split) <;> simp
@[simp] theorem ctxMsg_host (k : Nat) (which : Nat) (s : State) : (ctxMsg k which s).host = s.host := by
  simp only [ctxMsg]; (repeat' split) <;> simp
@[simp] theorem ctxMsg_peats (k : Nat) (which : Nat) (s : State) : (ctxMsg k which s).peats = s.peats := by
  simp only [ctxMsg]; (repeat' split) <;> simp
@[simp] theorem ctxMsg_power (k : Nat) (which : Nat) (s : State) : (ctxMsg k which s).power = s.power := by
  simp only [ctxMsg]; (repeat' split) <;> simp
@[simp] theorem hubFault_pending (s : State) : (hubFault s).pending = s.pending := rfl
@[simp] theorem hubFault_fresh (s : State) : (hubFault s).fresh = s.fresh := rfl
@[simp] theorem hubFault_regs (s : State) : (hubFault s).regs = s.regs := rfl
@[simp] theorem hubFault_mem (s : State) : (hubFault s).mem = s.mem := rfl
@[simp] theorem hubFault_cache (s : State) : (hubFault s).cache = s.cache := rfl
@[simp] theorem hubFault_torus (s : State) : (hubFault s).torus = s.torus := rfl
@[simp] theorem hubFault_errs (s : State) : (hubFault s).errs = s.errs := rfl
@[simp] theorem hubFault_ops (s : State) : (hubFault s).ops = s.ops := rfl
@[simp] theorem hubFault_shadows (s : State) : (hubFault s).shadows = s.shadows := rfl
@[simp] theorem hubFault_tiles (s : State) : (hubFault s).tiles = s.tiles := rfl
@[simp] theorem hubFault_passes (s : State) : (hubFault s).passes = s.passes := rfl
@[simp] theorem hubFault_nextPass (s : State) : (hubFault s).nextPass = s.nextPass := rfl
@[simp] theorem hubFault_tags (s : State) : (hubFault s).tags = s.tags := rfl
@[simp] theorem hubFault_hbm (s : State) : (hubFault s).hbm = s.hbm := rfl
@[simp] theorem hubFault_xlate (s : State) : (hubFault s).xlate = s.xlate := rfl
@[simp] theorem hubFault_coh (s : State) : (hubFault s).coh = s.coh := rfl
@[simp] theorem hubFault_regul (s : State) : (hubFault s).regul = s.regul := rfl
@[simp] theorem hubFault_ctxs (s : State) : (hubFault s).ctxs = s.ctxs := rfl
@[simp] theorem hubFault_msix (s : State) : (hubFault s).msix = s.msix := rfl
@[simp] theorem hubFault_time (s : State) : (hubFault s).time = s.time := rfl
@[simp] theorem hubFault_sites (s : State) : (hubFault s).sites = s.sites := rfl
@[simp] theorem hubFault_heart (s : State) : (hubFault s).heart = s.heart := rfl
@[simp] theorem hubFault_cores (s : State) : (hubFault s).cores = s.cores := rfl
@[simp] theorem hubFault_plr (s : State) : (hubFault s).plr = s.plr := rfl
@[simp] theorem hubFault_kiln (s : State) : (hubFault s).kiln = s.kiln := rfl
@[simp] theorem hubFault_ember (s : State) : (hubFault s).ember = s.ember := rfl
@[simp] theorem hubFault_host (s : State) : (hubFault s).host = s.host := rfl
@[simp] theorem hubFault_peats (s : State) : (hubFault s).peats = s.peats := rfl
@[simp] theorem latch_pending (r : ErrRec) (s : State) : (latch r s).pending = s.pending := rfl
@[simp] theorem latch_out (r : ErrRec) (s : State) : (latch r s).out = s.out := rfl
@[simp] theorem latch_fresh (r : ErrRec) (s : State) : (latch r s).fresh = s.fresh := rfl
@[simp] theorem latch_regs (r : ErrRec) (s : State) : (latch r s).regs = s.regs := rfl
@[simp] theorem latch_mem (r : ErrRec) (s : State) : (latch r s).mem = s.mem := rfl
@[simp] theorem latch_cache (r : ErrRec) (s : State) : (latch r s).cache = s.cache := rfl
@[simp] theorem latch_torus (r : ErrRec) (s : State) : (latch r s).torus = s.torus := rfl
@[simp] theorem latch_ops (r : ErrRec) (s : State) : (latch r s).ops = s.ops := rfl
@[simp] theorem latch_shadows (r : ErrRec) (s : State) : (latch r s).shadows = s.shadows := rfl
@[simp] theorem latch_tiles (r : ErrRec) (s : State) : (latch r s).tiles = s.tiles := rfl
@[simp] theorem latch_passes (r : ErrRec) (s : State) : (latch r s).passes = s.passes := rfl
@[simp] theorem latch_nextPass (r : ErrRec) (s : State) : (latch r s).nextPass = s.nextPass := rfl
@[simp] theorem latch_tags (r : ErrRec) (s : State) : (latch r s).tags = s.tags := rfl
@[simp] theorem latch_hbm (r : ErrRec) (s : State) : (latch r s).hbm = s.hbm := rfl
@[simp] theorem latch_xlate (r : ErrRec) (s : State) : (latch r s).xlate = s.xlate := rfl
@[simp] theorem latch_coh (r : ErrRec) (s : State) : (latch r s).coh = s.coh := rfl
@[simp] theorem latch_regul (r : ErrRec) (s : State) : (latch r s).regul = s.regul := rfl
@[simp] theorem latch_ctxs (r : ErrRec) (s : State) : (latch r s).ctxs = s.ctxs := rfl
@[simp] theorem latch_msix (r : ErrRec) (s : State) : (latch r s).msix = s.msix := rfl
@[simp] theorem latch_time (r : ErrRec) (s : State) : (latch r s).time = s.time := rfl
@[simp] theorem latch_sites (r : ErrRec) (s : State) : (latch r s).sites = s.sites := rfl
@[simp] theorem latch_heart (r : ErrRec) (s : State) : (latch r s).heart = s.heart := rfl
@[simp] theorem latch_cores (r : ErrRec) (s : State) : (latch r s).cores = s.cores := rfl
@[simp] theorem latch_plr (r : ErrRec) (s : State) : (latch r s).plr = s.plr := rfl
@[simp] theorem latch_kiln (r : ErrRec) (s : State) : (latch r s).kiln = s.kiln := rfl
@[simp] theorem latch_ember (r : ErrRec) (s : State) : (latch r s).ember = s.ember := rfl
@[simp] theorem latch_host (r : ErrRec) (s : State) : (latch r s).host = s.host := rfl
@[simp] theorem latch_peats (r : ErrRec) (s : State) : (latch r s).peats = s.peats := rfl
@[simp] theorem latch_power (r : ErrRec) (s : State) : (latch r s).power = s.power := rfl
@[simp] theorem capture_pending (r : ErrRec) (s : State) : (capture r s).pending = s.pending := by
  simp only [capture]; (repeat' split) <;> simp
@[simp] theorem capture_out (r : ErrRec) (s : State) : (capture r s).out = s.out := by
  simp only [capture]; (repeat' split) <;> simp
@[simp] theorem capture_fresh (r : ErrRec) (s : State) : (capture r s).fresh = s.fresh := by
  simp only [capture]; (repeat' split) <;> simp
@[simp] theorem capture_mem (r : ErrRec) (s : State) : (capture r s).mem = s.mem := by
  simp only [capture]; (repeat' split) <;> simp
@[simp] theorem capture_cache (r : ErrRec) (s : State) : (capture r s).cache = s.cache := by
  simp only [capture]; (repeat' split) <;> simp
@[simp] theorem capture_torus (r : ErrRec) (s : State) : (capture r s).torus = s.torus := by
  simp only [capture]; (repeat' split) <;> simp
@[simp] theorem capture_ops (r : ErrRec) (s : State) : (capture r s).ops = s.ops := by
  simp only [capture]; (repeat' split) <;> simp
@[simp] theorem capture_shadows (r : ErrRec) (s : State) : (capture r s).shadows = s.shadows := by
  simp only [capture]; (repeat' split) <;> simp
@[simp] theorem capture_tiles (r : ErrRec) (s : State) : (capture r s).tiles = s.tiles := by
  simp only [capture]; (repeat' split) <;> simp
@[simp] theorem capture_passes (r : ErrRec) (s : State) : (capture r s).passes = s.passes := by
  simp only [capture]; (repeat' split) <;> simp
@[simp] theorem capture_nextPass (r : ErrRec) (s : State) : (capture r s).nextPass = s.nextPass := by
  simp only [capture]; (repeat' split) <;> simp
@[simp] theorem capture_tags (r : ErrRec) (s : State) : (capture r s).tags = s.tags := by
  simp only [capture]; (repeat' split) <;> simp
@[simp] theorem capture_hbm (r : ErrRec) (s : State) : (capture r s).hbm = s.hbm := by
  simp only [capture]; (repeat' split) <;> simp
@[simp] theorem capture_xlate (r : ErrRec) (s : State) : (capture r s).xlate = s.xlate := by
  simp only [capture]; (repeat' split) <;> simp
@[simp] theorem capture_coh (r : ErrRec) (s : State) : (capture r s).coh = s.coh := by
  simp only [capture]; (repeat' split) <;> simp
@[simp] theorem capture_regul (r : ErrRec) (s : State) : (capture r s).regul = s.regul := by
  simp only [capture]; (repeat' split) <;> simp
@[simp] theorem capture_ctxs (r : ErrRec) (s : State) : (capture r s).ctxs = s.ctxs := by
  simp only [capture]; (repeat' split) <;> simp
@[simp] theorem capture_msix (r : ErrRec) (s : State) : (capture r s).msix = s.msix := by
  simp only [capture]; (repeat' split) <;> simp
@[simp] theorem capture_time (r : ErrRec) (s : State) : (capture r s).time = s.time := by
  simp only [capture]; (repeat' split) <;> simp
@[simp] theorem capture_sites (r : ErrRec) (s : State) : (capture r s).sites = s.sites := by
  simp only [capture]; (repeat' split) <;> simp
@[simp] theorem capture_heart (r : ErrRec) (s : State) : (capture r s).heart = s.heart := by
  simp only [capture]; (repeat' split) <;> simp
@[simp] theorem capture_cores (r : ErrRec) (s : State) : (capture r s).cores = s.cores := by
  simp only [capture]; (repeat' split) <;> simp
@[simp] theorem capture_plr (r : ErrRec) (s : State) : (capture r s).plr = s.plr := by
  simp only [capture]; (repeat' split) <;> simp
@[simp] theorem capture_kiln (r : ErrRec) (s : State) : (capture r s).kiln = s.kiln := by
  simp only [capture]; (repeat' split) <;> simp
@[simp] theorem capture_ember (r : ErrRec) (s : State) : (capture r s).ember = s.ember := by
  simp only [capture]; (repeat' split) <;> simp
@[simp] theorem capture_host (r : ErrRec) (s : State) : (capture r s).host = s.host := by
  simp only [capture]; (repeat' split) <;> simp
@[simp] theorem capture_peats (r : ErrRec) (s : State) : (capture r s).peats = s.peats := by
  simp only [capture]; (repeat' split) <;> simp
@[simp] theorem capture_power (r : ErrRec) (s : State) : (capture r s).power = s.power := by
  simp only [capture]; (repeat' split) <;> simp
@[simp] theorem raiseErr_pending (r : ErrRec) (s : State) : (raiseErr r s).pending = s.pending := by
  simp only [raiseErr]; (repeat' split) <;> simp
@[simp] theorem raiseErr_fresh (r : ErrRec) (s : State) : (raiseErr r s).fresh = s.fresh := by
  simp only [raiseErr]; (repeat' split) <;> simp
@[simp] theorem raiseErr_mem (r : ErrRec) (s : State) : (raiseErr r s).mem = s.mem := by
  simp only [raiseErr]; (repeat' split) <;> simp
@[simp] theorem raiseErr_cache (r : ErrRec) (s : State) : (raiseErr r s).cache = s.cache := by
  simp only [raiseErr]; (repeat' split) <;> simp
@[simp] theorem raiseErr_torus (r : ErrRec) (s : State) : (raiseErr r s).torus = s.torus := by
  simp only [raiseErr]; (repeat' split) <;> simp
@[simp] theorem raiseErr_ops (r : ErrRec) (s : State) : (raiseErr r s).ops = s.ops := by
  simp only [raiseErr]; (repeat' split) <;> simp
@[simp] theorem raiseErr_shadows (r : ErrRec) (s : State) : (raiseErr r s).shadows = s.shadows := by
  simp only [raiseErr]; (repeat' split) <;> simp
@[simp] theorem raiseErr_tiles (r : ErrRec) (s : State) : (raiseErr r s).tiles = s.tiles := by
  simp only [raiseErr]; (repeat' split) <;> simp
@[simp] theorem raiseErr_passes (r : ErrRec) (s : State) : (raiseErr r s).passes = s.passes := by
  simp only [raiseErr]; (repeat' split) <;> simp
@[simp] theorem raiseErr_nextPass (r : ErrRec) (s : State) : (raiseErr r s).nextPass = s.nextPass := by
  simp only [raiseErr]; (repeat' split) <;> simp
@[simp] theorem raiseErr_tags (r : ErrRec) (s : State) : (raiseErr r s).tags = s.tags := by
  simp only [raiseErr]; (repeat' split) <;> simp
@[simp] theorem raiseErr_hbm (r : ErrRec) (s : State) : (raiseErr r s).hbm = s.hbm := by
  simp only [raiseErr]; (repeat' split) <;> simp
@[simp] theorem raiseErr_xlate (r : ErrRec) (s : State) : (raiseErr r s).xlate = s.xlate := by
  simp only [raiseErr]; (repeat' split) <;> simp
@[simp] theorem raiseErr_coh (r : ErrRec) (s : State) : (raiseErr r s).coh = s.coh := by
  simp only [raiseErr]; (repeat' split) <;> simp
@[simp] theorem raiseErr_regul (r : ErrRec) (s : State) : (raiseErr r s).regul = s.regul := by
  simp only [raiseErr]; (repeat' split) <;> simp
@[simp] theorem raiseErr_ctxs (r : ErrRec) (s : State) : (raiseErr r s).ctxs = s.ctxs := by
  simp only [raiseErr]; (repeat' split) <;> simp
@[simp] theorem raiseErr_msix (r : ErrRec) (s : State) : (raiseErr r s).msix = s.msix := by
  simp only [raiseErr]; (repeat' split) <;> simp
@[simp] theorem raiseErr_time (r : ErrRec) (s : State) : (raiseErr r s).time = s.time := by
  simp only [raiseErr]; (repeat' split) <;> simp
@[simp] theorem raiseErr_sites (r : ErrRec) (s : State) : (raiseErr r s).sites = s.sites := by
  simp only [raiseErr]; (repeat' split) <;> simp
@[simp] theorem raiseErr_heart (r : ErrRec) (s : State) : (raiseErr r s).heart = s.heart := by
  simp only [raiseErr]; (repeat' split) <;> simp
@[simp] theorem raiseErr_cores (r : ErrRec) (s : State) : (raiseErr r s).cores = s.cores := by
  simp only [raiseErr]; (repeat' split) <;> simp
@[simp] theorem raiseErr_plr (r : ErrRec) (s : State) : (raiseErr r s).plr = s.plr := by
  simp only [raiseErr]; (repeat' split) <;> simp
@[simp] theorem raiseErr_kiln (r : ErrRec) (s : State) : (raiseErr r s).kiln = s.kiln := by
  simp only [raiseErr]; (repeat' split) <;> simp
@[simp] theorem raiseErr_ember (r : ErrRec) (s : State) : (raiseErr r s).ember = s.ember := by
  simp only [raiseErr]; (repeat' split) <;> simp
@[simp] theorem raiseErr_host (r : ErrRec) (s : State) : (raiseErr r s).host = s.host := by
  simp only [raiseErr]; (repeat' split) <;> simp
@[simp] theorem raiseErr_peats (r : ErrRec) (s : State) : (raiseErr r s).peats = s.peats := by
  simp only [raiseErr]; (repeat' split) <;> simp
@[simp] theorem setProgress_pending (p : Nat) (code : Nat) (percent : Nat) (position : Nat) (s : State) : (setProgress p code percent position s).pending = s.pending := by simp [setProgress]
@[simp] theorem setProgress_out (p : Nat) (code : Nat) (percent : Nat) (position : Nat) (s : State) : (setProgress p code percent position s).out = s.out := by simp [setProgress]
@[simp] theorem setProgress_fresh (p : Nat) (code : Nat) (percent : Nat) (position : Nat) (s : State) : (setProgress p code percent position s).fresh = s.fresh := by simp [setProgress]
@[simp] theorem setProgress_mem (p : Nat) (code : Nat) (percent : Nat) (position : Nat) (s : State) : (setProgress p code percent position s).mem = s.mem := by simp [setProgress]
@[simp] theorem setProgress_cache (p : Nat) (code : Nat) (percent : Nat) (position : Nat) (s : State) : (setProgress p code percent position s).cache = s.cache := by simp [setProgress]
@[simp] theorem setProgress_torus (p : Nat) (code : Nat) (percent : Nat) (position : Nat) (s : State) : (setProgress p code percent position s).torus = s.torus := by simp [setProgress]
@[simp] theorem setProgress_errs (p : Nat) (code : Nat) (percent : Nat) (position : Nat) (s : State) : (setProgress p code percent position s).errs = s.errs := by simp [setProgress]
@[simp] theorem setProgress_ops (p : Nat) (code : Nat) (percent : Nat) (position : Nat) (s : State) : (setProgress p code percent position s).ops = s.ops := by simp [setProgress]
@[simp] theorem setProgress_shadows (p : Nat) (code : Nat) (percent : Nat) (position : Nat) (s : State) : (setProgress p code percent position s).shadows = s.shadows := by simp [setProgress]
@[simp] theorem setProgress_tiles (p : Nat) (code : Nat) (percent : Nat) (position : Nat) (s : State) : (setProgress p code percent position s).tiles = s.tiles := by simp [setProgress]
@[simp] theorem setProgress_passes (p : Nat) (code : Nat) (percent : Nat) (position : Nat) (s : State) : (setProgress p code percent position s).passes = s.passes := by simp [setProgress]
@[simp] theorem setProgress_nextPass (p : Nat) (code : Nat) (percent : Nat) (position : Nat) (s : State) : (setProgress p code percent position s).nextPass = s.nextPass := by simp [setProgress]
@[simp] theorem setProgress_tags (p : Nat) (code : Nat) (percent : Nat) (position : Nat) (s : State) : (setProgress p code percent position s).tags = s.tags := by simp [setProgress]
@[simp] theorem setProgress_hbm (p : Nat) (code : Nat) (percent : Nat) (position : Nat) (s : State) : (setProgress p code percent position s).hbm = s.hbm := by simp [setProgress]
@[simp] theorem setProgress_xlate (p : Nat) (code : Nat) (percent : Nat) (position : Nat) (s : State) : (setProgress p code percent position s).xlate = s.xlate := by simp [setProgress]
@[simp] theorem setProgress_coh (p : Nat) (code : Nat) (percent : Nat) (position : Nat) (s : State) : (setProgress p code percent position s).coh = s.coh := by simp [setProgress]
@[simp] theorem setProgress_regul (p : Nat) (code : Nat) (percent : Nat) (position : Nat) (s : State) : (setProgress p code percent position s).regul = s.regul := by simp [setProgress]
@[simp] theorem setProgress_ctxs (p : Nat) (code : Nat) (percent : Nat) (position : Nat) (s : State) : (setProgress p code percent position s).ctxs = s.ctxs := by simp [setProgress]
@[simp] theorem setProgress_msix (p : Nat) (code : Nat) (percent : Nat) (position : Nat) (s : State) : (setProgress p code percent position s).msix = s.msix := by simp [setProgress]
@[simp] theorem setProgress_time (p : Nat) (code : Nat) (percent : Nat) (position : Nat) (s : State) : (setProgress p code percent position s).time = s.time := by simp [setProgress]
@[simp] theorem setProgress_sites (p : Nat) (code : Nat) (percent : Nat) (position : Nat) (s : State) : (setProgress p code percent position s).sites = s.sites := by simp [setProgress]
@[simp] theorem setProgress_heart (p : Nat) (code : Nat) (percent : Nat) (position : Nat) (s : State) : (setProgress p code percent position s).heart = s.heart := by simp [setProgress]
@[simp] theorem setProgress_cores (p : Nat) (code : Nat) (percent : Nat) (position : Nat) (s : State) : (setProgress p code percent position s).cores = s.cores := by simp [setProgress]
@[simp] theorem setProgress_plr (p : Nat) (code : Nat) (percent : Nat) (position : Nat) (s : State) : (setProgress p code percent position s).plr = s.plr := by simp [setProgress]
@[simp] theorem setProgress_kiln (p : Nat) (code : Nat) (percent : Nat) (position : Nat) (s : State) : (setProgress p code percent position s).kiln = s.kiln := by simp [setProgress]
@[simp] theorem setProgress_ember (p : Nat) (code : Nat) (percent : Nat) (position : Nat) (s : State) : (setProgress p code percent position s).ember = s.ember := by simp [setProgress]
@[simp] theorem setProgress_host (p : Nat) (code : Nat) (percent : Nat) (position : Nat) (s : State) : (setProgress p code percent position s).host = s.host := by simp [setProgress]
@[simp] theorem setProgress_peats (p : Nat) (code : Nat) (percent : Nat) (position : Nat) (s : State) : (setProgress p code percent position s).peats = s.peats := by simp [setProgress]
@[simp] theorem setProgress_power (p : Nat) (code : Nat) (percent : Nat) (position : Nat) (s : State) : (setProgress p code percent position s).power = s.power := by simp [setProgress]
@[simp] theorem opQueue_pending (p : Nat) (op : Nat) (arg : Nat) (s : State) : (opQueue p op arg s).pending = s.pending := by simp [opQueue]
@[simp] theorem opQueue_out (p : Nat) (op : Nat) (arg : Nat) (s : State) : (opQueue p op arg s).out = s.out := by simp [opQueue]
@[simp] theorem opQueue_fresh (p : Nat) (op : Nat) (arg : Nat) (s : State) : (opQueue p op arg s).fresh = s.fresh := by simp [opQueue]
@[simp] theorem opQueue_mem (p : Nat) (op : Nat) (arg : Nat) (s : State) : (opQueue p op arg s).mem = s.mem := by simp [opQueue]
@[simp] theorem opQueue_cache (p : Nat) (op : Nat) (arg : Nat) (s : State) : (opQueue p op arg s).cache = s.cache := by simp [opQueue]
@[simp] theorem opQueue_torus (p : Nat) (op : Nat) (arg : Nat) (s : State) : (opQueue p op arg s).torus = s.torus := by simp [opQueue]
@[simp] theorem opQueue_errs (p : Nat) (op : Nat) (arg : Nat) (s : State) : (opQueue p op arg s).errs = s.errs := by simp [opQueue]
@[simp] theorem opQueue_shadows (p : Nat) (op : Nat) (arg : Nat) (s : State) : (opQueue p op arg s).shadows = s.shadows := by simp [opQueue]
@[simp] theorem opQueue_tiles (p : Nat) (op : Nat) (arg : Nat) (s : State) : (opQueue p op arg s).tiles = s.tiles := by simp [opQueue]
@[simp] theorem opQueue_passes (p : Nat) (op : Nat) (arg : Nat) (s : State) : (opQueue p op arg s).passes = s.passes := by simp [opQueue]
@[simp] theorem opQueue_nextPass (p : Nat) (op : Nat) (arg : Nat) (s : State) : (opQueue p op arg s).nextPass = s.nextPass := by simp [opQueue]
@[simp] theorem opQueue_tags (p : Nat) (op : Nat) (arg : Nat) (s : State) : (opQueue p op arg s).tags = s.tags := by simp [opQueue]
@[simp] theorem opQueue_hbm (p : Nat) (op : Nat) (arg : Nat) (s : State) : (opQueue p op arg s).hbm = s.hbm := by simp [opQueue]
@[simp] theorem opQueue_xlate (p : Nat) (op : Nat) (arg : Nat) (s : State) : (opQueue p op arg s).xlate = s.xlate := by simp [opQueue]
@[simp] theorem opQueue_coh (p : Nat) (op : Nat) (arg : Nat) (s : State) : (opQueue p op arg s).coh = s.coh := by simp [opQueue]
@[simp] theorem opQueue_regul (p : Nat) (op : Nat) (arg : Nat) (s : State) : (opQueue p op arg s).regul = s.regul := by simp [opQueue]
@[simp] theorem opQueue_ctxs (p : Nat) (op : Nat) (arg : Nat) (s : State) : (opQueue p op arg s).ctxs = s.ctxs := by simp [opQueue]
@[simp] theorem opQueue_msix (p : Nat) (op : Nat) (arg : Nat) (s : State) : (opQueue p op arg s).msix = s.msix := by simp [opQueue]
@[simp] theorem opQueue_time (p : Nat) (op : Nat) (arg : Nat) (s : State) : (opQueue p op arg s).time = s.time := by simp [opQueue]
@[simp] theorem opQueue_sites (p : Nat) (op : Nat) (arg : Nat) (s : State) : (opQueue p op arg s).sites = s.sites := by simp [opQueue]
@[simp] theorem opQueue_heart (p : Nat) (op : Nat) (arg : Nat) (s : State) : (opQueue p op arg s).heart = s.heart := by simp [opQueue]
@[simp] theorem opQueue_cores (p : Nat) (op : Nat) (arg : Nat) (s : State) : (opQueue p op arg s).cores = s.cores := by simp [opQueue]
@[simp] theorem opQueue_plr (p : Nat) (op : Nat) (arg : Nat) (s : State) : (opQueue p op arg s).plr = s.plr := by simp [opQueue]
@[simp] theorem opQueue_kiln (p : Nat) (op : Nat) (arg : Nat) (s : State) : (opQueue p op arg s).kiln = s.kiln := by simp [opQueue]
@[simp] theorem opQueue_ember (p : Nat) (op : Nat) (arg : Nat) (s : State) : (opQueue p op arg s).ember = s.ember := by simp [opQueue]
@[simp] theorem opQueue_host (p : Nat) (op : Nat) (arg : Nat) (s : State) : (opQueue p op arg s).host = s.host := by simp [opQueue]
@[simp] theorem opQueue_peats (p : Nat) (op : Nat) (arg : Nat) (s : State) : (opQueue p op arg s).peats = s.peats := by simp [opQueue]
@[simp] theorem opQueue_power (p : Nat) (op : Nat) (arg : Nat) (s : State) : (opQueue p op arg s).power = s.power := by simp [opQueue]
@[simp] theorem opRun_pending (p : Nat) (op : Nat) (arg : Nat) (s : State) : (opRun p op arg s).pending = s.pending := by simp [opRun]
@[simp] theorem opRun_out (p : Nat) (op : Nat) (arg : Nat) (s : State) : (opRun p op arg s).out = s.out := by simp [opRun]
@[simp] theorem opRun_fresh (p : Nat) (op : Nat) (arg : Nat) (s : State) : (opRun p op arg s).fresh = s.fresh := by simp [opRun]
@[simp] theorem opRun_mem (p : Nat) (op : Nat) (arg : Nat) (s : State) : (opRun p op arg s).mem = s.mem := by simp [opRun]
@[simp] theorem opRun_cache (p : Nat) (op : Nat) (arg : Nat) (s : State) : (opRun p op arg s).cache = s.cache := by simp [opRun]
@[simp] theorem opRun_torus (p : Nat) (op : Nat) (arg : Nat) (s : State) : (opRun p op arg s).torus = s.torus := by simp [opRun]
@[simp] theorem opRun_errs (p : Nat) (op : Nat) (arg : Nat) (s : State) : (opRun p op arg s).errs = s.errs := by simp [opRun]
@[simp] theorem opRun_shadows (p : Nat) (op : Nat) (arg : Nat) (s : State) : (opRun p op arg s).shadows = s.shadows := by simp [opRun]
@[simp] theorem opRun_tiles (p : Nat) (op : Nat) (arg : Nat) (s : State) : (opRun p op arg s).tiles = s.tiles := by simp [opRun]
@[simp] theorem opRun_passes (p : Nat) (op : Nat) (arg : Nat) (s : State) : (opRun p op arg s).passes = s.passes := by simp [opRun]
@[simp] theorem opRun_nextPass (p : Nat) (op : Nat) (arg : Nat) (s : State) : (opRun p op arg s).nextPass = s.nextPass := by simp [opRun]
@[simp] theorem opRun_tags (p : Nat) (op : Nat) (arg : Nat) (s : State) : (opRun p op arg s).tags = s.tags := by simp [opRun]
@[simp] theorem opRun_hbm (p : Nat) (op : Nat) (arg : Nat) (s : State) : (opRun p op arg s).hbm = s.hbm := by simp [opRun]
@[simp] theorem opRun_xlate (p : Nat) (op : Nat) (arg : Nat) (s : State) : (opRun p op arg s).xlate = s.xlate := by simp [opRun]
@[simp] theorem opRun_coh (p : Nat) (op : Nat) (arg : Nat) (s : State) : (opRun p op arg s).coh = s.coh := by simp [opRun]
@[simp] theorem opRun_regul (p : Nat) (op : Nat) (arg : Nat) (s : State) : (opRun p op arg s).regul = s.regul := by simp [opRun]
@[simp] theorem opRun_ctxs (p : Nat) (op : Nat) (arg : Nat) (s : State) : (opRun p op arg s).ctxs = s.ctxs := by simp [opRun]
@[simp] theorem opRun_msix (p : Nat) (op : Nat) (arg : Nat) (s : State) : (opRun p op arg s).msix = s.msix := by simp [opRun]
@[simp] theorem opRun_time (p : Nat) (op : Nat) (arg : Nat) (s : State) : (opRun p op arg s).time = s.time := by simp [opRun]
@[simp] theorem opRun_sites (p : Nat) (op : Nat) (arg : Nat) (s : State) : (opRun p op arg s).sites = s.sites := by simp [opRun]
@[simp] theorem opRun_heart (p : Nat) (op : Nat) (arg : Nat) (s : State) : (opRun p op arg s).heart = s.heart := by simp [opRun]
@[simp] theorem opRun_cores (p : Nat) (op : Nat) (arg : Nat) (s : State) : (opRun p op arg s).cores = s.cores := by simp [opRun]
@[simp] theorem opRun_plr (p : Nat) (op : Nat) (arg : Nat) (s : State) : (opRun p op arg s).plr = s.plr := by simp [opRun]
@[simp] theorem opRun_kiln (p : Nat) (op : Nat) (arg : Nat) (s : State) : (opRun p op arg s).kiln = s.kiln := by simp [opRun]
@[simp] theorem opRun_ember (p : Nat) (op : Nat) (arg : Nat) (s : State) : (opRun p op arg s).ember = s.ember := by simp [opRun]
@[simp] theorem opRun_host (p : Nat) (op : Nat) (arg : Nat) (s : State) : (opRun p op arg s).host = s.host := by simp [opRun]
@[simp] theorem opRun_peats (p : Nat) (op : Nat) (arg : Nat) (s : State) : (opRun p op arg s).peats = s.peats := by simp [opRun]
@[simp] theorem opRun_power (p : Nat) (op : Nat) (arg : Nat) (s : State) : (opRun p op arg s).power = s.power := by simp [opRun]
@[simp] theorem opStep_pending (p : Nat) (percent : Nat) (position : Nat) (s : State) : (opStep p percent position s).pending = s.pending := by simp [opStep]
@[simp] theorem opStep_out (p : Nat) (percent : Nat) (position : Nat) (s : State) : (opStep p percent position s).out = s.out := by simp [opStep]
@[simp] theorem opStep_fresh (p : Nat) (percent : Nat) (position : Nat) (s : State) : (opStep p percent position s).fresh = s.fresh := by simp [opStep]
@[simp] theorem opStep_mem (p : Nat) (percent : Nat) (position : Nat) (s : State) : (opStep p percent position s).mem = s.mem := by simp [opStep]
@[simp] theorem opStep_cache (p : Nat) (percent : Nat) (position : Nat) (s : State) : (opStep p percent position s).cache = s.cache := by simp [opStep]
@[simp] theorem opStep_torus (p : Nat) (percent : Nat) (position : Nat) (s : State) : (opStep p percent position s).torus = s.torus := by simp [opStep]
@[simp] theorem opStep_errs (p : Nat) (percent : Nat) (position : Nat) (s : State) : (opStep p percent position s).errs = s.errs := by simp [opStep]
@[simp] theorem opStep_ops (p : Nat) (percent : Nat) (position : Nat) (s : State) : (opStep p percent position s).ops = s.ops := by simp [opStep]
@[simp] theorem opStep_shadows (p : Nat) (percent : Nat) (position : Nat) (s : State) : (opStep p percent position s).shadows = s.shadows := by simp [opStep]
@[simp] theorem opStep_tiles (p : Nat) (percent : Nat) (position : Nat) (s : State) : (opStep p percent position s).tiles = s.tiles := by simp [opStep]
@[simp] theorem opStep_passes (p : Nat) (percent : Nat) (position : Nat) (s : State) : (opStep p percent position s).passes = s.passes := by simp [opStep]
@[simp] theorem opStep_nextPass (p : Nat) (percent : Nat) (position : Nat) (s : State) : (opStep p percent position s).nextPass = s.nextPass := by simp [opStep]
@[simp] theorem opStep_tags (p : Nat) (percent : Nat) (position : Nat) (s : State) : (opStep p percent position s).tags = s.tags := by simp [opStep]
@[simp] theorem opStep_hbm (p : Nat) (percent : Nat) (position : Nat) (s : State) : (opStep p percent position s).hbm = s.hbm := by simp [opStep]
@[simp] theorem opStep_xlate (p : Nat) (percent : Nat) (position : Nat) (s : State) : (opStep p percent position s).xlate = s.xlate := by simp [opStep]
@[simp] theorem opStep_coh (p : Nat) (percent : Nat) (position : Nat) (s : State) : (opStep p percent position s).coh = s.coh := by simp [opStep]
@[simp] theorem opStep_regul (p : Nat) (percent : Nat) (position : Nat) (s : State) : (opStep p percent position s).regul = s.regul := by simp [opStep]
@[simp] theorem opStep_ctxs (p : Nat) (percent : Nat) (position : Nat) (s : State) : (opStep p percent position s).ctxs = s.ctxs := by simp [opStep]
@[simp] theorem opStep_msix (p : Nat) (percent : Nat) (position : Nat) (s : State) : (opStep p percent position s).msix = s.msix := by simp [opStep]
@[simp] theorem opStep_time (p : Nat) (percent : Nat) (position : Nat) (s : State) : (opStep p percent position s).time = s.time := by simp [opStep]
@[simp] theorem opStep_sites (p : Nat) (percent : Nat) (position : Nat) (s : State) : (opStep p percent position s).sites = s.sites := by simp [opStep]
@[simp] theorem opStep_heart (p : Nat) (percent : Nat) (position : Nat) (s : State) : (opStep p percent position s).heart = s.heart := by simp [opStep]
@[simp] theorem opStep_cores (p : Nat) (percent : Nat) (position : Nat) (s : State) : (opStep p percent position s).cores = s.cores := by simp [opStep]
@[simp] theorem opStep_plr (p : Nat) (percent : Nat) (position : Nat) (s : State) : (opStep p percent position s).plr = s.plr := by simp [opStep]
@[simp] theorem opStep_kiln (p : Nat) (percent : Nat) (position : Nat) (s : State) : (opStep p percent position s).kiln = s.kiln := by simp [opStep]
@[simp] theorem opStep_ember (p : Nat) (percent : Nat) (position : Nat) (s : State) : (opStep p percent position s).ember = s.ember := by simp [opStep]
@[simp] theorem opStep_host (p : Nat) (percent : Nat) (position : Nat) (s : State) : (opStep p percent position s).host = s.host := by simp [opStep]
@[simp] theorem opStep_peats (p : Nat) (percent : Nat) (position : Nat) (s : State) : (opStep p percent position s).peats = s.peats := by simp [opStep]
@[simp] theorem opStep_power (p : Nat) (percent : Nat) (position : Nat) (s : State) : (opStep p percent position s).power = s.power := by simp [opStep]
@[simp] theorem opEnd_pending (p : Nat) (result : Nat) (s : State) : (opEnd p result s).pending = s.pending := by
  simp only [opEnd]; (repeat' split) <;> simp
@[simp] theorem opEnd_out (p : Nat) (result : Nat) (s : State) : (opEnd p result s).out = s.out := by
  simp only [opEnd]; (repeat' split) <;> simp
@[simp] theorem opEnd_fresh (p : Nat) (result : Nat) (s : State) : (opEnd p result s).fresh = s.fresh := by
  simp only [opEnd]; (repeat' split) <;> simp
@[simp] theorem opEnd_mem (p : Nat) (result : Nat) (s : State) : (opEnd p result s).mem = s.mem := by
  simp only [opEnd]; (repeat' split) <;> simp
@[simp] theorem opEnd_cache (p : Nat) (result : Nat) (s : State) : (opEnd p result s).cache = s.cache := by
  simp only [opEnd]; (repeat' split) <;> simp
@[simp] theorem opEnd_torus (p : Nat) (result : Nat) (s : State) : (opEnd p result s).torus = s.torus := by
  simp only [opEnd]; (repeat' split) <;> simp
@[simp] theorem opEnd_shadows (p : Nat) (result : Nat) (s : State) : (opEnd p result s).shadows = s.shadows := by
  simp only [opEnd]; (repeat' split) <;> simp
@[simp] theorem opEnd_tiles (p : Nat) (result : Nat) (s : State) : (opEnd p result s).tiles = s.tiles := by
  simp only [opEnd]; (repeat' split) <;> simp
@[simp] theorem opEnd_passes (p : Nat) (result : Nat) (s : State) : (opEnd p result s).passes = s.passes := by
  simp only [opEnd]; (repeat' split) <;> simp
@[simp] theorem opEnd_nextPass (p : Nat) (result : Nat) (s : State) : (opEnd p result s).nextPass = s.nextPass := by
  simp only [opEnd]; (repeat' split) <;> simp
@[simp] theorem opEnd_tags (p : Nat) (result : Nat) (s : State) : (opEnd p result s).tags = s.tags := by
  simp only [opEnd]; (repeat' split) <;> simp
@[simp] theorem opEnd_hbm (p : Nat) (result : Nat) (s : State) : (opEnd p result s).hbm = s.hbm := by
  simp only [opEnd]; (repeat' split) <;> simp
@[simp] theorem opEnd_xlate (p : Nat) (result : Nat) (s : State) : (opEnd p result s).xlate = s.xlate := by
  simp only [opEnd]; (repeat' split) <;> simp
@[simp] theorem opEnd_coh (p : Nat) (result : Nat) (s : State) : (opEnd p result s).coh = s.coh := by
  simp only [opEnd]; (repeat' split) <;> simp
@[simp] theorem opEnd_regul (p : Nat) (result : Nat) (s : State) : (opEnd p result s).regul = s.regul := by
  simp only [opEnd]; (repeat' split) <;> simp
@[simp] theorem opEnd_ctxs (p : Nat) (result : Nat) (s : State) : (opEnd p result s).ctxs = s.ctxs := by
  simp only [opEnd]; (repeat' split) <;> simp
@[simp] theorem opEnd_msix (p : Nat) (result : Nat) (s : State) : (opEnd p result s).msix = s.msix := by
  simp only [opEnd]; (repeat' split) <;> simp
@[simp] theorem opEnd_time (p : Nat) (result : Nat) (s : State) : (opEnd p result s).time = s.time := by
  simp only [opEnd]; (repeat' split) <;> simp
@[simp] theorem opEnd_sites (p : Nat) (result : Nat) (s : State) : (opEnd p result s).sites = s.sites := by
  simp only [opEnd]; (repeat' split) <;> simp
@[simp] theorem opEnd_heart (p : Nat) (result : Nat) (s : State) : (opEnd p result s).heart = s.heart := by
  simp only [opEnd]; (repeat' split) <;> simp
@[simp] theorem opEnd_cores (p : Nat) (result : Nat) (s : State) : (opEnd p result s).cores = s.cores := by
  simp only [opEnd]; (repeat' split) <;> simp
@[simp] theorem opEnd_plr (p : Nat) (result : Nat) (s : State) : (opEnd p result s).plr = s.plr := by
  simp only [opEnd]; (repeat' split) <;> simp
@[simp] theorem opEnd_kiln (p : Nat) (result : Nat) (s : State) : (opEnd p result s).kiln = s.kiln := by
  simp only [opEnd]; (repeat' split) <;> simp
@[simp] theorem opEnd_ember (p : Nat) (result : Nat) (s : State) : (opEnd p result s).ember = s.ember := by
  simp only [opEnd]; (repeat' split) <;> simp
@[simp] theorem opEnd_host (p : Nat) (result : Nat) (s : State) : (opEnd p result s).host = s.host := by
  simp only [opEnd]; (repeat' split) <;> simp
@[simp] theorem opEnd_peats (p : Nat) (result : Nat) (s : State) : (opEnd p result s).peats = s.peats := by
  simp only [opEnd]; (repeat' split) <;> simp
@[simp] theorem opEnd_power (p : Nat) (result : Nat) (s : State) : (opEnd p result s).power = s.power := by
  simp only [opEnd]; (repeat' split) <;> simp
@[simp] theorem setCtxState_pending (k : Nat) (v : Nat) (s : State) : (setCtxState k v s).pending = s.pending := by
  simp only [setCtxState]; (repeat' split) <;> simp
@[simp] theorem setCtxState_out (k : Nat) (v : Nat) (s : State) : (setCtxState k v s).out = s.out := by
  simp only [setCtxState]; (repeat' split) <;> simp
@[simp] theorem setCtxState_fresh (k : Nat) (v : Nat) (s : State) : (setCtxState k v s).fresh = s.fresh := by
  simp only [setCtxState]; (repeat' split) <;> simp
@[simp] theorem setCtxState_mem (k : Nat) (v : Nat) (s : State) : (setCtxState k v s).mem = s.mem := by
  simp only [setCtxState]; (repeat' split) <;> simp
@[simp] theorem setCtxState_cache (k : Nat) (v : Nat) (s : State) : (setCtxState k v s).cache = s.cache := by
  simp only [setCtxState]; (repeat' split) <;> simp
@[simp] theorem setCtxState_torus (k : Nat) (v : Nat) (s : State) : (setCtxState k v s).torus = s.torus := by
  simp only [setCtxState]; (repeat' split) <;> simp
@[simp] theorem setCtxState_errs (k : Nat) (v : Nat) (s : State) : (setCtxState k v s).errs = s.errs := by
  simp only [setCtxState]; (repeat' split) <;> simp
@[simp] theorem setCtxState_ops (k : Nat) (v : Nat) (s : State) : (setCtxState k v s).ops = s.ops := by
  simp only [setCtxState]; (repeat' split) <;> simp
@[simp] theorem setCtxState_shadows (k : Nat) (v : Nat) (s : State) : (setCtxState k v s).shadows = s.shadows := by
  simp only [setCtxState]; (repeat' split) <;> simp
@[simp] theorem setCtxState_tiles (k : Nat) (v : Nat) (s : State) : (setCtxState k v s).tiles = s.tiles := by
  simp only [setCtxState]; (repeat' split) <;> simp
@[simp] theorem setCtxState_passes (k : Nat) (v : Nat) (s : State) : (setCtxState k v s).passes = s.passes := by
  simp only [setCtxState]; (repeat' split) <;> simp
@[simp] theorem setCtxState_nextPass (k : Nat) (v : Nat) (s : State) : (setCtxState k v s).nextPass = s.nextPass := by
  simp only [setCtxState]; (repeat' split) <;> simp
@[simp] theorem setCtxState_tags (k : Nat) (v : Nat) (s : State) : (setCtxState k v s).tags = s.tags := by
  simp only [setCtxState]; (repeat' split) <;> simp
@[simp] theorem setCtxState_hbm (k : Nat) (v : Nat) (s : State) : (setCtxState k v s).hbm = s.hbm := by
  simp only [setCtxState]; (repeat' split) <;> simp
@[simp] theorem setCtxState_xlate (k : Nat) (v : Nat) (s : State) : (setCtxState k v s).xlate = s.xlate := by
  simp only [setCtxState]; (repeat' split) <;> simp
@[simp] theorem setCtxState_coh (k : Nat) (v : Nat) (s : State) : (setCtxState k v s).coh = s.coh := by
  simp only [setCtxState]; (repeat' split) <;> simp
@[simp] theorem setCtxState_regul (k : Nat) (v : Nat) (s : State) : (setCtxState k v s).regul = s.regul := by
  simp only [setCtxState]; (repeat' split) <;> simp
@[simp] theorem setCtxState_ctxs (k : Nat) (v : Nat) (s : State) : (setCtxState k v s).ctxs = s.ctxs := by
  simp only [setCtxState]; (repeat' split) <;> simp
@[simp] theorem setCtxState_msix (k : Nat) (v : Nat) (s : State) : (setCtxState k v s).msix = s.msix := by
  simp only [setCtxState]; (repeat' split) <;> simp
@[simp] theorem setCtxState_time (k : Nat) (v : Nat) (s : State) : (setCtxState k v s).time = s.time := by
  simp only [setCtxState]; (repeat' split) <;> simp
@[simp] theorem setCtxState_sites (k : Nat) (v : Nat) (s : State) : (setCtxState k v s).sites = s.sites := by
  simp only [setCtxState]; (repeat' split) <;> simp
@[simp] theorem setCtxState_heart (k : Nat) (v : Nat) (s : State) : (setCtxState k v s).heart = s.heart := by
  simp only [setCtxState]; (repeat' split) <;> simp
@[simp] theorem setCtxState_cores (k : Nat) (v : Nat) (s : State) : (setCtxState k v s).cores = s.cores := by
  simp only [setCtxState]; (repeat' split) <;> simp
@[simp] theorem setCtxState_plr (k : Nat) (v : Nat) (s : State) : (setCtxState k v s).plr = s.plr := by
  simp only [setCtxState]; (repeat' split) <;> simp
@[simp] theorem setCtxState_kiln (k : Nat) (v : Nat) (s : State) : (setCtxState k v s).kiln = s.kiln := by
  simp only [setCtxState]; (repeat' split) <;> simp
@[simp] theorem setCtxState_ember (k : Nat) (v : Nat) (s : State) : (setCtxState k v s).ember = s.ember := by
  simp only [setCtxState]; (repeat' split) <;> simp
@[simp] theorem setCtxState_host (k : Nat) (v : Nat) (s : State) : (setCtxState k v s).host = s.host := by
  simp only [setCtxState]; (repeat' split) <;> simp
@[simp] theorem setCtxState_peats (k : Nat) (v : Nat) (s : State) : (setCtxState k v s).peats = s.peats := by
  simp only [setCtxState]; (repeat' split) <;> simp
@[simp] theorem setCtxState_power (k : Nat) (v : Nat) (s : State) : (setCtxState k v s).power = s.power := by
  simp only [setCtxState]; (repeat' split) <;> simp
@[simp] theorem bindPage_pending (p : Nat) (k : Nat) (s : State) : (bindPage p k s).pending = s.pending := by simp [bindPage]
@[simp] theorem bindPage_out (p : Nat) (k : Nat) (s : State) : (bindPage p k s).out = s.out := by simp [bindPage]
@[simp] theorem bindPage_fresh (p : Nat) (k : Nat) (s : State) : (bindPage p k s).fresh = s.fresh := by simp [bindPage]
@[simp] theorem bindPage_mem (p : Nat) (k : Nat) (s : State) : (bindPage p k s).mem = s.mem := by simp [bindPage]
@[simp] theorem bindPage_cache (p : Nat) (k : Nat) (s : State) : (bindPage p k s).cache = s.cache := by simp [bindPage]
@[simp] theorem bindPage_torus (p : Nat) (k : Nat) (s : State) : (bindPage p k s).torus = s.torus := by simp [bindPage]
@[simp] theorem bindPage_errs (p : Nat) (k : Nat) (s : State) : (bindPage p k s).errs = s.errs := by simp [bindPage]
@[simp] theorem bindPage_ops (p : Nat) (k : Nat) (s : State) : (bindPage p k s).ops = s.ops := by simp [bindPage]
@[simp] theorem bindPage_shadows (p : Nat) (k : Nat) (s : State) : (bindPage p k s).shadows = s.shadows := by simp [bindPage]
@[simp] theorem bindPage_tiles (p : Nat) (k : Nat) (s : State) : (bindPage p k s).tiles = s.tiles := by simp [bindPage]
@[simp] theorem bindPage_passes (p : Nat) (k : Nat) (s : State) : (bindPage p k s).passes = s.passes := by simp [bindPage]
@[simp] theorem bindPage_nextPass (p : Nat) (k : Nat) (s : State) : (bindPage p k s).nextPass = s.nextPass := by simp [bindPage]
@[simp] theorem bindPage_tags (p : Nat) (k : Nat) (s : State) : (bindPage p k s).tags = s.tags := by simp [bindPage]
@[simp] theorem bindPage_hbm (p : Nat) (k : Nat) (s : State) : (bindPage p k s).hbm = s.hbm := by simp [bindPage]
@[simp] theorem bindPage_xlate (p : Nat) (k : Nat) (s : State) : (bindPage p k s).xlate = s.xlate := by simp [bindPage]
@[simp] theorem bindPage_coh (p : Nat) (k : Nat) (s : State) : (bindPage p k s).coh = s.coh := by simp [bindPage]
@[simp] theorem bindPage_regul (p : Nat) (k : Nat) (s : State) : (bindPage p k s).regul = s.regul := by simp [bindPage]
@[simp] theorem bindPage_ctxs (p : Nat) (k : Nat) (s : State) : (bindPage p k s).ctxs = s.ctxs := by simp [bindPage]
@[simp] theorem bindPage_msix (p : Nat) (k : Nat) (s : State) : (bindPage p k s).msix = s.msix := by simp [bindPage]
@[simp] theorem bindPage_time (p : Nat) (k : Nat) (s : State) : (bindPage p k s).time = s.time := by simp [bindPage]
@[simp] theorem bindPage_sites (p : Nat) (k : Nat) (s : State) : (bindPage p k s).sites = s.sites := by simp [bindPage]
@[simp] theorem bindPage_heart (p : Nat) (k : Nat) (s : State) : (bindPage p k s).heart = s.heart := by simp [bindPage]
@[simp] theorem bindPage_cores (p : Nat) (k : Nat) (s : State) : (bindPage p k s).cores = s.cores := by simp [bindPage]
@[simp] theorem bindPage_plr (p : Nat) (k : Nat) (s : State) : (bindPage p k s).plr = s.plr := by simp [bindPage]
@[simp] theorem bindPage_kiln (p : Nat) (k : Nat) (s : State) : (bindPage p k s).kiln = s.kiln := by simp [bindPage]
@[simp] theorem bindPage_ember (p : Nat) (k : Nat) (s : State) : (bindPage p k s).ember = s.ember := by simp [bindPage]
@[simp] theorem bindPage_host (p : Nat) (k : Nat) (s : State) : (bindPage p k s).host = s.host := by simp [bindPage]
@[simp] theorem bindPage_peats (p : Nat) (k : Nat) (s : State) : (bindPage p k s).peats = s.peats := by simp [bindPage]
@[simp] theorem bindPage_power (p : Nat) (k : Nat) (s : State) : (bindPage p k s).power = s.power := by simp [bindPage]
@[simp] theorem unbindPage_pending (p : Nat) (st : Nat) (s : State) : (unbindPage p st s).pending = s.pending := by simp [unbindPage]
@[simp] theorem unbindPage_out (p : Nat) (st : Nat) (s : State) : (unbindPage p st s).out = s.out := by simp [unbindPage]
@[simp] theorem unbindPage_fresh (p : Nat) (st : Nat) (s : State) : (unbindPage p st s).fresh = s.fresh := by simp [unbindPage]
@[simp] theorem unbindPage_mem (p : Nat) (st : Nat) (s : State) : (unbindPage p st s).mem = s.mem := by simp [unbindPage]
@[simp] theorem unbindPage_cache (p : Nat) (st : Nat) (s : State) : (unbindPage p st s).cache = s.cache := by simp [unbindPage]
@[simp] theorem unbindPage_torus (p : Nat) (st : Nat) (s : State) : (unbindPage p st s).torus = s.torus := by simp [unbindPage]
@[simp] theorem unbindPage_errs (p : Nat) (st : Nat) (s : State) : (unbindPage p st s).errs = s.errs := by simp [unbindPage]
@[simp] theorem unbindPage_ops (p : Nat) (st : Nat) (s : State) : (unbindPage p st s).ops = s.ops := by simp [unbindPage]
@[simp] theorem unbindPage_shadows (p : Nat) (st : Nat) (s : State) : (unbindPage p st s).shadows = s.shadows := by simp [unbindPage]
@[simp] theorem unbindPage_tiles (p : Nat) (st : Nat) (s : State) : (unbindPage p st s).tiles = s.tiles := by simp [unbindPage]
@[simp] theorem unbindPage_passes (p : Nat) (st : Nat) (s : State) : (unbindPage p st s).passes = s.passes := by simp [unbindPage]
@[simp] theorem unbindPage_nextPass (p : Nat) (st : Nat) (s : State) : (unbindPage p st s).nextPass = s.nextPass := by simp [unbindPage]
@[simp] theorem unbindPage_tags (p : Nat) (st : Nat) (s : State) : (unbindPage p st s).tags = s.tags := by simp [unbindPage]
@[simp] theorem unbindPage_hbm (p : Nat) (st : Nat) (s : State) : (unbindPage p st s).hbm = s.hbm := by simp [unbindPage]
@[simp] theorem unbindPage_xlate (p : Nat) (st : Nat) (s : State) : (unbindPage p st s).xlate = s.xlate := by simp [unbindPage]
@[simp] theorem unbindPage_coh (p : Nat) (st : Nat) (s : State) : (unbindPage p st s).coh = s.coh := by simp [unbindPage]
@[simp] theorem unbindPage_regul (p : Nat) (st : Nat) (s : State) : (unbindPage p st s).regul = s.regul := by simp [unbindPage]
@[simp] theorem unbindPage_ctxs (p : Nat) (st : Nat) (s : State) : (unbindPage p st s).ctxs = s.ctxs := by simp [unbindPage]
@[simp] theorem unbindPage_msix (p : Nat) (st : Nat) (s : State) : (unbindPage p st s).msix = s.msix := by simp [unbindPage]
@[simp] theorem unbindPage_time (p : Nat) (st : Nat) (s : State) : (unbindPage p st s).time = s.time := by simp [unbindPage]
@[simp] theorem unbindPage_sites (p : Nat) (st : Nat) (s : State) : (unbindPage p st s).sites = s.sites := by simp [unbindPage]
@[simp] theorem unbindPage_heart (p : Nat) (st : Nat) (s : State) : (unbindPage p st s).heart = s.heart := by simp [unbindPage]
@[simp] theorem unbindPage_cores (p : Nat) (st : Nat) (s : State) : (unbindPage p st s).cores = s.cores := by simp [unbindPage]
@[simp] theorem unbindPage_plr (p : Nat) (st : Nat) (s : State) : (unbindPage p st s).plr = s.plr := by simp [unbindPage]
@[simp] theorem unbindPage_kiln (p : Nat) (st : Nat) (s : State) : (unbindPage p st s).kiln = s.kiln := by simp [unbindPage]
@[simp] theorem unbindPage_ember (p : Nat) (st : Nat) (s : State) : (unbindPage p st s).ember = s.ember := by simp [unbindPage]
@[simp] theorem unbindPage_host (p : Nat) (st : Nat) (s : State) : (unbindPage p st s).host = s.host := by simp [unbindPage]
@[simp] theorem unbindPage_peats (p : Nat) (st : Nat) (s : State) : (unbindPage p st s).peats = s.peats := by simp [unbindPage]
@[simp] theorem unbindPage_power (p : Nat) (st : Nat) (s : State) : (unbindPage p st s).power = s.power := by simp [unbindPage]
@[simp] theorem bumpGeneration_pending (p : Nat) (s : State) : (bumpGeneration p s).pending = s.pending := by simp [bumpGeneration]
@[simp] theorem bumpGeneration_out (p : Nat) (s : State) : (bumpGeneration p s).out = s.out := by simp [bumpGeneration]
@[simp] theorem bumpGeneration_fresh (p : Nat) (s : State) : (bumpGeneration p s).fresh = s.fresh := by simp [bumpGeneration]
@[simp] theorem bumpGeneration_mem (p : Nat) (s : State) : (bumpGeneration p s).mem = s.mem := by simp [bumpGeneration]
@[simp] theorem bumpGeneration_cache (p : Nat) (s : State) : (bumpGeneration p s).cache = s.cache := by simp [bumpGeneration]
@[simp] theorem bumpGeneration_torus (p : Nat) (s : State) : (bumpGeneration p s).torus = s.torus := by simp [bumpGeneration]
@[simp] theorem bumpGeneration_errs (p : Nat) (s : State) : (bumpGeneration p s).errs = s.errs := by simp [bumpGeneration]
@[simp] theorem bumpGeneration_ops (p : Nat) (s : State) : (bumpGeneration p s).ops = s.ops := by simp [bumpGeneration]
@[simp] theorem bumpGeneration_shadows (p : Nat) (s : State) : (bumpGeneration p s).shadows = s.shadows := by simp [bumpGeneration]
@[simp] theorem bumpGeneration_tiles (p : Nat) (s : State) : (bumpGeneration p s).tiles = s.tiles := by simp [bumpGeneration]
@[simp] theorem bumpGeneration_passes (p : Nat) (s : State) : (bumpGeneration p s).passes = s.passes := by simp [bumpGeneration]
@[simp] theorem bumpGeneration_nextPass (p : Nat) (s : State) : (bumpGeneration p s).nextPass = s.nextPass := by simp [bumpGeneration]
@[simp] theorem bumpGeneration_tags (p : Nat) (s : State) : (bumpGeneration p s).tags = s.tags := by simp [bumpGeneration]
@[simp] theorem bumpGeneration_hbm (p : Nat) (s : State) : (bumpGeneration p s).hbm = s.hbm := by simp [bumpGeneration]
@[simp] theorem bumpGeneration_xlate (p : Nat) (s : State) : (bumpGeneration p s).xlate = s.xlate := by simp [bumpGeneration]
@[simp] theorem bumpGeneration_coh (p : Nat) (s : State) : (bumpGeneration p s).coh = s.coh := by simp [bumpGeneration]
@[simp] theorem bumpGeneration_regul (p : Nat) (s : State) : (bumpGeneration p s).regul = s.regul := by simp [bumpGeneration]
@[simp] theorem bumpGeneration_ctxs (p : Nat) (s : State) : (bumpGeneration p s).ctxs = s.ctxs := by simp [bumpGeneration]
@[simp] theorem bumpGeneration_msix (p : Nat) (s : State) : (bumpGeneration p s).msix = s.msix := by simp [bumpGeneration]
@[simp] theorem bumpGeneration_time (p : Nat) (s : State) : (bumpGeneration p s).time = s.time := by simp [bumpGeneration]
@[simp] theorem bumpGeneration_sites (p : Nat) (s : State) : (bumpGeneration p s).sites = s.sites := by simp [bumpGeneration]
@[simp] theorem bumpGeneration_heart (p : Nat) (s : State) : (bumpGeneration p s).heart = s.heart := by simp [bumpGeneration]
@[simp] theorem bumpGeneration_cores (p : Nat) (s : State) : (bumpGeneration p s).cores = s.cores := by simp [bumpGeneration]
@[simp] theorem bumpGeneration_plr (p : Nat) (s : State) : (bumpGeneration p s).plr = s.plr := by simp [bumpGeneration]
@[simp] theorem bumpGeneration_kiln (p : Nat) (s : State) : (bumpGeneration p s).kiln = s.kiln := by simp [bumpGeneration]
@[simp] theorem bumpGeneration_ember (p : Nat) (s : State) : (bumpGeneration p s).ember = s.ember := by simp [bumpGeneration]
@[simp] theorem bumpGeneration_host (p : Nat) (s : State) : (bumpGeneration p s).host = s.host := by simp [bumpGeneration]
@[simp] theorem bumpGeneration_peats (p : Nat) (s : State) : (bumpGeneration p s).peats = s.peats := by simp [bumpGeneration]
@[simp] theorem bumpGeneration_power (p : Nat) (s : State) : (bumpGeneration p s).power = s.power := by simp [bumpGeneration]
@[simp] theorem setArrayState_pending (n : Nat) (v : Nat) (s : State) : (setArrayState n v s).pending = s.pending := by simp [setArrayState]
@[simp] theorem setArrayState_out (n : Nat) (v : Nat) (s : State) : (setArrayState n v s).out = s.out := by simp [setArrayState]
@[simp] theorem setArrayState_fresh (n : Nat) (v : Nat) (s : State) : (setArrayState n v s).fresh = s.fresh := by simp [setArrayState]
@[simp] theorem setArrayState_mem (n : Nat) (v : Nat) (s : State) : (setArrayState n v s).mem = s.mem := by simp [setArrayState]
@[simp] theorem setArrayState_cache (n : Nat) (v : Nat) (s : State) : (setArrayState n v s).cache = s.cache := by simp [setArrayState]
@[simp] theorem setArrayState_torus (n : Nat) (v : Nat) (s : State) : (setArrayState n v s).torus = s.torus := by simp [setArrayState]
@[simp] theorem setArrayState_errs (n : Nat) (v : Nat) (s : State) : (setArrayState n v s).errs = s.errs := by simp [setArrayState]
@[simp] theorem setArrayState_ops (n : Nat) (v : Nat) (s : State) : (setArrayState n v s).ops = s.ops := by simp [setArrayState]
@[simp] theorem setArrayState_shadows (n : Nat) (v : Nat) (s : State) : (setArrayState n v s).shadows = s.shadows := by simp [setArrayState]
@[simp] theorem setArrayState_tiles (n : Nat) (v : Nat) (s : State) : (setArrayState n v s).tiles = s.tiles := by simp [setArrayState]
@[simp] theorem setArrayState_passes (n : Nat) (v : Nat) (s : State) : (setArrayState n v s).passes = s.passes := by simp [setArrayState]
@[simp] theorem setArrayState_nextPass (n : Nat) (v : Nat) (s : State) : (setArrayState n v s).nextPass = s.nextPass := by simp [setArrayState]
@[simp] theorem setArrayState_tags (n : Nat) (v : Nat) (s : State) : (setArrayState n v s).tags = s.tags := by simp [setArrayState]
@[simp] theorem setArrayState_hbm (n : Nat) (v : Nat) (s : State) : (setArrayState n v s).hbm = s.hbm := by simp [setArrayState]
@[simp] theorem setArrayState_xlate (n : Nat) (v : Nat) (s : State) : (setArrayState n v s).xlate = s.xlate := by simp [setArrayState]
@[simp] theorem setArrayState_coh (n : Nat) (v : Nat) (s : State) : (setArrayState n v s).coh = s.coh := by simp [setArrayState]
@[simp] theorem setArrayState_regul (n : Nat) (v : Nat) (s : State) : (setArrayState n v s).regul = s.regul := by simp [setArrayState]
@[simp] theorem setArrayState_ctxs (n : Nat) (v : Nat) (s : State) : (setArrayState n v s).ctxs = s.ctxs := by simp [setArrayState]
@[simp] theorem setArrayState_msix (n : Nat) (v : Nat) (s : State) : (setArrayState n v s).msix = s.msix := by simp [setArrayState]
@[simp] theorem setArrayState_time (n : Nat) (v : Nat) (s : State) : (setArrayState n v s).time = s.time := by simp [setArrayState]
@[simp] theorem setArrayState_sites (n : Nat) (v : Nat) (s : State) : (setArrayState n v s).sites = s.sites := by simp [setArrayState]
@[simp] theorem setArrayState_heart (n : Nat) (v : Nat) (s : State) : (setArrayState n v s).heart = s.heart := by simp [setArrayState]
@[simp] theorem setArrayState_cores (n : Nat) (v : Nat) (s : State) : (setArrayState n v s).cores = s.cores := by simp [setArrayState]
@[simp] theorem setArrayState_plr (n : Nat) (v : Nat) (s : State) : (setArrayState n v s).plr = s.plr := by simp [setArrayState]
@[simp] theorem setArrayState_kiln (n : Nat) (v : Nat) (s : State) : (setArrayState n v s).kiln = s.kiln := by simp [setArrayState]
@[simp] theorem setArrayState_ember (n : Nat) (v : Nat) (s : State) : (setArrayState n v s).ember = s.ember := by simp [setArrayState]
@[simp] theorem setArrayState_host (n : Nat) (v : Nat) (s : State) : (setArrayState n v s).host = s.host := by simp [setArrayState]
@[simp] theorem setArrayState_peats (n : Nat) (v : Nat) (s : State) : (setArrayState n v s).peats = s.peats := by simp [setArrayState]
@[simp] theorem setArrayState_power (n : Nat) (v : Nat) (s : State) : (setArrayState n v s).power = s.power := by simp [setArrayState]
@[simp] theorem unaccept_pending (h : Header) (s : State) : (unaccept h s).pending = s.pending := rfl
@[simp] theorem unaccept_out (h : Header) (s : State) : (unaccept h s).out = s.out := rfl
@[simp] theorem unaccept_fresh (h : Header) (s : State) : (unaccept h s).fresh = s.fresh := rfl
@[simp] theorem unaccept_regs (h : Header) (s : State) : (unaccept h s).regs = s.regs := rfl
@[simp] theorem unaccept_mem (h : Header) (s : State) : (unaccept h s).mem = s.mem := rfl
@[simp] theorem unaccept_cache (h : Header) (s : State) : (unaccept h s).cache = s.cache := rfl
@[simp] theorem unaccept_errs (h : Header) (s : State) : (unaccept h s).errs = s.errs := rfl
@[simp] theorem unaccept_ops (h : Header) (s : State) : (unaccept h s).ops = s.ops := rfl
@[simp] theorem unaccept_shadows (h : Header) (s : State) : (unaccept h s).shadows = s.shadows := rfl
@[simp] theorem unaccept_tiles (h : Header) (s : State) : (unaccept h s).tiles = s.tiles := rfl
@[simp] theorem unaccept_passes (h : Header) (s : State) : (unaccept h s).passes = s.passes := rfl
@[simp] theorem unaccept_nextPass (h : Header) (s : State) : (unaccept h s).nextPass = s.nextPass := rfl
@[simp] theorem unaccept_tags (h : Header) (s : State) : (unaccept h s).tags = s.tags := rfl
@[simp] theorem unaccept_hbm (h : Header) (s : State) : (unaccept h s).hbm = s.hbm := rfl
@[simp] theorem unaccept_xlate (h : Header) (s : State) : (unaccept h s).xlate = s.xlate := rfl
@[simp] theorem unaccept_coh (h : Header) (s : State) : (unaccept h s).coh = s.coh := rfl
@[simp] theorem unaccept_regul (h : Header) (s : State) : (unaccept h s).regul = s.regul := rfl
@[simp] theorem unaccept_ctxs (h : Header) (s : State) : (unaccept h s).ctxs = s.ctxs := rfl
@[simp] theorem unaccept_msix (h : Header) (s : State) : (unaccept h s).msix = s.msix := rfl
@[simp] theorem unaccept_time (h : Header) (s : State) : (unaccept h s).time = s.time := rfl
@[simp] theorem unaccept_sites (h : Header) (s : State) : (unaccept h s).sites = s.sites := rfl
@[simp] theorem unaccept_heart (h : Header) (s : State) : (unaccept h s).heart = s.heart := rfl
@[simp] theorem unaccept_cores (h : Header) (s : State) : (unaccept h s).cores = s.cores := rfl
@[simp] theorem unaccept_plr (h : Header) (s : State) : (unaccept h s).plr = s.plr := rfl
@[simp] theorem unaccept_kiln (h : Header) (s : State) : (unaccept h s).kiln = s.kiln := rfl
@[simp] theorem unaccept_ember (h : Header) (s : State) : (unaccept h s).ember = s.ember := rfl
@[simp] theorem unaccept_host (h : Header) (s : State) : (unaccept h s).host = s.host := rfl
@[simp] theorem unaccept_peats (h : Header) (s : State) : (unaccept h s).peats = s.peats := rfl
@[simp] theorem unaccept_power (h : Header) (s : State) : (unaccept h s).power = s.power := rfl
@[simp] theorem respond_pending (h : Header) (status : Nat) (units : List Unit256) (s : State) : (respond h status units s).pending = s.pending := by
  simp only [respond]; (repeat' split) <;> simp
@[simp] theorem respond_fresh (h : Header) (status : Nat) (units : List Unit256) (s : State) : (respond h status units s).fresh = s.fresh := by
  simp only [respond]; (repeat' split) <;> simp
@[simp] theorem respond_regs (h : Header) (status : Nat) (units : List Unit256) (s : State) : (respond h status units s).regs = s.regs := by
  simp only [respond]; (repeat' split) <;> simp
@[simp] theorem respond_mem (h : Header) (status : Nat) (units : List Unit256) (s : State) : (respond h status units s).mem = s.mem := by
  simp only [respond]; (repeat' split) <;> simp
@[simp] theorem respond_cache (h : Header) (status : Nat) (units : List Unit256) (s : State) : (respond h status units s).cache = s.cache := by
  simp only [respond]; (repeat' split) <;> simp
@[simp] theorem respond_errs (h : Header) (status : Nat) (units : List Unit256) (s : State) : (respond h status units s).errs = s.errs := by
  simp only [respond]; (repeat' split) <;> simp
@[simp] theorem respond_ops (h : Header) (status : Nat) (units : List Unit256) (s : State) : (respond h status units s).ops = s.ops := by
  simp only [respond]; (repeat' split) <;> simp
@[simp] theorem respond_shadows (h : Header) (status : Nat) (units : List Unit256) (s : State) : (respond h status units s).shadows = s.shadows := by
  simp only [respond]; (repeat' split) <;> simp
@[simp] theorem respond_tiles (h : Header) (status : Nat) (units : List Unit256) (s : State) : (respond h status units s).tiles = s.tiles := by
  simp only [respond]; (repeat' split) <;> simp
@[simp] theorem respond_passes (h : Header) (status : Nat) (units : List Unit256) (s : State) : (respond h status units s).passes = s.passes := by
  simp only [respond]; (repeat' split) <;> simp
@[simp] theorem respond_nextPass (h : Header) (status : Nat) (units : List Unit256) (s : State) : (respond h status units s).nextPass = s.nextPass := by
  simp only [respond]; (repeat' split) <;> simp
@[simp] theorem respond_tags (h : Header) (status : Nat) (units : List Unit256) (s : State) : (respond h status units s).tags = s.tags := by
  simp only [respond]; (repeat' split) <;> simp
@[simp] theorem respond_hbm (h : Header) (status : Nat) (units : List Unit256) (s : State) : (respond h status units s).hbm = s.hbm := by
  simp only [respond]; (repeat' split) <;> simp
@[simp] theorem respond_xlate (h : Header) (status : Nat) (units : List Unit256) (s : State) : (respond h status units s).xlate = s.xlate := by
  simp only [respond]; (repeat' split) <;> simp
@[simp] theorem respond_coh (h : Header) (status : Nat) (units : List Unit256) (s : State) : (respond h status units s).coh = s.coh := by
  simp only [respond]; (repeat' split) <;> simp
@[simp] theorem respond_regul (h : Header) (status : Nat) (units : List Unit256) (s : State) : (respond h status units s).regul = s.regul := by
  simp only [respond]; (repeat' split) <;> simp
@[simp] theorem respond_ctxs (h : Header) (status : Nat) (units : List Unit256) (s : State) : (respond h status units s).ctxs = s.ctxs := by
  simp only [respond]; (repeat' split) <;> simp
@[simp] theorem respond_msix (h : Header) (status : Nat) (units : List Unit256) (s : State) : (respond h status units s).msix = s.msix := by
  simp only [respond]; (repeat' split) <;> simp
@[simp] theorem respond_time (h : Header) (status : Nat) (units : List Unit256) (s : State) : (respond h status units s).time = s.time := by
  simp only [respond]; (repeat' split) <;> simp
@[simp] theorem respond_sites (h : Header) (status : Nat) (units : List Unit256) (s : State) : (respond h status units s).sites = s.sites := by
  simp only [respond]; (repeat' split) <;> simp
@[simp] theorem respond_heart (h : Header) (status : Nat) (units : List Unit256) (s : State) : (respond h status units s).heart = s.heart := by
  simp only [respond]; (repeat' split) <;> simp
@[simp] theorem respond_cores (h : Header) (status : Nat) (units : List Unit256) (s : State) : (respond h status units s).cores = s.cores := by
  simp only [respond]; (repeat' split) <;> simp
@[simp] theorem respond_plr (h : Header) (status : Nat) (units : List Unit256) (s : State) : (respond h status units s).plr = s.plr := by
  simp only [respond]; (repeat' split) <;> simp
@[simp] theorem respond_kiln (h : Header) (status : Nat) (units : List Unit256) (s : State) : (respond h status units s).kiln = s.kiln := by
  simp only [respond]; (repeat' split) <;> simp
@[simp] theorem respond_ember (h : Header) (status : Nat) (units : List Unit256) (s : State) : (respond h status units s).ember = s.ember := by
  simp only [respond]; (repeat' split) <;> simp
@[simp] theorem respond_host (h : Header) (status : Nat) (units : List Unit256) (s : State) : (respond h status units s).host = s.host := by
  simp only [respond]; (repeat' split) <;> simp
@[simp] theorem respond_peats (h : Header) (status : Nat) (units : List Unit256) (s : State) : (respond h status units s).peats = s.peats := by
  simp only [respond]; (repeat' split) <;> simp
@[simp] theorem respond_power (h : Header) (status : Nat) (units : List Unit256) (s : State) : (respond h status units s).power = s.power := by
  simp only [respond]; (repeat' split) <;> simp
@[simp] theorem respondOk_pending (h : Header) (s : State) : (respondOk h s).pending = s.pending := by simp [respondOk]
@[simp] theorem respondOk_fresh (h : Header) (s : State) : (respondOk h s).fresh = s.fresh := by simp [respondOk]
@[simp] theorem respondOk_regs (h : Header) (s : State) : (respondOk h s).regs = s.regs := by simp [respondOk]
@[simp] theorem respondOk_mem (h : Header) (s : State) : (respondOk h s).mem = s.mem := by simp [respondOk]
@[simp] theorem respondOk_cache (h : Header) (s : State) : (respondOk h s).cache = s.cache := by simp [respondOk]
@[simp] theorem respondOk_errs (h : Header) (s : State) : (respondOk h s).errs = s.errs := by simp [respondOk]
@[simp] theorem respondOk_ops (h : Header) (s : State) : (respondOk h s).ops = s.ops := by simp [respondOk]
@[simp] theorem respondOk_shadows (h : Header) (s : State) : (respondOk h s).shadows = s.shadows := by simp [respondOk]
@[simp] theorem respondOk_tiles (h : Header) (s : State) : (respondOk h s).tiles = s.tiles := by simp [respondOk]
@[simp] theorem respondOk_passes (h : Header) (s : State) : (respondOk h s).passes = s.passes := by simp [respondOk]
@[simp] theorem respondOk_nextPass (h : Header) (s : State) : (respondOk h s).nextPass = s.nextPass := by simp [respondOk]
@[simp] theorem respondOk_tags (h : Header) (s : State) : (respondOk h s).tags = s.tags := by simp [respondOk]
@[simp] theorem respondOk_hbm (h : Header) (s : State) : (respondOk h s).hbm = s.hbm := by simp [respondOk]
@[simp] theorem respondOk_xlate (h : Header) (s : State) : (respondOk h s).xlate = s.xlate := by simp [respondOk]
@[simp] theorem respondOk_coh (h : Header) (s : State) : (respondOk h s).coh = s.coh := by simp [respondOk]
@[simp] theorem respondOk_regul (h : Header) (s : State) : (respondOk h s).regul = s.regul := by simp [respondOk]
@[simp] theorem respondOk_ctxs (h : Header) (s : State) : (respondOk h s).ctxs = s.ctxs := by simp [respondOk]
@[simp] theorem respondOk_msix (h : Header) (s : State) : (respondOk h s).msix = s.msix := by simp [respondOk]
@[simp] theorem respondOk_time (h : Header) (s : State) : (respondOk h s).time = s.time := by simp [respondOk]
@[simp] theorem respondOk_sites (h : Header) (s : State) : (respondOk h s).sites = s.sites := by simp [respondOk]
@[simp] theorem respondOk_heart (h : Header) (s : State) : (respondOk h s).heart = s.heart := by simp [respondOk]
@[simp] theorem respondOk_cores (h : Header) (s : State) : (respondOk h s).cores = s.cores := by simp [respondOk]
@[simp] theorem respondOk_plr (h : Header) (s : State) : (respondOk h s).plr = s.plr := by simp [respondOk]
@[simp] theorem respondOk_kiln (h : Header) (s : State) : (respondOk h s).kiln = s.kiln := by simp [respondOk]
@[simp] theorem respondOk_ember (h : Header) (s : State) : (respondOk h s).ember = s.ember := by simp [respondOk]
@[simp] theorem respondOk_host (h : Header) (s : State) : (respondOk h s).host = s.host := by simp [respondOk]
@[simp] theorem respondOk_peats (h : Header) (s : State) : (respondOk h s).peats = s.peats := by simp [respondOk]
@[simp] theorem respondOk_power (h : Header) (s : State) : (respondOk h s).power = s.power := by simp [respondOk]
@[simp] theorem respondInline_pending (h : Header) (data : List Byte) (opData : Nat) (s : State) : (respondInline h data opData s).pending = s.pending := by simp [respondInline]
@[simp] theorem respondInline_fresh (h : Header) (data : List Byte) (opData : Nat) (s : State) : (respondInline h data opData s).fresh = s.fresh := by simp [respondInline]
@[simp] theorem respondInline_regs (h : Header) (data : List Byte) (opData : Nat) (s : State) : (respondInline h data opData s).regs = s.regs := by simp [respondInline]
@[simp] theorem respondInline_mem (h : Header) (data : List Byte) (opData : Nat) (s : State) : (respondInline h data opData s).mem = s.mem := by simp [respondInline]
@[simp] theorem respondInline_cache (h : Header) (data : List Byte) (opData : Nat) (s : State) : (respondInline h data opData s).cache = s.cache := by simp [respondInline]
@[simp] theorem respondInline_errs (h : Header) (data : List Byte) (opData : Nat) (s : State) : (respondInline h data opData s).errs = s.errs := by simp [respondInline]
@[simp] theorem respondInline_ops (h : Header) (data : List Byte) (opData : Nat) (s : State) : (respondInline h data opData s).ops = s.ops := by simp [respondInline]
@[simp] theorem respondInline_shadows (h : Header) (data : List Byte) (opData : Nat) (s : State) : (respondInline h data opData s).shadows = s.shadows := by simp [respondInline]
@[simp] theorem respondInline_tiles (h : Header) (data : List Byte) (opData : Nat) (s : State) : (respondInline h data opData s).tiles = s.tiles := by simp [respondInline]
@[simp] theorem respondInline_passes (h : Header) (data : List Byte) (opData : Nat) (s : State) : (respondInline h data opData s).passes = s.passes := by simp [respondInline]
@[simp] theorem respondInline_nextPass (h : Header) (data : List Byte) (opData : Nat) (s : State) : (respondInline h data opData s).nextPass = s.nextPass := by simp [respondInline]
@[simp] theorem respondInline_tags (h : Header) (data : List Byte) (opData : Nat) (s : State) : (respondInline h data opData s).tags = s.tags := by simp [respondInline]
@[simp] theorem respondInline_hbm (h : Header) (data : List Byte) (opData : Nat) (s : State) : (respondInline h data opData s).hbm = s.hbm := by simp [respondInline]
@[simp] theorem respondInline_xlate (h : Header) (data : List Byte) (opData : Nat) (s : State) : (respondInline h data opData s).xlate = s.xlate := by simp [respondInline]
@[simp] theorem respondInline_coh (h : Header) (data : List Byte) (opData : Nat) (s : State) : (respondInline h data opData s).coh = s.coh := by simp [respondInline]
@[simp] theorem respondInline_regul (h : Header) (data : List Byte) (opData : Nat) (s : State) : (respondInline h data opData s).regul = s.regul := by simp [respondInline]
@[simp] theorem respondInline_ctxs (h : Header) (data : List Byte) (opData : Nat) (s : State) : (respondInline h data opData s).ctxs = s.ctxs := by simp [respondInline]
@[simp] theorem respondInline_msix (h : Header) (data : List Byte) (opData : Nat) (s : State) : (respondInline h data opData s).msix = s.msix := by simp [respondInline]
@[simp] theorem respondInline_time (h : Header) (data : List Byte) (opData : Nat) (s : State) : (respondInline h data opData s).time = s.time := by simp [respondInline]
@[simp] theorem respondInline_sites (h : Header) (data : List Byte) (opData : Nat) (s : State) : (respondInline h data opData s).sites = s.sites := by simp [respondInline]
@[simp] theorem respondInline_heart (h : Header) (data : List Byte) (opData : Nat) (s : State) : (respondInline h data opData s).heart = s.heart := by simp [respondInline]
@[simp] theorem respondInline_cores (h : Header) (data : List Byte) (opData : Nat) (s : State) : (respondInline h data opData s).cores = s.cores := by simp [respondInline]
@[simp] theorem respondInline_plr (h : Header) (data : List Byte) (opData : Nat) (s : State) : (respondInline h data opData s).plr = s.plr := by simp [respondInline]
@[simp] theorem respondInline_kiln (h : Header) (data : List Byte) (opData : Nat) (s : State) : (respondInline h data opData s).kiln = s.kiln := by simp [respondInline]
@[simp] theorem respondInline_ember (h : Header) (data : List Byte) (opData : Nat) (s : State) : (respondInline h data opData s).ember = s.ember := by simp [respondInline]
@[simp] theorem respondInline_host (h : Header) (data : List Byte) (opData : Nat) (s : State) : (respondInline h data opData s).host = s.host := by simp [respondInline]
@[simp] theorem respondInline_peats (h : Header) (data : List Byte) (opData : Nat) (s : State) : (respondInline h data opData s).peats = s.peats := by simp [respondInline]
@[simp] theorem respondInline_power (h : Header) (data : List Byte) (opData : Nat) (s : State) : (respondInline h data opData s).power = s.power := by simp [respondInline]
@[simp] theorem request_pending (h : Header) (units : List Unit256) (s : State) : (request h units s).pending = s.pending := rfl
@[simp] theorem request_fresh (h : Header) (units : List Unit256) (s : State) : (request h units s).fresh = s.fresh := rfl
@[simp] theorem request_regs (h : Header) (units : List Unit256) (s : State) : (request h units s).regs = s.regs := rfl
@[simp] theorem request_mem (h : Header) (units : List Unit256) (s : State) : (request h units s).mem = s.mem := rfl
@[simp] theorem request_cache (h : Header) (units : List Unit256) (s : State) : (request h units s).cache = s.cache := rfl
@[simp] theorem request_torus (h : Header) (units : List Unit256) (s : State) : (request h units s).torus = s.torus := rfl
@[simp] theorem request_errs (h : Header) (units : List Unit256) (s : State) : (request h units s).errs = s.errs := rfl
@[simp] theorem request_ops (h : Header) (units : List Unit256) (s : State) : (request h units s).ops = s.ops := rfl
@[simp] theorem request_shadows (h : Header) (units : List Unit256) (s : State) : (request h units s).shadows = s.shadows := rfl
@[simp] theorem request_tiles (h : Header) (units : List Unit256) (s : State) : (request h units s).tiles = s.tiles := rfl
@[simp] theorem request_passes (h : Header) (units : List Unit256) (s : State) : (request h units s).passes = s.passes := rfl
@[simp] theorem request_nextPass (h : Header) (units : List Unit256) (s : State) : (request h units s).nextPass = s.nextPass := rfl
@[simp] theorem request_tags (h : Header) (units : List Unit256) (s : State) : (request h units s).tags = s.tags := rfl
@[simp] theorem request_hbm (h : Header) (units : List Unit256) (s : State) : (request h units s).hbm = s.hbm := rfl
@[simp] theorem request_xlate (h : Header) (units : List Unit256) (s : State) : (request h units s).xlate = s.xlate := rfl
@[simp] theorem request_coh (h : Header) (units : List Unit256) (s : State) : (request h units s).coh = s.coh := rfl
@[simp] theorem request_regul (h : Header) (units : List Unit256) (s : State) : (request h units s).regul = s.regul := rfl
@[simp] theorem request_ctxs (h : Header) (units : List Unit256) (s : State) : (request h units s).ctxs = s.ctxs := rfl
@[simp] theorem request_msix (h : Header) (units : List Unit256) (s : State) : (request h units s).msix = s.msix := rfl
@[simp] theorem request_time (h : Header) (units : List Unit256) (s : State) : (request h units s).time = s.time := rfl
@[simp] theorem request_sites (h : Header) (units : List Unit256) (s : State) : (request h units s).sites = s.sites := rfl
@[simp] theorem request_heart (h : Header) (units : List Unit256) (s : State) : (request h units s).heart = s.heart := rfl
@[simp] theorem request_cores (h : Header) (units : List Unit256) (s : State) : (request h units s).cores = s.cores := rfl
@[simp] theorem request_plr (h : Header) (units : List Unit256) (s : State) : (request h units s).plr = s.plr := rfl
@[simp] theorem request_kiln (h : Header) (units : List Unit256) (s : State) : (request h units s).kiln = s.kiln := rfl
@[simp] theorem request_ember (h : Header) (units : List Unit256) (s : State) : (request h units s).ember = s.ember := rfl
@[simp] theorem request_host (h : Header) (units : List Unit256) (s : State) : (request h units s).host = s.host := rfl
@[simp] theorem request_peats (h : Header) (units : List Unit256) (s : State) : (request h units s).peats = s.peats := rfl
@[simp] theorem request_power (h : Header) (units : List Unit256) (s : State) : (request h units s).power = s.power := rfl
@[simp] theorem malformedReject_pending (plane : Plane) (src : Nat) (permitted : Bool) (h : Header) (s : State) : (malformedReject plane src permitted h s).pending = s.pending := by
  simp only [malformedReject]; (repeat' split) <;> simp
@[simp] theorem malformedReject_fresh (plane : Plane) (src : Nat) (permitted : Bool) (h : Header) (s : State) : (malformedReject plane src permitted h s).fresh = s.fresh := by
  simp only [malformedReject]; (repeat' split) <;> simp
@[simp] theorem malformedReject_mem (plane : Plane) (src : Nat) (permitted : Bool) (h : Header) (s : State) : (malformedReject plane src permitted h s).mem = s.mem := by
  simp only [malformedReject]; (repeat' split) <;> simp
@[simp] theorem malformedReject_cache (plane : Plane) (src : Nat) (permitted : Bool) (h : Header) (s : State) : (malformedReject plane src permitted h s).cache = s.cache := by
  simp only [malformedReject]; (repeat' split) <;> simp
@[simp] theorem malformedReject_torus (plane : Plane) (src : Nat) (permitted : Bool) (h : Header) (s : State) : (malformedReject plane src permitted h s).torus = s.torus := by
  simp only [malformedReject]; (repeat' split) <;> simp
@[simp] theorem malformedReject_ops (plane : Plane) (src : Nat) (permitted : Bool) (h : Header) (s : State) : (malformedReject plane src permitted h s).ops = s.ops := by
  simp only [malformedReject]; (repeat' split) <;> simp
@[simp] theorem malformedReject_shadows (plane : Plane) (src : Nat) (permitted : Bool) (h : Header) (s : State) : (malformedReject plane src permitted h s).shadows = s.shadows := by
  simp only [malformedReject]; (repeat' split) <;> simp
@[simp] theorem malformedReject_tiles (plane : Plane) (src : Nat) (permitted : Bool) (h : Header) (s : State) : (malformedReject plane src permitted h s).tiles = s.tiles := by
  simp only [malformedReject]; (repeat' split) <;> simp
@[simp] theorem malformedReject_passes (plane : Plane) (src : Nat) (permitted : Bool) (h : Header) (s : State) : (malformedReject plane src permitted h s).passes = s.passes := by
  simp only [malformedReject]; (repeat' split) <;> simp
@[simp] theorem malformedReject_nextPass (plane : Plane) (src : Nat) (permitted : Bool) (h : Header) (s : State) : (malformedReject plane src permitted h s).nextPass = s.nextPass := by
  simp only [malformedReject]; (repeat' split) <;> simp
@[simp] theorem malformedReject_tags (plane : Plane) (src : Nat) (permitted : Bool) (h : Header) (s : State) : (malformedReject plane src permitted h s).tags = s.tags := by
  simp only [malformedReject]; (repeat' split) <;> simp
@[simp] theorem malformedReject_hbm (plane : Plane) (src : Nat) (permitted : Bool) (h : Header) (s : State) : (malformedReject plane src permitted h s).hbm = s.hbm := by
  simp only [malformedReject]; (repeat' split) <;> simp
@[simp] theorem malformedReject_xlate (plane : Plane) (src : Nat) (permitted : Bool) (h : Header) (s : State) : (malformedReject plane src permitted h s).xlate = s.xlate := by
  simp only [malformedReject]; (repeat' split) <;> simp
@[simp] theorem malformedReject_coh (plane : Plane) (src : Nat) (permitted : Bool) (h : Header) (s : State) : (malformedReject plane src permitted h s).coh = s.coh := by
  simp only [malformedReject]; (repeat' split) <;> simp
@[simp] theorem malformedReject_regul (plane : Plane) (src : Nat) (permitted : Bool) (h : Header) (s : State) : (malformedReject plane src permitted h s).regul = s.regul := by
  simp only [malformedReject]; (repeat' split) <;> simp
@[simp] theorem malformedReject_ctxs (plane : Plane) (src : Nat) (permitted : Bool) (h : Header) (s : State) : (malformedReject plane src permitted h s).ctxs = s.ctxs := by
  simp only [malformedReject]; (repeat' split) <;> simp
@[simp] theorem malformedReject_msix (plane : Plane) (src : Nat) (permitted : Bool) (h : Header) (s : State) : (malformedReject plane src permitted h s).msix = s.msix := by
  simp only [malformedReject]; (repeat' split) <;> simp
@[simp] theorem malformedReject_time (plane : Plane) (src : Nat) (permitted : Bool) (h : Header) (s : State) : (malformedReject plane src permitted h s).time = s.time := by
  simp only [malformedReject]; (repeat' split) <;> simp
@[simp] theorem malformedReject_sites (plane : Plane) (src : Nat) (permitted : Bool) (h : Header) (s : State) : (malformedReject plane src permitted h s).sites = s.sites := by
  simp only [malformedReject]; (repeat' split) <;> simp
@[simp] theorem malformedReject_heart (plane : Plane) (src : Nat) (permitted : Bool) (h : Header) (s : State) : (malformedReject plane src permitted h s).heart = s.heart := by
  simp only [malformedReject]; (repeat' split) <;> simp
@[simp] theorem malformedReject_cores (plane : Plane) (src : Nat) (permitted : Bool) (h : Header) (s : State) : (malformedReject plane src permitted h s).cores = s.cores := by
  simp only [malformedReject]; (repeat' split) <;> simp
@[simp] theorem malformedReject_plr (plane : Plane) (src : Nat) (permitted : Bool) (h : Header) (s : State) : (malformedReject plane src permitted h s).plr = s.plr := by
  simp only [malformedReject]; (repeat' split) <;> simp
@[simp] theorem malformedReject_kiln (plane : Plane) (src : Nat) (permitted : Bool) (h : Header) (s : State) : (malformedReject plane src permitted h s).kiln = s.kiln := by
  simp only [malformedReject]; (repeat' split) <;> simp
@[simp] theorem malformedReject_ember (plane : Plane) (src : Nat) (permitted : Bool) (h : Header) (s : State) : (malformedReject plane src permitted h s).ember = s.ember := by
  simp only [malformedReject]; (repeat' split) <;> simp
@[simp] theorem malformedReject_host (plane : Plane) (src : Nat) (permitted : Bool) (h : Header) (s : State) : (malformedReject plane src permitted h s).host = s.host := by
  simp only [malformedReject]; (repeat' split) <;> simp
@[simp] theorem malformedReject_peats (plane : Plane) (src : Nat) (permitted : Bool) (h : Header) (s : State) : (malformedReject plane src permitted h s).peats = s.peats := by
  simp only [malformedReject]; (repeat' split) <;> simp
@[simp] theorem nodeDownAnswer_pending (r : Nat) (plane : Plane) (h : Header) (s : State) : (nodeDownAnswer r plane h s).pending = s.pending := by
  simp only [nodeDownAnswer]; (repeat' split) <;> simp
@[simp] theorem nodeDownAnswer_fresh (r : Nat) (plane : Plane) (h : Header) (s : State) : (nodeDownAnswer r plane h s).fresh = s.fresh := by
  simp only [nodeDownAnswer]; (repeat' split) <;> simp
@[simp] theorem nodeDownAnswer_mem (r : Nat) (plane : Plane) (h : Header) (s : State) : (nodeDownAnswer r plane h s).mem = s.mem := by
  simp only [nodeDownAnswer]; (repeat' split) <;> simp
@[simp] theorem nodeDownAnswer_cache (r : Nat) (plane : Plane) (h : Header) (s : State) : (nodeDownAnswer r plane h s).cache = s.cache := by
  simp only [nodeDownAnswer]; (repeat' split) <;> simp
@[simp] theorem nodeDownAnswer_torus (r : Nat) (plane : Plane) (h : Header) (s : State) : (nodeDownAnswer r plane h s).torus = s.torus := by
  simp only [nodeDownAnswer]; (repeat' split) <;> simp
@[simp] theorem nodeDownAnswer_errs (r : Nat) (plane : Plane) (h : Header) (s : State) : (nodeDownAnswer r plane h s).errs = s.errs := by
  simp only [nodeDownAnswer]; (repeat' split) <;> simp
@[simp] theorem nodeDownAnswer_ops (r : Nat) (plane : Plane) (h : Header) (s : State) : (nodeDownAnswer r plane h s).ops = s.ops := by
  simp only [nodeDownAnswer]; (repeat' split) <;> simp
@[simp] theorem nodeDownAnswer_shadows (r : Nat) (plane : Plane) (h : Header) (s : State) : (nodeDownAnswer r plane h s).shadows = s.shadows := by
  simp only [nodeDownAnswer]; (repeat' split) <;> simp
@[simp] theorem nodeDownAnswer_tiles (r : Nat) (plane : Plane) (h : Header) (s : State) : (nodeDownAnswer r plane h s).tiles = s.tiles := by
  simp only [nodeDownAnswer]; (repeat' split) <;> simp
@[simp] theorem nodeDownAnswer_passes (r : Nat) (plane : Plane) (h : Header) (s : State) : (nodeDownAnswer r plane h s).passes = s.passes := by
  simp only [nodeDownAnswer]; (repeat' split) <;> simp
@[simp] theorem nodeDownAnswer_nextPass (r : Nat) (plane : Plane) (h : Header) (s : State) : (nodeDownAnswer r plane h s).nextPass = s.nextPass := by
  simp only [nodeDownAnswer]; (repeat' split) <;> simp
@[simp] theorem nodeDownAnswer_tags (r : Nat) (plane : Plane) (h : Header) (s : State) : (nodeDownAnswer r plane h s).tags = s.tags := by
  simp only [nodeDownAnswer]; (repeat' split) <;> simp
@[simp] theorem nodeDownAnswer_hbm (r : Nat) (plane : Plane) (h : Header) (s : State) : (nodeDownAnswer r plane h s).hbm = s.hbm := by
  simp only [nodeDownAnswer]; (repeat' split) <;> simp
@[simp] theorem nodeDownAnswer_xlate (r : Nat) (plane : Plane) (h : Header) (s : State) : (nodeDownAnswer r plane h s).xlate = s.xlate := by
  simp only [nodeDownAnswer]; (repeat' split) <;> simp
@[simp] theorem nodeDownAnswer_coh (r : Nat) (plane : Plane) (h : Header) (s : State) : (nodeDownAnswer r plane h s).coh = s.coh := by
  simp only [nodeDownAnswer]; (repeat' split) <;> simp
@[simp] theorem nodeDownAnswer_regul (r : Nat) (plane : Plane) (h : Header) (s : State) : (nodeDownAnswer r plane h s).regul = s.regul := by
  simp only [nodeDownAnswer]; (repeat' split) <;> simp
@[simp] theorem nodeDownAnswer_ctxs (r : Nat) (plane : Plane) (h : Header) (s : State) : (nodeDownAnswer r plane h s).ctxs = s.ctxs := by
  simp only [nodeDownAnswer]; (repeat' split) <;> simp
@[simp] theorem nodeDownAnswer_msix (r : Nat) (plane : Plane) (h : Header) (s : State) : (nodeDownAnswer r plane h s).msix = s.msix := by
  simp only [nodeDownAnswer]; (repeat' split) <;> simp
@[simp] theorem nodeDownAnswer_time (r : Nat) (plane : Plane) (h : Header) (s : State) : (nodeDownAnswer r plane h s).time = s.time := by
  simp only [nodeDownAnswer]; (repeat' split) <;> simp
@[simp] theorem nodeDownAnswer_sites (r : Nat) (plane : Plane) (h : Header) (s : State) : (nodeDownAnswer r plane h s).sites = s.sites := by
  simp only [nodeDownAnswer]; (repeat' split) <;> simp
@[simp] theorem nodeDownAnswer_heart (r : Nat) (plane : Plane) (h : Header) (s : State) : (nodeDownAnswer r plane h s).heart = s.heart := by
  simp only [nodeDownAnswer]; (repeat' split) <;> simp
@[simp] theorem nodeDownAnswer_cores (r : Nat) (plane : Plane) (h : Header) (s : State) : (nodeDownAnswer r plane h s).cores = s.cores := by
  simp only [nodeDownAnswer]; (repeat' split) <;> simp
@[simp] theorem nodeDownAnswer_plr (r : Nat) (plane : Plane) (h : Header) (s : State) : (nodeDownAnswer r plane h s).plr = s.plr := by
  simp only [nodeDownAnswer]; (repeat' split) <;> simp
@[simp] theorem nodeDownAnswer_kiln (r : Nat) (plane : Plane) (h : Header) (s : State) : (nodeDownAnswer r plane h s).kiln = s.kiln := by
  simp only [nodeDownAnswer]; (repeat' split) <;> simp
@[simp] theorem nodeDownAnswer_ember (r : Nat) (plane : Plane) (h : Header) (s : State) : (nodeDownAnswer r plane h s).ember = s.ember := by
  simp only [nodeDownAnswer]; (repeat' split) <;> simp
@[simp] theorem nodeDownAnswer_host (r : Nat) (plane : Plane) (h : Header) (s : State) : (nodeDownAnswer r plane h s).host = s.host := by
  simp only [nodeDownAnswer]; (repeat' split) <;> simp
@[simp] theorem nodeDownAnswer_peats (r : Nat) (plane : Plane) (h : Header) (s : State) : (nodeDownAnswer r plane h s).peats = s.peats := by
  simp only [nodeDownAnswer]; (repeat' split) <;> simp
@[simp] theorem nodeDownAnswer_power (r : Nat) (plane : Plane) (h : Header) (s : State) : (nodeDownAnswer r plane h s).power = s.power := by
  simp only [nodeDownAnswer]; (repeat' split) <;> simp
@[simp] theorem countUnassigned_pending (p : Nat) (s : State) : (countUnassigned p s).pending = s.pending := by simp [countUnassigned]
@[simp] theorem countUnassigned_out (p : Nat) (s : State) : (countUnassigned p s).out = s.out := by simp [countUnassigned]
@[simp] theorem countUnassigned_fresh (p : Nat) (s : State) : (countUnassigned p s).fresh = s.fresh := by simp [countUnassigned]
@[simp] theorem countUnassigned_mem (p : Nat) (s : State) : (countUnassigned p s).mem = s.mem := by simp [countUnassigned]
@[simp] theorem countUnassigned_cache (p : Nat) (s : State) : (countUnassigned p s).cache = s.cache := by simp [countUnassigned]
@[simp] theorem countUnassigned_torus (p : Nat) (s : State) : (countUnassigned p s).torus = s.torus := by simp [countUnassigned]
@[simp] theorem countUnassigned_errs (p : Nat) (s : State) : (countUnassigned p s).errs = s.errs := by simp [countUnassigned]
@[simp] theorem countUnassigned_ops (p : Nat) (s : State) : (countUnassigned p s).ops = s.ops := by simp [countUnassigned]
@[simp] theorem countUnassigned_shadows (p : Nat) (s : State) : (countUnassigned p s).shadows = s.shadows := by simp [countUnassigned]
@[simp] theorem countUnassigned_tiles (p : Nat) (s : State) : (countUnassigned p s).tiles = s.tiles := by simp [countUnassigned]
@[simp] theorem countUnassigned_passes (p : Nat) (s : State) : (countUnassigned p s).passes = s.passes := by simp [countUnassigned]
@[simp] theorem countUnassigned_nextPass (p : Nat) (s : State) : (countUnassigned p s).nextPass = s.nextPass := by simp [countUnassigned]
@[simp] theorem countUnassigned_tags (p : Nat) (s : State) : (countUnassigned p s).tags = s.tags := by simp [countUnassigned]
@[simp] theorem countUnassigned_hbm (p : Nat) (s : State) : (countUnassigned p s).hbm = s.hbm := by simp [countUnassigned]
@[simp] theorem countUnassigned_xlate (p : Nat) (s : State) : (countUnassigned p s).xlate = s.xlate := by simp [countUnassigned]
@[simp] theorem countUnassigned_coh (p : Nat) (s : State) : (countUnassigned p s).coh = s.coh := by simp [countUnassigned]
@[simp] theorem countUnassigned_regul (p : Nat) (s : State) : (countUnassigned p s).regul = s.regul := by simp [countUnassigned]
@[simp] theorem countUnassigned_ctxs (p : Nat) (s : State) : (countUnassigned p s).ctxs = s.ctxs := by simp [countUnassigned]
@[simp] theorem countUnassigned_msix (p : Nat) (s : State) : (countUnassigned p s).msix = s.msix := by simp [countUnassigned]
@[simp] theorem countUnassigned_time (p : Nat) (s : State) : (countUnassigned p s).time = s.time := by simp [countUnassigned]
@[simp] theorem countUnassigned_sites (p : Nat) (s : State) : (countUnassigned p s).sites = s.sites := by simp [countUnassigned]
@[simp] theorem countUnassigned_heart (p : Nat) (s : State) : (countUnassigned p s).heart = s.heart := by simp [countUnassigned]
@[simp] theorem countUnassigned_cores (p : Nat) (s : State) : (countUnassigned p s).cores = s.cores := by simp [countUnassigned]
@[simp] theorem countUnassigned_plr (p : Nat) (s : State) : (countUnassigned p s).plr = s.plr := by simp [countUnassigned]
@[simp] theorem countUnassigned_kiln (p : Nat) (s : State) : (countUnassigned p s).kiln = s.kiln := by simp [countUnassigned]
@[simp] theorem countUnassigned_ember (p : Nat) (s : State) : (countUnassigned p s).ember = s.ember := by simp [countUnassigned]
@[simp] theorem countUnassigned_host (p : Nat) (s : State) : (countUnassigned p s).host = s.host := by simp [countUnassigned]
@[simp] theorem countUnassigned_peats (p : Nat) (s : State) : (countUnassigned p s).peats = s.peats := by simp [countUnassigned]
@[simp] theorem countUnassigned_power (p : Nat) (s : State) : (countUnassigned p s).power = s.power := by simp [countUnassigned]
@[simp] theorem dropShadow_pending (fn : Nat) (p : Nat) (s : State) : (dropShadow fn p s).pending = s.pending := rfl
@[simp] theorem dropShadow_out (fn : Nat) (p : Nat) (s : State) : (dropShadow fn p s).out = s.out := rfl
@[simp] theorem dropShadow_fresh (fn : Nat) (p : Nat) (s : State) : (dropShadow fn p s).fresh = s.fresh := rfl
@[simp] theorem dropShadow_regs (fn : Nat) (p : Nat) (s : State) : (dropShadow fn p s).regs = s.regs := rfl
@[simp] theorem dropShadow_mem (fn : Nat) (p : Nat) (s : State) : (dropShadow fn p s).mem = s.mem := rfl
@[simp] theorem dropShadow_cache (fn : Nat) (p : Nat) (s : State) : (dropShadow fn p s).cache = s.cache := rfl
@[simp] theorem dropShadow_torus (fn : Nat) (p : Nat) (s : State) : (dropShadow fn p s).torus = s.torus := rfl
@[simp] theorem dropShadow_errs (fn : Nat) (p : Nat) (s : State) : (dropShadow fn p s).errs = s.errs := rfl
@[simp] theorem dropShadow_ops (fn : Nat) (p : Nat) (s : State) : (dropShadow fn p s).ops = s.ops := rfl
@[simp] theorem dropShadow_tiles (fn : Nat) (p : Nat) (s : State) : (dropShadow fn p s).tiles = s.tiles := rfl
@[simp] theorem dropShadow_passes (fn : Nat) (p : Nat) (s : State) : (dropShadow fn p s).passes = s.passes := rfl
@[simp] theorem dropShadow_nextPass (fn : Nat) (p : Nat) (s : State) : (dropShadow fn p s).nextPass = s.nextPass := rfl
@[simp] theorem dropShadow_tags (fn : Nat) (p : Nat) (s : State) : (dropShadow fn p s).tags = s.tags := rfl
@[simp] theorem dropShadow_hbm (fn : Nat) (p : Nat) (s : State) : (dropShadow fn p s).hbm = s.hbm := rfl
@[simp] theorem dropShadow_xlate (fn : Nat) (p : Nat) (s : State) : (dropShadow fn p s).xlate = s.xlate := rfl
@[simp] theorem dropShadow_coh (fn : Nat) (p : Nat) (s : State) : (dropShadow fn p s).coh = s.coh := rfl
@[simp] theorem dropShadow_regul (fn : Nat) (p : Nat) (s : State) : (dropShadow fn p s).regul = s.regul := rfl
@[simp] theorem dropShadow_ctxs (fn : Nat) (p : Nat) (s : State) : (dropShadow fn p s).ctxs = s.ctxs := rfl
@[simp] theorem dropShadow_msix (fn : Nat) (p : Nat) (s : State) : (dropShadow fn p s).msix = s.msix := rfl
@[simp] theorem dropShadow_time (fn : Nat) (p : Nat) (s : State) : (dropShadow fn p s).time = s.time := rfl
@[simp] theorem dropShadow_sites (fn : Nat) (p : Nat) (s : State) : (dropShadow fn p s).sites = s.sites := rfl
@[simp] theorem dropShadow_heart (fn : Nat) (p : Nat) (s : State) : (dropShadow fn p s).heart = s.heart := rfl
@[simp] theorem dropShadow_cores (fn : Nat) (p : Nat) (s : State) : (dropShadow fn p s).cores = s.cores := rfl
@[simp] theorem dropShadow_plr (fn : Nat) (p : Nat) (s : State) : (dropShadow fn p s).plr = s.plr := rfl
@[simp] theorem dropShadow_kiln (fn : Nat) (p : Nat) (s : State) : (dropShadow fn p s).kiln = s.kiln := rfl
@[simp] theorem dropShadow_ember (fn : Nat) (p : Nat) (s : State) : (dropShadow fn p s).ember = s.ember := rfl
@[simp] theorem dropShadow_host (fn : Nat) (p : Nat) (s : State) : (dropShadow fn p s).host = s.host := rfl
@[simp] theorem dropShadow_peats (fn : Nat) (p : Nat) (s : State) : (dropShadow fn p s).peats = s.peats := rfl
@[simp] theorem dropShadow_power (fn : Nat) (p : Nat) (s : State) : (dropShadow fn p s).power = s.power := rfl
@[simp] theorem showArray_pending (n : Nat) (s : State) : (showArray n s).pending = s.pending := by
  simp only [showArray]; (repeat' split) <;> simp
@[simp] theorem showArray_out (n : Nat) (s : State) : (showArray n s).out = s.out := by
  simp only [showArray]; (repeat' split) <;> simp
@[simp] theorem showArray_fresh (n : Nat) (s : State) : (showArray n s).fresh = s.fresh := by
  simp only [showArray]; (repeat' split) <;> simp
@[simp] theorem showArray_mem (n : Nat) (s : State) : (showArray n s).mem = s.mem := by
  simp only [showArray]; (repeat' split) <;> simp
@[simp] theorem showArray_cache (n : Nat) (s : State) : (showArray n s).cache = s.cache := by
  simp only [showArray]; (repeat' split) <;> simp
@[simp] theorem showArray_torus (n : Nat) (s : State) : (showArray n s).torus = s.torus := by
  simp only [showArray]; (repeat' split) <;> simp
@[simp] theorem showArray_errs (n : Nat) (s : State) : (showArray n s).errs = s.errs := by
  simp only [showArray]; (repeat' split) <;> simp
@[simp] theorem showArray_ops (n : Nat) (s : State) : (showArray n s).ops = s.ops := by
  simp only [showArray]; (repeat' split) <;> simp
@[simp] theorem showArray_shadows (n : Nat) (s : State) : (showArray n s).shadows = s.shadows := by
  simp only [showArray]; (repeat' split) <;> simp
@[simp] theorem showArray_tiles (n : Nat) (s : State) : (showArray n s).tiles = s.tiles := by
  simp only [showArray]; (repeat' split) <;> simp
@[simp] theorem showArray_passes (n : Nat) (s : State) : (showArray n s).passes = s.passes := by
  simp only [showArray]; (repeat' split) <;> simp
@[simp] theorem showArray_nextPass (n : Nat) (s : State) : (showArray n s).nextPass = s.nextPass := by
  simp only [showArray]; (repeat' split) <;> simp
@[simp] theorem showArray_tags (n : Nat) (s : State) : (showArray n s).tags = s.tags := by
  simp only [showArray]; (repeat' split) <;> simp
@[simp] theorem showArray_hbm (n : Nat) (s : State) : (showArray n s).hbm = s.hbm := by
  simp only [showArray]; (repeat' split) <;> simp
@[simp] theorem showArray_xlate (n : Nat) (s : State) : (showArray n s).xlate = s.xlate := by
  simp only [showArray]; (repeat' split) <;> simp
@[simp] theorem showArray_coh (n : Nat) (s : State) : (showArray n s).coh = s.coh := by
  simp only [showArray]; (repeat' split) <;> simp
@[simp] theorem showArray_regul (n : Nat) (s : State) : (showArray n s).regul = s.regul := by
  simp only [showArray]; (repeat' split) <;> simp
@[simp] theorem showArray_ctxs (n : Nat) (s : State) : (showArray n s).ctxs = s.ctxs := by
  simp only [showArray]; (repeat' split) <;> simp
@[simp] theorem showArray_msix (n : Nat) (s : State) : (showArray n s).msix = s.msix := by
  simp only [showArray]; (repeat' split) <;> simp
@[simp] theorem showArray_time (n : Nat) (s : State) : (showArray n s).time = s.time := by
  simp only [showArray]; (repeat' split) <;> simp
@[simp] theorem showArray_sites (n : Nat) (s : State) : (showArray n s).sites = s.sites := by
  simp only [showArray]; (repeat' split) <;> simp
@[simp] theorem showArray_heart (n : Nat) (s : State) : (showArray n s).heart = s.heart := by
  simp only [showArray]; (repeat' split) <;> simp
@[simp] theorem showArray_cores (n : Nat) (s : State) : (showArray n s).cores = s.cores := by
  simp only [showArray]; (repeat' split) <;> simp
@[simp] theorem showArray_plr (n : Nat) (s : State) : (showArray n s).plr = s.plr := by
  simp only [showArray]; (repeat' split) <;> simp
@[simp] theorem showArray_kiln (n : Nat) (s : State) : (showArray n s).kiln = s.kiln := by
  simp only [showArray]; (repeat' split) <;> simp
@[simp] theorem showArray_ember (n : Nat) (s : State) : (showArray n s).ember = s.ember := by
  simp only [showArray]; (repeat' split) <;> simp
@[simp] theorem showArray_host (n : Nat) (s : State) : (showArray n s).host = s.host := by
  simp only [showArray]; (repeat' split) <;> simp
@[simp] theorem showArray_peats (n : Nat) (s : State) : (showArray n s).peats = s.peats := by
  simp only [showArray]; (repeat' split) <;> simp
@[simp] theorem showArray_power (n : Nat) (s : State) : (showArray n s).power = s.power := by
  simp only [showArray]; (repeat' split) <;> simp
@[simp] theorem modSite_pending (n : Nat) (f : SiteSt → SiteSt) (s : State) : (modSite n f s).pending = s.pending := rfl
@[simp] theorem modSite_out (n : Nat) (f : SiteSt → SiteSt) (s : State) : (modSite n f s).out = s.out := rfl
@[simp] theorem modSite_fresh (n : Nat) (f : SiteSt → SiteSt) (s : State) : (modSite n f s).fresh = s.fresh := rfl
@[simp] theorem modSite_regs (n : Nat) (f : SiteSt → SiteSt) (s : State) : (modSite n f s).regs = s.regs := rfl
@[simp] theorem modSite_mem (n : Nat) (f : SiteSt → SiteSt) (s : State) : (modSite n f s).mem = s.mem := rfl
@[simp] theorem modSite_cache (n : Nat) (f : SiteSt → SiteSt) (s : State) : (modSite n f s).cache = s.cache := rfl
@[simp] theorem modSite_torus (n : Nat) (f : SiteSt → SiteSt) (s : State) : (modSite n f s).torus = s.torus := rfl
@[simp] theorem modSite_errs (n : Nat) (f : SiteSt → SiteSt) (s : State) : (modSite n f s).errs = s.errs := rfl
@[simp] theorem modSite_ops (n : Nat) (f : SiteSt → SiteSt) (s : State) : (modSite n f s).ops = s.ops := rfl
@[simp] theorem modSite_shadows (n : Nat) (f : SiteSt → SiteSt) (s : State) : (modSite n f s).shadows = s.shadows := rfl
@[simp] theorem modSite_tiles (n : Nat) (f : SiteSt → SiteSt) (s : State) : (modSite n f s).tiles = s.tiles := rfl
@[simp] theorem modSite_passes (n : Nat) (f : SiteSt → SiteSt) (s : State) : (modSite n f s).passes = s.passes := rfl
@[simp] theorem modSite_nextPass (n : Nat) (f : SiteSt → SiteSt) (s : State) : (modSite n f s).nextPass = s.nextPass := rfl
@[simp] theorem modSite_tags (n : Nat) (f : SiteSt → SiteSt) (s : State) : (modSite n f s).tags = s.tags := rfl
@[simp] theorem modSite_hbm (n : Nat) (f : SiteSt → SiteSt) (s : State) : (modSite n f s).hbm = s.hbm := rfl
@[simp] theorem modSite_xlate (n : Nat) (f : SiteSt → SiteSt) (s : State) : (modSite n f s).xlate = s.xlate := rfl
@[simp] theorem modSite_coh (n : Nat) (f : SiteSt → SiteSt) (s : State) : (modSite n f s).coh = s.coh := rfl
@[simp] theorem modSite_regul (n : Nat) (f : SiteSt → SiteSt) (s : State) : (modSite n f s).regul = s.regul := rfl
@[simp] theorem modSite_ctxs (n : Nat) (f : SiteSt → SiteSt) (s : State) : (modSite n f s).ctxs = s.ctxs := rfl
@[simp] theorem modSite_msix (n : Nat) (f : SiteSt → SiteSt) (s : State) : (modSite n f s).msix = s.msix := rfl
@[simp] theorem modSite_time (n : Nat) (f : SiteSt → SiteSt) (s : State) : (modSite n f s).time = s.time := rfl
@[simp] theorem modSite_heart (n : Nat) (f : SiteSt → SiteSt) (s : State) : (modSite n f s).heart = s.heart := rfl
@[simp] theorem modSite_cores (n : Nat) (f : SiteSt → SiteSt) (s : State) : (modSite n f s).cores = s.cores := rfl
@[simp] theorem modSite_plr (n : Nat) (f : SiteSt → SiteSt) (s : State) : (modSite n f s).plr = s.plr := rfl
@[simp] theorem modSite_kiln (n : Nat) (f : SiteSt → SiteSt) (s : State) : (modSite n f s).kiln = s.kiln := rfl
@[simp] theorem modSite_ember (n : Nat) (f : SiteSt → SiteSt) (s : State) : (modSite n f s).ember = s.ember := rfl
@[simp] theorem modSite_host (n : Nat) (f : SiteSt → SiteSt) (s : State) : (modSite n f s).host = s.host := rfl
@[simp] theorem modSite_peats (n : Nat) (f : SiteSt → SiteSt) (s : State) : (modSite n f s).peats = s.peats := rfl
@[simp] theorem modSite_power (n : Nat) (f : SiteSt → SiteSt) (s : State) : (modSite n f s).power = s.power := rfl
@[simp] theorem setSite_pending (n : Nat) (x : SiteSt) (s : State) : (setSite n x s).pending = s.pending := rfl
@[simp] theorem setSite_out (n : Nat) (x : SiteSt) (s : State) : (setSite n x s).out = s.out := rfl
@[simp] theorem setSite_fresh (n : Nat) (x : SiteSt) (s : State) : (setSite n x s).fresh = s.fresh := rfl
@[simp] theorem setSite_regs (n : Nat) (x : SiteSt) (s : State) : (setSite n x s).regs = s.regs := rfl
@[simp] theorem setSite_mem (n : Nat) (x : SiteSt) (s : State) : (setSite n x s).mem = s.mem := rfl
@[simp] theorem setSite_cache (n : Nat) (x : SiteSt) (s : State) : (setSite n x s).cache = s.cache := rfl
@[simp] theorem setSite_torus (n : Nat) (x : SiteSt) (s : State) : (setSite n x s).torus = s.torus := rfl
@[simp] theorem setSite_errs (n : Nat) (x : SiteSt) (s : State) : (setSite n x s).errs = s.errs := rfl
@[simp] theorem setSite_ops (n : Nat) (x : SiteSt) (s : State) : (setSite n x s).ops = s.ops := rfl
@[simp] theorem setSite_shadows (n : Nat) (x : SiteSt) (s : State) : (setSite n x s).shadows = s.shadows := rfl
@[simp] theorem setSite_tiles (n : Nat) (x : SiteSt) (s : State) : (setSite n x s).tiles = s.tiles := rfl
@[simp] theorem setSite_passes (n : Nat) (x : SiteSt) (s : State) : (setSite n x s).passes = s.passes := rfl
@[simp] theorem setSite_nextPass (n : Nat) (x : SiteSt) (s : State) : (setSite n x s).nextPass = s.nextPass := rfl
@[simp] theorem setSite_tags (n : Nat) (x : SiteSt) (s : State) : (setSite n x s).tags = s.tags := rfl
@[simp] theorem setSite_hbm (n : Nat) (x : SiteSt) (s : State) : (setSite n x s).hbm = s.hbm := rfl
@[simp] theorem setSite_xlate (n : Nat) (x : SiteSt) (s : State) : (setSite n x s).xlate = s.xlate := rfl
@[simp] theorem setSite_coh (n : Nat) (x : SiteSt) (s : State) : (setSite n x s).coh = s.coh := rfl
@[simp] theorem setSite_regul (n : Nat) (x : SiteSt) (s : State) : (setSite n x s).regul = s.regul := rfl
@[simp] theorem setSite_ctxs (n : Nat) (x : SiteSt) (s : State) : (setSite n x s).ctxs = s.ctxs := rfl
@[simp] theorem setSite_msix (n : Nat) (x : SiteSt) (s : State) : (setSite n x s).msix = s.msix := rfl
@[simp] theorem setSite_time (n : Nat) (x : SiteSt) (s : State) : (setSite n x s).time = s.time := rfl
@[simp] theorem setSite_heart (n : Nat) (x : SiteSt) (s : State) : (setSite n x s).heart = s.heart := rfl
@[simp] theorem setSite_cores (n : Nat) (x : SiteSt) (s : State) : (setSite n x s).cores = s.cores := rfl
@[simp] theorem setSite_plr (n : Nat) (x : SiteSt) (s : State) : (setSite n x s).plr = s.plr := rfl
@[simp] theorem setSite_kiln (n : Nat) (x : SiteSt) (s : State) : (setSite n x s).kiln = s.kiln := rfl
@[simp] theorem setSite_ember (n : Nat) (x : SiteSt) (s : State) : (setSite n x s).ember = s.ember := rfl
@[simp] theorem setSite_host (n : Nat) (x : SiteSt) (s : State) : (setSite n x s).host = s.host := rfl
@[simp] theorem setSite_peats (n : Nat) (x : SiteSt) (s : State) : (setSite n x s).peats = s.peats := rfl
@[simp] theorem setSite_power (n : Nat) (x : SiteSt) (s : State) : (setSite n x s).power = s.power := rfl
/-! Fields beyond the common page header -/

/-- A field of a page's own registers has another key than any field of a common header. -/
theorem fieldKey_ne_head {p q : Nat} {f g : Field} (hg : g.off < 0x100) (hf : 0x100 ≤ f.off) (hf' : f.off < 0x10000)
    (hl : f.lo < 64) (hgl : g.lo < 64) : fieldKey p f ≠ fieldKey q g := by
  simp only [fieldKey]; omega

theorem fld_raiseIrq_own {p q mask : Nat} {f : Field} (s : State) (hf : 0x100 ≤ f.off) (hf' : f.off < 0x10000) (hl : f.lo < 64) :
    fld (raiseIrq q mask s) p f = fld s p f :=
  fld_raiseIrq_ne s (fieldKey_ne_head (by decide) hf hf' hl (by decide)) (fieldKey_ne_head (by decide) hf hf' hl (by decide))
    (fieldKey_ne_head (by decide) hf hf' hl (by decide))

theorem fld_capture_own {p : Nat} {f : Field} (r : ErrRec) (s : State) (hf : 0x100 ≤ f.off) (hf' : f.off < 0x10000) (hl : f.lo < 64) :
    fld (capture r s) p f = fld s p f := by
  have k {g : Field} (hg : g.off < 0x100) (hgl : g.lo < 64) : fieldKey p f ≠ fieldKey r.page g := fieldKey_ne_head hg hf hf' hl hgl
  unfold capture
  dsimp only
  rw [fld_raiseIrq_own _ hf hf' hl, fld_setFld_ne _ _ (k (by decide) (by decide)), bump_eq, fld_setFld_ne _ _ (k (by decide) (by decide))]
  split
  · exact fld_setFld_ne _ _ (k (by decide) (by decide))
  · apply fld_setFlds_ne
    intro x hx
    simp only [List.mem_cons, List.not_mem_nil, or_false] at hx
    rcases hx with rfl | rfl | rfl | rfl | rfl | rfl | rfl | rfl | rfl | rfl | rfl | rfl <;> dsimp only <;> exact k (by decide) (by decide)

/-- A block error leaves the registers of the pages of BAR0 beyond their common headers alone. -/
theorem fld_raiseErr_own {p : Nat} {f : Field} (r : ErrRec) (s : State) (hp : p < 0x400) (hf : 0x100 ≤ f.off) (hf' : f.off < 0x10000)
    (hl : f.lo < 64) : fld (raiseErr r s) p f = fld s p f := by
  unfold raiseErr
  split
  · rw [bump_eq]; exact fld_setFld_ne _ _ (fieldKey_ne_head (by decide) hf hf' hl (by decide))
  · dsimp only
    have hw : ∀ k, p ≠ pageWin k 3 := fun k => by simp only [pageWin]; omega
    have step (t : State) : fld (if (stamp r s).sev = 3 then hubFault (latch (stamp r s) t) else t) p f = fld t p f := by
      split <;> rfl
    rw [step]
    split
    · rw [bump_eq, fld_setFld_page _ _ (hw _) (by decide) hf' (by decide) hl]
      exact fld_capture_own _ _ hf hf' hl
    · exact fld_capture_own _ _ hf hf' hl

theorem fld_count_ne {p q n : Nat} {f g : Field} (s : State) (h : fieldKey q g ≠ fieldKey p f) : fld (count p f n s) q g = fld s q g := by
  unfold count; split
  · rfl
  · rw [bump_eq]; exact fld_setFld_ne _ _ h

/-- A DEVICE error stops dispatch (R490). -/
theorem raiseErr_stops (r : ErrRec) (s : State) (h : r.sev = 3) : (raiseErr r s).errs.dispatchStopped = true := by
  have hb : heldBack r s = false := by simp [heldBack, h]
  have hc (x : ErrRec) (t : State) (ht : t.errs.dispatchStopped = true) : (capture x t).errs.dispatchStopped = true := by
    unfold capture; dsimp only
    rcases raiseIrq_errs x.page (2 ^ 63) _ with e | e <;> rw [e] <;> split <;> simp [ht]
  unfold raiseErr
  simp only [hb, Bool.false_eq_true, if_false]
  have hs : (stamp r s).sev = 3 := h
  simp only [hs, if_true, hubFault, latch, setPin_errs]
  split
  · exact hc _ _ (by simp)
  · exact hc _ _ (by simp)

end Sys2Proof.Machine
end

