-- ==== Sys2Proof/WellFormed.lean ====
section
/-! DEFINITION. Well-formed commands: every number fits the field, table or array that the spec gives it. The meanings are
total and do not rest on this check. -/

namespace Sys2Proof

namespace WellFormed

/-- A node of the torus (R41). -/
def nodeOk (n : Nat) : Bool := decide (n < 1024)
/-- A tile, or the router of its node (R41). -/
def tileOk (n : Nat) : Bool := decide (n < 64)
/-- An output port of a router (R41). -/
def portOk (n : Nat) : Bool := decide (n < 16)
/-- A torus link of a router (R55). -/
def dirOk (n : Nat) : Bool := decide (n < 4)
/-- An owner context (R7). -/
def ctxOk (n : Nat) : Bool := decide (n < 64)
/-- A function of the hub, or a management core (R70, R376). -/
def fnOk (n : Nat) : Bool := decide (n < 64) || n == 0xFF
/-- A function number as a configuration request carries it (R376). -/
def fnByteOk (n : Nat) : Bool := decide (n < 256)
/-- A register page (R65, R71). -/
def pageOk (n : Nat) : Bool := decide (n < 0x500)
/-- An offset in a 64 KiB page (R64). -/
def offOk (n : Nat) : Bool := decide (n < 0x10000)
/-- An offset in configuration space (R376). -/
def cfgOffOk (n : Nat) : Bool := decide (n < 0x1000)
/-- A 64-bit register's value (R64). -/
def wordOk (n : Nat) : Bool := decide (n < 2 ^ 64)
/-- The length of a register request (R67). -/
def widthOk (n : Nat) : Bool := n == 4 || n == 8
/-- The length of a register read (R67). -/
def readWidthOk (n : Nat) : Bool := decide (0 < n) && decide (n ≤ 64) && n % 4 == 0
/-- A submission ring of a context (R133). -/
def ringOk (n : Nat) : Bool := decide (n < 16)
/-- An executor: a tile, or 64 + a guest site (R154). -/
def executorOk (n : Nat) : Bool := decide (n < 72)
/-- A fence of a context (R141). -/
def fenceOk (n : Nat) : Bool := decide (n < 64)
/-- An HBM stack (R197). -/
def stackOk (n : Nat) : Bool := decide (n < 12)
/-- An HBM channel (R197). -/
def channelOk (n : Nat) : Bool := decide (n < 384)
/-- A slot of a channel's table (R289). -/
def slotOk (n : Nat) : Bool := decide (n < 64)
/-- An HBM frame (R202). -/
def frameOk (n : Nat) : Bool := decide (n < 2 ^ 19)
/-- A management core (R494). -/
def coreOk (n : Nat) : Bool := decide (n < 8)
/-- A guest site (R28). -/
def siteOk (n : Nat) : Bool := decide (n < 8)
/-- A kiln engine (R27). -/
def engineOk (n : Nat) : Bool := decide (n < 2)
/-- A round's place in the kiln (R324). -/
def roundOk (n : Nat) : Bool := decide (n < 64)
/-- A physical address (R44). -/
def paOk (n : Nat) : Bool := decide (n < 2 ^ 52)
/-- A context virtual address (R44). -/
def vaOk (n : Nat) : Bool := decide (n < 2 ^ 55)
/-- A Plarus session (R412). -/
def sessionOk (n : Nat) : Bool := decide (n < 1024)
/-- A word of a session's configuration (R414). -/
def cfgWordOk (n : Nat) : Bool := decide (n < 5)
/-- A group's handle (R424). -/
def handleOk (n : Nat) : Bool := decide (n < 65536)
/-- A Plarus port (R404). -/
def plarusPortOk (n : Nat) : Bool := decide (n < 48)
/-- A peat port (R196). -/
def slotPortOk (n : Nat) : Bool := decide (n < 4)
/-- A range register (R279). -/
def rangeOk (n : Nat) : Bool := decide (n < 16)
/-- A service class (R279). -/
def classOk (n : Nat) : Bool := decide (n < 8)
/-- A holder of translations: 0 to 63 tiles, 64 to 71 adapters, 72 to 79 guests, 80 to 86 hub blocks (R257). -/
def holderOk (n : Nat) : Bool := decide (n < 87)
/-- A caching agent: 4 * site + agent, or 32 + core (R237). -/
def agentOk (n : Nat) : Bool := decide (n < 40)
/-- An agent within a node (R44). -/
def subOk (n : Nat) : Bool := decide (n < 4)
/-- A packet's tag (R44). -/
def tagOk (n : Nat) : Bool := decide (n < 2 ^ 16)
/-- A response's status (R47). -/
def statusOk (n : Nat) : Bool := decide (n < 256)
/-- A placement region (R236). -/
def regionOk (n : Nat) : Bool := decide (n < 2 ^ 34)
/-- A channel's number in its stack, or a port's queue (R283). -/
def queueOk (n : Nat) : Bool := decide (n < 32)
/-- A PLL, by its bit of `PLL_LOCK` (R484). -/
def pllOk (n : Nat) : Bool := decide (n < 44)

/-- The fields of a header unit fit their bits (R44); inline data is at most 32 bytes. -/
def headerOk (h : Header) : Bool :=
  decide (h.ctx < 2 ^ 8) && decide (h.prio < 8) && decide (h.sclass < 8) && decide (h.opcode < 2 ^ 8) &&
  decide (h.dst < 1024) && decide (h.src < 1024) && decide (h.tag < 2 ^ 16) && decide (h.len ≤ 16) &&
  decide (h.addr < 2 ^ (if h.xlated then 52 else 55)) && decide (h.hint < 4) && decide (h.issueTs < 2 ^ 16) &&
  decide (h.beSummary < 2 ^ 16) && decide (h.dstSub < 4) && decide (h.srcSub < 4) && decide (h.opArg < 2 ^ 16) &&
  decide (h.opData < 2 ^ 64) && decide (h.inlineData.length ≤ 32)

/-- Data units hold 256 bytes and 256 enables (R50), at most 16 of them (R44). -/
def unitsOk (l : List Unit256) : Bool :=
  decide (l.length ≤ 16) && l.all (fun u => u.bytes.length == 256 && (match u.be with | none => true | some b => b.length == 256))

/-- The fields of a Plarus transport header fit their bits (R410). -/
def plrHdrOk (h : PlrHdr) : Bool :=
  decide (h.session < 2 ^ 16) && decide (h.keyPhase < 2) && decide (h.pn < 2 ^ 64) && decide (h.txTs < 2 ^ 32) &&
  decide (h.ackLargest < 2 ^ 64)

/-- A flit's sequence numbers and slots (R347). -/
def flitOk (f : Flit) : Bool := decide (f.seq < 2 ^ 12) && decide (f.ack < 2 ^ 12) && decide (f.credits.length ≤ 6) && decide (f.payload.length ≤ 256)

/-- An envelope's sequence number (R304). -/
def envelopeOk (e : Envelope) : Bool := decide (e.seq < 2 ^ 64)

end WellFormed

open WellFormed in
/-- The command's operands are in range. -/
def Instr.wellFormed (i : Instr) : Bool :=
  match i with
  | .injectHeader src _ h units => nodeOk src && headerOk h && unitsOk units
  | .routerArbitrate router out _ => tileOk router && portOk out
  | .arbitrationStarvation router out _ => tileOk router && portOk out
  | .endpointDown node _ => nodeOk node
  | .linkBeatReceive router dir _ => tileOk router && dirOk dir
  | .creditReturn _ => true
  | .responseArrival node h units _ _ => nodeOk node && headerOk h && unitsOk units
  | .registerWrite fn page off width _ => fnOk fn && pageOk page && offOk off && widthOk width
  | .badAccess fn page off _ => fnOk fn && pageOk page && offOk off
  | .unassignedAccess fn page off _ => fnOk fn && pageOk page && offOk off
  | .progressShadowRead fn page => fnOk fn && pageOk page
  | .progressUpperRead fn page => fnOk fn && pageOk page
  | .regRd fn page off width => fnOk fn && pageOk page && offOk off && readWidthOk width
  | .regWr fn page off width _ => fnOk fn && pageOk page && offOk off && widthOk width
  | .errRecord => true
  | .irqRaise => true
  | .mgmtMsg h => headerOk h
  | .mgmtBulk h units => headerOk h && unitsOk units
  | .queueReport page _ => pageOk page
  | .irqStatusClear page mask => pageOk page && wordOk mask
  | .irqForce page mask => pageOk page && wordOk mask
  | .errSummaryClear page mask => pageOk page && wordOk mask
  | .pageReset page => pageOk page
  | .opAbort page => pageOk page
  | .queuedOpStart page => pageOk page
  | .feederIssue tile _ _ _ => tileOk tile
  | .stationaryLoad tile _ _ => tileOk tile
  | .accumulatorWrite tile => tileOk tile
  | .epilogueRow tile => tileOk tile
  | .throttleWindow tile _ => tileOk tile
  | .preemptRequest tile => tileOk tile
  | .arrayDrainDone tile => tileOk tile
  | .arrayFrozen tile => tileOk tile
  | .arrayResume tile _ => tileOk tile
  | .arrayFault tile _ _ _ _ _ => tileOk tile
  | .tileFaultAsh tile => tileOk tile
  | .sramCorrected tile _ _ _ => tileOk tile
  | .tileSelfTest tile _ => tileOk tile
  | .selfTestEnd tile _ => tileOk tile
  | .draughtFreeze fn ctx => fnOk fn && ctxOk ctx
  | .draughtUnfreeze fn ctx => fnOk fn && ctxOk ctx
  | .draughtOverride fn ctx value => fnOk fn && ctxOk ctx && wordOk value
  | .draughtResetTag fn ctx => fnOk fn && ctxOk ctx
  | .ringDoorbell fn ctx ring tail => fnOk fn && ctxOk ctx && ringOk ring && wordOk tail
  | .cqDoorbell fn ctx head => fnOk fn && ctxOk ctx && wordOk head
  | .ringEnable fn ctx ring _ => fnOk fn && ctxOk ctx && ringOk ring
  | .ringDisable fn ctx ring => fnOk fn && ctxOk ctx && ringOk ring
  | .ringAbort fn ctx ring => fnOk fn && ctxOk ctx && ringOk ring
  | .ringConfigWrite fn ctx ring _ value => fnOk fn && ctxOk ctx && ringOk ring && wordOk value
  | .cqEnable fn ctx _ _ => fnOk fn && ctxOk ctx
  | .cqDisable fn ctx => fnOk fn && ctxOk ctx
  | .fenceValue fn ctx num value _ => fnOk fn && ctxOk ctx && fenceOk num && wordOk value
  | .fenceAdd fn ctx num add => fnOk fn && ctxOk ctx && fenceOk num && wordOk add
  | .descriptorFetch ctx => ctxOk ctx
  | .fenceWaitSatisfied _ => true
  | .pieceDispatch ctx exec => ctxOk ctx && executorOk exec
  | .pieceReissue ctx exec => ctxOk ctx && executorOk exec
  | .passComplete _ => true
  | .matmul _ => true
  | .attend _ => true
  | .vector _ => true
  | .reduce _ => true
  | .gather _ => true
  | .scatter _ => true
  | .histo _ => true
  | .trees _ => true
  | .convert _ => true
  | .copy _ => true
  | .layout _ => true
  | .collective _ => true
  | .kilnPut _ => true
  | .kilnTake _ => true
  | .fence _ => true
  | .emberPoint _ => true
  | .rd h => headerOk h
  | .wr h units => headerOk h && unitsOk units
  | .rdNarrow h => headerOk h
  | .wrNarrow h => headerOk h
  | .addNarrow h => headerOk h
  | .fill h _ => headerOk h
  | .writeback h units => headerOk h && unitsOk units
  | .mcRd32 h _ => headerOk h
  | .mcWr32 h _ _ => headerOk h
  | .patrolScrub pa _ => paOk pa
  | .ceThreshold channel => channelOk channel
  | .hbmTempRead stack _ => stackOk stack
  | .hbmThrottleDecision stack => stackOk stack
  | .hbmStackReturn stack => stackOk stack
  | .periodicRetrain stack => stackOk stack
  | .retrainPause channel => channelOk channel
  | .retrainOverrun channel => channelOk channel
  | .calTrimOverride stack _ _ => stackOk stack
  | .immediateRetrain stack channel => stackOk stack && channelOk channel
  | .hbmLaneCheck stack channel _ => stackOk stack && channelOk channel
  | .channelEvacuation stack channel => stackOk stack && channelOk channel
  | .evacuationDequeue => true
  | .evacBlockCopied _ _ => true
  | .evacSwitch => true
  | .placementInterval ctx => ctxOk ctx
  | .migrationCopyDone ctx => ctxOk ctx
  | .migrationInstall ctx => ctxOk ctx
  | .placeHoldHbm ctx region => ctxOk ctx && regionOk region
  | .placeHoldPeat ctx region => ctxOk ctx && regionOk region
  | .placeReleaseHold ctx region => ctxOk ctx && regionOk region
  | .wayMaskWrite ctx mask => ctxOk ctx && wordOk mask
  | .rdShared h => headerOk h
  | .rdOwn h => headerOk h
  | .upgrade h => headerOk h
  | .evictClean h => headerOk h
  | .evictDirty h units => headerOk h && unitsOk units
  | .snpShared agent pa => agentOk agent && paOk pa
  | .snpInv agent pa => agentOk agent && paOk pa
  | .snoopAnswer agent pa status _ _ _ _ => agentOk agent && paOk pa && statusOk status
  | .fillData pa status mask _ => paOk pa && statusOk status && wordOk mask
  | .coreLoad core pa => coreOk core && paOk pa
  | .coreStore core pa _ => coreOk core && paOk pa
  | .coreReplace core pa => coreOk core && paOk pa
  | .grant agent pa status _ _ _ => agentOk agent && paOk pa && statusOk status
  | .evictionAck agent pa => agentOk agent && paOk pa
  | .holdRelease agent pa => agentOk agent && paOk pa
  | .snoopAnswerTimeout agent pa => agentOk agent && paOk pa
  | .walkRd h => headerOk h
  | .pteUpdate h => headerOk h
  | .xlateReq holder sub h => holderOk holder && subOk sub && headerOk h
  | .xlateInv holder h _ => holderOk holder && headerOk h
  | .dirtySet holder sub h => holderOk holder && subOk sub && headerOk h
  | .resume holder h => holderOk holder && headerOk h
  | .countAdd h => headerOk h
  | .faultResume fn ctx _ _ => fnOk fn && ctxOk ctx
  | .invCmd fn ctx epoch signal _ => fnOk fn && ctxOk ctx && wordOk epoch && wordOk signal
  | .invComplete ctx => ctxOk ctx
  | .xlateRootWrite fn ctx _ table => fnOk fn && ctxOk ctx && wordOk table
  | .fqEnable fn ctx _ _ => fnOk fn && ctxOk ctx
  | .fqDisable fn ctx => fnOk fn && ctxOk ctx
  | .fqDoorbell fn ctx head => fnOk fn && ctxOk ctx && wordOk head
  | .faultTimeout ctx _ => ctxOk ctx
  | .guestInvLate site ctx epoch => siteOk site && ctxOk ctx && wordOk epoch
  | .rootSet ctx env word => ctxOk ctx && envelopeOk env && wordOk word
  | .invalidate ctx env base pages cmd => ctxOk ctx && envelopeOk env && wordOk base && wordOk pages && wordOk cmd
  | .sealedResume ctx env word => ctxOk ctx && envelopeOk env && wordOk word
  | .placeSet ctx env _ _ _ _ cmd => ctxOk ctx && envelopeOk env && wordOk cmd
  | .rateRecompute => true
  | .queueStarvation page queue => pageOk page && queueOk queue
  | .guaranteeWrite ctx cls gbs => ctxOk ctx && classOk cls && wordOk gbs
  | .rangeEnableWrite range cls base => rangeOk range && classOk cls && wordOk base
  | .classPoolWrite value => wordOk value
  | .slotBoundary channel slot => channelOk channel && slotOk slot
  | .sealedResponseRelease ctx tag _ => ctxOk ctx && tagOk tag
  | .ctxCreate ctx => ctxOk ctx
  | .ctxSeal ctx => ctxOk ctx
  | .ctxStart ctx => ctxOk ctx
  | .ctxPause ctx => ctxOk ctx
  | .ctxPark ctx => ctxOk ctx
  | .ctxResume ctx => ctxOk ctx
  | .ctxEnd ctx => ctxOk ctx
  | .endingAshDone ctx => ctxOk ctx
  | .coppiceTile ctx tile _ _ => ctxOk ctx && tileOk tile
  | .coppiceFrames ctx _ _ _ => ctxOk ctx
  | .coppiceWays ctx _ _ _ => ctxOk ctx
  | .coppiceSite ctx site _ => ctxOk ctx && siteOk site
  | .coppiceSession ctx session _ => ctxOk ctx && sessionOk session
  | .coppiceKilnRound ctx handle _ => ctxOk ctx && handleOk handle
  | .coppiceStepDone ctx => ctxOk ctx
  | .keyExchange ctx env _ _ => ctxOk ctx && envelopeOk env
  | .tenantStart ctx env => ctxOk ctx && envelopeOk env
  | .reportReq ctx env _ => ctxOk ctx && envelopeOk env
  | .tenantEnd ctx env => ctxOk ctx && envelopeOk env
  | .parkSet ctx env word => ctxOk ctx && envelopeOk env && wordOk word
  | .windowRekey ctx env _ _ => ctxOk ctx && envelopeOk env
  | .logReq ctx env _ => ctxOk ctx && envelopeOk env
  | .outAckRelease fn ctx _ => fnOk fn && ctxOk ctx
  | .ashFrames h => headerOk h
  | .ashInval h => headerOk h
  | .ashSram h => headerOk h
  | .ashXlate h => headerOk h
  | .ashWays h => headerOk h
  | .kilnPoolAdd engine first => engineOk engine && frameOk first
  | .kilnPoolRemove engine first => engineOk engine && frameOk first
  | .kilnJoin ctx env _ => ctxOk ctx && envelopeOk env
  | .kilnQuery ctx env _ => ctxOk ctx && envelopeOk env
  | .klnSig h units => headerOk h && unitsOk units
  | .klnOpen h => headerOk h
  | .klnPart h units => headerOk h && unitsOk units
  | .klnPartEnd h => headerOk h
  | .klnRel h units => headerOk h && unitsOk units
  | .klnRelEnd h => headerOk h
  | .klnNotice h => headerOk h
  | .kilnCommit engine => engineOk engine
  | .kilnNoiseDone slot => roundOk slot
  | .kilnDeadline slot => roundOk slot
  | .kilnMargin slot => roundOk slot
  | .kilnWaitExpiry slot => roundOk slot
  | .kilnRetainExpiry slot => roundOk slot
  | .kilnSigResend slot => roundOk slot
  | .kilnRoundAshDone slot => roundOk slot
  | .idle site f => siteOk site && flitOk f
  | .packet site _ f => siteOk site && flitOk f
  | .mgmt site f => siteOk site && flitOk f
  | .kppAckTimer site => siteOk site
  | .kppRetrain site => siteOk site
  | .hello site _ => siteOk site
  | .spdm site _ => siteOk site
  | .clearDone site _ => siteOk site
  | .paused site => siteOk site
  | .pieceBeat site _ => siteOk site
  | .pieceDone site _ _ _ _ _ => siteOk site
  | .regRsp site _ => siteOk site
  | .pwrAck site _ => siteOk site
  | .kppError site _ _ => siteOk site
  | .guestRegAccess fn site off width _ _ => fnOk fn && siteOk site && offOk off && widthOk width
  | .guestRegTimeout site => siteOk site
  | .pieceBeatTimeout site => siteOk site
  | .stopBoundTimeout site => siteOk site
  | .clearBoundTimeout site => siteOk site
  | .spdmTimeout site => siteOk site
  | .siteStartTimeout site => siteOk site
  | .laneFailure site _ dir _ => siteOk site && dirOk dir
  | .siteReturn site _ => siteOk site
  | .siteAttest site _ => siteOk site
  | .siteLaneCheck site _ _ _ _ => siteOk site
  | .siteRailGood site _ => siteOk site
  | .siteResetRelease site => siteOk site
  | .siteOvercurrent site => siteOk site
  | .siteUndervoltage site => siteOk site
  | .gsTherm site => siteOk site
  | .siteIdle site => siteOk site
  | .configRequest _ _ fn _ off _ _ _ => fnByteOk fn && cfgOffOk off
  | .pf0ApertureAccess _ _ _ _ _ _ _ => true
  | .vfApertureAccess _ fn _ _ _ _ _ _ => fnOk fn
  | .inboundUnsupported fn _ _ => fnOk fn
  | .ptRd port h _ => slotPortOk port && headerOk h
  | .ptWr port h units _ => slotPortOk port && headerOk h && unitsOk units
  | .ptRdNarrow port h _ => slotPortOk port && headerOk h
  | .ptWrNarrow port h _ => slotPortOk port && headerOk h
  | .ptAddNarrow port h _ => slotPortOk port && headerOk h
  | .hmRd h => headerOk h
  | .hmWr h units => headerOk h && unitsOk units
  | .hmRdNarrow h => headerOk h
  | .hmWrNarrow h => headerOk h
  | .hmAddNarrow h => headerOk h
  | .hmFlush h => headerOk h
  | .hostCompletion _ _ _ _ _ _ => true
  | .completionTimeout _ => true
  | .tagQuarantineEnd _ => true
  | .hotReset => true
  | .hostLinkDown => true
  | .pf0Flr => true
  | .vfFlr fn => fnOk fn
  | .vfEnableClear => true
  | .numvfsWrite value => wordOk value
  | .barResize _ => true
  | .ideIntegrityFailure _ => true
  | .ptmRequest _ => true
  | .doeRequest _ => true
  | .doeAbort => true
  | .msixUnmask fn _ => fnOk fn
  | .peatEnterService port _ => slotPortOk port
  | .peatFrameAshed port => slotPortOk port
  | .peatRemoval port => slotPortOk port
  | .surpriseRemoval port _ => slotPortOk port
  | .presenceChange port _ => slotPortOk port
  | .attnButton port => slotPortOk port
  | .peatRequestTimeout port => slotPortOk port
  | .expanderEvent port => slotPortOk port
  | .portModeWrite port _ => plarusPortOk port
  | .portLinkDown port => plarusPortOk port
  | .portLinkUp port => plarusPortOk port
  | .portRetrain port => plarusPortOk port
  | .retrainDrainDone port _ => plarusPortOk port
  | .frameReceive port _ _ _ _ _ => plarusPortOk port
  | .data h _ hd units => plrHdrOk h && headerOk hd && unitsOk units
  | .ack h => plrHdrOk h
  | .init _ => true
  | .resp session _ => sessionOk session
  | .rekey h _ _ => plrHdrOk h
  | .rekeyAck h _ _ => plrHdrOk h
  | .fin h => plrHdrOk h
  | .finAck h => plrHdrOk h
  | .initResend session => sessionOk session
  | .handshakeTimeout session => sessionOk session
  | .rtoExpiry session _ => sessionOk session
  | .transportAckTimer session => sessionOk session
  | .ccUpdate session => sessionOk session
  | .closingTimeout session => sessionOk session
  | .rekeyTrigger session => sessionOk session
  | .keyLimit session => sessionOk session
  | .oldPhaseExpiry session => sessionOk session
  | .rmRd _ session h => sessionOk session && headerOk h
  | .rmWr _ session h units => sessionOk session && headerOk h && unitsOk units
  | .rmRd32 _ session h => sessionOk session && headerOk h
  | .rmWr32 _ session h => sessionOk session && headerOk h
  | .collData session group _ _ _ _ _ units => sessionOk session && handleOk group && unitsOk units
  | .kilnSessionBind _ => true
  | .kilnSessionRelease _ => true
  | .sessionCfgWrite session word value => sessionOk session && cfgWordOk word && wordOk value
  | .groupCfgWrite handle value => handleOk handle && wordOk value
  | .ppsInEdge _ => true
  | .ppsMissed => true
  | .holdoverEntry => true
  | .lockAchieved => true
  | .phaseJump => true
  | .timebaseStep => true
  | .timeEpoch => true
  | .tbSet _ _ => true
  | .tbCapture => true
  | .tbSourceWrite _ => true
  | .ptpMessage port _ _ _ => plarusPortOk port
  | .ptpSyncTimer port => plarusPortOk port
  | .guestTimeMessage site => siteOk site
  | .ppsOutPulse _ => true
  | .extend _ _ => true
  | .rollbackCommit _ arg => wordOk arg
  | .transition _ _ => true
  | .debugPolicy _ => true
  | .revokeKey _ => true
  | .debugToken _ => true
  | .otpProgram _ => true
  | .getCert _ => true
  | .debugErase => true
  | .debugNewNonce => true
  | .powerOn => true
  | .vauxLoss => true
  | .perstAssert => true
  | .railLoss _ => true
  | .railsRestored => true
  | .bringupStep _ => true
  | .pllLockLoss pll => pllOk pll
  | .pllRelock pll => pllOk pll
  | .tileSetpointLoop tile _ => tileOk tile
  | .droopDetect tile => tileOk tile
  | .powerLimitDecision _ _ => true
  | .tileIdleGate tile => tileOk tile
  | .periodicSelfTest => true
  | .tempSample _ => true
  | .errlogEnable _ => true
  | .errlogDisable => true
  | .errlogDoorbell head => wordOk head
  | .errqEnable ctx _ _ => ctxOk ctx
  | .errqDisable ctx => ctxOk ctx
  | .errqDoorbell ctx head => ctxOk ctx && wordOk head
  | .errLatchClear => true
  | .watchdogExpiry core => coreOk core
  | .coreRestart core => coreOk core
  | .coreRestartDone core _ => coreOk core
  | .emberJournalStart ctx => ctxOk ctx
  | .emberJournalStop ctx => ctxOk ctx
  | .emberPromoteOp ctx => ctxOk ctx
  | .emberSet ctx env cfg log => ctxOk ctx && envelopeOk env && wordOk cfg && wordOk log
  | .emberStart ctx env => ctxOk ctx && envelopeOk env
  | .emberStop ctx env => ctxOk ctx && envelopeOk env
  | .emberPromote ctx env => ctxOk ctx && envelopeOk env
  | .emberStream ctx va => ctxOk ctx && vaOk va
  | .embData h units => headerOk h && unitsOk units
  | .embState h units => headerOk h && unitsOk units
  | .embCommit h => headerOk h
  | .embAck h => headerOk h
  | .emberApply ctx => ctxOk ctx
  | .i3cMctpMessage _ => true
  | .jtagInstruction _ => true
  | .perstDeassert => true
  | .hostLinkUp _ _ _ => true
  | .siteSidebandUp site => siteOk site
  | .siteLinkTrained site _ _ _ _ => siteOk site
  | .ref10mInChange _ => true
  | .coreSramError core => coreOk core
  | .inPostDiscard ctx env => ctxOk ctx && envelopeOk env
  | .retrainEnd channel _ _ => channelOk channel
  | .peatIdeFailure port => slotPortOk port

end Sys2Proof
end

