-- ==== Sys2Proof/Tests/Slice0.lean ====
section
/-! SUPPORT. The model's own tests: what each statement assumes holds somewhere, each check of well-formedness refuses an
ill-formed command, and small commands have the effect that the spec writes out. -/

set_option Elab.async false
set_option maxRecDepth 20000

open Sys2Proof Sys2Proof.Machine

/-- A state after reset with register fields set: page, field, value. -/
def wst (l : List (Nat × Field × Nat)) : State := l.foldl (fun s x => setFld x.1 x.2.1 x.2.2 s) State.reset

/-- The same with one tile's parts. -/
def wtile (n : Nat) (t : TileSt) (l : List (Nat × Field × Nat)) : State := setTile n t (wst l)

/-- The same with one context's parts. -/
def wctx (k : Nat) (c : CtxSt) (l : List (Nat × Field × Nat)) : State := setCtx k c (wst l)

/-- A pass over an array, at its first row. -/
def warr : ArrayPass := { passId := 0, fmtA := 0, fmtB := 0, sat := false, rows := 4, cols := 4, kBlocks := 1 }

/-- A pass of context 1 without a descriptor worth the name. -/
def wpass : Pass := { ctx := 1, id := 0, ring := 0, index := 0, words := [] }

/-- One table that maps page 0 of a context onto itself, readable and writable: frame 0 holds the entry 7 at address 0. -/
def wmapOf (c : Nat) (l : List (Nat × Field × Nat)) : State :=
  { wst ((pageWin c 0, Reg.XLATE_ROOT_VALID, 1) :: l) with mem := { cells := [(0, 7)], frames := [(0, { ctx := c, state := .owned })] } }
def wmap : List (Nat × Field × Nat) → State := wmapOf 0

/-- An envelope that a fresh window session 5 accepts. -/
def wenv : Envelope := { posted := 48, seq := 1, session := 5 }

/-- Context 63 with that session. -/
def wwin (l : List (Nat × Field × Nat)) : State := wctx 63 { session := 5 } l

/-- A round in slot 63 of the kiln, in a state. -/
def wround (st : Nat) (due : Bool) : State :=
  { State.reset with kiln := { rounds := [(63, { handle := 1, policy := [], digest := 0, st := st, due := due })] } }

/-- Site 7 with parts and link state. -/
def wsite (link : Nat) (x : SiteSt) : State := { wst [(pageSite 7, Reg.SITE_STATE_LINK, link)] with sites := [(7, x)] }

/-- The body of a `HELLO` of a guest that is memory only. -/
def whello : List Byte :=
  leBytes 2 1 ++ leBytes 1 2 ++ leBytes 9 0 ++ leBytes 4 1 ++ leBytes 4 1 ++ leBytes 16 0 ++ leBytes 4 1 ++
    [16, 64, 16, 32, 128, 8].flatMap (leBytes 2) ++ leBytes 12 0

/-- Power at work, at a bring-up step. -/
def wstep (n : Nat) (p : Power) : State := { wst [(resetPage, Reg.RESET_BRINGUP_STEP, n)] with power := p }

/-- A fault of context 63, and an invalidation of its. -/
def wfault : FaultSt := { ctx := 63, id := 255, page := 0, code := 1, level := 0, entry := 0, seq := 1, units := [] }
def winv : Inval := { ctx := 63, epoch := 1, base := 0, pages := 1, waiting := [] }

/-- A migration of context 63. -/
def wmig : Migration := { ctx := 63, region := 0, frameA := 0, frameB := 1, promote := true }

/-- Session 1023 with its parts. -/
def wsess (x : Session) : State := { State.reset with plr := { sessions := [(1023, x)] } }

/-- A packet of session 1023 that its receiver accepts. -/
def wplr : PlrHdr := { session := 1023, pn := 1 }

/-- A line of the hub cache at address 0, and the state that holds it. -/
def wline (dir : Nat) (excl : Bool) : Line := { pa := 0, way := 0, ctx := 0, valid := 15, data := List.replicate 128 1, dir := dir, excl := excl }
def wcache (dir : Nat) (excl : Bool) (h : HomeLine) : State :=
  { State.reset with cache := [(0, [wline dir excl])], coh := { homes := if h = {} then [] else [(0, h)] } }

/-- A request of management core 0, and the node it sends from. -/
def wcore : Header := { src := 648, xlated := true }

/-- An agent's line at address 0. -/
def wagent (a : Nat) (x : AgState) : State := { wst [(pageCore (a - 32), Reg.CORE_STATE_STATE, 1)] with coh := { agents := [(agKey a 0, { state := x })] } }

/-- Configuration space of a host that has enabled everything: PF0's memory and mastering, 63 VFs. -/
def wcfg : HostSt := { cfg := [(0x04, 6), (0x268, 9), (0x270, 63)] }

/-- A request to host memory, one to peat port 3, and the state in which port 3's first frame is context 0's. -/
def whost : Header := { addr := 2 ^ 51, xlated := true }
def wpeat : Header := { addr := 2 ^ 48 + 3 * 2 ^ 42, xlated := true }
def wpeats : State := { State.reset with mem := { frames := [(2 ^ 27 + 3 * 2 ^ 21, { ctx := 0, state := .owned })] } }

/-- A flit with four slots of zeros. -/
def wflit : Flit := { validSlots := 4, payload := List.replicate 236 0 }

/-- Two ports up, and a forwarding entry to the second. -/
def wswitch : State :=
  { wst [(pagePort 47, Reg.PORT_STATUS_UP, 1), (pagePort 46, Reg.PORT_STATUS_UP, 1), (plarusPage, Reg.SWITCH_CTRL_ENABLE, 1)] with
    plr := { fwd := [(0, { mac := 5, valid := true, ports := 2 ^ 46 })] } }
theorem wswitch_egress : egressPort wswitch { dst := 5 } = some 46 := by
  have h1 : (!flag wswitch plarusPage Reg.SWITCH_CTRL_ENABLE) = false := by decide
  have h2 : wswitch.plr.fwd.find? (fun e => e.2.valid && e.2.mac == 5) = some (0, { mac := 5, valid := true, ports := 2 ^ 46 }) := by decide
  have h3 : (setBits (2 ^ 46) 48).filter (forwards wswitch) = [46] := by decide +kernel
  simp only [egressPort, h1, h2, h3]
  simp [Nat.mod_one]

/-- The result is a value. -/
def wisOk {ε α : Type} : Except ε α → Bool
  | .ok _ => true
  | .error _ => false
theorem wok {ε α : Type} {r : Except ε α} (h : wisOk r = true) : ∃ u, r = .ok u := by
  cases r with
  | ok u => exact ⟨u, rfl⟩
  | error e => exact absurd h (by simp [wisOk])

/-- Context 1's table of one page, and a host. -/
def wvirt : State := { wmapOf 1 [(pageCtx 1, Reg.CTX_STATUS_STATE, 4)] with host := wcfg }

/-- An ash command of management core 0 to one frame, and the state in which that frame is ashing. -/
def wash : Header := { ctx := 0xFF, prio := 7, src := 648, xlated := true, opData := 1 }
def wghost : State := { State.reset with mem := { frames := [(0, { ctx := 0, state := .ashing })] } }

/-- Context 1 at work with a mapped page 0 and a pass of class `FENCE`. -/
def wfencePass : Pass := { wpass with words := [15], phase := .ready }
def wfence : State := { wmapOf 1 [(pageCtx 1, Reg.CTX_STATUS_STATE, 2)] with passes := [wfencePass] }

/-- Frame 0 of context 1, with both lines of the first granule in the cache and no agent listed. -/
def wpair : List Line := [{ pa := 0, way := 0, ctx := 1, valid := 15, data := List.replicate 128 1 }]
def wpair' : List Line := [{ pa := 128, way := 1, ctx := 1, valid := 15, data := List.replicate 128 1 }]
def whome : State := { wmapOf 1 [] with cache := [(0, wpair), (1, wpair')] }

/-- A partner: context 1 receives journal 5 over session 0, its log in its mapped page. -/
def wpart : State :=
  { wmapOf 1 [(pageCtx 1, Reg.EMBER_CFG_ROLE, 2), (pageCtx 1, Reg.EMBER_STATUS2_JOURNAL_ID, 5), (pageCtx 1, Reg.EMBER_STATUS_STATE, 6)] with
    plr := { sessions := [(0, { st := 2, ctx := 1 })] }
    ember := [(1, { log := [{ cut := 0, va := 0, off := 0, len := 1 }] })] }

/-- Context 1 at work with an entry pending in ring 15. -/
def wring : State :=
  wmapOf 1 [(pageCtx 1, Reg.CTX_STATUS_STATE, 2), (pageWin 1 0, Reg.CQ_CFG_ENABLE, 1), (pageWin 1 0, Reg.CQ_CFG_LOG2_SIZE, 6),
    (pageWin 1 0, Reg.RING_CFG_ENABLE.at 32 15, 1), (pageWin 1 0, Reg.RING_CFG_LOG2_SIZE.at 32 15, 6), (pageWin 1 0, Reg.RING_STATUS_TAIL.at 32 15, 1)]

/-- Passes of contexts 1 and 63: one without operands, one ended, a copy of four rows of four bytes and a piece of it. -/
def wfull : Pass := { wpass with words := [15 + 2 ^ 56] }
def wendedPass : Pass := { wpass with words := [15], phase := .ended }
def wended : State := { wmapOf 1 [(pageCtx 1, Reg.CTX_STATUS_STATE, 2)] with passes := [wendedPass] }
def wcopy (ph : PassPhase) (l : List Piece) : Pass :=
  { wpass with
    ctx := 63, words := [10], phase := ph, pieces := l
    tds := [none, some [0, 0, 0, 4 + 4 * 2 ^ 32, 1 + 2 ^ 32, 0, 0, 0]] }
def wpiece : Piece := { id := 0, row0 := 0, rows := 1, col0 := 0, cols := 4, exec := 0, state := .waiting, reissue := true }
def wexec (p : Pass) : State :=
  { wst [(pageCtx 63, Reg.CTX_STATUS_STATE, 2), (pageTile 63, Reg.BINDING_STATE, 1), (pageTile 63, Reg.BINDING_CTX, 63),
      (pageTile 63, Reg.ARRAY_STATE_STATE, 1)] with passes := [p] }

theorem ofBytes_leBytes (n v : Nat) : ofBytes (leBytes n v) = v % 256 ^ n := by
  induction n generalizing v with
  | zero => simp [leBytes, ofBytes, Nat.mod_one]
  | succ n ih =>
    simp only [leBytes, ofBytes, ih, BitVec.toNat_ofNat]
    rw [show 256 ^ (n + 1) = 256 * 256 ^ n from pow_succ' _ _, Nat.mod_mul]
theorem slice_middle (a m b : List Byte) : slice (a ++ m ++ b) a.length m.length = m := by
  apply List.ext_getElem
  · simp [slice]
  · intro i h1 h2
    simp only [slice, List.getElem_map, List.getElem_range]
    rw [List.append_assoc, List.drop_append]
    simp [List.headD_eq_head?_getD, List.head?_drop, List.getElem?_append_left, h2]
theorem leBytes_length (n v : Nat) : (leBytes n v).length = n := by
  induction n generalizing v with
  | zero => rfl
  | succ n ih => simp [leBytes, ih]

/-- A policy of two hubs and two parties whose first hub is this one and whose lead is given: what stands before its key. -/
def wpre (lead : Nat) : List Byte :=
  [1, 0, 2, 1, 1, 2, BitVec.ofNat 8 lead, 0, 64, 0, 0, 0, 0, 0, 0, 0, 0, 0, 128, 63, 0, 0, 0, 0, 2] ++ List.replicate 11 0 ++
    [1, 0, 0, 0, 1, 0, 0, 0, 1] ++ List.replicate 35 0
def wpost : List Byte := List.replicate 240 0 ++ [1, 63, 1, 0] ++ List.replicate 140 0 ++ [0, 63, 1, 0] ++ List.replicate 140 0
def wpol (lead : Nat) : List Byte := wpre lead ++ leBytes 16 (keyIdOf (attestKey State.reset)) ++ wpost

theorem wpol_key (lead : Nat) : polHubKey (wpol lead) 0 = keyIdOf (attestKey State.reset) := by
  have h : slice (wpol lead) 80 16 = leBytes 16 (keyIdOf (attestKey State.reset)) := by
    have := slice_middle (wpre lead) (leBytes 16 (keyIdOf (attestKey State.reset))) wpost
    rwa [leBytes_length, show (wpre lead).length = 80 from rfl] at this
  show ofBytes (slice (wpol lead) 80 16) = _
  rw [h, ofBytes_leBytes]
  exact Nat.mod_eq_of_lt (Nat.mod_lt _ (by decide))
theorem wpol_second (lead : Nat) : polHubKey (wpol lead) 1 = 0 := by
  have h : slice (wpol lead) 96 16 = List.replicate 16 0 := by
    have := slice_middle (wpre lead ++ leBytes 16 (keyIdOf (attestKey State.reset))) (List.replicate 16 0) (wpost.drop 16)
    rw [List.length_append, leBytes_length, show (wpre lead).length = 80 from rfl] at this
    exact this
  show ofBytes (slice (wpol lead) 96 16) = _
  rw [h]
  decide
theorem wpol_local (lead : Nat) (s : State) (h : s.heart = State.reset.heart) : localHub s (wpol lead) = some 0 := by
  have e : attestKey s = attestKey State.reset := by simp [attestKey, attestSecret, h]
  have n : polHubs (wpol lead) = 2 := rfl
  simp only [localHub, n, e, List.range_succ, List.range_zero]
  simp [wpol_key]
/-- A round of that policy in slot 63, in a state, and a kiln session of its other hub. -/
def wkiln (lead st : Nat) (staging : Tab (List Nat)) : State :=
  { State.reset with
    kiln := { rounds := [(63, { handle := 127, policy := wpol lead, digest := 0, st := st, staging := staging })]
              pools := [(1, [380927, 380926])] }
    plr := { sessions := [(1023, { kiln := true, ctx := 0xFE, st := 2 })] } }
theorem wkiln_from (lead st : Nat) (g : Tab (List Nat)) (h : Header) (e : h.inlineData = []) (e' : h.opArg = 1023) :
    kilnFrom (wkiln lead st g) h 63 1 := by
  have k : kround (wkiln lead st g) 63 = { handle := 127, policy := wpol lead, digest := 0, st := st, staging := g } := rfl
  refine ⟨?_, ?_, ?_, ?_⟩
  · rw [e]
    have f : (fun i => (kround (wkiln lead st g) i).handle != 0 && digestHead (kround (wkiln lead st g) i).digest == slice [] 0 32)
        = fun i => decide (i = 63) := by
      funext i
      by_cases h : i = 63
      · subst h
        rw [k]
        show ((127 : Nat) != 0 && digestHead 0 == slice [] 0 32) = _
        decide
      · have n : kround (wkiln lead st g) i = noRound := by
          simp only [kround, wkiln, Tab.get]
          rw [if_neg (Ne.symm h)]
          split <;> rfl
        simp [n, noRound, h]
    show (List.range 64).find? _ = _
    rw [f]
    decide
  · rw [e']; rfl
  · rw [e']; rfl
  · rw [k, e']
    have o : otherHubs (wkiln lead st g) { handle := 127, policy := wpol lead, digest := 0, st := st, staging := g } = [1] := by
      have n : polHubs (wpol lead) = 2 := rfl
      simp only [otherHubs, wpol_local lead (wkiln lead st g) rfl, n]
      decide
    have v : (session (wkiln lead st g) (1023 % 1024)).verified = 0 := rfl
    simp [o, v, wpol_second]
theorem wkiln_lead (st : Nat) (g : Tab (List Nat)) : isLead (wkiln 0 st g) (kround (wkiln 0 st g) 63) = true := by
  show (localHub (wkiln 0 st g) (wpol 0) == some (polLead (wpol 0))) = true
  rw [wpol_local 0 (wkiln 0 st g) rfl]
  rfl
/-- A context that may join, and the parties it finds. -/
def wjoin : State :=
  { wctx 63 { session := 5 } [(0x005, Reg.TB_STATE_STATE, 2)] with kiln := { pools := [(1, [380927, 380926])] } }
def wjoinBody : List Byte := wpol 0 ++ List.replicate 132 0
theorem wjoin_ok (hv : ∀ k m g, Config.ecdsaVerify k m g = true) : joinCheck 63 wjoinBody wjoin = .ok 1 := by
  have t : wjoinBody.take (336 + 144 * leAt wjoinBody 2 1) = wpol 0 := by
    show (wpol 0 ++ List.replicate 132 0).take (wpol 0).length = _
    simp
  have p : policyOk (wpol 0) = true := by decide +kernel
  have l : wjoinBody.length = 336 + 144 * leAt wjoinBody 2 1 + 132 := rfl
  have f : (polPartyList (wpol 0)).find? (fun e => e.2.hub == 0 && e.2.ctx == 63) = some (1, polParty (wpol 0) 1) := by decide +kernel
  have d : (decide (polDeadline (wpol 0) < nowNs wjoin + 10 ^ 9) || !timeSure wjoin) = false := by decide +kernel
  have r : ∀ x, roundOfDigest wjoin x = none := by intro x; rfl
  have g : (roundEngine wjoin (polFrames (wpol 0))).isNone = false := by decide +kernel
  simp only [Bool.or_eq_false_iff, decide_eq_false_iff_not] at d
  simp only [joinCheck, t, p, l, wpol_local 0 wjoin rfl, f, hv, r, g, d]
  simp

/-- A pass of a class with one piece running on tile 63 and six tensors of one element each, and the state it runs in. -/
def wclass (c : Nat) : Pass :=
  { wpass with
    words := [c], phase := .running, placed := 1
    pieces := [{ id := 0, row0 := 0, rows := 1, col0 := 0, cols := 1, exec := 63, state := .running }]
    tds := (List.range 6).map (fun i => some [0, 4096 * (i + 1), 0, 1 + 2 ^ 32, 1 + 2 ^ 32, 0, 0, 0]) }
def wwork (c : Nat) : State :=
  { wmapOf 1 [(pageCtx 1, Reg.CTX_STATUS_STATE, 2)] with
    passes := [wclass c], xlate := { holders := [(63, [{ ctx := 1, va := 0, size := 0, pa := 0, read := true, write := true, hint := 0, dirty := 1 }])] } }

/-- What a class's statement assumes of a pass. -/
def classMeets (c : Nat) (f : State → Pass → Except UnitErr ClassOut) : Prop :=
  ∃ (p : Pass) (us : List (Nat × List Byte)) (g : Gathered) (s u : State), pass s 0 = some p ∧ p.opclass = c ∧
    p.phase = .running ∧ classReady p = true ∧ p.computed = false ∧ ctxState s p.ctx = 2 ∧ passStalled s p = false ∧
    f s p = .ok (us, g) ∧
    writeUnits (((p.nativePieces.filter (fun q => q.state == .running)).map (fun q => q.exec)).headD 0) p.ctx us
      ((operandSpans s p).foldl
        (spansRead (((p.nativePieces.filter (fun q => q.state == .running)).map (fun q => q.exec)).headD 0) p) s) = .ok u

/-- What a class writes, or nothing where it fails. -/
def wclassOut (c : Nat) (f : State → Pass → Except UnitErr ClassOut) : List (Nat × List Byte) :=
  match f (wwork c) (wclass c) with | .ok x => x.1 | .error _ => []

theorem spansRead_zero (hf : ∀ n, Config.freeNat n = 0) (h : Nat) (p : Pass) :
    spansRead h p = fun s l => l.foldl (fun s e => accessed h p.ctx e.1 e.2 false s) s := by
  funext s l
  simp only [spansRead, drawn, hf]
  split
  · rfl
  · simp [countBytes]

theorem classMeets_of (hf : ∀ n, Config.freeNat n = 0) (c : Nat) (f : State → Pass → Except UnitErr ClassOut)
    (h0 : ctxState (wwork c) 1 = 2) (h : pass (wwork c) 0 = some (wclass c) ∧ (wclass c).opclass = c ∧ classReady (wclass c) = true ∧
      passStalled (wwork c) (wclass c) = false)
    (h1 : wisOk (f (wwork c) (wclass c)) = true)
    (h2 : wisOk (writeUnits 63 1 (wclassOut c f) ((operandSpans (wwork c) (wclass c)).foldl
        (fun s l => l.foldl (fun s e => accessed 63 1 e.1 e.2 false s) s) (wwork c))) = true) : classMeets c f := by
  obtain ⟨⟨us, g⟩, e⟩ := wok h1
  obtain ⟨u, w⟩ := wok h2
  have o : wclassOut c f = us := by simp [wclassOut, e]
  refine ⟨wclass c, us, g, wwork c, u, h.1, h.2.1, rfl, h.2.2.1, rfl, h0, h.2.2.2, e, ?_⟩
  rw [spansRead_zero hf, ← o]
  exact w

theorem works_matmul (hf : ∀ n, Config.freeNat n = 0) : classMeets 1 matmul :=
  classMeets_of hf 1 matmul (by decide +kernel) (by decide +kernel) (by decide +kernel) (by decide +kernel)
theorem works_attend (hf : ∀ n, Config.freeNat n = 0) : classMeets 2 attend :=
  classMeets_of hf 2 attend (by decide +kernel) (by decide +kernel) (by decide +kernel) (by decide +kernel)
theorem works_vector (hf : ∀ n, Config.freeNat n = 0) : classMeets 3 vector :=
  classMeets_of hf 3 vector (by decide +kernel) (by decide +kernel) (by decide +kernel) (by decide +kernel)
theorem works_reduce (hf : ∀ n, Config.freeNat n = 0) : classMeets 4 reduce :=
  classMeets_of hf 4 reduce (by decide +kernel) (by decide +kernel) (by decide +kernel) (by decide +kernel)
theorem works_gatherClass (hf : ∀ n, Config.freeNat n = 0) : classMeets 5 gatherClass :=
  classMeets_of hf 5 gatherClass (by decide +kernel) (by decide +kernel) (by decide +kernel) (by decide +kernel)
theorem works_scatter (hf : ∀ n, Config.freeNat n = 0) : classMeets 6 scatter :=
  classMeets_of hf 6 scatter (by decide +kernel) (by decide +kernel) (by decide +kernel) (by decide +kernel)
theorem works_histo (hf : ∀ n, Config.freeNat n = 0) : classMeets 7 histo :=
  classMeets_of hf 7 histo (by decide +kernel) (by decide +kernel) (by decide +kernel) (by decide +kernel)
theorem works_trees (hf : ∀ n, Config.freeNat n = 0) : classMeets 8 trees :=
  classMeets_of hf 8 trees (by decide +kernel) (by decide +kernel) (by decide +kernel) (by decide +kernel)
theorem works_convertClass (hf : ∀ n, Config.freeNat n = 0) : classMeets 9 convertClass :=
  classMeets_of hf 9 convertClass (by decide +kernel) (by decide +kernel) (by decide +kernel) (by decide +kernel)
theorem works_copyClass (hf : ∀ n, Config.freeNat n = 0) : classMeets 10 copyClass :=
  classMeets_of hf 10 copyClass (by decide +kernel) (by decide +kernel) (by decide +kernel) (by decide +kernel)
theorem works_layout (hf : ∀ n, Config.freeNat n = 0) : classMeets 11 layout :=
  classMeets_of hf 11 layout (by decide +kernel) (by decide +kernel) (by decide +kernel) (by decide +kernel)

/-- What `ClassesOfTiles` assumes holds somewhere, whatever the free values are but for bytes counted beyond one reading. -/
theorem witness_ClassesOfTiles (hf : ∀ n, Config.freeNat n = 0) :
    classMeets 1 matmul ∧ classMeets 2 attend ∧ classMeets 3 vector ∧ classMeets 4 reduce ∧ classMeets 5 gatherClass ∧
    classMeets 6 scatter ∧ classMeets 7 histo ∧ classMeets 8 trees ∧ classMeets 9 convertClass ∧ classMeets 10 copyClass ∧
    classMeets 11 layout :=
  ⟨works_matmul hf, works_attend hf, works_vector hf, works_reduce hf, works_gatherClass hf, works_scatter hf, works_histo hf,
    works_trees hf, works_convertClass hf, works_copyClass hf, works_layout hf⟩

/-- Each of these checks refuses a command: `headerOk`, `unitsOk`, `plrHdrOk`, `nodeOk`, `tileOk`, `portOk`, `dirOk`, `ctxOk`, `fnOk`, `fnByteOk`. -/
theorem test_ill_formed_1 :
    Instr.wellFormed (.injectHeader 0 .req ({ dst := 1024 }) []) = false ∧
    Instr.wellFormed (.injectHeader 0 .req {} ([{ bytes := [] }])) = false ∧
    Instr.wellFormed (.data ({ session := 2 ^ 16 }) .req {} []) = false ∧
    Instr.wellFormed (.injectHeader 1024 .req {} []) = false ∧
    Instr.wellFormed (.routerArbitrate 64 0 .req) = false ∧
    Instr.wellFormed (.routerArbitrate 0 16 .req) = false ∧
    Instr.wellFormed (.linkBeatReceive 0 4 .clean) = false ∧
    Instr.wellFormed (.draughtFreeze 0 64) = false ∧
    Instr.wellFormed (.registerWrite 64 0 0 8 0) = false ∧
    Instr.wellFormed (.configRequest none 0 256 0 0 false 0 0) = false := by decide

/-- Each of these checks refuses a command: `pageOk`, `offOk`, `cfgOffOk`, `wordOk`, `widthOk`, `readWidthOk`, `ringOk`, `executorOk`, `fenceOk`, `stackOk`. -/
theorem test_ill_formed_2 :
    Instr.wellFormed (.registerWrite 0 (0x500) 0 8 0) = false ∧
    Instr.wellFormed (.registerWrite 0 0 (0x10000) 8 0) = false ∧
    Instr.wellFormed (.configRequest none 0 0 0 (0x1000) false 0 0) = false ∧
    Instr.wellFormed (.irqStatusClear 0 (2 ^ 64)) = false ∧
    Instr.wellFormed (.registerWrite 0 0 0 2 0) = false ∧
    Instr.wellFormed (.regRd 0 0 0 66) = false ∧
    Instr.wellFormed (.ringDoorbell 0 0 16 0) = false ∧
    Instr.wellFormed (.pieceDispatch 0 72) = false ∧
    Instr.wellFormed (.fenceValue 0 0 64 0 false) = false ∧
    Instr.wellFormed (.hbmTempRead 12 none) = false := by decide

/-- Each of these checks refuses a command: `channelOk`, `slotOk`, `frameOk`, `coreOk`, `siteOk`, `engineOk`, `roundOk`, `paOk`, `vaOk`, `sessionOk`. -/
theorem test_ill_formed_3 :
    Instr.wellFormed (.ceThreshold 384) = false ∧
    Instr.wellFormed (.slotBoundary 0 64) = false ∧
    Instr.wellFormed (.kilnPoolAdd 0 (2 ^ 19)) = false ∧
    Instr.wellFormed (.coreLoad 8 0) = false ∧
    Instr.wellFormed (.guestInvLate 8 0 0) = false ∧
    Instr.wellFormed (.kilnPoolAdd 2 0) = false ∧
    Instr.wellFormed (.kilnNoiseDone 64) = false ∧
    Instr.wellFormed (.patrolScrub (2 ^ 52) .clean) = false ∧
    Instr.wellFormed (.emberStream 0 (2 ^ 55)) = false ∧
    Instr.wellFormed (.coppiceSession 0 1024 0) = false := by decide

/-- Each of these checks refuses a command: `cfgWordOk`, `handleOk`, `plarusPortOk`, `slotPortOk`, `rangeOk`, `classOk`, `holderOk`, `agentOk`, `subOk`, `tagOk`. -/
theorem test_ill_formed_4 :
    Instr.wellFormed (.sessionCfgWrite 0 5 0) = false ∧
    Instr.wellFormed (.coppiceKilnRound 0 65536 0) = false ∧
    Instr.wellFormed (.portModeWrite 48 0) = false ∧
    Instr.wellFormed (.ptRd 4 {} .clean) = false ∧
    Instr.wellFormed (.rangeEnableWrite 16 0 0) = false ∧
    Instr.wellFormed (.guaranteeWrite 0 8 0) = false ∧
    Instr.wellFormed (.xlateReq 87 0 {}) = false ∧
    Instr.wellFormed (.snpShared 40 0) = false ∧
    Instr.wellFormed (.xlateReq 0 4 {}) = false ∧
    Instr.wellFormed (.sealedResponseRelease 0 (2 ^ 16) 0) = false := by decide

/-- Each of these checks refuses a command: `statusOk`, `regionOk`, `queueOk`, `pllOk`, `flitOk`, `envelopeOk`. -/
theorem test_ill_formed_5 :
    Instr.wellFormed (.snoopAnswer 0 0 256 0 false 0 []) = false ∧
    Instr.wellFormed (.placeHoldHbm 0 (2 ^ 34)) = false ∧
    Instr.wellFormed (.queueStarvation 0 32) = false ∧
    Instr.wellFormed (.pllLockLoss 44) = false ∧
    Instr.wellFormed (.idle 0 ({ seq := 2 ^ 12 })) = false ∧
    Instr.wellFormed (.rootSet 0 ({ seq := 2 ^ 64 }) 0) = false := by decide

/-- The state a command leads to. -/
def wnext (c : Instr) (s : State) : State := match exec c s with
  | .next t => t
  | _ => s

/-- R53 and R54, the example: tile 37 to the home of tile 2, the routers left and the virtual channels, 1 on the dateline. -/
theorem test_route_of_tile_37 :
    (links 8 { hdr := { dst := blockNode (.home 2) }, router := 37 }).map (fun l => l.1) = [37, 36, 35, 34, 42, 50, 58] ∧
    (links 8 { hdr := { dst := blockNode (.home 2) }, router := 37 }).map (fun l => l.2.2) = [0, 0, 0, 0, 0, 0, 1] := by decide

/-- R79, the example: a self-test asked of tile 37 while a context holds it is queued, and `PROGRESS` reads 0x8280. -/
theorem test_queued_self_test_of_tile_37 :
    regWord (wnext (.registerWrite 0 0xA5 0x68 8 0x102)
      (wst [(0xA5, Reg.BINDING_STATE, 1), (0xA5, Reg.BINDING_CTX, 0x12)])) 0xA5 .common 0x60 = 0x8280 := by decide +kernel

/-- R122, the examples: 300, 460 and 470 to E4M3. -/
theorem test_convert_e4m3 :
    Num.convert 3 false (.fin false 300 0) = { code := 0x79 } ∧ Num.convert 3 false (.fin false 460 0) = { code := 0x7E } ∧
    Num.convert 3 false (.fin false 470 0) = { code := 0x7F, nonfinite := true } ∧
    Num.convert 3 true (.fin false 470 0) = { code := 0x7E, saturated := true } := by decide

/-- R122, the examples: 62,000 and 60,000 to E5M2. -/
theorem test_convert_e5m2 :
    (Num.convert 4 false (.fin false 62000 0)).code = 0x7C ∧ (Num.convert 4 true (.fin false 62000 0)).code = 0x7B ∧
    Num.convert 4 false (.fin false 60000 0) = { code := 0x7B } := by decide

/-- R122, the example: a block whose largest magnitude is 470 and that holds a 3. -/
theorem test_convert_block :
    (Num.convBlock 5 false (.fin false 470 0 :: .fin false 3 0 :: List.replicate 30 Num.Val.zero)).1 = 0x80 ∧
    ((Num.convBlock 5 false (.fin false 470 0 :: .fin false 3 0 :: List.replicate 30 Num.Val.zero)).2.take 2).map (fun c => c.code)
      = [0x77, 0x3C] := by decide +kernel

/-- R126, the example: a wide value of 2^127, and one of 1.75 times 2^144 in both modes. -/
theorem test_accumulator_write :
    Num.accWrite true false 0 (.fin false 1 127) = { code := 0x7F000000 } ∧
    Num.accWrite true false 0 (.fin false 7 142) = { code := 0x7F800000, nonfinite := true } ∧
    Num.accWrite true true 0 (.fin false 7 142) = { code := 0x7F7FFFFF, saturated := true } := by decide +kernel

/-- R129, the example: headroom 2, step 2, deadband 1 and base -48 under E4M3, three peaks in turn. -/
theorem test_draught_steps :
    loopStep ((Num.emptyHist.set 57 1).set 70 1) (-48) 6 2 1 = 2 ∧ loopStep (Num.emptyHist.set 55 1) (-48) 6 2 1 = 1 ∧
    loopStep (Num.emptyHist.set 54 1) (-48) 6 2 1 = 0 := by decide

/-- R138 and R142, in the example at the end of the chapter: 251 free slots, and a wait on a counter that wraps. -/
theorem test_queue_example :
    freeSlots 8 254 250 = 251 ∧ waitMet 0xFFFFFFFFFFFC 2 = false ∧ waitMet 2 2 = true := by decide

/-- R200 and R201, the example: channel 218, pseudo-channel 436, slice 40 and set 1,100. -/
theorem test_address_hash :
    (placeOf State.reset 0x456789AB00).map (fun x => (x.1, x.2.1)) = some (218, 436) ∧ sliceOf 0x456789AB00 = 40 ∧
    setOf 0x456789AB00 = 1100 := by decide +kernel

/-- R283, the example: the average's first step and the level it reaches, and the levels of the eighth response. -/
theorem test_latency_level :
    levelOf (latencySample 3 0x21 3 1200 { wst [(pageCtx 0x21, Reg.REG_CLASS_LATENCY_NS.at 8 3, 800),
      (pageCtx 0x21, Reg.REG_CLASS_BASE_PRIO.at 8 3, 1), (6, Reg.LOOP_CTRL_EWMA_SHIFT, 4)] with
        regul := { latAvg := [(regKey 3 0x21 3, 560 * 65536)] } }) 3 0x21 3 = 2 ∧
    levelFor 1 800 (818 * 65536) 2 = 3 := by decide +kernel

/-- R286, the example: a pool that delivers 18,432 GB/s against 19,000 admitted. -/
theorem test_pool_factor : poolFactor 18432 19000 0 = 248 ∧ 8000 * 248 / 256 = 7750 := by decide

/-- R422, the example: the window after samples of 3.0 us, of 2.0 us, and of 2.1 us with a mark. -/
theorem test_window_steps :
    ccStep State.reset { cwnd := 262144, samples := [3000], mins := [(0, 1200)] } = 209715 ∧
    ccStep State.reset { cwnd := 209715, samples := [2000], mins := [(0, 1200)] } = 213811 ∧
    ccStep State.reset { cwnd := 213811, samples := [2100], mins := [(0, 1200)], eceSeen := true } = 160358 := by decide +kernel

/-- R219, computed by hand: 1.0 and 2.0 in FP32 add to 3.0 in the sector at the home, and all other bytes stay. -/
theorem test_add_narrow_adds :
    bytesAt (wnext (.addNarrow { ctx := 1, xlated := true, opArg := 0, inlineData := [0, 0, 128, 63] })
      { wmapOf 1 [] with cache := [(0, [{ pa := 0, way := 0, ctx := 1, valid := 15, data := [0, 0, 0, 64] ++ List.replicate 124 9 }])] }) 0 5
      = [0, 0, 64, 64, 9] := by decide +kernel

/-- What `StepRunsFrontCommand` assumes holds somewhere. -/
theorem witness_StepRunsFrontCommand :
    (∃ (s : State), (s.pending = [])) := by
  exact
    ⟨State.reset, by decide⟩

/-- What `CommandsLeaveQueue` assumes holds somewhere. -/
theorem witness_CommandsLeaveQueue :
    (∃ (s t : State), (step s = Host.Outcome.next t)) := by
  exact
    ⟨({ State.reset with pending := [.creditReturn 0] }), State.reset, by rfl⟩

/-- What `MemoryStaysCanonical` assumes holds somewhere. -/
theorem witness_MemoryStaysCanonical :
    (∃ (s t : State), (s.mem.wf = true) ∧ (step s = Host.Outcome.next t)) := by
  exact
    ⟨({ State.reset with pending := [.creditReturn 0] }), State.reset, by exact ⟨by decide, rfl⟩⟩

/-- What `ResetIsCanonical` assumes holds somewhere. -/
theorem witness_ResetIsCanonical :
    (∃ (n : Nat), (n < 64)) ∧
    (∃ (n : Nat), (n < 8)) ∧
    (∃ (k : Nat), (0 < k) ∧ (k < 64)) := by
  refine ⟨?_, ?_, ?_⟩
  · exact ⟨63, by decide⟩
  · exact ⟨7, by decide⟩
  · exact ⟨63, by decide⟩

/-- What `TorusInjectionAndArbitration` assumes holds somewhere. -/
theorem witness_TorusInjectionAndArbitration :
    (∃ (src : Nat) (plane : Plane) (h h' : Header) (us : List Unit256) (s : State), (h' = stampSource s plane src
      { h with len := if h.len ≤ 16 then us.length else h.len }) ∧ ((nodeBlock src).isSome = true) ∧ (ctxPermitted s src h' =
      true) ∧ (headerOk s plane src h' = true) ∧ (creditFree s plane h' (nodeRouter src) (4 + nodePort src) 0 = true) ∧
      (plane = Plane.req → requestsFull s src h' = false) ∧ (plane = Plane.req → regulated src h' = true → requestBytes h' ≤ Tab.get 0
      s.regul.buckets (regKey src h'.ctx h'.sclass))) ∧
    (∃ (r out i : Nat) (plane : Plane) (p : NetPkt) (s : State), (out < 4) ∧ (winner (candidates s r out plane) false = some (i,
      p))) ∧
    (∃ (r out i : Nat) (p : NetPkt) (s : State), (4 ≤ out) ∧ (winner (candidates s r out Plane.rsp) false = some (i, p)) ∧
      (isDown s p.hdr.dst = false) ∧ (p.plane = Plane.rsp)) ∧
    (∃ (r out i : Nat) (plane : Plane) (p : NetPkt) (s : State), (out < 4) ∧ (List.find? (fun e ↦ decide (256 ≤ e.2.lost))
      (candidates s r out plane) = some (i, p))) := by
  refine ⟨?_, ?_, ?_, ?_⟩
  · exact ⟨0, Plane.req, ({}), (stampSource State.reset .req 0 {}), ([]), State.reset, by decide⟩
  · exact ⟨0, 0, 0, Plane.req, ({ hdr := { dst := 16 } }), ({ State.reset with torus := { pkts := [{ hdr := { dst := 16 } }] } }),
        by decide⟩
  · exact ⟨1, 12, 0, ({ plane := .rsp, hdr := { dst := 24 }, router := 1 }),
        ({ State.reset with torus := { pkts := [{ plane := .rsp, hdr := { dst := 24 }, router := 1 }] } }), by decide⟩
  · exact ⟨0, 0, 0, Plane.req, ({ hdr := { dst := 16 }, lost := 256 }),
        ({ State.reset with torus := { pkts := [{ hdr := { dst := 16 }, lost := 256 }] } }), by decide⟩

/-- What `TorusEndpointsAndLinks` assumes holds somewhere. -/
theorem witness_TorusEndpointsAndLinks :
    (∃ (r d : Nat), (r < 64) ∧ (d < 4)) ∧
    (∃ (r d : Nat) (s : State), (r < 64) ∧ (d < 4) ∧ (fld s (pageTile r) Reg.PAGE_CTRL_COUNTER_FREEZE = 0)) ∧
    (∃ (r d : Nat) (s : State), (r < 64) ∧ (d < 4) ∧ (Tab.get 0 s.torus.replays (r * 4 + d) < 3)) ∧
    (∃ (r d : Nat) (s : State), (r < 64) ∧ (d < 4) ∧ (3 ≤ Tab.get 0 s.torus.replays (r * 4 + d))) ∧
    (∃ (b : Nat) (s : State), (0 < Tab.get 0 s.torus.due b) ∧ (s.torus.waiting = [])) ∧
    (∃ (node : Nat) (h r : Header) (rest : List Header) (s : State), (takeFirst (fun r ↦ r.src == node && r.srcSub == h.dstSub
      && r.tag == h.tag) s.torus.outstanding = some (r, rest)) ∧ (s.torus.waiting = [])) := by
  refine ⟨?_, ?_, ?_, ?_, ?_, ?_⟩
  · exact ⟨63, 3, by decide⟩
  · exact ⟨63, 3, State.reset, by decide⟩
  · exact ⟨63, 3, ({ State.reset with torus := { replays := [(255, 2)] } }), by decide⟩
  · exact ⟨63, 3, ({ State.reset with torus := { replays := [(255, 3)] } }), by decide⟩
  · exact ⟨0, ({ State.reset with torus := { due := [(0, 1)] } }), by decide⟩
  · exact ⟨0, ({}), ({}), ([]), ({ State.reset with torus := { outstanding := [{}] } }), by decide⟩

/-- What `UnassignedPageRule` assumes holds somewhere. -/
theorem witness_UnassignedPageRule :
    (∃ (fn page : Nat), (hasPath fn page = true) ∧ (page < 1024) ∧ (pageKind page = none)) ∧
    (∃ (fn page : Nat), (hasPath fn page = true) ∧ (page < 1024) ∧ (pageKind page = none)) ∧
    (∃ (page : Nat), (page < 1024) ∧ (pageKind page = none)) := by
  refine ⟨?_, ?_, ?_⟩
  · exact ⟨0, 0x3FF, by decide⟩
  · exact ⟨0, 0x3FF, by decide⟩
  · exact ⟨0x3FF, by decide⟩

/-- What `RegisterWriteThenRead` assumes holds somewhere. -/
theorem witness_RegisterWriteThenRead :
    (∃ (fn page data : Nat), (hasPath fn page = true) ∧ (assigned page = true) ∧ (data < 2 ^ 64)) ∧
    (∃ (fn page data : Nat), (hasPath fn page = true) ∧ (assigned page = true) ∧ (data < 2 ^ 64)) ∧
    (∃ (fn page data : Nat), (hasPath fn page = true) ∧ (assigned page = true) ∧ (data < 2 ^ 64)) ∧
    (∃ (fn page : Nat) (s : State), (hasPath fn page = true) ∧ (assigned page = true) ∧ (fld s page Reg.PAGE_SCRATCH < 2 ^ 64)) ∧
    (∃ (page : Nat), (assigned page = true)) ∧
    (∃ (page : Nat), (assigned page = true)) ∧
    (∃ (fn page w : Nat) (s : State), (assigned page = true) ∧ (Tab.get 0 s.shadows (shadowKey page fn) = w + 1)) := by
  refine ⟨?_, ?_, ?_, ?_, ?_, ?_, ?_⟩
  · exact ⟨0, 0x13F, (2 ^ 64 - 1), by decide⟩
  · exact ⟨0, 0x13F, (2 ^ 64 - 1), by decide⟩
  · exact ⟨0, 0x13F, (2 ^ 64 - 1), by decide⟩
  · exact ⟨0, 0x13F, State.reset, by decide⟩
  · exact ⟨0x13F, by decide⟩
  · exact ⟨0x13F, by decide⟩
  · exact ⟨0, 0x80, 5, ({ State.reset with shadows := [(0x8000, 6)] }), by decide⟩

/-- What `InterruptsErrorsAndMessages` assumes holds somewhere. -/
theorem witness_InterruptsErrorsAndMessages :
    (∃ (page : Nat), (assigned page = true)) ∧
    (∃ (page : Nat), (assigned page = true)) ∧
    (∃ (page : Nat), (assigned page = true)) ∧
    (∃ (page : Nat), (assigned page = true)) ∧
    (∃ (n arg : Nat) (s : State), (n < 64) ∧ (pageOp s (pageTile n) = some { op := 2, arg := arg, queued := true })) ∧
    (∃ (n arg : Nat) (s : State), (n < 64) ∧ (pageOp s (pageTile n) = some { op := 2, arg := arg, queued := true }) ∧ (bindState
      s (pageTile n) = 0)) ∧
    (∃ (r : ErrRec) (rest : List ErrRec) (s : State), (s.errs.flight = r :: rest) ∧ (r.ctx = 0) ∧ (fld s 4 Reg.ERRLOG_CFG_ENABLE
      = 0)) ∧
    (∃ (p : Nat) (rest : List Nat) (s : State), (s.errs.irqs = p :: rest) ∧ (tst (cfgDw s 0 176) 31 = true) ∧ (tst (cfgDw s 0
      176) 30 = false) ∧ ((Tab.get { } s.msix (msixKey 0 p)).masked = false)) ∧
    (∃ (h : Header), (h.noResp = false)) := by
  refine ⟨?_, ?_, ?_, ?_, ?_, ?_, ?_, ?_, ?_⟩
  · exact ⟨0x13F, by decide⟩
  · exact ⟨0x13F, by decide⟩
  · exact ⟨0x13F, by decide⟩
  · exact ⟨0x13F, by decide⟩
  · exact ⟨63, 7, ({ State.reset with ops := [(pageTile 63, some ⟨2, 7, true⟩)] }), by decide⟩
  · exact ⟨63, 7, ({ State.reset with ops := [(pageTile 63, some ⟨2, 7, true⟩)] }), by decide⟩
  · exact ⟨({}), ([]), ({ State.reset with errs := { flight := [{}] } }), by decide⟩
  · exact ⟨3, ([]),
        ({ State.reset with errs := { irqs := [3] }, host := { cfg := [(0xB0, 0x80000000)] }, msix := [(3, { masked := false })] }),
        by decide⟩
  · exact ⟨({}), by decide⟩

/-- What `TileRowsAndBanks` assumes holds somewhere. -/
theorem witness_TileRowsAndBanks :
    (∃ (n : Nat) (a : ArrayPass) (s : State), (n < 64) ∧ (arrayWorks s n = true) ∧ ((tile s n).lead = some a) ∧ (a.kBlock ≠
      a.kBlocks) ∧ ((tile s n).bank.holds a = false)) ∧
    (∃ (n : Nat) (a : ArrayPass) (s : State), (n < 64) ∧ (arrayWorks s n = true) ∧ ((tile s n).lead = some a) ∧ (a.kBlock ≠
      a.kBlocks) ∧ ((tile s n).bank.valid = true) ∧ ((tile s n).bank.passId = a.passId) ∧ ((tile s n).bank.kBlock = a.kBlock) ∧ ((tile s n).bank.col0 = a.col0) ∧
      (issues (tile s n).feederSlot (tile s n).feederDuty = true) ∧ (tagBusy (tile s n) a = false) ∧ (a.mRow + 1 < a.rows)) ∧
    (∃ (n : Nat) (a : ArrayPass) (s : State), (n < 64) ∧ (arrayWorks s n = true) ∧ ((tile s n).lead = some a) ∧ (a.kBlock ≠
      a.kBlocks) ∧ ((tile s n).bank.valid = true) ∧ ((tile s n).bank.passId = a.passId) ∧ ((tile s n).bank.kBlock = a.kBlock) ∧ ((tile s n).bank.col0 = a.col0) ∧
      (issues (tile s n).feederSlot (tile s n).feederDuty = true)) ∧
    (∃ (n : Nat) (f : InFlight) (fs : List InFlight) (s : State), (n < 64) ∧ ((tile s n).flight = f :: fs)) ∧
    (∃ (n : Nat) (a : ArrayPass) (p : Pass) (s : State), (n < 64) ∧ (arrayWorks s n = true) ∧ ((tile s n).trail = some a) ∧
      (a.epiRow + 1 < a.rows) ∧ ((Tab.get { } (tile s n).acc a.epiRow).passId = a.passId) ∧
      ((Tab.get { } (tile s n).acc a.epiRow).piece = a.piece) ∧ ((Tab.get { } (tile s n).acc
      a.epiRow).final = true) ∧ (issues (tile s n).vectorSlot (tile s n).vectorDuty = true) ∧ (pass s a.passId = some p) ∧
      (p.opclass ≠ 1)) ∧
    (∃ (n : Nat), (n < 64)) ∧
    (∃ (n : Nat), (n < 64)) := by
  refine ⟨?_, ?_, ?_, ?_, ?_, ?_, ?_⟩
  · exact ⟨63, warr, (wtile 63 { lead := some warr } [(pageTile 63, Reg.ARRAY_STATE_STATE, 1)]), by decide⟩
  · exact ⟨63, warr, (wtile 63 { lead := some warr, bank0 := { valid := true }, bank1 := { valid := true } } [(pageTile 63,
        Reg.ARRAY_STATE_STATE, 3)]), by decide⟩
  · exact ⟨63, warr, (wtile 63 { lead := some warr, bank0 := { valid := true }, bank1 := { valid := true } } [(pageTile 63,
        Reg.ARRAY_STATE_STATE, 3)]), by decide⟩
  · exact ⟨0, ({ passId := 0, tag := 0, first := true, last := true, integer := false, sat := false, wides := [] }), ([]),
        (wtile 0 { flight := [{ passId := 0, tag := 0, first := true, last := true, integer := false, sat := false, wides := [] }] } []),
        by decide⟩
  · exact ⟨63, warr, wpass,
        ({ wtile 63 { trail := some warr, acc := [(0, { final := true, unread := true })] } [(pageTile 63, Reg.ARRAY_STATE_STATE, 3)] with passes := [wpass] }),
        by decide⟩
  · exact ⟨63, by decide⟩
  · exact ⟨63, by decide⟩

/-- What `TilePreemptionAndFaults` assumes holds somewhere. -/
theorem witness_TilePreemptionAndFaults :
    (∃ (n : Nat) (s : State), (n < 64) ∧ (arrayWorks s n = true)) ∧
    (∃ (n : Nat) (s : State), (n < 64) ∧ ((tile s n).draining = true)) ∧
    (∃ (n : Nat) (a : ArrayPass) (s : State), (n < 64) ∧ ((tile s n).draining = true) ∧ ((tile s n).lead = some a)) ∧
    (∃ (n : Nat) (s : State), (n < 64) ∧ (bindState s (pageTile n) = 1) ∧ (ctxState s (bindCtx s (pageTile n)) = 2) ∧
      (arrayState s n = 5)) ∧
    (∃ (n slot : Nat) (i : ParkImg) (s : State), (n < 64) ∧ (bindState s (pageTile n) = 1) ∧ (ctxState s (bindCtx s (pageTile
      n)) = 2) ∧ (List.find? (fun i ↦ i.slot == slot) (ctx s (bindCtx s (pageTile n))).parks = some i) ∧ (i.valid = true) ∧
      (arrayState s n ≤ 1) ∧ ((tile s n).lead = none) ∧ ((tile s n).trail = none) ∧ (i.tile.width ≤ tileColumns s n)) ∧
    (∃ (n check : Nat) (s : State), (n < 64) ∧ (check < 4) ∧ (arrayState s n ≠ 0) ∧ (arrayState s n ≠ 6) ∧ (tileCoppice s n =
      none)) ∧
    (∃ (n : Nat) (s : State), (n < 64) ∧ (bindState s (pageTile n) = 5) ∧ ((tile s n).returnedAt = 0)) ∧
    (∃ (n : Nat) (s : State), (n < 64) ∧ (bindState s (pageTile n) = 5) ∧ ((tile s n).returnedAt ≠ 0) ∧ (s.time.sec + 1 ≤ (tile
      s n).returnedAt + 3600)) ∧
    (∃ (n : Nat) (s : State), (n < 64) ∧ (fld s (pageTile n) Reg.PAGE_CTRL_COUNTER_FREEZE = 0)) ∧
    (∃ (n : Nat) (s : State), (n < 64) ∧ (pageOp s (pageTile n) = none) ∧ (bindState s (pageTile n) = 0)) ∧
    (∃ (n : Nat) (s : State), (n < 64) ∧ (pageOp s (pageTile n) = none) ∧ (bindState s (pageTile n) = 1)) ∧
    (∃ (n : Nat) (s : State), (n < 64) ∧ (bindState s (pageTile n) = 6)) ∧
    (∃ (n : Nat) (s : State), (n < 64) ∧ (bindState s (pageTile n) = 4)) := by
  refine ⟨?_, ?_, ?_, ?_, ?_, ?_, ?_, ?_, ?_, ?_, ?_, ?_, ?_⟩
  · exact ⟨63, (wst [(pageTile 63, Reg.ARRAY_STATE_STATE, 1)]), by decide⟩
  · exact ⟨63, (wtile 63 { draining := true } []), by decide⟩
  · exact ⟨63, warr, (wtile 63 { draining := true, lead := some warr } []), by decide⟩
  · exact ⟨63, (wst [(pageTile 63, Reg.BINDING_STATE, 1), (pageTile 63, Reg.BINDING_CTX, 1), (pageCtx 1, Reg.CTX_STATUS_STATE, 2),
        (pageTile 63, Reg.ARRAY_STATE_STATE, 5)]), by decide⟩
  · exact ⟨63, 0, ({ slot := 0, tile := {}, valid := true }),
        (wctx 1 { parks := [{ slot := 0, tile := {}, valid := true }] } [(pageTile 63, Reg.BINDING_STATE, 1), (pageTile 63,
        Reg.BINDING_CTX, 1), (pageCtx 1, Reg.CTX_STATUS_STATE, 2), (pageTile 63, Reg.ARRAY_STATE_STATE, 1)]), by decide⟩
  · exact ⟨63, 3, (wst [(pageTile 63, Reg.ARRAY_STATE_STATE, 1)]), by decide⟩
  · exact ⟨63, (wst [(pageTile 63, Reg.BINDING_STATE, 5)]), by decide⟩
  · exact ⟨63, (wtile 63 { returnedAt := 1 } [(pageTile 63, Reg.BINDING_STATE, 5)]), by decide⟩
  · exact ⟨63, State.reset, by decide⟩
  · exact ⟨63, State.reset, by decide⟩
  · exact ⟨63, (wst [(pageTile 63, Reg.BINDING_STATE, 1)]), by decide⟩
  · exact ⟨63, (wst [(pageTile 63, Reg.BINDING_STATE, 6)]), by decide⟩
  · exact ⟨63, (wst [(pageTile 63, Reg.BINDING_STATE, 4)]), by decide⟩

/-- What `DraughtTagsRingsAndFences` assumes holds somewhere. -/
theorem witness_DraughtTagsRingsAndFences :
    (∃ (fn k : Nat) (s : State), (pageOpen s fn k = true)) ∧
    (∃ (fn k : Nat) (s : State), (pageOpen s fn k = true)) ∧
    (∃ (fn k : Nat) (s : State), (pageOpen s fn k = true)) ∧
    (∃ (fn k : Nat) (s : State), (pageOpen s fn k = true)) ∧
    (∃ (k : Nat) (s : State), (0 < k) ∧ (k < 64) ∧ (isSealed s k = true)) ∧
    (∃ (fn k r v : Nat) (s : State), (pageOpen s fn k = true) ∧ (r < 16) ∧ (v < 65536) ∧ (ringOn s k r = true) ∧ (v < 2 ^
      ringLog2 s k r)) ∧
    (∃ (fn k r v : Nat) (s : State), (pageOpen s fn k = true) ∧ (r < 16) ∧ (v < 65536) ∧ (ringOn s k r = false ∨ 2 ^ ringLog2 s
      k r ≤ v)) ∧
    (∃ (fn k h : Nat) (s : State), (pageOpen s fn k = true) ∧ (h < 65536) ∧ (flag s (pageWin k 0) Reg.CQ_CFG_ENABLE = true) ∧
      (headOk (fld s (pageWin k 0) Reg.CQ_CFG_LOG2_SIZE) (fld s (pageWin k 0) Reg.CQ_STATUS_TAIL) (fld s (pageWin k 0)
      Reg.CQ_STATUS_HEAD) h = true)) ∧
    (∃ (fn k r l : Nat) (s : State), (pageOpen s fn k = true) ∧ (r < 16) ∧ (6 ≤ l) ∧ (l ≤ 16) ∧ (ringOn s k r = false) ∧ (flag s
      (pageWin k 0) Reg.CQ_CFG_ENABLE = true) ∧ (ringOutstanding s k r = 0)) ∧
    (∃ (fn k r : Nat) (s : State), (pageOpen s fn k = true) ∧ (r < 16)) ∧
    (∃ (fn k r : Nat) (s : State), (pageOpen s fn k = true) ∧ (r < 16) ∧ (s.passes = [])) ∧
    (∃ (fn k r : Nat) (s : State), (pageOpen s fn k = true) ∧ (r < 16) ∧ (ringOn s k r = false)) ∧
    (∃ (fn k r v : Nat) (s : State), (pageOpen s fn k = true) ∧ (r < 16) ∧ (ringOn s k r = true) ∧ (ringLog2 s k r ≠ v) ∧ (v <
      32)) ∧
    (∃ (fn k l : Nat) (s : State), (pageOpen s fn k = true) ∧ (6 ≤ l) ∧ (l ≤ 16) ∧ (flag s (pageWin k 0) Reg.CQ_CFG_ENABLE =
      false)) ∧
    (∃ (fn k : Nat) (s : State), (pageOpen s fn k = true) ∧ (∀ r < 16, ringOn s k r = false) ∧ (fld s (pageWin k 0)
      Reg.CQ_STATUS_RESERVED = 0)) ∧
    (∃ (fn k i : Nat) (s : State), (pageOpen s fn k = true) ∧ (i < 64)) ∧
    (∃ (fn k i : Nat) (s : State), (pageOpen s fn k = true) ∧ (i < 64)) := by
  refine ⟨?_, ?_, ?_, ?_, ?_, ?_, ?_, ?_, ?_, ?_, ?_, ?_, ?_, ?_, ?_, ?_, ?_⟩
  · exact ⟨63, 63, State.reset, by decide⟩
  · exact ⟨63, 63, State.reset, by decide⟩
  · exact ⟨63, 63, State.reset, by decide⟩
  · exact ⟨63, 63, State.reset, by decide⟩
  · exact ⟨63, (wst [(pageCtx 63, Reg.CTX_STATUS_SEALED, 1)]), by decide⟩
  · exact ⟨63, 63, 15, 63, (wst [(pageWin 63 0, Reg.RING_CFG_ENABLE.at 32 15, 1), (pageWin 63 0, Reg.RING_CFG_LOG2_SIZE.at 32 15,
        6)]), by decide⟩
  · exact ⟨63, 63, 15, 64, (wst [(pageWin 63 0, Reg.RING_CFG_ENABLE.at 32 15, 1), (pageWin 63 0, Reg.RING_CFG_LOG2_SIZE.at 32 15,
        6)]), by decide⟩
  · exact ⟨63, 63, 3, (wst [(pageWin 63 0, Reg.CQ_CFG_ENABLE, 1), (pageWin 63 0, Reg.CQ_CFG_LOG2_SIZE, 6), (pageWin 63 0,
        Reg.CQ_STATUS_TAIL, 3)]), by decide⟩
  · exact ⟨63, 63, 15, 16, (wst [(pageWin 63 0, Reg.CQ_CFG_ENABLE, 1)]), by decide⟩
  · exact ⟨63, 63, 15, State.reset, by decide⟩
  · exact ⟨63, 63, 15, State.reset, by decide⟩
  · exact ⟨63, 63, 15, State.reset, by decide⟩
  · exact ⟨63, 63, 15, 31, (wst [(pageWin 63 0, Reg.RING_CFG_ENABLE.at 32 15, 1), (pageWin 63 0, Reg.RING_CFG_LOG2_SIZE.at 32 15,
        6)]), by decide⟩
  · exact ⟨63, 63, 16, State.reset, by decide⟩
  · exact ⟨63, 63, State.reset, by decide⟩
  · exact ⟨63, 63, 63, State.reset, by decide⟩
  · exact ⟨63, 63, 63, State.reset, by decide⟩

/-- What `DispatchOfPasses` assumes holds somewhere. -/
theorem witness_DispatchOfPasses :
    (∃ (k r : Nat) (b : List Byte) (s : State), (k < 64) ∧ (ctxState s k = 2) ∧ (s.errs.dispatchStopped = false) ∧ (flag s
      (pageWin k 0) Reg.CQ_CFG_ENABLE = true) ∧ (cqFree s k ≠ 0) ∧ ((ctx s k).refetch = []) ∧ (List.find? (ringReady s k)
      (List.map (fun i ↦ ((ctx s k).lastRing + 1 + i) % 16) (List.range 16)) = some r) ∧ (vread s 80 k (fld s (pageWin k 0)
      (Reg.RING_BASE_ADDR.at 32 r) * 4096 + 128 * ringHead s k r) 128 = Except.ok b)) ∧
    (∃ (id : Nat) (p : Pass) (tds : List (Option (List Nat))) (s : State), (pass s id = some p) ∧ (p.phase = PassPhase.waiting)
      ∧ (ctxState s p.ctx = 2) ∧ (passStalled s p = false) ∧ (∀ w ∈ passWaits p, waitMet (fence s p.ctx w.1) w.2 = true ∧
      fenceError s p.ctx w.1 = false) ∧ (readTds s p = Except.ok tds) ∧ (checkPass (List.foldl (fun s i ↦ accessed 80 p.ctx
      (bits (p.word (8 + i)) 54 6 * 64) 64 false s) s (List.filter p.present (List.range 6)))
      { p with tds := tds, phase := PassPhase.ready } = none)) ∧
    (∃ (k x n : Nat) (p : Pass) (q : Piece) (s : State), (mayDispatch s k = true) ∧ (executorBound s k x = true) ∧
      (((List.filter (fun p ↦ p.ctx == k) s.passes).any fun p ↦ (reissuePiece s p x).isSome) = false) ∧ (List.findSome? (fun p ↦
      nextPiece s p x) (List.filter (fun p ↦ p.ctx == k) s.passes) = some (p, q, n))) ∧
    (∃ (k x : Nat) (p : Pass) (q : Piece) (s : State), (mayDispatch s k = true) ∧ (executorBound s k x = true) ∧ (List.findSome?
      (fun p ↦ reissuePiece s p x) (List.filter (fun p ↦ p.ctx == k) s.passes) = some (p, q))) ∧
    (∃ (id : Nat) (p : Pass) (s u : State), (pass s id = some p) ∧ (passStalled s p = false) ∧ (p.phase = PassPhase.ended) ∧
      (ctxState s p.ctx ≠ 5) ∧ (vwrite 80 p.ctx (fld s (pageWin p.ctx 0) Reg.CQ_BASE_ADDR * 4096 + 32 * fld s (pageWin p.ctx 0)
      Reg.CQ_STATUS_TAIL) (recordBytes p (flag s (pageWin p.ctx 0) Reg.CQ_STATUS_PHASE)) s = Except.ok u)) := by
  refine ⟨?_, ?_, ?_, ?_, ?_⟩
  · have h : ∃ b,
      vread wring 80 1 (fld wring (pageWin 1 0) (Reg.RING_BASE_ADDR.at 32 15) * 4096 + 128 * ringHead wring 1 15) 128 = .ok b := wok (by decide +kernel)
    obtain ⟨b, hb⟩ := h
    exact ⟨1, 15, b, wring, by decide, by decide, by decide, by decide, by decide +kernel, by decide, by decide +kernel, hb⟩
  · exact ⟨0, wfull, (List.replicate 6 none), ({ wst [(pageCtx 1, Reg.CTX_STATUS_STATE, 2)] with passes := [wfull] }),
        by exact ⟨by decide, by decide, by decide, by decide, by decide, rfl, by decide +kernel⟩⟩
  · exact ⟨63, 63, _, wcopy .ready [], _, wexec (wcopy .ready []), by decide, by decide, by decide, rfl⟩
  · exact ⟨63, 63, wcopy .running [wpiece], _, wexec (wcopy .running [wpiece]), by decide, by decide, rfl⟩
  · obtain ⟨u,
      hu⟩ := wok (r := vwrite 80 1 (fld wended (pageWin 1 0) Reg.CQ_BASE_ADDR * 4096 + 32 * fld wended (pageWin 1 0) Reg.CQ_STATUS_TAIL) (recordBytes wendedPass (flag wended (pageWin 1 0) Reg.CQ_STATUS_PHASE)) wended) (by decide +kernel)
    exact ⟨0, wendedPass, wended, u, by decide, by decide, by decide, by decide, hu⟩

/-- What `ClassesOfEngines` assumes holds somewhere. -/
theorem witness_ClassesOfEngines :
    (∃ (id : Nat) (p : Pass) (g : Group) (x : Tensor) (s : State), (pass s id = some p) ∧ (p.opclass = 12) ∧ (p.phase =
      PassPhase.ready) ∧ (p.computed = false) ∧ (ctxState s p.ctx = 2) ∧ (s.errs.dispatchStopped = false) ∧ (passStalled s p =
      false) ∧ (groupOf s p = some g) ∧ (readSlot s p 0 = Except.ok x)) ∧
    (∃ (id i : Nat) (p : Pass) (s : State), (pass s id = some p) ∧ (p.opclass = 13) ∧ (p.phase = PassPhase.ready) ∧ (p.computed
      = false) ∧ (ctxState s p.ctx = 2) ∧ (s.errs.dispatchStopped = false) ∧ (passStalled s p = false) ∧ (roundOfHandle s
      (p.param 31 0) = some i) ∧ ((kround s i).st = 1)) ∧
    (∃ (id i : Nat) (p : Pass) (s : State), (pass s id = some p) ∧ (p.opclass = 13) ∧ (p.phase = PassPhase.ready) ∧ (p.computed
      = false) ∧ (ctxState s p.ctx = 2) ∧ (s.errs.dispatchStopped = false) ∧ (passStalled s p = false) ∧ (roundOfHandle s
      (p.param 31 0) = some i) ∧ ((kround s i).st ≠ 1)) ∧
    (∃ (id i : Nat) (p : Pass) (s : State), (pass s id = some p) ∧ (p.opclass = 14) ∧ (p.phase = PassPhase.ready) ∧ (p.computed
      = false) ∧ (ctxState s p.ctx = 2) ∧ (s.errs.dispatchStopped = false) ∧ (passStalled s p = false) ∧ (roundOfHandle s
      (p.param 31 0) = some i) ∧ ((kround s i).st ≠ 4)) ∧
    (∃ (id i : Nat) (p q : Pass) (s u : State), (pass s id = some p) ∧ (p.opclass = 14) ∧ (p.phase = PassPhase.ready) ∧
      (p.computed = false) ∧ (ctxState s p.ctx = 2) ∧ (s.errs.dispatchStopped = false) ∧ (passStalled s p = false) ∧
      (roundOfHandle s (p.param 31 0) = some i) ∧ ((kround s i).st = 4) ∧ (badInSum s (kround s i) = none) ∧ (startPass p s = q)
      ∧ (writeUnits (82 + i / 32) p.ctx (classOut q 0 (tabulate q.out.rows (q.out.dim 0) fun r' c ↦ Num.ofF32 (sumCode s (kround
      s i) (r' * q.out.dim 0 + c))) { }).1 s = Except.ok u)) ∧
    (∃ (id : Nat) (p : Pass) (s u : State), (pass s id = some p) ∧ (p.opclass = 15) ∧ (p.phase = PassPhase.ready) ∧ (p.computed
      = false) ∧ (ctxState s p.ctx = 2) ∧ (s.errs.dispatchStopped = false) ∧ (passStalled s p = false) ∧ (vwrite 80 p.ctx (fld s
      (pageWin p.ctx 0) Reg.CQ_BASE_ADDR * 4096 + 32 * fld s (pageWin p.ctx 0) Reg.CQ_STATUS_TAIL) (recordBytes p (flag s
      (pageWin p.ctx 0) Reg.CQ_STATUS_PHASE)) s = Except.ok u)) ∧
    (∃ (id : Nat) (p : Pass) (s : State), (pass s id = some p) ∧ (p.opclass = 16) ∧ (p.phase = PassPhase.ready) ∧ (p.computed =
      false) ∧ (ctxState s p.ctx = 2) ∧ (s.errs.dispatchStopped = false) ∧ (passStalled s p = false) ∧ (p.ctx < 64) ∧
      (emberState s p.ctx = 1 ∨ emberState s p.ctx = 2) ∧ ((s.passes.any fun x ↦ x.ctx == p.ctx && x.id != id && x.pieces.any
      fun q ↦ q.state == PieceState.running) = false)) ∧
    (∃ (id : Nat) (p : Pass) (s : State), (pass s id = some p) ∧ (p.opclass = 16) ∧ (p.phase = PassPhase.ready) ∧ (p.computed =
      false) ∧ (ctxState s p.ctx = 2) ∧ (s.errs.dispatchStopped = false) ∧ (passStalled s p = false) ∧ (emberState s p.ctx = 4)) := by
  refine ⟨?_, ?_, ?_, ?_, ?_, ?_, ?_, ?_⟩
  · exact ⟨0, ({ wpass with words := [12, 0, 0, 0, 0, 127], phase := .ready }), ({ valid := true, ctx := 1 }),
        ({ td := ⟨[]⟩, rows := [], scales := [] }),
        ({ wst [(pageCtx 1, Reg.CTX_STATUS_STATE, 2)] with passes := [{ wpass with words := [12, 0, 0, 0, 0, 127], phase := .ready }], plr := { groups := [(0, { valid := true, ctx := 1 })] } }),
        by exact ⟨by decide, by decide, by decide, by decide, by decide, by decide, by decide, by decide, rfl⟩⟩
  · exact ⟨0, 63, ({ wpass with words := [13, 0, 0, 0, 0, 127], phase := .ready }),
        ({ wst [(pageCtx 1, Reg.CTX_STATUS_STATE, 2)] with passes := [{ wpass with words := [13, 0, 0, 0, 0, 127], phase := .ready }], kiln := { rounds := [(63, { handle := 127, policy := [], digest := 0, st := 1 })] } }),
        by decide⟩
  · exact ⟨0, 63, ({ wpass with words := [13, 0, 0, 0, 0, 127], phase := .ready }),
        ({ wst [(pageCtx 1, Reg.CTX_STATUS_STATE, 2)] with passes := [{ wpass with words := [13, 0, 0, 0, 0, 127], phase := .ready }], kiln := { rounds := [(63, { handle := 127, policy := [], digest := 0, st := 0 })] } }),
        by decide⟩
  · exact ⟨0, 63, ({ wpass with words := [14, 0, 0, 0, 0, 127], phase := .ready }),
        ({ wst [(pageCtx 1, Reg.CTX_STATUS_STATE, 2)] with passes := [{ wpass with words := [14, 0, 0, 0, 0, 127], phase := .ready }], kiln := { rounds := [(63, { handle := 127, policy := [], digest := 0, st := 1 })] } }),
        by decide⟩
  · exact ⟨0, 63, ({ wpass with words := [14, 0, 0, 0, 0, 127], phase := .ready }),
        (startPass ({ wpass with words := [14, 0, 0, 0, 0, 127], phase := .ready }) ({ wst [(pageCtx 1, Reg.CTX_STATUS_STATE, 2)] with passes := [{ wpass with words := [14, 0, 0, 0, 0, 127], phase := .ready }], kiln := { rounds := [(63, { handle := 127, policy := [], digest := 0, st := 4 })] } })),
        ({ wst [(pageCtx 1, Reg.CTX_STATUS_STATE, 2)] with passes := [{ wpass with words := [14, 0, 0, 0, 0, 127], phase := .ready }], kiln := { rounds := [(63, { handle := 127, policy := [], digest := 0, st := 4 })] } }),
        ({ wst [(pageCtx 1, Reg.CTX_STATUS_STATE, 2)] with passes := [{ wpass with words := [14, 0, 0, 0, 0, 127], phase := .ready }], kiln := { rounds := [(63, { handle := 127, policy := [], digest := 0, st := 4 })] } }),
        by exact ⟨by decide, by decide, by decide, by decide, by decide, by decide, by decide, by decide, by decide, by decide,
        rfl, rfl⟩⟩
  · obtain ⟨u,
      hu⟩ := wok (r := vwrite 80 1 (fld wfence (pageWin 1 0) Reg.CQ_BASE_ADDR * 4096 + 32 * fld wfence (pageWin 1 0) Reg.CQ_STATUS_TAIL) (recordBytes wfencePass (flag wfence (pageWin 1 0) Reg.CQ_STATUS_PHASE)) wfence) (by decide +kernel)
    exact ⟨0, wfencePass, wfence, u, by decide, by decide, by decide, by decide, by decide, by decide, by decide, hu⟩
  · exact ⟨0, ({ wpass with words := [16, 0, 0, 0, 0, 127], phase := .ready }),
        ({ wst [(pageCtx 1, Reg.CTX_STATUS_STATE, 2), (pageCtx 1, Reg.EMBER_STATUS_STATE, 2)] with passes := [{ wpass with words := [16, 0, 0, 0, 0, 127], phase := .ready }] }),
        by decide⟩
  · exact ⟨0, ({ wpass with words := [16, 0, 0, 0, 0, 127], phase := .ready }),
        ({ wst [(pageCtx 1, Reg.CTX_STATUS_STATE, 2), (pageCtx 1, Reg.EMBER_STATUS_STATE, 4)] with passes := [{ wpass with words := [16, 0, 0, 0, 0, 127], phase := .ready }] }),
        by decide⟩

/-- What `CacheSetsStaySound` assumes holds somewhere. -/
theorem witness_CacheSetsStaySound :
    (∃ (s t : State) (pa : Nat), (∀ (pa : Nat), setSound s pa) ∧ (step s = Host.Outcome.next t)) := by
  exact
    ⟨({ State.reset with pending := [.creditReturn 0] }), State.reset, 0, by exact ⟨fun pa => by constructor <;> simp [linesOf,
      State.reset, Tab.get], rfl⟩⟩

/-- What `HomeAccesses` assumes holds somewhere. -/
theorem witness_HomeAccesses :
    (∃ (h h' : Header) (s : State), (h' = { h with opcode := 2 }) ∧ (h.xlated = true) ∧ (sectorReady s h.ctx h.addr) ∧ (h.hint ≠
      3)) ∧
    (∃ (h h' : Header) (s : State), (h' = { h with opcode := 3 }) ∧ (h.xlated = true) ∧ (h.noResp = false) ∧ (sectorReady s
      h.ctx h.addr)) ∧
    (∃ (h h' : Header) (s : State), (h' = { h with opcode := 4 }) ∧ (h.xlated = true) ∧ (h.noResp = false) ∧ (sectorReady s
      h.ctx h.addr) ∧ (h.opArg % 16 ≤ 2)) ∧
    (∃ (h h' : Header) (base : Nat) (s : State), (h' = { h with opcode := 0 }) ∧ (base = h.addr / 256 * 256) ∧ (h.xlated = true)
      ∧ (isHbm h.addr = true) ∧ (h.noResp = false) ∧ (h.hint ≠ 3) ∧ (s.coh.breaches = []) ∧ (setSound s base) ∧ (setSound s
      (base + 128)) ∧ (∀ i < 2, isTransient s (base + 128 * i) = false ∧ ∃ l, findLine s (base + 128 * i) = some l ∧ l.ctx =
      h.ctx ∧ l.dir = 0 ∧ l.excl = false ∧ bits (h.opArg % 256) (4 * i + 3) (4 * i) &&& l.valid = bits (h.opArg % 256) (4 * i +
      3) (4 * i))) ∧
    (∃ (h h' : Header) (base w : Nat) (s u : State), (h' = { h with opcode := 0 }) ∧ (base = h.addr / 256 * 256) ∧ (h.xlated =
      true) ∧ (isHbm h.addr = true) ∧ (h.hint ≠ 1) ∧ (s.coh.breaches = []) ∧ (bits (h.opArg % 256) 3 0 ≠ 0) ∧ (isTransient s
      base = false) ∧ (findLine s base = none) ∧ (makeRoom base h.ctx s = Room.way w u)) ∧
    (∃ (h h' : Header) (us : List Unit256) (base : Nat) (s : State), (h' = { h with opcode := 1 }) ∧ (base = h.addr / 256 * 256)
      ∧ (h.xlated = true) ∧ (isHbm h.addr = true) ∧ (h.noResp = false) ∧ (s.coh.breaches = []) ∧ ((us.headD { }).be = none) ∧
      (setSound s base) ∧ (setSound s (base + 128)) ∧ (∀ i < 2, isTransient s (base + 128 * i) = false ∧ ∃ l, findLine s (base +
      128 * i) = some l ∧ l.ctx = h.ctx ∧ l.dir = 0 ∧ l.excl = false ∧ l.data.length = 128)) := by
  refine ⟨?_, ?_, ?_, ?_, ?_, ?_⟩
  · exact ⟨({ ctx := 1, xlated := true }), ({ ctx := 1, xlated := true, opcode := 2 }), whome, by exact ⟨by decide, by decide,
        by unfold sectorReady setSound; decide +kernel, by decide⟩⟩
  · exact ⟨({ ctx := 1, xlated := true }), ({ ctx := 1, xlated := true, opcode := 3 }), whome, by exact ⟨by decide, by decide,
        by decide, by unfold sectorReady setSound; decide +kernel⟩⟩
  · exact ⟨({ ctx := 1, xlated := true, opArg := 2 }), ({ ctx := 1, xlated := true, opcode := 4, opArg := 2 }), whome,
        by exact ⟨by decide, by decide, by decide, by unfold sectorReady setSound; decide +kernel, by decide⟩⟩
  · exact ⟨({ ctx := 1, xlated := true, opArg := 0xF1 }), ({ ctx := 1, xlated := true, opcode := 0, opArg := 0xF1 }), 0, whome,
        by exact ⟨by decide, by decide, by decide, by decide, by decide, by decide, by decide, by unfold setSound; decide,
        by unfold setSound; decide, (by intro i hi; interval_cases i <;> exact ⟨by decide, _, rfl, by decide⟩)⟩⟩
  · exact ⟨({ ctx := 1, xlated := true, opArg := 1 }), ({ ctx := 1, xlated := true, opcode := 0, opArg := 1 }), 0, 0, (wmapOf 1 []),
        (wmapOf 1 []), by exact ⟨by decide, by decide, by decide, by decide, by decide, by decide, by decide, by decide,
        by decide, rfl⟩⟩
  · exact ⟨({ ctx := 1, xlated := true }), ({ ctx := 1, xlated := true, opcode := 1 }), ([]), 0, whome, by exact ⟨by decide,
        by decide, by decide, by decide, by decide, by decide, by decide, by unfold setSound; decide,
        by unfold setSound; decide, (by intro i hi; interval_cases i <;> exact ⟨by decide, _, rfl, by decide⟩)⟩⟩

/-- What `ControllerAccesses` assumes holds somewhere. -/
theorem witness_ControllerAccesses :
    (∃ (h h' : Header) (ch : Nat) (x : Nat × Nat) (s : State), (h' = { h with opcode := 16 }) ∧ (h.noResp = false) ∧ (placeOf s
      h.addr = some (ch, x)) ∧ (channelOpen s ch h.ctx = true) ∧ (unreachable s (h.addr / 128 * 128) = false) ∧ (allowed s h.ctx
      (h.addr / 128 * 128) = true) ∧ (List.find? (isBad s) (maskSectors (h.addr / 128 * 128) (h.opArg % 16) 4) = none)) ∧
    (∃ (h : Header) (ch : Nat) (x : Nat × Nat) (s : State), (placeOf s h.addr = some (ch, x)) ∧ (channelOpen s ch h.ctx = true)
      ∧ (unreachable s (h.addr / 128 * 128) = false) ∧ (allowed s h.ctx (h.addr / 128 * 128) = true)) ∧
    (∃ (h h' : Header) (ch : Nat) (x : Nat × Nat) (s : State), (h' = { h with opcode := 18 }) ∧ (placeOf s h.addr = some (ch,
      x)) ∧ (channelOpen s ch h.ctx = true) ∧ (unreachable s (h.addr / 32 * 32) = false) ∧ (allowed s h.ctx (h.addr / 32 * 32) =
      true) ∧ (isBad s (h.addr / 32 * 32) = false)) ∧
    (∃ (h : Header) (ch : Nat) (x : Nat × Nat) (s : State), (placeOf s h.addr = some (ch, x)) ∧ (channelOpen s ch h.ctx = true)
      ∧ (unreachable s (h.addr / 32 * 32) = false) ∧ (allowed s h.ctx (h.addr / 32 * 32) = true) ∧ (isBad s (h.addr / 32 * 32) =
      false)) ∧
    (∃ (h : Header) (ch : Nat) (x : Nat × Nat) (s : State), (placeOf s h.addr = some (ch, x)) ∧ (channelOpen s ch h.ctx = true)
      ∧ (unreachable s (h.addr / 32 * 32) = false) ∧ (allowed s h.ctx (h.addr / 32 * 32) = true) ∧ (isBad s (h.addr / 32 * 32) =
      false) ∧ (h.opArg % 16 ≤ 2)) ∧
    (∃ (h : Header) (ch : Nat) (x : Nat × Nat) (s : State), (placeOf s h.addr = some (ch, x)) ∧ (channelOpen s ch h.ctx =
      false)) ∧
    (∃ (pa ch : Nat) (x : Nat × Nat) (s : State), (placeOf s pa = some (ch, x))) ∧
    (∃ (pa ch : Nat) (x : Nat × Nat) (s : State), (placeOf s pa = some (ch, x)) ∧ (ch < 384) ∧ (fld s (pageHbm (ch / 32))
      Reg.PAGE_CTRL_COUNTER_FREEZE = 0)) := by
  refine ⟨?_, ?_, ?_, ?_, ?_, ?_, ?_, ?_⟩
  · exact ⟨({ ctx := 1, xlated := true }), ({ ctx := 1, xlated := true, opcode := 16 }), 0, ((0, 0)), (wmapOf 1 []),
        by decide +kernel⟩
  · exact ⟨({ ctx := 1, xlated := true }), 0, ((0, 0)), (wmapOf 1 []), by decide +kernel⟩
  · exact ⟨({ ctx := 1, xlated := true }), ({ ctx := 1, xlated := true, opcode := 18 }), 0, ((0, 0)), (wmapOf 1 []),
        by decide +kernel⟩
  · exact ⟨({ ctx := 1, xlated := true }), 0, ((0, 0)), (wmapOf 1 []), by decide +kernel⟩
  · exact ⟨({ ctx := 1, xlated := true, opArg := 2 }), 0, ((0, 0)), (wmapOf 1 []), by decide +kernel⟩
  · exact ⟨({ ctx := 1, xlated := true }), 0, ((0, 0)), ({ State.reset with hbm := { channels := [(0, { paused := true })] } }),
        by decide +kernel⟩
  · exact ⟨0, 0, ((0, 0)), State.reset, by decide +kernel⟩
  · exact ⟨0, 0, ((0, 0)), State.reset, by decide +kernel⟩

/-- What `HbmHealthAndRetraining` assumes holds somewhere. -/
theorem witness_HbmHealthAndRetraining :
    (∃ (ch : Nat) (s : State), (ch < 384) ∧ ((channel s ch).correctedSec = s.time.sec) ∧ (fld s (pageHbm (ch / 32))
      Reg.CE_POLICY_THRESHOLD ≤ (channel s ch).correctedNow) ∧ (fld s (pageHbm (ch / 32)) Reg.CE_POLICY_AUTO_EVAC = 0)) ∧
    (∃ (ch : Nat) (s : State), (ch < 384) ∧ ((channel s ch).correctedSec = s.time.sec) ∧ (fld s (pageHbm (ch / 32))
      Reg.CE_POLICY_THRESHOLD ≤ (channel s ch).correctedNow) ∧ (fld s (pageHbm (ch / 32)) Reg.CE_POLICY_AUTO_EVAC ≠ 0) ∧
      ((channel s ch).evacuated = false) ∧ ((channel s ch).fenced = false) ∧ (evacPending s ch = false) ∧ (s.hbm.evac.isSome =
      true)) ∧
    (∃ (n : Nat) (r : Int), (n < 12) ∧ (r ≤ 1050)) ∧
    (∃ (n : Nat) (r : Int) (s : State), (n < 12) ∧ (1050 < r) ∧ ((stack s n).fenced = false)) ∧
    (∃ (n : Nat) (s : State), (n < 12) ∧ ((stack s n).unread = 2) ∧ ((stack s n).fenced = false)) ∧
    (∃ (n : Nat) (r : Int) (rs : List Int) (s : State), (n < 12) ∧ ((stack s n).readings = r :: rs)) ∧
    (∃ (n : Nat) (s : State), (n < 12) ∧ ((stack s n).fenced = true) ∧ (1000 ≤ (stack s n).coolMs) ∧ (tst (fld s 2 Reg.PLL_LOCK)
      (3 + n) = true)) ∧
    (∃ (n i : Nat) (s : State), (n < 12) ∧ (fld s (pageHbm n) Reg.CAL_CTRL_FREEZE = 0) ∧ ((stack s n).fenced = false) ∧
      (stackRetraining s n = false) ∧ (List.find? (fun j ↦ retrainable s (32 * n + j)) (List.map (fun j ↦ ((stack s
      n).nextRetrain + j) % 32) (List.range 32)) = some i)) ∧
    (∃ (ch : Nat) (s : State), (ch < 384) ∧ ((channel s ch).announced = true) ∧ ((channel s ch).paused = false) ∧ (retrainOp s
      ch = false)) ∧
    (∃ (ch : Nat) (s : State), (ch < 384) ∧ ((channel s ch).paused = true)) ∧
    (∃ (n : Nat), (n < 12)) ∧
    (∃ (n ch : Nat) (s : State), (n < 12) ∧ (ch / 32 = n) ∧ (serves s ch = true) ∧ (pageOp s (pageHbm n) = none) ∧
      (stackRetraining s n = false)) ∧
    (∃ (n ch : Nat) (s : State), (n < 12) ∧ (ch / 32 = n) ∧ (serves s ch = true) ∧ (pageOp s (pageHbm n) = none) ∧
      (stackRetraining s n = false)) := by
  refine ⟨?_, ?_, ?_, ?_, ?_, ?_, ?_, ?_, ?_, ?_, ?_, ?_, ?_⟩
  · exact ⟨383,
        ({ wst [(pageHbm 11, Reg.CE_POLICY_THRESHOLD, 1000), (pageHbm 11, Reg.CE_POLICY_AUTO_EVAC, 0)] with hbm := { channels := [(383, { correctedNow := 1000 })] } }),
        by decide⟩
  · exact ⟨383,
        ({ wst [(pageHbm 11, Reg.CE_POLICY_THRESHOLD, 1000), (pageHbm 11, Reg.CE_POLICY_AUTO_EVAC, 1)] with hbm := { channels := [(383, { correctedNow := 1000 })], evac := some { channel := 0, owner := true, blocks := 1 } } }),
        by decide⟩
  · exact ⟨11, 1050, by decide⟩
  · exact ⟨11, 1051, State.reset, by decide⟩
  · exact ⟨11, ({ wst [] with hbm := { stackSet := [(11, { unread := 2 })] } }), by decide⟩
  · exact ⟨11, 800, ([]), ({ wst [] with hbm := { stackSet := [(11, { readings := [800] })] } }), by decide⟩
  · exact ⟨11, ({ wst [(2, Reg.PLL_LOCK, 2 ^ 14)] with hbm := { stackSet := [(11, { fenced := true, coolMs := 1000 })] } }),
        by decide⟩
  · exact ⟨11, 0, State.reset, by decide⟩
  · exact ⟨383, ({ wst [] with hbm := { channels := [(383, { announced := true })] } }), by decide⟩
  · exact ⟨383, ({ wst [] with hbm := { channels := [(383, { paused := true })] } }), by decide⟩
  · exact ⟨11, by decide⟩
  · exact ⟨11, 383, State.reset, by decide⟩
  · exact ⟨11, 383, State.reset, by decide⟩

/-- What `EvacuationPlacementAndWays` assumes holds somewhere. -/
theorem witness_EvacuationPlacementAndWays :
    (∃ (n ch : Nat) (s : State), (n < 12) ∧ (ch / 32 = n) ∧ ((channel s ch).evacuated = false) ∧ (evacPending s ch = false) ∧
      (pageOp s (pageHbm n) = none) ∧ (s.hbm.evac.isSome = true)) ∧
    (∃ (n ch : Nat) (ts : List (Nat × Nat)) (s : State), (n < 12) ∧ (ch / 32 = n) ∧ ((channel s ch).evacuated = false) ∧ (pageOp
      s (pageHbm n) = none) ∧ (s.hbm.evac = none) ∧ (s.hbm.waiting = []) ∧ (remapOf s ch = some ts)) ∧
    (∃ (r : EvacReq) (rest : List EvacReq) (s : State), (s.hbm.evac = none) ∧ (s.hbm.waiting = r :: rest) ∧ ((channel s
      r.channel).evacuated = false)) ∧
    (∃ (b : Nat) (e : EvacRun) (s : State), (s.hbm.evac = some e) ∧ (e.paused = false) ∧ (b < e.blocks) ∧ (e.doneBits.contains b
      = false)) ∧
    (∃ (x : Nat) (e : EvacRun) (s : State), (s.hbm.evac = some e) ∧ (e.targets.contains x = true)) ∧
    (∃ (e : EvacRun) (s : State), (s.hbm.evac = some e) ∧ (e.blocks ≤ e.doneBits.length)) ∧
    (∃ (k : Nat) (s : State), (k < 64) ∧ (fld s (pageCtx k) Reg.PLACE_CTRL_ENABLE = 1) ∧ (fld s (pageCtx k)
      Reg.PLACE_CTRL_FREEZE = 0) ∧ (ctxState s k = 2) ∧ (fld s (pageCtx k) Reg.PLACE_COUNT_ADDR ≠ 0)) ∧
    (∃ (k : Nat) (m : Migration) (s : State), (firstMigration s k = some m) ∧ (m.withdrawn = false) ∧ ((frame s m.frameA).state
      ≠ FrameState.gone) ∧ ((frame s m.frameB).state ≠ FrameState.gone) ∧ (badIn s m.frameA = none)) ∧
    (∃ (k : Nat) (m : Migration) (i : Inval) (s : State), (firstMigration s k = some m) ∧ (m.withdrawn = true) ∧ (List.find?
      (fun i ↦ i.ctx == k && i.placement && i.epoch == m.epoch) s.xlate.invals = some i) ∧ (i.waiting = []) ∧ ((frame s
      m.frameA).state ≠ FrameState.gone) ∧ ((frame s m.frameB).state ≠ FrameState.gone) ∧ (badIn s m.frameA = none) ∧
      (s.xlate.heldReqs = []) ∧ (s.xlate.heldGuest = [])) ∧
    (∃ (k r : Nat) (s : State), (pageOpen s 0 k = true) ∧ (r < 2 ^ 34)) ∧
    (∃ (k r : Nat) (s : State), (pageOpen s 0 k = true) ∧ (r < 2 ^ 34)) ∧
    (∃ (k r : Nat) (s : State), (pageOpen s 0 k = true) ∧ (r < 2 ^ 34)) ∧
    (∃ (k m : Nat) (s : State), (k < 64) ∧ (m < 65536) ∧ (bindState s (pageCtx k) = 0) ∧ (maskOk s k m = true)) ∧
    (∃ (k : Nat) (s : State), (k < 64) ∧ (bindState s (pageCtx k) ≠ 0)) := by
  refine ⟨?_, ?_, ?_, ?_, ?_, ?_, ?_, ?_, ?_, ?_, ?_, ?_, ?_, ?_⟩
  · exact ⟨11, 383, ({ wst [] with hbm := { evac := some { channel := 0, owner := true, blocks := 1 } } }), by decide⟩
  · exact ⟨11, 383, ((remapOf State.reset 383).getD []), State.reset, by decide +kernel⟩
  · exact ⟨(⟨383, true⟩), ([]), ({ wst [] with hbm := { waiting := [⟨383, true⟩] } }), by decide⟩
  · exact ⟨0, ({ channel := 0, owner := true, blocks := 1 }),
        ({ wst [] with hbm := { evac := some { channel := 0, owner := true, blocks := 1 } } }), by decide⟩
  · exact ⟨7, ({ channel := 0, owner := true, blocks := 1, targets := [7] }),
        ({ wst [] with hbm := { evac := some { channel := 0, owner := true, blocks := 1, targets := [7] } } }), by decide⟩
  · exact ⟨({ channel := 0, owner := true, blocks := 1, doneBits := [0] }),
        ({ wst [] with hbm := { evac := some { channel := 0, owner := true, blocks := 1, doneBits := [0] } } }), by decide⟩
  · exact ⟨63, (wst [(pageCtx 63, Reg.PLACE_CTRL_ENABLE, 1), (pageCtx 63, Reg.CTX_STATUS_STATE, 2), (pageCtx 63,
        Reg.PLACE_COUNT_ADDR, 1)]), by decide⟩
  · exact ⟨63, ({ wmig with frameA := 2 ^ 27, frameB := 0 }),
        ({ State.reset with xlate := { migrations := [{ wmig with frameA := 2 ^ 27, frameB := 0 }] }, mem := { frames := [(0, { ctx := 63, state := .owned }), (2 ^ 27, { ctx := 63, state := .owned })] } }),
        by decide +kernel⟩
  · exact ⟨63, ({ wmig with frameA := 2 ^ 27, frameB := 0, withdrawn := true, epoch := 1 }), ({ winv with placement := true }),
        ({ State.reset with xlate := { migrations := [{ wmig with frameA := 2 ^ 27, frameB := 0, withdrawn := true, epoch := 1 }], invals := [{ winv with placement := true }] }, mem := { frames := [(0, { ctx := 63, state := .owned }), (2 ^ 27, { ctx := 63, state := .owned })] } }),
        by decide +kernel⟩
  · exact ⟨0, (2 ^ 34 - 1), State.reset, by decide⟩
  · exact ⟨0, (2 ^ 34 - 1), State.reset, by decide⟩
  · exact ⟨0, (2 ^ 34 - 1), State.reset, by decide⟩
  · exact ⟨63, 0x3FFF, State.reset, by decide⟩
  · exact ⟨63, (wst [(pageCtx 63, Reg.BINDING_STATE, 1)]), by decide⟩

/-- What `DirectoryGrantsAndSnoops` assumes holds somewhere. -/
theorem witness_DirectoryGrantsAndSnoops :
    (∃ (h h' : Header) (a : Nat) (l : Line) (s : State), (h' = { h with opcode := 64 }) ∧ (h.xlated = true) ∧ (isHbm h.addr =
      true) ∧ (agentOf s h.src h.srcSub = some a) ∧ (s.coh.breaches = []) ∧ (isTransient s (lineBase h.addr) = false) ∧
      (findLine s (lineBase h.addr) = some l) ∧ (l.ctx = h.ctx) ∧ (l.dir = 0) ∧ (l.valid = 15)) ∧
    (∃ (h h' : Header) (a : Nat) (l : Line) (s : State), (h' = { h with opcode := 64 }) ∧ (h.xlated = true) ∧ (isHbm h.addr =
      true) ∧ (agentOf s h.src h.srcSub = some a) ∧ (s.coh.breaches = []) ∧ (isTransient s (lineBase h.addr) = false) ∧
      (findLine s (lineBase h.addr) = some l) ∧ (l.ctx = h.ctx) ∧ (l.dir ≠ 0) ∧ (l.excl = false) ∧ (tst l.dir a = false) ∧
      (l.valid = 15)) ∧
    (∃ (h h' : Header) (a : Nat) (l : Line) (s : State), (h' = { h with opcode := 65 }) ∧ (h.xlated = true) ∧ (isHbm h.addr =
      true) ∧ (agentOf s h.src h.srcSub = some a) ∧ (s.coh.breaches = []) ∧ (isTransient s (lineBase h.addr) = false) ∧
      (findLine s (lineBase h.addr) = some l) ∧ (l.ctx = h.ctx) ∧ (l.dir = 0) ∧ (l.valid = 15)) ∧
    (∃ (h h' : Header) (a : Nat) (l : Line) (s : State), (h' = { h with opcode := 65 }) ∧ (h.xlated = true) ∧ (isHbm h.addr =
      true) ∧ (agentOf s h.src h.srcSub = some a) ∧ (s.coh.breaches = []) ∧ (isTransient s (lineBase h.addr) = false) ∧
      (findLine s (lineBase h.addr) = some l) ∧ (l.ctx = h.ctx) ∧ (l.dir ≠ 0) ∧ (l.excl = true) ∧ (tst l.dir a = false)) ∧
    (∃ (h h' : Header) (a : Nat) (l : Line) (s : State), (h' = { h with opcode := 66 }) ∧ (h.xlated = true) ∧ (isHbm h.addr =
      true) ∧ (agentOf s h.src h.srcSub = some a) ∧ (s.coh.breaches = []) ∧ (isTransient s (lineBase h.addr) = false) ∧
      (findLine s (lineBase h.addr) = some l) ∧ (l.ctx = h.ctx) ∧ (l.dir ≠ 0) ∧ (l.excl = false) ∧ (clrBit l.dir a = 0)) ∧
    (∃ (h h' : Header) (a : Nat) (l : Line) (s : State), (h' = { h with opcode := 67 }) ∧ (h.xlated = true) ∧ (isHbm h.addr =
      true) ∧ (h.noResp = false) ∧ (agentOf s h.src h.srcSub = some a) ∧ (s.coh.breaches = []) ∧ (findLine s (lineBase h.addr) =
      some l) ∧ (tst l.dir a = true) ∧ (l.excl = false) ∧ ((homeLine s (lineBase h.addr)).state = HomeState.i)) ∧
    (∃ (h h' : Header) (a : Nat) (l : Line) (s : State), (h' = { h with opcode := 68 }) ∧ (h.xlated = true) ∧ (isHbm h.addr =
      true) ∧ (h.noResp = false) ∧ (agentOf s h.src h.srcSub = some a) ∧ (s.coh.breaches = []) ∧ (findLine s (lineBase h.addr) =
      some l) ∧ (l.dir = 2 ^ a) ∧ (l.excl = true)) ∧
    (∃ (a pa : Nat) (l : Line) (s : State), (a < 40) ∧ (isHbm pa = true) ∧ (s.coh.breaches = []) ∧ ((homeLine s (lineBase
      pa)).state = HomeState.snpI) ∧ (tst (homeLine s (lineBase pa)).pending a = true) ∧ (clrBit (homeLine s (lineBase
      pa)).pending a ≠ 0) ∧ (findLine s (lineBase pa) = some l)) ∧
    (∃ (a b pa : Nat) (hd : Header) (l : Line) (s : State), (a < 40) ∧ (isHbm pa = true) ∧ (s.coh.breaches = []) ∧ ((homeLine s
      (lineBase pa)).state = HomeState.snpI) ∧ ((homeLine s (lineBase pa)).pending = 2 ^ a) ∧ ((homeLine s (lineBase pa)).inHand
      = some (HomeReq.rdOwn b hd)) ∧ ((homeLine s (lineBase pa)).queue = []) ∧ (findLine s (lineBase pa) = some l) ∧ (l.dir = 2
      ^ a) ∧ (l.valid = 15)) ∧
    (∃ (pa mask a : Nat) (hd : Header) (l : Line) (s : State), (isHbm pa = true) ∧ (s.coh.breaches = []) ∧ ((homeLine s
      (lineBase pa)).state = HomeState.if_) ∧ ((homeLine s (lineBase pa)).inHand = some (HomeReq.rdShared a hd)) ∧ ((homeLine s
      (lineBase pa)).queue = []) ∧ (findLine s (lineBase pa) = some l) ∧ (l.ctx = hd.ctx) ∧ (l.dir = 0) ∧ (lineBase hd.addr =
      lineBase pa) ∧ (l.valid ||| mask % 16 - (mask % 16 &&& l.valid) = 15)) ∧
    (∃ (pa status a : Nat) (hd : Header) (s : State), (isHbm pa = true) ∧ (s.coh.breaches = []) ∧ (status ≠ 0) ∧ ((homeLine s
      (lineBase pa)).state = HomeState.if_) ∧ ((homeLine s (lineBase pa)).inHand = some (HomeReq.rdShared a hd)) ∧ (hd.noResp =
      false) ∧ ((homeLine s (lineBase pa)).queue = [])) ∧
    (∃ (a pa : Nat) (l : Line) (s : State), (32 ≤ a) ∧ (a < 40) ∧ (isHbm pa = true) ∧ (s.coh.breaches = []) ∧ ((homeLine s
      (lineBase pa)).state = HomeState.snpI) ∧ (tst (homeLine s (lineBase pa)).pending a = true) ∧ (clrBit (homeLine s (lineBase
      pa)).pending a ≠ 0) ∧ (findLine s (lineBase pa) = some l) ∧ (l.excl = false) ∧ (fld s (homePage (lineBase pa))
      Reg.PAGE_CTRL_COUNTER_FREEZE = 0)) := by
  refine ⟨?_, ?_, ?_, ?_, ?_, ?_, ?_, ?_, ?_, ?_, ?_, ?_⟩
  · exact ⟨wcore, ({ wcore with opcode := 64 }), 32, (wline (0) false), (wcache (0) false {}), by decide⟩
  · exact ⟨wcore, ({ wcore with opcode := 64 }), 32, (wline (1) false), (wcache (1) false {}), by decide⟩
  · exact ⟨wcore, ({ wcore with opcode := 65 }), 32, (wline (0) false), (wcache (0) false {}), by decide⟩
  · exact ⟨wcore, ({ wcore with opcode := 65 }), 32, (wline (1) true), (wcache (1) true {}), by decide⟩
  · exact ⟨wcore, ({ wcore with opcode := 66 }), 32, (wline (2 ^ 32) false), (wcache (2 ^ 32) false {}), by decide⟩
  · exact ⟨wcore, ({ wcore with opcode := 67 }), 32, (wline (2 ^ 32) false), (wcache (2 ^ 32) false {}), by decide⟩
  · exact ⟨wcore, ({ wcore with opcode := 68 }), 32, (wline (2 ^ 32) true), (wcache (2 ^ 32) true {}), by decide⟩
  · exact ⟨39, 0, (wline (0) false), (wcache (0) false { state := .snpI, pending := 2 ^ 39 + 1 }), by decide⟩
  · exact ⟨39, 0, 0, ({}), (wline (2 ^ 39) true),
        (wcache (2 ^ 39) true { state := .snpI, pending := 2 ^ 39, inHand := some (.rdOwn 0 {}) }), by decide⟩
  · exact ⟨0, 15, 0, ({}), (wline (0) false), (wcache (0) false { state := .if_, inHand := some (.rdShared 0 {}) }), by decide⟩
  · exact ⟨0, 1, 0, ({}), ({ State.reset with coh := { homes := [(0, { state := .if_, inHand := some (.rdShared 0 {}) })] } }),
        by decide⟩
  · exact ⟨39, 0, (wline (0) false), (wcache (0) false { state := .snpI, pending := 2 ^ 39 + 1 }), by decide⟩

/-- What `CachingAgents` assumes holds somewhere. -/
theorem witness_CachingAgents :
    (∃ (m pa : Nat) (s : State), (coreAble s m pa = true) ∧ ((agLine s (32 + m) pa).state = AgState.i) ∧ (agentBusy s (32 + m) <
      16)) ∧
    (∃ (m pa : Nat) (s : State), (coreAble s m pa = true) ∧ ((agLine s (32 + m) pa).state = AgState.s) ∧ (agentBusy s (32 + m) <
      16)) ∧
    (∃ (m pa : Nat) (data : List Byte) (s : State), (coreAble s m pa = true) ∧ ((agLine s (32 + m) pa).state = AgState.m ∨
      (agLine s (32 + m) pa).state = AgState.e) ∧ (pa % 128 + data.length ≤ 128)) ∧
    (∃ (m pa : Nat) (s : State), (m < 8) ∧ (isHbm pa = true) ∧ (agentBusy s (32 + m) < 16) ∧ ((agLine s (32 + m) pa).state =
      AgState.m)) ∧
    (∃ (a pa : Nat) (s : State), (32 ≤ a) ∧ (a < 40) ∧ (isHbm pa = true) ∧ (portHold s a pa = { }) ∧ ((agLine s a pa).state =
      AgState.s)) ∧
    (∃ (a pa : Nat) (s : State), (32 ≤ a) ∧ (a < 40) ∧ (isHbm pa = true) ∧ (portHold s a pa = { }) ∧ ((agLine s a pa).state =
      AgState.m)) ∧
    (∃ (a pa : Nat) (s : State), (a < 40) ∧ (isHbm pa = true) ∧ ((portHold s a pa).holding = true)) ∧
    (∃ (a pa : Nat) (s : State), (a < 32) ∧ (isHbm pa = true) ∧ (portHold s a pa = { }) ∧ ((agLine s a pa).state = AgState.i)) ∧
    (∃ (a pa : Nat) (s : State), (32 ≤ a) ∧ (a < 40) ∧ (isHbm pa = true) ∧ ((agLine s a pa).state = AgState.imD)) ∧
    (∃ (a pa status : Nat) (s : State), (32 ≤ a) ∧ (a < 40) ∧ (isHbm pa = true) ∧ (status ≠ 0) ∧ ((agLine s a pa).state =
      AgState.isD) ∧ (portHold s a pa = { })) ∧
    (∃ (a pa : Nat), (a < 32) ∧ (isHbm pa = true)) ∧
    (∃ (a pa : Nat) (s : State), ((agLine s a pa).state = AgState.miA ∨ (agLine s a pa).state = AgState.ciA)) ∧
    (∃ (a pa : Nat) (s : State), ((portHold s a pa).holding = true) ∧ ((portHold s a pa).waiting = [])) := by
  refine ⟨?_, ?_, ?_, ?_, ?_, ?_, ?_, ?_, ?_, ?_, ?_, ?_, ?_⟩
  · exact ⟨7, 0, (wagent 39 .i), by decide⟩
  · exact ⟨7, 0, (wagent 39 .s), by decide⟩
  · exact ⟨7, 0, ([1]), (wagent 39 .m), by decide⟩
  · exact ⟨7, 0, (wagent 39 .m), by decide⟩
  · exact ⟨39, 0, (wagent 39 .s), by decide⟩
  · exact ⟨39, 0, (wagent 39 .m), by decide⟩
  · exact ⟨39, 0, ({ State.reset with coh := { holds := [(agKey 39 0, { holding := true })] } }), by decide⟩
  · exact ⟨31, 0, State.reset, by decide⟩
  · exact ⟨39, 0, (wagent 39 .imD), by decide⟩
  · exact ⟨39, 0, 1, (wagent 39 .isD), by decide⟩
  · exact ⟨31, 0, by decide⟩
  · exact ⟨39, 0, (wagent 39 .miA), by decide⟩
  · exact ⟨31, 0, ({ State.reset with coh := { holds := [(agKey 31 0, { holding := true })] } }), by decide⟩

/-- What `TranslationRequests` assumes holds somewhere. -/
theorem witness_TranslationRequests :
    (∃ (h h' : Header) (base : Nat) (s : State), (h' = { h with opcode := 96, opArg := 255, hint := 0, lastRead := false }) ∧
      (base = h.addr / 256 * 256) ∧ (h.xlated = true) ∧ (isHbm h.addr = true) ∧ (h.noResp = false) ∧ (s.coh.breaches = []) ∧
      (setSound s base) ∧ (setSound s (base + 128)) ∧ (∀ i < 2, isTransient s (base + 128 * i) = false ∧ ∃ l, findLine s (base +
      128 * i) = some l ∧ l.ctx = h.ctx ∧ l.dir = 0 ∧ l.excl = false ∧ l.valid = 15)) ∧
    (∃ (h h' : Header) (pa : Nat) (s : State), (h' = { h with opcode := 97 }) ∧ (pa = h.addr / 8 * 8) ∧ (h.xlated = true) ∧
      (sectorReady s h.ctx pa)) ∧
    (∃ (x : Nat) (h : Header) (s : State), (x < 87) ∧ (heldPage s h.ctx h.addr = true)) ∧
    (∃ (x : Nat) (h : Header) (l : Leaf) (s : State), (x < 87) ∧ (heldPage s h.ctx h.addr = false) ∧ (walk s h.ctx (h.addr % 2 ^
      55) (b2n (tst h.opArg 0)) = Except.ok l)) ∧
    (∃ (x : Nat) (h : Header) (placement : Bool) (i : Inval) (s : State), (h.noResp = false) ∧ (List.find? (fun i ↦ i.ctx ==
      h.ctx && i.placement == placement && i.epoch % 256 == h.opArg % 256 && i.waiting.contains x) s.xlate.invals = some i)) := by
  refine ⟨?_, ?_, ?_, ?_, ?_⟩
  · exact ⟨({ ctx := 1, xlated := true }), ({ ctx := 1, xlated := true, opcode := 96, opArg := 255 }), 0, whome,
        by exact ⟨by decide, by decide, by decide, by decide, by decide, by decide, by unfold setSound; decide,
        by unfold setSound; decide, (by intro i hi; interval_cases i <;> exact ⟨by decide, _, rfl, by decide⟩)⟩⟩
  · exact ⟨({ ctx := 1, xlated := true }), ({ ctx := 1, xlated := true, opcode := 97 }), 0, whome, by exact ⟨by decide, by decide,
        by decide, by unfold sectorReady setSound; decide +kernel⟩⟩
  · exact ⟨86, ({}), ({ State.reset with xlate := { heldRanges := [(0, 0, 1)] } }), by decide⟩
  · exact ⟨86, ({}), ({ pa := 0, size := 0, entryPa := 0, entry := 7 }), (wmap []), by exact ⟨by decide, by decide,
        by decide +kernel⟩⟩
  · exact ⟨79, ({ ctx := 63, opArg := 1 }), false, ({ winv with waiting := [79] }),
        ({ State.reset with xlate := { invals := [{ winv with waiting := [79] }] } }), by decide⟩

/-- What `FaultsAndInvalidations` assumes holds somewhere. -/
theorem witness_FaultsAndInvalidations :
    (∃ (x : Nat) (h : Header) (l : Leaf) (s : State), (x < 87) ∧ (h.noResp = false) ∧ (walk s h.ctx (h.addr % 2 ^ 55) 1 =
      Except.ok l)) ∧
    (∃ (h : Header), (h.noResp = false)) ∧
    (∃ (h : Header), (h.noResp = false)) ∧
    (∃ (fn k id : Nat) (f : FaultSt) (s : State), (plainOpen s fn k = true) ∧ (id < 256) ∧ (List.find? (fun f ↦ f.ctx == k &&
      f.id == id) s.xlate.faults = some f) ∧ (s.xlate.unrecorded = [])) ∧
    (∃ (fn k epoch : Nat) (s : State), (plainOpen s fn k = true) ∧ (epoch < 2 ^ 32) ∧ (epoch = (fld s (pageWin k 0)
      Reg.INV_STATUS_POSTED + 1) % 2 ^ 32) ∧ ((fld s (pageWin k 0) Reg.INV_STATUS_POSTED + 2 ^ 32 - fld s (pageWin k 0)
      Reg.INV_STATUS_DONE) % 2 ^ 32 < 16) ∧ (fld s (pageWin k 0) Reg.INV_RANGE_PAGES ≠ 0)) ∧
    (∃ (k : Nat) (i : Inval) (s : State), (List.find? (fun i ↦ i.ctx == k && !i.placement) s.xlate.invals = some i) ∧ (i.waiting
      = [])) ∧
    (∃ (fn k : Nat) (s : State), (plainOpen s fn k = true) ∧ (fld s (pageWin k 0) Reg.CQ_CFG_ENABLE = 0) ∧ (∀ r < 16, ringOn s k
      r = false ∧ ringOutstanding s k r = 0)) ∧
    (∃ (fn k l : Nat) (s : State), (plainOpen s fn k = true) ∧ (fld s (pageWin k 0) Reg.FQ_CFG_ENABLE = 0) ∧ (8 ≤ l) ∧ (l ≤ 12)) ∧
    (∃ (fn k : Nat) (s : State), (plainOpen s fn k = true) ∧ (faultCount s k = 0)) ∧
    (∃ (fn k h : Nat) (s : State), (plainOpen s fn k = true) ∧ (h < 4096) ∧ (fld s (pageWin k 0) Reg.FQ_CFG_ENABLE = 1) ∧
      (headOk (fld s (pageWin k 0) Reg.FQ_CFG_LOG2_SIZE) (fld s (pageWin k 0) Reg.FQ_STATUS_TAIL) (fld s (pageWin k 0)
      Reg.FQ_STATUS_HEAD) h = true)) ∧
    (∃ (k id : Nat) (f : FaultSt) (s : State), (0 < k) ∧ (k < 64) ∧ (fld s (pageCtx k) Reg.FAULT_POLICY_TIMEOUT_MS ≠ 0) ∧
      (List.find? (fun f ↦ f.ctx == k && f.id == id) s.xlate.faults = some f) ∧ (ctxState s k = 2)) ∧
    (∃ (n k epoch : Nat) (s : State), (n < 8) ∧ ((s.xlate.invals.any fun i ↦ i.ctx == k && i.epoch == epoch &&
      i.waiting.contains (72 + n)) = true) ∧ (siteLink s n ≠ 9)) ∧
    (∃ (k : Nat) (e : Envelope) (s : State), (0 < k) ∧ (k < 64) ∧ (fld s (pageWin k 1) Reg.IN_STATUS_BUSY = 0) ∧ (envelopeOk
      (ctx s k) e = true) ∧ (fld s (pageWin k 0) Reg.CQ_CFG_ENABLE = 0) ∧ (∀ r < 16, ringOn s k r = false ∧ ringOutstanding s k
      r = 0)) ∧
    (∃ (k pages cmd : Nat) (e : Envelope) (s : State), (0 < k) ∧ (k < 64) ∧ (fld s (pageWin k 1) Reg.IN_STATUS_BUSY = 0) ∧
      (envelopeOk (ctx s k) e = true) ∧ (cmd % 2 ^ 32 = (fld s (pageWin k 0) Reg.INV_STATUS_POSTED + 1) % 2 ^ 32) ∧ ((fld s
      (pageWin k 0) Reg.INV_STATUS_POSTED + 2 ^ 32 - fld s (pageWin k 0) Reg.INV_STATUS_DONE) % 2 ^ 32 < 16) ∧ (bits pages 39 0
      ≠ 0)) ∧
    (∃ (k word : Nat) (e : Envelope) (f : FaultSt) (s : State), (0 < k) ∧ (k < 64) ∧ (fld s (pageWin k 1) Reg.IN_STATUS_BUSY =
      0) ∧ (envelopeOk (ctx s k) e = true) ∧ (bits word 9 8 = 1) ∧ (List.find? (fun f ↦ f.ctx == k && f.id == bits word 7 0)
      s.xlate.faults = some f) ∧ (s.xlate.unrecorded = [])) ∧
    (∃ (k : Nat) (e : Envelope) (s : State), (0 < k) ∧ (k < 64) ∧ (fld s (pageWin k 1) Reg.IN_STATUS_BUSY = 0) ∧ (envelopeOk
      (ctx s k) e = true)) := by
  refine ⟨?_, ?_, ?_, ?_, ?_, ?_, ?_, ?_, ?_, ?_, ?_, ?_, ?_, ?_, ?_, ?_⟩
  · exact ⟨86, ({}), ({ pa := 0, size := 0, entryPa := 0, entry := 7 }), (wmap []), by exact ⟨by decide, by decide,
        by decide +kernel⟩⟩
  · exact ⟨({}), by decide⟩
  · exact ⟨({}), by decide⟩
  · exact ⟨63, 63, 255, wfault, ({ State.reset with xlate := { faults := [wfault] } }), by decide⟩
  · exact ⟨63, 63, 1, (wst [(pageWin 63 0, Reg.INV_RANGE_PAGES, 1)]), by decide⟩
  · exact ⟨63, winv, ({ State.reset with xlate := { invals := [winv] } }), by decide⟩
  · exact ⟨63, 63, State.reset, by decide⟩
  · exact ⟨63, 63, 12, State.reset, by decide⟩
  · exact ⟨63, 63, State.reset, by decide⟩
  · exact ⟨63, 63, 1, (wst [(pageWin 63 0, Reg.FQ_CFG_ENABLE, 1), (pageWin 63 0, Reg.FQ_CFG_LOG2_SIZE, 12), (pageWin 63 0,
        Reg.FQ_STATUS_TAIL, 1)]), by decide⟩
  · exact ⟨63, 255, wfault,
        ({ wst [(pageCtx 63, Reg.FAULT_POLICY_TIMEOUT_MS, 1), (pageCtx 63, Reg.CTX_STATUS_STATE, 2)] with xlate := { faults := [wfault] } }),
        by decide⟩
  · exact ⟨7, 63, 1, ({ State.reset with xlate := { invals := [{ winv with waiting := [79] }] } }), by decide⟩
  · exact ⟨63, wenv, (wwin []), by decide⟩
  · exact ⟨63, 1, 1, wenv, (wwin []), by decide⟩
  · exact ⟨63, 0x1FF, wenv, wfault, ({ wwin [] with xlate := { faults := [wfault] } }), by decide⟩
  · exact ⟨63, wenv, (wwin []), by decide⟩

/-- What `BandwidthRegulation` assumes holds somewhere. -/
theorem witness_BandwidthRegulation :
    (∃ (n q : Nat) (e : Header × List Unit256) (rest : List (Header × List Unit256)) (s : State), (n < 12) ∧ (q < 32) ∧
      (takeFirst (fun e ↦ channelOpen s (32 * n + q) e.1.ctx) (queueOf s (32 * n + q)) = some (e, rest))) ∧
    (∃ (k c g : Nat) (s : State), (k < 64) ∧ (c < 8) ∧ (g < 65536) ∧ (isSealed s k = false) ∧ (guaranteed (setFld (pageCtx k)
      (Reg.REG_CLASS_GUARANTEE.at 8 c) g (refreshPools s)) (poolOfClass s c) ≤ guaranteed (refreshPools s) (poolOfClass s c))) ∧
    (∃ (k c g : Nat) (s : State), (k < 64) ∧ (c < 8) ∧ (g < 65536) ∧ (isSealed s k = false) ∧ (guaranteed (refreshPools s)
      (poolOfClass s c) < guaranteed (setFld (pageCtx k) (Reg.REG_CLASS_GUARANTEE.at 8 c) g (refreshPools s)) (poolOfClass s c))
      ∧ (4 * deliver (refreshPools s) (poolOfClass s c) < 5 * guaranteed (setFld (pageCtx k) (Reg.REG_CLASS_GUARANTEE.at 8 c) g
      (refreshPools s)) (poolOfClass s c)) ∧ (fld s 6 Reg.PAGE_CTRL_COUNTER_FREEZE = 0)) ∧
    (∃ (i c base : Nat) (s : State), (i < 16) ∧ (c < 8) ∧ (base < 2 ^ 31) ∧ (framesIn (poolOfClass s c) base (fld s 6
      (Reg.RANGE_END_LAST.at 16 i)) = true)) ∧
    (∃ (i c base : Nat) (s : State), (i < 16) ∧ (c < 8) ∧ (base < 2 ^ 31) ∧ (framesIn (poolOfClass s c) base (fld s 6
      (Reg.RANGE_END_LAST.at 16 i)) = false)) ∧
    (∃ (v : Nat) (s : State), (v < 65536) ∧ (∀ c < 8, bits v (2 * c + 1) (2 * c) ≠ poolOfClass s c → classHeld s c (bits v (2 *
      c + 1) (2 * c)) = false)) ∧
    (∃ (ch slot : Nat), (ch < 384) ∧ (slot < 64)) ∧
    (∃ (k tag age : Nat) (e : Header × List Unit256 × Nat) (rest : List (Header × List Unit256 × Nat)) (s : State), (takeFirst
      (fun e ↦ e.1.tag == tag && decide (e.2.2 ≤ age)) (ctx s k).paced = some (e, rest))) := by
  refine ⟨?_, ?_, ?_, ?_, ?_, ?_, ?_, ?_⟩
  · exact ⟨11, 31, (({}, [])), ([]), ({ State.reset with hbm := { queues := [(383, [({}, [])])] } }), by decide⟩
  · exact ⟨63, 7, 0, State.reset, by decide +kernel⟩
  · exact ⟨63, 7, 65535, State.reset, by decide +kernel⟩
  · exact ⟨15, 0, 0, State.reset, by decide +kernel⟩
  · exact ⟨15, 0, (2 ^ 31 - 1), State.reset, by decide +kernel⟩
  · exact ⟨0x9500, State.reset, by decide +kernel⟩
  · exact ⟨383, 63, by decide⟩
  · exact ⟨63, 1, 2, (({ tag := 1 }, [], 2)), ([]), (wctx 63 { paced := [({ tag := 1 }, [], 2)] } []), by decide⟩

/-- What `ContextLifecycle` assumes holds somewhere. -/
theorem witness_ContextLifecycle :
    (∃ (k : Nat) (s : State), (0 < k) ∧ (k < 64) ∧ (ctxState s k = 0) ∧ (vfEnable s = true) ∧ (k ≤ numVfs s)) ∧
    (∃ (k : Nat) (s : State), (0 < k) ∧ (k < 64) ∧ (ctxState s k ≠ 0)) ∧
    (∃ (k : Nat) (s : State), (0 < k) ∧ (k < 64) ∧ (sealReason s k = none)) ∧
    (∃ (k : Nat) (s : State), (0 < k) ∧ (k < 64) ∧ (ctxState s k = 1) ∧ (isSealed s k = false)) ∧
    (∃ (k : Nat) (s : State), (0 < k) ∧ (k < 64) ∧ (ctxState s k = 1) ∧ (isSealed s k = true)) ∧
    (∃ (k : Nat) (s : State), (0 < k) ∧ (k < 64) ∧ (ctxState s k = 2)) ∧
    (∃ (k : Nat) (s : State), (0 < k) ∧ (k < 64) ∧ (ctxState s k = 2 ∨ ctxState s k = 3)) ∧
    (∃ (k : Nat) (s : State), (0 < k) ∧ (k < 64) ∧ (ctxState s k = 3 ∨ ctxState s k = 4)) ∧
    (∃ (k : Nat) (s : State), (0 < k) ∧ (k < 64) ∧ (ctxState s k ≠ 0) ∧ (ctxState s k ≠ 6)) ∧
    (∃ (k : Nat) (s : State), (0 < k) ∧ (k < 64) ∧ (ctxState s k = 6) ∧ ((ctx s k).coppice = none) ∧ (∀ e ∈ (ctx s k).ending,
      ashedReady s e = true)) := by
  refine ⟨?_, ?_, ?_, ?_, ?_, ?_, ?_, ?_, ?_, ?_⟩
  · exact ⟨63, ({ State.reset with host := wcfg }), by decide⟩
  · exact ⟨63, (wst [(pageCtx 63, Reg.CTX_STATUS_STATE, 1)]), by decide⟩
  · exact ⟨63, (wst [(pageCtx 63, Reg.CTX_STATUS_STATE, 1), (pageCtx 63, Reg.CACHE_POLICY_WAY_MASK, 1), (0x00D,
        Reg.DEBUG_STATE_OPEN, 0)]), by decide +kernel⟩
  · exact ⟨63, (wst [(pageCtx 63, Reg.CTX_STATUS_STATE, 1)]), by decide⟩
  · exact ⟨63, (wst [(pageCtx 63, Reg.CTX_STATUS_STATE, 1), (pageCtx 63, Reg.CTX_STATUS_SEALED, 1)]), by decide⟩
  · exact ⟨63, (wst [(pageCtx 63, Reg.CTX_STATUS_STATE, 2)]), by decide⟩
  · exact ⟨63, (wst [(pageCtx 63, Reg.CTX_STATUS_STATE, 3)]), by decide⟩
  · exact ⟨63, (wst [(pageCtx 63, Reg.CTX_STATUS_STATE, 4)]), by decide⟩
  · exact ⟨63, (wst [(pageCtx 63, Reg.CTX_STATUS_STATE, 5)]), by decide⟩
  · exact ⟨63, (wst [(pageCtx 63, Reg.CTX_STATUS_STATE, 6)]), by decide⟩

/-- What `Coppices` assumes holds somewhere. -/
theorem witness_Coppices :
    (∃ (k n : Nat) (park : Bool) (s : State), (coppiceAllowed k 1 n 1 k park s)) ∧
    (∃ (k n x : Nat) (park : Bool) (s : State), (coppiceAllowed k 1 n 1 x park s) ∧ (x ≠ k)) ∧
    (∃ (k i n : Nat) (s : State), (coppiceAllowed k 2 i n k false s)) ∧
    (∃ (k i n : Nat) (s : State), (coppiceAllowed k 3 i n k false s)) ∧
    (∃ (k n x : Nat) (s : State), (coppiceAllowed k 4 n 1 x false s) ∧ (x ≠ k)) ∧
    (∃ (k i x : Nat) (s : State), (coppiceAllowed k 5 i 1 x false s) ∧ (x ≠ k)) ∧
    (∃ (k h x i : Nat) (s : State), (coppiceAllowed k 6 h 1 x false s) ∧ (x ≠ k) ∧ (roundOfHandle s h = some i) ∧ ((kround s
      i).st ≠ 5)) ∧
    (∃ (k n x reason : Nat) (park : Bool) (s : State), (k < 64) ∧ (pageOp s (pageCtx k) = none) ∧ ((ctx s k).coppice = none) ∧
      (coppiceReason (coppiceAsked k 1 n 1 x park s) k 1 n 1 x = some reason)) ∧
    (∃ (k : Nat) (s : State), (k < 64) ∧ ((pageOp s (pageCtx k)).isSome = true)) ∧
    (∃ (k n : Nat) (park : Bool) (s : State), (k < 64) ∧ (n < 64) ∧ ((ctx s k).coppice = some
      { kind := 1, index := n, count := 1, target := 255, park := park, step := 2 })) := by
  refine ⟨?_, ?_, ?_, ?_, ?_, ?_, ?_, ?_, ?_, ?_⟩
  · exact ⟨63, 63, false, (wst [(pageCtx 63, Reg.CTX_STATUS_STATE, 1)]), by unfold coppiceAllowed; decide +kernel⟩
  · exact ⟨63, 63, 62, false, (wst [(pageTile 63, Reg.BINDING_STATE, 1), (pageTile 63, Reg.BINDING_CTX, 63), (pageCtx 62,
        Reg.CTX_STATUS_STATE, 1)]), by exact ⟨by unfold coppiceAllowed; decide +kernel, by decide⟩⟩
  · exact ⟨63, 380927, 1, (wst [(pageCtx 63, Reg.CTX_STATUS_STATE, 1)]), by unfold coppiceAllowed; decide +kernel⟩
  · exact ⟨63, 15, 1, (wst [(pageCtx 63, Reg.CTX_STATUS_STATE, 1), (pageCtx 0, Reg.CACHE_POLICY_WAY_MASK, 1)]),
        by unfold coppiceAllowed; decide +kernel⟩
  · exact ⟨63, 7, 255, (wst [(pageSite 7, Reg.BINDING_STATE, 1), (pageSite 7, Reg.BINDING_CTX, 63)]),
        by exact ⟨by unfold coppiceAllowed; decide +kernel, by decide⟩⟩
  · exact ⟨63, 1023, 255, (wsess { st := 2, ctx := 63 }), by exact ⟨by unfold coppiceAllowed; decide +kernel, by decide⟩⟩
  · exact ⟨0, 127, 255, 63,
        ({ State.reset with kiln := { rounds := [(63, { handle := 127, policy := [], digest := 0, joined := [0], st := 1 })] } }),
        by exact ⟨by unfold coppiceAllowed; decide +kernel, by decide, by decide, by decide⟩⟩
  · exact ⟨63, 63, 64, 1, false, State.reset, by decide +kernel⟩
  · exact ⟨63, ({ State.reset with ops := [(pageCtx 63, some ⟨1, 0, false⟩)] }), by decide⟩
  · exact ⟨63, 63, false,
        (wctx 63 { coppice := some { kind := 1, index := 63, count := 1, target := 255, park := false, step := 2 } } []),
        by decide⟩

/-- What `SealedWindowMessages` assumes holds somewhere. -/
theorem witness_SealedWindowMessages :
    (∃ (k : Nat) (e : Envelope) (s : State), (0 < k) ∧ (k < 64) ∧ (isSealed s k = true) ∧ (ctxState s k = 1) ∧ ((ctx s
      k).session = 0) ∧ (e.encrypted = false) ∧ (e.bodyLen = 165) ∧ (e.posted = 197) ∧ (e.seq = 0) ∧ (e.session = 0)) ∧
    (∃ (k : Nat) (s : State), (0 < k) ∧ (k < 64) ∧ (isSealed s k = false)) ∧
    (∃ (k : Nat) (e : Envelope) (s : State), (windowOpen s k e) ∧ (ctxState s k = 1)) ∧
    (∃ (k : Nat) (e : Envelope) (s : State), (windowOpen s k e) ∧ (ctxState s k = 0 ∨ ctxState s k = 5)) ∧
    (∃ (k : Nat) (e : Envelope) (s : State), (windowOpen s k e)) ∧
    (∃ (k : Nat) (e : Envelope) (s : State), (windowOpen s k e) ∧ (ctxState s k ≠ 0) ∧ (ctxState s k ≠ 6)) ∧
    (∃ (k : Nat) (e : Envelope) (s : State), (windowOpen s k e)) ∧
    (∃ (k : Nat) (e : Envelope) (s : State), (windowOpen s k e)) ∧
    (∃ (k : Nat) (e : Envelope) (s : State), (windowOpen s k e)) ∧
    (∃ (k : Nat) (m : WinMsg) (rest : List WinMsg) (s : State), (0 < k) ∧ (k < 64) ∧ ((ctx s k).outQ = m :: rest)) ∧
    (∃ (k fn : Nat), (fn ≠ k)) ∧
    (∃ (k : Nat) (e : Envelope) (s : State), (0 < k) ∧ (k < 64) ∧ (envelopeOk (ctx s k) e = false)) := by
  refine ⟨?_, ?_, ?_, ?_, ?_, ?_, ?_, ?_, ?_, ?_, ?_, ?_⟩
  · exact ⟨63, ({ encrypted := false, bodyLen := 165, posted := 197 }), (wst [(pageCtx 63, Reg.CTX_STATUS_SEALED, 1), (pageCtx 63,
        Reg.CTX_STATUS_STATE, 1)]), by decide⟩
  · exact ⟨63, State.reset, by decide⟩
  · exact ⟨63, wenv, (wwin [(pageCtx 63, Reg.CTX_STATUS_STATE, 1)]), by exact ⟨by unfold windowOpen; decide, by decide⟩⟩
  · exact ⟨63, wenv, (wwin [(pageCtx 63, Reg.CTX_STATUS_STATE, 5)]), by exact ⟨by unfold windowOpen; decide, by decide⟩⟩
  · exact ⟨63, wenv, (wwin []), by unfold windowOpen; decide⟩
  · exact ⟨63, wenv, (wwin [(pageCtx 63, Reg.CTX_STATUS_STATE, 2)]), by exact ⟨by unfold windowOpen; decide, by decide, by decide⟩⟩
  · exact ⟨63, wenv, (wwin []), by unfold windowOpen; decide⟩
  · exact ⟨63, wenv, (wwin []), by unfold windowOpen; decide⟩
  · exact ⟨63, wenv, (wwin []), by unfold windowOpen; decide⟩
  · exact ⟨63, ({ type := 1, body := [] }), ([]), (wctx 63 { outQ := [{ type := 1, body := [] }] } []), by decide⟩
  · exact ⟨63, 0, by decide⟩
  · exact ⟨63, ({}), State.reset, by decide⟩

/-- What `AshCommands` assumes holds somewhere. -/
theorem witness_AshCommands :
    (∃ (h : Header) (c : Nat) (s : State), (ashAllowed h false = true) ∧ (nodeBlock h.dst = some (Blk.hbm c)) ∧ (h.xlated =
      true) ∧ (∀ f ∈ ashRange h, frameExists f = true ∧ isHbm (f * 2 ^ 21) = true ∧ (frame s f).state = FrameState.ashing)) ∧
    (∃ (h : Header) (c f : Nat) (s : State), (ashAllowed h false = true) ∧ (nodeBlock h.dst = some (Blk.hbm c)) ∧ (h.xlated =
      true) ∧ (f ∈ ashRange h) ∧ ((frame s f).state ≠ FrameState.ashing)) ∧
    (∃ (h : Header) (n : Nat) (s : State), (ashAllowed h true = true) ∧ (nodeBlock h.dst = some (Blk.home n)) ∧ (∀ f ∈ ashRange
      h, frameExists f = true ∧ (frame s f).state = FrameState.ashing) ∧ (∀ l ∈ cacheLines s fun l ↦ (ashRange h).contains
      (frameOf l.pa) && sliceOf l.pa == n, isTransient s l.pa = false ∧ l.dir = 0)) ∧
    (∃ (h : Header) (n : Nat), (ashAllowed h false = true) ∧ (nodeBlock h.dst = some (Blk.control n)) ∧ (h.opArg % 16 = 0)) ∧
    (∃ (h : Header) (n : Nat), (ashAllowed h false = true) ∧ (nodeBlock h.dst = some (Blk.control n)) ∧ (h.opArg % 16 = 1)) ∧
    (∃ (h : Header) (n : Nat), (ashAllowed h false = true) ∧ (nodeBlock h.dst = some (Blk.site n)) ∧ (h.opArg % 16 = 2)) ∧
    (∃ (h : Header), (ashAllowed h false = true) ∧ ((nodeHolders h.dst).isEmpty = false) ∧ (h.opArg % 256 < 64)) ∧
    (∃ (h : Header) (n : Nat), (ashAllowed h false = true) ∧ (nodeBlock h.dst = some (Blk.home n))) ∧
    (∃ (h : Header), (ashAllowed h false = false)) ∧
    (∃ (h : Header), (ashAllowed h true = false)) := by
  refine ⟨?_, ?_, ?_, ?_, ?_, ?_, ?_, ?_, ?_, ?_⟩
  · exact ⟨({ wash with dst := 8 }), 0, wghost, by decide⟩
  · exact ⟨({ wash with dst := 8 }), 0, 0, State.reset, by decide⟩
  · exact ⟨({ wash with dst := 1 }), 0, wghost, by decide⟩
  · exact ⟨({ wash with dst := 3 }), 0, by decide⟩
  · exact ⟨({ wash with dst := 3, opArg := 1 }), 0, by decide⟩
  · exact ⟨({ wash with dst := 9, opArg := 2 }), 0, by decide⟩
  · exact ⟨({ wash with dst := 2, opArg := 63 }), by decide⟩
  · exact ⟨({ wash with dst := 1 }), 0, by decide⟩
  · exact ⟨({}), by decide⟩
  · exact ⟨({}), by decide⟩

/-- What `KilnPoolsAndRounds` assumes holds somewhere. -/
theorem witness_KilnPoolsAndRounds :
    (∃ (e first n : Nat) (s : State), (e < 2) ∧ (pageOp s (pageKiln e) = none) ∧ (pageOp s (pageKiln (1 - e)) = none) ∧ (fld s
      (pageKiln e) Reg.KILN_POOL_REQ_COUNT = n) ∧ (0 < n) ∧ (first + n ≤ hbmFrames) ∧ (∀ f ∈ firstInRange first n, (frame s
      f).state = FrameState.free)) ∧
    (∃ (e first n : Nat) (s : State), (e < 2) ∧ (pageOp s (pageKiln e) = none) ∧ (pageOp s (pageKiln (1 - e)) = none) ∧ (fld s
      (pageKiln e) Reg.KILN_POOL_REQ_COUNT = n) ∧ (0 < n) ∧ (first + n ≤ hbmFrames) ∧ (∀ f ∈ firstInRange first n, f ∈ kilnPool
      s e)) ∧
    (∃ (e : Nat) (s : State), (e < 2) ∧ ((pageOp s (pageKiln e)).isSome = true)) ∧
    ((∀ k m g, Config.ecdsaVerify k m g = true) → (∃ (k i : Nat) (e : Envelope) (body : List Byte) (s : State), (windowOpen s k
      e) ∧ (joinCheck k body s = Except.ok i))) ∧
    (∃ (k n : Nat) (e : Envelope) (body : List Byte) (s : State), (windowOpen s k e) ∧ (joinCheck k body s = Except.error n)) ∧
    (∃ (k : Nat) (e : Envelope) (s : State), (windowOpen s k e)) ∧
    (∃ (e slot hub map : Nat) (rest : List KilnCommit) (s : State), (e < 2) ∧ (slot / 32 = e) ∧ (kilnQueue s e =
      { slot := slot, pass := none, map := map, hub := hub } :: rest) ∧ (badInSum s (kround s slot) = none)) ∧
    (∃ (e : Nat) (s : State), (kilnQueue s e = [])) ∧
    (∃ (slot : Nat) (s : State), ((kround s slot).handle ≠ 0) ∧ ((kround s slot).st = 3) ∧ (badInSum s (kround s slot) = none)) ∧
    (∃ (slot : Nat) (s : State), ((kround s slot).handle ≠ 0) ∧ ((kround s slot).st = 0) ∧ ((kround s slot).due = false)) ∧
    (∃ (slot : Nat) (s : State), ((kround s slot).handle ≠ 0) ∧ ((kround s slot).st = 1) ∧ ((kround s slot).due = false) ∧
      (isLead s (kround s slot) = false)) ∧
    (∃ (slot : Nat) (s : State), ((kround s slot).handle ≠ 0)) ∧
    (∃ (slot : Nat) (s : State), ((kround s slot).handle ≠ 0) ∧ ((kround s slot).st = 2) ∧ ((kround s slot).due = true)) ∧
    (∃ (slot : Nat) (s : State), ((kround s slot).st ≠ 2)) ∧
    (∃ (slot : Nat) (s : State), ((kround s slot).handle ≠ 0) ∧ ((kround s slot).st = 4)) ∧
    (∃ (slot : Nat) (s : State), ((kround s slot).handle ≠ 0) ∧ ((kround s slot).st < 2)) ∧
    (∃ (slot : Nat) (s : State), (2 ≤ (kround s slot).st)) ∧
    (∃ (slot : Nat) (s : State), ((kround s slot).handle ≠ 0) ∧ ((kround s slot).st = 5)) := by
  refine ⟨?_, ?_, ?_, ?_, ?_, ?_, ?_, ?_, ?_, ?_, ?_, ?_, ?_, ?_, ?_, ?_, ?_, ?_⟩
  · exact ⟨1, 380927, 1, (wst [(pageKiln 1, Reg.KILN_POOL_REQ_COUNT, 1)]), by decide⟩
  · exact ⟨1, 380927, 1, ({ wst [(pageKiln 1, Reg.KILN_POOL_REQ_COUNT, 1)] with kiln := { pools := [(1, [380927])] } }), by decide⟩
  · exact ⟨1, ({ State.reset with ops := [(pageKiln 1, some ⟨1, 0, false⟩)] }), by decide⟩
  · exact fun hv => ⟨63, 1, wenv, wjoinBody, wjoin, by exact ⟨by unfold windowOpen; decide, wjoin_ok hv⟩⟩
  · exact ⟨63, 1, wenv, ([]), (wwin []), by exact ⟨by unfold windowOpen; decide, rfl⟩⟩
  · exact ⟨63, wenv, (wwin []), by unfold windowOpen; decide⟩
  · exact ⟨1, 32, 0, 0, ([]), ({ State.reset with kiln := { commits := [(1, [{ slot := 32, pass := none }])] } }), by decide⟩
  · exact ⟨0, State.reset, by decide⟩
  · exact ⟨63, (wround 3 false), by decide⟩
  · exact ⟨63, (wround 0 false), by decide⟩
  · exact ⟨63, (wround 1 false), by decide⟩
  · exact ⟨63, (wround 1 false), by decide⟩
  · exact ⟨63, (wround 2 true), by decide⟩
  · exact ⟨0, State.reset, by decide⟩
  · exact ⟨63, (wround 4 true), by decide⟩
  · exact ⟨63, (wround 1 true), by decide⟩
  · exact ⟨63, (wround 2 true), by decide⟩
  · exact ⟨63, (wround 5 true), by decide⟩

/-- What `KilnTransfers` assumes holds somewhere. -/
theorem witness_KilnTransfers :
    ((∀ k m g, Config.ecdsaVerify k m g = true) → (∃ (h : Header) (u : Unit256) (slot hub : Nat) (s : State), (kilnFrom s h slot
      hub) ∧ ((kround s slot).st = 0) ∧ (leAt u.bytes 0 1 < polParties (kround s slot).policy) ∧ (Config.ecdsaVerify (polParty
      (kround s slot).policy (leAt u.bytes 0 1)).key (leBytes 64 (kround s slot).digest) (slice u.bytes 4 132) = true))) ∧
    ((∀ k m g, Config.ecdsaVerify k m g = false) → (∃ (h : Header) (us : List Unit256) (u : Unit256) (slot hub : Nat) (s :
      State), (kilnFrom s h slot hub) ∧ ((kround s slot).st = 0) ∧ (u ∈ us) ∧ (Config.ecdsaVerify (polParty (kround s
      slot).policy (leAt u.bytes 0 1)).key (leBytes 64 (kround s slot).digest) (slice u.bytes 4 132) = false))) ∧
    (∃ (h : Header) (slot hub : Nat) (s : State), (kilnFrom s h slot hub) ∧ ((kround s slot).st ≠ 5)) ∧
    (∃ (h : Header) (slot hub : Nat) (s : State), (kilnFrom s h slot hub) ∧ ((kround s slot).st = 1) ∧ (isLead s (kround s slot)
      = true) ∧ (Tab.get [] (kround s slot).staging hub ≠ [])) ∧
    (∃ (h : Header) (slot hub : Nat) (s : State), (kilnFrom s h slot hub) ∧ ((kround s slot).st = 1) ∧ (isLead s (kround s slot)
      = true) ∧ ((kround s slot).staging = []) ∧ (polFrames (kround s slot).policy ≤ (kilnPool s (slot / 32)).length)) ∧
    (∃ (h : Header) (slot hub : Nat) (s : State), (kilnFrom s h slot hub) ∧ ((kround s slot).st = 1) ∧ (isLead s (kround s slot)
      = true) ∧ (Tab.get [] (kround s slot).staging hub ≠ []) ∧ (∀ i ∈ setBits h.opData 64, i < polParties (kround s
      slot).policy ∧ (polParty (kround s slot).policy i).hub = hub)) ∧
    (∃ (h : Header) (slot : Nat) (s : State), (kilnFrom s h slot (polLead (kround s slot).policy)) ∧ ((kround s slot).st = 1 ∨
      (kround s slot).st = 2)) ∧
    (∃ (h : Header) (slot : Nat) (s : State), (kilnFrom s h slot (polLead (kround s slot).policy)) ∧ ((kround s slot).st = 1 ∨
      (kround s slot).st = 2)) ∧
    (∃ (h : Header) (slot : Nat) (s : State), (kilnFrom s h slot (polLead (kround s slot).policy)) ∧ (h.opData % 4 < 2) ∧
      ((kround s slot).st ≠ 5)) ∧
    (∃ (h : Header) (s : State), (roundOfHead s h.inlineData = none)) := by
  refine ⟨?_, ?_, ?_, ?_, ?_, ?_, ?_, ?_, ?_, ?_⟩
  · exact fun hv => ⟨({ opArg := 1023 }), ({}), 63, 1, (wkiln 0 0 []), by exact ⟨wkiln_from _ _ _ _ rfl rfl, by decide,
        by decide +kernel, hv _ _ _⟩⟩
  · exact fun hv => ⟨({ opArg := 1023 }), ([{}]), ({}), 63, 1, (wkiln 0 0 []), by exact ⟨wkiln_from _ _ _ _ rfl rfl, by decide,
        by decide, hv _ _ _⟩⟩
  · exact ⟨({ opArg := 1023 }), 63, 1, (wkiln 0 4 []), by exact ⟨wkiln_from _ _ _ _ rfl rfl, by decide⟩⟩
  · exact ⟨({ opArg := 1023 }), 63, 1, (wkiln 0 1 [(1, [0])]), by exact ⟨wkiln_from _ _ _ _ rfl rfl, by decide, wkiln_lead _ _,
        by decide⟩⟩
  · exact ⟨({ opArg := 1023 }), 63, 1, (wkiln 0 1 []), by exact ⟨wkiln_from _ _ _ _ rfl rfl, by decide, wkiln_lead _ _, by decide,
        by decide +kernel⟩⟩
  · exact ⟨({ opArg := 1023, opData := 1 }), 63, 1, (wkiln 0 1 [(1, [0])]), by exact ⟨wkiln_from _ _ _ _ rfl rfl, by decide,
        wkiln_lead _ _, by decide, by decide +kernel⟩⟩
  · exact ⟨({ opArg := 1023 }), 63, (wkiln 1 2 []), by exact ⟨wkiln_from _ _ _ _ rfl rfl, by decide⟩⟩
  · exact ⟨({ opArg := 1023 }), 63, (wkiln 1 1 []), by exact ⟨wkiln_from _ _ _ _ rfl rfl, by decide⟩⟩
  · exact ⟨({ opArg := 1023, opData := 1 }), 63, (wkiln 1 4 []), by exact ⟨wkiln_from _ _ _ _ rfl rfl, by decide, by decide⟩⟩
  · exact ⟨({}), State.reset, by decide⟩

/-- What `FlitsOfGuestSites` assumes holds somewhere. -/
theorem witness_FlitsOfGuestSites :
    (∃ (n : Nat) (f : Flit) (s u : State), (linkUp s n = true) ∧ (f.crcOk = true) ∧ (takeReturns n f s = (u, true))) ∧
    (∃ (n : Nat) (f : Flit) (s u : State), (linkUp s n = true) ∧ (f.crcOk = true) ∧ (takeReturns n f s = (u, false))) ∧
    (∃ (n : Nat) (f : Flit) (s u : State), (siteRuns s n = true) ∧ (siteLink s n ≠ 6) ∧ (f.crcOk = true) ∧ (takeReturns n f s =
      (u, true)) ∧ (f.seq = (site s n).rxNext) ∧ (f.validSlots ≠ 0) ∧ (((site s n).slots ++ slice f.payload 0 (16 *
      (f.validSlots % 16))).length < 64)) ∧
    (∃ (n clock : Nat) (f : Flit) (b : List Byte) (h : Header) (s u v : State), (siteRuns s n = true) ∧ (siteLink s n ≠ 6) ∧
      (f.crcOk = true) ∧ (takeReturns n f s = (u, true)) ∧ (f.seq = (site s n).rxNext) ∧ (f.validSlots ≠ 0) ∧ (b = (site s
      n).slots ++ slice f.payload 0 (16 * (f.validSlots % 16))) ∧ (64 ≤ b.length) ∧ (packetBytes h ≤ b.length) ∧ (h =
      { decodeHeader b with issueTs := clock % 65536 }) ∧ (v = setSite n
      ({ site u n with rxNext := (f.seq + 1) % 4096, slots := List.drop (packetBytes h) b }) u)) ∧
    (∃ (n : Nat) (f : Flit) (s u : State), (linkUp s n = true) ∧ (f.crcOk = true) ∧ (takeReturns n f s = (u, true)) ∧ (f.seq ≠
      (site s n).rxNext)) ∧
    (∃ (n : Nat) (f : Flit) (s : State), (linkUp s n = true) ∧ (f.crcOk = false) ∧ ((site s n).naking = false)) ∧
    (∃ (n : Nat) (f : Flit) (s u : State), (linkUp s n = true) ∧ (f.crcOk = true) ∧ (takeReturns n f s = (u, true)) ∧ (f.seq =
      (site s n).rxNext) ∧ (f.validSlots = 0)) ∧
    (∃ (n len : Nat) (f : Flit) (s u : State), (linkUp s n = true) ∧ (f.crcOk = true) ∧ (takeReturns n f s = (u, true)) ∧ (f.seq
      = (site s n).rxNext) ∧ ((site s n).msg = none) ∧ (leAt f.payload 1 1 % 4 = 1) ∧ (leAt f.payload 2 2 = len) ∧ (0 < len) ∧
      (len ≤ 236)) ∧
    (∃ (n len : Nat) (f : Flit) (s u : State), (linkUp s n = true) ∧ (f.crcOk = true) ∧ (takeReturns n f s = (u, true)) ∧ (f.seq
      = (site s n).rxNext) ∧ ((site s n).msg = none) ∧ (leAt f.payload 1 1 % 4 = 3) ∧ (leAt f.payload 2 2 = len) ∧ (0 < len) ∧
      (len ≤ 236)) ∧
    (∃ (n : Nat) (s : State), (linkUp s n = true) ∧ ((site s n).ackDue = true)) ∧
    (∃ (n : Nat) (s : State), (linkUp s n = true) ∧ ((List.filter (fun t ↦ decide (nowNs s < t + 1000000000)) (site s
      n).retrains).length < 3)) ∧
    (∃ (n : Nat) (s : State), (linkUp s n = true) ∧ (3 ≤ (List.filter (fun t ↦ decide (nowNs s < t + 1000000000)) (site s
      n).retrains).length)) := by
  refine ⟨?_, ?_, ?_, ?_, ?_, ?_, ?_, ?_, ?_, ?_, ?_, ?_⟩
  · exact ⟨7, wflit, (wsite 5 {  }), ((takeReturns 7 wflit (wsite 5 {  })).1), by decide⟩
  · exact ⟨7, ({ credits := [1] }), (wsite 5 { credits := [65535] }),
        ((takeReturns 7 { credits := [1] } (wsite 5 { credits := [65535] })).1), by decide⟩
  · exact ⟨7, ({ wflit with validSlots := 3 }), (wsite 5 {  }), ((takeReturns 7 { wflit with validSlots := 3 } (wsite 5 {  })).1),
        by decide⟩
  · exact ⟨7, 0, wflit, List.replicate 64 0, { decodeHeader (List.replicate 64 0) with issueTs := 0 }, wsite 5 {  },
        (takeReturns 7 wflit (wsite 5 {  })).1, _, by decide, by decide, by decide, by decide, by decide, by decide, by decide,
        by decide, by decide, by decide, rfl⟩
  · exact ⟨7, ({ seq := 1 }), (wsite 5 {  }), ((takeReturns 7 { seq := 1 } (wsite 5 {  })).1), by decide⟩
  · exact ⟨7, ({ crcOk := false }), (wsite 5 {  }), by decide⟩
  · exact ⟨7, ({}), (wsite 5 {  }), ((takeReturns 7 {} (wsite 5 {  })).1), by decide⟩
  · exact ⟨7, 236, ({ payload := [8, 1, 236, 0] }), (wsite 5 {  }),
        ((takeReturns 7 { payload := [8, 1, 236, 0] } (wsite 5 {  })).1), by decide⟩
  · exact ⟨7, 1, ({ payload := [8, 3, 1, 0] }), (wsite 5 {  }), ((takeReturns 7 { payload := [8, 3, 1, 0] } (wsite 5 {  })).1),
        by decide⟩
  · exact ⟨7, (wsite 5 { ackDue := true }), by decide⟩
  · exact ⟨7, (wsite 5 {  }), by decide⟩
  · exact ⟨7, (wsite 5 { retrains := [0, 0, 0] }), by decide⟩

/-- What `GuestMessages` assumes holds somewhere. -/
theorem witness_GuestMessages :
    (∃ (n : Nat) (b : List Byte) (s : State), (n < 8) ∧ (siteLink s n = 3) ∧ (helloOk s b = true) ∧ (leAt b 6 2 ≤ siteGbs s n)) ∧
    (∃ (n : Nat) (b : List Byte) (s : State), (n < 8) ∧ (siteLink s n = 3) ∧ (helloOk s b = false)) ∧
    (∃ (n : Nat) (s : State), (linkUp s n = true) ∧ (5 ≤ siteLink s n)) ∧
    (∃ (n : Nat) (s : State), (linkUp s n = true) ∧ ((site s n).why ≠ AttestWhy.none) ∧ ((site s n).step = 1)) ∧
    ((∀ k m g, Config.ecdsaVerify k m g = true) → (∃ (n : Nat) (blocks sig : List Byte) (s : State), (linkUp s n = true) ∧
      ((site s n).why = AttestWhy.bringUp) ∧ ((site s n).step = 6) ∧ ((site s n).chain ≠ []) ∧ (Config.ecdsaVerify
      (Config.chainKey (site s n).chain) ((site s n).nonce ++ blocks) sig = true))) ∧
    (∃ (n : Nat) (s : State), (linkUp s n = true) ∧ ((site s n).why = AttestWhy.op) ∧ ((site s n).step = 1)) ∧
    (∃ (n gen : Nat) (s : State), (n < 8) ∧ (siteLink s n = 6) ∧ ((site s n).why = AttestWhy.none) ∧ (gen = fld s (pageSite n)
      Reg.SITE_STATE_CLEAR_GEN)) ∧
    (∃ (n : Nat) (s : State), (linkUp s n = true) ∧ (siteLink s n ≠ 6)) ∧
    (∃ (n : Nat) (s : State), (linkUp s n = true) ∧ (siteLink s n ≠ 6) ∧ ((site s n).pausing = true)) ∧
    (∃ (n id : Nat) (s : State), (linkUp s n = true) ∧ (siteLink s n ≠ 6) ∧ (id ∈ List.map (fun e ↦ e.1) (site s n).pieces)) ∧
    (∃ (n id : Nat) (s : State), (linkUp s n = true) ∧ (siteLink s n ≠ 6) ∧ (id ∉ List.map (fun e ↦ e.1) (site s n).pieces)) ∧
    (∃ (n id pid q : Nat) (p : Pass) (s : State), (linkUp s n = true) ∧ (siteLink s n ≠ 6) ∧ (List.find? (fun e ↦ e.1 == id)
      (site s n).pieces = some (id, pid, q)) ∧ (pass s pid = some p) ∧ (p.computed = false)) ∧
    (∃ (n id pid q : Nat) (p : Pass) (s : State), (linkUp s n = true) ∧ (siteLink s n ≠ 6) ∧ (List.find? (fun e ↦ e.1 == id)
      (site s n).pieces = some (id, pid, q)) ∧ (pass s pid = some p) ∧ (p.computed = false) ∧ (p.unrepeatable = false) ∧
      ((addNew p.failed (64 + n)).length < 3)) ∧
    (∃ (n : Nat) (r : GuestRead) (rest : List GuestRead) (s : State), (linkUp s n = true) ∧ (siteLink s n ≠ 6) ∧ ((site s
      n).regReads = r :: rest)) ∧
    (∃ (n v : Nat) (s : State), (linkUp s n = true) ∧ (siteLink s n ≠ 6) ∧ ((site s n).pwrWait = some v)) ∧
    (∃ (n : Nat) (s : State), (linkUp s n = true) ∧ (siteLink s n ≠ 6)) ∧
    (∃ (n : Nat) (s : State), (n < 8) ∧ (siteLink s n = 6)) := by
  refine ⟨?_, ?_, ?_, ?_, ?_, ?_, ?_, ?_, ?_, ?_, ?_, ?_, ?_, ?_, ?_, ?_, ?_⟩
  · exact ⟨7, whello, (wsite 3 {  }), by decide⟩
  · exact ⟨7, ([]), (wsite 3 {  }), by decide⟩
  · exact ⟨7, (wsite 8 {  }), by decide⟩
  · exact ⟨7, (wsite 3 { why := .bringUp, step := 1 }), by decide⟩
  · exact fun hv => ⟨7, ([]), ([]), (wsite 4 { why := .bringUp, step := 6, chain := [1] }), by exact ⟨by decide, by decide,
        by decide, by decide, hv _ _ _⟩⟩
  · exact ⟨7, (wsite 3 { why := .op, step := 1 }), by decide⟩
  · exact ⟨7, 0, (wsite 6 {  }), by decide⟩
  · exact ⟨7, (wsite 5 {  }), by decide⟩
  · exact ⟨7, (wsite 5 { pausing := true }), by decide⟩
  · exact ⟨7, 1, (wsite 5 { pieces := [(1, 0, 0)] }), by decide⟩
  · exact ⟨7, 1, (wsite 5 {  }), by decide⟩
  · exact ⟨7, 1, 0, 0, wpass, ({ wsite 5 { pieces := [(1, 0, 0)] } with passes := [wpass] }), by decide⟩
  · exact ⟨7, 1, 0, 0, wpass, ({ wsite 5 { pieces := [(1, 0, 0)] } with passes := [wpass] }), by decide⟩
  · exact ⟨7, (⟨0, 0, 8⟩), ([]), (wsite 5 { regReads := [⟨0, 0, 8⟩] }), by decide⟩
  · exact ⟨7, 0, (wsite 5 { pwrWait := some 0 }), by decide⟩
  · exact ⟨7, (wsite 5 {  }), by decide⟩
  · exact ⟨7, (wsite 6 {  }), by decide⟩

/-- What `SiteRegistersAndBounds` assumes holds somewhere. -/
theorem witness_SiteRegistersAndBounds :
    (∃ (n off width : Nat) (s : State), (n < 8) ∧ (off < 32768) ∧ (width = 4 ∨ width = 8) ∧ (off % width = 0) ∧ (bindState s
      (pageSite n) ≠ 1 ∨ fld s (pageSite n) Reg.BINDING_SEALED = 0) ∧ (siteLink s n = 5 ∨ siteLink s n = 7)) ∧
    (∃ (n off width : Nat) (s : State), (n < 8) ∧ (off < 32768) ∧ (width = 4 ∨ width = 8) ∧ (off % width = 0) ∧ (bindState s
      (pageSite n) = 1) ∧ (fld s (pageSite n) Reg.BINDING_SEALED = 1)) ∧
    (∃ (n : Nat) (r : GuestRead) (rest : List GuestRead) (s : State), (n < 8) ∧ ((site s n).regReads = r :: rest)) ∧
    (∃ (n : Nat) (s : State), (n < 8) ∧ (siteLink s n = 5) ∧ ((site s n).pieces ≠ [])) ∧
    (∃ (n : Nat) (s : State), (siteRuns s n = true) ∧ ((site s n).pausing = true)) ∧
    (∃ (n : Nat) (s : State), (n < 8) ∧ (siteLink s n = 6)) ∧
    (∃ (n : Nat) (s : State), (railOn s n = true)) ∧
    (∃ (n : Nat) (s : State), (railOn s n = true) ∧ ((site s n).ramping = false)) ∧
    (∃ (n : Nat) (s : State), ((site s n).ramping = true)) ∧
    (∃ (n : Nat) (s : State), (linkUp s n = true) ∧ ((site s n).why = AttestWhy.op)) ∧
    (∃ (n : Nat) (s : State), (n < 8) ∧ (1 ≤ siteLink s n) ∧ (siteLink s n ≤ 3)) := by
  refine ⟨?_, ?_, ?_, ?_, ?_, ?_, ?_, ?_, ?_, ?_, ?_⟩
  · exact ⟨7, 32760, 8, (wsite 5 {  }), by decide⟩
  · exact ⟨7, 32764, 4, (wst [(pageSite 7, Reg.BINDING_STATE, 1), (pageSite 7, Reg.BINDING_SEALED, 1)]), by decide⟩
  · exact ⟨7, (⟨0, 0, 8⟩), ([]), (wsite 5 { regReads := [⟨0, 0, 8⟩] }), by decide⟩
  · exact ⟨7, (wsite 5 { pieces := [(1, 0, 0)] }), by decide⟩
  · exact ⟨7, (wsite 5 { pausing := true }), by decide⟩
  · exact ⟨7, (wsite 6 {  }), by decide⟩
  · exact ⟨7, (wsite 8 {  }), by decide⟩
  · exact ⟨7, (wsite 1 {  }), by decide⟩
  · exact ⟨7, (wsite 1 { ramping := true }), by decide⟩
  · exact ⟨7, (wsite 3 { why := .op }), by decide⟩
  · exact ⟨7, (wsite 3 {  }), by decide⟩

/-- What `SiteOperations` assumes holds somewhere. -/
theorem witness_SiteOperations :
    (∃ (n m dir lane : Nat) (s : State), (linkUp s n = true) ∧ (m < 4) ∧ (dir < 2) ∧ (lane < 64) ∧ (tst (fld s (pageSite n)
      Reg.SITE_STATE_LIVE_HALVES) (2 * m + lane / 32) = true) ∧ ((site s n).spares.getD (2 * m + dir) 0 < 4) ∧ ((List.filter
      (fun t ↦ decide (nowNs s < t + 1000000000)) (site s n).retrains).length < 3)) ∧
    (∃ (n m lane : Nat) (s : State), (tst (fld s (pageSite n) Reg.SITE_STATE_LIVE_HALVES) (2 * m + lane / 32) = false)) ∧
    (∃ (n : Nat) (s : State), (n < 8) ∧ (pageOp s (pageSite n) = none) ∧ (bindState s (pageSite n) = 0 ∨ bindState s (pageSite
      n) = 5) ∧ (fld s (pageSite n) Reg.SITE_STATE_OTP_STATE = 1) ∧ (fld s (pageSite n) Reg.SITE_STATE_REPAIR_VALID = 1)) ∧
    (∃ (n : Nat) (s : State), (n < 8) ∧ (pageOp s (pageSite n) = none) ∧ (bindState s (pageSite n) = 0 ∨ bindState s (pageSite
      n) = 5)) ∧
    (∃ (n : Nat) (force : Bool) (s : State), (n < 8) ∧ (startFate s (pageSite n) true force = StartFate.starts)) ∧
    (∃ (n : Nat) (force : Bool) (s : State), (n < 8) ∧ (pageOp s (pageSite n) = none) ∧ (startFate s (pageSite n) true force =
      StartFate.starts)) ∧
    (∃ (n : Nat) (modes : List Nat) (o : PageOp) (s : State), (n < 8) ∧ (pageOp s (pageSite n) = some o) ∧ (o.op = 7) ∧
      (o.queued = false) ∧ ((((laneModes s n).zip modes).any fun e ↦ modeHalves e.1 &&& modeHalves e.2 != modeHalves e.1) =
      false)) ∧
    (∃ (n : Nat) (o : PageOp) (s : State), (n < 8) ∧ (pageOp s (pageSite n) = some o)) ∧
    (∃ (n : Nat) (s : State), (n < 8) ∧ (siteLink s n = 1) ∧ ((site s n).ramping = true)) ∧
    (∃ (n : Nat) (s : State), (n < 8) ∧ (siteLink s n = 1) ∧ (fld s (pageSite n) Reg.SITE_RAIL_STATUS_RAIL_GOOD = 1)) ∧
    (∃ (n : Nat), (n < 8)) ∧
    (∃ (n : Nat) (s : State), (n < 8) ∧ (siteLink s n = 5) ∧ (bindState s (pageSite n) = 0) ∧ (flag s (pageSite n)
      Reg.SITE_CFG_IDLE_MS = true) ∧ ((site s n).l1 = false) ∧ ((site s n).pwrWait = none)) := by
  refine ⟨?_, ?_, ?_, ?_, ?_, ?_, ?_, ?_, ?_, ?_, ?_, ?_⟩
  · exact ⟨7, 3, 1, 63,
        ({ wsite 5 {} with regs := (wst [(pageSite 7, Reg.SITE_STATE_LINK, 5), (pageSite 7, Reg.SITE_STATE_LIVE_HALVES, 0xFF)]).regs }),
        by decide⟩
  · exact ⟨0, 0, 0, State.reset, by decide⟩
  · exact ⟨7, (wst [(pageSite 7, Reg.SITE_STATE_OTP_STATE, 1), (pageSite 7, Reg.SITE_STATE_REPAIR_VALID, 1)]), by decide⟩
  · exact ⟨7, (wst [(pageSite 7, Reg.BINDING_STATE, 5)]), by decide⟩
  · exact ⟨7, false, State.reset, by decide⟩
  · exact ⟨7, false, State.reset, by decide⟩
  · exact ⟨7, ([]), (⟨7, 0, false⟩), ({ State.reset with ops := [(pageSite 7, some ⟨7, 0, false⟩)] }), by decide⟩
  · exact ⟨7, (⟨7, 0, false⟩), ({ State.reset with ops := [(pageSite 7, some ⟨7, 0, false⟩)] }), by decide⟩
  · exact ⟨7, (wsite 1 { ramping := true }), by decide⟩
  · exact ⟨7, (wst [(pageSite 7, Reg.SITE_STATE_LINK, 1), (pageSite 7, Reg.SITE_RAIL_STATUS_RAIL_GOOD, 1)]), by decide⟩
  · exact ⟨7, by decide⟩
  · exact ⟨7, (wst [(pageSite 7, Reg.SITE_STATE_LINK, 5), (pageSite 7, Reg.SITE_CFG_IDLE_MS, 1)]), by decide⟩

/-- What `HostInboundRequests` assumes holds somewhere. -/
theorem witness_HostInboundRequests :
    (∃ (fn : Nat) (s : State), (fld s hostPage Reg.HOST_IDE_REQUIRE = 0) ∧ (fnExists s fn = true) ∧ (retries s fn = false)) ∧
    (∃ (s : State), (fld s hostPage Reg.HOST_IDE_REQUIRE = 0) ∧ (retries s 0 = false)) ∧
    (∃ (fn : Nat) (s : State), (fld s hostPage Reg.HOST_IDE_REQUIRE = 0) ∧ (fnExists s fn = true) ∧ (retries s fn = true)) ∧
    (∃ (fn : Nat) (s : State), (fnExists s fn = false)) ∧
    (∃ (i : Nat) (s : State), (streamSecure s i = false)) ∧
    (∃ (off len : Nat) (d : List Byte) (s : State), (fld s hostPage Reg.HOST_IDE_REQUIRE = 0) ∧ (memEnable s 0 = true) ∧ (inD3 s
      = false) ∧ (off + len ≤ bar2Bytes s) ∧ (physRead 0 s (granuleParts (fld s hostPage Reg.HOST_APERTURE_BASE * 2 ^ 21 + off)
      len) = Except.ok d)) ∧
    (∃ (off : Nat) (data : List Byte) (s : State), (fld s hostPage Reg.HOST_IDE_REQUIRE = 0) ∧ (memEnable s 0 = true) ∧ (inD3 s
      = false) ∧ (off + data.length ≤ bar2Bytes s)) ∧
    (∃ (off len : Nat) (s : State), (bar2Bytes s < off + len)) ∧
    (∃ (fn off len : Nat) (d : List Byte) (s : State), (fld s hostPage Reg.HOST_IDE_REQUIRE = 0) ∧ (fn ≠ 0) ∧ (fnExists s fn =
      true) ∧ (memEnable s fn = true) ∧ (off + len ≤ 2 ^ 36) ∧ (0 < ctxState s fn) ∧ (ctxState s fn < 5) ∧ ((ctx s
      fn).flrPending = false) ∧ (vread s 86 fn (fld s (pageWin fn 0) Reg.APERTURE_BASE * 2 ^ 21 + off) len = Except.ok d)) ∧
    (∃ (fn tag off : Nat) (data : List Byte) (s u : State), (fld s hostPage Reg.HOST_IDE_REQUIRE = 0) ∧ (fn ≠ 0) ∧ (fnExists s
      fn = true) ∧ (memEnable s fn = true) ∧ (off + data.length ≤ 2 ^ 36) ∧ (0 < ctxState s fn) ∧ (ctxState s fn < 5) ∧ ((ctx s
      fn).flrPending = false) ∧ (writeUnits 86 fn [(fld s (pageWin fn 0) Reg.APERTURE_BASE * 2 ^ 21 + off, data)] s = Except.ok
      u)) ∧
    (∃ (s : State), (tst (cfgDw s 0 696) 0 = true) ∧ (timeState s = 2 ∨ timeState s = 3)) := by
  refine ⟨?_, ?_, ?_, ?_, ?_, ?_, ?_, ?_, ?_, ?_, ?_⟩
  · exact ⟨0, (wst [(1, Reg.RESET_BRINGUP_DONE, 1)]), by decide⟩
  · exact ⟨(wst [(1, Reg.RESET_BRINGUP_DONE, 1)]), by decide⟩
  · exact ⟨0, State.reset, by decide⟩
  · exact ⟨64, State.reset, by decide⟩
  · exact ⟨64, State.reset, by decide⟩
  · exact ⟨0, 32, (7 :: List.replicate 31 0), ({ wmap [] with host := wcfg }), by decide +kernel⟩
  · exact ⟨0, ([1]), ({ State.reset with host := wcfg }), by decide⟩
  · exact ⟨(2 ^ 63), 0, State.reset, by decide⟩
  · exact ⟨1, 0, 8, ([7, 0, 0, 0, 0, 0, 0, 0]), ({ wmapOf 1 [(pageCtx 1, Reg.CTX_STATUS_STATE, 4)] with host := wcfg }),
        by decide +kernel⟩
  · obtain ⟨u, hu⟩ := wok (r := writeUnits 86 1 [(fld wvirt (pageWin 1 0) Reg.APERTURE_BASE * 2 ^ 21 + 0,
      [7])] wvirt) (by decide +kernel)
    exact ⟨1, 0, 0, [7], wvirt, u, by decide, by decide, by decide, by decide, by decide, by decide, by decide, by decide, hu⟩
  · exact ⟨({ State.reset with host := { cfg := [(0x2B8, 1)] }, time := { st := 3 } }), by decide⟩

/-- What `PeatAccesses` assumes holds somewhere. -/
theorem witness_PeatAccesses :
    (∃ (port : Nat) (h h' : Header) (s : State), (h' = { h with opcode := 32 }) ∧ (h.xlated = true) ∧ (isPeat h.addr = true) ∧
      (peatPort h.addr = port % 4) ∧ (allowed s h.ctx h.addr = true) ∧ (∀ i ∈ setBits (h.opArg % 256) 8, isBad s (h.addr / 256 *
      256 + 32 * i) = false)) ∧
    (∃ (port : Nat) (h : Header) (s : State), (h.xlated = true) ∧ (isPeat h.addr = true) ∧ (peatPort h.addr = port % 4) ∧
      (allowed s h.ctx h.addr = true)) ∧
    (∃ (port : Nat) (h h' : Header) (s : State), (h' = { h with opcode := 34 }) ∧ (h.xlated = true) ∧ (isPeat h.addr = true) ∧
      (peatPort h.addr = port % 4) ∧ (allowed s h.ctx h.addr = true) ∧ (isBad s (h.addr / 32 * 32) = false)) ∧
    (∃ (port : Nat) (h : Header) (s : State), (h.xlated = true) ∧ (isPeat h.addr = true) ∧ (peatPort h.addr = port % 4) ∧
      (allowed s h.ctx h.addr = true)) ∧
    (∃ (port : Nat) (h : Header) (s : State), (h.xlated = true) ∧ (isPeat h.addr = true) ∧ (peatPort h.addr = port % 4) ∧
      (h.opArg % 16 ≤ 2) ∧ (allowed s h.ctx h.addr = true) ∧ (isBad s (h.addr / 32 * 32) = false)) ∧
    (∃ (port : Nat) (h : Header), (h.xlated = true) ∧ (isPeat h.addr = true) ∧ (peatPort h.addr = port % 4) ∧ (2 < h.opArg %
      16)) ∧
    (∃ (port : Nat) (h h' : Header) (s : State), (h' = { h with opcode := 32 }) ∧ (h.xlated = true) ∧ (isPeat h.addr = true) ∧
      (peatPort h.addr = port % 4) ∧ (allowed s h.ctx h.addr = true)) ∧
    (∃ (port : Nat) (h h' : Header) (s : State), (h' = { h with opcode := 32 }) ∧ (h.xlated = true) ∧ (isPeat h.addr = true) ∧
      (peatPort h.addr = port % 4) ∧ (allowed s h.ctx h.addr = false)) ∧
    (∃ (port : Nat) (h : Header), (h.xlated = false ∨ peatPort h.addr ≠ port % 4)) ∧
    (∃ (port : Nat) (h : Header) (d : List Byte) (en : List Bool) (rest : List (Header × List Byte × List Bool)) (s : State),
      ((peat s (port % 4)).outstanding = (h, d, en) :: rest)) ∧
    (∃ (port : Nat) (s : State), ((peat s (port % 4)).outstanding = [])) ∧
    (∃ (port : Nat) (s : State), (heldBack { page := pagePeat (port % 4), cls := 116 } s = false)) := by
  refine ⟨?_, ?_, ?_, ?_, ?_, ?_, ?_, ?_, ?_, ?_, ?_, ?_⟩
  · exact ⟨3, wpeat, ({ wpeat with opcode := 32 }), wpeats, by decide⟩
  · exact ⟨3, wpeat, wpeats, by decide⟩
  · exact ⟨3, wpeat, ({ wpeat with opcode := 34 }), wpeats, by decide⟩
  · exact ⟨3, wpeat, wpeats, by decide⟩
  · exact ⟨3, wpeat, wpeats, by decide⟩
  · exact ⟨3, ({ wpeat with opArg := 3 }), by decide⟩
  · exact ⟨3, wpeat, ({ wpeat with opcode := 32 }), wpeats, by decide⟩
  · exact ⟨3, wpeat, ({ wpeat with opcode := 32 }), State.reset, by decide⟩
  · exact ⟨3, ({}), by decide⟩
  · exact ⟨3, wpeat, ([]), ([]), ([]), ({ wpeats with peats := [(3, { outstanding := [(wpeat, [], [])] })] }), by decide⟩
  · exact ⟨3, State.reset, by decide⟩
  · exact ⟨3, State.reset, by decide⟩

/-- What `HostMemoryRequests` assumes holds somewhere. -/
theorem witness_HostMemoryRequests :
    (∃ (h h' : Header) (s : State), (h' = { h with opcode := 49 }) ∧ (h.xlated = true) ∧ (isHost h.addr = true) ∧ (h.ctx < 64) ∧
      (busMaster s h.ctx = true) ∧ (fld s hostPage Reg.HOST_IDE_REQUIRE = 0) ∧ (s.host.waiting = []) ∧ (hostRoom s h' = true)) ∧
    (∃ (h h' : Header) (s : State), (h' = { h with opcode := 51 }) ∧ (h.xlated = true) ∧ (isHost h.addr = true) ∧ (h.ctx < 64) ∧
      (busMaster s h.ctx = true) ∧ (fld s hostPage Reg.HOST_IDE_REQUIRE = 0) ∧ (s.host.waiting = []) ∧ (hostRoom s h' = true)) ∧
    (∃ (h h' : Header) (tg : Nat) (s : State), (h' = { h with opcode := 48 }) ∧ (h.xlated = true) ∧ (isHost h.addr = true) ∧
      (h.ctx < 64) ∧ (busMaster s h.ctx = true) ∧ (fld s hostPage Reg.HOST_IDE_REQUIRE = 0) ∧ (s.host.waiting = []) ∧ (hostRoom
      s h' = true) ∧ (h.opArg % 256 ≠ 0) ∧ (freeTag s = some tg)) ∧
    (∃ (h : Header) (tg : Nat) (s : State), (h.xlated = true) ∧ (isHost h.addr = true) ∧ (h.ctx < 64) ∧ (busMaster s h.ctx =
      true) ∧ (fld s hostPage Reg.HOST_IDE_REQUIRE = 0) ∧ (s.host.waiting = []) ∧ (sectorHeld s { h with opcode := 50 } = false)
      ∧ (s.host.tags.length < 4096) ∧ (freeTag s = some tg)) ∧
    (∃ (h : Header) (tg : Nat) (s : State), (h.xlated = true) ∧ (isHost h.addr = true) ∧ (h.ctx < 64) ∧ (busMaster s h.ctx =
      true) ∧ (fld s hostPage Reg.HOST_IDE_REQUIRE = 0) ∧ (s.host.waiting = []) ∧ (sectorHeld s { h with opcode := 53 } = false)
      ∧ (s.host.tags.length < 4096) ∧ (freeTag s = some tg)) ∧
    (∃ (h h' : Header) (s : State), (h' = { h with opcode := 48 }) ∧ (h.xlated = true) ∧ (isHost h.addr = true) ∧ (h.ctx < 64) ∧
      (busMaster s h.ctx = true) ∧ (fld s hostPage Reg.HOST_IDE_REQUIRE = 0) ∧ (s.host.waiting ≠ [])) ∧
    (∃ (h : Header), (h.xlated = false ∨ isHost h.addr = false ∨ 64 ≤ h.ctx)) ∧
    (∃ (tag : Nat) (x : HostTag) (data : List Byte) (s : State), (List.find? (fun t ↦ t.tag == tag) s.host.tags = some x) ∧
      (s.host.waiting = []) ∧ (data.length = x.len - x.got.length)) ∧
    (∃ (tag : Nat) (x : HostTag) (data : List Byte) (s : State), (List.find? (fun t ↦ t.tag == tag) s.host.tags = some x) ∧
      (data.length < x.len - x.got.length) ∧ (data ≠ [])) ∧
    (∃ (tag : Nat) (s : State), (List.find? (fun t ↦ t.tag == tag) s.host.tags = none)) ∧
    (∃ (tag : Nat) (x : HostTag) (s : State), (List.find? (fun t ↦ t.tag == tag) s.host.tags = some x) ∧ (s.host.waiting = [])) ∧
    (∃ (s : State), (s.host.waiting = [])) := by
  refine ⟨?_, ?_, ?_, ?_, ?_, ?_, ?_, ?_, ?_, ?_, ?_, ?_⟩
  · exact ⟨whost, ({ whost with opcode := 49 }), ({ State.reset with host := { wcfg with waiting := [] } }), by decide⟩
  · exact ⟨whost, ({ whost with opcode := 51 }), ({ State.reset with host := { wcfg with waiting := [] } }), by decide⟩
  · exact ⟨({ whost with opArg := 1 }), ({ whost with opcode := 48, opArg := 1 }), 0,
        ({ State.reset with host := { wcfg with waiting := [] } }), by decide⟩
  · exact ⟨whost, 0, ({ State.reset with host := { wcfg with waiting := [] } }), by decide⟩
  · exact ⟨whost, 0, ({ State.reset with host := { wcfg with waiting := [] } }), by decide⟩
  · exact ⟨whost, ({ whost with opcode := 48 }), ({ State.reset with host := { wcfg with waiting := [(whost, [])] } }), by decide⟩
  · exact ⟨({ addr := 2 ^ 51, ctx := 64, xlated := true }), by decide⟩
  · exact ⟨8191, ({ tag := 8191, fn := 0, hdr := {}, addr := 0, len := 2 }), ([1, 2]),
        ({ State.reset with host := { wcfg with waiting := [], tags := [{ tag := 8191, fn := 0, hdr := {}, addr := 0, len := 2 }] } }),
        by decide⟩
  · exact ⟨8191, ({ tag := 8191, fn := 0, hdr := {}, addr := 0, len := 2 }), ([1]),
        ({ State.reset with host := { wcfg with waiting := [], tags := [{ tag := 8191, fn := 0, hdr := {}, addr := 0, len := 2 }] } }),
        by decide⟩
  · exact ⟨0, State.reset, by decide⟩
  · exact ⟨8191, ({ tag := 8191, fn := 0, hdr := {}, addr := 0, len := 2 }),
        ({ State.reset with host := { wcfg with waiting := [], tags := [{ tag := 8191, fn := 0, hdr := {}, addr := 0, len := 2 }] } }),
        by decide⟩
  · exact ⟨State.reset, by decide⟩

/-- What `HostResetsAndStreams` assumes holds somewhere. -/
theorem witness_HostResetsAndStreams :
    (∃ (k : Nat) (s : State), (0 < k) ∧ (k < 64) ∧ (fnExists s k = true) ∧ (ctxState s k = 0)) ∧
    (∃ (k : Nat) (s : State), (0 < k) ∧ (k < 64) ∧ (fnExists s k = true) ∧ (ctxState s k ≠ 0) ∧ (ctxState s k ≠ 6)) ∧
    (∃ (s : State), (vfEnable s = false)) ∧
    (∃ (s : State), (vfEnable s = true)) ∧
    (∃ (v : Nat) (s : State), (memEnable s 0 = false) ∧ (16 ≤ v) ∧ (v ≤ 20)) ∧
    (∃ (v : Nat) (s : State), (memEnable s 0 = true ∨ v < 16 ∨ 20 < v)) ∧
    (∃ (i : Nat) (s : State), (i ≤ 64) ∧ (streamSecure s i = true)) ∧
    (∃ (s : State), (s.heart.spdm = 2)) ∧
    (∃ (s : State), (s.heart.spdm ≠ 2)) ∧
    (∃ (i : Nat) (s : State), (s.heart.spdmKeys ≠ 0) ∧ (s.heart.spdmDone = true) ∧ (i < 65) ∧ (i ∈ s.host.ideKeys)) ∧
    (∃ (fn vec : Nat), (fn < 64) ∧ (vec < 3)) := by
  refine ⟨?_, ?_, ?_, ?_, ?_, ?_, ?_, ?_, ?_, ?_, ?_⟩
  · exact ⟨63, ({ State.reset with host := wcfg }), by decide⟩
  · exact ⟨63, ({ wst [(pageCtx 63, Reg.CTX_STATUS_STATE, 2)] with host := wcfg }), by decide⟩
  · exact ⟨State.reset, by decide⟩
  · exact ⟨({ State.reset with host := wcfg }), by decide⟩
  · exact ⟨20, State.reset, by decide⟩
  · exact ⟨21, State.reset, by decide⟩
  · exact ⟨64, (wst [(hostPage, Reg.HOST_IDE_SEL, 2 ^ 63)]), by decide⟩
  · exact ⟨({ State.reset with heart := { spdm := 2 } }), by decide⟩
  · exact ⟨State.reset, by decide⟩
  · exact ⟨64, ({ State.reset with heart := { spdmKeys := 1, spdmDone := true }, host := { ideKeys := [64] } }), by decide⟩
  · exact ⟨63, 2, by decide⟩

/-- What `PeatSlots` assumes holds somewhere. -/
theorem witness_PeatSlots :
    (∃ (port : Nat) (d : PeatStart) (s : State), (pageOp s (pagePeat (port % 4)) = none) ∧ ((peat s (port % 4)).entering =
      false) ∧ (inService s (port % 4) = false) ∧ (fld s (pagePeat (port % 4)) Reg.SLOT_STATUS_PRESENT = 1) ∧ (d.powerOk = true)
      ∧ (d.rate % 4 = 1 ∨ d.rate % 4 = 2) ∧ (d.supported = true) ∧ (2 ^ 21 ≤ d.bytes) ∧ (d.ide = true)) ∧
    (∃ (port : Nat) (s : State), (pageOp s (pagePeat (port % 4)) = none) ∧ ((peat s (port % 4)).entering = false) ∧ (inService s
      (port % 4) = false)) ∧
    (∃ (port : Nat) (s : State), (pageOp s (pagePeat (port % 4)) = none) ∧ ((peat s (port % 4)).entering = false) ∧ (inService s
      (port % 4) = true)) ∧
    (∃ (port f : Nat) (s : State), ((peat s (port % 4)).entering = true) ∧ (f = peatBase (port % 4) + (peat s (port % 4)).ashed)
      ∧ ((frame s f).state ≠ FrameState.gone) ∧ ((frame s f).bad = false)) ∧
    (∃ (port : Nat) (o : PageOp) (s : State), ((peat s (port % 4)).entering = true) ∧ ((peat s (port % 4)).ashed + 1 = (peat s
      (port % 4)).frames) ∧ (pageOp s (pagePeat (port % 4)) = some o) ∧ (o.op = 16)) ∧
    (∃ (port : Nat) (s : State), (pageOp s (pagePeat (port % 4)) = none) ∧ (∀ e ∈ portFrames s (port % 4), e.2.state ≠
      FrameState.owned ∧ e.2.state ≠ FrameState.ashing)) ∧
    (∃ (port : Nat) (e : Nat × FrameEnt) (s : State), (pageOp s (pagePeat (port % 4)) = none) ∧ (e ∈ portFrames s (port % 4)) ∧
      (e.2.state = FrameState.owned)) ∧
    (∃ (port : Nat) (s : State), ((pageOp s (pagePeat (port % 4))).isSome = true)) ∧
    (∃ (port cause : Nat) (s : State), (4 ≤ cause) ∧ (cause ≤ 6) ∧ (inService s (port % 4) = true)) ∧
    (∃ (port : Nat) (s : State), (fld s (pagePeat (port % 4)) Reg.SLOT_STATUS_PRESENT = 0)) ∧
    (∃ (port : Nat) (s : State), (fld s (pagePeat (port % 4)) Reg.SLOT_STATUS_PRESENT = 1)) := by
  refine ⟨?_, ?_, ?_, ?_, ?_, ?_, ?_, ?_, ?_, ?_, ?_⟩
  · exact ⟨3, ({ bytes := 2 ^ 21 }), (wst [(pagePeat 3, Reg.SLOT_STATUS_PRESENT, 1)]), by decide⟩
  · exact ⟨3, State.reset, by decide⟩
  · exact ⟨3, (wst [(pagePeat 3, Reg.PAGE_STATUS_IN_SERVICE, 1)]), by decide⟩
  · exact ⟨3, (2 ^ 27 + 3 * 2 ^ 21), ({ wpeats with peats := [(3, { entering := true, frames := 1 })] }), by decide⟩
  · exact ⟨3, (⟨16, 0, false⟩),
        ({ wpeats with peats := [(3, { entering := true, frames := 1 })], ops := [(pagePeat 3, some ⟨16, 0, false⟩)] }),
        by decide⟩
  · exact ⟨3, State.reset, by decide⟩
  · exact ⟨3, ((2 ^ 27 + 3 * 2 ^ 21, { ctx := 0, state := .owned })), wpeats, by decide⟩
  · exact ⟨3, ({ State.reset with ops := [(pagePeat 3, some ⟨16, 0, false⟩)] }), by decide⟩
  · exact ⟨3, 6, (wst [(pagePeat 3, Reg.PAGE_STATUS_IN_SERVICE, 1)]), by decide⟩
  · exact ⟨3, (wst [(pagePeat 3, Reg.SLOT_STATUS_PRESENT, 0)]), by decide⟩
  · exact ⟨3, (wst [(pagePeat 3, Reg.SLOT_STATUS_PRESENT, 1)]), by decide⟩

/-- What `PlarusPorts` assumes holds somewhere. -/
theorem witness_PlarusPorts :
    (∃ (p mode : Nat) (s : State), (p < 48) ∧ (mode < 7) ∧ (fld s (pagePort p) Reg.PORT_CFG_MODE ≠ mode)) ∧
    (∃ (p : Nat), (p < 48)) ∧
    (∃ (p : Nat), (p < 48)) ∧
    (∃ (p : Nat) (s : State), (p < 48) ∧ (modeLanes (fld s (pagePort p) Reg.PORT_CFG_MODE) ≠ 0) ∧ (portUp s p = false)) ∧
    (∃ (p : Nat) (s : State), (p < 48) ∧ (pageOp s (pagePort p) = none) ∧ (fld s (pagePort p) Reg.PORT_CFG_MODE ≠ 0)) ∧
    (∃ (p : Nat) (s : State), (p < 48) ∧ ((pageOp s (pagePort p)).isSome = true)) ∧
    (∃ (p : Nat) (o : PageOp) (s : State), (p < 48) ∧ (fld s (pagePort p) Reg.PORT_STATUS_RETRAINING = 0) ∧ (pageOp s (pagePort
      p) = some o) ∧ (o.op = 5) ∧ (o.queued = false)) ∧
    (∃ (p : Nat) (s : State), (p < 48) ∧ (portUp s p = false)) ∧
    (∃ (p : Nat) (f : Frame) (s : State), (p < 48) ∧ (isDown s (blockNode Blk.plarus) = false) ∧ (portUp s p = true) ∧
      (f.control = false) ∧ (f.etherType = 35063)) ∧
    (∃ (p : Nat) (f : Frame) (s : State), (p < 48) ∧ (isDown s (blockNode Blk.plarus) = false) ∧ (portUp s p = true) ∧
      (f.control = false) ∧ (f.etherType ≠ 35063) ∧ (f.etherType ≠ 34525) ∧ (f.dst = fld s plarusPage Reg.PLR_ADDR_MAC) ∧
      (f.etherType = fld s plarusPage Reg.PLR_CFG_ETHERTYPE)) ∧
    (∃ (p e queued : Nat) (f : Frame) (s : State), (p < 48) ∧ (isDown s (blockNode Blk.plarus) = false) ∧ (portUp s p = true) ∧
      (f.control = false) ∧ (f.etherType ≠ 35063) ∧ (f.etherType ≠ 34525) ∧ (f.dst ≠ fld s plarusPage Reg.PLR_ADDR_MAC) ∧
      (egressPort s f = some e) ∧ (queued ≤ fld s plarusPage Reg.SWITCH_CTRL_ECN_KIB)) := by
  refine ⟨?_, ?_, ?_, ?_, ?_, ?_, ?_, ?_, ?_, ?_, ?_⟩
  · exact ⟨47, 6, State.reset, by decide⟩
  · exact ⟨47, by decide⟩
  · exact ⟨47, by decide⟩
  · exact ⟨47, (wst [(pagePort 47, Reg.PORT_CFG_MODE, 1)]), by decide⟩
  · exact ⟨47, (wst [(pagePort 47, Reg.PORT_CFG_MODE, 1)]), by decide⟩
  · exact ⟨47, ({ State.reset with ops := [(pagePort 47, some ⟨5, 0, false⟩)] }), by decide⟩
  · exact ⟨47, (⟨5, 0, false⟩), ({ State.reset with ops := [(pagePort 47, some ⟨5, 0, false⟩)] }), by decide⟩
  · exact ⟨47, State.reset, by decide⟩
  · exact ⟨47, ({ etherType := 35063 }), (wst [(pagePort 47, Reg.PORT_STATUS_UP, 1)]), by decide⟩
  · exact ⟨47, ({ etherType := 0x88B5 }), (wst [(pagePort 47, Reg.PORT_STATUS_UP, 1), (plarusPage, Reg.PLR_CFG_ETHERTYPE, 0x88B5)]),
        by decide⟩
  · exact ⟨47, 46, 0, ({ dst := 5 }), wswitch, by exact ⟨by decide, by decide, by decide, by decide, by decide, by decide,
        by decide, wswitch_egress, by decide⟩⟩

/-- What `PlarusPackets` assumes holds somewhere. -/
theorem witness_PlarusPackets :
    (∃ (h : PlrHdr) (hd : Header) (us : List Unit256) (s : State), (plrAccepted s h) ∧ (h.ackPresent = false) ∧ (h.firstUnit =
      0) ∧ (112 ≤ hd.opcode) ∧ (hd.opcode ≤ 143) ∧ ((session s h.session).st ≠ 4) ∧ ((session s h.session).due < 7) ∧ ((session
      s h.session).rxParts = []) ∧ (us.length = hd.len)) ∧
    (∃ (h : PlrHdr) (hd : Header) (s : State), (plrAccepted s h) ∧ (h.ackPresent = false) ∧ (hd.opcode < 112 ∨ 143 < hd.opcode)
      ∧ ((session s h.session).due < 7)) ∧
    (∃ (h : PlrHdr) (p : TxPkt) (s : State), (plrAccepted s h) ∧ (h.ackMap = 0) ∧ ((session s h.session).unacked = [p]) ∧ (p.pn
      = h.ackLargest) ∧ ((session s h.session).sendQ = [])) ∧
    ((∀ k m g, Config.ecdsaVerify k m g = true) → (∀ b, Config.sha512 b = 5) → (∃ (i : Nat) (hs : Handshake) (s : State),
      (handshakeSigned hs [] = true) ∧ (initEntry s hs = some i) ∧ ((session s i).st ≠ 1))) ∧
    (∃ (hs : Handshake) (s : State), (handshakeSigned hs [] = false ∨ initEntry s hs = none)) ∧
    ((∀ k m g, Config.ecdsaVerify k m g = true) → (∀ b, Config.sha512 b = 5) → (∃ (i : Nat) (hs : Handshake) (s : State), (i <
      1024) ∧ ((session s i).st = 1) ∧ (handshakeSigned hs (handshakeBytes (ownHandshake s i [])) = true) ∧ ((session s i).keyId
      = keyIdOf hs.attKey) ∧ ((session s i).ctx = hs.peerCtx) ∧ ((session s i).peerCtx = hs.ctx) ∧ (peerAcceptable s (session s
      i) hs = true))) ∧
    (∃ (i : Nat) (hs : Handshake) (s : State), (i < 1024) ∧ ((session s i).st = 1) ∧ ((session s i).keyId ≠ keyIdOf hs.attKey)) ∧
    (∃ (h : PlrHdr) (s : State), (plrAccepted s h) ∧ (h.ackPresent = false) ∧ ((session s h.session).st ≠ 4)) ∧
    (∃ (h : PlrHdr) (s : State), (plrAccepted s h) ∧ (h.ackPresent = false) ∧ ((session s h.session).st = 3) ∧ ((session s
      h.session).nextKeys = none)) ∧
    (∃ (h : PlrHdr) (s : State), (plrAccepted s h) ∧ (h.ackPresent = false) ∧ ((session s h.session).st = 4)) ∧
    (∃ (h : PlrHdr) (s : State), (plrAccepted s h) ∧ (h.ackPresent = false) ∧ ((session s h.session).st = 2)) ∧
    (∃ (h : PlrHdr) (s : State), (sessionLive s h.session = false ∨ h.authentic = false)) := by
  refine ⟨?_, ?_, ?_, ?_, ?_, ?_, ?_, ?_, ?_, ?_, ?_, ?_⟩
  · exact ⟨wplr, ({ opcode := 0x8F }), ([]), (wsess { st := 2 }), by exact ⟨by unfold plrAccepted; decide, by decide⟩⟩
  · exact ⟨wplr, ({ opcode := 0x90 }), (wsess { st := 2 }), by exact ⟨by unfold plrAccepted; decide, by decide⟩⟩
  · exact ⟨({ wplr with ackPresent := true, ackLargest := 5 }), ({ pn := 5 }), (wsess { st := 2, unacked := [{ pn := 5 }] }),
        by exact ⟨by unfold plrAccepted; decide, by decide⟩⟩
  · exact fun hv hs => ⟨1023, ({ lifeCycle := 3 }), (wsess { st := 2, keyId := 5, ctx := 0 }), by exact ⟨hv _ _ _,
        by simp only [initEntry, keyIdOf, hs]; decide, by decide⟩⟩
  · exact ⟨({}), State.reset, by exact Or.inr rfl⟩
  · exact fun hv hs => ⟨1023, ({ lifeCycle := 3 }), (wsess { st := 1, keyId := 5, ctx := 0 }), by exact ⟨by decide, by decide,
        hv _ _ _, by simp only [keyIdOf, hs]; decide, by decide, by decide, by decide⟩⟩
  · exact ⟨1023, ({}), (wsess { st := 1, keyId := keyIdOf [] + 1 }), by exact ⟨by decide, rfl, Nat.succ_ne_self _⟩⟩
  · exact ⟨wplr, (wsess { st := 2 }), by exact ⟨by unfold plrAccepted; decide, by decide⟩⟩
  · exact ⟨wplr, (wsess { st := 3 }), by exact ⟨by unfold plrAccepted; decide, by decide⟩⟩
  · exact ⟨wplr, (wsess { st := 4 }), by exact ⟨by unfold plrAccepted; decide, by decide⟩⟩
  · exact ⟨wplr, (wsess { st := 2 }), by exact ⟨by unfold plrAccepted; decide, by decide⟩⟩
  · exact ⟨({}), State.reset, by decide⟩

/-- What `PlarusTimers` assumes holds somewhere. -/
theorem witness_PlarusTimers :
    (∃ (i : Nat) (s : State), (i < 1024) ∧ ((session s i).st = 1)) ∧
    (∃ (i : Nat) (s : State), ((session s i).st ≠ 1)) ∧
    (∃ (i : Nat) (s : State), (i < 1024) ∧ ((session s i).st = 1 ∨ (session s i).st = 3)) ∧
    (∃ (i pn : Nat) (p : TxPkt) (s : State), (sessionLive s i = true) ∧ (List.find? (fun q ↦ q.pn == pn) (session s i).unacked =
      some p) ∧ (p.kind ≠ 2) ∧ (p.expiries + 1 < fld s plarusPage Reg.RTX_CTRL_RETRY_MAX)) ∧
    (∃ (i pn : Nat) (p : TxPkt) (s : State), (sessionLive s i = true) ∧ ((session s i).st ≠ 4) ∧ (List.find? (fun q ↦ q.pn ==
      pn) (session s i).unacked = some p) ∧ (max 1 (fld s plarusPage Reg.RTX_CTRL_RETRY_MAX) ≤ p.expiries + 1)) ∧
    (∃ (i : Nat) (s : State), (sessionLive s i = true) ∧ (0 < (session s i).due)) ∧
    (∃ (i : Nat) (s : State), (sessionLive s i = true) ∧ (fld s plarusPage Reg.CC_CTRL_FREEZE = 0) ∧ ((session s i).override =
      false)) ∧
    (∃ (i : Nat) (s : State), (sessionLive s i = true) ∧ (fld s plarusPage Reg.CC_CTRL_FREEZE = 1)) ∧
    (∃ (i : Nat) (s : State), (i < 1024) ∧ ((session s i).st = 4)) ∧
    (∃ (i : Nat) (s : State), (i < 1024) ∧ ((session s i).st = 2) ∧ (2 ^ 39 ≤ (session s i).txUnder)) ∧
    (∃ (i : Nat) (s : State), (sessionLive s i = true) ∧ ((session s i).st ≠ 4) ∧ (2 ^ 40 ≤ (session s i).rxUnder)) ∧
    (∃ (i : Nat) (s : State), ((session s i).txUnder < 2 ^ 40) ∧ ((session s i).rxUnder < 2 ^ 40)) ∧
    (∃ (i : Nat), (i < 1024)) := by
  refine ⟨?_, ?_, ?_, ?_, ?_, ?_, ?_, ?_, ?_, ?_, ?_, ?_, ?_⟩
  · exact ⟨1023, (wsess { st := 1 }), by decide⟩
  · exact ⟨1023, State.reset, by decide⟩
  · exact ⟨1023, (wsess { st := 3 }), by decide⟩
  · exact ⟨1023, 5, ({ pn := 5 }),
        ({ wst [(plarusPage, Reg.RTX_CTRL_RETRY_MAX, 2)] with plr := { sessions := [(1023, { st := 2, unacked := [{ pn := 5 }] })] } }),
        by decide⟩
  · exact ⟨1023, 5, ({ pn := 5 }),
        ({ wst [(plarusPage, Reg.RTX_CTRL_RETRY_MAX, 1)] with plr := { sessions := [(1023, { st := 2, unacked := [{ pn := 5 }] })] } }),
        by decide⟩
  · exact ⟨1023, (wsess { st := 2, due := 1 }), by decide⟩
  · exact ⟨1023, (wsess { st := 2 }), by decide⟩
  · exact ⟨1023, ({ wst [(plarusPage, Reg.CC_CTRL_FREEZE, 1)] with plr := { sessions := [(1023, { st := 2 })] } }), by decide⟩
  · exact ⟨1023, (wsess { st := 4 }), by decide⟩
  · exact ⟨1023, (wsess { st := 2, txUnder := 2 ^ 39 }), by decide⟩
  · exact ⟨1023, (wsess { st := 2, rxUnder := 2 ^ 40 }), by decide⟩
  · exact ⟨1023, State.reset, by decide⟩
  · exact ⟨1023, by decide⟩

/-- What `RemoteRequestsAndEntries` assumes holds somewhere. -/
theorem witness_RemoteRequestsAndEntries :
    (∃ (i c : Nat) (h : Header) (s : State), (i < 1024) ∧ (sessionOpen s i = true) ∧ ((session s i).ctx = 0) ∧ (nodeBlock h.src
      = some (Blk.core c))) ∧
    (∃ (i : Nat) (h : Header) (d : List Byte) (s u : State), (i < 1024) ∧ (sessionOpen s i = true) ∧ (remoteAccess i
      { h with opcode := 112, xlated := false } [] s = RemoteFate.answer 0 d u)) ∧
    (∃ (i st : Nat) (h : Header) (us : List Unit256) (d : List Byte) (s u : State), (i < 1024) ∧ (sessionOpen s i = true) ∧
      (remoteAccess i { h with opcode := 113, xlated := false } (List.take 1 us) s = RemoteFate.answer st d u)) ∧
    (∃ (i : Nat) (s : State), (i < 1024) ∧ (sessionOpen s i = false)) ∧
    (∃ (i g r : Nat) (s : State), (sessionOpen s i = true) ∧ ((Tab.get { } s.plr.groups g).valid = true) ∧ ((Tab.get { }
      s.plr.groups g).rank ≠ r) ∧ (r ≤ (Tab.get { } s.plr.groups g).size) ∧ (Tab.get 0 s.plr.groupMap (g * 1024 + r) = i) ∧
      ((session s i).ctx = (Tab.get { } s.plr.groups g).ctx)) ∧
    (∃ (i : Nat) (s : State), (sessionOpen s i = false)) ∧
    (∃ (i : Nat) (s : State), (i < 1024) ∧ (pageOp s plarusPage = none) ∧ ((session s i).kiln = true) ∧ ((session s i).st = 0)) ∧
    (∃ (i : Nat) (s : State), (i < 1024) ∧ (pageOp s plarusPage = none) ∧ ((session s i).st ≠ 0)) ∧
    (∃ (i : Nat) (s : State), (i < 1024) ∧ (pageOp s plarusPage = none) ∧ ((session s i).kiln = true) ∧ ((session s i).ctx =
      254) ∧ ((session s i).st = 2)) ∧
    (∃ (i : Nat) (s : State), (i < 1024) ∧ (pageOp s plarusPage = none) ∧ ((session s i).kiln = true) ∧ ((session s i).ctx =
      254) ∧ ((session s i).st = 5)) ∧
    (∃ (i : Nat) (s : State), (i < 1024) ∧ ((session s i).st = 0)) ∧
    (∃ (i word : Nat) (s : State), (i < 1024) ∧ (word ≤ 4) ∧ ((session s i).st ≠ 0)) ∧
    (∃ (g : Nat) (s : State), (g < 65536) ∧ ((List.filter (fun e ↦ e.2.valid) s.plr.groups).length < 256)) := by
  refine ⟨?_, ?_, ?_, ?_, ?_, ?_, ?_, ?_, ?_, ?_, ?_, ?_, ?_⟩
  · exact ⟨1023, 0, ({ src := 648 }), (wsess { st := 2, ctx := 0 }), by decide⟩
  · exact ⟨1023, {}, _, wsess { st := 2 }, _, by decide, by decide, rfl⟩
  · exact ⟨1023, 0, {}, [{ be := some (List.replicate 256 false) }], [], wsess { st := 2 }, _, by decide, by decide, rfl⟩
  · exact ⟨1023, State.reset, by decide⟩
  · exact ⟨1023, 65535, 1,
        ({ State.reset with plr := { sessions := [(1023, { st := 2, ctx := 63 })], groups := [(65535, { valid := true, ctx := 63, size := 1 })], groupMap := [(65535 * 1024 + 1, 1023)] } }),
        by decide⟩
  · exact ⟨1023, State.reset, by decide⟩
  · exact ⟨1023, (wsess { kiln := true }), by decide⟩
  · exact ⟨1023, (wsess { st := 1 }), by decide⟩
  · exact ⟨1023, (wsess { kiln := true, ctx := 254, st := 2 }), by decide⟩
  · exact ⟨1023, (wsess { kiln := true, ctx := 254, st := 5 }), by decide⟩
  · exact ⟨1023, State.reset, by decide⟩
  · exact ⟨1023, 4, (wsess { st := 1 }), by decide⟩
  · exact ⟨65535, State.reset, by decide⟩

/-- What `TimebaseAndTimeMessages` assumes holds somewhere. -/
theorem witness_TimebaseAndTimeMessages :
    (∃ (raw e : Int) (s : State), (s.time.st = 2) ∧ (fld s timePage Reg.TB_CTRL_SOURCE = 2) ∧ (timeHeld s = false) ∧ (e = raw +
      1000 * sext 32 (fld s timePage Reg.PPS_CFG_PPS_IN_DELAY_NS)) ∧ (1000000 < e ∨ e < -1000000)) ∧
    (∃ (raw e : Int) (s : State), (s.time.st = 2) ∧ (fld s timePage Reg.TB_CTRL_SOURCE = 2) ∧ (timeHeld s = false) ∧ (e = raw +
      1000 * sext 32 (fld s timePage Reg.PPS_CFG_PPS_IN_DELAY_NS)) ∧ (-1000000 ≤ e) ∧ (e ≤ 1000000)) ∧
    (∃ (s : State), (s.time.st = 2)) ∧
    (∃ (s : State), (s.time.st = 2) ∧ (sourcePresent s = false)) ∧
    (∃ (s : State), (sourcePresent s = true)) ∧
    (∃ (s : State), (s.time.st = 1) ∧ (sourcePresent s = true) ∧ (timeHeld s = false) ∧ (-20000 ≤ sext 32 (fld s timePage
      Reg.TB_STATE_OFFSET_PS)) ∧ (sext 32 (fld s timePage Reg.TB_STATE_OFFSET_PS) ≤ 20000)) ∧
    (∃ (s : State), (timeHeld s = true)) ∧
    (∃ (s : State), (s.time.st = 2) ∧ (s.time.jumped = true)) ∧
    (∃ (d : Int) (s : State), (s.time.stepDue = some d) ∧ (s.time.st = 1) ∧ (timeHeld s = false)) ∧
    (∃ (ns : Nat) (s : State), (secondsFromSet s = true) ∧ (ns < 10 ^ 9) ∧ (s.time.sec < 2 ^ 48)) ∧
    (∃ (s : State), (secondsFromSet s = false)) ∧
    (∃ (s : State), (s.time.ns < 2 ^ 30) ∧ (s.time.sec < 2 ^ 48) ∧ (s.time.frac < 2 ^ 16)) ∧
    (∃ (s : State), (s.time.st = 2)) ∧
    (∃ (p d path : Nat) (l2 : Bool) (s : State), (isDown s (blockNode Blk.plarus) = false) ∧ (ptpPort s p = true) ∧ (d = fld s
      timePage Reg.TB_CTRL_DOMAIN) ∧ (l2 = flag s (pagePort p) Reg.PORT_CFG_PTP_L2) ∧ (ptpRole s p = 2) ∧ (activeSource s ≠ 4) ∧
      (path < 2 ^ 32)) ∧
    (∃ (p d : Nat) (l2 : Bool) (s : State), (isDown s (blockNode Blk.plarus) = false) ∧ (ptpPort s p = true) ∧ (d = fld s
      timePage Reg.TB_CTRL_DOMAIN) ∧ (l2 = flag s (pagePort p) Reg.PORT_CFG_PTP_L2)) ∧
    (∃ (p d : Nat) (s : State), (ptpPort s p = false ∨ d ≠ fld s timePage Reg.TB_CTRL_DOMAIN)) ∧
    (∃ (p d : Nat) (l2 : Bool) (s : State), (isDown s (blockNode Blk.plarus) = false) ∧ (ptpPort s p = true) ∧ (d = fld s
      timePage Reg.TB_CTRL_DOMAIN) ∧ (l2 = flag s (pagePort p) Reg.PORT_CFG_PTP_L2) ∧ (fld s (pagePort p) Reg.PORT_CFG_PTP_DELAY
      = 1)) ∧
    (∃ (p : Nat) (s : State), (ptpPort s p = true) ∧ (ptpRole s p = 1)) ∧
    (∃ (p : Nat) (s : State), (ptpRole s p ≠ 1)) ∧
    (∃ (n : Nat) (s : State), (n < 8) ∧ (siteLink s n = 5)) ∧
    (∃ (n : Nat) (s : State), (siteLink s n ≠ 5)) ∧
    (∃ (s : State), (fld s timePage Reg.PPS_CFG_PPS_OUT_EN = 1) ∧ (s.time.ppsHigh = false)) ∧
    (∃ (s : State), (fld s timePage Reg.PPS_CFG_PPS_OUT_EN = 0) ∧ (s.time.ppsHigh = false)) ∧
    (∃ (s : State), (s.time.ppsHigh = true)) := by
  refine ⟨?_, ?_, ?_, ?_, ?_, ?_, ?_, ?_, ?_, ?_, ?_, ?_, ?_, ?_, ?_, ?_, ?_, ?_, ?_, ?_, ?_, ?_, ?_, ?_⟩
  · exact ⟨1000001, 1000001, ({ wst [(timePage, Reg.TB_CTRL_SOURCE, 2)] with time := { st := 2 } }), by decide⟩
  · exact ⟨1000000, 1000000, ({ wst [(timePage, Reg.TB_CTRL_SOURCE, 2)] with time := { st := 2 } }), by decide⟩
  · exact ⟨({ wst [] with time := { st := 2 } }), by decide⟩
  · exact ⟨({ wst [] with time := { st := 2 } }), by decide⟩
  · exact ⟨({ wst [(timePage, Reg.TB_CTRL_SOURCE, 2)] with time := { pps := true } }), by decide⟩
  · exact ⟨({ wst [(timePage, Reg.TB_CTRL_SOURCE, 2)] with time := { st := 1, pps := true } }), by decide⟩
  · exact ⟨(wst [(timePage, Reg.TB_CTRL_FREEZE, 1)]), by decide⟩
  · exact ⟨({ wst [] with time := { st := 2, jumped := true } }), by decide⟩
  · exact ⟨5, ({ wst [] with time := { st := 1, stepDue := some 5 } }), by decide⟩
  · exact ⟨999999999, State.reset, by decide⟩
  · exact ⟨(wst [(timePage, Reg.TB_CTRL_SOURCE, 4)]), by decide⟩
  · exact ⟨State.reset, by decide⟩
  · exact ⟨({ wst [] with time := { st := 2 } }), by decide⟩
  · exact ⟨47, 0, 0, true, (wst [(timePage, Reg.TB_CTRL_SOURCE, 5), (pagePort 47, Reg.PORT_STATUS_UP, 1), (pagePort 47,
        Reg.PORT_CFG_PTP_EN, 1), (pagePort 47, Reg.PORT_CFG_PTP_L2, 1), (pagePort 47, Reg.PORT_STATUS_PTP_ROLE, 2)]), by decide⟩
  · exact ⟨47, 0, true, (wst [(pagePort 47, Reg.PORT_STATUS_UP, 1), (pagePort 47, Reg.PORT_CFG_PTP_EN, 1), (pagePort 47,
        Reg.PORT_CFG_PTP_L2, 1)]), by decide⟩
  · exact ⟨48, 0, State.reset, by decide⟩
  · exact ⟨47, 0, true, (wst [(pagePort 47, Reg.PORT_STATUS_UP, 1), (pagePort 47, Reg.PORT_CFG_PTP_EN, 1), (pagePort 47,
        Reg.PORT_CFG_PTP_L2, 1), (pagePort 47, Reg.PORT_CFG_PTP_DELAY, 1)]), by decide⟩
  · exact ⟨47, (wst [(pagePort 47, Reg.PORT_STATUS_UP, 1), (pagePort 47, Reg.PORT_CFG_PTP_EN, 1), (pagePort 47, Reg.PORT_CFG_PTP_L2,
        1), (pagePort 47, Reg.PORT_STATUS_PTP_ROLE, 1)]), by decide⟩
  · exact ⟨0, State.reset, by decide⟩
  · exact ⟨7, (wst [(pageSite 7, Reg.SITE_STATE_LINK, 5)]), by decide⟩
  · exact ⟨0, State.reset, by decide⟩
  · exact ⟨State.reset, by decide⟩
  · exact ⟨(wst [(timePage, Reg.PPS_CFG_PPS_OUT_EN, 0)]), by decide⟩
  · exact ⟨({ wst [] with time := { ppsHigh := true } }), by decide⟩

/-- What `HeartwoodMailbox` assumes holds somewhere. -/
theorem witness_HeartwoodMailbox :
    (∃ (arg : Nat), (8 ≤ arg % 16)) ∧
    (∃ (len arg : Nat), (len ≤ 16384) ∧ (arg % 16 < 8)) ∧
    (∃ (len arg v : Nat) (s : State), (len ≤ 16384) ∧ (0 < arg % 16) ∧ (arg % 16 ≤ 4) ∧ (1 ≤ lifeCycle s) ∧ (lifeCycle s ≤ 3) ∧
      (vppOn s = true) ∧ (Tab.get 0 s.heart.running (arg % 16) = v + 1) ∧ (Tab.get 0 s.heart.otp.thermo (arg % 16) ≤ v)) ∧
    (∃ (len arg v : Nat) (s : State), (len ≤ 16384) ∧ (0 < arg % 16) ∧ (arg % 16 ≤ 4) ∧ (1 ≤ lifeCycle s) ∧ (lifeCycle s ≤ 3) ∧
      (vppOn s = false) ∧ (Tab.get 0 s.heart.running (arg % 16) = v + 1)) ∧
    ((∀ k m g, Config.ecdsaVerify k m g = true) → (∀ b, Config.sha512 b = 5) → (∃ (len tg : Nat) (s : State), (len ≤ 16384) ∧
      (transitionFate s (mbxBody s len) = 0) ∧ (tg = leAt (mbxBody s len) 0 1) ∧ (s.heart.otp.lc.length = 3))) ∧
    (∃ (len fate : Nat) (s : State), (len ≤ 16384) ∧ (transitionFate s (mbxBody s len) = fate) ∧ (fate ≠ 0) ∧ (fate < 256)) ∧
    ((∀ k m g, Config.ecdsaVerify k m g = true) → (∀ b, Config.sha512 b = 5) → (∃ (new : Nat) (s : State), (lifeCycle s = 2 ∨
      lifeCycle s = 3) ∧ (leAt (mbxBody s 266) 0 1 = new) ∧ (new ≤ 3) ∧ (vppOn s = true) ∧ (sigFate s false (List.drop 1
      (mbxBody s 266)) (signedText s (List.take 1 (mbxBody s 266))) = 0) ∧ (policyValues.getD new 0 ||| policyValues.getD
      s.heart.otp.debugPolicy 0 = policyValues.getD new 0))) ∧
    ((∀ k m g, Config.ecdsaVerify k m g = true) → (∀ b, Config.sha512 b = 5) → (∃ (slot : Nat) (s : State), (leAt (mbxBody s
      267) 0 1 = 1) ∧ (leAt (mbxBody s 267) 1 1 = slot) ∧ (slot ≤ 3) ∧ (lifeCycle s = 2 ∨ lifeCycle s = 3) ∧ (vppOn s = true) ∧
      (sigFate s false (List.drop 2 (mbxBody s 267)) (signedText s (List.take 2 (mbxBody s 267))) = 0))) ∧
    ((∀ k m g, Config.ecdsaVerify k m g = true) → (∀ b, Config.sha512 b = 5) → (∀ j, Config.vendorKey j = 5) → (∃ (s : State),
      (policyForbids s false = false) ∧ (keyFate s true (slice (mbxBody s 313) 48 133) = 0) ∧ (ofBytes (nonceBytes s) ≠ 0) ∧
      (List.take 48 (mbxBody s 313) = slice (leBytes 64 (Config.sha512 Config.identityKey)) 0 16 ++ nonceBytes s) ∧
      (Config.ecdsaVerify (slice (mbxBody s 313) 48 133) (List.take 181 (mbxBody s 313)) (List.drop 181 (mbxBody s 313)) =
      true))) ∧
    (∃ (len : Nat) (s : State), (len ≤ 16384) ∧ (len ≠ 313) ∧ (policyForbids s false = false)) ∧
    (∃ (n v : Nat) (s : State), (otpItemFate s (OtpItem.siteState n v) = 0) ∧ (n < s.heart.otp.sites.length)) ∧
    (∃ (item : OtpItem) (s : State), (otpItemFate s item ≠ 0)) ∧
    (∃ (len : Nat), (len ≤ 16384)) ∧
    (∃ (s : State), (policyForbids s true = false) ∧ (hubVacant s = true)) ∧
    (∃ (s : State), (policyForbids s true = false) ∧ (hubVacant s = false)) ∧
    (∃ (len : Nat), (16384 < len)) := by
  refine ⟨?_, ?_, ?_, ?_, ?_, ?_, ?_, ?_, ?_, ?_, ?_, ?_, ?_, ?_, ?_, ?_⟩
  · exact ⟨8, by decide⟩
  · exact ⟨16384, 7, by decide⟩
  · exact ⟨16384, 4, 0,
        ({ wst [(0x00C, Reg.LC_STATE_STATE, 3), (0x00C, Reg.OTP_STATUS_VPP, 1)] with heart := { running := [(4, 1)] } }),
        by decide⟩
  · exact ⟨16384, 4, 0, ({ wst [(0x00C, Reg.LC_STATE_STATE, 3)] with heart := { running := [(4, 1)] } }), by decide⟩
  · exact fun hv hs => ⟨266, 3,
        ({ wst [(0x00C, Reg.LC_STATE_STATE, 2), (0x00C, Reg.OTP_STATUS_VPP, 1), (0x00D, Reg.DEBUG_NONCE.at 8 0, 1)] with heart := { otp := { ownerKeys := [5, 0, 0, 0] }, mbx := [(0, 3)] } }),
        by exact ⟨by decide, by simp only [transitionFate, sigFate, keyFate, hs, hv]; decide +kernel, by decide, by decide⟩⟩
  · exact ⟨266, 4, State.reset, by decide +kernel⟩
  · exact fun hv hs => ⟨0,
        ({ wst [(0x00C, Reg.LC_STATE_STATE, 2), (0x00C, Reg.OTP_STATUS_VPP, 1)] with heart := { otp := { ownerKeys := [5, 0, 0, 0] } } }),
        by exact ⟨by decide, by decide, by decide, by decide, by simp only [sigFate, keyFate, hs, hv]; decide, by decide⟩⟩
  · exact fun hv hs => ⟨3,
        ({ wst [(0x00C, Reg.LC_STATE_STATE, 2), (0x00C, Reg.OTP_STATUS_VPP, 1)] with heart := { otp := { ownerKeys := [5, 0, 0, 0] }, mbx := [(0, 1), (1, 3)] } }),
        by exact ⟨by decide, by decide, by decide, by decide, by decide, by simp only [sigFate, keyFate, hs, hv]; decide⟩⟩
  · exact fun hv hs hk => ⟨({ wst [(0x00D, Reg.DEBUG_NONCE.at 8 0, 1)] with heart := { mbx := [(0, 5), (16, 1)] } }),
        by exact ⟨by decide, by simp only [keyFate, hs, hk]; decide, by decide, by rw [hs]; decide +kernel, hv _ _ _⟩⟩
  · exact ⟨16384, State.reset, by decide⟩
  · exact ⟨7, 2, (wst [(0x00C, Reg.LC_STATE_STATE, 3), (0x00C, Reg.OTP_STATUS_VPP, 1)]), by decide +kernel⟩
  · exact ⟨(.siteState 8 0), State.reset, by decide⟩
  · exact ⟨16384, by decide⟩
  · exact ⟨State.reset, by decide +kernel⟩
  · exact ⟨(wst [(pageCtx 63, Reg.CTX_STATUS_STATE, 1)]), by decide +kernel⟩
  · exact ⟨16385, by decide⟩

/-- What `PowerAndReset` assumes holds somewhere. -/
theorem witness_PowerAndReset :
    (∃ (s : State), (s.power.vaux = false)) ∧
    (∃ (s : State), (s.power.vaux = true)) ∧
    (∃ (s : State), (s.power.vaux = true) ∧ (s.power.tripped = false) ∧ (s.power.off = false)) ∧
    (∃ (s : State), (s.power.tripped = true)) ∧
    (∃ (s : State), (s.power.vaux = true) ∧ (s.power.off = false)) ∧
    (∃ (s : State), (s.power.vaux = true) ∧ (s.power.off = true) ∧ (s.power.tripped = false)) ∧
    (∃ (s : State), (s.power.vaux = false ∨ s.power.off = true ∨ s.power.tripped = true ∨ s.power.halted = true)) ∧
    (∃ (s : State), (s.power.vaux = true) ∧ (s.power.off = false) ∧ (s.power.tripped = false) ∧ (s.power.halted = false) ∧ (fld
      s resetPage Reg.RESET_BRINGUP_STEP = 1) ∧ (List.find? OtpRecord.isOpen s.heart.otp.records = none) ∧
      (s.heart.otp.lifeCycle = 0)) ∧
    (∃ (b : BringUp) (s : State), (s.power.vaux = true) ∧ (s.power.off = false) ∧ (s.power.tripped = false) ∧ (s.power.halted =
      false) ∧ (fld s resetPage Reg.RESET_BRINGUP_STEP = 2) ∧ (b.vinCoreMv < 1550)) ∧
    (∃ (b : BringUp) (s : State), (s.power.vaux = true) ∧ (s.power.off = false) ∧ (s.power.tripped = false) ∧ (s.power.halted =
      false) ∧ (fld s resetPage Reg.RESET_BRINGUP_STEP = 3) ∧ (b.links = true)) ∧
    (∃ (b : BringUp) (s : State), (s.power.vaux = true) ∧ (s.power.off = false) ∧ (s.power.tripped = false) ∧ (s.power.halted =
      false) ∧ (fld s resetPage Reg.RESET_BRINGUP_STEP = 3) ∧ (b.links = false)) ∧
    (∃ (s : State), (s.power.vaux = true) ∧ (s.power.off = false) ∧ (s.power.tripped = false) ∧ (s.power.halted = false) ∧ (fld
      s resetPage Reg.RESET_BRINGUP_STEP = 4)) ∧
    (∃ (n : Nat) (s : State), (s.power.vaux = true) ∧ (s.power.off = false) ∧ (s.power.tripped = false) ∧ (s.power.halted =
      false) ∧ (fld s resetPage Reg.RESET_BRINGUP_STEP = 5) ∧ (s.power.portsStarted = true) ∧ (n < 8) ∧ (siteStarting s n =
      true)) ∧
    (∃ (s : State), (s.power.vaux = true) ∧ (s.power.off = false) ∧ (s.power.tripped = false) ∧ (s.power.halted = false) ∧ (fld
      s resetPage Reg.RESET_BRINGUP_STEP = 5) ∧ (s.power.portsStarted = true) ∧ (s.power.nextSite = 8) ∧ (∀ n < 8, siteStarting
      s n = false)) ∧
    (∃ (i : Nat) (s : State), (38 ≤ i) ∧ (i < 44) ∧ (tst (fld s clockPage Reg.PLL_LOCK) i = true)) ∧
    (∃ (i : Nat) (s : State), (3 ≤ i) ∧ (i < 37) ∧ (tst (fld s clockPage Reg.PLL_LOCK) i = false)) := by
  refine ⟨?_, ?_, ?_, ?_, ?_, ?_, ?_, ?_, ?_, ?_, ?_, ?_, ?_, ?_, ?_, ?_⟩
  · exact ⟨({ State.reset with power := { vaux := false } }), by decide⟩
  · exact ⟨State.reset, by decide⟩
  · exact ⟨State.reset, by decide⟩
  · exact ⟨({ State.reset with power := { tripped := true } }), by decide⟩
  · exact ⟨State.reset, by decide⟩
  · exact ⟨({ State.reset with power := { off := true } }), by decide⟩
  · exact ⟨({ State.reset with power := { halted := true } }), by decide⟩
  · exact ⟨({ wstep 1 {  } with heart := { otp := { lc := [0, 0, 0] } } }), by decide⟩
  · exact ⟨({ vinCoreMv := 1549 }), (wstep 2 {  }), by decide⟩
  · exact ⟨({}), (wstep 3 {  }), by decide⟩
  · exact ⟨({ links := false }), (wstep 3 {  }), by decide⟩
  · exact ⟨(wstep 4 {  }), by decide⟩
  · exact ⟨7,
        ({ wst [(resetPage, Reg.RESET_BRINGUP_STEP, 5), (pageSite 7, Reg.SITE_STATE_LINK, 4)] with power := { portsStarted := true } }),
        by decide⟩
  · exact ⟨(wstep 5 { portsStarted := true, nextSite := 8 }), by decide⟩
  · exact ⟨43, (wst [(clockPage, Reg.PLL_LOCK, 2 ^ 43)]), by decide⟩
  · exact ⟨36, (wst [(clockPage, Reg.PLL_LOCK, 0)]), by decide⟩

/-- What `PowerManagement` assumes holds somewhere. -/
theorem witness_PowerManagement :
    (∃ (n : Nat) (s : State), ((tile s n).sealedSetting = true)) ∧
    (∃ (n : Nat) (s : State), (n < 64) ∧ (domainOn s n = true) ∧ ((tile s n).sealedSetting = false) ∧ (fld s (pageTile n)
      Reg.TILE_LOOP_CTRL_OVERRIDE = 1)) ∧
    (∃ (n : Nat) (s : State), (fld s (pageTile n) Reg.TILE_LOOP_CTRL_OVERRIDE = 0) ∧ (fld s (pageTile n)
      Reg.TILE_LOOP_CTRL_FREEZE = 1)) ∧
    (∃ (n : Nat) (s : State), (n < 64) ∧ (domainOn s n = true) ∧ ((tile s n).sealedSetting = false) ∧ (fld s (pageTile n)
      Reg.TILE_LOOP_CTRL_OVERRIDE = 0) ∧ (fld s (pageTile n) Reg.TILE_LOOP_CTRL_FREEZE = 0) ∧ (10 * vMin s n ≤ (tile s n).volt)
      ∧ ((tile s n).volt + 25 ≤ 10 * vMax s n) ∧ (mhzMin s n ≤ (tile s n).mhz) ∧ ((tile s n).mhz ≤ mhzMax s n)) ∧
    (∃ (n : Nat) (s : State), (n < 64) ∧ (domainOn s n = true)) ∧
    (∃ (s : State), (fld s powerPage Reg.PWR_CTRL_OVERRIDE = 0) ∧ (fld s powerPage Reg.PWR_CTRL_FREEZE = 1) ∧ (fld s powerPage
      Reg.PWR_STATUS_DUTY < 128)) ∧
    (∃ (n : Nat) (s : State), (n < 64) ∧ (fld s powerPage Reg.PWR_GATE_TILE_IDLE_US ≠ 0) ∧ (bindState s (pageTile n) = 0) ∧
      (pageOp s (pageTile n) = none) ∧ (domainOn s n = true)) ∧
    (∃ (s : State), (fld s powerPage Reg.PWR_GATE_TILE_IDLE_US = 0)) ∧
    (∃ (n : Nat) (s : State), (fld s resetPage Reg.SELFTEST_POLICY_INTERVAL_H ≠ 0) ∧ (List.find? (fun n ↦ arrayInService s n)
      (List.map (fun i ↦ (s.power.nextTest + i) % 64) (List.range 64)) = some n) ∧ (bindState s (pageTile n) = 0) ∧ (pageOp s
      (pageTile n) = none)) ∧
    (∃ (s : State), (fld s resetPage Reg.SELFTEST_POLICY_INTERVAL_H = 0)) ∧
    (∃ (i : Nat) (l : List Int) (s : State), (s.power.vaux = true) ∧ (s.power.off = false) ∧ (s.power.tripped = false) ∧ (i <
      144) ∧ (sensorOn s i = true) ∧ (1000 ≤ l.getD i 0)) ∧
    (∃ (i : Nat) (l : List Int) (s : State), (s.power.vaux = true) ∧ (s.power.off = false) ∧ (s.power.tripped = false) ∧ (i <
      144) ∧ (sensorOn s i = true) ∧ (∀ j < 144, l.getD j 0 < 920)) := by
  refine ⟨?_, ?_, ?_, ?_, ?_, ?_, ?_, ?_, ?_, ?_, ?_, ?_⟩
  · exact ⟨63, (wtile 63 { sealedSetting := true } []), by decide⟩
  · exact ⟨63, ({ wst [(pageTile 63, Reg.TILE_LOOP_CTRL_OVERRIDE, 1)] with power := { domains := [(63, true)] } }), by decide⟩
  · exact ⟨63, (wst [(pageTile 63, Reg.TILE_LOOP_CTRL_FREEZE, 1)]), by decide⟩
  · exact ⟨63, ({ wtile 63 { volt := 7000, mhz := 2000 } [] with power := { domains := [(63, true)] } }), by decide⟩
  · exact ⟨63, ({ State.reset with power := { domains := [(63, true)] } }), by decide⟩
  · exact ⟨(wst [(powerPage, Reg.PWR_CTRL_FREEZE, 1)]), by decide⟩
  · exact ⟨63, ({ wst [(powerPage, Reg.PWR_GATE_TILE_IDLE_US, 5)] with power := { domains := [(63, true)] } }), by decide⟩
  · exact ⟨(wst [(powerPage, Reg.PWR_GATE_TILE_IDLE_US, 0)]), by decide⟩
  · exact ⟨3, (wst [(resetPage, Reg.SELFTEST_POLICY_INTERVAL_H, 1), (0, Reg.ARRAYS_IN_SERVICE, 8)]), by decide⟩
  · exact ⟨(wst [(resetPage, Reg.SELFTEST_POLICY_INTERVAL_H, 0)]), by decide⟩
  · exact ⟨143, (List.replicate 144 1000), State.reset, by decide⟩
  · exact ⟨143, (List.replicate 144 919), State.reset, by decide⟩

/-- What `LogsAndCores` assumes holds somewhere. -/
theorem witness_LogsAndCores :
    (∃ (l : Nat) (s : State), (fld s 4 Reg.ERRLOG_CFG_ENABLE = 0) ∧ (8 ≤ l) ∧ (l ≤ 16)) ∧
    (∃ (l : Nat) (s : State), (fld s 4 Reg.ERRLOG_CFG_ENABLE = 1 ∨ l < 8 ∨ 16 < l)) ∧
    (∃ (h : Nat) (s : State), (fld s 4 Reg.ERRLOG_CFG_ENABLE = 1) ∧ (h < 2 ^ 16) ∧ (headOk (fld s 4 Reg.ERRLOG_CFG_LOG2_SIZE)
      (fld s 4 Reg.ERRLOG_STATUS_TAIL) (fld s 4 Reg.ERRLOG_STATUS_HEAD) h = true)) ∧
    (∃ (s : State), (fld s 4 Reg.ERRLOG_CFG_ENABLE = 0)) ∧
    (∃ (k l : Nat) (s : State), (k < 64) ∧ (fld s (pageWin k 0) Reg.ERRQ_CFG_ENABLE = 0) ∧ (6 ≤ l) ∧ (l ≤ 12)) ∧
    (∃ (k : Nat), (k < 64)) ∧
    (∃ (k h : Nat) (s : State), (k < 64) ∧ (h < 2 ^ 12) ∧ (fld s (pageWin k 0) Reg.ERRQ_CFG_ENABLE = 1) ∧ (headOk (fld s
      (pageWin k 0) Reg.ERRQ_CFG_LOG2_SIZE) (fld s (pageWin k 0) Reg.ERRQ_STATUS_TAIL) (fld s (pageWin k 0)
      Reg.ERRQ_STATUS_HEAD) h = true)) ∧
    (∃ (m : Nat) (s : State), (m < 8) ∧ (coreState s m = 1) ∧ (s.coh.breaches = []) ∧ ((List.filter (fun t ↦ decide (nowNs s < t
      + 600000000000)) (Tab.get [] s.cores.restarts m)).length < 2)) ∧
    (∃ (m : Nat) (s : State), (m < 8) ∧ (coreState s m = 1) ∧ (s.coh.breaches = []) ∧ (2 ≤ (List.filter (fun t ↦ decide (nowNs s
      < t + 600000000000)) (Tab.get [] s.cores.restarts m)).length)) ∧
    (∃ (m : Nat) (s : State), (m < 8) ∧ (coreState s m = 3)) ∧
    (∃ (m : Nat) (s : State), (m < 8) ∧ (coreState s m = 1) ∧ (s.coh.breaches = []) ∧ (pageOp s (pageCore m) = none) ∧
      ((List.filter (fun t ↦ decide (nowNs s < t + 600000000000)) (Tab.get [] s.cores.restarts m)).length < 2)) ∧
    (∃ (m : Nat) (s : State), (m < 8) ∧ ((pageOp s (pageCore m)).isSome = true)) ∧
    (∃ (m ms : Nat) (o : PageOp) (s : State), (m < 8) ∧ (coreState s m = 2) ∧ (pageOp s (pageCore m) = some o) ∧ (o.op = 16) ∧
      (ms < 2 ^ 16)) := by
  refine ⟨?_, ?_, ?_, ?_, ?_, ?_, ?_, ?_, ?_, ?_, ?_, ?_, ?_⟩
  · exact ⟨16, State.reset, by decide⟩
  · exact ⟨17, State.reset, by decide⟩
  · exact ⟨2, (wst [(4, Reg.ERRLOG_CFG_ENABLE, 1), (4, Reg.ERRLOG_CFG_LOG2_SIZE, 16), (4, Reg.ERRLOG_STATUS_TAIL, 2)]), by decide⟩
  · exact ⟨State.reset, by decide⟩
  · exact ⟨63, 12, State.reset, by decide⟩
  · exact ⟨63, by decide⟩
  · exact ⟨63, 1, (wst [(pageWin 63 0, Reg.ERRQ_CFG_ENABLE, 1), (pageWin 63 0, Reg.ERRQ_CFG_LOG2_SIZE, 12), (pageWin 63 0,
        Reg.ERRQ_STATUS_TAIL, 1)]), by decide⟩
  · exact ⟨7, (wst [(pageCore 7, Reg.CORE_STATE_STATE, 1)]), by decide⟩
  · exact ⟨7, ({ wst [(pageCore 7, Reg.CORE_STATE_STATE, 1)] with cores := { restarts := [(7, [0, 0])] } }), by decide⟩
  · exact ⟨7, (wst [(pageCore 7, Reg.CORE_STATE_STATE, 3)]), by decide⟩
  · exact ⟨7, (wst [(pageCore 7, Reg.CORE_STATE_STATE, 1)]), by decide⟩
  · exact ⟨7, ({ State.reset with ops := [(pageCore 7, some ⟨0x10, 0, false⟩)] }), by decide⟩
  · exact ⟨7, 65535, (⟨0x10, 0, false⟩),
        ({ wst [(pageCore 7, Reg.CORE_STATE_STATE, 2)] with ops := [(pageCore 7, some ⟨0x10, 0, false⟩)] }), by decide⟩

/-- What `EmberJournals` assumes holds somewhere. -/
theorem witness_EmberJournals :
    (∃ (k : Nat) (s : State), (k < 64) ∧ (pageOp s (pageCtx k) = none) ∧ (isSealed s k = false) ∧ (startReason s k = 0)) ∧
    (∃ (k : Nat) (s : State), (k < 64) ∧ (pageOp s (pageCtx k) = none) ∧ (isSealed s k = false) ∧ (emberState s k ≠ 0)) ∧
    (∃ (k : Nat) (s : State), (0 < k) ∧ (k < 64) ∧ (pageOp s (pageCtx k) = none) ∧ (isSealed s k = false) ∧ (promoteReason s k =
      0) ∧ (committedLog s k = [])) ∧
    (∃ (k : Nat) (s : State), (k < 64) ∧ (pageOp s (pageCtx k) = none) ∧ (isSealed s k = true)) ∧
    (∃ (k : Nat) (s : State), (k < 64) ∧ ((pageOp s (pageCtx k)).isSome = true)) ∧
    (∃ (k : Nat) (e : Envelope) (s : State), (windowOpen s k e) ∧ (emberState s k = 0)) ∧
    (∃ (k : Nat) (e : Envelope) (s : State), (windowOpen s k e) ∧ (emberState s k ≠ 0)) ∧
    (∃ (k : Nat) (e : Envelope) (s : State), (windowOpen s k e) ∧ (startReason s k = 0)) ∧
    (∃ (k : Nat) (e : Envelope) (s : State), (windowOpen s k e) ∧ (emberState s k ≠ 0)) ∧
    (∃ (k : Nat) (e : Envelope) (s : State), (windowOpen s k e) ∧ (promoteReason s k = 0) ∧ (committedLog s k = [])) ∧
    (∃ (k va : Nat) (l : Leaf) (p : Nat × Nat × Nat × Nat) (s : State), (k < 64) ∧ (emberState s k ≠ 0) ∧ (emberState s k ≤ 3) ∧
      ((ember s k).full = false) ∧ (walkLeaf s k va = Except.ok l) ∧ (l.size ≠ 2) ∧ (p = (va / 65536 * 65536, 2 ^ 16, l.entryPa,
      l.entry)) ∧ (pageDirty s k p = true)) ∧
    (∃ (k : Nat) (s : State), (emberState s k = 0)) ∧
    (∃ (i k id : Nat) (h : Header) (p : Pass) (s : State), (i = h.opArg % 1024) ∧ (sessionLive s i = true) ∧ ((session s i).ctx
      = k) ∧ (k < 64) ∧ (emberState s k = 3) ∧ (h.opData % 2 ^ 32 = emberId s k) ∧ (h.opData / 2 ^ 32 % 2 ^ 32 = (ember s
      k).openCut % 2 ^ 32) ∧ ((ember s k).point = some id) ∧ (pass s id = some p)) := by
  refine ⟨?_, ?_, ?_, ?_, ?_, ?_, ?_, ?_, ?_, ?_, ?_, ?_, ?_⟩
  · exact ⟨63, ({ wst [(pageCtx 63, Reg.EMBER_CFG_ROLE, 1)] with plr := { sessions := [(0, { st := 2, ctx := 63 })] } }), by decide⟩
  · exact ⟨63, (wst [(pageCtx 63, Reg.EMBER_STATUS_STATE, 1)]), by decide⟩
  · exact ⟨63, (wst [(pageCtx 63, Reg.EMBER_STATUS_STATE, 6), (pageCtx 63, Reg.CTX_STATUS_STATE, 1)]), by decide⟩
  · exact ⟨63, (wst [(pageCtx 63, Reg.CTX_STATUS_SEALED, 1)]), by decide⟩
  · exact ⟨63, ({ State.reset with ops := [(pageCtx 63, some ⟨1, 0, false⟩)] }), by decide⟩
  · exact ⟨63, wenv, (wwin []), by exact ⟨by unfold windowOpen; decide, by decide⟩⟩
  · exact ⟨63, wenv, (wwin [(pageCtx 63, Reg.EMBER_STATUS_STATE, 1)]), by exact ⟨by unfold windowOpen; decide, by decide⟩⟩
  · exact ⟨63, wenv, ({ wwin [(pageCtx 63, Reg.EMBER_CFG_ROLE, 1)] with plr := { sessions := [(0, { st := 2, ctx := 63 })] } }),
        by exact ⟨by unfold windowOpen; decide, by decide⟩⟩
  · exact ⟨63, wenv, (wwin [(pageCtx 63, Reg.EMBER_STATUS_STATE, 1)]), by exact ⟨by unfold windowOpen; decide, by decide⟩⟩
  · exact ⟨63, wenv, (wwin [(pageCtx 63, Reg.EMBER_STATUS_STATE, 6), (pageCtx 63, Reg.CTX_STATUS_STATE, 1)]),
        by exact ⟨by unfold windowOpen; decide, by decide, by decide⟩⟩
  · exact ⟨0, 0, ({ pa := 0, size := 0, entryPa := 0, entry := 7 }), ((0, 2 ^ 16, 0, 7)), (wmap [(pageCtx 0, Reg.EMBER_STATUS_STATE,
        3)]), by exact ⟨by decide, by decide, by decide, by decide, by decide +kernel, by decide, by decide, by decide⟩⟩
  · exact ⟨63, State.reset, by decide⟩
  · exact ⟨1023, 63, 0, ({ opArg := 1023, opData := 2 ^ 32 }), wpass,
        ({ wst [(pageCtx 63, Reg.EMBER_STATUS_STATE, 3)] with plr := { sessions := [(1023, { st := 2, ctx := 63 })] }, ember := [(63, { point := some 0 })], passes := [wpass] }),
        by decide⟩

/-- What `EmberPartners` assumes holds somewhere. -/
theorem witness_EmberPartners :
    (∃ (i k : Nat) (h : Header) (s : State), (i = h.opArg % 1024) ∧ (sessionLive s i = true) ∧ ((session s i).ctx = k) ∧ (k <
      64) ∧ (emberRole s k = 2) ∧ (emberState s k = 0) ∧ (h.opData % 2 ^ 32 ∉ (ember s k).past)) ∧
    (∃ (i k : Nat) (h : Header) (us : List Unit256) (u s : State), (i = h.opArg % 1024) ∧ (sessionLive s i = true) ∧ ((session s
      i).ctx = k) ∧ (k < 64) ∧ (emberRole s k = 2) ∧ (emberState s k = 6) ∧ (emberId s k = h.opData % 2 ^ 32) ∧ (emberEpoch s k
      = leAt h.inlineData 0 8) ∧ ((ember s k).tail + (unitData us).length ≤ logBytes s k) ∧ (vwrite 84 k (logBase s k + (ember s
      k).tail) (unitData us) s = Except.ok u)) ∧
    (∃ (i k m : Nat) (h : Header) (s : State), (i = h.opArg % 1024) ∧ (sessionLive s i = true) ∧ ((session s i).ctx = k) ∧ (k <
      64) ∧ (emberRole s k = 2) ∧ (emberState s k = 5 ∨ emberState s k = 6) ∧ (emberId s k = h.opData % 2 ^ 32) ∧ (emberEpoch s
      k = leAt h.inlineData 0 8) ∧ ((ember s k).gotBytes = leAt h.inlineData 8 8) ∧ (m = leAt h.inlineData 16 8) ∧ (∀ j < m, ∃ b
      ∈ (ember s k).state, b.1 = j)) ∧
    (∃ (i k : Nat) (h : Header) (s : State), (i = h.opArg % 1024) ∧ (sessionLive s i = true) ∧ ((session s i).ctx = k) ∧ (k <
      64) ∧ (emberRole s k = 2) ∧ (emberState s k = 5 ∨ emberState s k = 6) ∧ (emberId s k = h.opData % 2 ^ 32) ∧ (emberEpoch s
      k = leAt h.inlineData 0 8) ∧ ((ember s k).gotBytes ≠ leAt h.inlineData 8 8)) ∧
    (∃ (k : Nat) (s : State), (committedLog s k = [])) ∧
    (∃ (k : Nat) (e : EmberEnt) (d : List Byte) (u s : State), (k < 64) ∧ ((ember s k).log = [e]) ∧ (committedLog s k = [e]) ∧
      ((ember s k).promoting = false) ∧ (rd s 84 k (logBase s k + e.off) e.len = Except.ok d) ∧ (vwrite 84 k e.va d s = Except.ok u)) ∧
    (∃ (i : Nat) (h : Header) (s : State), (i = h.opArg % 1024) ∧ (emberState s (session s i).ctx = 6) ∧ (sessionLive s i =
      false ∨ emberRole s (session s i).ctx ≠ 2)) := by
  refine ⟨?_, ?_, ?_, ?_, ?_, ?_, ?_⟩
  · exact ⟨1023, 63, ({ opArg := 1023, opData := 5 }),
        ({ wst [(pageCtx 63, Reg.EMBER_CFG_ROLE, 2), (pageCtx 63, Reg.EMBER_STATUS2_JOURNAL_ID, 5), (pageCtx 63, Reg.EMBER_EPOCH, 0), (pageCtx 63, Reg.EMBER_STATUS_STATE, 0)] with plr := { sessions := [(1023, { st := 2, ctx := 63 })] } }),
        by decide⟩
  · obtain ⟨u,
      hu⟩ := wok (r := vwrite 84 1 (logBase wpart 1 + (ember wpart 1).tail) (unitData [{ bytes := [7] }]) wpart) (by decide +kernel)
    exact ⟨0, 1, { opData := 5 }, [{ bytes := [7] }], u, wpart, by decide, by decide, by decide, by decide, by decide,
      by decide, by decide, by decide, by decide +kernel, hu⟩
  · exact ⟨1023, 63, 2, ({ opArg := 1023, opData := 5, inlineData := List.replicate 16 0 ++ [2] }),
        ({ wst [(pageCtx 63, Reg.EMBER_CFG_ROLE, 2), (pageCtx 63, Reg.EMBER_STATUS2_JOURNAL_ID, 5), (pageCtx 63, Reg.EMBER_EPOCH, 0), (pageCtx 63, Reg.EMBER_STATUS_STATE, 6)] with plr := { sessions := [(1023, { st := 2, ctx := 63 })] }, ember := [(63, { state := [(0, 1), (1, 1)] })] }),
        by decide +kernel⟩
  · exact ⟨1023, 63, ({ opArg := 1023, opData := 5, inlineData := List.replicate 8 0 ++ [2] }),
        ({ wst [(pageCtx 63, Reg.EMBER_CFG_ROLE, 2), (pageCtx 63, Reg.EMBER_STATUS2_JOURNAL_ID, 5), (pageCtx 63, Reg.EMBER_EPOCH, 0), (pageCtx 63, Reg.EMBER_STATUS_STATE, 5)] with plr := { sessions := [(1023, { st := 2, ctx := 63 })] } }),
        by decide⟩
  · exact ⟨63, State.reset, by decide⟩
  · obtain ⟨u, hu⟩ := wok (r := vwrite 84 1 0 [7] wpart) (by decide +kernel)
    exact ⟨1, { cut := 0, va := 0, off := 0, len := 1 }, [7], u, wpart, by decide, by decide, by decide, by decide,
      by decide +kernel, hu⟩
  · exact ⟨1023, ({ opArg := 1023 }),
        ({ wst [(pageCtx 63, Reg.EMBER_STATUS_STATE, 6)] with plr := { sessions := [(1023, { st := 2, ctx := 63 })] } }),
        by decide⟩

/-- What `SidebandsAndLinks` assumes holds somewhere. -/
theorem witness_SidebandsAndLinks :
    (∃ (i : Nat) (s : State), (s.power.vaux = true) ∧ (i < 144)) ∧
    (∃ (i : Nat) (s : State), (s.power.vaux = true) ∧ (144 ≤ i)) ∧
    (∃ (s : State), (s.power.vaux = false)) ∧
    (∃ (s : State), (s.power.perst = false)) ∧
    (∃ (rate : Nat) (s : State), (s.power.perst = false) ∧ (s.power.off = false) ∧ (3 ≤ fld s resetPage Reg.RESET_BRINGUP_STEP)
      ∧ (rate < 4) ∧ (0 < rate)) ∧
    (∃ (s : State), (s.power.perst = true ∨ fld s resetPage Reg.RESET_BRINGUP_STEP < 3)) ∧
    (∃ (n : Nat) (s : State), (n < 8) ∧ (siteLink s n = 1) ∧ ((site s n).released = true)) ∧
    (∃ (n : Nat) (s : State), ((site s n).released = false)) ∧
    (∃ (n rate : Nat) (s : State), (n < 8) ∧ (siteLink s n = 2) ∧ (0 < rate) ∧ (rate ≤ 3) ∧ (rate ≤ max 1 (fld s (pageSite n)
      Reg.SITE_CFG_MAX_RATE))) ∧
    (∃ (n rate : Nat) (s : State), (n < 8) ∧ (siteLink s n = 2) ∧ (max 1 (fld s (pageSite n) Reg.SITE_CFG_MAX_RATE) < rate)) ∧
    (∃ (k : Nat) (e : Envelope) (s : State), (0 < k) ∧ (k < 64) ∧ (envelopeOk (ctx s k) e = false)) ∧
    (∃ (c read write : Nat) (s : State), (c < 384) ∧ ((channel s c).paused = true) ∧ (trimSteps read (channel s c).adaptRead ≤
      16) ∧ (trimSteps write (channel s c).adaptWrite ≤ 16) ∧ (queueOf s c = []) ∧ (pageOp s (pageHbm (c / 32)) = none)) ∧
    (∃ (c : Nat) (s : State), ((channel s c).paused = false)) ∧
    (∃ (port : Nat) (s : State), (fld s (pagePeat (port % 4)) Reg.PEAT_LINK_IDE_SECURE = 1)) ∧
    (∃ (port : Nat) (s : State), (fld s (pagePeat (port % 4)) Reg.PEAT_LINK_IDE_SECURE = 0)) := by
  refine ⟨?_, ?_, ?_, ?_, ?_, ?_, ?_, ?_, ?_, ?_, ?_, ?_, ?_, ?_, ?_⟩
  · exact ⟨143, State.reset, by decide⟩
  · exact ⟨144, State.reset, by decide⟩
  · exact ⟨({ State.reset with power := { vaux := false } }), by decide⟩
  · exact ⟨({ State.reset with power := { perst := false } }), by decide⟩
  · exact ⟨3, (wstep 3 { perst := false }), by decide⟩
  · exact ⟨State.reset, by decide⟩
  · exact ⟨7, (wsite 1 { released := true }), by decide⟩
  · exact ⟨0, State.reset, by decide⟩
  · exact ⟨7, 3,
        ({ wsite 2 {  } with regs := (wst [(pageSite 7, Reg.SITE_STATE_LINK, 2), (pageSite 7, Reg.SITE_CFG_MAX_RATE, 3)]).regs }),
        by decide⟩
  · exact ⟨7, 8, (wsite 2 {  }), by decide⟩
  · exact ⟨63, ({}), State.reset, by decide⟩
  · exact ⟨383, 0, 0, ({ State.reset with hbm := { channels := [(383, { paused := true })] } }), by decide⟩
  · exact ⟨0, State.reset, by decide⟩
  · exact ⟨3, (wst [(pagePeat 3, Reg.PEAT_LINK_IDE_SECURE, 1)]), by decide⟩
  · exact ⟨0, State.reset, by decide⟩

/-- What `TorusRouting` assumes holds somewhere. -/
theorem witness_TorusRouting :
    (∃ (p : NetPkt) (d dx dy a b : Nat), (d = nodeRouter p.hdr.dst) ∧ (p.router < 64) ∧ (d < 64) ∧ (4 ≤ p.inPort) ∧ (p.vc = 0) ∧
      (dx = (d % 8 + 8 - p.router % 8) % 8) ∧ (dy = (d / 8 + 8 - p.router / 8) % 8) ∧ (a = if dx ≤ 4 then 0 else 1) ∧ (b = if dy
      ≤ 4 then 2 else 3)) ∧
    (∃ (r dir : Nat), (r < 64) ∧ (dir < 4)) ∧
    (∃ (s : State) (r out i : Nat) (plane : Plane) (p : NetPkt), ((i, p) ∈ candidates s r out plane)) := by
  refine ⟨?_, ?_, ?_⟩
  · exact ⟨({ router := 63 }), 0, 1, 1, 0, 2, by decide⟩
  · exact ⟨63, 3, by decide⟩
  · exact ⟨({ State.reset with torus := { pkts := [{}] } }), 0, 4, 0, Plane.req, ({}), by decide⟩

/-- What `UnmatchedResponses` assumes holds somewhere. -/
theorem witness_UnmatchedResponses :
    (∃ (node p : Nat) (h : Header) (s : State), (p = pageTile (nodeRouter node % 64)) ∧ (takeFirst (fun r ↦ r.src == node &&
      r.srcSub == h.dstSub && r.tag == h.tag) s.torus.outstanding = none)) := by
  exact
    ⟨1023, (pageTile 63), ({}), State.reset, by decide⟩

/-- What `OwnershipViolations` assumes holds somewhere. -/
theorem witness_OwnershipViolations :
    (∃ (h : Header) (us : List Unit256) (add : Bool) (c base : Nat) (e : FrameEnt) (i : Instr) (o ch : Nat) (x : Nat × Nat) (s :
      State), (i = Instr.fill h SectorCheck.clean ∧ o = 16 ∧ base = h.addr / 128 * 128 ∨ i = Instr.writeback h us ∧ o = 17 ∧
      base = h.addr / 128 * 128 ∨ i = Instr.mcRd32 h SectorCheck.clean ∧ o = 18 ∧ base = h.addr / 32 * 32 ∨ i = Instr.mcWr32 h
      add SectorCheck.clean ∧ o = 19 ∧ base = h.addr / 32 * 32) ∧ (c = h.ctx) ∧ (c < 64 ∨ c = 254 ∨ c = 255) ∧ (placeOf s h.addr
      = some (ch, x)) ∧ (channelOpen s ch c = true) ∧ (unreachable s base = false) ∧ (h.noResp = false) ∧ (e = frame s (frameOf
      base)) ∧ (¬(e.state = FrameState.owned ∧ e.ctx = c)) ∧ (¬(c = 255 ∧ e.state = FrameState.ashing)) ∧ (¬(c = 254 ∧ e.state =
      FrameState.owned ∧ e.ctx = 254))) := by
  exact
    ⟨({}), ([]), false, 0, 0, ({}), (.fill {} .clean), 16, 0, ((0, 0)), State.reset, by decide⟩

/-- What `SpecialOperandsAndScales` assumes holds somewhere. -/
theorem witness_SpecialOperandsAndScales :
    (∃ (a b : Num.Val) (x y : ℚ), (valueOf a = some x) ∧ (valueOf b = some y)) ∧
    (∃ (l : List Num.Val) (xs : List ℚ), (List.map valueOf l = List.map some xs)) ∧
    (∃ (m : Nat), (m ≠ 0)) ∧
    (∃ (l : List Num.Val), (Num.Val.nan ∈ l)) ∧
    (∃ (l : List Num.Val), (Num.Val.inf true ∈ l) ∧ (Num.Val.inf false ∈ l)) ∧
    (∃ (l : List Num.Val) (b : Bool), (Num.Val.nan ∉ l) ∧ (Num.Val.inf b ∈ l) ∧ ((Num.Val.inf !b) ∉ l)) ∧
    (∃ (v : Num.Val) (l : List Num.Val), (∀ w ∈ v :: l, Num.isZero w = true)) ∧
    (∃ (segs : List (Nat × Nat × List Num.Val × List Num.Val)), (∃ g ∈ segs, g.1 = 255 ∨ g.2.1 = 255)) := by
  refine ⟨?_, ?_, ?_, ?_, ?_, ?_, ?_, ?_⟩
  · exact ⟨(.fin false 3 0), (.fin true 1 (-1)), 3, (-1 / 2), by norm_num [valueOf, Num.Val.zero]⟩
  · exact ⟨([.fin false 3 0]), ([3]), by norm_num [valueOf, Num.Val.zero]⟩
  · exact ⟨1, by decide⟩
  · exact ⟨([.fin false 1 0, .nan]), by decide⟩
  · exact ⟨([.inf false, .inf true]), by decide⟩
  · exact ⟨([.fin false 1 0, .inf false]), false, by decide⟩
  · exact ⟨(.fin true 0 0), ([.fin false 0 0]), by decide⟩
  · exact ⟨([(0xFF, 0x7F, [], [])]), by decide⟩

/-- What `FrameOfMemory` assumes holds somewhere. -/
theorem witness_FrameOfMemory :
    (∃ (i : Instr) (s t : State), (storesNothing i = true) ∧ (exec i s = Host.Outcome.next t)) := by
  exact
    ⟨(.creditReturn 0), State.reset, State.reset, by exact ⟨by decide, rfl⟩⟩

/-- What `FrameOfIdentityAndCores` assumes holds somewhere. -/
theorem witness_FrameOfIdentityAndCores :
    (∃ (i : Instr) (s t : State), (mayTouchHeart i = false) ∧ (exec i s = Host.Outcome.next t)) ∧
    (∃ (i : Instr) (s t : State), (mayTouchCores i = false) ∧ (exec i s = Host.Outcome.next t)) := by
  refine ⟨?_, ?_⟩
  · exact ⟨(.creditReturn 0), State.reset, State.reset, by exact ⟨by decide, rfl⟩⟩
  · exact ⟨(.creditReturn 0), State.reset, State.reset, by exact ⟨by decide, rfl⟩⟩

/-- What `FrameOfTagsTimeHbmAndPeats` assumes holds somewhere. -/
theorem witness_FrameOfTagsTimeHbmAndPeats :
    (∃ (i : Instr) (s t : State), (mayTouchTags i = false) ∧ (exec i s = Host.Outcome.next t)) ∧
    (∃ (i : Instr) (s t : State), (mayTouchTime i = false) ∧ (exec i s = Host.Outcome.next t)) ∧
    (∃ (i : Instr) (s t : State), (mayTouchHbm i = false) ∧ (exec i s = Host.Outcome.next t)) ∧
    (∃ (i : Instr) (s t : State), (mayTouchPeats i = false) ∧ (exec i s = Host.Outcome.next t)) := by
  refine ⟨?_, ?_, ?_, ?_⟩
  · exact ⟨(.creditReturn 0), State.reset, State.reset, by exact ⟨by decide, rfl⟩⟩
  · exact ⟨(.creditReturn 0), State.reset, State.reset, by exact ⟨by decide, rfl⟩⟩
  · exact ⟨(.creditReturn 0), State.reset, State.reset, by exact ⟨by decide, rfl⟩⟩
  · exact ⟨(.creditReturn 0), State.reset, State.reset, by exact ⟨by decide, rfl⟩⟩
end

section
/-! Register accesses of the common page header (R11, R66 to R78): what interrupts and access errors change of the register
fields, what a whole-word write or read of a header register comes to, and the settled statement about them. -/

namespace Sys2Proof.Machine

/-! Frames of registers and bytes -/

/-- Operations that leave memory, the hub cache and the agents alone leave every byte. -/
theorem sameBytes_of_parts {s t : State} (hmem : t.mem = s.mem) (hcache : t.cache = s.cache) (hcoh : t.coh = s.coh) :
    sameBytes s t := byteAt_congr hmem hcache hcoh

/-- The changes of two steps lie in the places of both. -/
theorem sameFields.append {l m : List (Nat × Field)} {s t u : State} (hst : sameFields l s t) (htu : sameFields m t u) :
    sameFields (l ++ m) s u := fun p f h =>
  (htu p f fun x hx => h x (List.mem_append_right _ hx)).trans (hst p f fun x hx => h x (List.mem_append_left _ hx))

/-- What a frame says of the registers does not depend on the other parts of the states. -/
theorem sameFields.congr_regs {l : List (Nat × Field)} {s s' t t' : State} (h : sameFields l s t) (hs : s'.regs = s.regs)
    (ht : t'.regs = t.regs) : sameFields l s' t' := fun p f hpf => by
  rw [fld_congr ht, fld_congr hs, h p f hpf]

theorem sameFields_setFld (p : Nat) (f : Field) (v : Nat) (s : State) : sameFields [(p, f)] s (setFld p f v s) :=
  fun _ _ h => fld_setFld_ne v s (h (p, f) List.mem_cons_self)

/-! Interrupts: a watched change is the change, and may queue one message (R74) -/

theorem watchIrq_eq (p : Nat) (g : State → State) (s : State) :
    watchIrq p g s = { g s with errs := (watchIrq p g s).errs } := by
  unfold watchIrq
  dsimp only
  split <;> rfl

@[simp] theorem watchIrq_regs (p : Nat) (g : State → State) (s : State) : (watchIrq p g s).regs = (g s).regs := by
  rw [watchIrq_eq]
@[simp] theorem watchIrq_mem (p : Nat) (g : State → State) (s : State) : (watchIrq p g s).mem = (g s).mem := by
  rw [watchIrq_eq]
@[simp] theorem watchIrq_cache (p : Nat) (g : State → State) (s : State) : (watchIrq p g s).cache = (g s).cache := by
  rw [watchIrq_eq]
@[simp] theorem watchIrq_coh (p : Nat) (g : State → State) (s : State) : (watchIrq p g s).coh = (g s).coh := by
  rw [watchIrq_eq]
@[simp] theorem watchIrq_out (p : Nat) (g : State → State) (s : State) : (watchIrq p g s).out = (g s).out := by
  rw [watchIrq_eq]

theorem sameFields_raiseIrq (p mask : Nat) (s : State) : sameFields (irqPlaces p) s (raiseIrq p mask s) := fun q g h =>
  fld_raiseIrq_ne s (h (p, Reg.IRQ_STATUS_BLOCK) (by simp [irqPlaces])) (h (p, Reg.IRQ_STATUS_OP_DONE) (by simp [irqPlaces]))
    (h (p, Reg.IRQ_STATUS_ERR) (by simp [irqPlaces]))

theorem bit_or_two_pow_self (n i : Nat) : bit (n ||| 2 ^ i) i = 1 := by
  have h : (n ||| 2 ^ i).testBit i = true := by simp
  simpa [bit, Nat.testBit, Nat.and_comm, Nat.and_one_is_mod] using h

/-- `IRQ_STATUS.ERR` is set with its mask (R73). -/
theorem fld_raiseIrq_err (p : Nat) (s : State) : fld (raiseIrq p (2 ^ 63) s) p Reg.IRQ_STATUS_ERR = 1 := by
  rw [fld_congr (raiseIrq_regs p _ s)]
  simp only [setIrqWord, setFlds_cons, setFlds_nil, fld_setFld_same, bit_or_two_pow_self]
  rfl

/-! Access errors (R75) -/

theorem sameFields_accessErr (p : Nat) (f : Field) (s : State) :
    sameFields ((p, f) :: irqPlaces p) s (accessErr p f s) :=
  (sameFields_setFld p f 1 s).append (sameFields_raiseIrq p _ _)

theorem fld_accessErr_err (p : Nat) (f : Field) (s : State) : fld (accessErr p f s) p Reg.IRQ_STATUS_ERR = 1 :=
  fld_raiseIrq_err p _

theorem fld_accessErr_badAccess (p : Nat) (s : State) :
    fld (accessErr p Reg.ERR_SUMMARY_BAD_ACCESS s) p Reg.ERR_SUMMARY_BAD_ACCESS = 1 := by
  unfold accessErr
  rw [fld_raiseIrq_ne _ (fieldKey_ne (by decide)) (fieldKey_ne (by decide)) (fieldKey_ne (by decide)), fld_setFld_same]
  rfl

/-! Answers: a message more, and nothing else -/

@[simp] theorem answerAccess_out (fn p off : Nat) (write : Bool) (data : Nat) (s : State) :
    (answerAccess fn p off write data s).out = (if write then .regDone fn p off else .regData fn p off data) :: s.out := rfl

theorem sameBytes_answerAccess (fn p off : Nat) (write : Bool) (data : Nat) {s t : State} (h : sameBytes s t) :
    sameBytes s (answerAccess fn p off write data t) := h

/-! Pages of BAR0 (R65) -/

theorem assigned_iff (p : Nat) : assigned p = true ↔ p < 0x400 ∧ ∃ k, pageKind p = some k := by
  simp [assigned, Option.isSome_iff_exists]

/-- A kind of page that BAR0 holds (R65), not one of the four of a context page (R71). -/
def bar0Kind : Option PageKind → Bool
  | some .tenant | some .window | some .info | some .scoped => false
  | _ => true

/-- The pages of a context page lie above BAR0's: below 0x400 every branch of the page map is a kind of BAR0's or none. -/
theorem bar0Kind_pageKind {p : Nat} (hp : p < 0x400) : bar0Kind (pageKind p) = true := by
  simp only [pageKind, apply_ite bar0Kind, hp, if_true]
  simp only [bar0Kind, ite_self]

theorem bar0Kind_of_eq {p : Nat} {k : PageKind} (hp : p < 0x400) (hk : pageKind p = some k) : bar0Kind (some k) = true :=
  hk ▸ bar0Kind_pageKind hp

/-! Writes of the common header -/

/-- An 8-byte write carries every bit of the register (R68). -/
theorem RegW.got_of_eight (fn p off data : Nat) {f : Field} (hf : f.lo + f.width ≤ 64) :
    (RegW.of fn p off 8 data).got f = true := by
  simpa [RegW.got, RegW.of] using hf

theorem RegW.word_of_eight (fn p off : Nat) {data : Nat} (hd : data < 2 ^ 64) : (RegW.of fn p off 8 data).word = data := by
  simpa [RegW.of] using hd

/-- A field that is the whole register takes the data of an 8-byte write. -/
theorem RegW.val_of_eight (fn p off : Nat) {data : Nat} {f : Field} (hd : data < 2 ^ 64) (hlo : f.lo = 0)
    (hw : f.width = 64) : (RegW.of fn p off 8 data).val f = data := by
  rw [RegW.val, RegW.valOr, if_pos (RegW.got_of_eight _ _ _ _ (by omega)), RegW.word_of_eight _ _ _ hd, hlo, hw]
  simpa [bits] using hd

/-- No field of a register is broken by an 8-byte write (R68): one below 0x100 is the common header's alone. -/
theorem regWrite_header (fn p data : Nat) {off : Nat} (k : PageKind) (s : State) (hp : p < 0x400) (ho : off < 0x100) :
    regWrite (RegW.of fn p off 8 data) k s = commonWrite (RegW.of fn p off 8 data) k s := by
  have hpage : ¬ 0x400 ≤ (RegW.of fn p off 8 data).page := by simp [RegW.of, hp]
  have hspan : spanned (RegW.of fn p off 8 data) k = false := by simp [spanned, RegW.of]
  have hoff : (RegW.of fn p off 8 data).off < 0x100 := by simp only [RegW.of]; omega
  simp [regWrite, hpage, hspan, hoff]

/-- `PAGE_SCRATCH` is the one field of its register. -/
theorem pageFields_scratch {p : Nat} (k : PageKind) (hp : p < 0x400) :
    (pageFields p k 0x78).filter (fun f => f.off == 0x78) = [Reg.PAGE_SCRATCH] := by
  rw [pageFields, if_pos ⟨hp, by decide⟩]
  rfl

theorem commonWrite_scratch {w : RegW} (k : PageKind) (s : State) (h : w.off = 0x78) :
    commonWrite w k s = plainWrite w k s := by simp only [commonWrite, h]

/-- A write of `IRQ_ENABLE` may make the page's condition true (R74). -/
theorem commonWrite_irqEnable {w : RegW} (k : PageKind) (s : State) (h : w.off = 0x28) (hgot : w.got Reg.IRQ_ENABLE = true) :
    commonWrite w k s = watchIrq w.page (setFld w.page Reg.IRQ_ENABLE w.word) s := by
  simp only [commonWrite, h, hgot, if_true]

theorem writeEffect_scratch (fn : Nat) {p data : Nat} (s : State) (hp : assigned p = true) (hd : data < 2 ^ 64) :
    writeEffect fn p 0x78 8 data s = setFld p Reg.PAGE_SCRATCH data (dropShadow fn p s) := by
  obtain ⟨hlt, k, hk⟩ := (assigned_iff p).mp hp
  have hval := RegW.val_of_eight fn p 0x78 (f := Reg.PAGE_SCRATCH) hd rfl rfl
  have hgot := RegW.got_of_eight fn p 0x78 data (f := Reg.PAGE_SCRATCH) (by decide)
  calc writeEffect fn p 0x78 8 data s
      = plainWrite (RegW.of fn p 0x78 8 data) k (dropShadow fn p s) := by
        simp only [writeEffect, hk]
        rw [regWrite_header fn p data k _ hlt (by decide), commonWrite_scratch k _ rfl]
    _ = plainField (RegW.of fn p 0x78 8 data) Reg.PAGE_SCRATCH (dropShadow fn p s) :=
        congrArg (List.foldl _ (dropShadow fn p s)) (pageFields_scratch k hlt)
    _ = setFld p Reg.PAGE_SCRATCH data (dropShadow fn p s) := by
        rw [plainField, hgot, hval]
        rfl

theorem writeEffect_irqEnable (fn : Nat) {p data : Nat} (s : State) (hp : assigned p = true) (hd : data < 2 ^ 64) :
    writeEffect fn p 0x28 8 data s = watchIrq p (setFld p Reg.IRQ_ENABLE data) (dropShadow fn p s) := by
  obtain ⟨hlt, k, hk⟩ := (assigned_iff p).mp hp
  have hgot := RegW.got_of_eight fn p 0x28 data (f := Reg.IRQ_ENABLE) (by decide)
  simp only [writeEffect, hk]
  rw [regWrite_header fn p data k _ hlt (by decide), commonWrite_irqEnable k _ rfl hgot, RegW.word_of_eight fn p 0x28 hd]
  rfl

/-- A write that R67 accepts below the guest's own registers takes effect and is not answered by the command itself. -/
theorem execRegisterWrite_assigned {fn p off width : Nat} (data : Nat) (s : State) (hpath : hasPath fn p = true)
    (hp : assigned p = true) (hw : writeOk off width = true) (ho : off < 0x8000) :
    execRegisterWrite fn p off width data s = .next (writeEffect fn p off width data s) := by
  obtain ⟨-, k, hk⟩ := (assigned_iff p).mp hp
  simp [execRegisterWrite, hpath, hw, hk, Nat.not_le.mpr ho]

theorem execRegWr_assigned {fn p off width : Nat} (data : Nat) (s : State) (hpath : hasPath fn p = true)
    (hp : assigned p = true) (hw : writeOk off width = true) (ho : off < 0x8000) :
    execRegWr fn p off width data s = .next (answerAccess fn p off true 0 (writeEffect fn p off width data s)) := by
  simp [execRegWr, hpath, hp, hw, Nat.not_le.mpr ho]

/-! Reads of the common header -/

theorem fieldView_header {p : Nat} {k : PageKind} {f : Field} (s : State) (hp : p < 0x400) (hk : pageKind p = some k)
    (hf : f.off < 0x100) : fieldView s p k f = commonView s p k f % 2 ^ f.width := by
  have hbar := bar0Kind_of_eq hp hk
  unfold fieldView
  dsimp only
  split
  case h_5 => rw [if_pos hf]
  all_goals exact absurd hbar (by decide)

/-- A register of the common header is its fields: the windows of bytes and vectors lie above 0x1000. -/
theorem readWord_header (s : State) (fn p : Nat) {off : Nat} (k : PageKind) (ho : off < 0x1000) :
    readWord s fn p k off = ((pageFields p k off).filter (fun f => f.off == off)).foldl (fun w f =>
      if fn = 0 ∧ sealMask s p k f then w else w + fieldView s p k f * 2 ^ f.lo) 0 := by
  unfold readWord
  dsimp only
  split
  · have hnone : msixView s 0 323 0x8000 0xA000 off = none := by
      rw [msixView, if_neg (by omega), if_neg (by omega)]
    rw [hnone]
  · rw [if_neg (by omega)]
  · rw [if_neg (by omega)]
  · rw [if_neg (by omega)]
  · rfl

/-- R72 masks no scratch register. -/
theorem sealMask_scratch (s : State) (p : Nat) (k : PageKind) : sealMask s p k Reg.PAGE_SCRATCH = false := by
  have hfield : maskedField k Reg.PAGE_SCRATCH = false := by cases k <;> decide
  have hclass : (Reg.PAGE_SCRATCH == Reg.ERR_FIRST_SRC_CLASS) = false := by decide
  have hoff : Reg.PAGE_SCRATCH.off = 0x78 := rfl
  simp [sealMask, hfield, hclass, hoff]

theorem commonView_scratch (s : State) (p : Nat) (k : PageKind) :
    commonView s p k Reg.PAGE_SCRATCH = fld s p Reg.PAGE_SCRATCH := by
  unfold commonView
  rw [if_neg (by decide), if_neg (by decide), if_neg (by decide), if_neg (by decide)]

theorem regView_scratch {p : Nat} (s : State) (fn : Nat) (hp : assigned p = true)
    (hv : fld s p Reg.PAGE_SCRATCH < 2 ^ 64) : regView s fn p 0x78 = fld s p Reg.PAGE_SCRATCH := by
  obtain ⟨hlt, k, hk⟩ := (assigned_iff p).mp hp
  have hview : fieldView s p k Reg.PAGE_SCRATCH = fld s p Reg.PAGE_SCRATCH := by
    rw [fieldView_header s hlt hk (by decide), commonView_scratch]
    exact Nat.mod_eq_of_lt hv
  have hlo : Reg.PAGE_SCRATCH.lo = 0 := rfl
  simp only [regView, hk]
  rw [readWord_header s fn p k (by decide), pageFields_scratch k hlt]
  simp [Nat.not_le.mpr hlt, sealMask_scratch, hview, hlo]

theorem readMeasures_scratch (p : Nat) : readMeasures p 0x78 8 = false := by
  have h (off : Nat) (ho : off = 0x78 ∨ off = 0x80) : measures p off = false := by
    unfold measures
    rcases ho with rfl | rfl <;> split <;> rfl
  have hrange : List.range (8 / 8 + 1) = [0, 1] := rfl
  simp [readMeasures, hrange, h]

/-- An 8-byte read of `PAGE_SCRATCH` is answered with the word it holds, and discards the `PROGRESS` shadow. -/
theorem execRegRd_scratch {fn p : Nat} (s : State) (hpath : hasPath fn p = true) (hp : assigned p = true)
    (hv : fld s p Reg.PAGE_SCRATCH < 2 ^ 64) :
    execRegRd fn p 0x78 8 s = .next (answerAccess fn p 0x78 false (fld s p Reg.PAGE_SCRATCH) (dropShadow fn p s)) := by
  have hok : readOk 0x78 8 = true := by decide
  have hdata : readData s fn p 0x78 8 = fld s p Reg.PAGE_SCRATCH := by
    simp [readData, readWords, regView_scratch s fn hp hv]
  simp [execRegRd, hpath, hp, hok, hdata, readMeasures_scratch]

theorem execBadAccess_assigned (fn : Nat) {p : Nat} (off : Nat) (write : Bool) (s : State) (hp : assigned p = true) :
    execBadAccess fn p off write s =
      .next (answerAccess fn p off write 0 (accessErr p Reg.ERR_SUMMARY_BAD_ACCESS (dropShadow fn p s))) := by
  simp [execBadAccess, hp]

/-- A 32-bit read of `PROGRESS` shows its lower half and takes the shadow (R78). -/
theorem execProgressShadowRead_assigned (fn : Nat) {p : Nat} (s : State) (hp : assigned p = true) :
    execProgressShadowRead fn p s = .next (answerAccess fn p 0x060 false (progressWord s p % 2 ^ 32)
      { s with shadows := Tab.put 0 s.shadows (shadowKey p fn) (progressWord s p + 1) }) := by
  simp [execProgressShadowRead, hp]

/-- The read of the upper half that follows shows the shadow's and discards it (R78). -/
theorem execProgressUpperRead_after (fn : Nat) {p w : Nat} (s : State) (hp : assigned p = true)
    (hw : Tab.get 0 s.shadows (shadowKey p fn) = w + 1) :
    execProgressUpperRead fn p s = .next (answerAccess fn p 0x064 false (w / 2 ^ 32) (dropShadow fn p s)) := by
  simp [execProgressUpperRead, hp, hw]

/-! The statement -/

/-- What the write of `PAGE_SCRATCH` leaves: the word, and every other field, every byte and the messages as they were. -/
theorem writeEffect_scratch_frame (fn : Nat) {p data : Nat} (s : State) (hp : assigned p = true) (hd : data < 2 ^ 64) :
    fld (writeEffect fn p 0x78 8 data s) p Reg.PAGE_SCRATCH = data ∧
      sameFields [(p, Reg.PAGE_SCRATCH)] s (writeEffect fn p 0x78 8 data s) ∧
      sameBytes s (writeEffect fn p 0x78 8 data s) ∧ (writeEffect fn p 0x78 8 data s).out = s.out := by
  rw [writeEffect_scratch fn s hp hd]
  exact ⟨(fld_setFld_same p _ data _).trans (Nat.mod_eq_of_lt hd),
    (sameFields_setFld p Reg.PAGE_SCRATCH data (dropShadow fn p s)).congr_regs rfl rfl,
    sameBytes_of_parts rfl rfl rfl, rfl⟩

theorem writeEffect_irqEnable_frame (fn : Nat) {p data : Nat} (s : State) (hp : assigned p = true) (hd : data < 2 ^ 64) :
    fld (writeEffect fn p 0x28 8 data s) p Reg.IRQ_ENABLE = data ∧
      sameFields [(p, Reg.IRQ_ENABLE)] s (writeEffect fn p 0x28 8 data s) ∧
      sameBytes s (writeEffect fn p 0x28 8 data s) ∧ (writeEffect fn p 0x28 8 data s).out = s.out := by
  rw [writeEffect_irqEnable fn s hp hd]
  refine ⟨?_, ?_, ?_, ?_⟩
  · rw [fld_congr (watchIrq_regs ..), fld_setFld_same]
    exact Nat.mod_eq_of_lt hd
  · exact (sameFields_setFld p Reg.IRQ_ENABLE data (dropShadow fn p s)).congr_regs rfl (watchIrq_regs ..)
  · exact sameBytes_of_parts (watchIrq_mem ..) (watchIrq_cache ..) (watchIrq_coh ..)
  · exact watchIrq_out ..

/-- Settles O9, clause by clause: a whole-word write of a header register is one field written, its read the field; a
request that is not accepted is an access error on its page; a shadow of `PROGRESS` is its word plus 1. -/
theorem registerWriteThenRead : Obligations.RegisterWriteThenRead := by
  unfold Obligations.RegisterWriteThenRead
  refine ⟨?scratch, ?enable, ?answered, ?read, ?bad, ?shadow, ?upper⟩
  case scratch =>
    intro fn p data s hpath hp hd
    exact ⟨_, execRegisterWrite_assigned data s hpath hp (by decide) (by decide), writeEffect_scratch_frame fn s hp hd⟩
  case enable =>
    intro fn p data s hpath hp hd
    exact ⟨_, execRegisterWrite_assigned data s hpath hp (by decide) (by decide), writeEffect_irqEnable_frame fn s hp hd⟩
  case answered =>
    intro fn p data s hpath hp hd
    obtain ⟨hval, hfields, hbytes, hout⟩ := writeEffect_scratch_frame fn s hp hd
    exact ⟨_, execRegWr_assigned data s hpath hp (by decide) (by decide), hval, hfields, hbytes, congrArg _ hout⟩
  case read =>
    intro fn p s hpath hp hv
    exact ⟨_, execRegRd_scratch s hpath hp hv, sameBytes_of_parts rfl rfl rfl, rfl, rfl⟩
  case bad =>
    intro fn p off write s hp
    have hfields := sameFields_accessErr p Reg.ERR_SUMMARY_BAD_ACCESS (dropShadow fn p s)
    have hbytes : sameBytes s (accessErr p Reg.ERR_SUMMARY_BAD_ACCESS (dropShadow fn p s)) :=
      sameBytes_of_parts (by simp) (by simp) (by simp)
    exact ⟨_, execBadAccess_assigned fn off write s hp, sameBytes_answerAccess fn p off write 0 hbytes, by simp,
      fld_accessErr_badAccess p _, fld_accessErr_err p _ _, hfields.congr_regs rfl rfl⟩
  case shadow =>
    intro fn p s hp
    exact ⟨_, execProgressShadowRead_assigned fn s hp, sameBytes_of_parts rfl rfl rfl, rfl, rfl,
      Tab.get_put_same 0 s.shadows (shadowKey p fn) (progressWord s p + 1)⟩
  case upper =>
    intro fn p w s hp hw
    exact ⟨_, execProgressUpperRead_after fn s hp hw, sameBytes_of_parts rfl rfl rfl, rfl, rfl,
      Tab.get_del_same 0 s.shadows (shadowKey p fn)⟩

end Sys2Proof.Machine
end

section
/-! What containment leaves of a site and of a context: the registers that show a fence and an ending context, past the operations
of the hub cache, the controllers, the coherence homes and the agents (R203 to R248, R299 to R316, R374). -/

namespace Sys2Proof.Machine

/-! Operations that leave every register alone -/

@[simp] theorem putLine_regs (l : Line) (s : State) : (putLine l s).regs = s.regs := rfl
@[simp] theorem dropLine_regs (pa : Nat) (s : State) : (dropLine pa s).regs = s.regs := rfl
@[simp] theorem clearBreaches_regs (mask : Nat) (s : State) : (clearBreaches mask s).regs = s.regs := rfl
@[simp] theorem ackAll_regs (h : Nat) (s : State) : (ackAll h s).regs = s.regs := rfl
@[simp] theorem failExecutor_regs (x : Nat) (counts : Bool) (s : State) : (failExecutor x counts s).regs = s.regs := rfl
@[simp] theorem failPasses_regs (n : Nat) (ids : List Nat) (s : State) : (failPasses n ids s).regs = s.regs := rfl
@[simp] theorem markBad_regs (pa : Nat) (s : State) : (markBad pa s).regs = s.regs := rfl
@[simp] theorem bindEvent_regs (k ev kind index count gen : Nat) (tail : List Byte) (s : State) :
    (bindEvent k ev kind index count gen tail s).regs = s.regs := rfl

@[simp] theorem markKeep_regs (l : Line) (s : State) : (markKeep l s).regs = s.regs := by
  simp only [markKeep]
  (repeat' split) <;> rfl

@[simp] theorem touchLine_regs (l : Line) (hint : Nat) (s : State) : (touchLine l hint s).regs = s.regs := by
  simp only [touchLine]
  (repeat' split) <;> simp

@[simp] theorem addLine_regs (l : Line) (hint : Nat) (s : State) : (addLine l hint s).regs = s.regs := by
  simp only [addLine]
  (repeat' split) <;> simp

@[simp] theorem grantTo_regs (h : Header) (st : Nat) (l : Line) (withData : Bool) (s : State) :
    (grantTo h st l withData s).regs = s.regs := by
  simp only [grantTo, emit_regs, unaccept_regs]
  split <;> simp

@[simp] theorem winPut_regs (k : Nat) (w : WinMsg) (s : State) : (winPut k w s).regs = s.regs := by
  simp only [winPut]
  split <;> simp

@[simp] theorem winSend_regs (k type : Nat) (body : List Byte) (s : State) : (winSend k type body s).regs = s.regs := by
  simp only [winSend]
  split <;> simp

/-! Marks: what a containment leaves of sites and contexts -/

/-- A fold of steps that each keep a reading of the state keeps it. -/
theorem foldl_keeps {α β : Type} (φ : State → β) {g : State → α → State} (hg : ∀ s a, φ (g s a) = φ s) (l : List α) (s : State) :
    φ (l.foldl g s) = φ s := by
  induction l generalizing s with
  | nil => rfl
  | cons a l ih => rw [List.foldl_cons, ih, hg]

/-- What containment does not undo: a site's link state, its fence's cause and its fenced flag; how far a context has come. -/
inductive Mark where
  | link (n : Nat) | cause (n : Nat) | fenced (n : Nat) | ctx (k : Nat)

def Mark.page : Mark → Nat
  | .link n | .cause n | .fenced n => pageSite n
  | .ctx k => pageCtx k

def Mark.field : Mark → Field
  | .link _ => Reg.SITE_STATE_LINK
  | .cause _ => Reg.SITE_STATE_FENCE_CAUSE
  | .fenced _ => Reg.PAGE_STATUS_FENCED
  | .ctx _ => Reg.CTX_STATUS_STATE

/-- A context's state as far as a fault cannot change it: 0 `EMPTY`, 2 `ENDING`, 1 any other. -/
def ctxPhase (v : Nat) : Nat := if v = 0 then 0 else if v = 6 then 2 else 1

/-- A mark as registers show it. -/
def Mark.read (m : Mark) (r : Tab Nat) : Nat :=
  let v := Tab.get (resetOf m.page m.field) r (fieldKey m.page m.field)
  match m with
  | .ctx _ => ctxPhase v
  | _ => v

/-- The field lies at no mark's place, on whatever page. -/
def offMarks (g : Field) : Bool :=
  decide (g.lo < 64) && [Reg.SITE_STATE_LINK, Reg.SITE_STATE_FENCE_CAUSE, Reg.PAGE_STATUS_FENCED, Reg.CTX_STATUS_STATE].all
    (fun f => g.lo != f.lo || (decide (g.off < 0x10000) && g.off != f.off))

theorem Mark.field_mem (m : Mark) :
    m.field ∈ [Reg.SITE_STATE_LINK, Reg.SITE_STATE_FENCE_CAUSE, Reg.PAGE_STATUS_FENCED, Reg.CTX_STATUS_STATE] := by
  cases m <;> simp [Mark.field]

theorem Mark.field_place (m : Mark) : m.field.off < 0x10000 ∧ m.field.lo < 64 := by
  have h : ∀ f ∈ [Reg.SITE_STATE_LINK, Reg.SITE_STATE_FENCE_CAUSE, Reg.PAGE_STATUS_FENCED, Reg.CTX_STATUS_STATE],
      f.off < 0x10000 ∧ f.lo < 64 := by decide
  exact h _ m.field_mem

theorem Mark.key_ne (m : Mark) (p : Nat) {g : Field} (hg : offMarks g = true) : fieldKey m.page m.field ≠ fieldKey p g := by
  obtain ⟨hoff, hlo⟩ := m.field_place
  simp only [offMarks, Bool.and_eq_true, List.all_eq_true, Bool.or_eq_true, bne_iff_ne, decide_eq_true_eq] at hg
  have h := hg.2 _ m.field_mem
  simp only [fieldKey]
  omega

section
variable (m : Mark)

@[simp] theorem Mark.read_setFld (p : Nat) {g : Field} (hg : offMarks g = true) (v : Nat) (s : State) :
    m.read (setFld p g v s).regs = m.read s.regs := by
  have h := Tab.get_put_ne (resetOf p g) (resetOf m.page m.field) s.regs (v % 2 ^ g.width) (m.key_ne p hg)
  simp only [Mark.read, setFld, h]

@[simp] theorem Mark.read_bump (p : Nat) {g : Field} (hg : offMarks g = true) (n : Nat) (s : State) :
    m.read (bump p g n s).regs = m.read s.regs := m.read_setFld p hg _ s

@[simp] theorem Mark.read_count (p : Nat) {g : Field} (hg : offMarks g = true) (n : Nat) (s : State) :
    m.read (count p g n s).regs = m.read s.regs := by
  unfold count
  split
  · rfl
  · exact m.read_bump p hg n s

@[simp] theorem Mark.read_raiseIrq (p mask : Nat) (s : State) : m.read (raiseIrq p mask s).regs = m.read s.regs := by
  rw [raiseIrq_regs]
  simp (disch := decide) [setIrqWord]

@[simp] theorem Mark.read_raiseSrc (p i : Nat) (s : State) : m.read (raiseSrc p i s).regs = m.read s.regs :=
  m.read_raiseIrq p _ s

@[simp] theorem Mark.read_capture (r : ErrRec) (s : State) : m.read (capture r s).regs = m.read s.regs := by
  simp only [capture]
  split <;> simp (disch := decide)

@[simp] theorem Mark.read_raiseErr (r : ErrRec) (s : State) : m.read (raiseErr r s).regs = m.read s.regs := by
  simp only [raiseErr]
  (repeat' split) <;> simp (disch := decide) [hubFault, latch]

@[simp] theorem Mark.read_unbindPage (p st : Nat) (s : State) : m.read (unbindPage p st s).regs = m.read s.regs := by
  simp (disch := decide) [unbindPage]

@[simp] theorem Mark.read_opEnd (p r : Nat) (s : State) : m.read (opEnd p r s).regs = m.read s.regs := by
  simp only [opEnd]
  split <;> simp (disch := decide)

@[simp] theorem Mark.read_clearArray (n st : Nat) (s : State) : m.read (clearArray n st s).regs = m.read s.regs := by
  simp (disch := decide) [clearArray]

@[simp] theorem Mark.read_discardFaults (k : Nat) (s : State) : m.read (discardFaults k s).regs = m.read s.regs := by
  simp (disch := decide) [discardFaults]

@[simp] theorem Mark.read_context0Fault (ids : List Nat) (s : State) : m.read (context0Fault ids s).regs = m.read s.regs := by
  simp [context0Fault]

@[simp] theorem Mark.read_discardMigrations (k : Nat) (s : State) : m.read (discardMigrations k s).regs = m.read s.regs := by
  simp only [discardMigrations]
  exact foldl_keeps (fun s => m.read s.regs) (fun s g => by simp (disch := decide)) _ _

@[simp] theorem Mark.read_stopJournal (k : Nat) (s : State) : m.read (stopJournal k s).regs = m.read s.regs := by
  simp only [stopJournal]
  split <;> simp (disch := decide)

/-- A context at work that is moved to FAULTED stays in its phase. -/
theorem Mark.read_setCtxState_faulted {k : Nat} (s : State) (hk : 0 < ctxState s k ∧ ctxState s k < 5) :
    m.read (setCtxState k 5 s).regs = m.read s.regs := by
  by_cases h0 : k = 0
  · simp [setCtxState, h0]
  simp (disch := decide) only [setCtxState, h0, if_false, setFlds_cons, setFlds_nil, Mark.read_setFld]
  obtain ⟨hlo, hhi⟩ := hk
  cases m with
  | ctx j =>
    by_cases hj : j = k
    · subst hj
      have hs : ctxPhase (ctxState s j) = 1 := by unfold ctxPhase; split_ifs <;> omega
      have ht : ctxPhase (fld (setFld (pageCtx j) Reg.CTX_STATUS_STATE 5 s) (pageCtx j) Reg.CTX_STATUS_STATE) = 1 := by
        rw [fld_setFld_same]; rfl
      exact ht.trans hs.symm
    · have hp : pageCtx j ≠ pageCtx k := by simp only [pageCtx]; omega
      have h := fld_setFld_page (f := Reg.CTX_STATUS_STATE) (g := Reg.CTX_STATUS_STATE) 5 s hp (by decide) (by decide) (by decide)
        (by decide)
      exact congrArg ctxPhase h
  | _ =>
    exact fld_setFld_ne 5 s (by
      simp only [fieldKey, Mark.field, Reg.SITE_STATE_LINK, Reg.SITE_STATE_FENCE_CAUSE, Reg.PAGE_STATUS_FENCED, Reg.CTX_STATUS_STATE]
      omega)

@[simp] theorem Mark.read_faultCtx (k : Nat) (ids : List Nat) (seq sev cls : Nat) (s : State) :
    m.read (faultCtx k ids seq sev cls s).regs = m.read s.regs := by
  have hclear (l : List Nat) (s : State) : m.read (l.foldl (fun s n => clearArray n 1 s) s).regs = m.read s.regs :=
    foldl_keeps (fun s => m.read s.regs) (fun s n => m.read_clearArray n 1 s) l s
  unfold faultCtx
  split
  · simp
  split
  · rename_i hk
    dsimp only
    split <;> simp (disch := decide) [hclear, m.read_setCtxState_faulted s hk]
  · rfl

@[simp] theorem Mark.read_raiseAndFault (r : ErrRec) (ids : List Nat) (s : State) :
    m.read (raiseAndFault r ids s).regs = m.read s.regs := by
  simp [raiseAndFault]

@[simp] theorem Mark.read_ownerViolation (c pa : Nat) (p : Option Pass) (s : State) :
    m.read (ownerViolation c pa p s).regs = m.read s.regs := by
  simp only [ownerViolation]
  split <;> simp

@[simp] theorem Mark.read_uncorrectable (c pa : Nat) (p : Option Pass) (s : State) :
    m.read (uncorrectable c pa p s).regs = m.read s.regs := by
  simp only [uncorrectable, Mark.read_raiseAndFault]
  (repeat' split) <;> simp (disch := decide)

@[simp] theorem Mark.read_unreachableData (c pa : Nat) (p : Option Pass) (s : State) :
    m.read (unreachableData c pa p s).regs = m.read s.regs := by
  simp [unreachableData]

/-! Memory controllers and the hub cache -/

@[simp] theorem Mark.read_mcRead (c base mask w : Nat) (s : State) : m.read (mcRead c base mask w s).1.regs = m.read s.regs := by
  simp only [mcRead]
  (repeat' split) <;> simp

@[simp] theorem Mark.read_mcWriteSector (c pa : Nat) (data : List Byte) (en : List Bool) (s : State) :
    m.read (mcWriteSector c pa data en s).1.regs = m.read s.regs := by
  simp only [mcWriteSector]
  (repeat' split) <;> simp

@[simp] theorem Mark.read_mcWrite (c base : Nat) (data : List Byte) (mask w : Nat) (s : State) :
    m.read (mcWrite c base data mask w s).1.regs = m.read s.regs := by
  simp only [mcWrite, mcWriteMask]
  (repeat' split)
  · simp
  · simp
  · exact foldl_keeps (fun s => m.read s.regs) (fun s i => by simp) _ _

@[simp] theorem Mark.read_freeLine (l : Line) (s : State) : m.read (freeLine l s).regs = m.read s.regs := by
  simp only [freeLine]
  split <;> simp

@[simp] theorem Mark.read_writeInLine (c pa : Nat) (data : List Byte) (en : List Bool) (s : State) :
    m.read (writeInLine c pa data en s).1.regs = m.read s.regs := by
  have hstep (r : State × Bool) (g : State × Bool → Nat → State × Bool)
      (hg : ∀ r i, m.read (g r i).1.regs = m.read r.1.regs) (l : List Nat) : m.read (l.foldl g r).1.regs = m.read r.1.regs := by
    induction l generalizing r with
    | nil => rfl
    | cons a l ih => rw [List.foldl_cons, ih, hg]
  simp only [writeInLine]
  refine hstep (s, false) _ (fun r i => ?_) _
  (repeat' split) <;> simp

/-! Homes -/

@[simp] theorem Mark.read_setHomeLine (pa : Nat) (h : HomeLine) (s : State) : m.read (setHomeLine pa h s).regs = m.read s.regs := by
  simp only [setHomeLine]
  split <;> simp (disch := decide)

@[simp] theorem Mark.read_queueHome (pa : Nat) (r : HomeReq) (s : State) : m.read (queueHome pa r s).regs = m.read s.regs := by
  simp [queueHome]

@[simp] theorem Mark.read_beginHome (pa : Nat) (st : HomeState) (pending : Nat) (r : HomeReq) (s : State) :
    m.read (beginHome pa st pending r s).regs = m.read s.regs := by
  simp [beginHome]

@[simp] theorem Mark.read_snoopFor (l : Line) (agents : Nat) (inv : Bool) (r : HomeReq) (s : State) :
    m.read (snoopFor l agents inv r s).regs = m.read s.regs := by
  simp only [snoopFor, sendSnoops]
  exact (foldl_keeps (fun s => m.read s.regs) (fun s a => by simp (disch := decide)) _ _).trans (by simp)

@[simp] theorem Mark.read_askFill (h : Header) (pa mask : Nat) (r : HomeReq) (s : State) :
    m.read (askFill h pa mask r s).regs = m.read s.regs := by
  simp [askFill]

@[simp] theorem Mark.read_breach (a pa st : Nat) (h : Header) (s : State) : m.read (breach a pa st h s).regs = m.read s.regs := by
  simp (disch := decide) [breach]

@[simp] theorem Mark.read_awaitRoom (room : Room) (r : HomeReq) (s : State) : m.read (awaitRoom room r s).regs = m.read s.regs := by
  cases room <;> simp [awaitRoom]

/-- Where a way is found, freeing it keeps the marks. -/
theorem Mark.read_makeRoom {pa c w : Nat} {s t : State} (h : makeRoom pa c s = .way w t) : m.read t.regs = m.read s.regs := by
  unfold makeRoom at h
  dsimp only at h
  split at h
  · obtain ⟨-, rfl⟩ := Room.way.inj h
    rfl
  split at h
  · split at h
    · obtain ⟨-, rfl⟩ := Room.way.inj h
      exact m.read_freeLine _ s
    · cases h
  · split at h <;> cases h

@[simp] theorem Mark.read_grantOwner (a : Nat) (l : Line) (h : Header) (st : Nat) (withData : Bool) (s : State) :
    m.read (grantOwner a l h st withData s).regs = m.read s.regs := by
  simp [grantOwner]

@[simp] theorem Mark.read_fillThen (a pa : Nat) (h : Header) (r : HomeReq) (own : Bool) (s : State) :
    m.read (fillThen a pa h r own s).regs = m.read s.regs := by
  unfold fillThen
  split
  · split <;> simp
  · split
    · rename_i hroom
      simp [m.read_makeRoom hroom]
    · simp
    · simp

end

end Sys2Proof.Machine
end

section
/-! Marks past the homes' service of requests, and past the operations that end with a site's fence (R203 to R248, R374). -/

namespace Sys2Proof.Machine

section
variable (m : Mark)

/-- A step that answers a state and a status, taken apart: a proof that goes on from it has no call of the step left to evaluate. -/
theorem step_as_pair {β : Type} (φ : State → β) {step : Nat → Nat → Nat → Nat → State → State × Nat}
    (hstep : ∀ c b k w s, φ (step c b k w s).1 = φ s) :
    ∃ (next : Nat → Nat → Nat → Nat → State → State) (status : Nat → Nat → Nat → Nat → State → Nat),
      step = (fun c b k w s => (next c b k w s, status c b k w s)) ∧ ∀ c b k w s, φ (next c b k w s) = φ s :=
  ⟨fun c b k w s => (step c b k w s).1, fun c b k w s => (step c b k w s).2, rfl, hstep⟩

theorem Mark.read_of_mcRead {c base mask w st : Nat} {s t : State} (h : mcRead c base mask w s = (t, st)) :
    m.read t.regs = m.read s.regs := by
  simpa only [h] using m.read_mcRead c base mask w s

theorem Mark.read_of_writeInLine {c pa : Nat} {data : List Byte} {en : List Bool} {s t : State} {b : Bool}
    (h : writeInLine c pa data en s = (t, b)) : m.read t.regs = m.read s.regs := by
  simpa only [h] using m.read_writeInLine c pa data en s

@[simp] theorem Mark.read_serveAdd (h : Header) (s : State) : m.read (serveAdd h s).regs = m.read s.regs := by
  fun_cases serveAdd h s
  case case1 | case2 | case3 => simp
  case case4 hw => simp [m.read_of_writeInLine hw]
  case case5 hr _ | case6 hr _ | case7 hr _ | case8 hr _ => simp [m.read_of_mcRead hr]

@[simp] theorem Mark.read_serveCoherent (kind a : Nat) (h : Header) (s : State) : m.read (serveCoherent kind a h s).regs = m.read s.regs := by
  simp only [serveCoherent]
  (repeat' split) <;> simp

@[simp] theorem Mark.read_servePte (h : Header) (s : State) : m.read (servePte h s).regs = m.read s.regs := by
  obtain ⟨next, status, hpair, hnext⟩ := step_as_pair (fun s => m.read s.regs) m.read_mcRead
  unfold servePte
  rw [hpair]
  dsimp only at hnext ⊢
  (repeat' split) <;> simp [hnext]

@[simp] theorem answerRead_regs (h : Header) (data : List Byte) (s : State) : (answerRead h data s).regs = s.regs := by
  unfold answerRead
  split <;> simp

@[simp] theorem discardRead_regs (l : Line) (mask : Nat) (s : State) : (discardRead l mask s).regs = s.regs := by
  simp only [discardRead]
  split <;> simp

/-- One sector of a read keeps the marks where the rest of the read (`below`) does. -/
theorem Mark.read_serveRead_sector (h : Header) {i : Nat} {rest : List Nat}
    (below : List.below (motive := fun _ => Nat → List Byte → State → State) (i :: rest))
    (hrest : ∀ got data s, m.read (below.1 got data s).regs = m.read s.regs) (got : Nat) (data : List Byte) (s : State) :
    m.read (serveRead._f h (i :: rest) below got data s).regs = m.read s.regs := by
  obtain ⟨next, status, hpair, hnext⟩ := step_as_pair (fun s => m.read s.regs) m.read_mcRead
  delta serveRead._f
  rw [hpair]
  clear hpair
  dsimp only
  split
  · exact hrest got data s
  split
  · simp
  split
  · split
    · simp
    split
    · simp
    split
    · refine (hrest _ _ _).trans ?_
      (repeat' split) <;> simp
    split
    · split <;> simp [hnext]
    · simp
  · split
    · split <;> simp [hnext]
    split
    · simp
    split
    · rename_i hroom
      simp [m.read_makeRoom hroom]
    · simp
    · simp

@[simp] theorem Mark.read_serveRead (h : Header) (l : List Nat) (got : Nat) (data : List Byte) (s : State) :
    m.read (serveRead h l got data s).regs = m.read s.regs := by
  delta serveRead
  induction l generalizing got data s with
  | nil => exact congrArg m.read (answerRead_regs h data s)
  | cons i rest ih =>
    exact m.read_serveRead_sector h (List.brecOn.go rest (serveRead._f h)) ih got data s

@[simp] theorem Mark.read_serveWrite (h : Header) (n pa : Nat) (data : List Byte) (en : List Bool) (bad : Bool) (s : State) :
    m.read (serveWrite h n pa data en bad s).regs = m.read s.regs := by
  fun_induction serveWrite h n pa data en bad s
  case case1 | case2 | case3 | case4 | case5 | case7 | case8 | case12 => simp
  case case6 hw ih => exact (ih _ _).trans ((m.read_of_writeInLine hw).trans (by simp))
  case case9 hw ih => exact (ih _ _).trans (m.read_of_writeInLine hw)
  case case10 hroom _ _ hw ih =>
    exact (ih _ _).trans ((m.read_of_writeInLine hw).trans (by simp [m.read_makeRoom hroom]))
  case case11 hw ih => exact (ih _ _).trans (m.read_of_writeInLine hw)

@[simp] theorem Mark.read_withdrawLine (r : HomeReq) (l : Line) (s : State) : m.read (withdrawLine r l s).regs = m.read s.regs := by
  unfold withdrawLine
  (repeat' split) <;> simp

@[simp] theorem Mark.read_withdrawAt (r : HomeReq) (pa : Nat) (s : State) : m.read (withdrawAt r pa s).regs = m.read s.regs := by
  unfold withdrawAt
  split <;> simp

@[simp] theorem Mark.read_homeArrive (r : HomeReq) (s : State) : m.read (homeArrive r s).regs = m.read s.regs := by
  cases r <;> simp [homeArrive]

@[simp] theorem Mark.read_drainHome (q : List HomeReq) (s : State) : m.read (drainHome q s).regs = m.read s.regs :=
  foldl_keeps (fun s => m.read s.regs) (fun s r => m.read_homeArrive r s) q s

@[simp] theorem Mark.read_completeHome (pa : Nat) (s : State) : m.read (completeHome pa s).regs = m.read s.regs := by
  unfold completeHome
  dsimp only
  rw [m.read_drainHome]
  split
  · simp
  · (repeat' split) <;> simp (disch := decide)

@[simp] theorem Mark.read_snoopAnswer (a pa : Nat) (keepsS lost : Bool) (dirty : Nat) (data : List Byte) (s : State) :
    m.read (snoopAnswer a pa keepsS lost dirty data s).regs = m.read s.regs := by
  have hbad (pa : Nat) (s : State) : m.read ((List.range 4).foldl (fun s i => markBad (pa + 32 * i) s) s).regs = m.read s.regs :=
    foldl_keeps (fun s => m.read s.regs) (fun s i => by simp) _ s
  unfold snoopAnswer
  dsimp only
  split
  · split
    · simp
    · (repeat' split) <;> simp (disch := decide) [hbad]
  · simp (disch := decide)

@[simp] theorem Mark.read_loseSnoops (mask : Nat) (s : State) : m.read (loseSnoops mask s).regs = m.read s.regs :=
  foldl_keeps (fun s => m.read s.regs) (fun s pa => foldl_keeps (fun s => m.read s.regs) (fun s a => by simp) _ s) _ s

@[simp] theorem Mark.read_nodeDownAnswer (r : Nat) (plane : Plane) (h : Header) (s : State) :
    m.read (nodeDownAnswer r plane h s).regs = m.read s.regs := by
  simp only [nodeDownAnswer]
  split <;> simp (disch := decide)

@[simp] theorem Mark.read_recallAgents (mask : Nat) (s : State) : m.read (recallAgents mask s).regs = m.read s.regs :=
  foldl_keeps (fun s => m.read s.regs) (fun s l => by simp) _ s

@[simp] theorem Mark.read_siteNotice (k n : Nat) {f : Field} (hf : offMarks f = true) (s : State) :
    m.read (siteNotice k n f s).regs = m.read s.regs := by
  simp (disch := first | assumption | decide) [siteNotice]

@[simp] theorem Mark.read_siteOff (n : Nat) (s : State) : m.read (siteOff n s).regs = m.read s.regs := by
  simp (disch := decide) [siteOff]

end

end Sys2Proof.Machine
end

section
/-! Rules of the site pages: what a register or a site reads past the writes that leave it alone, operations of a page, lanes and
retrains (R76 to R79, R350, R365 to R371). -/

namespace Sys2Proof.Machine

/-! Registers and sites as they read past writes that leave them alone -/

section
variable (p : Nat) (f : Field) (s : State)

@[simp] theorem fld_emit (o : Out) : fld (emit o s) p f = fld s p f := rfl
@[simp] theorem fld_setSite (n : Nat) (x : SiteSt) : fld (setSite n x s) p f = fld s p f := rfl
@[simp] theorem fld_modSite (n : Nat) (g : SiteSt → SiteSt) : fld (modSite n g s) p f = fld s p f := rfl
@[simp] theorem fld_setPin (n : Nat) (high : Bool) : fld (setPin n high s) p f = fld s p f := rfl
@[simp] theorem fld_setDomain (d : Nat) (on : Bool) : fld (setDomain d on s) p f = fld s p f := rfl
@[simp] theorem fld_setPageOp (q : Nat) (o : Option PageOp) : fld (setPageOp q o s) p f = fld s p f := rfl
@[simp] theorem fld_drew : fld (drew s) p f = fld s p f := rfl
@[simp] theorem fld_sendMgmt (n type : Nat) (args : List Nat) (body : List Byte) :
    fld (sendMgmt n type args body s) p f = fld s p f := rfl

end

@[simp] theorem site_setSite_same (n : Nat) (x : SiteSt) (s : State) : site (setSite n x s) n = x := by simp [site, setSite]
@[simp] theorem site_modSite_same (n : Nat) (g : SiteSt → SiteSt) (s : State) : site (modSite n g s) n = g (site s n) := by
  simp [modSite]

theorem site_congr {s t : State} (h : t.sites = s.sites) (n : Nat) : site t n = site s n := by simp only [site, h]

section
variable (n p : Nat) (s : State)

@[simp] theorem site_setFld (f : Field) (v : Nat) : site (setFld p f v s) n = site s n := rfl
@[simp] theorem site_bump (f : Field) (v : Nat) : site (bump p f v s) n = site s n := rfl
@[simp] theorem site_emit (o : Out) : site (emit o s) n = site s n := rfl
@[simp] theorem site_setPin (i : Nat) (high : Bool) : site (setPin i high s) n = site s n := rfl
@[simp] theorem site_setDomain (d : Nat) (on : Bool) : site (setDomain d on s) n = site s n := rfl
@[simp] theorem site_setPageOp (o : Option PageOp) : site (setPageOp p o s) n = site s n := rfl
@[simp] theorem site_drew : site (drew s) n = site s n := rfl
@[simp] theorem site_count (f : Field) (v : Nat) : site (count p f v s) n = site s n := site_congr (count_sites ..) n
@[simp] theorem site_raiseIrq (mask : Nat) : site (raiseIrq p mask s) n = site s n := site_congr (raiseIrq_sites ..) n
@[simp] theorem site_raiseSrc (i : Nat) : site (raiseSrc p i s) n = site s n := site_congr (raiseSrc_sites ..) n
@[simp] theorem site_raiseErr (r : ErrRec) : site (raiseErr r s) n = site s n := site_congr (raiseErr_sites ..) n
@[simp] theorem site_opRun (op arg : Nat) : site (opRun p op arg s) n = site s n := site_congr (opRun_sites ..) n
@[simp] theorem site_opEnd (r : Nat) : site (opEnd p r s) n = site s n := site_congr (opEnd_sites ..) n
@[simp] theorem site_unbindPage (st : Nat) : site (unbindPage p st s) n = site s n := site_congr (by simp [unbindPage]) n

end

theorem nowNs_congr {s t : State} (h : t.time = s.time) : nowNs t = nowNs s := by simp only [nowNs, h]

theorem pageOp_congr {s t : State} (h : t.ops = s.ops) (p : Nat) : pageOp t p = pageOp s p := by simp only [pageOp, h]

theorem siteLink_congr {s t : State} {n : Nat} (h : (Mark.link n).read t.regs = (Mark.link n).read s.regs) :
    siteLink t n = siteLink s n := h

/-- A field that takes a value in its range reads as that value. -/
theorem fld_setFld_fits (p : Nat) {f : Field} {v : Nat} (s : State) (hv : v < 2 ^ f.width) : fld (setFld p f v s) p f = v := by
  rw [fld_setFld_same, Nat.mod_eq_of_lt hv]

theorem bindState_unbindPage {st : Nat} (p : Nat) (s : State) (h : st < 8) : bindState (unbindPage p st s) p = st := by
  have h : st < 2 ^ Reg.BINDING_STATE.width := h
  simp (disch := decide) [unbindPage, bindState, fld_setFld_field, Nat.mod_eq_of_lt h]

theorem siteOff_site (n : Nat) (s : State) : site (siteOff n s) n = { therm := (site s n).therm } := by
  simp [siteOff, site, setSite]

@[simp] theorem showLanes_sites (n : Nat) (modes : List Nat) (s : State) : (showLanes n modes s).sites = s.sites := by
  simp [showLanes, List.range_succ]

@[simp] theorem site_showLanes (n m : Nat) (modes : List Nat) (s : State) : site (showLanes n modes s) m = site s m :=
  site_congr (showLanes_sites n modes s) m

@[simp] theorem showLanes_time (n : Nat) (modes : List Nat) (s : State) : (showLanes n modes s).time = s.time := by
  simp [showLanes, List.range_succ]

@[simp] theorem Mark.read_showLanes (m : Mark) (n : Nat) (modes : List Nat) (s : State) :
    m.read (showLanes n modes s).regs = m.read s.regs := by
  simp (disch := decide) [showLanes, List.range_succ]

/-- A retrain that is not the fourth within one second is counted, and the site goes on (R350, R365). -/
theorem retrainSite_of_few {n : Nat} (detail : Nat) {s : State}
    (h : ((site s n).retrains.filter (fun t => decide (nowNs s < t + 1000000000))).length < 3) :
    retrainSite n detail s = raiseSrc (pageSite n) 0 (count (pageSite n) Reg.KPP_COUNTS_RETRAINS 1
      (modSite n (fun x => { x with
        retrains := nowNs s :: (site s n).retrains.filter (fun t => decide (nowNs s < t + 1000000000)), replays := 0 }) s)) := by
  have hnow : decide (nowNs s < nowNs s + 1000000000) = true := by simp
  simp only [retrainSite, List.filter_cons, hnow, if_true, List.length_cons]
  rw [if_neg (by omega)]

end Sys2Proof.Machine
end

section
/-! Operations, lanes, rail and power of a site (R28, R361 to R372): what each comes to, and the settled statement about them. -/

namespace Sys2Proof.Machine

theorem fld_opRun_own {p q op arg : Nat} {f : Field} (s : State) (hf : 0x100 ≤ f.off) (hf' : f.off < 0x10000) (hl : f.lo < 64) :
    fld (opRun q op arg s) p f = fld s p f := by
  have hne {g : Field} (hg : g.off < 0x100) (hgl : g.lo < 64) : fieldKey p f ≠ fieldKey q g := fieldKey_ne_head hg hf hf' hl hgl
  simp (disch := decide) only [opRun, setProgress, setFlds_cons, setFlds_nil, fld_setFld_ne _ _ (hne _ _), fld_setPageOp]

theorem fld_opEnd_own {p q result : Nat} {f : Field} (s : State) (hf : 0x100 ≤ f.off) (hf' : f.off < 0x10000) (hl : f.lo < 64) :
    fld (opEnd q result s) p f = fld s p f := by
  have hne {g : Field} (hg : g.off < 0x100) (hgl : g.lo < 64) : fieldKey p f ≠ fieldKey q g := fieldKey_ne_head hg hf hf' hl hgl
  rw [opEnd, fld_raiseIrq_own _ hf hf' hl]
  split <;> simp (disch := decide) only [setFlds_cons, setFlds_nil, fld_setFld_ne _ _ (hne _ _), fld_setPageOp]

theorem bindState_setFld {p : Nat} {f : Field} (v : Nat) (s : State)
    (h : Reg.BINDING_STATE.off * 64 + Reg.BINDING_STATE.lo ≠ f.off * 64 + f.lo) :
    bindState (setFld p f v s) p = bindState s p := fld_setFld_field v s h

@[simp] theorem bindState_opRun (p op arg : Nat) (s : State) : bindState (opRun p op arg s) p = bindState s p := by
  simp (disch := decide) [bindState, opRun, setProgress, fld_setFld_field]

@[simp] theorem bindState_opEnd (p result : Nat) (s : State) : bindState (opEnd p result s) p = bindState s p := by
  rw [opEnd, bindState, fld_raiseIrq_ne _ (fieldKey_ne (by decide)) (fieldKey_ne (by decide)) (fieldKey_ne (by decide))]
  split <;> simp (disch := decide) [bindState, fld_setFld_field]

theorem opRun_result (p op arg : Nat) (s : State) : fld (opRun p op arg s) p Reg.OP_CONTROL_RESULT = 2 := by
  simp (disch := decide) [opRun, setProgress, fld_setFld_field, fld_setFld_fits, -fld_setFld_same]

theorem opRun_pageOp (p op arg : Nat) (s : State) : pageOp (opRun p op arg s) p = some ⟨op, arg, false⟩ := by
  simp [opRun, setProgress, pageOp, setPageOp]

/-! Starting a site (R370, R371) -/

theorem startSite_reads (n : Nat) (s : State) : siteLink (startSite n s) n = 1 ∧ (site (startSite n s) n).ramping = true ∧
    fld (startSite n s) (pageSite n) Reg.OP_CONTROL_RESULT = fld s (pageSite n) Reg.OP_CONTROL_RESULT ∧
    fld (startSite n s) (pageSite n) Reg.SITE_OP_REASON = 0 := by
  unfold startSite
  refine ⟨?_, ?_, ?_, ?_⟩
  · simp (disch := decide) [siteLink, setSiteLink, fld_setFld_field, fld_setFld_fits, -fld_setFld_same]
  · simp
  · simp (disch := decide) [siteOff, setSiteLink, fld_setFld_field, -fld_setFld_same]
  · simp (disch := decide) [siteOff, setSiteLink, fld_setFld_field, fld_setFld_fits, -fld_setFld_same]

/-- The site as a failed start leaves it, before the operation that started it ends. -/
def startGivenUp (n reason : Nat) (s : State) : State :=
  setFld (pageSite n) Reg.SITE_OP_REASON reason (setSiteLink n 0 (unbindPage (pageSite n) 5 (siteOff n s)))

theorem startGivenUp_reads {n reason : Nat} (s : State) (hr : reason < 16) : siteLink (startGivenUp n reason s) n = 0 ∧
    bindState (startGivenUp n reason s) (pageSite n) = 5 ∧ fld (startGivenUp n reason s) (pageSite n) Reg.SITE_OP_REASON = reason := by
  have hr : reason < 2 ^ Reg.SITE_OP_REASON.width := hr
  simp (disch := decide) [startGivenUp, siteLink, bindState, unbindPage, setSiteLink, fld_setFld_field, fld_setFld_fits _ _ hr,
    fld_setFld_fits, -fld_setFld_same]

theorem startFailed_eq (n reason : Nat) (s : State) : startFailed n reason s =
    match pageOp s (pageSite n) with
    | some o => if o.op = 0x10 ∧ !o.queued then opEnd (pageSite n) 4 (startGivenUp n reason s) else startGivenUp n reason s
    | none => startGivenUp n reason s := by
  have h : pageOp (startGivenUp n reason s) (pageSite n) = pageOp s (pageSite n) :=
    pageOp_congr (by simp [startGivenUp, setSiteLink, unbindPage, siteOff]) _
  rw [← h]
  rfl

theorem startFailed_reads {n reason : Nat} (s : State) (hr : reason < 16) : siteLink (startFailed n reason s) n = 0 ∧
    bindState (startFailed n reason s) (pageSite n) = 5 ∧ fld (startFailed n reason s) (pageSite n) Reg.SITE_OP_REASON = reason := by
  have h := startGivenUp_reads (n := n) s hr
  have hend : siteLink (opEnd (pageSite n) 4 (startGivenUp n reason s)) n = 0 ∧
      bindState (opEnd (pageSite n) 4 (startGivenUp n reason s)) (pageSite n) = 5 ∧
      fld (opEnd (pageSite n) 4 (startGivenUp n reason s)) (pageSite n) Reg.SITE_OP_REASON = reason := by
    rwa [siteLink_congr (Mark.read_opEnd _ _ _ _), bindState_opEnd, fld_opEnd_own _ (by decide) (by decide) (by decide)]
  rw [startFailed_eq]
  split
  · split <;> assumption
  · exact h

theorem siteReturn_starts {n : Nat} {s : State} (hn : n < 8) (hop : pageOp s (pageSite n) = none)
    (hbind : bindState s (pageSite n) = 0 ∨ bindState s (pageSite n) = 5)
    (hotp : fld s (pageSite n) Reg.SITE_STATE_OTP_STATE = 1) (hrep : fld s (pageSite n) Reg.SITE_STATE_REPAIR_VALID = 1) :
    exec (.siteReturn n true) s =
      .next (startSite n (opRun (pageSite n) 0x10 0 (setFld (pageSite n) Reg.SITE_STATE_PRESENT 1 s))) := by
  refine congrArg Host.Outcome.next ?_
  rw [if_neg (by omega), if_neg (by simp [hop]), if_neg, if_neg]
  · rfl
  · simp (disch := decide) [startable, flag, fld_opRun_own, fld_setFld_field, hotp, hrep, b2n]
  · rw [bindState_opRun, bindState_setFld _ _ (by decide)]
    omega

theorem siteReturn_absent {n : Nat} {s : State} (hn : n < 8) (hop : pageOp s (pageSite n) = none)
    (hbind : bindState s (pageSite n) = 0 ∨ bindState s (pageSite n) = 5) :
    exec (.siteReturn n false) s =
      .next (startFailed n 1 (opRun (pageSite n) 0x10 0 (setFld (pageSite n) Reg.SITE_STATE_PRESENT 0 s))) := by
  refine congrArg Host.Outcome.next ?_
  rw [if_neg (by omega), if_neg (by simp [hop]), if_neg, if_pos]
  · rfl
  · simp (disch := decide) [startable, flag, fld_opRun_own, b2n]
  · rw [bindState_opRun, bindState_setFld _ _ (by decide)]
    omega

/-- A start that operation 0x10 began ends it as failed (R79, R370). -/
theorem startFailed_result {n reason : Nat} {s : State} {o : PageOp} (hop : pageOp s (pageSite n) = some o) (ho : o.op = 0x10)
    (hq : o.queued = false) : fld (startFailed n reason s) (pageSite n) Reg.OP_CONTROL_RESULT = 4 := by
  rw [startFailed_eq, hop]
  simp only [ho, hq]
  exact opEnd_result _ _ _ (by decide)

theorem startFate_starts {s : State} {p : Nat} {force : Bool} (h : startFate s p true force = .starts) :
    pageOp s p = none ∧ bindState s p = 0 := by
  unfold startFate at h
  split at h
  · cases h
  · rename_i hop
    refine ⟨hop, ?_⟩
    by_contra hb
    simp only [hb, Bool.not_true, Bool.false_eq_true, if_false] at h
    split at h <;> cases h

theorem siteOp_of_starts {n op : Nat} {force : Bool} (start : State → State) {s : State}
    (h : startFate s (pageSite n) true force = .starts) : siteOp n op force start s = start (opRun (pageSite n) op 0 s) := by
  simp only [siteOp, h]

theorem siteOp_of_active {n op : Nat} {force : Bool} (start : State → State) {o : PageOp} {s : State}
    (h : pageOp s (pageSite n) = some o) : siteOp n op force start s = opRefused (pageSite n) s := by
  simp only [siteOp, startFate, h]

theorem attestStart_reads (n : Nat) (why : AttestWhy) (step : Nat) (s : State) : (site (attestStart n why step s) n).why = why ∧
    (site (attestStart n why step s) n).step = step ∧ (attestStart n why step s).regs = s.regs := by
  unfold attestStart attestSend
  dsimp only
  split <;> simp [sendMgmt]

theorem siteAttest_starts {n : Nat} {force : Bool} {s : State} (hn : n < 8) (h : startFate s (pageSite n) true force = .starts) :
    exec (.siteAttest n force) s = .next (attestStart n .op 1 (opRun (pageSite n) 0x11 0 s)) :=
  congrArg Host.Outcome.next ((if_neg (by omega)).trans (siteOp_of_starts _ h))

/-! The lane check (R365) -/

theorem laneCheck_starts {n : Nat} {force : Bool} {modes spares : List Nat} {rechosen : Nat} {s : State} (hn : n < 8)
    (hop : pageOp s (pageSite n) = none) (h : startFate s (pageSite n) true force = .starts) :
    exec (.siteLaneCheck n force modes spares rechosen) s = .next (unbindPage (pageSite n) 4 (opRun (pageSite n) 7 0 s)) := by
  refine congrArg Host.Outcome.next ((if_neg (by omega)).trans ?_)
  rw [hop]
  exact siteOp_of_starts _ h

theorem laneCheck_running {n : Nat} {force : Bool} {modes spares : List Nat} {rechosen : Nat} {o : PageOp} {s : State} (hn : n < 8)
    (hop : pageOp s (pageSite n) = some o) (ho : o.op = 7) (hq : o.queued = false) :
    exec (.siteLaneCheck n force modes spares rechosen) s = .next (laneFindings n modes spares rechosen s) := by
  refine congrArg Host.Outcome.next ((if_neg (by omega)).trans ?_)
  rw [hop]
  exact if_pos ⟨ho, by simp [hq]⟩

theorem laneFindings_reads {n : Nat} {modes : List Nat} (spares : List Nat) (rechosen : Nat) {s : State}
    (h : (List.zip (laneModes s n) modes).any (fun e => modeHalves e.1 &&& modeHalves e.2 != modeHalves e.1) = false) :
    bindState (laneFindings n modes spares rechosen s) (pageSite n) = 0 ∧
      fld (laneFindings n modes spares rechosen s) (pageSite n) Reg.OP_CONTROL_RESULT = 3 ∧
      (site (laneFindings n modes spares rechosen s) n).spares = spares.map (min 4) := by
  simp only [laneFindings, h, Bool.false_eq_true, if_false]
  refine ⟨?_, opEnd_result _ _ _ (by decide), ?_⟩
  · rw [bindState_opEnd, bindState_unbindPage _ _ (by decide)]
  · rw [site_opEnd, site_unbindPage, foldl_keeps (fun s => site s n) (fun s m => by split <;> rfl), site_showLanes, site_modSite_same]

/-! Rail, reset, alerts and power (R28, R371, R372) -/

theorem siteRailGood_ramped {n mv : Nat} {s : State} (hn : n < 8) (hlink : siteLink s n = 1) (hramp : (site s n).ramping = true) :
    ∃ t, exec (.siteRailGood n mv) s = .next t ∧ (site t n).ramping = false ∧
      fld t (pageSite n) Reg.SITE_RAIL_STATUS_RAIL_GOOD = 1 ∧ t.out = .pin (pinRailGood n) true :: s.out := by
  refine ⟨_, congrArg Host.Outcome.next (if_neg (by simp [hlink, hramp]; omega)), ?_, ?_, ?_⟩
  · simp
  · simp (disch := decide) [fld_setFld_field, fld_setFld_fits, -fld_setFld_same]
  · simp [setPin, emit]

theorem siteResetRelease_good {n : Nat} {s : State} (hn : n < 8) (hlink : siteLink s n = 1)
    (hgood : fld s (pageSite n) Reg.SITE_RAIL_STATUS_RAIL_GOOD = 1) :
    ∃ t, exec (.siteResetRelease n) s = .next t ∧ (site t n).released = true ∧ t.regs = s.regs ∧
      t.out = .pin (pinSiteReset n) true :: s.out := by
  refine ⟨_, congrArg Host.Outcome.next (if_neg (by simp [hlink, flag, hgood]; omega)), ?_, ?_, ?_⟩
  · simp
  · simp
  · simp [setPin, emit]

theorem gsTherm_counted {n : Nat} (s : State) (hn : n < 8) :
    ∃ t, exec (.gsTherm n) s = .next t ∧ (site t n).therm = (site s n).therm + 1 ∧ sameFields (irqPlaces (pageSite n)) s t :=
  ⟨_, congrArg Host.Outcome.next (if_neg (by omega)), by simp,
    (sameFields_raiseIrq (pageSite n) (2 ^ 3) (modSite n (fun x => { x with therm := x.therm + 1 }) s)).congr_regs rfl rfl⟩

theorem siteIdle_asked {n : Nat} {s : State} (hn : n < 8) (hlink : siteLink s n = 5) (hbind : bindState s (pageSite n) = 0)
    (hms : flag s (pageSite n) Reg.SITE_CFG_IDLE_MS = true) (hl1 : (site s n).l1 = false) (hwait : (site s n).pwrWait = none) :
    ∃ t, exec (.siteIdle n) s = .next t ∧ (site t n).pwrWait = some 1 ∧ t.regs = s.regs ∧ t.out = .kpp n 0x10 [1] [] :: s.out := by
  refine ⟨_, congrArg Host.Outcome.next (if_neg (by simp [hlink, hbind, hms, hl1, hwait]; omega)), ?_, ?_, ?_⟩
  · simp [sendPwr, sendMgmt]
  · simp [sendPwr, sendMgmt]
  · simp [sendPwr, sendMgmt, emit]

/-! Lanes in service (R367) -/

theorem offMarks_rechosen {m : Nat} (hm : m < 4) : offMarks (Reg.LANE_STATUS_RECHOSEN.up (8 * m)) = true := by
  interval_cases m <;> decide

theorem laneFailure_takesSpare {n m dir lane : Nat} {s : State} (hup : linkUp s n = true) (hm : m < 4) (hdir : dir < 2)
    (hlane : lane < 64) (hlive : tst (fld s (pageSite n) Reg.SITE_STATE_LIVE_HALVES) (2 * m + lane / 32) = true)
    (hspare : (site s n).spares.getD (2 * m + dir) 0 < 4)
    (hfew : ((site s n).retrains.filter (fun t => decide (nowNs s < t + 1000000000))).length < 3) :
    ∃ t, exec (.laneFailure n m dir lane) s = .next t ∧ siteLink t n = siteLink s n ∧
      (site t n).spares.getD (2 * m + dir) 0 = (site s n).spares.getD (2 * m + dir) 0 + 1 ∧
      fld t (pageSite n) (Reg.LANE_STATUS_RECHOSEN.up (8 * m)) = 1 := by
  have hlo : (Reg.LANE_STATUS_RECHOSEN.up (8 * m)).lo < 64 := by simp only [Field.up, Reg.LANE_STATUS_RECHOSEN]; omega
  have hgo : ¬ ((!linkUp s n) = true ∨ 4 ≤ m ∨ 2 ≤ dir ∨ 64 ≤ lane ∨
      (!tst (fld s (pageSite n) Reg.SITE_STATE_LIVE_HALVES) (2 * m + lane / 32)) = true) := by
    simp only [hup, hlive]; simp; omega
  refine ⟨_, congrArg Host.Outcome.next ((if_neg hgo).trans (if_pos hspare)), ?_⟩
  rw [retrainSite_of_few _ (by rw [nowNs_congr (s := s) (by simp)]; simpa using hfew)]
  refine ⟨siteLink_congr ?_, ?_, ?_⟩
  · simp (disch := decide) [Mark.read_setFld _ _ (offMarks_rechosen hm)]
  · have hi : 2 * m + dir < 8 := by omega
    simp [List.getD_eq_getElem?_getD, hi, b2n]
  · rw [raiseSrc, fld_raiseIrq_own _ (by simp [Field.up, Reg.LANE_STATUS_RECHOSEN]) (by simp [Field.up, Reg.LANE_STATUS_RECHOSEN]) hlo,
      fld_count_ne _ (fieldKey_ne ?_), fld_modSite, fld_setFld_fits]
    · show 1 < 2 ^ 1
      decide
    · simp only [Field.up, Reg.LANE_STATUS_RECHOSEN, Reg.KPP_COUNTS_RETRAINS]; omega


theorem laneFailure_dead {n m lane : Nat} (dir : Nat) {s : State}
    (h : tst (fld s (pageSite n) Reg.SITE_STATE_LIVE_HALVES) (2 * m + lane / 32) = false) :
    exec (.laneFailure n m dir lane) s = .next s :=
  congrArg Host.Outcome.next (if_pos (by simp [h]))

theorem siteReturn_active {n : Nat} (present : Bool) {o : PageOp} {s : State} (hn : n < 8) (hop : pageOp s (pageSite n) = some o) :
    exec (.siteReturn n present) s = .next (opRefused (pageSite n) s) :=
  congrArg Host.Outcome.next ((if_neg (by omega)).trans (if_pos (by simp [hop])))

theorem siteAttest_active {n : Nat} (force : Bool) {o : PageOp} {s : State} (hn : n < 8) (hop : pageOp s (pageSite n) = some o) :
    exec (.siteAttest n force) s = .next (opRefused (pageSite n) s) :=
  congrArg Host.Outcome.next ((if_neg (by omega)).trans (siteOp_of_active _ hop))

/-- Settles O36: each command comes to the operation its lemma names, which reads as the rules of the site pages say. -/
theorem siteOperations : Obligations.SiteOperations := by
  unfold Obligations.SiteOperations
  refine ⟨fun n m dir lane s hup hm hdir hlane hlive hspare hfew => laneFailure_takesSpare hup hm hdir hlane hlive hspare hfew,
    fun n m dir lane s h => laneFailure_dead dir h, ?_, ?_, ?_, ?_, ?_,
    fun n force o s hn hop => ⟨siteReturn_active true hn hop, siteAttest_active force hn hop⟩,
    fun n mv s hn hlink hramp => siteRailGood_ramped hn hlink hramp,
    fun n s hn hlink hgood => siteResetRelease_good hn hlink hgood,
    fun n s hn => gsTherm_counted s hn,
    fun n s hn hlink hbind hms hl1 hwait => siteIdle_asked hn hlink hbind hms hl1 hwait⟩
  · intro n s hn hop hbind hotp hrep
    obtain ⟨hlink, hramp, hresult, hreason⟩ :=
      startSite_reads n (opRun (pageSite n) 0x10 0 (setFld (pageSite n) Reg.SITE_STATE_PRESENT 1 s))
    exact ⟨_, siteReturn_starts hn hop hbind hotp hrep, hlink, hramp, hresult.trans (opRun_result _ _ _ _), hreason⟩
  · intro n s hn hop hbind
    obtain ⟨hlink, hstate, hreason⟩ := startFailed_reads (n := n) (reason := 1)
      (opRun (pageSite n) 0x10 0 (setFld (pageSite n) Reg.SITE_STATE_PRESENT 0 s)) (by decide)
    exact ⟨_, siteReturn_absent hn hop hbind, hlink, hstate, startFailed_result (opRun_pageOp _ _ _ _) rfl rfl, hreason⟩
  · intro n force s hn hfate
    obtain ⟨hwhy, hstep, hregs⟩ := attestStart_reads n .op 1 (opRun (pageSite n) 0x11 0 s)
    exact ⟨_, siteAttest_starts hn hfate, hwhy, hstep, (fld_congr hregs _ _).trans (opRun_result _ _ _ _)⟩
  · intro n force modes spares rechosen s hn hop hfate
    refine ⟨_, laneCheck_starts hn hop hfate, bindState_unbindPage _ _ (by decide), ?_⟩
    simp (disch := decide) only [unbindPage, setFlds_cons, setFlds_nil, fld_setFld_field, opRun_result]
  · intro n force modes spares rechosen o s hn hop ho hq hkept
    exact ⟨_, laneCheck_running hn hop ho hq, laneFindings_reads spares rechosen hkept⟩

end Sys2Proof.Machine
end

section
/-! Resets (R32, R315, R467, R475, R480): what a reset of the hub, a loss of its supplies and a switch-off leave. -/

namespace Sys2Proof.Machine

/-! Bits -/

theorem tst_eq_testBit (n i : Nat) : tst n i = n.testBit i := by
  rw [tst, Nat.testBit_eq_decide_div_mod_eq, Nat.shiftRight_eq_div_pow]

theorem tst_mod_two_pow (n : Nat) {i w : Nat} (h : i < w) : tst (n % 2 ^ w) i = tst n i := by
  simp [tst_eq_testBit, Nat.testBit_mod_two_pow, h]

theorem tst_setBit (n i : Nat) : tst (setBit n i) i = true := by
  simp [tst_eq_testBit, setBit, Nat.one_shiftLeft]

theorem tst_clrBit (n i : Nat) : tst (clrBit n i) i = false := by
  unfold clrBit
  split
  · rename_i h
    have hodd : n / 2 ^ i % 2 = 1 := by simpa [tst, Nat.shiftRight_eq_div_pow] using h
    have hle : 2 ^ i * 1 ≤ n := by
      by_contra hlt
      rw [Nat.div_eq_of_lt (by omega)] at hodd
      omega
    have hdiv : (n - 2 ^ i) / 2 ^ i = n / 2 ^ i - 1 := by simpa using Nat.sub_mul_div n (2 ^ i) 1
    have heven : (n / 2 ^ i - 1) % 2 ≠ 1 := by omega
    simpa [tst, Nat.shiftRight_eq_div_pow, Nat.one_shiftLeft, hdiv] using heven
  · rename_i h
    simpa using h

section
variable (p : Nat) (g : Field) (f : Power → Power) (s : State)

@[simp] theorem modPower_regs : (modPower f s).regs = s.regs := rfl
@[simp] theorem fld_modPower : fld (modPower f s) p g = fld s p g := rfl
@[simp] theorem modPower_power : (modPower f s).power = f s.power := rfl

end

/-! A reset (R315, R475, R480) -/

/-- What does not depend on the pins is kept while they return to rest. -/
theorem restPins_keeps {β : Type} {φ : State → β}
    (hφ : ∀ s o p, φ { s with out := o, power := { s.power with pins := p } } = φ s) (s : State) : φ (restPins s) = φ s :=
  foldl_keeps φ (fun s _ => hφ s _ _) _ s

/-- Showing OTP changes register fields only. -/
theorem showOtp_keeps {β : Type} {φ : State → β} (hφ : ∀ s r, φ { s with regs := r } = φ s) (s : State) : φ (showOtp s) = φ s := by
  have hset (p : Nat) (l : List (Field × Nat)) (s : State) : φ (setFlds p l s) = φ s :=
    foldl_keeps φ (fun s e => hφ s _) l s
  exact (foldl_keeps φ (fun s n => hφ s _) _ _).trans ((foldl_keeps φ (fun s n => hset _ _ s) _ _).trans (hset _ _ s))

theorem fld_showOtp_low {p : Nat} {f : Field} (s : State) (hp : p < 0xC) (ho : f.off < 0x10000) (hl : f.lo < 64) :
    fld (showOtp s) p f = fld s p f := by
  have hset (q : Nat) (l : List (Field × Nat)) (s : State) (hq : 0xC ≤ q)
      (h : l.all (fun e => decide (e.1.off < 0x10000) && decide (e.1.lo < 64)) = true) : fld (setFlds q l s) p f = fld s p f := by
    refine fld_setFlds_ne l s (fun x hx => ?_)
    have hx := List.all_eq_true.mp h x hx
    simp only [Bool.and_eq_true, decide_eq_true_eq] at hx
    exact fieldKey_ne_page (by omega) hx.1 ho hx.2 hl
  exact (foldl_keeps (fun s => fld s p f) (fun s n => hset (pageHbm n) [(_, _)] s (by simp only [pageHbm]; omega) rfl) _ _).trans
    ((foldl_keeps (fun s => fld s p f) (fun s n => hset (pageSite n) _ s (by simp only [pageSite]; omega) rfl) _ _).trans
      (hset lcPage _ s (by decide) rfl))

theorem lifeCycle_showOtp (s : State) : lifeCycle (showOtp s) = s.heart.otp.lifeCycle % 8 := by
  have hsite (n : Nat) (a b c : Nat) (s : State) : fld (setFlds (pageSite n) [(Reg.SITE_STATE_OTP_STATE, a),
      (Reg.SITE_STATE_REPAIR_VALID, b), (Reg.SITE_STATE_SLOT_USED, c)] s) lcPage Reg.LC_STATE_STATE =
      fld s lcPage Reg.LC_STATE_STATE := by
    have hp : lcPage ≠ pageSite n := by simp only [pageSite, lcPage]; omega
    simp (disch := decide) only [setFlds_cons, setFlds_nil, fld_setFld_page _ _ hp]
  refine (foldl_keeps (fun s => fld s lcPage Reg.LC_STATE_STATE) (fun s n => fld_setFld_page _ _ (by simp only [pageHbm, lcPage]; omega)
      (by decide) (by decide) (by decide) (by decide)) _ _).trans
    ((foldl_keeps (fun s => fld s lcPage Reg.LC_STATE_STATE) (fun s n => hsite n _ _ _ s) _ _).trans ?_)
  simp (disch := decide) only [setFlds_cons, setFlds_nil, fld_setFld_field, fld_setFld_same]
  rfl

/-- The always-on island past a reset. -/
def Power.afterReset (p : Power) : Power :=
  { perst := p.perst, vaux := p.vaux, tripped := p.tripped, tripSensors := p.tripSensors, hadTrip := p.hadTrip, hadRail := p.hadRail,
    toLog := p.toLog }

/-- What a reset leaves: OTP, host memory, what waits outside, the latches of the always-on island. -/
theorem clearHub_parts (keep : Bool) (s : State) :
    (clearHub keep s).heart = { otp := s.heart.otp } ∧ (clearHub keep s).passes = [] ∧ (clearHub keep s).mem = s.mem.wipe ∧
      (clearHub keep s).fresh = s.fresh ∧ (clearHub keep s).errs = { latched := s.errs.latched } ∧
      (clearHub keep s).power = s.power.afterReset := by
  have hall {β : Type} {φ : State → β} (hφ : ∀ s r, φ { s with regs := r } = φ s) : φ (clearHub keep s) = φ (clearHub false s) := by
    unfold clearHub
    dsimp only
    rw [showOtp_keeps hφ, showOtp_keeps hφ]
    cases keep
    · rfl
    · exact foldl_keeps φ (fun s e => (hφ _ _).trans (hφ s _)) _ _
  refine ⟨?_, ?_, ?_, ?_, ?_, ?_⟩
  · rw [hall (φ := State.heart) (fun _ _ => rfl), clearHub, showOtp_keeps (φ := State.heart) (fun _ _ => rfl)]
    exact congrArg (fun o => ({ otp := o } : Heart)) (restPins_keeps (φ := fun s => s.heart.otp) (fun _ _ _ => rfl) s)
  · rw [hall (φ := State.passes) (fun _ _ => rfl), clearHub, showOtp_keeps (φ := State.passes) (fun _ _ => rfl)]
    rfl
  · rw [hall (φ := State.mem) (fun _ _ => rfl), clearHub, showOtp_keeps (φ := State.mem) (fun _ _ => rfl)]
    exact congrArg Mem.wipe (restPins_keeps (φ := State.mem) (fun _ _ _ => rfl) s)
  · rw [hall (φ := State.fresh) (fun _ _ => rfl), clearHub, showOtp_keeps (φ := State.fresh) (fun _ _ => rfl)]
    exact restPins_keeps (φ := State.fresh) (fun _ _ _ => rfl) s
  · rw [hall (φ := State.errs) (fun _ _ => rfl), clearHub, showOtp_keeps (φ := State.errs) (fun _ _ => rfl)]
    exact congrArg (fun l => ({ latched := l } : Errs)) (restPins_keeps (φ := fun s => s.errs.latched) (fun _ _ _ => rfl) s)
  · rw [hall (φ := State.power) (fun _ _ => rfl), clearHub, showOtp_keeps (φ := State.power) (fun _ _ => rfl)]
    exact restPins_keeps (φ := fun s => s.power.afterReset) (fun _ _ _ => rfl) s

theorem resetDebug_keeps {β : Type} {φ : State → β} (hφ : ∀ s r, φ { s with regs := r } = φ s) (s : State) : φ (resetDebug s) = φ s :=
  foldl_keeps φ (fun s _ => hφ s _) _ s

/-- What a fundamental reset leaves (R475, R483). -/
theorem fundamentalReset_parts {cause : Nat} (s : State) (hc : cause < 8) :
    (fundamentalReset cause s).heart = { otp := s.heart.otp } ∧ (fundamentalReset cause s).passes = [] ∧
      (fundamentalReset cause s).fresh = s.fresh + 1 ∧
      (fundamentalReset cause s).power = { s.power.afterReset with hadRail := false, hadTrip := false } ∧
      fld (fundamentalReset cause s) resetPage Reg.RESET_CAUSE_LAST = cause := by
  have hc : cause < 2 ^ Reg.RESET_CAUSE_LAST.width := hc
  have hp : resetPage ≠ debugPage := by decide
  obtain ⟨hheart, hpasses, -, hfresh, -, hpower⟩ := clearHub_parts (decide (cause ≠ 1)) s
  unfold fundamentalReset
  refine ⟨?_, ?_, ?_, ?_, ?_⟩
  · rw [resetDebug_keeps (φ := State.heart) (fun _ _ => rfl)]
    simpa [modPower] using hheart
  · rw [resetDebug_keeps (φ := State.passes) (fun _ _ => rfl)]
    simpa [modPower] using hpasses
  · rw [resetDebug_keeps (φ := State.fresh) (fun _ _ => rfl)]
    simpa [modPower, drew] using hfresh
  · rw [resetDebug_keeps (φ := State.power) (fun _ _ => rfl)]
    show { (clearHub (decide (cause ≠ 1)) s).power with hadRail := false, hadTrip := false } = _
    rw [hpower]
  · simp (disch := decide) [resetDebug, fld_setFld_page _ _ hp]
    simp (disch := decide) only [fld_setFld_field, fld_setFld_fits _ _ hc]

/-! Supplies (R32, R467, R475) -/

theorem vauxLoss_parts (s : State) : (vauxLoss s).power.vaux = false ∧ (vauxLoss s).errs.latched = [] ∧
    (vauxLoss s).heart.otp = s.heart.otp ∧ (vauxLoss s).mem = s.mem.wipe := by
  obtain ⟨hheart, -, hmem, -, -, -⟩ := clearHub_parts false s
  exact ⟨rfl, rfl, by simp only [vauxLoss, modPower, hheart], hmem⟩

/-- A wipe leaves host memory alone. -/
theorem wipe_cells {m : Mem} {x : Host.Cell} (h : x ∈ m.wipe.cells) : isHost x.1 = true := by
  simpa [Mem.wipe] using (List.mem_filter.mp h).2

theorem phasesOff_parts (r : ErrRec) (s : State) : (phasesOff r s).power.off = true ∧
    (phasesOff r s).out.head? = some (.pin 2 false) ∧ (phasesOff r s).heart.otp = s.heart.otp ∧
    (phasesOff r s).power.tripped = s.power.tripped ∧ (phasesOff r s).power.tripSensors = s.power.tripSensors := by
  obtain ⟨hheart, -, -, -, -, hpower⟩ := clearHub_parts true s
  simp only [phasesOff, setPin, emit, modPower, latch, hheart, hpower, Power.afterReset, List.head?_cons, and_self]

end Sys2Proof.Machine
end

section
/-! Supplies, resets and bring-up (R32, R465 to R479): what each step of bring-up does, and the settled statement about them. -/

namespace Sys2Proof.Machine

/-! The first steps of bring-up (R476) -/

section
variable {b : BringUp} {s : State}

/-- Bring-up is under way: a step does its work. -/
theorem bringupStep_going (hvaux : s.power.vaux = true) (hoff : s.power.off = false) (htrip : s.power.tripped = false)
    (hhalt : s.power.halted = false) : (!s.power.vaux || s.power.off || s.power.tripped || s.power.halted) = false := by
  simp [hvaux, hoff, htrip, hhalt]

variable (hgo : (!s.power.vaux || s.power.off || s.power.tripped || s.power.halted) = false)
include hgo

theorem bringupStep_one (hstep : fld s resetPage Reg.RESET_BRINGUP_STEP = 1) :
    exec (.bringupStep b) s = .next (bringUp1 b (modPower (fun p => { p with ms := p.ms + b.ms }) s)) := by
  simp only [exec, execBringupStep, hgo, Bool.false_eq_true, if_false, fld_modPower, hstep]

theorem bringupStep_two (hstep : fld s resetPage Reg.RESET_BRINGUP_STEP = 2) :
    exec (.bringupStep b) s = .next (bringUp2 b (modPower (fun p => { p with ms := p.ms + b.ms }) s)) := by
  simp only [exec, execBringupStep, hgo, Bool.false_eq_true, if_false, fld_modPower, hstep]

theorem bringupStep_three (hstep : fld s resetPage Reg.RESET_BRINGUP_STEP = 3) :
    exec (.bringupStep b) s = .next (bringUp3 b (modPower (fun p => { p with ms := p.ms + b.ms }) s)) := by
  simp only [exec, execBringupStep, hgo, Bool.false_eq_true, if_false, fld_modPower, hstep]

theorem bringupStep_four (hstep : fld s resetPage Reg.RESET_BRINGUP_STEP = 4) :
    exec (.bringupStep b) s = .next (bringUp4 b (modPower (fun p => { p with ms := p.ms + b.ms }) s)) := by
  simp only [exec, execBringupStep, hgo, Bool.false_eq_true, if_false, fld_modPower, hstep]

theorem bringupStep_five (hstep : fld s resetPage Reg.RESET_BRINGUP_STEP = 5) :
    exec (.bringupStep b) s = .next (bringUp5 b (modPower (fun p => { p with ms := p.ms + b.ms }) s)) := by
  simp only [exec, execBringupStep, hgo, Bool.false_eq_true, if_false, fld_modPower, hstep]

end

theorem lifeCycle_resetDebug (s : State) : lifeCycle (resetDebug s) = lifeCycle s := by
  have hp : (0xC : Nat) ≠ debugPage := by decide
  simp (disch := decide) only [resetDebug, lifeCycle, setFlds_cons, setFlds_nil, fld_setFld_page _ _ hp]

@[simp] theorem fld_extendMeas (p i : Nat) (f : Field) (v : List Byte) (s : State) : fld (extendMeas i v s) p f = fld s p f := rfl
@[simp] theorem lifeCycle_extendMeas (i : Nat) (v : List Byte) (s : State) : lifeCycle (extendMeas i v s) = lifeCycle s := rfl
@[simp] theorem extendMeas_power (i : Nat) (v : List Byte) (s : State) : (extendMeas i v s).power = s.power := rfl
@[simp] theorem otp_extendMeas (i : Nat) (v : List Byte) (s : State) : (extendMeas i v s).heart.otp = s.heart.otp := rfl

theorem bringUp1_blank {b : BringUp} {s : State} (hrec : s.heart.otp.records.find? OtpRecord.isOpen = none)
    (hlc : s.heart.otp.lifeCycle = 0) :
    ∃ v w, bringUp1 b s = extendMeas 2 v (resetDebug (showOtp (extendMeas 0 w (setFld clockPage Reg.PLL_LOCK (2 ^ 42 + 2 ^ 43)
      (setFld resetPage Reg.RAIL_STATUS_VAUX 1 (setFld resetPage Reg.RAIL_STATUS_VPP (b2n b.vpp)
        (setFld lcPage Reg.OTP_STATUS_VPP (b2n b.vpp) s))))))) := by
  unfold bringUp1
  simp only [otp_extendMeas, setFld_heart, hrec]
  simp only [lifeCycle_resetDebug, lifeCycle_showOtp, otp_extendMeas, setFld_heart, hlc, Nat.zero_mod, if_true]
  exact ⟨_, _, rfl⟩


theorem fld_resetDebug_ne {p : Nat} {f : Field} (s : State) (hp : p ≠ debugPage) (ho : f.off < 0x10000) (hl : f.lo < 64) :
    fld (resetDebug s) p f = fld s p f := by
  have hne {g : Field} (hg : g.off < 0x10000) (hgl : g.lo < 64) : fieldKey p f ≠ fieldKey debugPage g := fieldKey_ne_page hp hg ho hgl hl
  simp (disch := decide) only [resetDebug, setFlds_cons, setFlds_nil, fld_setFld_ne _ _ (hne _ _)]

theorem bringUp1_blank_reads {b : BringUp} {s : State} (hrec : s.heart.otp.records.find? OtpRecord.isOpen = none)
    (hlc : s.heart.otp.lifeCycle = 0) :
    fld (bringUp1 b s) resetPage Reg.RESET_BRINGUP_STEP = fld s resetPage Reg.RESET_BRINGUP_STEP ∧
      fld (bringUp1 b s) clockPage Reg.PLL_LOCK = 2 ^ 42 + 2 ^ 43 ∧ fld (bringUp1 b s) resetPage Reg.RAIL_STATUS_VAUX = 1 ∧
      (bringUp1 b s).power = s.power := by
  obtain ⟨v, w, h⟩ := bringUp1_blank hrec hlc
  have hclock : resetPage ≠ clockPage := by decide
  have hlc : resetPage ≠ lcPage := by decide
  rw [h]
  refine ⟨?_, ?_, ?_, ?_⟩
  · simp (disch := decide) only [fld_extendMeas, fld_resetDebug_ne, fld_showOtp_low, fld_setFld_field, fld_setFld_page _ _ hclock,
      fld_setFld_page _ _ hlc]
  · have hlocks : 2 ^ 42 + 2 ^ 43 < 2 ^ Reg.PLL_LOCK.width := by norm_num [Reg.PLL_LOCK]
    rw [fld_extendMeas, fld_resetDebug_ne _ (by decide) (by decide) (by decide), fld_showOtp_low _ (by decide) (by decide) (by decide),
      fld_extendMeas, fld_setFld_fits _ _ hlocks]
  · simp (disch := decide) only [fld_extendMeas, fld_resetDebug_ne, fld_showOtp_low, fld_setFld_fits, fld_setFld_page _ _ hclock]
  · rw [extendMeas_power, resetDebug_keeps (φ := State.power) (fun _ _ => rfl), showOtp_keeps (φ := State.power) (fun _ _ => rfl)]
    simp only [extendMeas_power, setFld_power]

theorem bringUp2_low {b : BringUp} {s : State} (h : b.vinCoreMv < 1550) :
    fld (bringUp2 b s) resetPage Reg.RESET_BRINGUP_STEP = fld s resetPage Reg.RESET_BRINGUP_STEP ∧
      fld (bringUp2 b s) resetPage Reg.RAIL_STATUS_VIN_CORE = 0 ∧ (bringUp2 b s).heart = s.heart := by
  have hcore : decide (1550 ≤ b.vinCoreMv) = false := by simp; omega
  have hstop : bringUp2 b s = setFlds resetPage [(Reg.RAIL_MEAS_VIN_CORE_MV, b.vinCoreMv), (Reg.RAIL_MEAS_VIN_IO_MV, b.vinIoMv),
      (Reg.RAIL_STATUS_VIN_CORE, 0), (Reg.RAIL_STATUS_VIN_IO, b2n (decide (1140 ≤ b.vinIoMv)))] s := by
    unfold bringUp2
    simp only [hcore, Bool.false_and]
    exact if_pos (Or.inl rfl)
  rw [hstop]
  refine ⟨?_, ?_, ?_⟩
  · simp (disch := decide) only [setFlds_cons, setFlds_nil, fld_setFld_field]
  · simp (disch := decide) only [setFlds_cons, setFlds_nil, fld_setFld_field, fld_setFld_fits]
  · simp

/-! Tile domains (R468, R476) -/

theorem domainOn_setDomain_ne {d e : Nat} (on : Bool) (s : State) (h : e ≠ d) : domainOn (setDomain d on s) e = domainOn s e :=
  Tab.get_put_ne _ _ _ _ h

theorem domainOn_congr {s t : State} (h : t.power.domains = s.power.domains) (d : Nat) : domainOn t d = domainOn s d := by
  simp only [domainOn, h]

theorem tileOn_domainOn (n : Nat) (s : State) : domainOn (tileOn n s) n = true := by
  unfold tileOn
  split
  · assumption
  · dsimp only
    split <;> exact domainOn_setDomain_same n true s

theorem tileOn_keeps_domainOn {n d : Nat} {s : State} (h : domainOn s d = true) : domainOn (tileOn n s) d = true := by
  by_cases hd : d = n
  · rw [hd]; exact tileOn_domainOn n s
  · unfold tileOn
    split
    · exact h
    · dsimp only
      split <;> exact (domainOn_setDomain_ne true s hd).trans h

theorem tileOn_arrayInService (n m : Nat) (s : State) : arrayInService (tileOn n s) m = arrayInService s m := by
  have hp : (0 : Nat) ≠ pageTile n := by simp only [pageTile]; omega
  unfold tileOn
  split
  · rfl
  · dsimp only
    split
    · exact congrArg (fun v => tst v m) (fld_setFld_page _ _ hp (by decide) (by decide) (by decide) (by decide))
    · rfl

/-- Switches on the domain of a tile whose array is in service. -/
def tileOnInService (s : State) (n : Nat) : State := if arrayInService s n then tileOn n s else s

theorem tilesOn_domainOn (l : List Nat) {n : Nat} {s : State}
    (h : domainOn s n = true ∨ (n ∈ l ∧ arrayInService s n = true)) : domainOn (l.foldl tileOnInService s) n = true := by
  induction l generalizing s with
  | nil => simpa using h
  | cons m l ih =>
    refine ih ?_
    unfold tileOnInService
    rcases h with hon | ⟨hmem, hserv⟩
    · left
      split
      · exact tileOn_keeps_domainOn hon
      · exact hon
    · rcases List.mem_cons.mp hmem with rfl | hmem
      · left
        rw [if_pos hserv]
        exact tileOn_domainOn n s
      · right
        refine ⟨hmem, ?_⟩
        split
        · rw [tileOn_arrayInService, hserv]
        · exact hserv

theorem bringUp3_trained {b : BringUp} {s : State} (h : b.links = true) :
    bringUp3 b s = nextStep 4 ((List.range 64).foldl tileOnInService s) := by
  simp only [bringUp3, h, Bool.not_true, Bool.false_eq_true, if_false]
  rfl

theorem bringUp3_untrained {b : BringUp} {s : State} (h : b.links = false) : bringUp3 b s =
    modPower (fun p => { p with halted := true }) (raiseErr { page := 0, sev := 3, cls := 0x020 } s) := by
  simp only [bringUp3, h, Bool.not_false, if_true]

theorem fld_nextStep {n : Nat} (s : State) (h : n < 8) : fld (nextStep n s) resetPage Reg.RESET_BRINGUP_STEP = n :=
  fld_setFld_fits _ _ h

/-! The last steps of bring-up -/

theorem bringUp4_parts (b : BringUp) (s : State) : fld (bringUp4 b s) resetPage Reg.RESET_BRINGUP_STEP = 5 ∧
    ∃ m : Mem, (bringUp4 b s).mem = m.wipe :=
  ⟨fld_nextStep _ (by decide), _, rfl⟩

@[simp] theorem logLatched_regs (s : State) : (logLatched s).regs = s.regs := by
  unfold logLatched
  refine (foldl_keeps State.regs ?_ _ _).trans rfl
  exact fun _ _ => rfl

theorem bringUp6_reads (s : State) : fld (bringUp6 s) resetPage Reg.RESET_BRINGUP_STEP = 6 ∧
    fld (bringUp6 s) resetPage Reg.RESET_BRINGUP_DONE = 1 := by
  have hset (f : Field) (hf : 0x100 ≤ f.off) (hf' : f.off < 0x10000) (hl : f.lo < 64) : fld (bringUp6 s) resetPage f =
      fld (setFlds resetPage [(Reg.RESET_BRINGUP_STEP, 6), (Reg.RESET_BRINGUP_DONE, 1), (Reg.RESET_BRINGUP_TIME_MS, s.power.ms)] s)
        resetPage f := by
    unfold bringUp6
    rw [fld_congr (logLatched_regs _)]
    split
    · exact fld_raiseIrq_own _ hf hf' hl
    · exact (fld_raiseIrq_own _ hf hf' hl).trans (fld_raiseIrq_own _ hf hf' hl)
  rw [hset _ (by decide) (by decide) (by decide), hset _ (by decide) (by decide) (by decide)]
  constructor
  · simp (disch := decide) only [setFlds_cons, setFlds_nil, fld_setFld_field, fld_setFld_fits]
  · simp (disch := decide) only [setFlds_cons, setFlds_nil, fld_setFld_field, fld_setFld_fits]

theorem bringUp5_waits {b : BringUp} {n : Nat} {s : State} (hports : s.power.portsStarted = true) (hn : n < 8)
    (h : siteStarting s n = true) : bringUp5 b s = s := by
  have hany : (List.range 8).any (siteStarting s) = true := List.any_eq_true.mpr ⟨n, List.mem_range.mpr hn, h⟩
  simp only [bringUp5, hports, if_true, hany]

theorem bringUp5_done {b : BringUp} {s : State} (hports : s.power.portsStarted = true) (hnext : s.power.nextSite = 8)
    (h : ∀ n, n < 8 → siteStarting s n = false) : bringUp5 b s = bringUp6 s := by
  have hany : (List.range 8).any (siteStarting s) = false := by
    rw [List.any_eq_false]
    exact fun n hn => by simp [h n (List.mem_range.mp hn)]
  have hnone : (List.range 8).find? (fun n => decide (8 ≤ n) && startable s n) = none := by
    rw [List.find?_eq_none]
    intro n hn
    have := List.mem_range.mp hn
    simp; omega
  simp only [bringUp5, hports, if_true, hany, Bool.false_eq_true, if_false, hnext, hnone]

/-! Clocks (R479) -/

theorem pllLockLoss_clock {i : Nat} {s : State} (hlo : 38 ≤ i) (hhi : i < 44) (h : tst (fld s clockPage Reg.PLL_LOCK) i = true) :
    ∃ t, exec (.pllLockLoss i) s = .next t ∧ tst (fld t clockPage Reg.PLL_LOCK) i = false ∧ t.power.halted = true ∧
      t.errs.dispatchStopped = true := by
  refine ⟨_, congrArg Host.Outcome.next ((if_neg (by simp [h]; omega)).trans (if_neg (by omega))), ?_, rfl, raiseErr_stops _ _ rfl⟩
  rw [fld_modPower, fld_raiseErr_own _ _ (by decide) (by decide) (by decide) (by decide), raiseSrc,
    fld_raiseIrq_own _ (by decide) (by decide) (by decide), bump_eq, fld_setFld_field _ _ (by decide), fld_setFld_same]
  exact (tst_mod_two_pow _ hhi).trans (tst_clrBit _ _)

theorem pllRelock_block {i : Nat} {s : State} (hlo : 3 ≤ i) (hhi : i < 37) (h : tst (fld s clockPage Reg.PLL_LOCK) i = false) :
    ∃ t, exec (.pllRelock i) s = .next t ∧ tst (fld t clockPage Reg.PLL_LOCK) i = true ∧
      sameFields [(clockPage, Reg.PLL_LOCK)] s t := by
  refine ⟨_, congrArg Host.Outcome.next ((if_neg (by simp [h]; omega)).trans (if_pos (by omega))), ?_, sameFields_setFld _ _ _ _⟩
  rw [fld_setFld_same]
  exact (tst_mod_two_pow _ (show i < 44 by omega)).trans (tst_setBit _ _)


/-! The supplies' commands -/

theorem powerOn_resets {s : State} (h : s.power.vaux = false) :
    exec .powerOn s = .next (fundamentalReset 1 (modPower (fun p => { p with vaux := true }) s)) :=
  congrArg Host.Outcome.next (if_neg (by simp [h]))

theorem powerOn_again {s : State} (h : s.power.vaux = true) : exec .powerOn s = .next s :=
  congrArg Host.Outcome.next (if_pos h)

theorem perstAssert_resets {s : State} (hvaux : s.power.vaux = true) (htrip : s.power.tripped = false) (hoff : s.power.off = false) :
    exec .perstAssert s = .next (fundamentalReset 2 (modPower (fun p => { p with perst := true }) s)) :=
  congrArg Host.Outcome.next (if_neg (by simp [hvaux, htrip, hoff]))

theorem perstAssert_tripped {s : State} (h : s.power.tripped = true) :
    exec .perstAssert s = .next (modPower (fun p => { p with perst := true }) s) :=
  congrArg Host.Outcome.next (if_pos (by simp [h]))

theorem railLoss_off {v : Bool} {s : State} (hvaux : s.power.vaux = true) (hoff : s.power.off = false) :
    exec (.railLoss v) s = .next (modPower (fun p => { p with hadRail := true })
      (phasesOff { page := resetPage, sev := 3, cls := 0x0C2, detail := b2n v } s)) :=
  congrArg Host.Outcome.next (if_neg (by simp [hvaux, hoff]))

theorem railsRestored_resets {s : State} (hvaux : s.power.vaux = true) (hoff : s.power.off = true) (htrip : s.power.tripped = false) :
    exec .railsRestored s = .next (fundamentalReset 4 s) :=
  congrArg Host.Outcome.next (if_neg (by simp [hvaux, hoff, htrip]))

theorem bringupStep_stopped {b : BringUp} {s : State}
    (h : s.power.vaux = false ∨ s.power.off = true ∨ s.power.tripped = true ∨ s.power.halted = true) :
    exec (.bringupStep b) s = .next s :=
  congrArg Host.Outcome.next (if_pos (by rcases h with h | h | h | h <;> simp [h]))

/-- Settles O48: what a reset leaves (`fundamentalReset_parts`, `phasesOff_parts`), and one lemma for each step of bring-up. -/
theorem powerAndReset : Obligations.PowerAndReset := by
  unfold Obligations.PowerAndReset
  refine ⟨?_, fun s h => powerOn_again h, ?_, ?_, fun s h => perstAssert_tripped h, fun s => ⟨_, rfl, rfl, rfl, fun _ => rfl⟩, ?_, ?_,
    fun b s h => bringupStep_stopped h, ?_, ?_, ?_, ?_, ?_, ?_, ?_, fun i s hlo hhi h => pllLockLoss_clock hlo hhi h,
    fun i s hlo hhi h => pllRelock_block hlo hhi h⟩
  · intro s h
    obtain ⟨hheart, hpasses, hfresh, hpower, hcause⟩ :=
      fundamentalReset_parts (cause := 1) (modPower (fun p => { p with vaux := true }) s) (by decide)
    exact ⟨_, powerOn_resets h, by rw [hpower]; rfl, hcause, by rw [hheart]; rfl, hpasses, hfresh⟩
  · intro s
    obtain ⟨hvaux, hlatched, hotp, hmem⟩ := vauxLoss_parts s
    exact ⟨_, rfl, hvaux, hlatched, hotp, fun x hx => wipe_cells (hmem ▸ hx)⟩
  · intro s hvaux htrip hoff
    obtain ⟨hheart, hpasses, -, hpower, hcause⟩ :=
      fundamentalReset_parts (cause := 2) (modPower (fun p => { p with perst := true }) s) (by decide)
    exact ⟨_, perstAssert_resets hvaux htrip hoff, by rw [hpower]; rfl, hcause, by rw [hheart]; rfl, hpasses⟩
  · intro v s hvaux hoff
    obtain ⟨hphases, hout, hotp, -, -⟩ := phasesOff_parts { page := resetPage, sev := 3, cls := 0x0C2, detail := b2n v } s
    exact ⟨_, railLoss_off hvaux hoff, hphases, rfl, hout, hotp⟩
  · intro s hvaux hoff htrip
    obtain ⟨-, -, -, hpower, hcause⟩ := fundamentalReset_parts (cause := 4) s (by decide)
    exact ⟨_, railsRestored_resets hvaux hoff htrip, by rw [hpower]; rfl, hcause⟩
  · intro b s hvaux hoff htrip hhalt hstep hrec hlc
    obtain ⟨hkept, hpll, hrail, hpower⟩ :=
      bringUp1_blank_reads (b := b) (s := modPower (fun p => { p with ms := p.ms + b.ms }) s) hrec hlc
    exact ⟨_, bringupStep_one (bringupStep_going hvaux hoff htrip hhalt) hstep, hkept.trans hstep, hpll, hrail, by rw [hpower]; rfl⟩
  · intro b s hvaux hoff htrip hhalt hstep hlow
    obtain ⟨hkept, hcore, hheart⟩ := bringUp2_low (s := modPower (fun p => { p with ms := p.ms + b.ms }) s) hlow
    exact ⟨_, bringupStep_two (bringupStep_going hvaux hoff htrip hhalt) hstep, hkept.trans hstep, hcore, hheart⟩
  · intro b s hvaux hoff htrip hhalt hstep hlinks
    refine ⟨_, (bringupStep_three (bringupStep_going hvaux hoff htrip hhalt) hstep).trans
      (congrArg Host.Outcome.next (bringUp3_trained hlinks)), fld_nextStep _ (by decide), fun n hn hserv => ?_⟩
    exact tilesOn_domainOn (List.range 64) (.inr ⟨List.mem_range.mpr hn, hserv⟩)
  · intro b s hvaux hoff htrip hhalt hstep hlinks
    refine ⟨_, (bringupStep_three (bringupStep_going hvaux hoff htrip hhalt) hstep).trans
      (congrArg Host.Outcome.next (bringUp3_untrained hlinks)), ?_, rfl, raiseErr_stops _ _ rfl⟩
    rw [fld_modPower, fld_raiseErr_own _ _ (by decide) (by decide) (by decide) (by decide)]
    exact hstep
  · intro b s hvaux hoff htrip hhalt hstep
    obtain ⟨hnext, m, hmem⟩ := bringUp4_parts b (modPower (fun p => { p with ms := p.ms + b.ms }) s)
    exact ⟨_, bringupStep_four (bringupStep_going hvaux hoff htrip hhalt) hstep, hnext, fun x hx => wipe_cells (hmem ▸ hx)⟩
  · intro b n s hvaux hoff htrip hhalt hstep hports hn hstarting
    exact (bringupStep_five (bringupStep_going hvaux hoff htrip hhalt) hstep).trans
      (congrArg Host.Outcome.next (bringUp5_waits hports hn hstarting))
  · intro b s hvaux hoff htrip hhalt hstep hports hnext hidle
    exact ⟨_, (bringupStep_five (bringupStep_going hvaux hoff htrip hhalt) hstep).trans
      (congrArg Host.Outcome.next (bringUp5_done hports hnext hidle)), bringUp6_reads _⟩

end Sys2Proof.Machine
end

section
/-! Power management (R470 to R486): tile setpoints, the package power limit, gating and self-tests. -/

namespace Sys2Proof.Machine

theorem clampN_of_mem {lo hi x : Nat} (hlo : lo ≤ x) (hhi : x ≤ hi) : clampN lo hi x = x := by
  simp only [clampN]; omega

theorem tile_congr {s t : State} (h : t.tiles = s.tiles) (n : Nat) : tile t n = tile s n := by simp only [tile, h]

/-! Tile setpoints (R471, R472) -/

theorem setPoint_parts (n v f : Nat) (s : State) : tile (setPoint n v f s) n = { tile s n with volt := v, mhz := f } ∧
    sameBytes s (setPoint n v f s) := by
  unfold setPoint
  dsimp only
  split
  · exact ⟨tile_setTile_same _ _ _, sameBytes_of_parts rfl rfl rfl⟩
  · exact ⟨(tile_congr (count_tiles ..) n).trans (tile_setTile_same _ _ _), sameBytes_of_parts (by simp) (by simp) (by simp)⟩

section
variable {n slack : Nat} {s : State}

theorem tileSetpointLoop_sealed (h : (tile s n).sealedSetting = true) : exec (.tileSetpointLoop n slack) s = .next s :=
  congrArg Host.Outcome.next (if_pos (by simp [h]))

theorem tileSetpointLoop_override (hn : n < 64) (hon : domainOn s n = true) (hseal : (tile s n).sealedSetting = false)
    (hovr : fld s (pageTile n) Reg.TILE_LOOP_CTRL_OVERRIDE = 1) :
    exec (.tileSetpointLoop n slack) s = .next (setPoint n
      (clampN (10 * vMin s n) (10 * vMax s n) (10 * fld s (pageTile n) Reg.TILE_LOOP_CTRL_V_OVR_MV))
      (clampN (mhzMin s n) (mhzMax s n) (fld s (pageTile n) Reg.TILE_LOOP_CTRL_TCLK_OVR_MHZ)) s) :=
  congrArg Host.Outcome.next ((if_neg (by simp [hon, hseal]; omega)).trans (if_pos (by simp [flag, hovr])))

theorem tileSetpointLoop_frozen (hovr : fld s (pageTile n) Reg.TILE_LOOP_CTRL_OVERRIDE = 0)
    (hfreeze : fld s (pageTile n) Reg.TILE_LOOP_CTRL_FREEZE = 1) : exec (.tileSetpointLoop n slack) s = .next s := by
  refine congrArg Host.Outcome.next ?_
  dsimp only
  split
  · rfl
  · rw [if_neg (by simp [flag, hovr]), if_pos (by simp [flag, hfreeze])]

/-- Below the low band with room for a step, the voltage steps up (R471). -/
theorem tileSetpointLoop_stepsUp (hn : n < 64) (hon : domainOn s n = true) (hseal : (tile s n).sealedSetting = false)
    (hovr : fld s (pageTile n) Reg.TILE_LOOP_CTRL_OVERRIDE = 0) (hfreeze : fld s (pageTile n) Reg.TILE_LOOP_CTRL_FREEZE = 0)
    (hlo : 10 * vMin s n ≤ (tile s n).volt) (hhi : (tile s n).volt + 25 ≤ 10 * vMax s n) (hflo : mhzMin s n ≤ (tile s n).mhz)
    (hfhi : (tile s n).mhz ≤ mhzMax s n) :
    exec (.tileSetpointLoop n 0) s = .next (setPoint n ((tile s n).volt + 25) (tile s n).mhz s) := by
  refine congrArg Host.Outcome.next ((if_neg (by simp [hon, hseal]; omega)).trans ?_)
  dsimp only
  rw [if_neg (by simp [flag, hovr]), if_neg (by simp [flag, hfreeze]), if_pos rfl, if_neg (by omega),
    clampN_of_mem (by omega) hhi, clampN_of_mem hflo hfhi]

end

theorem sameFields_count (p : Nat) (f : Field) (n : Nat) (s : State) : sameFields [(p, f)] s (count p f n s) :=
  fun _ _ h => fld_count_ne s (h (p, f) List.mem_cons_self)

theorem droopDetect_parts {n : Nat} {s : State} (hn : n < 64) (hon : domainOn s n = true) :
    ∃ t, exec (.droopDetect n) s = .next t ∧ (tile t n).stretch = (if (tile s n).sealedSetting then (tile s n).stretch else 32) ∧
      (tile t n).volt = (tile s n).volt ∧ sameFields [(pageTile n, Reg.TILE_LOOP_COUNTS_DROOPS)] s t := by
  refine ⟨_, congrArg Host.Outcome.next (if_neg (by simp [hon]; omega)), ?_⟩
  have hkept : tile (count (pageTile n) Reg.TILE_LOOP_COUNTS_DROOPS 1 s) n = tile s n := tile_congr (count_tiles ..) n
  have hframe := sameFields_count (pageTile n) Reg.TILE_LOOP_COUNTS_DROOPS 1 s
  dsimp only
  simp only [hkept]
  split
  · exact ⟨congrArg TileSt.stretch hkept, congrArg TileSt.volt hkept, hframe⟩
  · exact ⟨by rw [tile_modTile_same], by rw [tile_modTile_same, hkept], hframe.congr_regs rfl rfl⟩

/-! The package power limit (R473, R474) -/

/-- The registers and the hottest reading as a decision leaves them. -/
def decided (w dyn : Nat) (s : State) : State :=
  modPower (fun p => { p with hottest := -2048 }) (setFlds powerPage
    [(Reg.PWR_STATUS_DUTY, nextDuty s (fld s powerPage Reg.PWR_STATUS_DUTY) w dyn s.power.hottest),
     (Reg.PWR_STATUS_PLANNING, b2n (planning s)),
     (Reg.PWR_STATUS_LIMIT_UNMET, b2n (decide (fld s powerPage Reg.PWR_STATUS_DUTY ≤ dutyMin s) && decide (plW s < w))),
     (Reg.PWR_STATUS_INPUT_W, min w 65535), (Reg.PWR_STATUS_TILE_DYN_W, min dyn 65535),
     (Reg.PWR_STATUS_HOTTEST, tc 8 (s.power.hottest / 8))] s)


theorem decided_reads (w dyn : Nat) (s : State) :
    fld (decided w dyn s) powerPage Reg.PWR_STATUS_DUTY =
      nextDuty s (fld s powerPage Reg.PWR_STATUS_DUTY) w dyn s.power.hottest % 128 ∧
    fld (decided w dyn s) powerPage Reg.PWR_STATUS_INPUT_W = min w 65535 := by
  have hw : min w 65535 < 2 ^ Reg.PWR_STATUS_INPUT_W.width := by simp only [Reg.PWR_STATUS_INPUT_W]; omega
  constructor
  · simp (disch := decide) only [decided, fld_modPower, setFlds_cons, setFlds_nil, fld_setFld_field, fld_setFld_same]
    rfl
  · simp (disch := decide) only [decided, fld_modPower, setFlds_cons, setFlds_nil, fld_setFld_field, fld_setFld_fits _ _ hw]

/-- The new duty is given to every tile, and a change is counted and shown. -/
def dutyTaken (d old : Nat) (s : State) : State :=
  if d = old then s
  else raiseSrc powerPage 1 (count powerPage Reg.PWR_COUNTS_DUTY_CHANGES 1
    ((List.range 64).foldl (fun s n => modTile n (fun t => { t with nextDuty := d }) s) s))

theorem dutyTaken_keeps {β : Type} {φ : State → β} (hirq : ∀ i s, φ (raiseSrc powerPage i s) = φ s)
    (hcount : ∀ s, φ (count powerPage Reg.PWR_COUNTS_DUTY_CHANGES 1 s) = φ s) (htile : ∀ n f s, φ (modTile n f s) = φ s)
    (d old : Nat) (s : State) : φ (dutyTaken d old s) = φ s := by
  unfold dutyTaken
  split
  · rfl
  · exact (hirq _ _).trans ((hcount _).trans (foldl_keeps φ (fun s n => htile n _ s) _ _))

/-- A decision, with the source raised where the limit stays unmet (R473). -/
def limitShown (w dyn : Nat) (s : State) : State :=
  if decide (fld s powerPage Reg.PWR_STATUS_DUTY ≤ dutyMin s) && decide (plW s < w) then raiseSrc powerPage 0 (decided w dyn s)
  else decided w dyn s

theorem limitShown_keeps {β : Type} {φ : State → β} (hirq : ∀ i s, φ (raiseSrc powerPage i s) = φ s) (w dyn : Nat) (s : State) :
    φ (limitShown w dyn s) = φ (decided w dyn s) := by
  unfold limitShown
  split
  · exact hirq _ _
  · rfl

theorem powerLimitDecision_eq (w dyn : Nat) (s : State) : exec (.powerLimitDecision w dyn) s =
    .next (dutyTaken (nextDuty s (fld s powerPage Reg.PWR_STATUS_DUTY) w dyn s.power.hottest) (fld s powerPage Reg.PWR_STATUS_DUTY)
      (limitShown w dyn s)) := rfl

/-- What a decision leaves, read through the steps after it that do not concern it. -/
theorem powerLimitDecision_keeps {β : Type} {φ : State → β} (hirq : ∀ i s, φ (raiseSrc powerPage i s) = φ s)
    (hcount : ∀ s, φ (count powerPage Reg.PWR_COUNTS_DUTY_CHANGES 1 s) = φ s) (htile : ∀ n f s, φ (modTile n f s) = φ s)
    (d old w dyn : Nat) (s : State) : φ (dutyTaken d old (limitShown w dyn s)) = φ (decided w dyn s) :=
  (dutyTaken_keeps hirq hcount htile d old _).trans (limitShown_keeps hirq w dyn s)

theorem fld_decision {f : Field} (hf : 0x100 ≤ f.off) (hf' : f.off < 0x10000) (hl : f.lo < 64)
    (hne : f.off * 64 + f.lo ≠ Reg.PWR_COUNTS_DUTY_CHANGES.off * 64 + Reg.PWR_COUNTS_DUTY_CHANGES.lo) (d old w dyn : Nat) (s : State) :
    fld (dutyTaken d old (limitShown w dyn s)) powerPage f = fld (decided w dyn s) powerPage f :=
  powerLimitDecision_keeps (φ := fun s => fld s powerPage f) (fun _ _ => fld_raiseIrq_own _ hf hf' hl)
    (fun s => fld_count_ne s (fieldKey_ne hne)) (fun _ _ _ => rfl) d old w dyn s

theorem sameBytes_decision (d old w dyn : Nat) (s : State) : sameBytes s (dutyTaken d old (limitShown w dyn s)) :=
  sameBytes_of_parts
    ((powerLimitDecision_keeps (φ := State.mem) (fun _ _ => raiseSrc_mem ..) (fun _ => count_mem ..) (fun _ _ _ => rfl) d old w dyn s).trans
      (setFlds_mem ..))
    ((powerLimitDecision_keeps (φ := State.cache) (fun _ _ => raiseSrc_cache ..) (fun _ => count_cache ..) (fun _ _ _ => rfl) d old w dyn s).trans
      (setFlds_cache ..))
    ((powerLimitDecision_keeps (φ := State.coh) (fun _ _ => raiseSrc_coh ..) (fun _ => count_coh ..) (fun _ _ _ => rfl) d old w dyn s).trans
      (setFlds_coh ..))

theorem nextDuty_frozen {s : State} (hovr : fld s powerPage Reg.PWR_CTRL_OVERRIDE = 0) (hfreeze : fld s powerPage Reg.PWR_CTRL_FREEZE = 1)
    (d w dyn : Nat) (t : Int) : nextDuty s d w dyn t = d := by
  simp [nextDuty, flag, hovr, hfreeze]

/-! Gating and self-tests (R470, R481) -/

theorem tileIdleGate_gated {n : Nat} {s : State} (hn : n < 64) (hus : fld s powerPage Reg.PWR_GATE_TILE_IDLE_US ≠ 0)
    (hbind : bindState s (pageTile n) = 0) (hop : pageOp s (pageTile n) = none) (hon : domainOn s n = true) :
    ∃ t, exec (.tileIdleGate n) s = .next t ∧ domainOn t n = false ∧ (tile t n).bank0 = {} ∧ (tile t n).acc = [] ∧ (tile t n).mhz = 0 ∧
      sameBytes s t := by
  refine ⟨_, congrArg Host.Outcome.next (if_neg (by simp [hus, hbind, hop, hon]; omega)), ?_, ?_, ?_, ?_, ?_⟩
  · exact (domainOn_congr (by simp [clearArray]) n).trans (domainOn_setDomain_same n false s)
  · rw [tile_modTile_same]
  · rw [tile_modTile_same]
  · rw [tile_modTile_same]
  · exact sameBytes_of_parts (by simp [clearArray]) (by simp [clearArray]) (by simp [clearArray])

theorem tileIdleGate_never {n : Nat} {s : State} (h : fld s powerPage Reg.PWR_GATE_TILE_IDLE_US = 0) :
    exec (.tileIdleGate n) s = .next s := congrArg Host.Outcome.next (if_pos (.inr (.inl h)))

theorem startSelfTest_reads (n : Nat) (s : State) : bindState (startSelfTest n false s) (pageTile n) = 4 ∧
    arrayState (startSelfTest n false s) n = 7 ∧ (startSelfTest n false s).power.nextTest = s.power.nextTest := by
  have hregs (p : Nat) (f : Field) : fld (startSelfTest n false s) p f =
      fld (opRun (pageTile n) 2 0 (unbindPage (pageTile n) 4 (clearArray n 7 (tileWake n s)))) p f := fld_congr (modTile_regs ..) p f
  have hwake : (tileWake n s).power.nextTest = s.power.nextTest := by
    unfold tileWake tileOn
    split
    · rfl
    · dsimp only
      split
      · rfl
      · rfl
  refine ⟨?_, ?_, ?_⟩
  · rw [bindState, hregs]
    exact (bindState_opRun _ _ _ _).trans (bindState_unbindPage _ _ (by decide))
  · rw [arrayState, hregs, fld_opRun_own _ (by decide) (by decide) (by decide)]
    simp (disch := decide) only [unbindPage, clearArray, setFlds_cons, setFlds_nil, fld_setFld_field, fld_setFld_fits]
  · simpa [startSelfTest, unbindPage, clearArray] using hwake

theorem tileSelfTest_free {n : Nat} {s : State} (hbind : bindState s (pageTile n) = 0) (hop : pageOp s (pageTile n) = none) :
    tileSelfTest n false s = startSelfTest n false s := by
  simp [tileSelfTest, startFate, hbind, hop]

theorem periodicSelfTest_next {n : Nat} {s : State} (hint : fld s resetPage Reg.SELFTEST_POLICY_INTERVAL_H ≠ 0)
    (hnext : ((List.range 64).map (fun i => (s.power.nextTest + i) % 64)).find? (fun n => arrayInService s n) = some n)
    (hbind : bindState s (pageTile n) = 0) (hop : pageOp s (pageTile n) = none) :
    exec .periodicSelfTest s = .next (startSelfTest n false (modPower (fun p => { p with nextTest := (n + 1) % 64 }) s)) := by
  refine congrArg Host.Outcome.next ((if_neg hint).trans ?_)
  rw [hnext]
  refine (if_neg ?_).trans (tileSelfTest_free hbind hop)
  exact fun h => by simp [show pageOp (modPower _ s) (pageTile n) = none from hop] at h

theorem periodicSelfTest_never {s : State} (h : fld s resetPage Reg.SELFTEST_POLICY_INTERVAL_H = 0) :
    exec .periodicSelfTest s = .next s := congrArg Host.Outcome.next (if_pos h)

end Sys2Proof.Machine
end

section
/-! Temperatures (R30 to R34): what a sample of the sensors leaves, and the settled statement about power management. -/

namespace Sys2Proof.Machine

/-! One sensor -/

theorem fld_takeTemp_page {p : Nat} {f : Field} (i : Nat) (r : Int) (s : State) (hp : p ≠ telePage) (ho : f.off < 0x10000)
    (hl : f.lo < 64) (hi : i < 144) : fld (takeTemp i r s) p f = fld s p f := by
  have hset {g : Field} (v : Nat) (s : State) (hg : g.off = 0x100 ∧ g.lo < 64) : fld (setFld telePage (g.at 8 i) v s) p f = fld s p f :=
    fld_setFld_page v s hp (by simp only [Field.at]; omega) ho hg.2 hl
  unfold takeTemp
  dsimp only
  split
  · exact hset _ _ (by decide)
  · simp only [setFlds_cons, setFlds_nil]
    rw [hset _ _ (by decide), hset _ _ (by decide), hset _ _ (by decide)]

theorem takeTemp_keeps {β : Type} {φ : State → β} (hφ : ∀ s r, φ { s with regs := r } = φ s) (i : Nat) (r : Int) (s : State) :
    φ (takeTemp i r s) = φ s := by
  unfold takeTemp
  dsimp only
  split
  · exact hφ s _
  · exact foldl_keeps φ (fun s e => hφ s _) _ s

theorem sensorOn_congr {s t : State} (hdom : t.power.domains = s.power.domains)
    (hport : ∀ p, fld t (pagePort p) Reg.PORT_CFG_MODE = fld s (pagePort p) Reg.PORT_CFG_MODE) (i : Nat) :
    sensorOn t i = sensorOn s i := by
  simp only [sensorOn, domainView, quadOn, domainOn, hdom, hport]

theorem sensorOn_takeTemp {i : Nat} (r : Int) (s : State) (hi : i < 144) (j : Nat) : sensorOn (takeTemp i r s) j = sensorOn s j :=
  sensorOn_congr (takeTemp_keeps (φ := fun s => s.power.domains) (fun _ _ => rfl) i r s)
    (fun p => fld_takeTemp_page i r s (by simp only [pagePort, telePage]; omega) (by decide) (by decide) hi) j

/-- The reading as `TEMP[i].NOW` shows it. -/
def shownTemp (r : Int) : Nat := tc 12 (clampI (-2048) 2047 r)

theorem tc_lt (w : Nat) (v : Int) : tc w v < 2 ^ w := by
  have hpos : (0 : Int) < ((2 ^ w : Nat) : Int) := by exact_mod_cast Nat.two_pow_pos w
  have hlo := Int.emod_nonneg v hpos.ne'
  have hhi := Int.emod_lt_of_pos v hpos
  unfold tc
  omega

theorem fld_takeTemp_same {i : Nat} {r : Int} {s : State} (hon : sensorOn s i = true) :
    fld (takeTemp i r s) telePage (Reg.TEMP_NOW.at 8 i) = shownTemp r := by
  have hv : tc 12 (clampI (-2048) 2047 r) < 2 ^ (Reg.TEMP_NOW.at 8 i).width := tc_lt 12 _
  unfold takeTemp
  simp only [hon, Bool.not_true, Bool.false_eq_true, if_false, setFlds_cons, setFlds_nil]
  rw [fld_setFld_field _ _ (by simp [Field.at, Reg.TEMP_NOW, Reg.TEMP_PEAK]),
    fld_setFld_field _ _ (by simp [Field.at, Reg.TEMP_NOW, Reg.TEMP_VALID]), fld_setFld_fits _ _ hv]
  rfl

theorem fld_takeTemp_ne {i j : Nat} (r : Int) (s : State) (h : i ≠ j) :
    fld (takeTemp j r s) telePage (Reg.TEMP_NOW.at 8 i) = fld s telePage (Reg.TEMP_NOW.at 8 i) := by
  unfold takeTemp
  dsimp only
  split
  · exact fld_setFld_field _ _ (by simp only [Field.at, Reg.TEMP_NOW, Reg.TEMP_VALID]; omega)
  · simp only [setFlds_cons, setFlds_nil]
    rw [fld_setFld_field _ _ (by simp only [Field.at, Reg.TEMP_NOW, Reg.TEMP_PEAK]; omega),
      fld_setFld_field _ _ (by simp only [Field.at, Reg.TEMP_NOW, Reg.TEMP_VALID]; omega),
      fld_setFld_field _ _ (by simp only [Field.at, Reg.TEMP_NOW]; omega)]

/-! A sample of all sensors -/

/-- The readings of a list of sensors are taken. -/
def takeTemps (readings : List Int) (l : List Nat) (s : State) : State := l.foldl (fun s i => takeTemp i (readings.getD i 0) s) s

theorem takeTemps_keeps {β : Type} {φ : State → β} (hφ : ∀ s r, φ { s with regs := r } = φ s) (readings : List Int) (l : List Nat)
    (s : State) : φ (takeTemps readings l s) = φ s := foldl_keeps φ (fun s i => takeTemp_keeps hφ i _ s) l s

theorem sensorOn_takeTemps (readings : List Int) {l : List Nat} (s : State) (hl : ∀ i ∈ l, i < 144) (j : Nat) :
    sensorOn (takeTemps readings l s) j = sensorOn s j := by
  induction l generalizing s with
  | nil => rfl
  | cons i l ih =>
    exact (ih _ (fun k hk => hl k (List.mem_cons_of_mem _ hk))).trans (sensorOn_takeTemp _ s (hl i List.mem_cons_self) j)

theorem fld_takeTemps {readings : List Int} {l : List Nat} {i : Nat} {s : State} (hl : ∀ i ∈ l, i < 144) (hon : sensorOn s i = true)
    (h : i ∈ l ∨ fld s telePage (Reg.TEMP_NOW.at 8 i) = shownTemp (readings.getD i 0)) :
    fld (takeTemps readings l s) telePage (Reg.TEMP_NOW.at 8 i) = shownTemp (readings.getD i 0) := by
  induction l generalizing s with
  | nil => exact h.resolve_left List.not_mem_nil
  | cons j l ih =>
    refine ih (fun k hk => hl k (List.mem_cons_of_mem _ hk)) ((sensorOn_takeTemp _ s (hl j List.mem_cons_self) i).trans hon) ?_
    by_cases hij : i = j
    · subst hij
      exact .inr (fld_takeTemp_same hon)
    · rw [fld_takeTemp_ne _ _ hij]
      exact h.imp_left (fun hm => (List.mem_cons.mp hm).resolve_left hij)

/-- The powered sensors with their readings. -/
def liveTemps (readings : List Int) (s : State) : List (Nat × Int) :=
  ((List.range 144).filter (sensorOn s)).map (fun i => (i, clampI (-2048) 2047 (readings.getD i 0)))

theorem mem_liveTemps {readings : List Int} {s : State} {x : Nat × Int} :
    x ∈ liveTemps readings s ↔ x.1 < 144 ∧ sensorOn s x.1 = true ∧ x.2 = clampI (-2048) 2047 (readings.getD x.1 0) := by
  obtain ⟨i, v⟩ := x
  simp only [liveTemps, List.mem_map, List.mem_filter, List.mem_range, Prod.mk.injEq]
  constructor
  · rintro ⟨j, ⟨hj, hon⟩, rfl, rfl⟩
    exact ⟨hj, hon, rfl⟩
  · rintro ⟨hi, hon, rfl⟩
    exact ⟨i, ⟨hi, hon⟩, rfl, rfl⟩

/-- The hottest of the sensors that may be seen is shown (R31). -/
def hottestShown (seen : List (Nat × Int)) (s : State) : State :=
  match hottestOf seen with
  | some (i, v) => setFlds telePage [(Reg.TEMP_HOTTEST_INDEX, i), (Reg.TEMP_HOTTEST_VALUE, tc 12 v)] s
  | none => s

/-- The power loop's hottest reading is kept (R473). -/
def hottestKept (live : List (Nat × Int)) (s : State) : State :=
  match hottestOf live with
  | some (_, v) => modPower (fun p => { p with hottest := max p.hottest v }) s
  | none => s

/-- The sensors at the alert threshold, and an alert for a new one (R34). -/
def alertRaised (live : List (Nat × Int)) (s : State) : State :=
  let high := (live.filter (fun x => decide (8 * (fld s telePage Reg.TEMP_ALERT_THRESHOLD : Int) ≤ x.2))).map (·.1)
  let new := high.any (fun i => !s.power.alerted.contains i)
  let s := modPower (fun p => { p with alerted := high }) s
  if new then raiseSrc telePage 2 s else s

/-- What a sample shows of the powered sensors' readings, but for the trip level. -/
def tempsShown (live : List (Nat × Int)) (s : State) : State :=
  alertRaised live (hottestKept live
    (hottestShown (live.filter (fun x => !(decide (x.1 < 64) && flag s (pageTile x.1) Reg.BINDING_SEALED))) s))

/-- The sensors at or above the trip level, and the sites' sensors at or above the removal level (R32, R33). -/
def tripping (live : List (Nat × Int)) : List Nat := (live.filter (fun x => decide (1000 ≤ x.2))).map (·.1)
def warmSites (live : List (Nat × Int)) : List Nat :=
  (live.filter (fun x => decide (116 ≤ x.1) && decide (x.1 < 124) && decide (920 ≤ x.2))).map (·.1)

/-- The state with every sensor's sample taken. -/
def sampled (readings : List Int) (s : State) : State := takeTemps readings (List.range 144) s

/-- The sites with a sensor at the removal level are fenced (R33). -/
def removeWarm (live : List (Nat × Int)) (s : State) : State :=
  (warmSites live).foldl (fun s i => if siteLink s (i - 116) = 0 then s else fenceSite (i - 116) 3 0 s) s

/-- The hub trips (R32). -/
def tripRecord (live : List (Nat × Int)) : ErrRec :=
  { page := telePage, sev := 3, cls := 0x0C3, detail := (tripping live).headD 0 + (tripping live).length * 256 }

def tripHub (live : List (Nat × Int)) (s : State) : State :=
  setPin 1 false (modPower
    (fun p => { p with tripped := true, hadTrip := true, tripSensors := (warmSites live).foldl addNew (tripping live) })
    (phasesOff (tripRecord live) s))

/-- What a sample does once the temperatures are shown. -/
def heeded (live : List (Nat × Int)) (s : State) : State :=
  if (tripping live).isEmpty then removeWarm live s else tripHub live s

theorem tempSample_eq {readings : List Int} {s : State} (hgo : (!s.power.vaux || s.power.off || s.power.tripped) = false) :
    tempSample readings s =
      heeded (liveTemps readings (sampled readings s)) (tempsShown (liveTemps readings (sampled readings s)) (sampled readings s)) := by
  unfold tempSample heeded removeWarm tripHub tripRecord tripping warmSites tempsShown alertRaised hottestKept hottestShown sampled
    liveTemps takeTemps
  refine (if_neg (by rw [hgo]; decide)).trans ?_
  dsimp only <;>
  · generalize hottestOf (List.filter _ _) = shown
    generalize hottestOf _ = live
    rcases shown with _ | ⟨i, v⟩ <;> rcases live with _ | ⟨j, w⟩ <;> rfl

theorem tempsShown_keeps {β : Type} {φ : State → β}
    (hindex : ∀ v s, φ (setFld telePage Reg.TEMP_HOTTEST_INDEX v s) = φ s)
    (hvalue : ∀ v s, φ (setFld telePage Reg.TEMP_HOTTEST_VALUE v s) = φ s)
    (hpower : ∀ s h l, φ { s with power := { s.power with hottest := h, alerted := l } } = φ s)
    (hirq : ∀ s, φ (raiseSrc telePage 2 s) = φ s) (live : List (Nat × Int)) (s : State) : φ (tempsShown live s) = φ s := by
  have hshown (l : List (Nat × Int)) (s : State) : φ (hottestShown l s) = φ s := by
    unfold hottestShown
    cases hottestOf l with
    | none => rfl
    | some x => exact (hvalue _ _).trans (hindex _ _)
  have hkept (l : List (Nat × Int)) (s : State) : φ (hottestKept l s) = φ s := by
    unfold hottestKept
    cases hottestOf l with
    | none => rfl
    | some x => exact hpower s _ _
  have halert (l : List (Nat × Int)) (s : State) : φ (alertRaised l s) = φ s := by
    unfold alertRaised
    dsimp only
    split
    · exact (hirq _).trans (hpower s _ _)
    · exact hpower s _ _
  exact (halert _ _).trans ((hkept _ _).trans (hshown _ _))

/-! The trip, and a sample below it -/

theorem clampI_ge {lo hi c x : Int} (hc : c ≤ hi) (h : c ≤ x) : c ≤ clampI lo hi x := by
  unfold clampI; split_ifs <;> omega

theorem clampI_lt {lo hi c x : Int} (hc : lo < c) (h : x < c) : clampI lo hi x < c := by
  unfold clampI; split_ifs <;> omega

theorem mem_foldl_addNew {i : Nat} {l m : List Nat} (h : i ∈ m) : i ∈ l.foldl addNew m := by
  induction l generalizing m with
  | nil => exact h
  | cons a l ih =>
    refine ih ?_
    unfold addNew
    split
    · exact h
    · exact List.mem_append_left _ h

theorem tripHub_parts (live : List (Nat × Int)) (s : State) : (tripHub live s).power.tripped = true ∧ (tripHub live s).power.off = true ∧
    (tripHub live s).out.head? = some (.pin 1 false) ∧
    (tripHub live s).power.tripSensors = (warmSites live).foldl addNew (tripping live) ∧ (tripHub live s).heart.otp = s.heart.otp := by
  obtain ⟨hphases, -, hotp, -, -⟩ := phasesOff_parts (tripRecord live) s
  unfold tripHub
  refine ⟨rfl, ?_, rfl, rfl, ?_⟩
  · simpa [setPin, emit] using hphases
  · simpa [modPower] using hotp

section
variable {readings : List Int} {s : State}

theorem sensorOn_sampled (i : Nat) : sensorOn (sampled readings s) i = sensorOn s i :=
  sensorOn_takeTemps readings s (fun _ h => List.mem_range.mp h) i

theorem mem_tripping {i : Nat} (hi : i < 144) (hon : sensorOn s i = true) (hr : 1000 ≤ readings.getD i 0) :
    i ∈ tripping (liveTemps readings (sampled readings s)) := by
  refine List.mem_map.mpr ⟨(i, clampI (-2048) 2047 (readings.getD i 0)), List.mem_filter.mpr ⟨?_, ?_⟩, rfl⟩
  · exact mem_liveTemps.mpr ⟨hi, (sensorOn_sampled i).trans hon, rfl⟩
  · exact decide_eq_true (clampI_ge (by decide) hr)

theorem tripping_cool (h : ∀ j, j < 144 → readings.getD j 0 < 920) : tripping (liveTemps readings (sampled readings s)) = [] := by
  refine List.map_eq_nil_iff.mpr (List.filter_eq_nil_iff.mpr fun x hx => ?_)
  obtain ⟨hi, -, hv⟩ := mem_liveTemps.mp hx
  have hlt : x.2 < 920 := hv ▸ clampI_lt (by decide) (h _ hi)
  simp; omega

theorem warmSites_cool (h : ∀ j, j < 144 → readings.getD j 0 < 920) : warmSites (liveTemps readings (sampled readings s)) = [] := by
  refine List.map_eq_nil_iff.mpr (List.filter_eq_nil_iff.mpr fun x hx => ?_)
  obtain ⟨hi, -, hv⟩ := mem_liveTemps.mp hx
  have hlt : x.2 < 920 := hv ▸ clampI_lt (by decide) (h _ hi)
  simp; omega

theorem tempSample_trips {i : Nat} (hgo : (!s.power.vaux || s.power.off || s.power.tripped) = false) (hi : i < 144)
    (hon : sensorOn s i = true) (hr : 1000 ≤ readings.getD i 0) :
    ∃ t, exec (.tempSample readings) s = .next t ∧ t.power.tripped = true ∧ t.power.off = true ∧ t.out.head? = some (.pin 1 false) ∧
      i ∈ t.power.tripSensors ∧ t.heart.otp = s.heart.otp := by
  have hmem := mem_tripping (s := s) hi hon hr
  have hsome : (tripping (liveTemps readings (sampled readings s))).isEmpty ≠ true := by
    rw [Ne, List.isEmpty_iff]; exact List.ne_nil_of_mem hmem
  obtain ⟨htrip, hoff, hout, hsensors, hotp⟩ := tripHub_parts (liveTemps readings (sampled readings s))
    (tempsShown (liveTemps readings (sampled readings s)) (sampled readings s))
  refine ⟨_, congrArg Host.Outcome.next ((tempSample_eq hgo).trans (if_neg hsome)), htrip, hoff, hout, ?_, hotp.trans ?_⟩
  · rw [hsensors]
    exact mem_foldl_addNew hmem
  · exact (tempsShown_keeps (φ := fun s => s.heart.otp) (fun _ _ => rfl) (fun _ _ => rfl) (fun _ _ _ => rfl)
      (fun s => congrArg Heart.otp (raiseSrc_heart ..)) _ _).trans (takeTemps_keeps (φ := fun s => s.heart.otp) (fun _ _ => rfl) _ _ s)

theorem tempSample_cool (hgo : (!s.power.vaux || s.power.off || s.power.tripped) = false)
    (h : ∀ j, j < 144 → readings.getD j 0 < 920) : exec (.tempSample readings) s =
      .next (tempsShown (liveTemps readings (sampled readings s)) (sampled readings s)) := by
  refine congrArg Host.Outcome.next ((tempSample_eq hgo).trans ?_)
  rw [heeded, tripping_cool h, List.isEmpty_nil, if_pos rfl, removeWarm, warmSites_cool h, List.foldl_nil]

end

/-- What a sample below every removal level leaves alone. -/
theorem tempsShown_sampled_keeps {β : Type} {φ : State → β} (hregs : ∀ s r, φ { s with regs := r } = φ s)
    (hpower : ∀ s h l, φ { s with power := { s.power with hottest := h, alerted := l } } = φ s)
    (hirq : ∀ s, φ (raiseSrc telePage 2 s) = φ s) (readings : List Int) (live : List (Nat × Int)) (s : State) :
    φ (tempsShown live (sampled readings s)) = φ s :=
  (tempsShown_keeps (fun _ _ => hregs _ _) (fun _ _ => hregs _ _) hpower hirq live _).trans (takeTemps_keeps hregs readings _ s)

theorem fld_tempsShown_sampled {readings : List Int} {i : Nat} {s : State} (live : List (Nat × Int)) (hi : i < 144)
    (hon : sensorOn s i = true) :
    fld (tempsShown live (sampled readings s)) telePage (Reg.TEMP_NOW.at 8 i) = shownTemp (readings.getD i 0) := by
  refine (tempsShown_keeps (φ := fun s => fld s telePage (Reg.TEMP_NOW.at 8 i)) (fun v s => fld_setFld_field v s ?_)
    (fun v s => fld_setFld_field v s ?_) (fun _ _ _ => rfl) (fun s => fld_raiseIrq_own s ?_ ?_ ?_) live _).trans
    (fld_takeTemps (fun _ h => List.mem_range.mp h) hon (.inl (List.mem_range.mpr hi)))
  · simp only [Field.at, Reg.TEMP_NOW, Reg.TEMP_HOTTEST_INDEX]; omega
  · simp only [Field.at, Reg.TEMP_NOW, Reg.TEMP_HOTTEST_VALUE]; omega
  · simp only [Field.at, Reg.TEMP_NOW]; omega
  · simp only [Field.at, Reg.TEMP_NOW]; omega
  · simp only [Field.at, Reg.TEMP_NOW]; omega

/-- Settles O49: one lemma for each branch of a decision, and `tempSample_eq` for the sensors' sample. -/
theorem powerManagement : Obligations.PowerManagement := by
  unfold Obligations.PowerManagement
  refine ⟨fun n slack s h => tileSetpointLoop_sealed h, ?_, fun n slack s hovr hfreeze => tileSetpointLoop_frozen hovr hfreeze, ?_,
    fun n s hn hon => droopDetect_parts hn hon, ?_, ?_,
    fun n s hn hus hbind hop hon => tileIdleGate_gated hn hus hbind hop hon, fun n s h => tileIdleGate_never h, ?_,
    fun s h => periodicSelfTest_never h, ?_, ?_⟩
  · intro n slack s hn hon hseal hovr
    obtain ⟨htile, -⟩ := setPoint_parts n (clampN (10 * vMin s n) (10 * vMax s n) (10 * fld s (pageTile n) Reg.TILE_LOOP_CTRL_V_OVR_MV))
      (clampN (mhzMin s n) (mhzMax s n) (fld s (pageTile n) Reg.TILE_LOOP_CTRL_TCLK_OVR_MHZ)) s
    exact ⟨_, tileSetpointLoop_override hn hon hseal hovr, congrArg TileSt.volt htile, congrArg TileSt.mhz htile⟩
  · intro n s hn hon hseal hovr hfreeze hlo hhi hflo hfhi
    obtain ⟨htile, hbytes⟩ := setPoint_parts n ((tile s n).volt + 25) (tile s n).mhz s
    exact ⟨_, tileSetpointLoop_stepsUp hn hon hseal hovr hfreeze hlo hhi hflo hfhi, by rw [htile], by rw [htile], hbytes⟩
  · intro w d s
    obtain ⟨hduty, hinput⟩ := decided_reads w d s
    refine ⟨_, powerLimitDecision_eq w d s, ?_, ?_, ?_, sameBytes_decision _ _ _ _ s⟩
    · rw [fld_decision (by decide) (by decide) (by decide) (by decide), hduty]
    · rw [fld_decision (by decide) (by decide) (by decide) (by decide), hinput]
    · exact powerLimitDecision_keeps (φ := fun s => s.power.hottest) (fun _ _ => congrArg Power.hottest (raiseSrc_power ..))
        (fun _ => congrArg Power.hottest (count_power ..)) (fun _ _ _ => rfl) _ _ w d s
  · intro w d s hovr hfreeze hlt
    refine ⟨_, powerLimitDecision_eq w d s, ?_, ?_⟩
    · rw [fld_decision (by decide) (by decide) (by decide) (by decide), (decided_reads w d s).1, nextDuty_frozen hovr hfreeze,
        Nat.mod_eq_of_lt hlt]
    · rw [nextDuty_frozen hovr hfreeze, dutyTaken, if_pos rfl,
        limitShown_keeps (φ := State.tiles) (fun _ _ => raiseSrc_tiles ..)]
      exact setFlds_tiles ..
  · intro n s hint hnext hbind hop
    obtain ⟨hstate, harray, htest⟩ := startSelfTest_reads n (modPower (fun p => { p with nextTest := (n + 1) % 64 }) s)
    exact ⟨_, periodicSelfTest_next hint hnext hbind hop, hstate, harray, htest⟩
  · intro i l s hvaux hoff htrip hi hon hr
    exact tempSample_trips (by simp [hvaux, hoff, htrip]) hi hon hr
  · intro i l s hvaux hoff htrip hi hon hcool
    refine ⟨_, tempSample_cool (by simp [hvaux, hoff, htrip]) hcool, ?_, ?_, sameBytes_of_parts ?_ ?_ ?_, fld_tempsShown_sampled _ hi hon⟩
    · exact (tempsShown_sampled_keeps (φ := fun s => s.power.tripped) (fun _ _ => rfl) (fun _ _ _ => rfl)
        (fun _ => congrArg Power.tripped (raiseSrc_power ..)) _ _ _).trans htrip
    · exact (tempsShown_sampled_keeps (φ := fun s => s.power.off) (fun _ _ => rfl) (fun _ _ _ => rfl)
        (fun _ => congrArg Power.off (raiseSrc_power ..)) _ _ _).trans hoff
    · exact tempsShown_sampled_keeps (φ := State.mem) (fun _ _ => rfl) (fun _ _ _ => rfl) (fun _ => raiseSrc_mem ..) _ _ _
    · exact tempsShown_sampled_keeps (φ := State.cache) (fun _ _ => rfl) (fun _ _ _ => rfl) (fun _ => raiseSrc_cache ..) _ _ _
    · exact tempsShown_sampled_keeps (φ := State.coh) (fun _ _ => rfl) (fun _ _ _ => rfl) (fun _ => raiseSrc_coh ..) _ _ _

end Sys2Proof.Machine
end

section
/-! Registers of a guest, and what fences its site (R29, R357 to R370): what a fence leaves, and the settled statement about them. -/

namespace Sys2Proof.Machine

/-! The binding of a page past errors and interrupts -/

/-- The field lies at another place of a page than `BINDING.STATE`. -/
def offBinding (g : Field) : Bool :=
  decide (g.lo < 64) && (g.lo != 8 || (decide (g.off < 0x10000) && g.off != 0x70))

theorem bindState_setFld_off {p q : Nat} {g : Field} (v : Nat) (s : State) (hg : offBinding g = true) :
    bindState (setFld q g v s) p = bindState s p := by
  refine fld_setFld_ne v s ?_
  simp only [offBinding, Bool.and_eq_true, Bool.or_eq_true, bne_iff_ne, decide_eq_true_eq] at hg
  simp only [fieldKey, Reg.BINDING_STATE]
  omega

theorem bindState_bump_off {p q n : Nat} {g : Field} (s : State) (hg : offBinding g = true) :
    bindState (bump q g n s) p = bindState s p := bindState_setFld_off _ s hg

@[simp] theorem bindState_raiseIrq (p q mask : Nat) (s : State) : bindState (raiseIrq q mask s) p = bindState s p := by
  rw [bindState, fld_congr (raiseIrq_regs q mask s)]
  simp only [setIrqWord, setFlds_cons, setFlds_nil]
  exact (bindState_setFld_off _ _ (by decide)).trans ((bindState_setFld_off _ _ (by decide)).trans (bindState_setFld_off _ _ (by decide)))

@[simp] theorem bindState_capture (p : Nat) (r : ErrRec) (s : State) : bindState (capture r s) p = bindState s p := by
  simp only [capture]
  split <;> simp (disch := decide) only [bindState_raiseIrq, bindState_setFld_off, bindState_bump_off, setFlds_cons, setFlds_nil]

@[simp] theorem bindState_raiseErr (p : Nat) (r : ErrRec) (s : State) : bindState (raiseErr r s) p = bindState s p := by
  have hlatch (r : ErrRec) (s : State) : bindState (hubFault (latch r s)) p = bindState s p := rfl
  simp only [raiseErr]
  (repeat' split) <;> simp (disch := decide) only [hlatch, bindState_capture, bindState_bump_off] <;> rfl

/-! A fence (R374) -/

/-- What a fence leaves of a register of the site's page that its last steps do not write. -/
theorem fenceSite_reads {n cause : Nat} (detail : Nat) {s : State} (hc : cause < 256) (h : siteLink s n ≠ 9) :
    siteLink (fenceSite n cause detail s) n = 9 ∧ fld (fenceSite n cause detail s) (pageSite n) Reg.SITE_STATE_FENCE_CAUSE = cause ∧
      fld (fenceSite n cause detail s) (pageSite n) Reg.PAGE_STATUS_FENCED = 1 := by
  have hc : cause < 2 ^ Reg.SITE_STATE_FENCE_CAUSE.width := hc
  have hmark (m : Mark) : m.read (fenceSite n cause detail s).regs = m.read (setFlds (pageSite n)
      [(Reg.SITE_STATE_LINK, 9), (Reg.SITE_STATE_FENCE_CAUSE, cause), (Reg.PAGE_STATUS_FENCED, 1)] s).regs := by
    have hanswers (r : Nat) (l : List Header) (s : State) : m.read (l.foldl (fun s h => nodeDownAnswer r .req h s) s).regs = m.read s.regs :=
      foldl_keeps (fun s => m.read s.regs) (fun s h => by simp) l s
    unfold fenceSite
    rw [if_neg h]
    dsimp only
    rw [m.read_raiseErr]
    split
    · split <;> [skip; split] <;> split <;> simp (disch := decide) [hanswers]
    · split <;> simp (disch := decide) [hanswers]
  refine ⟨(hmark (.link n)).trans (?_ : fld (setFlds _ _ s) (pageSite n) Reg.SITE_STATE_LINK = 9),
    (hmark (.cause n)).trans (?_ : fld (setFlds _ _ s) (pageSite n) Reg.SITE_STATE_FENCE_CAUSE = cause),
    (hmark (.fenced n)).trans (?_ : fld (setFlds _ _ s) (pageSite n) Reg.PAGE_STATUS_FENCED = 1)⟩
  · simp (disch := decide) only [setFlds_cons, setFlds_nil, fld_setFld_field, fld_setFld_fits]
  · simp (disch := decide) only [setFlds_cons, setFlds_nil, fld_setFld_field, fld_setFld_fits _ _ hc]
  · simp (disch := decide) only [setFlds_cons, setFlds_nil, fld_setFld_fits]

theorem fld_siteNotice_low {p k n : Nat} {f g : Field} (s : State) (hp : p < 0x400) (hf : f.off < 0x10000) (hl : f.lo < 64)
    (hg : g.off < 0x10000) (hgl : g.lo < 64) : fld (siteNotice k n g s) p f = fld s p f := by
  have hw : p ≠ pageWin k 0 := by simp only [pageWin]; omega
  rw [siteNotice, fld_congr (ctxMsg_regs ..), bump_eq, fld_setFld_page _ _ hw (by decide) hf (by decide) hl,
    fld_setFld_page _ _ hw hg hf hgl hl]

theorem siteOff_railGood (n : Nat) (s : State) : fld (siteOff n s) (pageSite n) Reg.SITE_RAIL_STATUS_RAIL_GOOD = 0 := by
  simp (disch := decide) [siteOff, fld_setFld_field, fld_setFld_fits, -fld_setFld_same]

/-- What the end of a fence leaves: the site's page unbound, and its rail off. -/
theorem fenceSite_closed {n cause : Nat} (detail : Nat) {s : State} (hn : n < 8) (h : siteLink s n ≠ 9) :
    bindState (fenceSite n cause detail s) (pageSite n) = 5 ∧
      fld (fenceSite n cause detail s) (pageSite n) Reg.SITE_RAIL_STATUS_RAIL_GOOD = 0 := by
  have hp : pageSite n < 0x400 := by simp only [pageSite]; omega
  have hunbound (s : State) : bindState (raiseSrc (pageSite n) 1 (unbindPage (pageSite n) 5 s)) (pageSite n) = 5 := by
    rw [raiseSrc, bindState_raiseIrq, bindState_unbindPage _ _ (by decide)]
  have hrail (s : State) : fld (raiseSrc (pageSite n) 1 (unbindPage (pageSite n) 5 s)) (pageSite n) Reg.SITE_RAIL_STATUS_RAIL_GOOD =
      fld s (pageSite n) Reg.SITE_RAIL_STATUS_RAIL_GOOD := by
    rw [raiseSrc, fld_raiseIrq_own _ (by decide) (by decide) (by decide), unbindPage]
    simp (disch := decide) only [setFlds_cons, setFlds_nil, fld_setFld_field]
  have hcoh (c : Coherence) (u : State) : fld { u with coh := c } (pageSite n) Reg.SITE_RAIL_STATUS_RAIL_GOOD =
      fld u (pageSite n) Reg.SITE_RAIL_STATUS_RAIL_GOOD := rfl
  have hlost (bound : Bool) (k gen : Nat) (u : State) : fld (if bound = true then
      siteNotice k n Reg.SITE_NOTICE_LOST (bindEvent k 2 4 n 1 gen [] (siteOff n u)) else siteOff n u)
      (pageSite n) Reg.SITE_RAIL_STATUS_RAIL_GOOD = 0 := by
    split
    · rw [fld_siteNotice_low _ hp (by decide) (by decide) (by decide) (by decide)]
      exact siteOff_railGood n u
    · exact siteOff_railGood n u
  unfold fenceSite
  rw [if_neg h]
  dsimp only
  constructor
  · rw [bindState_raiseErr]
    split
    · split
      · exact hunbound _
      · rw [bindState_opEnd]
        split
        · rw [bindState_setFld_off _ _ (by decide), hunbound]
        · exact hunbound _
    · exact hunbound _
  · rw [fld_raiseErr_own _ _ hp (by decide) (by decide) (by decide)]
    split
    · split
      · exact (hrail _).trans ((hcoh _ _).trans (hlost _ _ _ _))
      · rw [fld_opEnd_own _ (by decide) (by decide) (by decide)]
        split
        · rw [fld_setFld_field _ _ (by decide)]
          exact (hrail _).trans ((hcoh _ _).trans (hlost _ _ _ _))
        · exact (hrail _).trans ((hcoh _ _).trans (hlost _ _ _ _))
    · exact (hrail _).trans ((hcoh _ _).trans (hlost _ _ _ _))

/-! Guest registers (R357) -/

@[simp] theorem fld_answerAccess (fn p off : Nat) (write : Bool) (data q : Nat) (f : Field) (s : State) :
    fld (answerAccess fn p off write data s) q f = fld s q f := rfl
@[simp] theorem site_answerAccess (fn p off : Nat) (write : Bool) (data n : Nat) (s : State) :
    site (answerAccess fn p off write data s) n = site s n := rfl

theorem sendMgmt_regReads (n type : Nat) (args : List Nat) (body : List Byte) (s : State) :
    (site (sendMgmt n type args body s) n).regReads = (site s n).regReads := by
  simp [sendMgmt]

theorem sendMgmt_out (n type : Nat) (args : List Nat) (body : List Byte) (s : State) :
    (sendMgmt n type args body s).out = .kpp n type args body :: s.out := rfl

section
variable {fn n off width : Nat} {s : State}

theorem guestRegAccess_eq (write : Bool) (data : Nat) (hn : n < 8) (hoff : off < 0x8000) (hwidth : width = 4 ∨ width = 8)
    (halign : off % width = 0) : exec (.guestRegAccess fn n off width write data) s =
      .next (guestReg fn n off width write data (dropShadow fn (pageSite n) s)) :=
  congrArg Host.Outcome.next (if_neg (by omega))

/-- The window of a bound, SEALED site is closed. -/
theorem guestReg_sealed (write : Bool) (data : Nat) (hbind : bindState s (pageSite n) = 1)
    (hseal : fld s (pageSite n) Reg.BINDING_SEALED = 1) : guestReg fn n off width write data s =
      answerAccess fn (pageSite n) (0x8000 + off) write 0 (bump (pageSite n) Reg.SITE_STATUS_REG_BLOCKED 1 s) :=
  if_pos ⟨hbind, by simp [flag, hseal]⟩

theorem guestReg_open (hopen : bindState s (pageSite n) ≠ 1 ∨ fld s (pageSite n) Reg.BINDING_SEALED = 0) :
    ¬ (bindState s (pageSite n) = 1 ∧ flag s (pageSite n) Reg.BINDING_SEALED = true) := by
  simp only [flag, bne_iff_ne]
  omega

theorem guestReg_read (data : Nat) (hopen : bindState s (pageSite n) ≠ 1 ∨ fld s (pageSite n) Reg.BINDING_SEALED = 0)
    (hlink : siteLink s n = 5 ∨ siteLink s n = 7) : guestReg fn n off width false data s =
      sendMgmt n 0xD [off, width] [] (modSite n (fun x => { x with regReads := x.regReads ++ [⟨fn, off, width⟩] }) s) :=
  (if_neg (guestReg_open hopen)).trans (if_pos hlink)

theorem guestReg_write (data : Nat) (hopen : bindState s (pageSite n) ≠ 1 ∨ fld s (pageSite n) Reg.BINDING_SEALED = 0)
    (hlink : siteLink s n = 5 ∨ siteLink s n = 7) : guestReg fn n off width true data s =
      answerAccess fn (pageSite n) (0x8000 + off) true 0 (sendMgmt n 0xE [off, width, data % 2 ^ (8 * width)] [] s) := by
  rw [guestReg, if_neg (guestReg_open hopen), if_pos rfl, if_pos hlink]

/-- A read that the guest does not answer is answered with all ones (R357). -/
theorem endGuestRead_late {r : GuestRead} {rest : List GuestRead} (h : (site s n).regReads = r :: rest) :
    (site (endGuestRead n none s) n).regReads = rest ∧ fld (endGuestRead n none s) (pageSite n) Reg.SITE_STATUS_REG_TIMEOUT = 1 ∧
      (endGuestRead n none s).out = .regData r.fn (pageSite n) (0x8000 + r.off) (2 ^ (8 * r.width) - 1) :: s.out := by
  have hones : (2 ^ (8 * r.width) - 1) % 2 ^ (8 * r.width) = 2 ^ (8 * r.width) - 1 :=
    Nat.mod_eq_of_lt (Nat.sub_lt (Nat.two_pow_pos _) Nat.one_pos)
  have hanswer : endGuestRead n none s = answerAccess r.fn (pageSite n) (0x8000 + r.off) false (2 ^ (8 * r.width) - 1)
      (setFld (pageSite n) Reg.SITE_STATUS_REG_TIMEOUT 1 (setSite n { site s n with regReads := rest } s)) := by
    simp [endGuestRead, h, hones]
  rw [hanswer]
  refine ⟨?_, ?_, ?_⟩
  · simp
  · rw [fld_answerAccess, fld_setFld_fits _ _ (by decide)]
  · simp [answerAccess, emit]

end

/-! Attestation on request (R361) -/

theorem attestEnd_late {n : Nat} {s : State} (hn : n < 8) (hwhy : (site s n).why = .op) :
    (site (attestEnd n none s) n).why = .none ∧ fld (attestEnd n none s) (pageSite n) Reg.SITE_STATE_ATTESTED = 0 ∧
      siteLink (attestEnd n none s) n = siteLink s n := by
  have hp : pageSite n < 0x400 := by simp only [pageSite]; omega
  unfold attestEnd
  simp only [hwhy, Option.getD_none, Option.isSome_none, Bool.false_eq_true, if_false, b2n]
  refine ⟨?_, ?_, siteLink_congr ?_⟩
  · (repeat' split) <;> simp [List.range_succ]
  · (repeat' split) <;>
      simp (disch := decide) [fld_opEnd_own, fld_raiseErr_own _ _ hp, raiseSrc, fld_raiseIrq_own, fld_setFld_fits, -fld_setFld_same]
  · (repeat' split) <;> simp (disch := decide) [List.range_succ]

/-- Settles O35: the accesses by the rules of `guestReg`, the fences by `fenceSite_reads` and `fenceSite_closed`. -/
theorem siteRegistersAndBounds : Obligations.SiteRegistersAndBounds := by
  unfold Obligations.SiteRegistersAndBounds
  refine ⟨?_, ?_, ?_, ?_, ?_, ?_, ?_, ?_, ?_, ?_, ?_⟩
  · intro fn n off width data s hn hoff hwidth halign hopen hlink
    refine ⟨⟨_, (guestRegAccess_eq false data hn hoff hwidth halign).trans
      (congrArg Host.Outcome.next (guestReg_read data hopen hlink)), ?_⟩, ⟨_, (guestRegAccess_eq true data hn hoff hwidth halign).trans
      (congrArg Host.Outcome.next (guestReg_write data hopen hlink)), ?_, ?_⟩⟩
    · rw [sendMgmt_regReads, site_modSite_same]
      rfl
    · rw [site_answerAccess, sendMgmt_regReads]
      rfl
    · rw [answerAccess_out, sendMgmt_out]
      rfl
  · intro fn n off width data write s hn hoff hwidth halign hbind hseal
    refine ⟨_, (guestRegAccess_eq write data hn hoff hwidth halign).trans
      (congrArg Host.Outcome.next (guestReg_sealed write data hbind hseal)), rfl, answerAccess_out _ _ _ _ _ _, ?_⟩
    exact (sameFields_setFld (pageSite n) Reg.SITE_STATUS_REG_BLOCKED _ (dropShadow fn (pageSite n) s)).congr_regs rfl rfl
  · intro n r rest s hn hreads
    exact ⟨_, congrArg Host.Outcome.next (if_pos hn), endGuestRead_late hreads⟩
  · intro n s hn hlink hpieces
    obtain ⟨hlost, hcause, hshown⟩ := fenceSite_reads (n := n) (cause := 9) 0 (s := s) (by decide) (by omega)
    exact ⟨_, congrArg Host.Outcome.next (if_pos ⟨hn, hlink, by simpa using hpieces⟩), hlost, hcause,
      (fenceSite_closed 0 hn (by omega)).1, hshown⟩
  · intro n s hruns hpausing
    obtain ⟨hn, hlo, hhi⟩ : n < 8 ∧ 5 ≤ siteLink s n ∧ siteLink s n ≤ 7 := by simpa [siteRuns, and_assoc] using hruns
    obtain ⟨hlost, hcause, -⟩ := fenceSite_reads (n := n) (cause := 8) 0 (s := s) (by decide) (by omega)
    exact ⟨_, congrArg Host.Outcome.next (if_pos ⟨hruns, .inl hpausing⟩), hlost, hcause, (fenceSite_closed 0 hn (by omega)).1⟩
  · intro n s hn hlink
    obtain ⟨hlost, hcause, -⟩ := fenceSite_reads (n := n) (cause := 7) 0 (s := s) (by decide) (by omega)
    exact ⟨_, congrArg Host.Outcome.next (if_pos ⟨hn, hlink⟩), hlost, hcause, (fenceSite_closed 0 hn (by omega)).1⟩
  · intro n s hon
    obtain ⟨hn, hlo, hhi⟩ : n < 8 ∧ 1 ≤ siteLink s n ∧ siteLink s n ≤ 8 := by simpa [railOn, and_assoc] using hon
    obtain ⟨hlost, hcause, -⟩ := fenceSite_reads (n := n) (cause := 1) 0 (s := s) (by decide) (by omega)
    exact ⟨_, congrArg Host.Outcome.next (if_pos hon), hlost, hcause, fenceSite_closed 0 hn (by omega)⟩
  · intro n s hon hramp
    obtain ⟨hn, hlo, hhi⟩ : n < 8 ∧ 1 ≤ siteLink s n ∧ siteLink s n ≤ 8 := by simpa [railOn, and_assoc] using hon
    obtain ⟨hlost, hcause, -⟩ := fenceSite_reads (n := n) (cause := 2) 0 (s := s) (by decide) (by omega)
    exact ⟨_, congrArg Host.Outcome.next (if_pos ⟨hon, by simp [hramp]⟩), hlost, hcause, (fenceSite_closed 0 hn (by omega)).1⟩
  · intro n s hramp
    exact congrArg Host.Outcome.next (if_neg (by simp [hramp]))
  · intro n s hup hwhy
    have hn : n < 8 := by
      have h : (n < 8 ∧ 3 ≤ siteLink s n) ∧ siteLink s n ≤ 8 := by simpa [linkUp] using hup
      exact h.1.1
    exact ⟨_, congrArg Host.Outcome.next (if_pos ⟨hup, by simp [hwhy]⟩), attestEnd_late hn hwhy⟩
  · intro n s hn hlo hhi
    exact ⟨_, congrArg Host.Outcome.next (if_pos ⟨hn, hlo, hhi⟩), startFailed_reads s (by decide)⟩

end Sys2Proof.Machine
end

section
/-! Heartwood's mailbox (R37, R38, R445 to R463): how its commands complete, and what each that needs no wipe comes to. -/

namespace Sys2Proof.Machine

/-! Completion (R462, R463) -/

theorem mbxEnd_otp (code : Nat) (resp : List Byte) (s : State) : (mbxEnd code resp s).heart.otp = s.heart.otp := by
  simp [mbxEnd]

theorem mbxEnd_meas (code : Nat) (resp : List Byte) (s : State) : (mbxEnd code resp s).heart.meas = s.heart.meas := by
  simp [mbxEnd]

theorem fld_mbxEnd {p : Nat} {f : Field} (code : Nat) (resp : List Byte) (s : State) (hp : p ≠ mbxPage) (hf : 0x100 ≤ f.off)
    (hf' : f.off < 0x10000) (hl : f.lo < 64) : fld (mbxEnd code resp s) p f = fld s p f := by
  simp (disch := decide) only [mbxEnd, raiseSrc, fld_raiseIrq_own _ hf hf' hl, setFlds_cons, setFlds_nil]
  have hne {g : Field} (hg : g.off < 0x10000) (hgl : g.lo < 64) : fieldKey p f ≠ fieldKey mbxPage g := fieldKey_ne_page hp hg hf' hgl hl
  simp (disch := decide) only [fld_setFld_ne _ _ (hne _ _)]
  rfl

theorem mbxEnd_code {code : Nat} (resp : List Byte) (s : State) (h : code < 256) :
    fld (mbxEnd code resp s) mbxPage Reg.MBX_STATUS_CODE = code := by
  have h : code < 2 ^ Reg.MBX_STATUS_CODE.width := h
  simp (disch := decide) only [mbxEnd, raiseSrc, fld_raiseIrq_own, setFlds_cons, setFlds_nil, fld_setFld_field, fld_setFld_fits _ _ h]

theorem showOtp_heart (s : State) : (showOtp s).heart = s.heart := showOtp_keeps (φ := State.heart) (fun _ _ => rfl) s

theorem otpEnd_otp (code : Nat) (s : State) : (otpEnd code s).heart.otp = s.heart.otp := by
  rw [otpEnd, mbxEnd_otp]
  split
  · simp [bump_eq, showOtp_heart]
  · simp

theorem otpEnd_code {code : Nat} (s : State) (h : code < 256) : fld (otpEnd code s) mbxPage Reg.MBX_STATUS_CODE = code :=
  mbxEnd_code [] _ h

/-- A command that fails leaves its code (R463). -/
theorem otpEnd_lastError {code : Nat} (s : State) (h : code < 256) (h0 : code ≠ 0) :
    fld (otpEnd code s) lcPage Reg.OTP_STATUS_LAST_ERROR = code := by
  have h : code < 2 ^ Reg.OTP_STATUS_LAST_ERROR.width := h
  rw [otpEnd, fld_mbxEnd _ _ _ (by decide) (by decide) (by decide) (by decide), if_neg h0, raiseSrc,
    fld_raiseIrq_own _ (by decide) (by decide) (by decide), fld_setFld_fits _ _ h]

theorem mbxCmd_fits {len : Nat} (f : State → State) (s : State) (h : len ≤ 16384) : mbxCmd len f s = f s := if_neg (by omega)

theorem mbxCmd_long {len : Nat} (f : State → State) (s : State) (h : 16384 < len) : mbxCmd len f s = mbxEnd 0x0A [] s := if_pos h

/-! Measurements and thermometers (R445, R451) -/

section
variable {len arg v : Nat} {s : State}

theorem extend_register (h : 8 ≤ arg % 16) :
    exec (.extend 64 arg) s = .next (mbxEnd 0 [] (extendMeas (arg % 16) (mbxBody s 64) s)) :=
  congrArg Host.Outcome.next ((mbxCmd_fits _ s (by decide)).trans ((if_neg (by omega)).trans (if_neg (by simp))))

theorem extendMeas_register (i : Nat) (v : List Byte) (s : State) : Tab.get 0 (extendMeas i v s).heart.meas i =
    Config.sha512 (leBytes 64 (Tab.get 0 s.heart.meas i) ++ v) % 2 ^ 512 := Tab.get_put_same _ _ _ _

theorem extend_boot (hlen : len ≤ 16384) (h : arg % 16 < 8) : exec (.extend len arg) s = .next (mbxEnd 0x02 [] s) :=
  congrArg Host.Outcome.next ((mbxCmd_fits _ s hlen).trans (if_pos h))

theorem rollbackCommit_raises (hlen : len ≤ 16384) (hlo : 0 < arg % 16) (hhi : arg % 16 ≤ 4) (hlc : 1 ≤ lifeCycle s)
    (hlc' : lifeCycle s ≤ 3) (hvpp : vppOn s = true) (hrun : Tab.get 0 s.heart.running (arg % 16) = v + 1)
    (hthermo : Tab.get 0 s.heart.otp.thermo (arg % 16) ≤ v) : exec (.rollbackCommit len arg) s =
      .next (otpEnd 0 (modOtp (fun o => { o with thermo := Tab.put 0 o.thermo (arg % 16) v }) s)) := by
  refine congrArg Host.Outcome.next ((mbxCmd_fits _ s hlen).trans ?_)
  dsimp only
  rw [hrun, if_neg (by omega), if_neg (by omega), if_neg (by simp [hvpp]), if_neg (by omega)]
  rfl

theorem rollbackCommit_unpowered (hlen : len ≤ 16384) (hlo : 0 < arg % 16) (hhi : arg % 16 ≤ 4) (hlc : 1 ≤ lifeCycle s)
    (hlc' : lifeCycle s ≤ 3) (hvpp : vppOn s = false) (hrun : Tab.get 0 s.heart.running (arg % 16) = v + 1) :
    exec (.rollbackCommit len arg) s = .next (otpEnd 0x05 s) := by
  refine congrArg Host.Outcome.next ((mbxCmd_fits _ s hlen).trans ?_)
  dsimp only
  rw [hrun, if_neg (by omega), if_neg (by omega), if_pos (by simp [hvpp])]

end

/-! Policies, keys and OTP items (R37, R38, R453, R457) -/

theorem debugPolicy_taken {new : Nat} {s : State} (hlc : lifeCycle s = 2 ∨ lifeCycle s = 3) (hnew : leAt (mbxBody s 266) 0 1 = new)
    (hle : new ≤ 3) (hvpp : vppOn s = true)
    (hsig : sigFate s false ((mbxBody s 266).drop 1) (signedText s ((mbxBody s 266).take 1)) = 0)
    (hbits : policyValues.getD new 0 ||| policyValues.getD s.heart.otp.debugPolicy 0 = policyValues.getD new 0) :
    exec (.debugPolicy 266) s =
      .next (otpEnd 0 (modOtp (fun o => { o with policy := List.replicate 3 (policyValues.getD new 0) }) s)) := by
  refine congrArg Host.Outcome.next ((mbxCmd_fits _ s (by decide)).trans ?_)
  dsimp only
  rw [hnew, hsig, if_neg (by omega), if_neg (by omega), if_neg (by simp), if_neg (by simp [hvpp]), if_neg (not_not.mpr hbits)]

theorem revokeKey_owner {slot : Nat} {s : State} (hkind : leAt (mbxBody s 267) 0 1 = 1) (hslot : leAt (mbxBody s 267) 1 1 = slot)
    (hle : slot ≤ 3) (hlc : lifeCycle s = 2 ∨ lifeCycle s = 3) (hvpp : vppOn s = true)
    (hsig : sigFate s false ((mbxBody s 267).drop 2) (signedText s ((mbxBody s 267).take 2)) = 0) :
    exec (.revokeKey 267) s =
      .next (otpEnd 0 (modOtp (fun o => { o with ownerRevoked := setBit o.ownerRevoked slot }) s)) := by
  have hvendor : ((1 : Nat) == 0) = false := rfl
  refine congrArg Host.Outcome.next ((mbxCmd_fits _ s (by decide)).trans ?_)
  dsimp only
  rw [hkind, hslot, hvendor, hsig, if_neg (by simp), if_neg (by omega), if_neg (by omega), if_neg (by simp), if_neg (by simp [hvpp]),
    if_neg (by simp)]
  rfl

theorem otpProgram_done {item : OtpItem} {s : State} (h : otpItemFate s item = 0) :
    exec (.otpProgram item) s = .next (otpEnd 0 (modOtp (otpItem item) s)) := by
  refine congrArg Host.Outcome.next ?_
  rw [h, if_pos rfl]

theorem otpProgram_refused {item : OtpItem} {s : State} (h : otpItemFate s item ≠ 0) :
    exec (.otpProgram item) s = .next (otpEnd (otpItemFate s item) s) := by
  refine congrArg Host.Outcome.next ?_
  rw [if_neg h]

theorem otpItemFate_lt (s : State) (item : OtpItem) : otpItemFate s item < 256 := by
  cases item <;> simp only [otpItemFate] <;> split_ifs <;> decide

/-! The nonce (R452, R460) -/

theorem leBytes_ofBytes (l : List Byte) : leBytes l.length (ofBytes l) = l := by
  induction l with
  | nil => rfl
  | cons b l ih =>
    have hb := b.isLt
    simp only [List.length_cons, leBytes, ofBytes]
    rw [show (b.toNat + 256 * ofBytes l) / 256 = ofBytes l by omega, ih]
    congr 1
    apply BitVec.eq_of_toNat_eq
    rw [BitVec.toNat_ofNat]
    omega

theorem slice_length (l : List Byte) (o n : Nat) : (slice l o n).length = n := by simp [slice]

theorem leBytes_leAt (l : List Byte) (o n : Nat) : leBytes n (leAt l o n) = slice l o n := by
  have h := leBytes_ofBytes (slice l o n)
  rwa [slice_length] at h

theorem ofBytes_lt (l : List Byte) : ofBytes l < 256 ^ l.length := by
  induction l with
  | nil => decide
  | cons b l ih =>
    have hb := b.isLt
    simp only [ofBytes, List.length_cons, pow_succ]
    omega

theorem nonceBytes_congr {s t : State}
    (h : ∀ i, i < 4 → fld t debugPage (Reg.DEBUG_NONCE.at 8 i) = fld s debugPage (Reg.DEBUG_NONCE.at 8 i)) :
    nonceBytes t = nonceBytes s := by
  unfold nonceBytes
  congr 1
  exact List.map_congr_left fun i hi => by rw [h i (List.mem_range.mp hi)]

theorem nonceBytes_consumed (s : State) : nonceBytes (consumeNonce s) = List.replicate 32 0 := by
  have hz : leBytes 8 0 = List.replicate 8 0 := by decide
  simp (disch := decide) [nonceBytes, consumeNonce, List.range_succ, fld_setFld_field, hz]

theorem nonceField_place {i : Nat} (hi : i < 4) : 0x100 ≤ (Reg.DEBUG_NONCE.at 8 i).off ∧ (Reg.DEBUG_NONCE.at 8 i).off < 0x10000 ∧
    (Reg.DEBUG_NONCE.at 8 i).lo < 64 := by
  simp only [Field.at, Reg.DEBUG_NONCE]
  omega

theorem nonceBytes_otpEnd {code : Nat} (s : State) (h : code ≠ 0) : nonceBytes (otpEnd code s) = nonceBytes s := by
  refine nonceBytes_congr fun i hi => ?_
  obtain ⟨ho, ho', hl⟩ := nonceField_place hi
  rw [otpEnd, if_neg h, fld_mbxEnd _ _ _ (by decide) ho ho' hl, raiseSrc, fld_raiseIrq_own _ ho ho' hl,
    fld_setFld_page _ _ (by decide) (by decide) ho' (by decide) hl]

theorem slice_eq_take_drop {l : List Byte} {o n : Nat} (h : o + n ≤ l.length) : slice l o n = (l.drop o).take n := by
  apply List.ext_getElem
  · simp [slice]; omega
  · intro i hi _
    have hi : i < n := by simpa [slice] using hi
    have hl : o + i < l.length := by omega
    simp [slice, List.headD_eq_head?_getD, List.head?_drop, List.getElem?_eq_getElem hl]

/-- The four words of a drawn nonce are its 32 bytes (R460). -/
theorem nonceBytes_drawn {b : List Byte} (hb : b.length = 32) (s : State) :
    nonceBytes (setFlds debugPage ((List.range 4).map (fun i => (Reg.DEBUG_NONCE.at 8 i, leAt b (8 * i) 8))) s) = b := by
  have hlt (o i : Nat) : leAt b o 8 < 2 ^ (Reg.DEBUG_NONCE.at 8 i).width :=
    (ofBytes_lt (slice b o 8)).trans_le (by rw [slice_length]; show 256 ^ 8 ≤ 2 ^ 64; decide)
  have hword (o : Nat) (h : o + 8 ≤ 32) : leBytes 8 (leAt b o 8) = (b.drop o).take 8 := by
    rw [leBytes_leAt, slice_eq_take_drop (by omega)]
  have hbytes : b = (b.drop 0).take 8 ++ ((b.drop 8).take 8 ++ ((b.drop 16).take 8 ++ (b.drop 24).take 8)) := by
    have h3 : (b.drop 24).take 8 = b.drop 24 := List.take_of_length_le (by rw [List.length_drop]; omega)
    have h2 := List.take_append_drop 8 (b.drop 16)
    have h1 := List.take_append_drop 8 (b.drop 8)
    have h0 := List.take_append_drop 8 (b.drop 0)
    rw [List.drop_drop] at h0 h1 h2
    rw [h3, h2, h1, h0, List.drop_zero]
  simp only [nonceBytes, List.range_succ, List.range_zero, List.nil_append, List.map_cons, List.map_nil, List.cons_append,
    setFlds_cons, setFlds_nil, List.flatten_cons, List.flatten_nil, List.append_nil]
  simp (disch := decide) only [fld_setFld_field, fld_setFld_fits _ _ (hlt _ _), hword]
  exact hbytes.symm

end Sys2Proof.Machine
end

section
/-! Wipes and destroyed keys (R315, R454, R459): what they leave of OTP, kiln pools, ember images and sessions. -/

namespace Sys2Proof.Machine

/-! Bytes written past the hub cache and the agents -/

section
variable {β : Type} {φ : State → β} (hφ : ∀ s m c h, φ { s with mem := m, cache := c, coh := h } = φ s)
include hφ

theorem recallLine_keeps (l : Line) (s : State) : φ (recallLine l s) = φ s := by
  have hag (a pa : Nat) (l : AgLine) (s : State) : φ (setAgLine a pa l s) = φ s := hφ s s.mem s.cache _
  have hput (l : Line) (s : State) : φ (putLine l s) = φ s := hφ s s.mem _ s.coh
  exact (hput _ _).trans (foldl_keeps φ (fun s a => hag _ _ _ s) _ _)

theorem writeByte_keeps (pa : Nat) (b : Byte) (s : State) : φ (writeByte pa b s) = φ s := by
  have hmem (m : Mem) (s : State) : φ (setMem m s) = φ s := hφ s m s.cache s.coh
  have hput (l : Line) (s : State) : φ (putLine l s) = φ s := hφ s s.mem _ s.coh
  have hrecall (l : Line) (s : State) : φ (if l.dir = 0 then s else recallLine l s) = φ s := by
    split
    · rfl
    · exact recallLine_keeps hφ l s
  unfold writeByte
  split
  · exact hmem _ _
  · dsimp only
    split
    · exact (hmem _ _).trans (hrecall _ _)
    · split
      · exact (hput _ _).trans (hrecall _ _)
      · exact (hmem _ _).trans (hrecall _ _)

theorem writeBytes_keeps (pa : Nat) (l : List Byte) (s : State) : φ (writeBytes pa l s) = φ s := by
  induction l generalizing pa s with
  | nil => rfl
  | cons b l ih => exact (ih _ _).trans (writeByte_keeps hφ pa b s)

theorem markDirty_keeps (pa : Nat) (s : State) : φ (markDirty pa s) = φ s := by
  unfold markDirty
  dsimp only
  split
  · rfl
  · exact writeBytes_keeps hφ _ _ s

theorem emberUnsent_keeps (k : Nat) (h : Header) (s : State) : φ (emberUnsent k h s) = φ s := by
  unfold emberUnsent
  split
  · exact markDirty_keeps hφ _ s
  · rfl

end

/-! The end of a session (R435) -/

/-- What a reading must not depend on to pass the end of a session: bytes, messages, errors, passes, operations, journals and register
fields. -/
structure PastSession {β : Type} (φ : State → β) : Prop where
  bytes : ∀ s m c h, φ { s with mem := m, cache := c, coh := h } = φ s
  answer : ∀ h st u s, φ (respond h st u s) = φ s
  passes : ∀ n ids s, φ (failPasses n ids s) = φ s
  field : ∀ p f v s, φ (setFld p f v s) = φ s
  point : ∀ k e s, φ (setEmber k e s) = φ s
  source : ∀ p i s, φ (raiseSrc p i s) = φ s
  error : ∀ r s, φ (raiseErr r s) = φ s
  ended : ∀ p r s, φ (opEnd p r s) = φ s

section
variable {β : Type} {φ : State → β} (hφ : PastSession φ)
include hφ

theorem PastSession.failWaiting (i : Nat) (s : State) :
    φ (failWaiting i s) = φ (modSession i (fun x => { x with waiting := [] }) s) :=
  foldl_keeps φ (fun s h => (hφ.answer _ _ _ _).trans (by
    split
    · exact emberUnsent_keeps hφ.bytes _ _ s
    · rfl)) _ _

theorem PastSession.journalLost (k : Nat) (s : State) : φ (journalLost k s) = φ s := by
  unfold Machine.journalLost
  refine (hφ.error _ _).trans ((hφ.field _ _ _ _).trans ((hφ.source _ _ _).trans ?_))
  dsimp only
  split
  · exact (hφ.source _ _ _).trans ((hφ.passes _ _ _).trans (hφ.point _ _ _))
  · rfl

theorem PastSession.sessionGone (i : Nat) (s : State) : φ (sessionGone i s) = φ s := by
  refine (foldl_keeps φ (fun s k => ?_) _ _).trans (hφ.passes _ _ _)
  split
  · split
    · rfl
    · exact hφ.journalLost k s
  · rfl

theorem PastSession.sessionFree (i : Nat) (s : State) :
    φ (sessionFree i s) = φ (modSession i Session.cleared (Machine.failWaiting i s)) := by
  unfold Machine.sessionFree
  dsimp only
  split
  · split
    · exact (hφ.ended _ _ _).trans (hφ.sessionGone _ _)
    · exact hφ.sessionGone _ _
  · exact hφ.sessionGone _ _

end

theorem pastSession_heart : PastSession State.heart :=
  ⟨fun _ _ _ _ => rfl, respond_heart, fun _ _ _ => rfl, fun _ _ _ _ => rfl, fun _ _ _ => rfl, raiseSrc_heart, raiseErr_heart, opEnd_heart⟩

theorem pastSession_kiln : PastSession State.kiln :=
  ⟨fun _ _ _ _ => rfl, respond_kiln, fun _ _ _ => rfl, fun _ _ _ _ => rfl, fun _ _ _ => rfl, raiseSrc_kiln, raiseErr_kiln, opEnd_kiln⟩

theorem pastSession_plr : PastSession State.plr :=
  ⟨fun _ _ _ _ => rfl, respond_plr, fun _ _ _ => rfl, fun _ _ _ _ => rfl, fun _ _ _ => rfl, raiseSrc_plr, raiseErr_plr, opEnd_plr⟩

theorem sessionFree_heart (i : Nat) (s : State) : (sessionFree i s).heart = s.heart :=
  (pastSession_heart.sessionFree i s).trans (pastSession_heart.failWaiting i s)

theorem sessionFree_kiln (i : Nat) (s : State) : (sessionFree i s).kiln = s.kiln :=
  (pastSession_kiln.sessionFree i s).trans (pastSession_kiln.failWaiting i s)

theorem session_congr {s t : State} (h : t.plr = s.plr) (i : Nat) : session t i = session s i := by simp only [session, h]

@[simp] theorem session_modSession_same (i : Nat) (f : Session → Session) (s : State) :
    session (modSession i f s) i = f (session s i) := by
  simp [session, modSession, setSession]

theorem session_modSession_ne {i j : Nat} (f : Session → Session) (s : State) (h : j ≠ i) :
    session (modSession i f s) j = session s j := Tab.get_put_ne _ _ _ _ h

/-- A freed session is FREE (R435). -/
theorem sessionFree_st (i : Nat) (s : State) : (session (sessionFree i s) i).st = 0 := by
  rw [session_congr (pastSession_plr.sessionFree i s), session_modSession_same]
  rfl

theorem sessionFree_other {i j : Nat} (s : State) (h : j ≠ i) : session (sessionFree i s) j = session s j := by
  rw [session_congr (pastSession_plr.sessionFree i s), session_modSession_ne _ _ h, session_congr (pastSession_plr.failWaiting i s),
    session_modSession_ne _ _ h]

/-! All sessions, images and keys -/

/-- A session in use is freed. -/
def freeUsed (s : State) (i : Nat) : State := if (session s i).st = 0 then s else sessionFree i s

theorem freeUsed_free (l : List Nat) {i : Nat} {s : State} (h : i ∈ l ∨ (session s i).st = 0) :
    (session (l.foldl freeUsed s) i).st = 0 := by
  induction l generalizing s with
  | nil => exact h.resolve_left List.not_mem_nil
  | cons j l ih =>
    refine ih ?_
    unfold freeUsed
    by_cases hij : i = j
    · subst hij
      right
      split
      · assumption
      · exact sessionFree_st i s
    · rcases h with h | h
      · exact .inl ((List.mem_cons.mp h).resolve_left hij)
      · right
        split
        · exact h
        · rw [sessionFree_other s hij, h]

/-- Ember images and the contexts' keys are gone. -/
def keysGone (s : State) : State :=
  { s with ember := [], ctxs := s.ctxs.map (fun e => (e.1, { e.2 with keys := 0, session := 0, keySlot := false })) }

theorem destroyKeys_eq (s : State) : destroyKeys s =
    (List.range 64).foldl (fun s k => setEmberState k 0 s) (keysGone ((List.range 1024).foldl freeUsed s)) := rfl

/-- What the keys' destruction leaves: sessions FREE, no ember image, OTP and the kiln as they were. -/
theorem destroyKeys_parts (s : State) : (destroyKeys s).heart = s.heart ∧ (destroyKeys s).kiln = s.kiln ∧ (destroyKeys s).ember = [] ∧
    ∀ i, i < 1024 → (session (destroyKeys s) i).st = 0 := by
  have hfreed {β : Type} (φ : State → β) (hfree : ∀ i s, φ (sessionFree i s) = φ s) (s : State) :
      φ ((List.range 1024).foldl freeUsed s) = φ s := foldl_keeps φ (fun s i => by
    unfold freeUsed
    split
    · rfl
    · exact hfree i s) _ s
  have hstates {β : Type} (φ : State → β) (hset : ∀ k s, φ (setEmberState k 0 s) = φ s) (s : State) :
      φ ((List.range 64).foldl (fun s k => setEmberState k 0 s) s) = φ s := foldl_keeps φ (fun s k => hset k s) _ s
  have hkeys {β : Type} (φ : State → β) (hgone : ∀ s, φ (keysGone s) = φ s) (s : State) : φ (keysGone s) = φ s := hgone s
  rw [destroyKeys_eq]
  refine ⟨?_, ?_, ?_, fun i hi => ?_⟩
  · rw [hstates State.heart (fun _ _ => rfl), hkeys State.heart (fun _ => rfl), hfreed State.heart sessionFree_heart]
  · rw [hstates State.kiln (fun _ _ => rfl), hkeys State.kiln (fun _ => rfl), hfreed State.kiln sessionFree_kiln]
  · rw [hstates State.ember (fun _ _ => rfl), keysGone]
  · rw [hstates (fun s => session s i) (fun _ _ => rfl), hkeys (fun s => session s i) (fun _ => rfl)]
    exact freeUsed_free (List.range 1024) (.inl (List.mem_range.mpr hi))

/-- What a wipe of all memory leaves. -/
theorem wipeMem_parts (s : State) : (wipeMem s).heart = s.heart ∧ (wipeMem s).kiln.pools = [] := by
  have htiles {β : Type} (φ : State → β) (htile : ∀ n f s, φ (modTile n f s) = φ s) (s : State) :
      φ ((List.range 64).foldl (fun s n => modTile n (fun t => { t with bank0 := {}, bank1 := {}, acc := [], hist := [] }) s) s) = φ s :=
    foldl_keeps φ (fun s n => htile n _ s) _ s
  unfold wipeMem
  dsimp only
  constructor
  · simp only [showKiln, setFlds_heart]
    exact htiles State.heart (fun _ _ _ => rfl) _
  · simp only [showKiln, setFlds_kiln]
    exact congrArg Kiln.pools (htiles State.kiln (fun _ _ _ => rfl) _)

end Sys2Proof.Machine
end

section
/-! Marks past the end of a context and of a kiln round: what releasing held requests, freeing sessions and coppicing blocks leaves
of another context's phase (R272 to R278, R299 to R316, R416). -/

namespace Sys2Proof.Machine

/-! Operations that leave every register alone -/

@[simp] theorem setTlb_regs (h : Nat) (l : List TlbEnt) (s : State) : (setTlb h l s).regs = s.regs := rfl
@[simp] theorem dropHolder_regs (h k : Nat) (s : State) : (dropHolder h k s).regs = s.regs := rfl
@[simp] theorem beginFrameAsh_regs (f : Nat) (s : State) : (beginFrameAsh f s).regs = s.regs := rfl
@[simp] theorem setSession_regs (i : Nat) (x : Session) (s : State) : (setSession i x s).regs = s.regs := rfl
@[simp] theorem modSession_regs (i : Nat) (f : Session → Session) (s : State) : (modSession i f s).regs = s.regs := rfl
@[simp] theorem setEmber_regs (k : Nat) (e : EmberSt) (s : State) : (setEmber k e s).regs = s.regs := rfl
@[simp] theorem takeFaultSeq_regs (k : Nat) (s : State) : (takeFaultSeq k s).regs = s.regs := rfl
@[simp] theorem enterTorus_regs (plane : Plane) (src : Nat) (h : Header) (units : List Unit256) (s : State) :
    (enterTorus plane src h units s).regs = s.regs := rfl
@[simp] theorem setRound_regs (slot : Nat) (r : KilnRound) (s : State) : (setRound slot r s).regs = s.regs := rfl
@[simp] theorem modRound_regs (slot : Nat) (f : KilnRound → KilnRound) (s : State) : (modRound slot f s).regs = s.regs := rfl
@[simp] theorem setKilnPool_regs (e : Nat) (l : List Nat) (s : State) : (setKilnPool e l s).regs = s.regs := rfl
@[simp] theorem setKilnQueue_regs (e : Nat) (l : List KilnCommit) (s : State) : (setKilnQueue e l s).regs = s.regs := rfl
@[simp] theorem endPut_regs (id status : Nat) (s : State) : (endPut id status s).regs = s.regs := rfl

@[simp] theorem writeBytes_regs (pa : Nat) (l : List Byte) (s : State) : (writeBytes pa l s).regs = s.regs :=
  writeBytes_keeps (φ := State.regs) (fun _ _ _ _ => rfl) pa l s
@[simp] theorem setEntry_regs (pa e : Nat) (s : State) : (setEntry pa e s).regs = s.regs := writeBytes_regs _ _ s
@[simp] theorem markDirty_regs (pa : Nat) (s : State) : (markDirty pa s).regs = s.regs :=
  markDirty_keeps (φ := State.regs) (fun _ _ _ _ => rfl) pa s
@[simp] theorem emberUnsent_regs (k : Nat) (h : Header) (s : State) : (emberUnsent k h s).regs = s.regs :=
  emberUnsent_keeps (φ := State.regs) (fun _ _ _ _ => rfl) k h s

@[simp] theorem dropAll_regs (k : Nat) (s : State) : (dropAll k s).regs = s.regs :=
  foldl_keeps State.regs (fun s h => dropHolder_regs h k s) _ s

@[simp] theorem failWaiting_regs (i : Nat) (s : State) : (failWaiting i s).regs = s.regs :=
  (foldl_keeps State.regs (fun s h => by split <;> simp) _ _).trans (modSession_regs i _ s)

@[simp] theorem clearCovered_regs (p : Nat × Nat) (s : State) : (clearCovered p s).regs = s.regs := by
  unfold clearCovered
  split <;> rfl

@[simp] theorem hostWrite_regs (fn pa : Nat) (data : List Byte) (en : List Bool) (s : State) : (hostWrite fn pa data en s).regs = s.regs :=
  foldl_keeps State.regs (fun s _ => emit_regs _ s) _ s

@[simp] theorem writeParts_regs (c : Nat) (l : List (Nat × Nat)) (d : List Byte) (s : State) : (writeParts c l d s).regs = s.regs := by
  induction l generalizing d s with
  | nil => rfl
  | cons p l ih =>
    refine (ih _ _).trans ?_
    split
    · refine foldl_keeps State.regs ?_ _ _
      exact fun s g => hostWrite_regs c g.1 _ [] s
    · simp

theorem vwrite_regs {h c va : Nat} {data : List Byte} {s t : State} (hw : vwrite h c va data s = .ok t) : t.regs = s.regs := by
  unfold vwrite at hw
  split at hw
  · cases hw
  · obtain rfl := Except.ok.inj hw
    exact writeParts_regs _ _ _ s

@[simp] theorem markAccessed_regs (l : Leaf) (s : State) : (markAccessed l s).regs = s.regs := by
  simp only [markAccessed]
  split <;> simp

@[simp] theorem markRange_regs (k va n : Nat) (s : State) : (markRange k va n s).regs = s.regs :=
  foldl_keeps State.regs (fun s p => by split <;> simp) _ s

@[simp] theorem markAllDirty_regs (l : Leaf) (s : State) : (markAllDirty l s).regs = s.regs := by
  unfold markAllDirty
  split
  · exact foldl_keeps State.regs (fun s j => by simp) _ s
  · simp

@[simp] theorem setCountEntry_regs (k frameNo v : Nat) (s : State) : (setCountEntry k frameNo v s).regs = s.regs := by
  unfold setCountEntry
  split
  · rfl
  · split
    · rename_i hw
      simp [vwrite_regs hw]
    · rfl

@[simp] theorem addCount_regs (k frameNo n : Nat) (s : State) : (addCount k frameNo n s).regs = s.regs := by
  unfold addCount
  split <;> simp

@[simp] theorem noteRegion_regs (k va pa : Nat) (s : State) : (noteRegion k va pa s).regs = s.regs := by
  simp only [noteRegion]
  (repeat' split) <;> simp

@[simp] theorem flushCount_regs (h : Nat) (e : TlbEnt) (s : State) : (flushCount h e s).regs = s.regs := by
  unfold flushCount
  (repeat' split) <;> simp

@[simp] theorem install_regs (h : Nat) (e : TlbEnt) (s : State) : (install h e s).regs = s.regs :=
  foldl_keeps State.regs (fun s x => flushCount_regs h x s) _ _

@[simp] theorem useEntry_regs (h k va n : Nat) (write : Bool) (s : State) : (useEntry h k va n write s).regs = s.regs := by
  simp only [useEntry]
  (repeat' split) <;> simp

/-! What a context's end leaves of the marks -/

section
variable (m : Mark)

/-- A write to a page that holds no mark keeps every mark. -/
theorem Mark.read_setFld_page {p : Nat} (hp : p < 0x18) {g : Field} (hoff : g.off < 0x10000) (hlo : g.lo < 64) (v : Nat) (s : State) :
    m.read (setFld p g v s).regs = m.read s.regs := by
  have hpage : 0x18 ≤ m.page := by cases m <;> simp only [Mark.page, pageSite, pageCtx] <;> omega
  obtain ⟨hoff', hlo'⟩ := m.field_place
  have hne : fieldKey m.page m.field ≠ fieldKey p g := by simp only [fieldKey]; omega
  have h := Tab.get_put_ne (resetOf p g) (resetOf m.page m.field) s.regs (v % 2 ^ g.width) hne
  simp only [Mark.read, setFld, h]

theorem Mark.read_count_page {p : Nat} (hp : p < 0x18) {g : Field} (hoff : g.off < 0x10000) (hlo : g.lo < 64) (n : Nat) (s : State) :
    m.read (count p g n s).regs = m.read s.regs := by
  unfold count
  split
  · rfl
  · exact m.read_setFld_page hp hoff hlo _ s

@[simp] theorem Mark.read_setEmberState (k v : Nat) (s : State) : m.read (setEmberState k v s).regs = m.read s.regs :=
  m.read_setFld _ (by decide) v s

@[simp] theorem Mark.read_journalLost (k : Nat) (s : State) : m.read (journalLost k s).regs = m.read s.regs := by
  simp only [journalLost, Mark.read_raiseErr, Mark.read_setEmberState, Mark.read_raiseSrc]
  split <;> simp

@[simp] theorem Mark.read_sessionGone (i : Nat) (s : State) : m.read (sessionGone i s).regs = m.read s.regs := by
  refine (foldl_keeps (fun s => m.read s.regs) (fun s k => ?_) _ _).trans (by simp)
  (repeat' split) <;> simp

@[simp] theorem Mark.read_sessionFree (i : Nat) (s : State) : m.read (sessionFree i s).regs = m.read s.regs := by
  have hgone (s : State) : m.read (sessionGone i (modSession i Session.cleared (failWaiting i s))).regs = m.read s.regs := by simp
  unfold sessionFree
  dsimp only
  split
  · split
    · exact (m.read_opEnd _ _ _).trans (hgone s)
    · exact hgone s
  · exact hgone s

@[simp] theorem Mark.read_countPlarus (k n : Nat) (s : State) : m.read (countPlarus k n s).regs = m.read s.regs := by
  unfold countPlarus
  split <;> simp (disch := decide)

@[simp] theorem Mark.read_plrControl (i kind : Nat) (body : List Byte) (s : State) :
    m.read (plrControl i kind body s).regs = m.read s.regs := by
  simp only [plrControl, transmit, emit_regs]
  split <;> simp

@[simp] theorem Mark.read_sessionRelease (i : Nat) (s : State) : m.read (sessionRelease i s).regs = m.read s.regs := by
  unfold sessionRelease
  split <;> simp

@[simp] theorem Mark.read_hostRefused (c pa : Nat) (p : Option Pass) (s : State) : m.read (hostRefused c pa p s).regs = m.read s.regs := by
  simp only [hostRefused, failPasses_regs, Mark.read_raiseErr]
  split <;> simp (disch := decide)

@[simp] theorem Mark.read_dataError (c pa : Nat) (p : Option Pass) (s : State) : m.read (dataError c pa p s).regs = m.read s.regs := by
  unfold dataError
  split_ifs
  · exact m.read_hostRefused c pa p s
  · exact m.read_unreachableData c pa p s
  · exact m.read_uncorrectable c pa p s

@[simp] theorem Mark.read_engineSnoop (pa : Nat) (inv : Bool) (s : State) : m.read (engineSnoop pa inv s).regs = m.read s.regs := by
  unfold engineSnoop
  split
  · rfl
  · dsimp only
    split
    · rfl
    · exact m.read_snoopFor _ _ _ _ _

@[simp] theorem Mark.read_queueUnusable (k : Nat) (ids : List Nat) (s : State) : m.read (queueUnusable k ids s).regs = m.read s.regs := by
  simp [queueUnusable]

@[simp] theorem Mark.read_countFault (k : Nat) (s : State) : m.read (countFault k s).regs = m.read s.regs := by
  simp (disch := decide) [countFault]

/-- A fault record that is written leaves the marks. -/
theorem Mark.read_writeFaultRecord {k code level entry page id seq : Nat} {noStall : Bool} {u : StalledUnit} {s t : State}
    (h : writeFaultRecord k code level entry page id seq noStall u s = .written t) : m.read t.regs = m.read s.regs := by
  simp only [writeFaultRecord] at h
  split at h
  · obtain rfl := RecordFate.written.inj h
    simp (disch := decide)
  split at h
  · cases h
  split at h
  · cases h
  split at h
  · cases h
  rename_i hw
  obtain rfl := RecordFate.written.inj h
  split <;> simp (disch := decide) [vwrite_regs hw]

@[simp] theorem Mark.read_translationFault (k code level entry page : Nat) (u : StalledUnit) (s : State) :
    m.read (translationFault k code level entry page u s).regs = m.read s.regs := by
  simp only [translationFault]
  split
  · rfl
  split
  · split
    · rename_i hw
      simp [m.read_writeFaultRecord hw]
    · rfl
    · simp
  split
  · rfl
  split
  · rfl
  split
  · simp
  · simp (disch := decide)
  · rename_i hw
    simp (disch := decide) [m.read_writeFaultRecord hw]

@[simp] theorem Mark.read_accessFailed (k : Nat) (e : AccErr) (u : StalledUnit) (p : Option Pass) (s : State) :
    m.read (accessFailed k e u p s).regs = m.read s.regs := by
  cases e <;> simp [accessFailed]

/-! Packets of guests and requests for translations -/

@[simp] theorem Mark.read_malformedReject (plane : Plane) (src : Nat) (permitted : Bool) (h : Header) (s : State) :
    m.read (malformedReject plane src permitted h s).regs = m.read s.regs := by
  simp only [malformedReject]
  split <;> simp (disch := decide)

/-- The packet that enters the torus leaves the marks: its admission records a priority only. -/
theorem Mark.read_tryAdmit {src : Nat} {plane : Plane} {h : Header} {units : List Unit256} {s t : State}
    (ht : tryAdmit src plane h units s = some t) : m.read t.regs = m.read s.regs := by
  have hprio (v : Nat) (s : State) : m.read (setFld (pageCtx h.ctx) (Reg.REG_DECISION_PRIO.at 8 h.sclass) v s).regs = m.read s.regs :=
    m.read_setFld _ (by simp [offMarks, Field.at, Reg.REG_DECISION_PRIO, Reg.SITE_STATE_LINK, Reg.SITE_STATE_FENCE_CAUSE,
      Reg.PAGE_STATUS_FENCED, Reg.CTX_STATUS_STATE]) v s
  simp only [tryAdmit] at ht
  split at ht
  · cases ht
  split at ht
  · split at ht
    · cases ht
    · obtain rfl := Option.some.inj ht
      rw [enterTorus_regs]
      split
      · exact hprio _ _
      · rfl
  · obtain rfl := Option.some.inj ht
    simp

@[simp] theorem Mark.read_accept (src : Nat) (plane : Plane) (h : Header) (units : List Unit256) (s : State) :
    m.read (accept src plane h units s).regs = m.read s.regs := by
  have hasked (b : State) (hb : b.regs = s.regs) : m.read
      (match tryAdmit src plane h units b with
      | some t => t
      | none => { b with torus := { b.torus with waiting := b.torus.waiting ++ [(src, plane, h, units)] } }).regs = m.read s.regs := by
    split
    · rename_i ht
      rw [m.read_tryAdmit ht, hb]
    · exact congrArg m.read hb
  refine hasked _ ?_
  split <;> rfl

@[simp] theorem Mark.read_inject (src : Nat) (plane : Plane) (h : Header) (units : List Unit256) (s : State) :
    m.read (inject src plane h units s).regs = m.read s.regs := by
  simp only [inject]
  (repeat' split) <;> simp

@[simp] theorem Mark.read_guestAdmit (n : Nat) (h : Header) (units : List Unit256) (s : State) :
    m.read (guestAdmit n h units s).regs = m.read s.regs := by
  simp [guestAdmit]

@[simp] theorem Mark.read_countWalk (k va : Nat) (fault mismatch : Bool) (s : State) :
    m.read (countWalk k va fault mismatch s).regs = m.read s.regs := by
  have hcount {g : Field} (h : g.off < 0x10000 ∧ g.lo < 64) (s : State) : m.read (count 0x007 g 1 s).regs = m.read s.regs :=
    m.read_count_page (by decide) h.1 h.2 1 s
  have hset {g : Field} (h : g.off < 0x10000 ∧ g.lo < 64) (v : Nat) (s : State) : m.read (setFld 0x007 g v s).regs = m.read s.regs :=
    m.read_setFld_page (by decide) h.1 h.2 v s
  unfold countWalk
  dsimp only [drew]
  (repeat' split) <;> simp (disch := decide) only [hcount, hset]

@[simp] theorem Mark.read_serveXlate (h k va access : Nat) (s : State) : m.read (serveXlate h k va access s).2.regs = m.read s.regs := by
  unfold serveXlate
  dsimp only
  split
  · simp
  · simp
  · dsimp only
    rw [install_regs]
    (repeat' split) <;> simp

theorem Mark.read_of_serveXlate {h k va access : Nat} {s t : State} {r : Except AccErr (Leaf × Bool)}
    (hx : serveXlate h k va access s = (r, t)) : m.read t.regs = m.read s.regs := by
  simpa only [hx] using m.read_serveXlate h k va access s

@[simp] theorem Mark.read_guestSubmit (n : Nat) (h : Header) (units : List Unit256) (s : State) :
    m.read (guestSubmit n h units s).regs = m.read s.regs := by
  have hadmit (h : Header) (u : Nat → State → State) (hu : ∀ x s, (u x s).regs = s.regs) (x : Nat) (s : State) :
      m.read (guestAdmit n h units (u x s)).regs = m.read s.regs := by rw [m.read_guestAdmit, hu]
  fun_cases guestSubmit n h units s
  case case1 => exact m.read_malformedReject _ _ _ _ s
  case case2 | case8 => exact m.read_guestAdmit n _ units s
  case case3 | case4 => exact (m.read_guestAdmit n _ units _).trans (congrArg m.read (useEntry_regs _ _ _ _ _ s))
  case case5 => rfl
  case case6 hx _ _ _ =>
    exact (m.read_guestAdmit n _ units _).trans ((congrArg m.read (useEntry_regs _ _ _ _ _ _)).trans (m.read_of_serveXlate hx))
  case case7 t hx _ _ _ _ => exact (m.read_accessFailed _ _ _ none _).trans (show m.read t.regs = _ from m.read_of_serveXlate hx)

@[simp] theorem Mark.read_xlateReq (h sub : Nat) (hd : Header) (s : State) : m.read (xlateReq h sub hd s).regs = m.read s.regs := by
  fun_cases xlateReq h sub hd s
  case case1 => rfl
  case case2 hx => simp [m.read_of_serveXlate hx]
  case case3 hx => simp [m.read_of_serveXlate hx]

@[simp] theorem Mark.read_releaseHeld (s : State) : m.read (releaseHeld s).regs = m.read s.regs := by
  unfold releaseHeld
  refine (foldl_keeps (fun s => m.read s.regs) (fun s e => m.read_guestSubmit _ _ _ s) _ _).trans ?_
  exact foldl_keeps (fun s => m.read s.regs) (fun s r => m.read_xlateReq _ _ _ s) _ _

/-! The steps of a context's end (R299 to R302) -/

@[simp] theorem Mark.read_stopCtx (k : Nat) (s : State) : m.read (stopCtx k s).regs = m.read s.regs := by
  unfold stopCtx
  rw [m.read_releaseHeld, m.read_stopJournal]
  refine (foldl_keeps (fun s => m.read s.regs) (fun s n => m.read_clearArray n 1 s) _ _).trans ?_
  rw [m.read_discardMigrations, m.read_discardFaults]

@[simp] theorem Mark.read_noteRelease (k kind index cnt gen : Nat) (s : State) :
    m.read (noteRelease k kind index cnt gen s).regs = m.read s.regs := by
  simp (disch := decide) [noteRelease]

@[simp] theorem Mark.read_ashTile (k n : Nat) (s : State) : m.read (ashTile k n s).regs = m.read s.regs := by
  simp [ashTile]

end

section
variable (j : Nat)

/-- The mark of a context is not at a site's link state. -/
@[simp] theorem Mark.read_ctx_setSiteLink (n v : Nat) (s : State) : (Mark.ctx j).read (setSiteLink n v s).regs = (Mark.ctx j).read s.regs :=
  congrArg ctxPhase (fld_setFld_ne v s (by
    simp only [fieldKey, Mark.page, Mark.field, Reg.CTX_STATUS_STATE, Reg.SITE_STATE_LINK, pageCtx, pageSite]; omega))

@[simp] theorem Mark.read_ctx_sendClear (n : Nat) (s : State) : (Mark.ctx j).read (sendClear n s).regs = (Mark.ctx j).read s.regs := by
  simp (disch := decide) [sendClear, sendMgmt]

@[simp] theorem Mark.read_ctx_endSite (n : Nat) (s : State) : (Mark.ctx j).read (endSite n s).regs = (Mark.ctx j).read s.regs := by
  simp only [endSite]
  split <;> simp (disch := decide)

end

/-- A context's mark keeps its place while another context's state moves. -/
theorem Mark.read_ctx_setCtxState {j k : Nat} (h : j ≠ k) (v : Nat) (s : State) :
    (Mark.ctx j).read (setCtxState k v s).regs = (Mark.ctx j).read s.regs := by
  have hp : pageCtx j ≠ pageCtx k := by simp only [pageCtx]; omega
  unfold setCtxState
  split
  · rfl
  simp only [setFlds_cons, setFlds_nil]
  rw [Mark.read_setFld _ _ (by decide)]
  exact congrArg ctxPhase (fld_setFld_page (f := Reg.CTX_STATUS_STATE) (g := Reg.CTX_STATUS_STATE) v s hp (by decide) (by decide)
    (by decide) (by decide))

theorem Mark.read_ctx (k : Nat) (s : State) : (Mark.ctx k).read s.regs = ctxPhase (ctxState s k) := rfl

theorem Mark.read_ctx_ending {k : Nat} (hk : k ≠ 0) (s : State) : (Mark.ctx k).read (setCtxState k 6 s).regs = 2 := by
  unfold setCtxState
  rw [if_neg hk]
  simp only [setFlds_cons, setFlds_nil]
  rw [Mark.read_setFld _ _ (by decide), Mark.read_ctx, ctxState, fld_setFld_fits _ _ (by decide)]
  rfl

/-- The part of a context's end after its state has moved. -/
def releaseCtx (k : Nat) (u s : State) : State :=
  let s := (boundTiles u k).foldl (fun s n =>
    noteRelease k 1 n 1 (generation s (pageTile n)) (unbindPage (pageTile n) 3 (ashTile k n s))) s
  let s := (boundSites u k).foldl (fun s n => noteRelease k 4 n 1 (generation s (pageSite n)) (endSite n s)) s
  let s := (framesOf u k).foldl (fun s f => beginFrameAsh f s) (dropAll k s)
  (sessionsOf u k).foldl (fun s i => sessionRelease i s) s

theorem ctxEnd_regs (k : Nat) (s : State) : (ctxEnd k s).regs =
    if k = 0 ∨ 64 ≤ k ∨ ctxState s k = 0 ∨ ctxState s k = 6 then s.regs
    else (releaseCtx k (setCtxState k 6 (stopCtx k s)) (setCtxState k 6 (stopCtx k s))).regs := by
  unfold ctxEnd
  split
  · rfl
  · rfl

theorem Mark.read_ctx_releaseCtx (j k : Nat) (u s : State) : (Mark.ctx j).read (releaseCtx k u s).regs = (Mark.ctx j).read s.regs := by
  unfold releaseCtx
  refine (foldl_keeps (fun s => (Mark.ctx j).read s.regs) (fun s i => Mark.read_sessionRelease _ i s) _ _).trans ?_
  refine (foldl_keeps (fun s => (Mark.ctx j).read s.regs) (fun s f => congrArg _ (beginFrameAsh_regs f s)) _ _).trans ?_
  rw [dropAll_regs]
  refine (foldl_keeps (fun s => (Mark.ctx j).read s.regs) (fun s n => by simp) _ _).trans ?_
  exact foldl_keeps (fun s => (Mark.ctx j).read s.regs) (fun s n => by simp) _ _

/-- Ending a context leaves how far another has come. -/
theorem Mark.read_ctx_ctxEnd_other {j k : Nat} (h : j ≠ k) (s : State) :
    (Mark.ctx j).read (ctxEnd k s).regs = (Mark.ctx j).read s.regs := by
  rw [ctxEnd_regs]
  split
  · rfl
  · rw [Mark.read_ctx_releaseCtx, Mark.read_ctx_setCtxState h, Mark.read_stopCtx]

/-- A context that is set up is ENDING after its end (R299). -/
theorem Mark.read_ctx_ctxEnd_same {k : Nat} (h0 : 0 < k) (h64 : k < 64) {s : State} (hs : (Mark.ctx k).read s.regs ≠ 0) :
    (Mark.ctx k).read (ctxEnd k s).regs = 2 := by
  rw [Mark.read_ctx] at hs
  rw [ctxEnd_regs]
  split
  · rename_i hend
    have hend : ctxState s k = 6 := by
      have h0 : ctxState s k ≠ 0 := fun h => hs (by rw [h]; rfl)
      omega
    rw [Mark.read_ctx, hend]
    rfl
  · rw [Mark.read_ctx_releaseCtx, Mark.read_ctx_ending (by omega)]

/-- Each context of a list ends, one after the other. -/
theorem Mark.read_ctx_ends {k : Nat} (h0 : 0 < k) (h64 : k < 64) (l : List Nat) {s : State} (hk : k ∈ l ∨ (Mark.ctx k).read s.regs = 2)
    (hs : (Mark.ctx k).read s.regs ≠ 0) : (Mark.ctx k).read (l.foldl (fun s k => ctxEnd k s) s).regs = 2 := by
  induction l generalizing s with
  | nil => exact hk.resolve_left List.not_mem_nil
  | cons i l ih =>
    rw [List.foldl_cons]
    by_cases hi : k = i
    · subst hi
      have hend := Mark.read_ctx_ctxEnd_same h0 h64 hs
      exact ih (.inr hend) (by rw [hend]; decide)
    · have hkeep := Mark.read_ctx_ctxEnd_other hi s
      refine ih (hk.imp (fun h => (List.mem_cons.mp h).resolve_left hi) hkeep.trans) (hkeep.trans_ne hs)

/-! Coppice rounds (R303 to R316) -/

section
variable (m : Mark)

@[simp] theorem Mark.read_returnFrames (e : Nat) (l : List Nat) (s : State) : m.read (returnFrames e l s).regs = m.read s.regs := by
  have hlines (f : Nat) (s : State) : m.read (ashLines f s).regs = m.read s.regs :=
    foldl_keeps (fun s => m.read s.regs) (fun s l => m.read_withdrawLine _ l s) _ s
  exact foldl_keeps (g := fun s f => ashFrameNow f s) (fun s => m.read s.regs) (fun s f => hlines f s) l s

@[simp] theorem Mark.read_stopCommits (slot : Nat) (s : State) : m.read (stopCommits slot s).regs = m.read s.regs := by
  simp only [stopCommits, Mark.read_returnFrames, modRound_regs]
  refine (foldl_keeps (fun s => m.read s.regs) (fun s c => ?_) _ _).trans (by simp)
  split <;> simp (disch := decide)

@[simp] theorem Mark.read_sendStatuses (slot : Nat) (s : State) : m.read (sendStatuses slot s).regs = m.read s.regs :=
  foldl_keeps (fun s => m.read s.regs) (fun s i => by simp [sendStatus]) _ s

/-- What a kiln shows of itself stands on its own page. -/
theorem Mark.read_kilnChange {e : Nat} (he : e < 2) {f : State → State} (hf : ∀ s, m.read (f s).regs = m.read s.regs) (s : State) :
    m.read (kilnChange e f s).regs = m.read s.regs := by
  have hshow (s : State) : m.read (showKiln e s).regs = m.read s.regs := by
    have hp : pageKiln e < 0x18 := by simp only [pageKiln]; omega
    unfold showKiln
    simp only [setFlds_cons, setFlds_nil]
    iterate 4 rw [m.read_setFld_page hp (by decide) (by decide)]
  unfold kilnChange
  dsimp only
  rw [hshow]
  split
  · rw [m.read_raiseSrc, hf]
  · exact hf s

@[simp] theorem Mark.read_destroyAllRounds (s : State) : m.read (destroyAllRounds s).regs = m.read s.regs := by
  have hround {slot : Nat} (h : slot < 64) (cause : Nat) (s : State) : m.read (destroyRound slot cause s).regs = m.read s.regs := by
    unfold destroyRound
    dsimp only
    split
    · rfl
    refine m.read_kilnChange (by omega) (fun s => ?_) s
    rw [m.read_sendStatuses, modRound_regs, m.read_stopCommits]
    (repeat' split) <;> simp (disch := decide)
  unfold destroyAllRounds
  have hmem {i : Nat} (h : i ∈ List.range 64) : i < 64 := List.mem_range.mp h
  generalize List.range 64 = l at hmem ⊢
  exact List.foldlRecOn (motive := fun t => m.read t.regs = m.read s.regs) l _ rfl (fun t ht i hi => (hround (hmem hi) 4 t).trans ht)

end

end Sys2Proof.Machine
end

section
/-! The commands of Heartwood that wipe, transition or give debug access (R452 to R464), and the settled statement about the mailbox. -/

namespace Sys2Proof.Machine

/-! The life-cycle transition (R452 to R454) -/

@[simp] theorem modOtp_heart_otp (f : Otp → Otp) (s : State) : (modOtp f s).heart.otp = f s.heart.otp := rfl

theorem destroyKeys_otp (s : State) : (destroyKeys s).heart.otp = s.heart.otp := congrArg Heart.otp (destroyKeys_parts s).1
theorem wipeMem_otp (s : State) : (wipeMem s).heart.otp = s.heart.otp := congrArg Heart.otp (wipeMem_parts s).1

@[simp] theorem recordStep_lc (n : Nat) (o : Otp) : (recordStep n o).lc = o.lc := rfl
@[simp] theorem destroyFor_lc (t : Nat) (o : Otp) : (destroyFor t o).lc = o.lc := by
  unfold destroyFor; split_ifs <;> rfl

/-- Three programmed copies replace a word of three (R454). -/
theorem programCopies_lc (t : Nat) {o : Otp} (h : o.lc.length = 3) :
    (programCopy t 2 (programCopy t 1 (programCopy t 0 o))).lc = List.replicate 3 (lcValues.getD t 0) := by
  obtain ⟨a, b, c, hl⟩ := List.length_eq_three.mp h
  simp [programCopy, hl, List.replicate]

theorem transitionStages_lc (t : Nat) {s : State} (h : s.heart.otp.lc.length = 3) :
    ((transitionStages t).foldl (fun s f => f s) s).heart.otp.lc = List.replicate 3 (lcValues.getD t 0) := by
  simp only [transitionStages, List.foldl_cons, List.foldl_nil, modOtp_heart_otp, recordStep_lc]
  refine programCopies_lc t ?_
  rw [recordStep_lc, destroyFor_lc, destroyKeys_otp, wipeMem_otp]
  exact h

theorem consumeNonce_heart (s : State) : (consumeNonce s).heart = s.heart := setFlds_heart _ _ _

theorem fundamentalReset_mem (cause : Nat) (s : State) : (fundamentalReset cause s).mem = s.mem.wipe := by
  obtain ⟨-, -, hmem, -, -, -⟩ := clearHub_parts (decide (cause ≠ 1)) s
  unfold fundamentalReset
  rw [resetDebug_keeps (φ := State.mem) (fun _ _ => rfl)]
  simpa [modPower] using hmem

/-- A transition to `PROVISIONED` takes the owner's keys (R452). -/
def ownerTaken (t : Nat) (keys : List Nat) (s : State) : State :=
  if t = 2 then modOtp (fun o => { o with ownerKeys := keys ++ List.replicate (4 - keys.length) 0 }) s else s

theorem ownerTaken_lc (t : Nat) (keys : List Nat) (s : State) : (ownerTaken t keys s).heart.otp.lc = s.heart.otp.lc := by
  unfold ownerTaken
  split <;> rfl

section
variable {len : Nat} {s : State}

theorem transition_accepted (hlen : len ≤ 16384) (h : transitionFate s (mbxBody s len) = 0) : ∃ keys,
    exec (.transition len none) s = .next (fundamentalReset 3 ((transitionStages (leAt (mbxBody s len) 0 1)).foldl (fun s f => f s)
      (ownerTaken (leAt (mbxBody s len) 0 1) keys (consumeNonce s)))) :=
  ⟨_, congrArg Host.Outcome.next ((mbxCmd_fits _ s hlen).trans (if_neg (not_not.mpr h)))⟩

theorem transition_refused {lost : Option Nat} (hlen : len ≤ 16384) (h : transitionFate s (mbxBody s len) ≠ 0) :
    exec (.transition len lost) s = .next (otpEnd (transitionFate s (mbxBody s len)) (consumeNonce s)) :=
  congrArg Host.Outcome.next ((mbxCmd_fits _ s hlen).trans (if_pos h))

/-! Debug openings (R459, R460, R464) -/

theorem debugOpen_openDebug (how : Nat) (s : State) : debugOpen (openDebug how s) = true := by
  have h : fld (openDebug how s) debugPage Reg.DEBUG_STATE_OPEN = 1 := by
    simp (disch := decide) only [openDebug, raiseSrc, fld_raiseIrq_own, fld_setFld_fits]
  exact (congrArg (· != 0) h).trans rfl

theorem debugOpen_mbxEnd (code : Nat) (resp : List Byte) (s : State) : debugOpen (mbxEnd code resp s) = debugOpen s :=
  congrArg (· != 0) (fld_mbxEnd code resp s (by decide) (by decide) (by decide) (by decide))

theorem debugOpen_consumeNonce (s : State) : debugOpen (consumeNonce s) = debugOpen s := by
  refine congrArg (· != 0) ?_
  have hp : debugPage = 0x00D := rfl
  simp (disch := decide) [consumeNonce, List.range_succ, fld_setFld_field, ← hp]

theorem debugErase_opens (hpolicy : policyForbids s true = false) (hvacant : hubVacant s = true) : exec .debugErase s =
    .next (mbxEnd 0 [] (openDebug 2 (extendMeas 7 eraseText (destroyKeys (wipeMem s))))) :=
  congrArg Host.Outcome.next ((if_neg (by simp [hpolicy])).trans (if_neg (by simp [hvacant])))

theorem debugErase_occupied (hpolicy : policyForbids s true = false) (hvacant : hubVacant s = false) :
    exec .debugErase s = .next (mbxEnd 0x06 [] s) :=
  congrArg Host.Outcome.next ((if_neg (by simp [hpolicy])).trans (if_pos (by simp [hvacant])))

/-- Opening debug and completing the command leave the kiln, the images and the sessions alone. -/
theorem opened_keeps {β : Type} {φ : State → β} (hsrc : ∀ p i s, φ (raiseSrc p i s) = φ s)
    (hfld : ∀ p f v s, φ (setFld p f v s) = φ s)
    (hheart : ∀ s h, φ { s with heart := h } = φ s) (how i : Nat) (v : List Byte) (s : State) :
    φ (mbxEnd 0 [] (openDebug how (extendMeas i v s))) = φ s := by
  have hend (s : State) : φ (mbxEnd 0 [] s) = φ s :=
    (hsrc _ _ _).trans ((foldl_keeps φ (fun s e => hfld _ _ _ s) _ _).trans (hheart s _))
  have hopen (s : State) : φ (openDebug how s) = φ s := by
    unfold openDebug
    dsimp only
    rw [hsrc, hfld]
    split
    · exact hfld _ _ _ _
    · rfl
  exact (hend _).trans ((hopen _).trans (hheart s _))

theorem fld_consumeNonce {p : Nat} {f : Field} (hp : p ≠ debugPage) (hf : f.off < 0x10000) (hl : f.lo < 64) (s : State) :
    fld (consumeNonce s) p f = fld s p f := by
  refine fld_setFlds_ne _ s fun x hx => ?_
  obtain ⟨i, hi, rfl⟩ := List.mem_map.mp hx
  obtain ⟨-, ho, hlo⟩ := nonceField_place (List.mem_range.mp hi)
  exact fieldKey_ne_page hp ho hf hlo hl

theorem policyForbids_consumeNonce (erase : Bool) (s : State) : policyForbids (consumeNonce s) erase = policyForbids s erase := by
  have hlc : lifeCycle (consumeNonce s) = lifeCycle s := fld_consumeNonce (by decide) (by decide) (by decide) s
  simp only [policyForbids, hlc, consumeNonce_heart]

/-- The sealed contexts end (R460). -/
def endSealed (s : State) : State := ((List.range 64).filter (fun k => isSealed s k)).foldl (fun s k => ctxEnd k s) s

theorem debugToken_badLength (hlen : len ≤ 16384) (h : len ≠ 313) (hpolicy : policyForbids s false = false) :
    exec (.debugToken len) s = .next (mbxEnd 0x03 [] (consumeNonce s)) := by
  refine congrArg Host.Outcome.next ((mbxCmd_fits _ s hlen).trans ?_)
  exact (if_neg (by simp [policyForbids_consumeNonce, hpolicy])).trans (if_pos (by simp [h]))

theorem debugToken_accepted (hpolicy : policyForbids s false = false) (hkey : keyFate s true (slice (mbxBody s 313) 48 133) = 0)
    (hnonce : ofBytes (nonceBytes s) ≠ 0)
    (hhead : (mbxBody s 313).take 48 = slice (leBytes 64 (Config.sha512 Config.identityKey)) 0 16 ++ nonceBytes s)
    (hsig : Config.ecdsaVerify (slice (mbxBody s 313) 48 133) ((mbxBody s 313).take 181) ((mbxBody s 313).drop 181) = true) :
    exec (.debugToken 313) s = .next (mbxEnd 0 [] (openDebug 3 (extendMeas 7 (leBytes 64 (Config.sha512 (mbxBody s 313)))
      (destroyAllRounds (endSealed (consumeNonce s)))))) := by
  refine congrArg Host.Outcome.next ((mbxCmd_fits _ s (by decide)).trans ?_)
  exact (if_neg (by simp [policyForbids_consumeNonce, hpolicy])).trans (if_neg (by simp [hkey, hnonce, hhead, hsig]))

/-- A sealed context that is set up is ENDING after debug has opened on a token (R460). -/
theorem ctxState_opened {k : Nat} (v : List Byte) (hk : 0 < k) (hk' : k < 64) (hsealed : isSealed s k = true)
    (hstate : ctxState s k ≠ 0) :
    ctxState (mbxEnd 0 [] (openDebug 3 (extendMeas 7 v (destroyAllRounds (endSealed (consumeNonce s)))))) k = 6 := by
  have hpage : pageCtx k ≠ debugPage := by simp only [pageCtx, debugPage]; omega
  have hmark : (Mark.ctx k).read (consumeNonce s).regs ≠ 0 := by
    rw [Mark.read_ctx, ctxState, fld_consumeNonce hpage (by decide) (by decide)]
    unfold ctxPhase
    have h0 : fld s (pageCtx k) Reg.CTX_STATUS_STATE ≠ 0 := hstate
    split_ifs <;> omega
  have hmem : k ∈ (List.range 64).filter (fun k => isSealed (consumeNonce s) k) := by
    refine List.mem_filter.mpr ⟨List.mem_range.mpr hk', ?_⟩
    have h : flag (consumeNonce s) (pageCtx k) Reg.CTX_STATUS_SEALED = flag s (pageCtx k) Reg.CTX_STATUS_SEALED :=
      congrArg (· != 0) (fld_consumeNonce hpage (by decide) (by decide) s)
    exact h.trans hsealed
  have hended : (Mark.ctx k).read (endSealed (consumeNonce s)).regs = 2 := Mark.read_ctx_ends hk hk' _ (.inl hmem) hmark
  have hopen : ctxPhase (ctxState (openDebug 3 (extendMeas 7 v (destroyAllRounds (endSealed (consumeNonce s))))) k) = 2 := by
    rw [← Mark.read_ctx]
    unfold openDebug
    have hext (s : State) : (extendMeas 7 v s).regs = s.regs := rfl
    split <;> simp (disch := decide) [hext, hended]
  have hstate : ctxState (openDebug 3 (extendMeas 7 v (destroyAllRounds (endSealed (consumeNonce s))))) k = 6 := by
    unfold ctxPhase at hopen
    split_ifs at hopen with h0 h6
    · exact h6
    · omega
  refine (fld_mbxEnd 0 [] _ ?_ (by decide) (by decide) (by decide)).trans hstate
  simp only [pageCtx, mbxPage]
  omega

end

theorem nonceBytes_debugNonce (s : State) : nonceBytes (debugNonce s) = freeBytes s 32 := by
  have hdrew (s : State) : nonceBytes (drew s) = nonceBytes s := nonceBytes_congr fun _ _ => rfl
  unfold debugNonce
  dsimp only
  rw [hdrew, nonceBytes_drawn (by simp [freeBytes])]

theorem debugNonce_parts (s : State) :
    (debugNonce s).fresh = s.fresh + 1 ∧ (debugNonce s).heart = s.heart ∧ sameBytes s (debugNonce s) := by
  have hkeeps {β : Type} {φ : State → β} (hdrew : ∀ s, φ (drew s) = φ s) (hset : ∀ l s, φ (setFlds debugPage l s) = φ s) :
      φ (debugNonce s) = φ s := (hdrew _).trans (hset _ s)
  refine ⟨?_, hkeeps (fun _ => rfl) (setFlds_heart _), sameBytes_of_parts (hkeeps (fun _ => rfl) (setFlds_mem _))
    (hkeeps (fun _ => rfl) (setFlds_cache _)) (hkeeps (fun _ => rfl) (setFlds_coh _))⟩
  simp [debugNonce, drew]

/-- Settles O47: each command of Heartwood's mailbox, by its equation. -/
theorem heartwoodMailbox : Obligations.HeartwoodMailbox := by
  unfold Obligations.HeartwoodMailbox
  refine ⟨?_, ?_, ?_, ?_, ?_, ?_, ?_, ?_, ?_, ?_, ?_, ?_, ?_, ?_, ?_, ?_, ?_⟩
  · intro arg s h
    refine ⟨_, extend_register h, ?_, mbxEnd_code [] _ (by decide), mbxEnd_otp 0 [] _⟩
    rw [mbxEnd_meas, extendMeas_register]
  · exact fun len arg s hlen h => extend_boot hlen h
  · intro len arg v s hlen hlo hhi hlc hlc' hvpp hrun hthermo
    refine ⟨_, rollbackCommit_raises hlen hlo hhi hlc hlc' hvpp hrun hthermo, ?_, otpEnd_code _ (by decide)⟩
    rw [otpEnd_otp]
    exact Tab.get_put_same _ _ _ _
  · intro len arg v s hlen hlo hhi hlc hlc' hvpp hrun
    exact ⟨_, rollbackCommit_unpowered hlen hlo hhi hlc hlc' hvpp hrun, otpEnd_otp _ s, otpEnd_code s (by decide),
      otpEnd_lastError s (by decide) (by decide)⟩
  · intro len tg s hlen hfate htg hlc
    obtain ⟨keys, hexec⟩ := transition_accepted hlen hfate
    rw [← htg] at hexec
    refine ⟨_, hexec, ?_⟩
    have hword : ((transitionStages tg).foldl (fun s f => f s) (ownerTaken tg keys (consumeNonce s))).heart.otp.lc =
        List.replicate 3 (lcValues.getD tg 0) := transitionStages_lc tg (by rw [ownerTaken_lc, consumeNonce_heart, hlc])
    generalize (transitionStages tg).foldl (fun s f => f s) (ownerTaken tg keys (consumeNonce s)) = u at hword
    obtain ⟨hheart, -, -, -, hcause⟩ := fundamentalReset_parts u (cause := 3) (by decide)
    exact ⟨hcause, by rw [hheart, hword], fun x hx => wipe_cells (fundamentalReset_mem 3 u ▸ hx)⟩
  · intro len fate lost s hlen hfate hne hlt
    refine ⟨_, transition_refused hlen (by rwa [hfate]), ?_, ?_, ?_⟩
    · rw [otpEnd_otp, consumeNonce_heart]
    · rw [hfate, otpEnd_code _ hlt]
    · rw [nonceBytes_otpEnd _ (by rwa [hfate]), nonceBytes_consumed]
  · intro new s hlc hnew hle hvpp hsig hbits
    exact ⟨_, debugPolicy_taken hlc hnew hle hvpp hsig hbits, congrArg Otp.policy (otpEnd_otp _ _), otpEnd_code _ (by decide)⟩
  · intro slot s hkind hslot hle hlc hvpp hsig
    exact ⟨_, revokeKey_owner hkind hslot hle hlc hvpp hsig, congrArg Otp.ownerRevoked (otpEnd_otp _ _), otpEnd_code _ (by decide)⟩
  · intro s hpolicy hkey hnonce hhead hsig
    refine ⟨_, debugToken_accepted hpolicy hkey hnonce hhead hsig, ?_, mbxEnd_code [] _ (by decide), ?_⟩
    · rw [debugOpen_mbxEnd, debugOpen_openDebug]
    · exact fun k hk hk' hsealed hstate => ctxState_opened _ hk hk' hsealed hstate
  · intro len s hlen h hpolicy
    refine ⟨_, debugToken_badLength hlen h hpolicy, ?_, mbxEnd_code [] _ (by decide)⟩
    rw [debugOpen_mbxEnd, debugOpen_consumeNonce]
  · intro n v s hfate hn
    refine ⟨_, otpProgram_done hfate, ?_, otpEnd_code _ (by decide)⟩
    rw [otpEnd_otp]
    simp [otpItem, hn]
  · intro item s hfate
    exact ⟨_, otpProgram_refused hfate, otpEnd_otp _ s, otpEnd_code s (otpItemFate_lt s item)⟩
  · exact fun len s hlen => congrArg Host.Outcome.next (mbxCmd_fits _ s hlen)
  · intro s hpolicy hvacant
    obtain ⟨-, hkiln, hember, hsess⟩ := destroyKeys_parts (wipeMem s)
    refine ⟨_, debugErase_opens hpolicy hvacant, ?_, ?_, ?_, fun i hi => ?_, mbxEnd_code [] _ (by decide)⟩
    · rw [debugOpen_mbxEnd, debugOpen_openDebug]
    · exact (congrArg Kiln.pools (opened_keeps raiseSrc_kiln (fun _ _ _ _ => rfl) (fun _ _ => rfl) 2 7 _ _)).trans
        ((congrArg Kiln.pools hkiln).trans (wipeMem_parts s).2)
    · exact (opened_keeps (φ := State.ember) raiseSrc_ember (fun _ _ _ _ => rfl) (fun _ _ => rfl) 2 7 _ _).trans hember
    · rw [session_congr (opened_keeps (φ := State.plr) raiseSrc_plr (fun _ _ _ _ => rfl) (fun _ _ => rfl) 2 7 _ _)]
      exact hsess i hi
  · exact fun s hpolicy hvacant => debugErase_occupied hpolicy hvacant
  · intro s
    obtain ⟨hfresh, hheart, hbytes⟩ := debugNonce_parts s
    exact ⟨debugNonce s, rfl, hfresh, nonceBytes_debugNonce s, hheart, hbytes⟩
  · intro len arg lost s hlen
    exact ⟨congrArg Host.Outcome.next (mbxCmd_long _ s hlen), congrArg Host.Outcome.next (mbxCmd_long _ s hlen),
      congrArg Host.Outcome.next (mbxCmd_long _ s hlen), congrArg Host.Outcome.next (mbxCmd_long _ s hlen),
      congrArg Host.Outcome.next (mbxCmd_long _ s hlen), congrArg Host.Outcome.next (mbxCmd_long _ s hlen),
      congrArg Host.Outcome.next (mbxCmd_long _ s hlen)⟩

end Sys2Proof.Machine
end

section
/-! The routing of the torus (R53): a packet's run along one dimension, the router it comes to, and the settled statement about
whole routes. -/

namespace Sys2Proof.Machine

/-- A packet past the link in a direction. -/
def crossed (dir : Nat) (p : NetPkt) : NetPkt := { p with router := nextRouter p.router dir, inPort := dir, vc := nextVc p dir }

/-- A packet past n links in a direction. -/
def runAlong (dir : Nat) : Nat → NetPkt → NetPkt
  | 0, p => p
  | n + 1, p => runAlong dir n (crossed dir p)

/-- The router n links on in a direction. -/
def ahead (dir : Nat) : Nat → Nat → Nat
  | 0, r => r
  | n + 1, r => ahead dir n (nextRouter r dir)

/-- The virtual channel that a packet brings to a direction's dimension: its own where it travels there already. -/
def carriedVc (p : NetPkt) (dir : Nat) : Nat := if p.inPort < 4 ∧ p.inPort / 2 = dir / 2 then p.vc else 0

theorem nextVc_eq (p : NetPkt) (dir : Nat) : nextVc p dir = if dateline p.router dir then 1 else carriedVc p dir := rfl

theorem carriedVc_crossed {dir : Nat} (h : dir < 4) (p : NetPkt) : carriedVc (crossed dir p) dir = nextVc p dir :=
  if_pos ⟨h, rfl⟩

@[simp] theorem runAlong_hdr (dir n : Nat) (p : NetPkt) : (runAlong dir n p).hdr = p.hdr := by
  induction n generalizing p with
  | zero => rfl
  | succ n ih => exact ih (crossed dir p)

@[simp] theorem runAlong_router (dir n : Nat) (p : NetPkt) : (runAlong dir n p).router = ahead dir n p.router := by
  induction n generalizing p with
  | zero => rfl
  | succ n ih => exact ih (crossed dir p)

theorem runAlong_inPort (dir n : Nat) (p : NetPkt) : (runAlong dir n p).inPort = if n = 0 then p.inPort else dir := by
  induction n generalizing p with
  | zero => rfl
  | succ n ih =>
    refine (ih (crossed dir p)).trans ?_
    split <;> rfl

/-- A packet whose route keeps to one direction for n links crosses those, and goes on from where they end. -/
theorem links_runAlong {dir : Nat} (hdir : dir < 4) (n fuel : Nat) (p : NetPkt)
    (hroute : ∀ i, i < n → route (ahead dir i p.router) p.hdr.dst = dir) :
    links (n + fuel) p = straight dir n p.router (carriedVc p dir) ++ links fuel (runAlong dir n p) := by
  induction n generalizing p with
  | zero => rw [Nat.zero_add]; rfl
  | succ n ih =>
    have hhere : route p.router p.hdr.dst = dir := hroute 0 (Nat.succ_pos n)
    have hrest := ih (crossed dir p) (fun i hi => hroute (i + 1) (Nat.succ_lt_succ hi))
    rw [carriedVc_crossed hdir] at hrest
    calc links (n + 1 + fuel) p = links (n + fuel + 1) p := by rw [Nat.add_right_comm]
      _ = (p.router, dir, nextVc p dir) :: links (n + fuel) (crossed dir p) := by
        simp only [links, hhere, hdir, if_true, crossed]
      _ = straight dir (n + 1) p.router (carriedVc p dir) ++ links fuel (runAlong dir (n + 1) p) := by
        rw [hrest]
        rfl

/-- At its destination's router a packet heads for a local port and crosses no further link. -/
theorem links_atRouter (fuel : Nat) {p : NetPkt} (h : p.router = nodeRouter p.hdr.dst) : links fuel p = [] := by
  have hlocal : route p.router p.hdr.dst = 4 + nodePort p.hdr.dst := by
    simp [route, rx, ry, h]
  cases fuel with
  | zero => rfl
  | succ fuel =>
    simp only [links, hlocal]
    exact if_neg (by omega)

@[simp] theorem straight_length (dir n r vc : Nat) : (straight dir n r vc).length = n := by
  induction n generalizing r vc with
  | zero => rfl
  | succ n ih => simp [straight, ih]

theorem straight_end (dir n r vc : Nat) : (straight dir n r vc).foldl (fun r l => nextRouter r l.2.1) r = ahead dir n r := by
  induction n generalizing r vc with
  | zero => rfl
  | succ n ih => exact ih _ _

/-! The routers along a row and a column -/

theorem ahead_xPlus (n : Nat) {r : Nat} : ahead 0 n r = (r % 8 + n) % 8 + 8 * (r / 8) := by
  induction n generalizing r with
  | zero => simp only [ahead]; omega
  | succ n ih => rw [ahead, ih]; simp only [nextRouter, rx, ry]; omega

theorem ahead_xMinus (n : Nat) {r : Nat} : ahead 1 n r = (r % 8 + 7 * n) % 8 + 8 * (r / 8) := by
  induction n generalizing r with
  | zero => simp only [ahead]; omega
  | succ n ih => rw [ahead, ih]; simp only [nextRouter, rx, ry]; omega

theorem ahead_yPlus (n : Nat) {r : Nat} (h : r < 64) : ahead 2 n r = r % 8 + 8 * ((r / 8 + n) % 8) := by
  induction n generalizing r with
  | zero => simp only [ahead]; omega
  | succ n ih => rw [ahead, ih (by simp only [nextRouter, rx, ry]; omega)]; simp only [nextRouter, rx, ry]; omega

theorem ahead_yMinus (n : Nat) {r : Nat} (h : r < 64) : ahead 3 n r = r % 8 + 8 * ((r / 8 + 7 * n) % 8) := by
  induction n generalizing r with
  | zero => simp only [ahead]; omega
  | succ n ih => rw [ahead, ih (by simp only [nextRouter, rx, ry]; omega)]; simp only [nextRouter, rx, ry]; omega

/-! The two legs of a route -/

/-- The shorter way round a ring of 8 with `d` positions to go in the + direction, the + direction (`plus`) when both are 4. -/
def shorterWay (plus d : Nat) : Nat := if d ≤ 4 then plus else plus + 1

/-- The hops of the shorter way round. -/
def shorterHops (d : Nat) : Nat := min d (8 - d)

/-- The first leg leads to the destination's column, and every router on it but the last routes along it. -/
theorem ahead_row {r dst dx : Nat} (hdx : dx = (nodeRouter dst % 8 + 8 - r % 8) % 8) :
    ahead (shorterWay 0 dx) (shorterHops dx) r = nodeRouter dst % 8 + 8 * (r / 8) ∧
      ∀ i, i < shorterHops dx → route (ahead (shorterWay 0 dx) i r) dst = shorterWay 0 dx := by
  unfold shorterWay shorterHops
  split
  case isTrue h =>
    simp only [ahead_xPlus, route, rx, ry]
    refine ⟨by omega, fun i hi => ?_⟩
    rw [if_pos (by omega), if_pos (by omega)]
  case isFalse h =>
    simp only [Nat.reduceAdd, ahead_xMinus, route, rx, ry]
    refine ⟨by omega, fun i hi => ?_⟩
    rw [if_pos (by omega), if_neg (by omega)]

/-- The second leg leads, within the destination's column, to its router. -/
theorem ahead_column {r dst dy : Nat} (hr : r < 64) (hd : nodeRouter dst < 64) (hcol : r % 8 = nodeRouter dst % 8)
    (hdy : dy = (nodeRouter dst / 8 + 8 - r / 8) % 8) :
    ahead (shorterWay 2 dy) (shorterHops dy) r = nodeRouter dst ∧
      ∀ i, i < shorterHops dy → route (ahead (shorterWay 2 dy) i r) dst = shorterWay 2 dy := by
  unfold shorterWay shorterHops
  split
  case isTrue h =>
    simp only [ahead_yPlus _ hr, route, rx, ry]
    refine ⟨by omega, fun i hi => ?_⟩
    rw [if_neg (by omega), if_pos (by omega), if_pos (by omega)]
  case isFalse h =>
    simp only [Nat.reduceAdd, ahead_yMinus _ hr, route, rx, ry]
    refine ⟨by omega, fun i hi => ?_⟩
    rw [if_neg (by omega), if_pos (by omega), if_neg (by omega)]

/-- A packet from a local port comes to the second dimension with virtual channel 0, whatever it has crossed in the first. -/
theorem carriedVc_runAlong {p : NetPkt} {dir dir' : Nat} (n : Nat) (hin : 4 ≤ p.inPort) (hdim : dir / 2 ≠ dir' / 2) :
    carriedVc (runAlong dir n p) dir' = 0 := by
  refine if_neg ?_
  rw [runAlong_inPort]
  split
  · omega
  · exact fun h => hdim h.2

/-- The whole route: the links in x, then those in y, and none beyond. -/
theorem links_eq {p : NetPkt} {dx dy : Nat} (hp : p.router < 64) (hd : nodeRouter p.hdr.dst < 64) (hin : 4 ≤ p.inPort)
    (hdx : dx = (nodeRouter p.hdr.dst % 8 + 8 - p.router % 8) % 8) (hdy : dy = (nodeRouter p.hdr.dst / 8 + 8 - p.router / 8) % 8) :
    links 9 p = straight (shorterWay 0 dx) (shorterHops dx) p.router 0 ++
      straight (shorterWay 2 dy) (shorterHops dy) (nodeRouter p.hdr.dst % 8 + 8 * (p.router / 8)) 0 := by
  obtain ⟨hturn, hrow⟩ := ahead_row hdx
  obtain ⟨hend, hcolumn⟩ := ahead_column (r := nodeRouter p.hdr.dst % 8 + 8 * (p.router / 8)) (dst := p.hdr.dst) (dy := dy)
    (by omega) hd (by omega) (by omega)
  have hx : shorterWay 0 dx < 2 := by unfold shorterWay; split <;> omega
  have hy : 2 ≤ shorterWay 2 dy ∧ shorterWay 2 dy < 4 := by unfold shorterWay; split <;> omega
  have hfuel : 9 = shorterHops dx + (shorterHops dy + (9 - shorterHops dx - shorterHops dy)) := by
    unfold shorterHops; omega
  have hstart : carriedVc p (shorterWay 0 dx) = 0 := if_neg (by omega)
  have hcolumn' : ∀ i, i < shorterHops dy → route (ahead (shorterWay 2 dy) i (runAlong (shorterWay 0 dx) (shorterHops dx) p).router)
      (runAlong (shorterWay 0 dx) (shorterHops dx) p).hdr.dst = shorterWay 2 dy := by
    simpa only [runAlong_router, runAlong_hdr, hturn] using hcolumn
  rw [hfuel, links_runAlong (by omega) _ _ p hrow, hstart, links_runAlong hy.2 _ _ _ hcolumn',
    carriedVc_runAlong _ hin (by omega), runAlong_router, hturn,
    links_atRouter _ (by simp only [runAlong_router, runAlong_hdr, hturn, hend]), List.append_nil]

/-- The links from one position of a ring to the next that are its dateline (R53). -/
theorem dateline_iff {dir : Nat} (r : Nat) (h : dir < 4) : dateline r dir = true ↔
    (dir = 0 ∧ r % 8 = 7) ∨ (dir = 1 ∧ r % 8 = 0) ∨ (dir = 2 ∧ r / 8 = 7) ∨ (dir = 3 ∧ r / 8 = 0) := by
  match dir, h with
  | 0, _ | 1, _ | 2, _ | 3, _ => simp [dateline, rx, ry]

/-- A candidate for an output of a router stands there on the plane, and its route leads there. -/
theorem of_mem_candidates {s : State} {r out i : Nat} {plane : Plane} {p : NetPkt} (h : (i, p) ∈ candidates s r out plane) :
    p.router = r ∧ p.plane = plane ∧ route r p.hdr.dst = out := by
  have hp := (List.mem_filter.mp h).2
  simp only [Bool.and_eq_true, beq_iff_eq] at hp
  obtain ⟨⟨⟨hr, hplane⟩, hroute⟩, -⟩ := hp
  exact ⟨hr, hplane, hroute⟩

/-- Settles O54: a route is the run along the row and then along the column, whose ends and virtual channels the lemmas above
give. -/
theorem torusRouting : Obligations.TorusRouting := by
  unfold Obligations.TorusRouting
  refine ⟨?_, fun r dir _ hdir => dateline_iff r hdir, fun s r out i plane p h => ?_⟩
  · rintro p d dx dy a b rfl hp hd hin - hdx hdy ha hb
    obtain rfl : a = shorterWay 0 dx := ha
    obtain rfl : b = shorterWay 2 dy := hb
    have hlinks := links_eq hp hd hin hdx hdy
    obtain ⟨hturn, -⟩ := ahead_row hdx
    obtain ⟨hend, -⟩ := ahead_column (r := nodeRouter p.hdr.dst % 8 + 8 * (p.router / 8)) (dst := p.hdr.dst) (dy := dy)
      (by omega) hd (by omega) (by omega)
    refine ⟨hlinks, ?_, ?_⟩
    · rw [hlinks, List.length_append, straight_length, straight_length]
      unfold shorterHops
      omega
    · rw [hlinks, List.foldl_append, straight_end, hturn, straight_end, hend]
  · obtain ⟨hr, -, hroute⟩ := of_mem_candidates h
    exact ⟨hr, hroute⟩

end Sys2Proof.Machine
end

section
/-! A block error as its page and the host port see it (R75, R487, R488), and the settled statement about responses that answer no
request (R60). -/

namespace Sys2Proof.Machine

theorem sameFields.mono {l m : List (Nat × Field)} {s t : State} (h : sameFields l s t) (hlm : l ⊆ m) : sameFields m s t :=
  fun p f hpf => h p f fun x hx => hpf x (hlm hx)

theorem sameFields.trans {l : List (Nat × Field)} {s t u : State} (hst : sameFields l s t) (htu : sameFields l t u) :
    sameFields l s u := fun p f h => (htu p f h).trans (hst p f h)

/-- The fields that an error writes on its page. -/
def pageErrFields : List Field := (errPlaces 0).map (·.2)

theorem errPlaces_eq (p : Nat) : errPlaces p = pageErrFields.map (fun f => (p, f)) := rfl

theorem mem_errPlaces (p : Nat) {f : Field} (hf : f ∈ pageErrFields) : (p, f) ∈ errPlaces p := by
  rw [errPlaces_eq]
  exact List.mem_map_of_mem hf

theorem sameFields_errField (p : Nat) {f : Field} (hf : f ∈ pageErrFields) (v : Nat) (s : State) :
    sameFields (errPlaces p) s (setFld p f v s) := fun _ _ h => fld_setFld_ne v s (h (p, f) (mem_errPlaces p hf))

/-- Capturing an error writes the error fields of its page (R75). -/
theorem sameFields_capture (r : ErrRec) (s : State) : sameFields (errPlaces r.page) s (capture r s) := by
  unfold capture
  dsimp only
  refine .trans (.trans (.trans ?first (sameFields_errField _ (by decide) _ _)) (sameFields_errField _ (by decide) _ _))
    ((sameFields_raiseIrq _ _ _).mono (List.subset_append_left _ _))
  case first =>
    split
    · exact sameFields_errField _ (by decide) _ s
    · refine fun q g h => fld_setFlds_ne _ s fun x hx => h (r.page, x.1) (mem_errPlaces _ ?_)
      exact (by decide : pageErrFields.drop 7 ++ [Reg.ERR_SUMMARY_FIRST_VALID] ⊆ pageErrFields) (List.mem_map_of_mem (f := Prod.fst) hx)

/-- A record charged to no tenant writes the error fields of its page and no other register field. -/
theorem sameFields_raiseErr {r : ErrRec} (s : State) (hctx : r.ctx = 0) : sameFields (errPlaces r.page) s (raiseErr r s) := by
  unfold raiseErr
  split
  · exact sameFields_errField _ (by decide) _ s
  · have hnone : ¬ (0 < (stamp r s).ctx ∧ (stamp r s).ctx < 0x40) := by simp [stamp, hctx]
    dsimp only
    rw [if_neg hnone]
    have hcapture (v : State) (hv : s.regs = v.regs) : sameFields (errPlaces r.page) s (capture (stamp r s) v) :=
      (sameFields_capture (stamp r s) v).congr_regs hv rfl
    split <;> exact hcapture _ rfl

/-- A record below severity DEVICE drives no pin and sends no message. -/
theorem raiseErr_out {r : ErrRec} (s : State) (h : r.sev ≠ 3) : (raiseErr r s).out = s.out := by
  have hsev : (stamp r s).sev ≠ 3 := h
  unfold raiseErr
  split
  · rfl
  · dsimp only
    rw [if_neg hsev]
    split <;> simp

theorem raiseIrq_flight (p mask : Nat) (s : State) : (raiseIrq p mask s).errs.flight = s.errs.flight := by
  rcases raiseIrq_errs p mask s with h | h <;> rw [h]

theorem capture_flight (r : ErrRec) (s : State) : (capture r s).errs.flight = s.errs.flight := by
  unfold capture
  dsimp only
  rw [raiseIrq_flight]
  split <;> simp

/-- A record that R488 holds back is counted on its page only. -/
theorem raiseErr_heldBack {r : ErrRec} {s : State} (h : heldBack r s = true) :
    raiseErr r s = bump r.page Reg.ERR_SUMMARY_COUNT 1 s := by
  simp only [raiseErr, h, if_true]

/-- A record that nothing holds back is sent to the host port, behind those on their way. -/
theorem raiseErr_flight {r : ErrRec} {s : State} (h : heldBack r s = false) :
    (raiseErr r s).errs.flight = s.errs.flight ++ [stamp r s] := by
  simp only [raiseErr, h, Bool.false_eq_true, if_false]
  have hdevice (v : State) : (if (stamp r s).sev = 3 then hubFault (latch (stamp r s) v) else v).errs.flight = v.errs.flight := by
    split <;> rfl
  rw [hdevice]
  split <;> simp [capture_flight]

theorem heldBack_congr {s t : State} (herrs : t.errs = s.errs) (htime : t.time = s.time) (r : ErrRec) :
    heldBack r t = heldBack r s := by
  unfold heldBack
  rw [herrs, nowNs_congr htime]

/-- A response that answers no outstanding request is counted at the router of its node and reported (R60): the status that the
adapter normalises first is no part of what it is matched by. -/
theorem responseArrival_unmatched {node : Nat} {h : Header} (us : List Unit256) (clock age : Nat) {s : State}
    (hnone : takeFirst (fun r => r.src == node && r.srcSub == h.dstSub && r.tag == h.tag) s.torus.outstanding = none) :
    exec (.responseArrival node h us clock age) s = .next (raiseErr { page := pageTile (nodeRouter node % 64), cls := 0x022 }
      (count (pageTile (nodeRouter node % 64)) Reg.ROUTER_UNEXPECTED_COUNT 1 s)) := by
  by_cases hst : 6 < h.opArg % 256 <;> simp [exec, execResponseArrival, hst, hnone]

/-- Settles O55: the count of unexpected responses, then a CORRECTED record charged to no tenant, which R488 may hold back. -/
theorem unmatchedResponses : Obligations.UnmatchedResponses := by
  unfold Obligations.UnmatchedResponses
  rintro node p h us clock age s rfl hnone
  refine ⟨_, responseArrival_unmatched us clock age hnone, by simp, by simp [raiseErr_out], by simp,
    sameBytes_of_parts (by simp) (by simp) (by simp), ?fields, ?counted, ?raised, ?held⟩
  case fields =>
    exact (sameFields_count _ Reg.ROUTER_UNEXPECTED_COUNT 1 s).append
      (sameFields_raiseErr (r := { page := pageTile (nodeRouter node % 64), cls := 0x022 }) _ rfl)
  case counted =>
    intro hfreeze
    rw [fld_raiseErr_own _ _ (by simp only [pageTile]; omega) (by decide) (by decide) (by decide), count_running _ _ 1 s hfreeze]
  case raised =>
    intro hheld
    refine ⟨_, (raiseErr_flight ((heldBack_congr (by simp) (by simp) _).trans hheld)).trans (by rw [count_errs]), rfl, rfl, rfl, rfl⟩
  case held =>
    intro hheld
    rw [raiseErr_heldBack ((heldBack_congr (by simp) (by simp) _).trans hheld), bump_errs, count_errs]

end Sys2Proof.Machine
end

section
/-! Injection and arbitration in the torus (R49 to R54, R281): what an admission, an arbitration and a delivery come to, and the
settled statement about them. -/

namespace Sys2Proof.Machine

/-! Admission at a source -/

theorem creditFree_congr {s t : State} (h : t.torus = s.torus) (pl : Plane) (hd : Header) (r inPort vc : Nat) :
    creditFree t pl hd r inPort vc = creditFree s pl hd r inPort vc := by
  simp only [creditFree, h]

theorem requestsFull_congr {s t : State} (h : t.torus = s.torus) (src : Nat) (hd : Header) :
    requestsFull t src hd = requestsFull s src hd := by
  unfold requestsFull
  rw [h]

/-- A packet in the injection buffer of its source. -/
def injected (src : Nat) (plane : Plane) (h : Header) (us : List Unit256) : NetPkt :=
  { plane := plane, hdr := h, units := us, router := nodeRouter src, inPort := 4 + nodePort src }

@[simp] theorem enterTorus_pkts (plane : Plane) (src : Nat) (h : Header) (us : List Unit256) (s : State) :
    (enterTorus plane src h us s).torus.pkts = s.torus.pkts ++ [injected src plane h us] := rfl

theorem sameBytes_enterTorus (plane : Plane) (src : Nat) (h : Header) (us : List Unit256) {s t : State} (hst : sameBytes s t) :
    sameBytes s (enterTorus plane src h us t) := hst

section
variable {src : Nat} {plane : Plane} {h : Header} {s : State}

/-- With a credit, room for the request and tokens for a regulated one, a packet enters at once; its bucket pays, and its
priority is shown (R281). -/
theorem tryAdmit_enters (us : List Unit256) (hcredit : creditFree s plane h (nodeRouter src) (4 + nodePort src) 0 = true)
    (hroom : plane = .req → requestsFull s src h = false)
    (htokens : plane = .req → regulated src h = true → requestBytes h ≤ Tab.get 0 s.regul.buckets (regKey src h.ctx h.sclass)) :
    ∃ u, tryAdmit src plane h us s = some (enterTorus plane src h us u) ∧ u.torus = s.torus ∧ sameBytes s u := by
  have hnow : ¬ (!creditFree s plane h (nodeRouter src) (4 + nodePort src) 0 || (plane == .req && requestsFull s src h)) = true := by
    cases plane with
    | req => simp [hcredit, hroom rfl]
    | rsp => simp [hcredit]
  unfold tryAdmit
  rw [if_neg hnow]
  split
  case isTrue hreg =>
    dsimp only
    rw [if_neg (Nat.not_lt.mpr (htokens hreg.1 hreg.2))]
    refine ⟨_, rfl, ?_⟩
    split <;> exact ⟨rfl, fun _ => rfl⟩
  case isFalse => exact ⟨s, rfl, rfl, fun _ => rfl⟩

/-- So it does when its header is presented, what it asks for being counted first (R282). -/
theorem accept_enters (us : List Unit256) (hcredit : creditFree s plane h (nodeRouter src) (4 + nodePort src) 0 = true)
    (hroom : plane = .req → requestsFull s src h = false)
    (htokens : plane = .req → regulated src h = true → requestBytes h ≤ Tab.get 0 s.regul.buckets (regKey src h.ctx h.sclass)) :
    ∃ u, accept src plane h us s = enterTorus plane src h us u ∧ u.torus = s.torus ∧ sameBytes s u := by
  have hcounted (v : State) (htorus : v.torus = s.torus) (hbuckets : v.regul.buckets = s.regul.buckets) :
      ∃ u, tryAdmit src plane h us v = some (enterTorus plane src h us u) ∧ u.torus = v.torus ∧ sameBytes v u :=
    tryAdmit_enters us (by rw [creditFree_congr htorus, hcredit]) (fun hp => by rw [requestsFull_congr htorus, hroom hp])
      (fun hp hr => by rw [hbuckets]; exact htokens hp hr)
  unfold accept
  dsimp only
  by_cases hreg : plane = .req ∧ regulated src h = true
  · rw [if_pos hreg]
    obtain ⟨u, hu, htorus, hbytes⟩ := hcounted
      { s with regul := { s.regul with
          asked := Tab.mod 0 s.regul.asked (regKey src h.ctx h.sclass) (· + requestBytes h) } } rfl rfl
    exact ⟨u, by rw [hu], htorus, hbytes⟩
  · rw [if_neg hreg]
    obtain ⟨u, hu, htorus, hbytes⟩ := hcounted s rfl rfl
    exact ⟨u, by rw [hu], htorus, hbytes⟩

end

/-- A header that passes the checks of R49 under its stamp is presented for admission. -/
theorem injectHeader_accepts {src : Nat} {plane : Plane} {h h' : Header} {us : List Unit256} {s : State}
    (hstamp : h' = stampSource s plane src { h with len := if h.len ≤ 16 then us.length else h.len })
    (hnode : (nodeBlock src).isSome = true) (hctx : ctxPermitted s src h' = true) (hok : headerOk s plane src h' = true) :
    exec (.injectHeader src plane h us) s = .next (accept src plane h' us s) := by
  subst hstamp
  have hpresent : ¬ (nodeBlock src).isNone = true := by simpa using Option.isSome_iff_ne_none.mp hnode
  refine congrArg Host.Outcome.next ((if_neg hpresent).trans (if_neg ?_))
  rw [hctx, hok]
  decide

/-! An arbitration -/

theorem winner_starved {l : List (Nat × NetPkt)} {e : Nat × NetPkt} (starvedOnly : Bool)
    (h : l.find? (fun e => decide (256 ≤ e.2.lost)) = some e) : winner l starvedOnly = some e := by
  simp only [winner, h]

section
variable {r out i : Nat} {plane : Plane} {starvedOnly : Bool} {p : NetPkt} {s : State}

/-- The winner at a link stands in the next router's buffer; nothing but the torus has changed. -/
theorem grant_link (hout : out < 4) (hw : winner (candidates s r out plane) starvedOnly = some (i, p)) :
    ∃ torus, grant r out plane starvedOnly s = { s with torus := torus } ∧
      { p with router := nextRouter r out, inPort := out, vc := nextVc p out, lost := 0 } ∈ torus.pkts := by
  simp only [grant, hw]
  rw [if_neg (Nat.not_le.mpr hout)]
  exact ⟨_, rfl, List.mem_append_right _ List.mem_cons_self⟩

/-- The winner at a local port is delivered; which endpoints are down has not changed. -/
theorem grant_local (hout : 4 ≤ out) (hw : winner (candidates s r out plane) starvedOnly = some (i, p)) :
    ∃ torus, grant r out plane starvedOnly s = deliverPkt p { s with torus := torus } ∧ torus.down = s.torus.down := by
  simp only [grant, hw]
  rw [if_pos hout]
  exact ⟨_, rfl, rfl⟩

end

/-! A delivery -/

theorem isDown_setTorus {torus : Torus} {s : State} (h : torus.down = s.torus.down) (n : Nat) :
    isDown { s with torus := torus } n = isDown s n := by
  unfold isDown
  dsimp only
  rw [h]
  rfl

@[simp] theorem guestFlits_out (p : NetPkt) (s : State) : (guestFlits p s).out = s.out := by
  unfold guestFlits
  split <;> rfl

/-- A response for an endpoint that is up is handed to it: only requests are refused at a guest site (R356). -/
theorem deliverPkt_response {p : NetPkt} {s : State} (hup : isDown s p.hdr.dst = false) (hp : p.plane = .rsp) :
    (deliverPkt p s).out = .delivered p.hdr p.units :: s.out := by
  have hpeer : peerRefused s p = false := by
    unfold peerRefused
    split <;> simp [hp]
  have hplane : ¬ (p.plane = .req ∧ (!p.hdr.noResp) = true) := by simp [hp]
  unfold deliverPkt
  rw [hup, hpeer]
  simp only [Bool.false_eq_true, if_false, hplane, emit]
  rw [guestFlits_out]

/-- Settles O6: an admission adds the packet at its source's router, and an arbitration moves the packet that R52's order
chooses. -/
theorem torusInjectionAndArbitration : Obligations.TorusInjectionAndArbitration := by
  unfold Obligations.TorusInjectionAndArbitration
  refine ⟨?inject, ?link, ?deliver, ?starved⟩
  case inject =>
    intro src plane h h' us s hstamp hnode hctx hok hcredit hroom htokens
    obtain ⟨u, hu, htorus, hbytes⟩ := accept_enters us hcredit hroom htokens
    refine ⟨_, (injectHeader_accepts hstamp hnode hctx hok).trans (by rw [hu]), ?_, sameBytes_enterTorus _ _ _ _ hbytes⟩
    rw [enterTorus_pkts, htorus]
    rfl
  case link =>
    intro r out i plane p s hout hw
    obtain ⟨torus, hgrant, hmem⟩ := grant_link hout hw
    exact ⟨_, congrArg Host.Outcome.next hgrant, fun _ => rfl, rfl, hmem⟩
  case deliver =>
    intro r out i p s hout hw hup hp
    obtain ⟨torus, hgrant, hdown⟩ := grant_local hout hw
    exact ⟨_, congrArg Host.Outcome.next hgrant, deliverPkt_response ((isDown_setTorus hdown _).trans hup) hp⟩
  case starved =>
    intro r out i plane p s hout hfind
    obtain ⟨torus, hgrant, hmem⟩ := grant_link hout (winner_starved true hfind)
    exact ⟨_, congrArg Host.Outcome.next hgrant, fun _ => rfl, hmem⟩

end Sys2Proof.Machine
end

section
/-! Endpoints that go down, link beats, credits and responses (R45, R48, R54, R55, R59), and the settled statement about them. -/

namespace Sys2Proof.Machine

/-! An endpoint goes down (R59) -/

/-- What takes an endpoint down for good: an event listed its node, or the domain that feeds its block is off. -/
def lostEndpoint (s : State) (n : Nat) : Prop :=
  n ∈ s.torus.down ∨ ∃ d, (nodeBlock n).bind blockDomain = some d ∧ domainOn s d = false

theorem isDown_of_lost {s : State} {n : Nat} (h : lostEndpoint s n) : isDown s n = true := by
  unfold isDown
  rcases h with h | ⟨d, hd, hoff⟩
  · simp [h]
  · simp [hd, hoff]

theorem lostEndpoint_congr {s t : State} (htorus : t.torus = s.torus) (hpower : t.power = s.power) (n : Nat) :
    lostEndpoint t n ↔ lostEndpoint s n := by
  unfold lostEndpoint domainOn
  rw [htorus, hpower]

theorem mem_addNew_self (l : List Nat) (a : Nat) : a ∈ addNew l a := by
  unfold addNew
  split
  · assumption
  · exact List.mem_append_right _ List.mem_cons_self

/-- The requests that the endpoint had accepted are taken out and answered one by one. -/
theorem endpointDown_answers (n : Nat) (c : DownCause) (s : State) : ∃ (u : State) (mine : List Header),
    exec (.endpointDown n c) s = .next (mine.foldl (fun s h => nodeDownAnswer (nodeRouter n % 64) .req h s) u) ∧
      lostEndpoint u n ∧ (∀ h ∈ u.torus.accepted, h.dst ≠ n) ∧ sameBytes s u := by
  have hrest (l : List Header) : ∀ h ∈ l.filter (fun h => h.dst != n), h.dst ≠ n := fun h hh => by
    simpa using (List.mem_filter.mp hh).2
  simp only [exec, execEndpointDown]
  have hlisted : n ∈ addNew s.torus.down n := mem_addNew_self _ n
  split <;> split
  · rename_i hcause _
    nomatch hcause
  · exact ⟨_, _, rfl, .inl hlisted, hrest _, fun _ => rfl⟩
  · rename_i d hd _
    exact ⟨_, _, rfl, .inr ⟨d, hd, domainOn_setDomain_same d false s⟩, hrest _, fun _ => rfl⟩
  · exact ⟨_, _, rfl, .inl hlisted, hrest _, fun _ => rfl⟩

/-- Answering NODE_DOWN leaves the torus, the power and every byte as they were. -/
theorem nodeDownAnswers_parts (r : Nat) (l : List Header) (s : State) :
    (l.foldl (fun s h => nodeDownAnswer r .req h s) s).torus = s.torus ∧
      (l.foldl (fun s h => nodeDownAnswer r .req h s) s).power = s.power ∧
      sameBytes s (l.foldl (fun s h => nodeDownAnswer r .req h s) s) :=
  ⟨foldl_keeps State.torus (fun s h => nodeDownAnswer_torus r .req h s) l s,
    foldl_keeps State.power (fun s h => nodeDownAnswer_power r .req h s) l s,
    sameBytes_of_parts (foldl_keeps State.mem (fun s h => nodeDownAnswer_mem r .req h s) l s)
      (foldl_keeps State.cache (fun s h => nodeDownAnswer_cache r .req h s) l s)
      (foldl_keeps State.coh (fun s h => nodeDownAnswer_coh r .req h s) l s)⟩

/-! Counts of four lanes in a register (R63) -/

theorem sameFields_countLane (p : Nat) (f : Field) (lane n : Nat) (s : State) : sameFields [(p, f)] s (countLane p f lane n s) := by
  unfold countLane
  split
  · exact fun _ _ _ => rfl
  · exact sameFields_setFld p f _ s

/-- The lane of a word, cut to 64 bits, whose lane is replaced. -/
theorem bits_replaceLane (w : Nat) {lane m : Nat} (hlane : lane < 4) (hm : m < 2 ^ 16) :
    bits ((w - bits w (16 * lane + 15) (16 * lane) * 2 ^ (16 * lane) + m * 2 ^ (16 * lane)) % 2 ^ 64) (16 * lane + 15) (16 * lane)
      = m := by
  have hwidth : 16 * lane + 15 + 1 - 16 * lane = 16 := by omega
  simp only [bits, hwidth, Nat.shiftRight_eq_div_pow]
  match lane, hlane with
  | 0, _ | 1, _ | 2, _ | 3, _ => simp only [Nat.reduceMul, Nat.reducePow] at hm ⊢; omega

/-- A lane rises by what is counted, up to its greatest value. -/
theorem bits_countLane {p n lane : Nat} {f : Field} {s : State} (hlane : lane < 4) (hf : f.width = 64)
    (hrun : fld s p Reg.PAGE_CTRL_COUNTER_FREEZE = 0) :
    bits (fld (countLane p f lane n s) p f) (16 * lane + 15) (16 * lane) =
      min (bits (fld s p f) (16 * lane + 15) (16 * lane) + n) 0xFFFF := by
  have hflag : flag s p Reg.PAGE_CTRL_COUNTER_FREEZE = false := by simp [flag, hrun]
  unfold countLane
  rw [hflag]
  simp only [Bool.false_eq_true, if_false, fld_setFld_same, hf]
  exact bits_replaceLane _ hlane (by omega)

/-! The beats of a link (R55) -/

section
variable {r d : Nat} {s : State}

/-- The series of replays of a link ends. -/
def replaysEnded (r d : Nat) (s : State) : State := { s with torus := { s.torus with replays := Tab.del s.torus.replays (r * 4 + d) } }

theorem replays_replaysEnded : Tab.get 0 (replaysEnded r d s).torus.replays (r * 4 + d) = 0 :=
  Tab.get_del_same 0 s.torus.replays _

theorem linkBeat_clean (hr : r < 64) (hd : d < 4) : exec (.linkBeatReceive r d .clean) s = .next (replaysEnded r d s) :=
  if_neg (by omega)

theorem linkBeat_corrected (n : Nat) (hr : r < 64) (hd : d < 4) : exec (.linkBeatReceive r d (.corrected n)) s =
    .next (countLane (pageTile r) Reg.LINK_CORRECTED d n (replaysEnded r d s)) :=
  if_neg (by omega)

/-- The first three uncorrectable arrivals of a beat ask for a replay. -/
theorem linkBeat_replayed (hr : r < 64) (hd : d < 4) (hfew : Tab.get 0 s.torus.replays (r * 4 + d) < 3) :
    exec (.linkBeatReceive r d .uncorrectable) s = .next (emit (.linkReplay r d) (countLane (pageTile r) Reg.LINK_REPLAYS d 1
      { s with torus := { s.torus with
          replays := Tab.put 0 s.torus.replays (r * 4 + d) (Tab.get 0 s.torus.replays (r * 4 + d) + 1) } })) :=
  (if_neg (by omega)).trans (if_pos hfew)

/-- The fourth fails the link. -/
theorem linkBeat_fails (hr : r < 64) (hd : d < 4) (hmany : 3 ≤ Tab.get 0 s.torus.replays (r * 4 + d)) :
    exec (.linkBeatReceive r d .uncorrectable) s = .next (raiseErr { page := pageTile r, sev := 3, cls := 0x020 }
      (setFld (pageTile r) Reg.ROUTER_STATUS_LINK_FAILED (setBit (fld s (pageTile r) Reg.ROUTER_STATUS_LINK_FAILED) d)
        (replaysEnded r d s))) :=
  (if_neg (by omega)).trans (if_neg (Nat.not_lt.mpr hmany))

end

/-! Credits and responses (R45, R54) -/

/-- Where nothing waits at a source, nothing is admitted. -/
theorem admitWaiting_idle {s : State} (h : s.torus.waiting = []) : admitWaiting s = s := by
  have hsame : { s with torus := { s.torus with waiting := [] } } = s := by rw [← h]
  simp only [admitWaiting, h, List.foldl_nil]
  exact hsame

theorem restoreTag_eq (node : Nat) (h : Header) (s : State) :
    (restoreTag node h s).2 = { s with sites := (restoreTag node h s).2.sites } := by
  unfold restoreTag
  split <;> rfl

/-- What ends an outstanding request: it is no longer outstanding, what waits for its end is tried, and no byte changes. -/
theorem responseArrival_matched {node : Nat} {h r : Header} {rest : List Header} (us : List Unit256) (clock age : Nat) {s : State}
    (hsome : takeFirst (fun r => r.src == node && r.srcSub == h.dstSub && r.tag == h.tag) s.torus.outstanding = some (r, rest)) :
    ∃ u, exec (.responseArrival node h us clock age) s = .next (admitWaiting u) ∧
      u.torus = { s.torus with outstanding := rest } ∧ sameBytes s u := by
  simp only [exec, execResponseArrival]
  generalize hcapped : (if 6 < h.opArg % 256 then _ else h) = h'
  have hkeys : h'.dstSub = h.dstSub ∧ h'.tag = h.tag := by
    rw [← hcapped]
    split <;> exact ⟨rfl, rfl⟩
  rw [hkeys.1, hkeys.2, hsome]
  dsimp only
  have htag := restoreTag_eq node h' { s with torus := { s.torus with outstanding := rest } }
  generalize restoreTag node h' { s with torus := { s.torus with outstanding := rest } } = restored at htag ⊢
  obtain ⟨h'', s'⟩ := restored
  dsimp only at htag ⊢
  have htorus : s'.torus = { s.torus with outstanding := rest } := by rw [htag]
  have hbytes : sameBytes s s' := by
    rw [htag]
    exact fun _ => rfl
  (repeat' split) <;> exact ⟨_, rfl, htorus, hbytes⟩

/-- Settles O7, clause by clause. -/
theorem torusEndpointsAndLinks : Obligations.TorusEndpointsAndLinks := by
  unfold Obligations.TorusEndpointsAndLinks
  refine ⟨?down, ?clean, ?corrected, ?replayed, ?fails, ?credit, ?response⟩
  case down =>
    intro n c s
    obtain ⟨u, mine, hexec, hlost, hrest, hbytes⟩ := endpointDown_answers n c s
    obtain ⟨htorus, hpower, hkept⟩ := nodeDownAnswers_parts (nodeRouter n % 64) mine u
    exact ⟨_, hexec, isDown_of_lost ((lostEndpoint_congr htorus hpower n).mpr hlost), by rwa [htorus],
      fun a => (hkept a).trans (hbytes a)⟩
  case clean =>
    intro r d s hr hd
    exact ⟨_, linkBeat_clean hr hd, replays_replaysEnded, rfl, fun _ => rfl⟩
  case corrected =>
    intro r d n s hr hd hrun
    refine ⟨_, linkBeat_corrected n hr hd, sameBytes_of_parts (by simp [replaysEnded]) (by simp [replaysEnded]) (by simp [replaysEnded]),
      sameFields_countLane _ _ d n _, ?_, bits_countLane hd rfl hrun⟩
    rw [countLane_torus]
    exact replays_replaysEnded
  case replayed =>
    intro r d s hr hd hfew
    refine ⟨_, linkBeat_replayed hr hd hfew, sameBytes_of_parts (by simp) (by simp) (by simp), by simp,
      congrArg (Out.linkReplay r d :: ·) (countLane_out ..), sameFields_countLane _ _ d 1 _⟩
  case fails =>
    intro r d s hr hd hmany
    refine ⟨_, linkBeat_fails hr hd hmany, sameBytes_of_parts (by simp [replaysEnded]) (by simp [replaysEnded]) (by simp [replaysEnded]),
      ?_, raiseErr_stops _ _ rfl⟩
    rw [fld_raiseErr_own _ _ (by simp only [pageTile]; omega) (by decide) (by decide) (by decide), fld_setFld_same]
    rfl
  case credit =>
    intro b s hdue hidle
    refine ⟨_, (if_neg (Nat.pos_iff_ne_zero.mp hdue)).trans (congrArg Host.Outcome.next (admitWaiting_idle hidle)),
      fun _ => rfl, rfl, ?_, ?_⟩
    · exact Tab.get_put_same 0 s.torus.used b _
    · exact Tab.get_put_same 0 s.torus.due b _
  case response =>
    intro node h r rest us clock age s hsome hidle
    obtain ⟨u, hexec, htorus, hbytes⟩ := responseArrival_matched us clock age hsome
    refine ⟨u, hexec.trans (congrArg Host.Outcome.next (admitWaiting_idle ?_)), by rw [htorus], hbytes⟩
    rw [htorus]
    exact hidle

end Sys2Proof.Machine
end

section
/-! Ash commands (R208, R316): what the withdrawal of lines, the ash of frames and a failed command leave, and the settled statement
about the five commands. -/

namespace Sys2Proof.Machine

/-! Who may send them -/

theorem ashCommand_allowed {h : Header} {inval : Bool} (f : State → State) (s : State) (ha : ashAllowed h inval = true) :
    ashCommand h inval f s = f s := if_pos ha

theorem ashCommand_refused {h : Header} {inval : Bool} (f : State → State) (s : State) (ha : ashAllowed h inval = false) :
    ashCommand h inval f s = malformedReject .req h.src false h s := if_neg (by simp [ha])

/-! A failed command: the answer, the record and the end of a coppice store nothing -/

theorem tileWake_mem_cache (n : Nat) (s : State) : (tileWake n s).mem = s.mem ∧ (tileWake n s).cache = s.cache := by
  unfold tileWake tileOn
  split
  · exact ⟨rfl, rfl⟩
  · dsimp only
    rw [bumpGeneration_mem, bumpGeneration_cache]
    split <;> exact ⟨rfl, rfl⟩

theorem startSelfTest_mem (n : Nat) (s : State) : (startSelfTest n false s).mem = s.mem := by
  simp [startSelfTest, clearArray, tileWake_mem_cache]

theorem startSelfTest_cache (n : Nat) (s : State) : (startSelfTest n false s).cache = s.cache := by
  simp [startSelfTest, clearArray, tileWake_mem_cache]

section
variable {β : Type} {φ : State → β} (htest : ∀ n s, φ (startSelfTest n false s) = φ s) (hctx : ∀ k c s, φ (setCtx k c s) = φ s)
  (hfield : ∀ p f v s, φ (setFld p f v s) = φ s) (hdrew : ∀ s, φ (drew s) = φ s) (hend : ∀ p r s, φ (opEnd p r s) = φ s)
include htest hctx hfield hdrew hend

/-- A reading of the state past the end of a coppice: a queued test of the tile may start, or the operation ends. -/
theorem coppiceEnd_keeps (k result reason : Nat) (s : State) : φ (coppiceEnd k result reason s) = φ s := by
  have hfields (p : Nat) (l : List (Field × Nat)) (s : State) : φ (setFlds p l s) = φ s := by
    unfold setFlds
    exact foldl_keeps φ (fun s x => hfield p x.1 x.2 s) l s
  have hgone (s : State) : φ (setCoppice k none s) = φ s := hctx _ _ s
  unfold coppiceEnd
  split
  · rfl
  · dsimp only
    split
    · split
      · split
        · exact (htest _ _).trans (hgone s)
        · exact hgone s
      · exact hgone s
    · exact (hend _ _ _).trans ((hdrew _).trans ((hfields _ _ _).trans ((hfields _ _ _).trans (hgone s))))

/-- A reading past a failed ash command: besides, it is answered and reported. -/
theorem ashFailed_keeps (hanswer : ∀ h st s, φ (respond h st [] s) = φ s) (herr : ∀ r s, φ (raiseErr r s) = φ s)
    (h : Header) (status : Nat) (hit : CoppiceRun → Bool) (s : State) : φ (ashFailed h status hit s) = φ s := by
  refine (foldl_keeps φ (fun s k => ?_) _ _).trans ((herr _ _).trans (hanswer _ _ _))
  split
  · split
    · exact coppiceEnd_keeps htest hctx hfield hdrew hend k 4 0 s
    · rfl
  · rfl

end

theorem ashFailed_mem (h : Header) (status : Nat) (hit : CoppiceRun → Bool) (s : State) : (ashFailed h status hit s).mem = s.mem :=
  ashFailed_keeps (φ := State.mem) startSelfTest_mem (fun _ _ _ => rfl) (fun _ _ _ _ => rfl) (fun _ => rfl) opEnd_mem
    (fun h st s => respond_mem h st [] s) raiseErr_mem h status hit s

theorem ashFailed_cache (h : Header) (status : Nat) (hit : CoppiceRun → Bool) (s : State) :
    (ashFailed h status hit s).cache = s.cache :=
  ashFailed_keeps (φ := State.cache) startSelfTest_cache (fun _ _ _ => rfl) (fun _ _ _ _ => rfl) (fun _ => rfl) opEnd_cache
    (fun h st s => respond_cache h st [] s) raiseErr_cache h status hit s

/-! Lines that an ash withdraws (R249) -/

@[simp] theorem setHomeLine_mem (pa : Nat) (h : HomeLine) (s : State) : (setHomeLine pa h s).mem = s.mem := by
  simp only [setHomeLine]
  split <;> rfl

@[simp] theorem snoopFor_mem (l : Line) (agents : Nat) (inv : Bool) (r : HomeReq) (s : State) : (snoopFor l agents inv r s).mem = s.mem :=
  (foldl_keeps State.mem (fun s a => by simp) _ _).trans (by simp [beginHome])

/-- Nothing of an ashed line is written back. -/
theorem withdrawLine_ash_mem (pa : Nat) (l : Line) (s : State) : (withdrawLine (.ash pa) l s).mem = s.mem := by
  unfold withdrawLine
  split
  · exact setHomeLine_mem _ _ s
  · split
    · exact snoopFor_mem _ _ _ _ s
    · rfl

theorem withdrawLines_ash_mem (ls : List Line) (s : State) :
    (ls.foldl (fun s l => withdrawLine (.ash l.pa) l s) s).mem = s.mem := by
  induction ls generalizing s with
  | nil => rfl
  | cons l ls ih => rw [List.foldl_cons, ih, withdrawLine_ash_mem]

/-- A stable line that no agent holds is dropped at once. -/
theorem withdrawLine_ash_stable {l : Line} {s : State} (hstable : isTransient s l.pa = false) (hdir : l.dir = 0) :
    withdrawLine (.ash l.pa) l s = dropLine l.pa s := by
  simp [withdrawLine, hstable, hdir]

theorem withdrawLines_ash_stable {ls : List Line} {s : State} (h : ∀ l ∈ ls, isTransient s l.pa = false ∧ l.dir = 0) :
    ls.foldl (fun s l => withdrawLine (.ash l.pa) l s) s = ls.foldl (fun s l => dropLine l.pa s) s := by
  induction ls generalizing s with
  | nil => rfl
  | cons l ls ih =>
    obtain ⟨hstable, hdir⟩ := h l List.mem_cons_self
    rw [List.foldl_cons, List.foldl_cons, withdrawLine_ash_stable hstable hdir]
    exact ih fun x hx => h x (List.mem_cons_of_mem _ hx)

/-! Lines by address -/

/-- An address and the base of its line lie in the same 128 bytes. -/
theorem lineBase_shift {k : Nat} (hk : 7 ≤ k) (pa : Nat) : lineBase pa >>> k = pa >>> k := by
  obtain ⟨j, rfl⟩ := Nat.exists_eq_add_of_le hk
  have hline : lineBase pa / 128 = pa / 128 := by unfold lineBase; omega
  rw [Nat.shiftRight_add, Nat.shiftRight_add, Nat.shiftRight_eq_div_pow _ 7, Nat.shiftRight_eq_div_pow _ 7]
  exact congrArg (· >>> j) hline

theorem sliceOf_lineBase (pa : Nat) : sliceOf (lineBase pa) = sliceOf pa := by
  simp only [sliceOf, lineBase_shift (k := 8) (by decide)]

theorem frameOf_lineBase (pa : Nat) : frameOf (lineBase pa) = frameOf pa := lineBase_shift (by decide) pa

theorem cacheKey_lineBase (pa : Nat) : cacheKey (lineBase pa) = cacheKey pa := by
  simp only [cacheKey, sliceOf_lineBase, setOf, bits, bit, lineBase_shift (k := 14) (by decide), lineBase_shift (k := 7) (by decide)]

theorem cacheKey_of_lineBase {a b : Nat} (h : lineBase a = lineBase b) : cacheKey a = cacheKey b := by
  rw [← cacheKey_lineBase a, h, cacheKey_lineBase]

theorem findLine_congr {s t : State} (h : t.cache = s.cache) (pa : Nat) : findLine t pa = findLine s pa := by
  simp only [findLine, linesOf, h]

theorem findLine_pa {s : State} {pa : Nat} {l : Line} (h : findLine s pa = some l) : l.pa = lineBase pa := by
  simpa using List.find?_some h

theorem linesOf_dropLine_same {a pa : Nat} (s : State) (h : cacheKey pa = cacheKey a) :
    linesOf (dropLine a s) pa = (linesOf s pa).filter (fun x => x.pa != lineBase a) := by
  simp [linesOf, dropLine, setLines, h]

theorem linesOf_dropLine_ne {a pa : Nat} (s : State) (h : cacheKey pa ≠ cacheKey a) : linesOf (dropLine a s) pa = linesOf s pa :=
  Tab.get_put_ne _ _ _ _ h

/-- A dropped line is gone, and no line comes back by a drop. -/
theorem findLine_dropLine {a pa : Nat} {s : State} (h : lineBase a = lineBase pa ∨ findLine s pa = none) :
    findLine (dropLine a s) pa = none := by
  simp only [findLine, List.find?_eq_none] at h ⊢
  by_cases hkey : cacheKey pa = cacheKey a
  · rw [linesOf_dropLine_same s hkey]
    intro x hx
    obtain ⟨hx, hne⟩ := List.mem_filter.mp hx
    rcases h with h | h
    · simpa [h] using hne
    · exact h x hx
  · rw [linesOf_dropLine_ne s hkey]
    exact h.resolve_left fun hbase => hkey (cacheKey_of_lineBase hbase).symm

theorem findLine_dropLines {ls : List Line} {pa : Nat} {s : State}
    (h : (∃ l ∈ ls, lineBase l.pa = lineBase pa) ∨ findLine s pa = none) :
    findLine (ls.foldl (fun s l => dropLine l.pa s) s) pa = none := by
  induction ls generalizing s with
  | nil => simpa using h
  | cons l ls ih =>
    refine ih ?_
    rcases h with ⟨x, hx, hbase⟩ | h
    · rcases List.mem_cons.mp hx with rfl | hx
      · exact .inr (findLine_dropLine (.inl hbase))
      · exact .inl ⟨x, hx, hbase⟩
    · exact .inr (findLine_dropLine (.inr h))

theorem mem_entry_of_mem_get {α : Type} {t : Tab (List α)} {k : Nat} {a : α} (h : a ∈ Tab.get [] t k) : ∃ e ∈ t, a ∈ e.2 := by
  induction t with
  | nil => simp [Tab.get] at h
  | cons e t ih =>
    unfold Tab.get at h
    split at h
    · exact ⟨e, List.mem_cons_self, h⟩
    · split at h
      · simp at h
      · obtain ⟨x, hx, ha⟩ := ih h
        exact ⟨x, List.mem_cons_of_mem _ hx, ha⟩

/-- A line found at an address is one of the cache's lines. -/
theorem mem_cacheLines {s : State} {pa : Nat} {l : Line} {q : Line → Bool} (h : findLine s pa = some l) (hq : q l = true) :
    l ∈ cacheLines s q := by
  obtain ⟨e, he, hl⟩ := mem_entry_of_mem_get (List.mem_of_find?_eq_some h)
  exact List.mem_filter.mpr ⟨List.mem_flatMap.mpr ⟨e, he, hl⟩, hq⟩

/-- Once the lines of frames in a slice are ashed, none of their addresses is found there. -/
theorem findLine_ashed {s : State} {fs : List Nat} {n pa : Nat}
    (h : ∀ l ∈ cacheLines s (fun l => fs.contains (frameOf l.pa) && sliceOf l.pa == n), isTransient s l.pa = false ∧ l.dir = 0)
    (hf : frameOf pa ∈ fs) (hn : sliceOf pa = n) :
    findLine ((cacheLines s (fun l => fs.contains (frameOf l.pa) && sliceOf l.pa == n)).foldl
      (fun s l => withdrawLine (.ash l.pa) l s) s) pa = none := by
  rw [withdrawLines_ash_stable h]
  refine findLine_dropLines ?_
  cases hfound : findLine s pa with
  | none => exact .inr rfl
  | some l =>
    have hpa := findLine_pa hfound
    refine .inl ⟨l, mem_cacheLines hfound (by simp [hpa, frameOf_lineBase, sliceOf_lineBase, hf, hn]), ?_⟩
    rw [hpa, lineBase, lineBase]
    omega

/-! Frames that are ashed (R208) -/

theorem ashFrameNow_mem (f : Nat) (s : State) : (ashFrameNow f s).mem = s.mem.ashFrame f :=
  congrArg (Mem.ashFrame · f) (withdrawLines_ash_mem _ s)

theorem ashFramesNow_mem (fs : List Nat) (s : State) :
    (fs.foldl (fun s f => ashFrameNow f s) s).mem = fs.foldl Mem.ashFrame s.mem :=
  (List.foldl_hom State.mem fun s f => (ashFrameNow_mem f s).symm).symm

theorem Mem.mem_ashFrames {fs : List Nat} {m : Mem} {x : Host.Cell} (h : x ∈ (fs.foldl Mem.ashFrame m).cells) :
    x ∈ m.cells ∧ frameOf x.1 ∉ fs := by
  induction fs generalizing m with
  | nil => exact ⟨h, List.not_mem_nil⟩
  | cons f fs ih =>
    obtain ⟨hx, hfs⟩ := ih h
    obtain ⟨hx, hf⟩ := List.mem_filter.mp hx
    exact ⟨hx, List.mem_cons.not.mpr (not_or.mpr ⟨by simpa using hf, hfs⟩)⟩

theorem Mem.frames_ashFrames (fs : List Nat) (m : Mem) : (fs.foldl Mem.ashFrame m).frames = m.frames := by
  induction fs generalizing m with
  | nil => rfl
  | cons f fs ih => exact ih (m.ashFrame f)

theorem frame_congr {s t : State} (h : t.mem.frames = s.mem.frames) (f : Nat) : frame t f = frame s f := by
  simp only [frame, h]

/-! Translations that a holder drops -/

@[simp] theorem tlb_setTlb_same (x : Nat) (l : List TlbEnt) (s : State) : tlb (setTlb x l s) x = l := by
  simp [tlb, setTlb]

theorem tlb_setTlb_ne {x y : Nat} (l : List TlbEnt) (s : State) (h : y ≠ x) : tlb (setTlb x l s) y = tlb s y :=
  Tab.get_put_ne _ _ _ _ h

theorem tlb_congr {s t : State} (h : t.xlate = s.xlate) (x : Nat) : tlb t x = tlb s x := by simp only [tlb, h]

theorem tlb_dropHolders (k y : Nat) (l : List Nat) (s : State) : tlb (l.foldl (fun s x => dropHolder x k s) s) y =
    if y ∈ l then (tlb s y).filter (fun e => e.ctx != k) else tlb s y := by
  induction l generalizing s with
  | nil => rfl
  | cons x l ih =>
    rw [List.foldl_cons, ih]
    by_cases hyx : y = x
    · subst hyx
      simp [dropHolder]
    · rw [dropHolder, tlb_setTlb_ne _ _ hyx]
      simp [hyx]

/-! The five commands -/

section
variable {h : Header} {s : State}

/-- The frames named all are of the controller's kind of memory and `ASHING`: they are ashed (R316). -/
theorem ashFrames_done {c : Nat} (ha : ashAllowed h false = true) (hdst : nodeBlock h.dst = some (.hbm c)) (hx : h.xlated = true)
    (hf : ∀ f ∈ ashRange h, frameExists f = true ∧ isHbm (f * 2 ^ 21) = true ∧ (frame s f).state = .ashing) :
    exec (.ashFrames h) s = .next (respondOk h ((ashRange h).foldl (fun s f => ashFrameNow f s) s)) := by
  have hall : (ashRange h).all (fun f => frameExists f && isHbm (f * 2 ^ 21) == true && (frame s f).state == .ashing) = true :=
    List.all_eq_true.mpr fun f hmem => by
      obtain ⟨hexists, hhbm, hstate⟩ := hf f hmem
      rw [hexists, hhbm, hstate]
      rfl
  simp only [exec, execAshFrames, ashCommand_allowed _ s ha, hdst, hx, hall]
  rfl

/-- A frame named is not `ASHING`: the command fails. -/
theorem ashFrames_fails {c f : Nat} (ha : ashAllowed h false = true) (hdst : nodeBlock h.dst = some (.hbm c)) (hx : h.xlated = true)
    (hf : f ∈ ashRange h) (hstate : (frame s f).state ≠ .ashing) :
    ∃ hit, exec (.ashFrames h) s = .next (ashFailed h 3 hit s) := by
  have hall : (ashRange h).all (fun f => frameExists f && isHbm (f * 2 ^ 21) == true && (frame s f).state == .ashing) = false :=
    List.all_eq_false.mpr ⟨f, hf, by simp [hstate]⟩
  refine ⟨fun r => r.kind == 2 && (ashRange h).any (fun f => (rangeFrames r.index r.count).contains f), ?_⟩
  simp only [exec, execAshFrames, ashCommand_allowed _ s ha, hdst, hx, hall]
  rfl

theorem ashInval_done {n : Nat} (ha : ashAllowed h true = true) (hdst : nodeBlock h.dst = some (.home n))
    (hf : ∀ f ∈ ashRange h, frameExists f = true ∧ (frame s f).state = .ashing) :
    exec (.ashInval h) s = .next (respondOk h
      ((cacheLines s (fun l => (ashRange h).contains (frameOf l.pa) && sliceOf l.pa == n)).foldl
        (fun s l => withdrawLine (.ash l.pa) l s) s)) := by
  have hall : (ashRange h).all (fun f => frameExists f && (frame s f).state == .ashing) = true :=
    List.all_eq_true.mpr fun f hmem => by
      obtain ⟨hexists, hstate⟩ := hf f hmem
      simp [hexists, hstate]
  simp only [exec, execAshInval, ashCommand_allowed _ s ha, hdst, hall, if_true]

theorem ashSram_array {n : Nat} (ha : ashAllowed h false = true) (hdst : nodeBlock h.dst = some (.control n)) (hop : h.opArg % 16 = 0) :
    exec (.ashSram h) s = .next (respondOk h (modTile n (fun x => { x with bank0 := {}, bank1 := {}, hist := [] })
      (clearArray n (arrayState s n) s))) := by
  simp only [exec, execAshSram, ashCommand_allowed _ s ha, hdst, hop]

theorem ashSram_cache {n : Nat} (ha : ashAllowed h false = true) (hdst : nodeBlock h.dst = some (.control n)) (hop : h.opArg % 16 = 1) :
    exec (.ashSram h) s = .next (respondOk h (setTlb n [] s)) := by
  simp only [exec, execAshSram, ashCommand_allowed _ s ha, hdst, hop]

theorem ashSram_adapter {n : Nat} (ha : ashAllowed h false = true) (hdst : nodeBlock h.dst = some (.site n)) (hop : h.opArg % 16 = 2) :
    exec (.ashSram h) s = .next (respondOk h (modSite n (fun x => { x with slots := [], stalled := [] }) s)) := by
  simp only [exec, execAshSram, ashCommand_allowed _ s ha, hdst, hop]

theorem ashXlate_done (ha : ashAllowed h false = true) (hnode : (nodeHolders h.dst).isEmpty = false) (hk : h.opArg % 256 < 64) :
    exec (.ashXlate h) s = .next (respondOk h ((nodeHolders h.dst).foldl (fun s x => dropHolder x (h.opArg % 256) s) s)) := by
  have hheld : ¬ ((nodeHolders h.dst).isEmpty = true ∨ 64 ≤ h.opArg % 256) := by simp [hnode, hk]
  simp only [exec, execAshXlate, ashCommand_allowed _ s ha, if_neg hheld]

theorem ashWays_done {n : Nat} (ha : ashAllowed h false = true) (hdst : nodeBlock h.dst = some (.home n)) :
    exec (.ashWays h) s = .next (respondOk h (withdrawWays (some n) (h.opData % 2 ^ 16) none s)) := by
  simp only [exec, execAshWays, ashCommand_allowed _ s ha, hdst]

end

/-- What the ash of a tensor-array domain leaves of its tile, its other parts being those of `clearArray`. -/
theorem tile_ashedArray (n st : Nat) (s : State) :
    tile (modTile n (fun x => { x with bank0 := {}, bank1 := {}, hist := [] }) (clearArray n st s)) n =
      { tile (clearArray n st s) n with bank0 := {}, bank1 := {}, hist := [] } := tile_modTile_same n _ _

/-- Settles O30, command by command. -/
theorem ashCommands : Obligations.AshCommands := by
  unfold Obligations.AshCommands
  refine ⟨?frames, ?notAshing, ?inval, ?array, ?cache, ?adapter, ?xlate, ?ways, ?refused, ?invalRefused⟩
  case frames =>
    intro h c s ha hdst hx hf
    have hmem : (respondOk h ((ashRange h).foldl (fun s f => ashFrameNow f s) s)).mem = (ashRange h).foldl Mem.ashFrame s.mem :=
      (respondOk_mem h _).trans (ashFramesNow_mem _ s)
    refine ⟨_, ashFrames_done ha hdst hx hf, fun x hxm => ?_, fun f hmemf => ?_⟩
    · rw [hmem] at hxm
      exact (Mem.mem_ashFrames hxm).2
    · rw [frame_congr ((congrArg Mem.frames hmem).trans (Mem.frames_ashFrames _ _))]
      exact (hf f hmemf).2.2
  case notAshing =>
    intro h c f s ha hdst hx hf hstate
    obtain ⟨hit, hexec⟩ := ashFrames_fails ha hdst hx hf hstate
    exact ⟨_, hexec, ashFailed_mem h 3 hit s, ashFailed_cache h 3 hit s⟩
  case inval =>
    intro h n s ha hdst hf hlines
    refine ⟨_, ashInval_done ha hdst hf, (respondOk_mem h _).trans (withdrawLines_ash_mem _ s), fun pa hpa hn => ?_⟩
    rw [findLine_congr (respondOk_cache h _)]
    exact findLine_ashed hlines hpa hn
  case array =>
    intro h n s ha hdst hop
    refine ⟨_, ashSram_array ha hdst hop, ?_⟩
    rw [tile_congr (respondOk_tiles h _), tile_ashedArray]
    have hcleared : (tile (clearArray n (arrayState s n) s) n).acc = [] ∧ (tile (clearArray n (arrayState s n) s) n).lead = none := by
      rw [clearArray, tile_congr (setFlds_tiles ..), tile_modTile_same]
      exact ⟨rfl, rfl⟩
    exact ⟨hcleared.1, hcleared.2, rfl, rfl,
      sameBytes_of_parts (by simp [clearArray]) (by simp [clearArray]) (by simp [clearArray])⟩
  case cache =>
    intro h n s ha hdst hop
    refine ⟨_, ashSram_cache ha hdst hop, (tlb_congr (respondOk_xlate h _) n).trans (tlb_setTlb_same n [] s),
      sameBytes_of_parts (respondOk_mem h _) (respondOk_cache h _) (respondOk_coh h _)⟩
  case adapter =>
    intro h n s ha hdst hop
    refine ⟨_, ashSram_adapter ha hdst hop, ?_, sameBytes_of_parts (respondOk_mem h _) (respondOk_cache h _) (respondOk_coh h _)⟩
    rw [site_congr (respondOk_sites h _), site_modSite_same]
  case xlate =>
    intro h s ha hnode hk
    refine ⟨_, ashXlate_done ha hnode hk, fun x hx e he => ?_, fun x hx => ?_⟩
    · rw [tlb_congr (respondOk_xlate h _), tlb_dropHolders, if_pos hx] at he
      simpa using (List.mem_filter.mp he).2
    · rw [tlb_congr (respondOk_xlate h _), tlb_dropHolders, if_neg hx]
  case ways => exact fun h n s ha hdst => ashWays_done ha hdst
  case refused =>
    intro h s ha
    exact ⟨congrArg Host.Outcome.next (ashCommand_refused _ s ha), congrArg Host.Outcome.next (ashCommand_refused _ s ha),
      congrArg Host.Outcome.next (ashCommand_refused _ s ha), congrArg Host.Outcome.next (ashCommand_refused _ s ha)⟩
  case invalRefused => exact fun h s ha => congrArg Host.Outcome.next (ashCommand_refused _ s ha)

end Sys2Proof.Machine
end

section
/-! One step of the block (log entry 1), and the settled statement about it. -/

namespace Sys2Proof.Machine

/-- Settles O1: both clauses are the two equations of `step`. -/
theorem stepRunsFrontCommand : Obligations.StepRunsFrontCommand := by
  unfold Obligations.StepRunsFrontCommand
  refine ⟨fun c s => rfl, fun s h => ?_⟩
  unfold step
  rw [h]

end Sys2Proof.Machine
end

section
/-! The queue of commands (log entry 1) is left as it is by
registers, pages, operations and bytes. A lemma closed by `(rfl)` is kept out of `dsimp`, so that `simp` proves with it
what a fold's step asks for under its binders. -/

namespace Sys2Proof.Machine

@[simp] theorem foldl_pending {α : Type} {g : State → α → State} (hg : ∀ s a, (g s a).pending = s.pending) (l : List α)
    (s : State) :
    (l.foldl g s).pending = s.pending := foldl_keeps State.pending hg l s

theorem foldl_pair_pending {α β : Type} {g : State × β → α → State × β} (hg : ∀ r a, (g r a).1.pending = r.1.pending) (l : List α)
    (r : State × β) : (l.foldl g r).1.pending = r.1.pending := by
  induction l generalizing r with
  | nil => rfl
  | cons a l ih => rw [List.foldl_cons, ih, hg]

@[simp] theorem ite_pending (c : Prop) [Decidable c] (s t : State) :
    (if c then s else t).pending = if c then s.pending else t.pending :=
  apply_ite _ _ _ _

/-- The state that a command answers waits for the same commands as `s`. -/
def KeepsQueue (s : State) (r : Res) : Prop := ∀ t, r = .next t → t.pending = s.pending

@[simp] theorem keepsQueue_next (s t : State) : KeepsQueue s (.next t) ↔ t.pending = s.pending :=
  ⟨fun h => h t rfl, fun h _ ht => by cases ht; exact h⟩

@[simp] theorem keepsQueue_fault (s : State) (f : Fault) : KeepsQueue s (.fault f) := fun _ ht => nomatch ht

@[simp] theorem keepsQueue_refused (s : State) (f : Refusal) : KeepsQueue s (.refused f) := fun _ ht => nomatch ht

@[simp] theorem watchIrq_pending (p : Nat) {f : State → State} (hf : ∀ s, (f s).pending = s.pending) (s : State) :
    (watchIrq p f s).pending = s.pending := by
  simp only [watchIrq]
  split <;> simp [hf]

@[simp] theorem markBad_pending (pa : Nat) (s : State) : (markBad pa s).pending = s.pending := (rfl)
@[simp] theorem putLine_pending (l : Line) (s : State) : (putLine l s).pending = s.pending := (rfl)
@[simp] theorem dropLine_pending (pa : Nat) (s : State) : (dropLine pa s).pending = s.pending := (rfl)

@[simp] theorem recallLine_pending (l : Line) (s : State) : (recallLine l s).pending = s.pending :=
  foldl_pending (by simp) _ _

@[simp] theorem writeByte_pending (pa : Nat) (b : Byte) (s : State) : (writeByte pa b s).pending = s.pending := by
  simp only [writeByte]
  (repeat' split) <;> simp

@[simp] theorem writeBytes_pending (pa : Nat) (l : List Byte) (s : State) : (writeBytes pa l s).pending = s.pending :=
  writeBytes_keeps (φ := State.pending) (fun _ _ _ _ => rfl) pa l s

@[simp] theorem setChannel_pending (c : Nat) (x : Channel) (s : State) : (setChannel c x s).pending = s.pending := (rfl)
@[simp] theorem setStack_pending (n : Nat) (x : StackSt) (s : State) : (setStack n x s).pending = s.pending := (rfl)

@[simp] theorem hostWrite_pending (fn pa : Nat) (data : List Byte) (en : List Bool) (s : State) :
    (hostWrite fn pa data en s).pending = s.pending :=
  foldl_pending (by simp) _ _

@[simp] theorem clearCovered_pending (p : Nat × Nat) (s : State) : (clearCovered p s).pending = s.pending := by simp [clearCovered]

@[simp] theorem writeParts_pending (c : Nat) (l : List (Nat × Nat)) (d : List Byte) (s : State) :
    (writeParts c l d s).pending = s.pending := by
  induction l generalizing d s with
  | nil => rfl
  | cons p l ih =>
    refine (ih _ _).trans ?_
    split
    · exact foldl_pending (by simp) _ _
    · simp

theorem vwrite_pending {h c va : Nat} {data : List Byte} {s t : State} (hw : vwrite h c va data s = .ok t) :
    t.pending = s.pending := by
  unfold vwrite at hw
  split at hw
  · cases hw
  · obtain rfl := Except.ok.inj hw
    simp

/-- `vwrite` as a function of which only that is known: a proof that goes on from it has no call of it to evaluate. -/
theorem vwrite_opaque : ∃ write, write = vwrite ∧
    ∀ {h c va : Nat} {data : List Byte} {s t : State}, write h c va data s = .ok t → t.pending = s.pending :=
  ⟨_, rfl, vwrite_pending⟩

@[simp] theorem setEntry_pending (pa e : Nat) (s : State) : (setEntry pa e s).pending = s.pending := by simp [setEntry]
@[simp] theorem markAccessed_pending (l : Leaf) (s : State) : (markAccessed l s).pending = s.pending := by simp [markAccessed]
@[simp] theorem markDirty_pending (pa : Nat) (s : State) : (markDirty pa s).pending = s.pending := by simp [markDirty]

@[simp] theorem markRange_pending (k va n : Nat) (s : State) : (markRange k va n s).pending = s.pending :=
  foldl_pending (fun s p => by split <;> simp) _ _

end Sys2Proof.Machine
end

section
/-! The queue of commands (log entry 1) is left as it is by
containment, the regulator and the torus (R45 to R61, R279 to R294). -/

namespace Sys2Proof.Machine

@[simp] theorem winPut_pending (k : Nat) (m : WinMsg) (s : State) : (winPut k m s).pending = s.pending := by simp [winPut]

@[simp] theorem winSend_pending (k type : Nat) (body : List Byte) (s : State) : (winSend k type body s).pending = s.pending := by
  simp [winSend]

@[simp] theorem winError_pending (k code reason type seq : Nat) (s : State) :
    (winError k code reason type seq s).pending = s.pending := by simp [winError]

@[simp] theorem discardFaults_pending (k : Nat) (s : State) : (discardFaults k s).pending = s.pending := (rfl)
@[simp] theorem failPasses_pending (n : Nat) (ids : List Nat) (s : State) : (failPasses n ids s).pending = s.pending := (rfl)
@[simp] theorem clearArray_pending (n st : Nat) (s : State) : (clearArray n st s).pending = s.pending := by simp [clearArray]

@[simp] theorem discardMigrations_pending (k : Nat) (s : State) : (discardMigrations k s).pending = s.pending :=
  foldl_pending (by simp) _ _

@[simp] theorem context0Fault_pending (ids : List Nat) (s : State) : (context0Fault ids s).pending = s.pending := (rfl)
@[simp] theorem stopJournal_pending (k : Nat) (s : State) : (stopJournal k s).pending = s.pending := by simp [stopJournal]

@[simp] theorem faultCtx_pending (k : Nat) (ids : List Nat) (seq sev cls : Nat) (s : State) :
    (faultCtx k ids seq sev cls s).pending = s.pending := by simp [faultCtx]

@[simp] theorem raiseAndFault_pending (r : ErrRec) (ids : List Nat) (s : State) : (raiseAndFault r ids s).pending = s.pending := by
  simp [raiseAndFault]

@[simp] theorem ownerViolation_pending (c pa : Nat) (p : Option Pass) (s : State) :
    (ownerViolation c pa p s).pending = s.pending := by simp [ownerViolation]

@[simp] theorem uncorrectable_pending (c pa : Nat) (p : Option Pass) (s : State) :
    (uncorrectable c pa p s).pending = s.pending := by
  simp only [uncorrectable]
  (repeat' split) <;> simp

@[simp] theorem unreachableData_pending (c pa : Nat) (p : Option Pass) (s : State) :
    (unreachableData c pa p s).pending = s.pending := by simp [unreachableData]

@[simp] theorem hostRefused_pending (c pa : Nat) (p : Option Pass) (s : State) : (hostRefused c pa p s).pending = s.pending := by
  simp [hostRefused]

@[simp] theorem dataError_pending (c pa : Nat) (p : Option Pass) (s : State) : (dataError c pa p s).pending = s.pending := by
  simp [dataError]

@[simp] theorem queueUnusable_pending (k : Nat) (ids : List Nat) (s : State) : (queueUnusable k ids s).pending = s.pending := by
  simp [queueUnusable]

@[simp] theorem countFault_pending (k : Nat) (s : State) : (countFault k s).pending = s.pending := (rfl)
@[simp] theorem takeFaultSeq_pending (k : Nat) (s : State) : (takeFaultSeq k s).pending = s.pending := (rfl)

theorem writeFaultRecord_pending {k code level entry page id seq : Nat} {noStall : Bool} {u : StalledUnit} {s t : State}
    (h : writeFaultRecord k code level entry page id seq noStall u s = .written t) : t.pending = s.pending := by
  simp only [writeFaultRecord] at h
  split at h
  · obtain rfl := RecordFate.written.inj h
    simp
  split at h
  · cases h
  split at h
  · cases h
  split at h
  · cases h
  rename_i hw
  obtain rfl := RecordFate.written.inj h
  split <;> simp [vwrite_pending hw]

@[simp] theorem translationFault_pending (k code level entry page : Nat) (u : StalledUnit) (s : State) :
    (translationFault k code level entry page u s).pending = s.pending := by
  fun_cases translationFault k code level entry page u s
  case case2 hw => simp [writeFaultRecord_pending hw]
  case case9 t hw _ _ => exact (setFld_pending ..).trans (show t.pending = _ from writeFaultRecord_pending hw)
  case case4 | case7 => simp
  all_goals rfl

@[simp] theorem retryUnrecorded_pending (k : Nat) (s : State) :
    (retryUnrecorded k s).pending = s.pending := by simp [retryUnrecorded]
@[simp] theorem setLive_pending (c : Nat) (b : Bool) (s : State) : (setLive c b s).pending = s.pending := (rfl)
@[simp] theorem notice_pending (p : Nat) (on : Bool) (s : State) : (notice p on s).pending = s.pending := by simp [notice]
@[simp] theorem refreshPool_pending (p : Nat) (s : State) : (refreshPool p s).pending = s.pending := by simp [refreshPool]
@[simp] theorem refreshPools_pending (s : State) : (refreshPools s).pending = s.pending := by simp [refreshPools]
@[simp] theorem latencySample_pending (src k c ns : Nat) (s : State) : (latencySample src k c ns s).pending = s.pending := (rfl)
@[simp] theorem setRate_pending (k c r : Nat) (s : State) : (setRate k c r s).pending = s.pending := (rfl)
@[simp] theorem updateRate_pending (k c : Nat) (s : State) : (updateRate k c s).pending = s.pending := (rfl)
@[simp] theorem showSlots_pending (k : Nat) (s : State) : (showSlots k s).pending = s.pending := by simp [showSlots]

@[simp] theorem allotSlots_pending (k n : Nat) (chs : List Nat) (s : State) : (allotSlots k n chs s).pending = s.pending := by
  simp [allotSlots]

@[simp] theorem releaseSlots_pending (k : Nat) (s : State) : (releaseSlots k s).pending = s.pending := by simp [releaseSlots]
@[simp] theorem dropChannelSlots_pending (ch : Nat) (s : State) : (dropChannelSlots ch s).pending = s.pending := (rfl)

@[simp] theorem enterTorus_pending (plane : Plane) (src : Nat) (h : Header) (units : List Unit256) (s : State) :
    (enterTorus plane src h units s).pending = s.pending := (rfl)

theorem tryAdmit_pending {src : Nat} {plane : Plane} {h : Header} {units : List Unit256} {s t : State}
    (ht : tryAdmit src plane h units s = some t) : t.pending = s.pending := by
  simp only [tryAdmit] at ht
  split at ht
  · cases ht
  split at ht
  · split at ht
    · cases ht
    · obtain rfl := Option.some.inj ht
      rw [enterTorus_pending]
      split <;> simp
  · obtain rfl := Option.some.inj ht
    simp

@[simp] theorem admitWaiting_pending (s : State) : (admitWaiting s).pending = s.pending := by
  refine (foldl_pending (fun s e => ?_) _ _).trans rfl
  split
  · rename_i ht
    exact tryAdmit_pending ht
  · rfl

@[simp] theorem guestFlits_pending (p : NetPkt) (s : State) : (guestFlits p s).pending = s.pending := by
  unfold guestFlits
  split <;> simp

@[simp] theorem deliverPkt_pending (p : NetPkt) (s : State) : (deliverPkt p s).pending = s.pending := by simp [deliverPkt]

@[simp] theorem grant_pending (r out : Nat) (plane : Plane) (starvedOnly : Bool) (s : State) :
    (grant r out plane starvedOnly s).pending = s.pending := by
  simp only [grant]
  split <;> simp

@[simp] theorem accept_pending (src : Nat) (plane : Plane) (h : Header) (units : List Unit256) (s : State) :
    (accept src plane h units s).pending = s.pending := by
  unfold accept
  extract_lets key g t
  have ht : t.pending = s.pending := by
    unfold t
    split <;> rfl
  split
  · rename_i hadm
    exact (tryAdmit_pending hadm).trans ht
  · exact ht

@[simp] theorem inject_pending (src : Nat) (plane : Plane) (h : Header) (units : List Unit256) (s : State) :
    (inject src plane h units s).pending = s.pending := by simp [inject]

@[simp] theorem execInjectHeader_keepsQueue (src : Nat) (plane : Plane) (h : Header) (units : List Unit256) (s : State) :
    KeepsQueue s (execInjectHeader src plane h units s) := by
  simp [execInjectHeader]

@[simp] theorem execRouterArbitrate_keepsQueue (router out : Nat) (plane : Plane) (s : State) :
    KeepsQueue s (execRouterArbitrate router out plane s) := by
  simp [execRouterArbitrate]

@[simp] theorem execArbitrationStarvation_keepsQueue (router out : Nat) (plane : Plane) (s : State) :
    KeepsQueue s (execArbitrationStarvation router out plane s) := by
  simp [execArbitrationStarvation]

@[simp] theorem execEndpointDown_keepsQueue (node : Nat) (cause : DownCause) (s : State) :
    KeepsQueue s (execEndpointDown node cause s) := by
  simp only [execEndpointDown]
  (repeat' split) <;> simp

@[simp] theorem execLinkBeatReceive_keepsQueue (router dir : Nat) (check : BeatCheck) (s : State) :
    KeepsQueue s (execLinkBeatReceive router dir check s) := by
  simp only [execLinkBeatReceive]
  (repeat' split) <;> simp

@[simp] theorem execCreditReturn_keepsQueue (buffer : Nat) (s : State) : KeepsQueue s (execCreditReturn buffer s) := by
  simp only [execCreditReturn]
  split <;> simp

@[simp] theorem restoreTag_pending (node : Nat) (h : Header) (s : State) : (restoreTag node h s).2.pending = s.pending := by
  unfold restoreTag
  split <;> rfl

@[simp] theorem execResponseArrival_keepsQueue (node : Nat) (h : Header) (units : List Unit256) (clock age : Nat) (s : State) :
    KeepsQueue s (execResponseArrival node h units clock age s) := by
  simp only [execResponseArrival]
  (repeat' split) <;> simp

end Sys2Proof.Machine
end

section
/-! The queue of commands (log entry 1) is left as it is by
the hub cache, the draught tags and the holders of translations (R203 to R217, R271). -/

namespace Sys2Proof.Machine

@[simp] theorem countCorrected_pending (ch : Nat) (s : State) : (countCorrected ch s).pending = s.pending := (rfl)

@[simp] theorem eccCorrected_pending (c pa symbol : Nat) (s : State) : (eccCorrected c pa symbol s).pending = s.pending := by
  refine (congrArg State.pending (congrFun (congr_fun₃ (by delta eccCorrected; rfl : eccCorrected = _) c pa symbol) s)).trans ?_
  split
  · rfl
  · simp

@[simp] theorem senseSector_pending (c pa : Nat) (check : SectorCheck) (s : State) :
    (senseSector c pa check s).pending = s.pending := by
  unfold senseSector
  split <;> simp

@[simp] theorem mcRead_pending (c base mask w : Nat) (s : State) : (mcRead c base mask w s).1.pending = s.pending := by
  simp only [mcRead]
  (repeat' split) <;> simp

@[simp] theorem mcWriteSector_pending (c pa : Nat) (data : List Byte) (en : List Bool) (s : State) :
    (mcWriteSector c pa data en s).1.pending = s.pending := by
  simp only [mcWriteSector]
  (repeat' split) <;> simp

@[simp] theorem mcWriteMask_pending (c base : Nat) (data : List Byte) (mask w : Nat) (s : State) :
    (mcWriteMask c base data mask w s).pending = s.pending := by simp [mcWriteMask]

@[simp] theorem mcWrite_pending (c base : Nat) (data : List Byte) (mask w : Nat) (s : State) :
    (mcWrite c base data mask w s).1.pending = s.pending := by
  simp only [mcWrite]
  (repeat' split) <;> simp

/-- What waits with a step's state waits with the state it is taken apart into. -/
theorem pending_of_pair {β : Type} {x : State × β} {t : State} {b : β} {q : List Instr} (h : x = (t, b)) (hx : x.1.pending = q) :
    t.pending = q := by
  simpa only [h] using hx

theorem pending_of_pair' {β : Type} {x : β × State} {t : State} {b : β} {q : List Instr} (h : x = (b, t)) (hx : x.2.pending = q) :
    t.pending = q := by
  simpa only [h] using hx

@[simp] theorem mcServe_pending (h : Header) (units : List Unit256) (s : State) : (mcServe h units s).pending = s.pending := by
  fun_cases mcServe h units s
  case case1 hr | case3 hr | case4 hr _ => simp [pending_of_pair hr (mcRead_pending ..)]
  case case2 hw => simp [pending_of_pair hw (mcWrite_pending ..)]
  case case9 hw => simp [pending_of_pair hw (mcWriteSector_pending ..)]
  all_goals simp

@[simp] theorem setQueue_pending (ch : Nat) (q : List (Header × List Unit256)) (s : State) :
    (setQueue ch q s).pending = s.pending := (rfl)

@[simp] theorem mcArrive_pending (h : Header) (units : List Unit256) (check : SectorCheck) (s : State) :
    (mcArrive h units check s).pending = s.pending := by
  refine (congrArg State.pending (congrFun (congr_fun₃ (by delta mcArrive; rfl : mcArrive = _) h units check) s)).trans ?_
  have hsense := senseSector_pending h.ctx (h.addr / 32 * 32) check s
  split
  · split <;> simp
  · dsimp only
    split
    · exact (mcServe_pending ..).trans hsense
    · exact hsense

@[simp] theorem drainChannel_pending (ch : Nat) (s : State) : (drainChannel ch s).pending = s.pending := by simp [drainChannel]

@[simp] theorem setHomeLine_pending (pa : Nat) (h : HomeLine) (s : State) : (setHomeLine pa h s).pending = s.pending := by
  simp [setHomeLine]

@[simp] theorem queueHome_pending (pa : Nat) (r : HomeReq) (s : State) :
    (queueHome pa r s).pending = s.pending := by simp [queueHome]

@[simp] theorem beginHome_pending (pa : Nat) (st : HomeState) (pending : Nat) (r : HomeReq) (s : State) :
    (beginHome pa st pending r s).pending = s.pending := by simp [beginHome]

@[simp] theorem sendSnoops_pending (l : Line) (agents : Nat) (inv : Bool) (s : State) :
    (sendSnoops l agents inv s).pending = s.pending := by simp [sendSnoops]

@[simp] theorem snoopFor_pending (l : Line) (agents : Nat) (inv : Bool) (r : HomeReq) (s : State) :
    (snoopFor l agents inv r s).pending = s.pending := by simp [snoopFor]

@[simp] theorem markKeep_pending (l : Line) (s : State) : (markKeep l s).pending = s.pending := by
  simp only [markKeep]
  (repeat' split) <;> simp

@[simp] theorem touchLine_pending (l : Line) (hint : Nat) (s : State) : (touchLine l hint s).pending = s.pending := by
  simp [touchLine]

@[simp] theorem freeLine_pending (l : Line) (s : State) : (freeLine l s).pending = s.pending := by
  simp only [freeLine]
  split <;> simp

theorem makeRoom_pending {pa c w : Nat} {s t : State} (h : makeRoom pa c s = .way w t) : t.pending = s.pending := by
  unfold makeRoom at h
  dsimp only at h
  split at h
  · obtain ⟨-, rfl⟩ := Room.way.inj h
    rfl
  split at h
  · split at h
    · obtain ⟨-, rfl⟩ := Room.way.inj h
      exact freeLine_pending _ s
    · cases h
  · split at h <;> cases h

@[simp] theorem addLine_pending (l : Line) (hint : Nat) (s : State) : (addLine l hint s).pending = s.pending := by simp [addLine]

@[simp] theorem awaitRoom_pending (room : Room) (r : HomeReq) (s : State) : (awaitRoom room r s).pending = s.pending := by
  unfold awaitRoom
  split <;> simp

@[simp] theorem askFill_pending (h : Header) (pa mask : Nat) (r : HomeReq) (s : State) :
    (askFill h pa mask r s).pending = s.pending := by simp [askFill]

@[simp] theorem answerRead_pending (h : Header) (data : List Byte) (s : State) : (answerRead h data s).pending = s.pending := by
  simp [answerRead]

@[simp] theorem discardRead_pending (l : Line) (mask : Nat) (s : State) : (discardRead l mask s).pending = s.pending := by
  simp [discardRead]

/-- One sector of a read leaves the queue where the rest of the read (`below`) does. -/
theorem serveRead_sector_pending (h : Header) {i : Nat} {rest : List Nat}
    (below : List.below (motive := fun _ => Nat → List Byte → State → State) (i :: rest))
    (hrest : ∀ got data s, (below.1 got data s).pending = s.pending) (got : Nat) (data : List Byte) (s : State) :
    (serveRead._f h (i :: rest) below got data s).pending = s.pending := by
  obtain ⟨next, status, hpair, hnext⟩ := step_as_pair State.pending mcRead_pending
  delta serveRead._f
  rw [hpair]
  clear hpair
  dsimp only
  split
  · exact hrest got data s
  split
  · simp
  split
  · split
    · simp
    split
    · simp
    split
    · refine (hrest _ _ _).trans ?_
      (repeat' split) <;> simp
    split
    · split <;> simp [hnext]
    · simp
  · split
    · split <;> simp [hnext]
    split
    · simp
    split
    · rename_i hroom
      simp [makeRoom_pending hroom]
    · simp
    · simp

@[simp] theorem serveRead_pending (h : Header) (l : List Nat) (got : Nat) (data : List Byte) (s : State) :
    (serveRead h l got data s).pending = s.pending := by
  delta serveRead
  induction l generalizing got data s with
  | nil => exact answerRead_pending h data s
  | cons i rest ih => exact serveRead_sector_pending h (List.brecOn.go rest (serveRead._f h)) ih got data s

@[simp] theorem writeInLine_pending (c pa : Nat) (data : List Byte) (en : List Bool) (s : State) :
    (writeInLine c pa data en s).1.pending = s.pending := by
  simp only [writeInLine]
  refine foldl_pair_pending (fun r i => ?_) _ (s, false)
  (repeat' split) <;> simp

@[simp] theorem serveWrite_pending (h : Header) (n pa : Nat) (data : List Byte) (en : List Bool) (bad : Bool) (s : State) :
    (serveWrite h n pa data en bad s).pending = s.pending := by
  fun_induction serveWrite h n pa data en bad s
  case case6 hw ih | case9 hw ih | case11 hw ih =>
    exact (ih _ _).trans ((pending_of_pair hw (writeInLine_pending ..)).trans (by simp))
  case case10 hroom _ _ hw ih =>
    exact (ih _ _).trans ((pending_of_pair hw (writeInLine_pending ..)).trans (by simp [makeRoom_pending hroom]))
  all_goals simp

@[simp] theorem serveAdd_pending (h : Header) (s : State) : (serveAdd h s).pending = s.pending := by
  fun_cases serveAdd h s
  case case1 | case2 | case3 => simp
  case case4 hw => simp [pending_of_pair hw (writeInLine_pending ..)]
  case case5 hr _ | case6 hr _ | case7 hr _ | case8 hr _ => simp [pending_of_pair hr (mcRead_pending ..)]

@[simp] theorem servePte_pending (h : Header) (s : State) : (servePte h s).pending = s.pending := by
  obtain ⟨next, status, hpair, hnext⟩ := step_as_pair State.pending mcRead_pending
  unfold servePte
  rw [hpair]
  dsimp only at hnext ⊢
  (repeat' split) <;> simp [hnext]

@[simp] theorem grantTo_pending (h : Header) (st : Nat) (l : Line) (withData : Bool) (s : State) :
    (grantTo h st l withData s).pending = s.pending := by
  unfold grantTo
  split <;> simp

@[simp] theorem breach_pending (a pa st : Nat) (h : Header) (s : State) :
    (breach a pa st h s).pending = s.pending := by simp [breach]

@[simp] theorem grantOwner_pending (a : Nat) (l : Line) (h : Header) (st : Nat) (withData : Bool) (s : State) :
    (grantOwner a l h st withData s).pending = s.pending := by simp [grantOwner]

@[simp] theorem fillThen_pending (a pa : Nat) (h : Header) (r : HomeReq) (own : Bool) (s : State) :
    (fillThen a pa h r own s).pending = s.pending := by
  unfold fillThen
  split
  · split <;> simp
  · split
    · rename_i hroom
      simp [makeRoom_pending hroom]
    · simp
    · simp

@[simp] theorem serveCoherent_pending (kind a : Nat) (h : Header) (s : State) : (serveCoherent kind a h s).pending = s.pending := by
  fun_cases serveCoherent kind a h s
  all_goals simp

@[simp] theorem withdrawLine_pending (r : HomeReq) (l : Line) (s : State) : (withdrawLine r l s).pending = s.pending := by
  simp only [withdrawLine]
  (repeat' split) <;> simp

@[simp] theorem withdrawAt_pending (r : HomeReq) (pa : Nat) (s : State) : (withdrawAt r pa s).pending = s.pending := by
  unfold withdrawAt
  split <;> simp

@[simp] theorem homeArrive_pending (r : HomeReq) (s : State) : (homeArrive r s).pending = s.pending := by
  unfold homeArrive
  split <;> simp

@[simp] theorem drainHome_pending (q : List HomeReq) (s : State) : (drainHome q s).pending = s.pending := by simp [drainHome]

@[simp] theorem completeHome_pending (pa : Nat) (s : State) : (completeHome pa s).pending = s.pending := by
  simp only [completeHome]
  (repeat' split) <;> simp

@[simp] theorem snoopAnswer_pending (a pa : Nat) (keepsS lost : Bool) (dirty : Nat) (data : List Byte) (s : State) :
    (snoopAnswer a pa keepsS lost dirty data s).pending = s.pending := by
  have hbad (pa : Nat) (s : State) : ((List.range 4).foldl (fun s i => markBad (pa + 32 * i) s) s).pending = s.pending :=
    foldl_pending (by simp) _ s
  unfold snoopAnswer
  dsimp only
  split
  · split
    · simp
    · (repeat' split) <;> simp [hbad]
  · simp

@[simp] theorem fillData_pending (pa status mask : Nat) (data : List Byte) (s : State) :
    (fillData pa status mask data s).pending = s.pending := by
  simp only [fillData]
  (repeat' split) <;> simp

@[simp] theorem evictNotice_pending (a : Nat) (h : Header) (dirty : Nat) (data : List Byte) (s : State) :
    (evictNotice a h dirty data s).pending = s.pending := by
  simp only [evictNotice]
  split <;> simp

@[simp] theorem engineSnoop_pending (pa : Nat) (inv : Bool) (s : State) : (engineSnoop pa inv s).pending = s.pending := by
  unfold engineSnoop
  split
  · rfl
  · extract_lets h
    split
    · rfl
    · exact snoopFor_pending ..

@[simp] theorem accessFailed_pending (k : Nat) (e : AccErr) (u : StalledUnit) (p : Option Pass) (s : State) :
    (accessFailed k e u p s).pending = s.pending := by
  unfold accessFailed
  split <;> simp

@[simp] theorem ashLines_pending (f : Nat) (s : State) : (ashLines f s).pending = s.pending := by simp [ashLines]
@[simp] theorem recallAgents_pending (mask : Nat) (s : State) : (recallAgents mask s).pending = s.pending := by simp [recallAgents]

@[simp] theorem withdrawWays_pending (slice? : Option Nat) (ways : Nat) (c? : Option Nat) (s : State) :
    (withdrawWays slice? ways c? s).pending = s.pending := by simp [withdrawWays]

@[simp] theorem sealedDenied_pending (k off : Nat) (s : State) : (sealedDenied k off s).pending = s.pending := (rfl)

@[simp] theorem tenantWrite_pending (fn k off : Nat) {f : State → State} (hf : ∀ s, (f s).pending = s.pending) (s : State) :
    (tenantWrite fn k off f s).pending = s.pending := by
  simp only [tenantWrite]
  (repeat' split) <;> simp [hf]

@[simp] theorem setTag_pending (k t : Nat) (d : DraughtTag) (s : State) : (setTag k t d s).pending = s.pending := (rfl)

@[simp] theorem tagWritten_pending (k t : Nat) (applied base emax : Int) (hist : List Nat) (reset : Bool) (s : State) :
    (tagWritten k t applied base emax hist reset s).pending = s.pending := by simp [tagWritten]

@[simp] theorem modSelected_pending (k : Nat) (f : DraughtTag → DraughtTag) (s : State) :
    (modSelected k f s).pending = s.pending := (rfl)

@[simp] theorem draughtFreeze_pending (k : Nat) (s : State) : (draughtFreeze k s).pending = s.pending := (rfl)
@[simp] theorem draughtUnfreeze_pending (k : Nat) (s : State) : (draughtUnfreeze k s).pending = s.pending := (rfl)

@[simp] theorem draughtOverride_pending (k value : Nat) (s : State) : (draughtOverride k value s).pending = s.pending := by
  simp [draughtOverride]

@[simp] theorem draughtResetTag_pending (k : Nat) (s : State) : (draughtResetTag k s).pending = s.pending := (rfl)

@[simp] theorem execDraughtFreeze_keepsQueue (fn ctx : Nat) (s : State) : KeepsQueue s (execDraughtFreeze fn ctx s) := by
  simp [execDraughtFreeze]

@[simp] theorem execDraughtUnfreeze_keepsQueue (fn ctx : Nat) (s : State) : KeepsQueue s (execDraughtUnfreeze fn ctx s) := by
  simp [execDraughtUnfreeze]

@[simp] theorem execDraughtOverride_keepsQueue (fn ctx value : Nat) (s : State) :
    KeepsQueue s (execDraughtOverride fn ctx value s) := by
  simp [execDraughtOverride]

@[simp] theorem execDraughtResetTag_keepsQueue (fn ctx : Nat) (s : State) : KeepsQueue s (execDraughtResetTag fn ctx s) := by
  simp [execDraughtResetTag]

@[simp] theorem setTlb_pending (h : Nat) (l : List TlbEnt) (s : State) : (setTlb h l s).pending = s.pending := (rfl)

@[simp] theorem setCountEntry_pending (k frameNo v : Nat) (s : State) : (setCountEntry k frameNo v s).pending = s.pending := by
  unfold setCountEntry
  split
  · rfl
  split
  · rename_i hw
    simp [vwrite_pending hw]
  · rfl

@[simp] theorem addCount_pending (k frameNo n : Nat) (s : State) : (addCount k frameNo n s).pending = s.pending := by
  unfold addCount
  split <;> simp

@[simp] theorem noteRegion_pending (k va pa : Nat) (s : State) : (noteRegion k va pa s).pending = s.pending := by
  simp only [noteRegion]
  split <;> simp

@[simp] theorem flushCount_pending (h : Nat) (e : TlbEnt) (s : State) : (flushCount h e s).pending = s.pending := by
  simp only [flushCount]
  (repeat' split) <;> simp

@[simp] theorem install_pending (h : Nat) (e : TlbEnt) (s : State) : (install h e s).pending = s.pending := by simp [install]
@[simp] theorem markAllDirty_pending (l : Leaf) (s : State) : (markAllDirty l s).pending = s.pending := by simp [markAllDirty]

@[simp] theorem countWalk_pending (k va : Nat) (fault mismatch : Bool) (s : State) :
    (countWalk k va fault mismatch s).pending = s.pending := by simp [countWalk]

@[simp] theorem serveXlate_pending (h k va access : Nat) (s : State) : (serveXlate h k va access s).2.pending = s.pending := by
  unfold serveXlate
  dsimp only
  split
  · simp
  · simp
  · dsimp only
    rw [install_pending]
    (repeat' split) <;> simp

@[simp] theorem countBytes_pending (k pa n : Nat) (s : State) : (countBytes k pa n s).pending = s.pending := by simp [countBytes]

@[simp] theorem useEntry_pending (h k va n : Nat) (write : Bool) (s : State) :
    (useEntry h k va n write s).pending = s.pending := by
  simp only [useEntry]
  (repeat' split) <;> simp

@[simp] theorem accessPage_pending (h k : Nat) (write : Bool) (s : State) (p : Nat × Nat) :
    (accessPage h k write s p).pending = s.pending := by
  simp only [accessPage]
  (repeat' split) <;> simp

@[simp] theorem accessed_pending (h k va n : Nat) (write : Bool) (s : State) :
    (accessed h k va n write s).pending = s.pending := by simp [accessed]

end Sys2Proof.Machine
end

section
/-! The queue of commands (log entry 1) is left as it is by
the register pages, the queues and the operations (R66 to R189). -/

namespace Sys2Proof.Machine

@[simp] theorem pageReset_pending (p : Nat) (s : State) : (pageReset p s).pending = s.pending := by
  unfold pageReset
  split <;> simp

@[simp] theorem irqClear_pending (p mask : Nat) (s : State) : (irqClear p mask s).pending = s.pending := by simp [irqClear]

@[simp] theorem errSummaryClear_pending (p mask : Nat) (s : State) : (errSummaryClear p mask s).pending = s.pending := by
  simp [errSummaryClear]

@[simp] theorem answerAccess_pending (fn p off : Nat) (write : Bool) (data : Nat) (s : State) :
    (answerAccess fn p off write data s).pending = s.pending := (rfl)

@[simp] theorem execBadAccess_keepsQueue (fn page off : Nat) (write : Bool) (s : State) :
    KeepsQueue s (execBadAccess fn page off write s) := by
  simp [execBadAccess]

@[simp] theorem execUnassignedAccess_keepsQueue (fn page off : Nat) (write : Bool) (s : State) :
    KeepsQueue s (execUnassignedAccess fn page off write s) := by
  unfold execUnassignedAccess
  split <;> simp

@[simp] theorem execProgressShadowRead_keepsQueue (fn page : Nat) (s : State) :
    KeepsQueue s (execProgressShadowRead fn page s) := by
  unfold execProgressShadowRead
  split <;> simp

@[simp] theorem execProgressUpperRead_keepsQueue (fn page : Nat) (s : State) : KeepsQueue s (execProgressUpperRead fn page s) := by
  unfold execProgressUpperRead
  split <;> simp

@[simp] theorem execIrqStatusClear_keepsQueue (page mask : Nat) (s : State) : KeepsQueue s (execIrqStatusClear page mask s) := by
  simp [execIrqStatusClear]

@[simp] theorem execIrqForce_keepsQueue (page mask : Nat) (s : State) : KeepsQueue s (execIrqForce page mask s) := by
  simp [execIrqForce]

@[simp] theorem execErrSummaryClear_keepsQueue (page mask : Nat) (s : State) : KeepsQueue s (execErrSummaryClear page mask s) := by
  simp [execErrSummaryClear]

@[simp] theorem execPageReset_keepsQueue (page : Nat) (s : State) : KeepsQueue s (execPageReset page s) := by simp [execPageReset]

@[simp] theorem logWrite_pending (g : LogRegs) (r : ErrRec) (masked : Bool) (s : State) :
    (logWrite g r masked s).1.pending = s.pending := by
  simp only [logWrite]
  split
  · simp
  · split
    · simp
    · rename_i hw
      simp [vwrite_pending hw]

@[simp] theorem logEnable_pending (g : LogRegs) (l : Nat) (s : State) : (logEnable g l s).pending = s.pending := by simp [logEnable]

@[simp] theorem logDoorbell_pending (g : LogRegs) (h : Nat) (s : State) : (logDoorbell g h s).pending = s.pending := by
  simp [logDoorbell]

@[simp] theorem execErrRecord_keepsQueue (s : State) : KeepsQueue s (execErrRecord s) := by
  simp only [execErrRecord]
  (repeat' split) <;> simp

@[simp] theorem execIrqRaise_keepsQueue (s : State) : KeepsQueue s (execIrqRaise s) := by
  unfold execIrqRaise
  split <;> simp

@[simp] theorem execErrlogEnable_keepsQueue (log2Size : Nat) (s : State) : KeepsQueue s (execErrlogEnable log2Size s) := by
  simp [execErrlogEnable]

@[simp] theorem execErrlogDisable_keepsQueue (s : State) : KeepsQueue s (execErrlogDisable s) := by simp [execErrlogDisable]

@[simp] theorem execErrlogDoorbell_keepsQueue (head : Nat) (s : State) : KeepsQueue s (execErrlogDoorbell head s) := by
  simp [execErrlogDoorbell]

@[simp] theorem execErrqEnable_keepsQueue (ctx log2Size : Nat) (irqEn : Bool) (s : State) :
    KeepsQueue s (execErrqEnable ctx log2Size irqEn s) := by
  unfold execErrqEnable
  split <;> simp

@[simp] theorem execErrqDisable_keepsQueue (ctx : Nat) (s : State) : KeepsQueue s (execErrqDisable ctx s) := by
  simp [execErrqDisable]

@[simp] theorem execErrqDoorbell_keepsQueue (ctx head : Nat) (s : State) : KeepsQueue s (execErrqDoorbell ctx head s) := by
  simp [execErrqDoorbell]

@[simp] theorem execErrLatchClear_keepsQueue (s : State) : KeepsQueue s (execErrLatchClear s) := by simp [execErrLatchClear]
@[simp] theorem execMgmtMsg_keepsQueue (h : Header) (s : State) : KeepsQueue s (execMgmtMsg h s) := by simp [execMgmtMsg]

@[simp] theorem execMgmtBulk_keepsQueue (h : Header) (_units : List Unit256) (s : State) :
    KeepsQueue s (execMgmtBulk h _units s) := by
  simp [execMgmtBulk]

@[simp] theorem execQueueReport_keepsQueue (page : Nat) (occupancy : List Nat) (s : State) :
    KeepsQueue s (execQueueReport page occupancy s) := by
  unfold execQueueReport
  split <;> simp

@[simp] theorem ringRefused_pending (k r : Nat) (s : State) : (ringRefused k r s).pending = s.pending := (rfl)
@[simp] theorem cqRefused_pending (k : Nat) (s : State) : (cqRefused k s).pending = s.pending := (rfl)
@[simp] theorem refreshFull_pending (k : Nat) (s : State) : (refreshFull k s).pending = s.pending := (rfl)
@[simp] theorem ringDoorbell_pending (k r v : Nat) (s : State) :
    (ringDoorbell k r v s).pending = s.pending := by simp [ringDoorbell]
@[simp] theorem cqDoorbell_pending (k h : Nat) (s : State) : (cqDoorbell k h s).pending = s.pending := by simp [cqDoorbell]
@[simp] theorem ringEnable_pending (k r l : Nat) (s : State) : (ringEnable k r l s).pending = s.pending := by simp [ringEnable]
@[simp] theorem ringDisable_pending (k r : Nat) (s : State) : (ringDisable k r s).pending = s.pending := (rfl)

@[simp] theorem ringConfig_pending (k r : Nat) (isBase : Bool) (v : Nat) (s : State) :
    (ringConfig k r isBase v s).pending = s.pending := by
  unfold ringConfig
  split <;> simp

@[simp] theorem cqEnable_pending (k l : Nat) (irqEn : Bool) (s : State) : (cqEnable k l irqEn s).pending = s.pending := by
  simp [cqEnable]

@[simp] theorem cqDisable_pending (k : Nat) (s : State) : (cqDisable k s).pending = s.pending := by simp [cqDisable]
@[simp] theorem setFence_pending (k i v : Nat) (err : Bool) (s : State) : (setFence k i v err s).pending = s.pending := (rfl)
@[simp] theorem addFence_pending (k i v : Nat) (s : State) : (addFence k i v s).pending = s.pending := (rfl)

@[simp] theorem signalFence_pending (k i : Nat) (ok : Bool) (s : State) : (signalFence k i ok s).pending = s.pending := by
  simp [signalFence]

@[simp] theorem countOutcome_pending (k status : Nat) (s : State) : (countOutcome k status s).pending = s.pending := by
  simp [countOutcome]

@[simp] theorem completePass_pending (p : Pass) (s : State) : (completePass p s).pending = s.pending := by
  unfold completePass
  extract_lets
  split
  · rfl
  split
  · exact (accessFailed_pending ..).trans rfl
  · rename_i hw
    simp [vwrite_pending hw]

@[simp] theorem ringAbort_pending (k r : Nat) (s : State) : (ringAbort k r s).pending = s.pending := by simp [ringAbort]

@[simp] theorem execRingDoorbell_keepsQueue (fn ctx ring tail : Nat) (s : State) :
    KeepsQueue s (execRingDoorbell fn ctx ring tail s) := by
  simp [execRingDoorbell]

@[simp] theorem execCqDoorbell_keepsQueue (fn ctx head : Nat) (s : State) : KeepsQueue s (execCqDoorbell fn ctx head s) := by
  simp [execCqDoorbell]

@[simp] theorem execRingEnable_keepsQueue (fn ctx ring log2Size : Nat) (s : State) :
    KeepsQueue s (execRingEnable fn ctx ring log2Size s) := by
  simp [execRingEnable]

@[simp] theorem execRingDisable_keepsQueue (fn ctx ring : Nat) (s : State) : KeepsQueue s (execRingDisable fn ctx ring s) := by
  simp [execRingDisable]

@[simp] theorem execRingAbort_keepsQueue (fn ctx ring : Nat) (s : State) : KeepsQueue s (execRingAbort fn ctx ring s) := by
  simp [execRingAbort]

@[simp] theorem execRingConfigWrite_keepsQueue (fn ctx ring : Nat) (isBase : Bool) (value : Nat) (s : State) :
    KeepsQueue s (execRingConfigWrite fn ctx ring isBase value s) := by
  simp [execRingConfigWrite]

@[simp] theorem execCqEnable_keepsQueue (fn ctx log2Size : Nat) (irqEn : Bool) (s : State) :
    KeepsQueue s (execCqEnable fn ctx log2Size irqEn s) := by
  simp [execCqEnable]

@[simp] theorem execCqDisable_keepsQueue (fn ctx : Nat) (s : State) : KeepsQueue s (execCqDisable fn ctx s) := by
  simp [execCqDisable]

@[simp] theorem execFenceValue_keepsQueue (fn ctx num value : Nat) (error : Bool) (s : State) :
    KeepsQueue s (execFenceValue fn ctx num value error s) := by
  simp [execFenceValue]

@[simp] theorem execFenceAdd_keepsQueue (fn ctx num add : Nat) (s : State) : KeepsQueue s (execFenceAdd fn ctx num add s) := by
  simp [execFenceAdd]

theorem writeUnits_pending {h k : Nat} {us : List (Nat × List Byte)} {s t : State} (hw : writeUnits h k us s = .ok t) :
    t.pending = s.pending := by
  unfold writeUnits at hw
  split at hw
  · cases hw
  · obtain rfl := Except.ok.inj hw
    exact foldl_pending (by simp) _ _

@[simp] theorem spansRead_pending (h : Nat) (p : Pass) (s : State) (l : List (Nat × Nat)) :
    (spansRead h p s l).pending = s.pending := by
  simp only [spansRead]
  split <;> simp

end Sys2Proof.Machine
end

section
/-! The queue of commands (log entry 1) is left as it is by
the tiles and their windows (R71 to R109). -/

namespace Sys2Proof.Machine

@[simp] theorem bindEvent_pending (k ev kind index count gen : Nat) (tail : List Byte) (s : State) :
    (bindEvent k ev kind index count gen tail s).pending = s.pending := (rfl)

@[simp] theorem tileSetting_pending (n : Nat) (sealedNow : Bool) (s : State) :
    (tileSetting n sealedNow s).pending = s.pending := (rfl)

@[simp] theorem tileOn_pending (n : Nat) (s : State) : (tileOn n s).pending = s.pending := by simp [tileOn]
@[simp] theorem tileWake_pending (n : Nat) (s : State) : (tileWake n s).pending = s.pending := by simp [tileWake]
@[simp] theorem bindTile_pending (k n : Nat) (s : State) : (bindTile k n s).pending = s.pending := by simp [bindTile]
@[simp] theorem retireTile_pending (n : Nat) (s : State) : (retireTile n s).pending = s.pending := by simp [retireTile]

@[simp] theorem autoReplace_pending (k lost : Nat) (s : State) : (autoReplace k lost s).pending = s.pending := by
  simp only [autoReplace]
  (repeat' split) <;> simp

@[simp] theorem failExecutor_pending (x : Nat) (counts : Bool) (s : State) : (failExecutor x counts s).pending = s.pending := (rfl)
@[simp] theorem movePieces_pending (x : Nat) (a b : PieceState) (s : State) : (movePieces x a b s).pending = s.pending := (rfl)

@[simp] theorem execFeederIssue_keepsQueue (tile : Nat) (ready : Bool) (codes scales : List Nat) (s : State) :
    KeepsQueue s (execFeederIssue tile ready codes scales s) := by
  simp only [execFeederIssue]
  (repeat' split) <;> simp

@[simp] theorem execStationaryLoad_keepsQueue (tile : Nat) (rows scales : List (List Nat)) (s : State) :
    KeepsQueue s (execStationaryLoad tile rows scales s) := by
  simp only [execStationaryLoad]
  (repeat' split) <;> simp

@[simp] theorem execAccumulatorWrite_keepsQueue (tile : Nat) (s : State) : KeepsQueue s (execAccumulatorWrite tile s) := by
  simp [execAccumulatorWrite]

@[simp] theorem passDone_pending (n : Nat) (s : State) : (passDone n s).pending = s.pending := by simp [passDone]

@[simp] theorem execEpilogueRow_keepsQueue (tile : Nat) (s : State) : KeepsQueue s (execEpilogueRow tile s) := by
  refine (keepsQueue_next ..).2 ?_
  extract_lets +onlyGivenNames t
  split
  · rfl
  split
  · rfl
  extract_lets +onlyGivenNames row
  split
  · rfl
  split
  · simp
  extract_lets +onlyGivenNames step
  have hstep (u : State) : (step u).pending = u.pending := by
    simp only [step]
    split <;> simp
  clear_value step
  split
  · exact hstep s
  split
  · exact hstep s
  split
  · simp
  dsimp only
  split
  · simp [hstep]
  split
  · simp
  · rename_i hw
    simp [hstep, writeUnits_pending hw]

@[simp] theorem execThrottleWindow_keepsQueue (tile : Nat) (vector : Bool) (s : State) :
    KeepsQueue s (execThrottleWindow tile vector s) := by
  simp [execThrottleWindow]

@[simp] theorem preempt_pending (n : Nat) (s : State) : (preempt n s).pending = s.pending := by simp [preempt]
@[simp] theorem drainArray_pending (n : Nat) (s : State) : (drainArray n s).pending = s.pending := by simp [drainArray]
@[simp] theorem freezeArray_pending (n : Nat) (s : State) : (freezeArray n s).pending = s.pending := by simp [freezeArray]

@[simp] theorem execPreemptRequest_keepsQueue (tile : Nat) (s : State) : KeepsQueue s (execPreemptRequest tile s) := by
  simp [execPreemptRequest]

@[simp] theorem execArrayDrainDone_keepsQueue (tile : Nat) (s : State) : KeepsQueue s (execArrayDrainDone tile s) := by
  simp [execArrayDrainDone]

@[simp] theorem execArrayFrozen_keepsQueue (tile : Nat) (s : State) : KeepsQueue s (execArrayFrozen tile s) := by
  simp [execArrayFrozen]

@[simp] theorem continueArray_pending (n : Nat) (s : State) : (continueArray n s).pending = s.pending := by simp [continueArray]

@[simp] theorem restoreImage_pending (k slot n : Nat) (s : State) : (restoreImage k slot n s).pending = s.pending := by
  unfold restoreImage
  split <;> simp

@[simp] theorem execArrayResume_keepsQueue (tile : Nat) (slot : Option Nat) (s : State) :
    KeepsQueue s (execArrayResume tile slot s) := by
  unfold execArrayResume
  split <;> simp

@[simp] theorem tileFault_pending (n check detail : Nat) (s : State) : (tileFault n check detail s).pending = s.pending := by
  simp only [tileFault]
  split <;> simp

@[simp] theorem execArrayFault_keepsQueue (tile check row col accRow word : Nat) (s : State) :
    KeepsQueue s (execArrayFault tile check row col accRow word s) := by
  simp [execArrayFault]

@[simp] theorem startSelfTest_pending (n : Nat) (fromFault : Bool) (s : State) :
    (startSelfTest n fromFault s).pending = s.pending := by simp [startSelfTest]

@[simp] theorem afterFault_pending (n : Nat) (s : State) : (afterFault n s).pending = s.pending := by simp [afterFault]

@[simp] theorem execTileFaultAsh_keepsQueue (tile : Nat) (s : State) : KeepsQueue s (execTileFaultAsh tile s) := by
  simp [execTileFaultAsh]

@[simp] theorem execSramCorrected_keepsQueue (tile : Nat) (accumulator : Bool) (accRow word : Nat) (s : State) :
    KeepsQueue s (execSramCorrected tile accumulator accRow word s) := by
  simp [execSramCorrected]

@[simp] theorem endSelfTest_pending (n : Nat) (passed : Bool) (s : State) : (endSelfTest n passed s).pending = s.pending := by
  simp [endSelfTest]

@[simp] theorem execSelfTestEnd_keepsQueue (tile : Nat) (passed : Bool) (s : State) :
    KeepsQueue s (execSelfTestEnd tile passed s) := by
  simp [execSelfTestEnd]

@[simp] theorem winDrop_pending (k : Nat) (s : State) : (winDrop k s).pending = s.pending := (rfl)

@[simp] theorem winAccept_pending (k : Nat) (e : Envelope) {f : State → State} (hf : ∀ s, (f s).pending = s.pending) (s : State) :
    (winAccept k e f s).pending = s.pending := by
  simp only [winAccept]
  (repeat' split) <;> simp [hf]

@[simp] theorem winRefuse_pending (k reason type seq : Nat) (s : State) : (winRefuse k reason type seq s).pending = s.pending := by
  simp [winRefuse]

@[simp] theorem sealedWrite_pending (fn k off : Nat) {f : State → State} (hf : ∀ s, (f s).pending = s.pending) (s : State) :
    (sealedWrite fn k off f s).pending = s.pending := by
  simp only [sealedWrite]
  split
  · rfl
  · exact tenantWrite_pending fn k off hf s

end Sys2Proof.Machine
end

section
/-! The queue of commands (log entry 1) is left as it is by
translation, the caching agents and the homes (R218, R238 to R276). -/

namespace Sys2Proof.Machine

@[simp] theorem tellHolder_pending (h k op arg data : Nat) (s : State) : (tellHolder h k op arg data s).pending = s.pending := by
  unfold tellHolder
  split <;> simp

@[simp] theorem dropRange_pending (h k base pages : Nat) (s : State) : (dropRange h k base pages s).pending = s.pending := by
  simp [dropRange]

@[simp] theorem dropWalks_pending (k base pages : Nat) (s : State) : (dropWalks k base pages s).pending = s.pending := (rfl)
@[simp] theorem dropHolder_pending (h k : Nat) (s : State) : (dropHolder h k s).pending = s.pending := (rfl)
@[simp] theorem dropAll_pending (k : Nat) (s : State) : (dropAll k s).pending = s.pending := foldl_pending (by simp) _ _

@[simp] theorem xlateReq_pending (h sub : Nat) (hd : Header) (s : State) : (xlateReq h sub hd s).pending = s.pending := by
  fun_cases xlateReq h sub hd s
  case case1 => rfl
  case case2 hx | case3 hx => simp [pending_of_pair' hx (serveXlate_pending ..)]

@[simp] theorem xlateErr_pending (k bitNo : Nat) (viaWindow : Bool) (s : State) :
    (xlateErr k bitNo viaWindow s).pending = s.pending := by simp [xlateErr]

@[simp] theorem startInval_pending (i : Inval) (s : State) : (startInval i s).pending = s.pending :=
  (foldl_pending (fun s h => by split <;> simp) _ _).trans (dropWalks_pending i.ctx i.base i.pages s)

@[simp] theorem postInval_pending (k epoch base pages signal : Nat) (signalEn viaWindow : Bool) (s : State) :
    (postInval k epoch base pages signal signalEn viaWindow s).pending = s.pending := by simp [postInval]

@[simp] theorem ackInval_pending (h k epoch : Nat) (placement : Bool) (s : State) :
    (ackInval h k epoch placement s).pending = s.pending := (rfl)

@[simp] theorem ackAll_pending (h : Nat) (s : State) : (ackAll h s).pending = s.pending := (rfl)

@[simp] theorem completeInval_pending (k : Nat) (s : State) : (completeInval k s).pending = s.pending := by
  unfold completeInval
  split <;> simp

@[simp] theorem replayUnit_pending (k : Nat) (u : StalledUnit) (s : State) : (replayUnit k u s).pending = s.pending := by
  simp only [replayUnit]
  (repeat' split) <;> simp

@[simp] theorem faultResume_pending (k id action : Nat) (viaWindow : Bool) (s : State) :
    (faultResume k id action viaWindow s).pending = s.pending := by
  unfold faultResume
  split <;> simp

@[simp] theorem resumeHolder_pending (h k id : Nat) (s : State) : (resumeHolder h k id s).pending = s.pending := by
  simp [resumeHolder]

@[simp] theorem rootWrite_pending (k : Nat) (valid : Bool) (table : Nat) (viaWindow : Bool) (s : State) :
    (rootWrite k valid table viaWindow s).pending = s.pending := by simp [rootWrite]

@[simp] theorem setSiteLink_pending (n v : Nat) (s : State) : (setSiteLink n v s).pending = s.pending := (rfl)
@[simp] theorem siteOff_pending (n : Nat) (s : State) : (siteOff n s).pending = s.pending := by simp [siteOff]
@[simp] theorem loseSnoops_pending (mask : Nat) (s : State) : (loseSnoops mask s).pending = s.pending := by simp [loseSnoops]
@[simp] theorem clearBreaches_pending (mask : Nat) (s : State) : (clearBreaches mask s).pending = s.pending := (rfl)

@[simp] theorem siteNotice_pending (k n : Nat) (f : Field) (s : State) : (siteNotice k n f s).pending = s.pending := by
  simp [siteNotice]

@[simp] theorem fenceSite_pending (n cause detail : Nat) (s : State) : (fenceSite n cause detail s).pending = s.pending := by
  simp only [fenceSite]
  (repeat' split) <;> simp

@[simp] theorem restartCore_pending (m cause : Nat) (s : State) :
    (restartCore m cause s).pending = s.pending := by simp [restartCore]
@[simp] theorem containOne_pending (b : Nat × Bool) (s : State) : (containOne b s).pending = s.pending := by simp [containOne]
@[simp] theorem settle_pending (s : State) : (settle s).pending = s.pending := by simp [settle]

@[simp] theorem sendMgmt_pending (n mtype : Nat) (args : List Nat) (body : List Byte) (s : State) :
    (sendMgmt n mtype args body s).pending = s.pending := (rfl)

@[simp] theorem kppError_pending (n : Nat) (s : State) : (kppError n s).pending = s.pending := by simp [kppError]
@[simp] theorem kppDrop_pending (n : Nat) (s : State) : (kppDrop n s).pending = s.pending := by simp [kppDrop]

@[simp] theorem guestAdmit_pending (n : Nat) (h : Header) (units : List Unit256) (s : State) :
    (guestAdmit n h units s).pending = s.pending := by simp [guestAdmit]

@[simp] theorem guestSubmit_pending (n : Nat) (h : Header) (units : List Unit256) (s : State) :
    (guestSubmit n h units s).pending = s.pending := by
  fun_cases guestSubmit n h units s
  case case5 => rfl
  case case6 hx _ _ _ =>
    exact (guestAdmit_pending ..).trans ((useEntry_pending ..).trans (pending_of_pair' hx (serveXlate_pending ..)))
  case case7 t hx _ _ _ _ => exact (accessFailed_pending ..).trans (show t.pending = _ from pending_of_pair' hx (serveXlate_pending ..))
  case case3 | case4 => exact (guestAdmit_pending ..).trans (useEntry_pending ..)
  all_goals simp

@[simp] theorem releaseHeld_pending (s : State) : (releaseHeld s).pending = s.pending := by simp [releaseHeld]

@[simp] theorem replayGuest_pending (n : Nat) (us : List StalledUnit) (s : State) : (replayGuest n us s).pending = s.pending := by
  simp [replayGuest]

@[simp] theorem guestPacket_pending (n : Nat) (h : Header) (units : List Unit256) (s : State) :
    (guestPacket n h units s).pending = s.pending := by simp [guestPacket]

@[simp] theorem homeRequest_pending (h : Header) {f : State → State} (hf : ∀ s, (f s).pending = s.pending) (s : State) :
    (homeRequest h f s).pending = s.pending := by
  simp only [homeRequest]
  (repeat' split) <;> simp [hf]

@[simp] theorem execRd_keepsQueue (h : Header) (s : State) : KeepsQueue s (execRd h s) :=
  (keepsQueue_next ..).2 (homeRequest_pending _ (fun _ => homeArrive_pending ..) s)

@[simp] theorem execWr_keepsQueue (h : Header) (units : List Unit256) (s : State) : KeepsQueue s (execWr h units s) := by
  simp only [execWr]
  split <;> simp

@[simp] theorem execRdNarrow_keepsQueue (h : Header) (s : State) : KeepsQueue s (execRdNarrow h s) :=
  (keepsQueue_next ..).2 (homeRequest_pending _ (fun _ => homeArrive_pending ..) s)

@[simp] theorem execWrNarrow_keepsQueue (h : Header) (s : State) : KeepsQueue s (execWrNarrow h s) := by simp [execWrNarrow]
@[simp] theorem execAddNarrow_keepsQueue (h : Header) (s : State) : KeepsQueue s (execAddNarrow h s) := by simp [execAddNarrow]

@[simp] theorem execFill_keepsQueue (h : Header) (check : SectorCheck) (s : State) : KeepsQueue s (execFill h check s) := by
  simp [execFill]

@[simp] theorem execWriteback_keepsQueue (h : Header) (units : List Unit256) (s : State) :
    KeepsQueue s (execWriteback h units s) := by
  simp [execWriteback]

@[simp] theorem execMcRd32_keepsQueue (h : Header) (check : SectorCheck) (s : State) : KeepsQueue s (execMcRd32 h check s) := by
  simp [execMcRd32]

@[simp] theorem execMcWr32_keepsQueue (h : Header) (add : Bool) (check : SectorCheck) (s : State) :
    KeepsQueue s (execMcWr32 h add check s) := by
  simp [execMcWr32]

@[simp] theorem execPatrolScrub_keepsQueue (pa : Nat) (check : SectorCheck) (s : State) :
    KeepsQueue s (execPatrolScrub pa check s) := by
  obtain ⟨place, hplace⟩ : ∃ f, f = placeOf := exists_eq
  refine (keepsQueue_next ..).2 ?_
  rw [← hplace]
  split
  · rfl
  · simp
  · split <;> simp -implicitDefEqProofs

@[simp] theorem coherent_pending (h : Header) {f : Nat → State → State} (hf : ∀ a s, (f a s).pending = s.pending) (s : State) :
    (coherent h f s).pending = s.pending := by
  simp only [coherent]
  (repeat' split) <;> simp [hf]

@[simp] theorem execRdShared_keepsQueue (h : Header) (s : State) : KeepsQueue s (execRdShared h s) := by simp [execRdShared]
@[simp] theorem execRdOwn_keepsQueue (h : Header) (s : State) : KeepsQueue s (execRdOwn h s) := by simp [execRdOwn]
@[simp] theorem execUpgrade_keepsQueue (h : Header) (s : State) : KeepsQueue s (execUpgrade h s) := by simp [execUpgrade]
@[simp] theorem execEvictClean_keepsQueue (h : Header) (s : State) : KeepsQueue s (execEvictClean h s) := by simp [execEvictClean]

@[simp] theorem execEvictDirty_keepsQueue (h : Header) (units : List Unit256) (s : State) :
    KeepsQueue s (execEvictDirty h units s) := by
  simp [execEvictDirty]

@[simp] theorem execSnoopAnswer_keepsQueue (agent pa status state : Nat) (withData : Bool) (dirty : Nat) (data : List Byte)
    (s : State) :
    KeepsQueue s (execSnoopAnswer agent pa status state withData dirty data s) := by
  simp [execSnoopAnswer]

@[simp] theorem execFillData_keepsQueue (pa status mask : Nat) (data : List Byte) (s : State) :
    KeepsQueue s (execFillData pa status mask data s) := by
  simp [execFillData]

@[simp] theorem agentSend_pending (a pa op arg : Nat) (units : List Unit256) (s : State) :
    (agentSend a pa op arg units s).pending = s.pending := (rfl)

@[simp] theorem execCoreLoad_keepsQueue (core pa : Nat) (s : State) : KeepsQueue s (execCoreLoad core pa s) := by
  simp only [execCoreLoad]
  (repeat' split) <;> simp

@[simp] theorem execCoreStore_keepsQueue (core pa : Nat) (data : List Byte) (s : State) :
    KeepsQueue s (execCoreStore core pa data s) := by
  simp only [execCoreStore]
  (repeat' split) <;> simp

@[simp] theorem execCoreReplace_keepsQueue (core pa : Nat) (s : State) : KeepsQueue s (execCoreReplace core pa s) := by
  simp only [execCoreReplace]
  (repeat' split) <;> simp

@[simp] theorem answerSnoop_pending (a pa : Nat) (inv keeps : Bool) (g : Option AgLine) (s : State) :
    (answerSnoop a pa inv keeps g s).pending = s.pending := (rfl)

@[simp] theorem actSnoop_pending (a pa : Nat) (inv : Bool) (s : State) : (actSnoop a pa inv s).pending = s.pending := by
  simp only [actSnoop]
  (repeat' split) <;> simp

@[simp] theorem setPortHold_pending (a pa : Nat) (p : PortHold) (s : State) : (setPortHold a pa p s).pending = s.pending := (rfl)

@[simp] theorem snoopArrives_pending (a pa : Nat) (inv : Bool) (s : State) : (snoopArrives a pa inv s).pending = s.pending := by
  simp [snoopArrives]

@[simp] theorem execSnpShared_keepsQueue (agent pa : Nat) (s : State) : KeepsQueue s (execSnpShared agent pa s) := by
  simp [execSnpShared]

@[simp] theorem execSnpInv_keepsQueue (agent pa : Nat) (s : State) : KeepsQueue s (execSnpInv agent pa s) := by simp [execSnpInv]

@[simp] theorem execGrant_keepsQueue (agent pa status state : Nat) (withData : Bool) (data : List Byte) (s : State) :
    KeepsQueue s (execGrant agent pa status state withData data s) := by
  simp only [execGrant]
  (repeat' split) <;> simp

@[simp] theorem execEvictionAck_keepsQueue (agent pa : Nat) (s : State) : KeepsQueue s (execEvictionAck agent pa s) := by
  unfold execEvictionAck
  split <;> simp

@[simp] theorem execHoldRelease_keepsQueue (agent pa : Nat) (s : State) : KeepsQueue s (execHoldRelease agent pa s) := by
  simp [execHoldRelease]

@[simp] theorem execSnoopAnswerTimeout_keepsQueue (agent pa : Nat) (s : State) :
    KeepsQueue s (execSnoopAnswerTimeout agent pa s) := by
  simp [execSnoopAnswerTimeout]

@[simp] theorem execWalkRd_keepsQueue (h : Header) (s : State) : KeepsQueue s (execWalkRd h s) :=
  (keepsQueue_next ..).2 (homeRequest_pending _ (fun _ => homeArrive_pending ..) s)

@[simp] theorem execPteUpdate_keepsQueue (h : Header) (s : State) : KeepsQueue s (execPteUpdate h s) := by simp [execPteUpdate]

@[simp] theorem execXlateReq_keepsQueue (holder sub : Nat) (h : Header) (s : State) :
    KeepsQueue s (execXlateReq holder sub h s) := by
  simp [execXlateReq]

@[simp] theorem execXlateInv_keepsQueue (holder : Nat) (h : Header) (placement : Bool) (s : State) :
    KeepsQueue s (execXlateInv holder h placement s) := by
  simp only [execXlateInv]
  split <;> simp

@[simp] theorem execDirtySet_keepsQueue (holder sub : Nat) (h : Header) (s : State) :
    KeepsQueue s (execDirtySet holder sub h s) := by
  simp only [execDirtySet]
  (repeat' split) <;> simp

@[simp] theorem execCountAdd_keepsQueue (h : Header) (s : State) : KeepsQueue s (execCountAdd h s) := by simp [execCountAdd]

@[simp] theorem execFaultResume_keepsQueue (fn ctx id action : Nat) (s : State) :
    KeepsQueue s (execFaultResume fn ctx id action s) := by
  simp [execFaultResume]

@[simp] theorem execInvCmd_keepsQueue (fn ctx epoch signal : Nat) (signalEn : Bool) (s : State) :
    KeepsQueue s (execInvCmd fn ctx epoch signal signalEn s) := by
  simp [execInvCmd]

@[simp] theorem execInvComplete_keepsQueue (ctx : Nat) (s : State) : KeepsQueue s (execInvComplete ctx s) := by
  simp [execInvComplete]

@[simp] theorem execXlateRootWrite_keepsQueue (fn ctx : Nat) (valid : Bool) (table : Nat) (s : State) :
    KeepsQueue s (execXlateRootWrite fn ctx valid table s) := by
  simp [execXlateRootWrite]

@[simp] theorem fqEnable_pending (k l : Nat) (irqEn : Bool) (s : State) : (fqEnable k l irqEn s).pending = s.pending := by
  simp [fqEnable]

@[simp] theorem fqDisable_pending (k : Nat) (s : State) : (fqDisable k s).pending = s.pending := by simp [fqDisable]
@[simp] theorem fqDoorbell_pending (k h : Nat) (s : State) : (fqDoorbell k h s).pending = s.pending := by simp [fqDoorbell]

@[simp] theorem execFqEnable_keepsQueue (fn ctx log2Size : Nat) (irqEn : Bool) (s : State) :
    KeepsQueue s (execFqEnable fn ctx log2Size irqEn s) := by
  simp [execFqEnable]

@[simp] theorem execFqDisable_keepsQueue (fn ctx : Nat) (s : State) : KeepsQueue s (execFqDisable fn ctx s) := by
  simp [execFqDisable]

@[simp] theorem execFqDoorbell_keepsQueue (fn ctx head : Nat) (s : State) : KeepsQueue s (execFqDoorbell fn ctx head s) := by
  simp [execFqDoorbell]

@[simp] theorem execFaultTimeout_keepsQueue (ctx id : Nat) (s : State) : KeepsQueue s (execFaultTimeout ctx id s) := by
  simp only [execFaultTimeout]
  (repeat' split) <;> simp

@[simp] theorem execGuestInvLate_keepsQueue (site ctx epoch : Nat) (s : State) :
    KeepsQueue s (execGuestInvLate site ctx epoch s) := by
  simp [execGuestInvLate]

@[simp] theorem winXlate_pending (k : Nat) (e : Envelope) {f : State → State} (hf : ∀ s, (f s).pending = s.pending) (s : State) :
    (winXlate k e f s).pending = s.pending :=
  winAccept_pending k e (fun _ => (hf _).trans (bump_pending ..)) s

@[simp] theorem execRootSet_keepsQueue (ctx : Nat) (env : Envelope) (word : Nat) (s : State) :
    KeepsQueue s (execRootSet ctx env word s) := by
  simp [execRootSet]

@[simp] theorem execInvalidate_keepsQueue (ctx : Nat) (env : Envelope) (base pages cmd : Nat) (s : State) :
    KeepsQueue s (execInvalidate ctx env base pages cmd s) := by
  simp [execInvalidate]

@[simp] theorem execSealedResume_keepsQueue (ctx : Nat) (env : Envelope) (word : Nat) (s : State) :
    KeepsQueue s (execSealedResume ctx env word s) := by
  simp [execSealedResume]

end Sys2Proof.Machine
end

section
/-! The queue of commands (log entry 1) is left as it is by
the regulator, HBM and the placement loop (R222 to R236, R279 to R293). -/

namespace Sys2Proof.Machine

@[simp] theorem shareRate_pending (k c : Nat) (s : State) : (shareRate k c s).pending = s.pending := by simp [shareRate]
@[simp] theorem execRateRecompute_keepsQueue (s : State) : KeepsQueue s (execRateRecompute s) := by simp [execRateRecompute]

@[simp] theorem execQueueStarvation_keepsQueue (page queue : Nat) (s : State) :
    KeepsQueue s (execQueueStarvation page queue s) := by
  simp only [execQueueStarvation]
  (repeat' split) <;> simp

@[simp] theorem guaranteeWrite_pending (k c g : Nat) (s : State) : (guaranteeWrite k c g s).pending = s.pending := by
  simp [guaranteeWrite]

@[simp] theorem execGuaranteeWrite_keepsQueue (ctx cls gbs : Nat) (s : State) :
    KeepsQueue s (execGuaranteeWrite ctx cls gbs s) := by
  simp [execGuaranteeWrite]

@[simp] theorem rangeEnable_pending (i c base : Nat) (s : State) : (rangeEnable i c base s).pending = s.pending := by
  simp [rangeEnable]

@[simp] theorem execRangeEnableWrite_keepsQueue (range cls base : Nat) (s : State) :
    KeepsQueue s (execRangeEnableWrite range cls base s) := by
  simp [execRangeEnableWrite]

@[simp] theorem classPoolWrite_pending (v : Nat) (s : State) : (classPoolWrite v s).pending = s.pending := by simp [classPoolWrite]

@[simp] theorem execClassPoolWrite_keepsQueue (value : Nat) (s : State) : KeepsQueue s (execClassPoolWrite value s) := by
  simp [execClassPoolWrite]

@[simp] theorem enterSlot_pending (ch slot : Nat) (s : State) : (enterSlot ch slot s).pending = s.pending := by
  simp only [enterSlot]
  split
  · simp
  · refine (foldl_pair_pending (fun r e => ?_) _ (setQueue ch [] _, 1024)).trans rfl
    split <;> simp

@[simp] theorem execSlotBoundary_keepsQueue (channel slot : Nat) (s : State) : KeepsQueue s (execSlotBoundary channel slot s) := by
  simp [execSlotBoundary]

@[simp] theorem execSealedResponseRelease_keepsQueue (ctx tag age : Nat) (s : State) :
    KeepsQueue s (execSealedResponseRelease ctx tag age s) := by
  simp only [execSealedResponseRelease]
  split <;> simp

@[simp] theorem loseMemory_pending (page : Nat) (ks : List Nat) (s : State) : (loseMemory page ks s).pending = s.pending := by
  simp [loseMemory]

@[simp] theorem failQueue_pending (ch : Nat) (s : State) : (failQueue ch s).pending = s.pending := by simp [failQueue]

@[simp] theorem fenceStack_pending (n : Nat) (s : State) : (fenceStack n s).pending = s.pending := by
  simp only [fenceStack]
  (repeat' split) <;> simp

@[simp] theorem execHbmTempRead_keepsQueue (stack : Nat) (reading : Option Int) (s : State) :
    KeepsQueue s (execHbmTempRead stack reading s) := by
  simp only [execHbmTempRead]
  (repeat' split) <;> simp

@[simp] theorem execHbmThrottleDecision_keepsQueue (stack : Nat) (s : State) : KeepsQueue s (execHbmThrottleDecision stack s) := by
  simp only [execHbmThrottleDecision]
  split <;> simp

@[simp] theorem execHbmStackReturn_keepsQueue (stack : Nat) (s : State) : KeepsQueue s (execHbmStackReturn stack s) := by
  simp only [execHbmStackReturn]
  (repeat' split) <;> simp

@[simp] theorem showEvac_pending (s : State) : (showEvac s).pending = s.pending := foldl_pending (by simp) _ _

@[simp] theorem showWaiting_pending (p : Nat) (s : State) : (showWaiting p s).pending = s.pending := by
  unfold showWaiting
  split <;> simp

@[simp] theorem endEvacOp_pending (p result : Nat) (s : State) : (endEvacOp p result s).pending = s.pending := by
  unfold endEvacOp
  split <;> simp

@[simp] theorem fenceChannel_pending (ch : Nat) (s : State) : (fenceChannel ch s).pending = s.pending := by simp [fenceChannel]

@[simp] theorem beginEvac_pending (ch : Nat) (owner : Bool) (s : State) : (beginEvac ch owner s).pending = s.pending := by
  simp only [beginEvac]
  (repeat' split) <;> simp

@[simp] theorem listEvac_pending (ch : Nat) (owner : Bool) (s : State) : (listEvac ch owner s).pending = s.pending := (rfl)
@[simp] theorem hubEvac_pending (ch : Nat) (s : State) : (hubEvac ch s).pending = s.pending := by simp [hubEvac]

@[simp] theorem execChannelEvacuation_keepsQueue (stack channel : Nat) (s : State) :
    KeepsQueue s (execChannelEvacuation stack channel s) := by
  simp [execChannelEvacuation]

@[simp] theorem execEvacuationDequeue_keepsQueue (s : State) : KeepsQueue s (execEvacuationDequeue s) := by
  unfold execEvacuationDequeue
  split <;> simp

@[simp] theorem execEvacBlockCopied_keepsQueue (block : Nat) (lost : Option Nat) (s : State) :
    KeepsQueue s (execEvacBlockCopied block lost s) := by
  simp only [execEvacBlockCopied]
  (repeat' split) <;> simp

@[simp] theorem execEvacSwitch_keepsQueue (s : State) : KeepsQueue s (execEvacSwitch s) := by
  have hdone (l : List Nat) (t : State) : (l.foldl (fun s k =>
      setFld (pageHbm k) Reg.EVAC_STATUS_DONE (fld s (pageHbm k) Reg.EVAC_STATUS_DONE + 1) s) t).pending = t.pending :=
    foldl_pending (fun s k => setFld_pending ..) l t
  refine (keepsQueue_next ..).2 ?_
  split
  · rfl
  split
  · rfl
  · dsimp only
    simp -implicitDefEqProofs [hdone]

@[simp] theorem execCeThreshold_keepsQueue (channel : Nat) (s : State) : KeepsQueue s (execCeThreshold channel s) := by
  simp [execCeThreshold]

@[simp] theorem announce_pending (ch : Nat) (s : State) : (announce ch s).pending = s.pending := by simp [announce]

@[simp] theorem execPeriodicRetrain_keepsQueue (stack : Nat) (s : State) : KeepsQueue s (execPeriodicRetrain stack s) := by
  simp only [execPeriodicRetrain]
  (repeat' split) <;> simp

@[simp] theorem execRetrainPause_keepsQueue (channel : Nat) (s : State) : KeepsQueue s (execRetrainPause channel s) := by
  simp [execRetrainPause]

@[simp] theorem endPause_pending (ch : Nat) (s : State) : (endPause ch s).pending = s.pending := by
  simp only [endPause]
  split <;> simp

@[simp] theorem endRetrainOp_pending (ch result : Nat) (s : State) : (endRetrainOp ch result s).pending = s.pending := by
  simp [endRetrainOp]

@[simp] theorem retrainOverrun_pending (ch : Nat) (s : State) :
    (retrainOverrun ch s).pending = s.pending := by simp [retrainOverrun]

@[simp] theorem execRetrainOverrun_keepsQueue (channel : Nat) (s : State) : KeepsQueue s (execRetrainOverrun channel s) := by
  simp [execRetrainOverrun]

@[simp] theorem execRetrainEnd_keepsQueue (channel read write : Nat) (s : State) :
    KeepsQueue s (execRetrainEnd channel read write s) := by
  simp [execRetrainEnd]

@[simp] theorem calTrimWrite_pending (stack read write : Nat) (override : Bool) (s : State) :
    (calTrimWrite stack read write override s).pending = s.pending := (rfl)

@[simp] theorem execCalTrimOverride_keepsQueue (stack read write : Nat) (s : State) :
    KeepsQueue s (execCalTrimOverride stack read write s) := by
  simp [execCalTrimOverride]

@[simp] theorem execImmediateRetrain_keepsQueue (stack channel : Nat) (s : State) :
    KeepsQueue s (execImmediateRetrain stack channel s) := by
  simp [execImmediateRetrain]

@[simp] theorem laneCheck_pending (ch failed : Nat) (s : State) : (laneCheck ch failed s).pending = s.pending := by simp [laneCheck]

@[simp] theorem execHbmLaneCheck_keepsQueue (stack channel failed : Nat) (s : State) :
    KeepsQueue s (execHbmLaneCheck stack channel failed s) := by
  simp only [execHbmLaneCheck]
  (repeat' split) <;> simp

@[simp] theorem swapListed_pending (k a b : Nat) (s : State) : (swapListed k a b s).pending = s.pending := by
  unfold swapListed
  split
  · rfl
  split
  · rename_i hw
    simp [vwrite_pending hw]
  · rfl

@[simp] theorem addMigration_pending (k region a b : Nat) (promote : Bool) (s : State) :
    (addMigration k region a b promote s).pending = s.pending := (rfl)

@[simp] theorem decide231_pending (k minCount hyst n : Nat) (l : List Placed) (s : State) :
    (decide231 k minCount hyst n l s).pending = s.pending := by
  obtain ⟨free, hfree⟩ : ∃ f, f = freeIn := exists_eq
  obtain ⟨regions, hregions⟩ : ∃ f, f = regionsIn := exists_eq
  delta decide231 decide231._f
  rw [← hfree, ← hregions]
  induction n generalizing l s with
  | zero => rfl
  | succ n ih =>
    cases l with
    | nil => rfl
    | cons c cs =>
      dsimp only [Nat.brecOn] at ih ⊢
      split
      · rfl
      split
      · exact ih _ _
      split
      · rfl
      split
      · rfl
      split
      · rfl
      · exact ih _ _

@[simp] theorem dropStale_pending (k : Nat) (s : State) : (dropStale k s).pending = s.pending :=
  foldl_pending (fun s f => by split <;> simp) _ s

@[simp] theorem halveCounts_pending (k : Nat) (s : State) : (halveCounts k s).pending = s.pending :=
  foldl_pending (fun s f => by split <;> simp) _ s

@[simp] theorem execPlacementInterval_keepsQueue (ctx : Nat) (s : State) : KeepsQueue s (execPlacementInterval ctx s) := by
  simp [execPlacementInterval]

@[simp] theorem setMigrations_pending (l : List Migration) (s : State) : (setMigrations l s).pending = s.pending := (rfl)
@[simp] theorem dropMigration_pending (m : Migration) (s : State) :
    (dropMigration m s).pending = s.pending := by simp [dropMigration]
@[simp] theorem copyFrame_pending (a b : Nat) (s : State) : (copyFrame a b s).pending = s.pending := by simp [copyFrame]

@[simp] theorem execMigrationCopyDone_keepsQueue (ctx : Nat) (s : State) : KeepsQueue s (execMigrationCopyDone ctx s) := by
  obtain ⟨bad, hbad⟩ : ∃ f, f = badIn := exists_eq
  obtain ⟨copy, hcopy, hc⟩ : ∃ f, f = copyFrame ∧ ∀ a b s, (f a b s).pending = s.pending := ⟨_, rfl, copyFrame_pending⟩
  refine (keepsQueue_next ..).2 ?_
  rw [← hbad, ← hcopy]
  split
  · rfl
  split
  · rfl
  split
  · simp -implicitDefEqProofs
  split
  · simp -implicitDefEqProofs
  · exact (startInval_pending _ _).trans (hc ..)

@[simp] theorem remapRegion_pending (k region f : Nat) (s : State) : (remapRegion k region f s).pending = s.pending := by
  unfold remapRegion
  split <;> simp

@[simp] theorem moveCounts_pending (k region a b : Nat) (s : State) : (moveCounts k region a b s).pending = s.pending := by
  simp [moveCounts]

@[simp] theorem execMigrationInstall_keepsQueue (ctx : Nat) (s : State) : KeepsQueue s (execMigrationInstall ctx s) := by
  obtain ⟨bad, hbad⟩ : ∃ f, f = badIn := exists_eq
  refine (keepsQueue_next ..).2 ?_
  rw [← hbad]
  split
  · rfl
  split
  · rfl
  split
  · rfl
  dsimp only
  split
  · simp -implicitDefEqProofs
  split
  · simp -implicitDefEqProofs
  · simp -implicitDefEqProofs

@[simp] theorem ownerWrite_pending (k off : Nat) {f : State → State} (hf : ∀ s, (f s).pending = s.pending) (s : State) :
    (ownerWrite k off f s).pending = s.pending := by
  simp only [ownerWrite]
  (repeat' split) <;> simp [hf]

@[simp] theorem placeCmd_pending (k region op : Nat) (s : State) : (placeCmd k region op s).pending = s.pending := by
  simp only [placeCmd]
  (repeat' split) <;> simp

@[simp] theorem execPlaceHoldHbm_keepsQueue (ctx region : Nat) (s : State) : KeepsQueue s (execPlaceHoldHbm ctx region s) := by
  simp -implicitDefEqProofs [execPlaceHoldHbm]

@[simp] theorem execPlaceHoldPeat_keepsQueue (ctx region : Nat) (s : State) : KeepsQueue s (execPlaceHoldPeat ctx region s) := by
  simp -implicitDefEqProofs [execPlaceHoldPeat]

@[simp] theorem execPlaceReleaseHold_keepsQueue (ctx region : Nat) (s : State) :
    KeepsQueue s (execPlaceReleaseHold ctx region s) := by
  simp -implicitDefEqProofs [execPlaceReleaseHold]

@[simp] theorem writeWord_pending (p : Nat) (k : PageKind) (off w : Nat) (s : State) :
    (writeWord p k off w s).pending = s.pending := foldl_pending (by simp) _ _

@[simp] theorem execPlaceSet_keepsQueue (ctx : Nat) (env : Envelope) (present ctrl list cnt cmd : Nat) (s : State) :
    KeepsQueue s (execPlaceSet ctx env present ctrl list cnt cmd s) := by
  simp -implicitDefEqProofs [execPlaceSet]

@[simp] theorem wayMaskWrite_pending (k m : Nat) (s : State) : (wayMaskWrite k m s).pending = s.pending := by simp [wayMaskWrite]

@[simp] theorem execWayMaskWrite_keepsQueue (ctx mask : Nat) (s : State) : KeepsQueue s (execWayMaskWrite ctx mask s) := by
  simp -implicitDefEqProofs [execWayMaskWrite]

end Sys2Proof.Machine
end

section
/-! The queue of commands (log entry 1) is left as it is by
the guest sites and the sessions of Plarus (R303 to R342). -/

namespace Sys2Proof.Machine

@[simp] theorem retrainSite_pending (n detail : Nat) (s : State) : (retrainSite n detail s).pending = s.pending := by
  simp [retrainSite]

@[simp] theorem flitFailed_pending (n : Nat) (s : State) : (flitFailed n s).pending = s.pending := by simp [flitFailed]
@[simp] theorem flitOutOfOrder_pending (n : Nat) (s : State) : (flitOutOfOrder n s).pending = s.pending := by simp [flitOutOfOrder]

@[simp] theorem takeReturns_pending (n : Nat) (f : Flit) (s : State) : (takeReturns n f s).1.pending = s.pending := by
  simp only [takeReturns]
  split
  · exact (foldl_pending (by simp) _ _).trans (setSite_pending ..)
  · simp

@[simp] theorem flitIn_pending (n : Nat) (f : Flit) (numbered : Bool) {act : State → State}
    (hf : ∀ s, (act s).pending = s.pending) (s : State) :
    (flitIn n f numbered act s).pending = s.pending := by
  have hret := takeReturns_pending n f s
  unfold flitIn
  split
  · rfl
  split
  · simp
  split
  · rename_i h
    rw [h] at hret
    simpa using hret
  · rename_i h
    rw [h] at hret
    (repeat' split) <;> simpa [hf] using hret

@[simp] theorem parsePackets_pending (n clock fuel : Nat) (s : State) : (parsePackets n clock fuel s).pending = s.pending := by
  fun_induction parsePackets n clock fuel s
  case case4 ih => exact ih.trans ((guestPacket_pending ..).trans rfl)
  all_goals rfl

@[simp] theorem execIdle_keepsQueue (site : Nat) (f : Flit) (s : State) : KeepsQueue s (execIdle site f s) := by
  simp -implicitDefEqProofs [execIdle]

@[simp] theorem execPacket_keepsQueue (site clock : Nat) (f : Flit) (s : State) : KeepsQueue s (execPacket site clock f s) := by
  simp -implicitDefEqProofs [execPacket]

@[simp] theorem execKppAckTimer_keepsQueue (site : Nat) (s : State) : KeepsQueue s (execKppAckTimer site s) := by
  simp -implicitDefEqProofs [execKppAckTimer]

@[simp] theorem execKppRetrain_keepsQueue (site : Nat) (s : State) : KeepsQueue s (execKppRetrain site s) := by
  simp -implicitDefEqProofs [execKppRetrain]

@[simp] theorem startFailed_pending (n reason : Nat) (s : State) : (startFailed n reason s).pending = s.pending := by
  simp only [startFailed]
  split <;> simp

@[simp] theorem startSite_pending (n : Nat) (s : State) : (startSite n s).pending = s.pending := by simp [startSite]

@[simp] theorem execSiteReturn_keepsQueue (site : Nat) (present : Bool) (s : State) :
    KeepsQueue s (execSiteReturn site present s) := by
  simp -implicitDefEqProofs [execSiteReturn]

@[simp] theorem execSiteRailGood_keepsQueue (site mv : Nat) (s : State) : KeepsQueue s (execSiteRailGood site mv s) := by
  simp -implicitDefEqProofs [execSiteRailGood]

@[simp] theorem execSiteResetRelease_keepsQueue (site : Nat) (s : State) : KeepsQueue s (execSiteResetRelease site s) := by
  simp -implicitDefEqProofs [execSiteResetRelease]

@[simp] theorem execSiteSidebandUp_keepsQueue (site : Nat) (s : State) : KeepsQueue s (execSiteSidebandUp site s) := by
  simp -implicitDefEqProofs [execSiteSidebandUp]

@[simp] theorem showLanes_pending (n : Nat) (modes : List Nat) (s : State) : (showLanes n modes s).pending = s.pending :=
  foldl_pending (by simp) _ _

@[simp] theorem execSiteLinkTrained_keepsQueue (site rate : Nat) (modes spares : List Nat) (rechosen : Nat) (s : State) :
    KeepsQueue s (execSiteLinkTrained site rate modes spares rechosen s) := by
  simp -implicitDefEqProofs [execSiteLinkTrained]

@[simp] theorem execSiteStartTimeout_keepsQueue (site : Nat) (s : State) : KeepsQueue s (execSiteStartTimeout site s) := by
  simp -implicitDefEqProofs [execSiteStartTimeout]

@[simp] theorem attestSend_pending (n step : Nat) (s : State) : (attestSend n step s).pending = s.pending := by simp [attestSend]

@[simp] theorem attestStart_pending (n : Nat) (why : AttestWhy) (step : Nat) (s : State) :
    (attestStart n why step s).pending = s.pending := by simp [attestStart]

@[simp] theorem enterService_pending (n : Nat) (s : State) : (enterService n s).pending = s.pending := by
  simp only [enterService]
  split <;> simp

@[simp] theorem attestEnd_pending (n : Nat) (digest : Option Nat) (s : State) : (attestEnd n digest s).pending = s.pending := by
  unfold attestEnd
  extract_lets p why s1 d s2 s3 s4
  have h2 : s2.pending = s.pending := (foldl_pending (by simp) _ _).trans rfl
  have h4 : s4.pending = s.pending := by
    unfold s4 s3
    split <;> simp [h2]
  clear_value s4 why
  cases why
  case op =>
    dsimp only
    split
    · split <;> simp [h4]
    · exact h4
  all_goals simp [h4]

@[simp] theorem spdmStep_pending (n : Nat) (a : SpdmAnswer) (s : State) : (spdmStep n a s).pending = s.pending := by
  simp only [spdmStep]
  (repeat' split) <;> simp

@[simp] theorem execSpdm_keepsQueue (site : Nat) (answer : SpdmAnswer) (s : State) : KeepsQueue s (execSpdm site answer s) := by
  simp -implicitDefEqProofs [execSpdm]

@[simp] theorem execSpdmTimeout_keepsQueue (site : Nat) (s : State) : KeepsQueue s (execSpdmTimeout site s) := by
  simp -implicitDefEqProofs [execSpdmTimeout]

@[simp] theorem hello_pending (n : Nat) (b : List Byte) (s : State) : (hello n b s).pending = s.pending := by simp [hello]

@[simp] theorem execHello_keepsQueue (site : Nat) (body : List Byte) (s : State) : KeepsQueue s (execHello site body s) := by
  simp -implicitDefEqProofs [execHello]

@[simp] theorem sendClear_pending (n : Nat) (s : State) : (sendClear n s).pending = s.pending := by simp [sendClear]
@[simp] theorem clearDone_pending (n gen : Nat) (s : State) : (clearDone n gen s).pending = s.pending := by simp [clearDone]

@[simp] theorem execClearDone_keepsQueue (site gen : Nat) (s : State) : KeepsQueue s (execClearDone site gen s) := by
  simp -implicitDefEqProofs [execClearDone]

@[simp] theorem pauseGuest_pending (n : Nat) (s : State) : (pauseGuest n s).pending = s.pending := by simp [pauseGuest]
@[simp] theorem resumeGuest_pending (n : Nat) (s : State) : (resumeGuest n s).pending = s.pending := by simp [resumeGuest]

@[simp] theorem unlessClearing_pending (n : Nat) {f : State → State} (hf : ∀ s, (f s).pending = s.pending) (s : State) :
    (unlessClearing n f s).pending = s.pending := by
  simp only [unlessClearing]
  (repeat' split) <;> simp [hf]

@[simp] theorem pausedMsg_pending (n : Nat) (s : State) : (pausedMsg n s).pending = s.pending := by simp [pausedMsg]

@[simp] theorem execPaused_keepsQueue (site : Nat) (s : State) : KeepsQueue s (execPaused site s) := by
  simp -implicitDefEqProofs [execPaused]

@[simp] theorem pieceDone_pending (n id status : Nat) (nf sat : Option (Nat × Nat)) (hist : List Nat) (s : State) :
    (pieceDone n id status nf sat hist s).pending = s.pending := by
  simp only [pieceDone]
  (repeat' split) <;> simp

@[simp] theorem execPieceDone_keepsQueue (site id status : Nat) (nonfinite saturated : Option (Nat × Nat)) (hist : List Nat)
    (s : State) :
    KeepsQueue s (execPieceDone site id status nonfinite saturated hist s) := by
  simp -implicitDefEqProofs [execPieceDone]

@[simp] theorem pieceBeat_pending (n id : Nat) (s : State) : (pieceBeat n id s).pending = s.pending := by simp [pieceBeat]

@[simp] theorem execPieceBeat_keepsQueue (site id : Nat) (s : State) : KeepsQueue s (execPieceBeat site id s) := by
  simp -implicitDefEqProofs [execPieceBeat]

@[simp] theorem preemptGuest_pending (n : Nat) (s : State) : (preemptGuest n s).pending = s.pending := by simp [preemptGuest]

@[simp] theorem execPieceBeatTimeout_keepsQueue (site : Nat) (s : State) : KeepsQueue s (execPieceBeatTimeout site s) := by
  simp -implicitDefEqProofs [execPieceBeatTimeout]

@[simp] theorem execStopBoundTimeout_keepsQueue (site : Nat) (s : State) : KeepsQueue s (execStopBoundTimeout site s) := by
  simp -implicitDefEqProofs [execStopBoundTimeout]

@[simp] theorem execClearBoundTimeout_keepsQueue (site : Nat) (s : State) : KeepsQueue s (execClearBoundTimeout site s) := by
  simp -implicitDefEqProofs [execClearBoundTimeout]

@[simp] theorem endGuestRead_pending (n : Nat) (data : Option Nat) (s : State) : (endGuestRead n data s).pending = s.pending := by
  simp only [endGuestRead]
  split <;> simp

@[simp] theorem execRegRsp_keepsQueue (site : Nat) (data : Option Nat) (s : State) : KeepsQueue s (execRegRsp site data s) := by
  simp -implicitDefEqProofs [execRegRsp]

@[simp] theorem guestReg_pending (fn n off width : Nat) (write : Bool) (data : Nat) (s : State) :
    (guestReg fn n off width write data s).pending = s.pending := by simp [guestReg]

@[simp] theorem execGuestRegAccess_keepsQueue (fn site off width : Nat) (write : Bool) (data : Nat) (s : State) :
    KeepsQueue s (execGuestRegAccess fn site off width write data s) := by
  simp -implicitDefEqProofs [execGuestRegAccess]

@[simp] theorem execGuestRegTimeout_keepsQueue (site : Nat) (s : State) : KeepsQueue s (execGuestRegTimeout site s) := by
  simp -implicitDefEqProofs [execGuestRegTimeout]

@[simp] theorem sendPwr_pending (n v : Nat) (s : State) : (sendPwr n v s).pending = s.pending := by simp [sendPwr]
@[simp] theorem pwrAck_pending (n v : Nat) (s : State) : (pwrAck n v s).pending = s.pending := by simp [pwrAck]

@[simp] theorem execPwrAck_keepsQueue (site state : Nat) (s : State) : KeepsQueue s (execPwrAck site state s) := by
  simp -implicitDefEqProofs [execPwrAck]

@[simp] theorem execSiteIdle_keepsQueue (site : Nat) (s : State) : KeepsQueue s (execSiteIdle site s) := by
  simp -implicitDefEqProofs [execSiteIdle]

@[simp] theorem kppErrorMsg_pending (n severity : Nat) (s : State) : (kppErrorMsg n severity s).pending = s.pending := by
  simp [kppErrorMsg]

@[simp] theorem execKppError_keepsQueue (site severity code : Nat) (s : State) :
    KeepsQueue s (execKppError site severity code s) := by
  simp -implicitDefEqProofs [execKppError]

@[simp] theorem execGsTherm_keepsQueue (site : Nat) (s : State) : KeepsQueue s (execGsTherm site s) := by
  simp -implicitDefEqProofs [execGsTherm]

@[simp] theorem execSiteOvercurrent_keepsQueue (site : Nat) (s : State) : KeepsQueue s (execSiteOvercurrent site s) := by
  simp -implicitDefEqProofs [execSiteOvercurrent]

@[simp] theorem execSiteUndervoltage_keepsQueue (site : Nat) (s : State) : KeepsQueue s (execSiteUndervoltage site s) := by
  simp -implicitDefEqProofs [execSiteUndervoltage]

@[simp] theorem degraded_pending (n m dir lane : Nat) (s : State) : (degraded n m dir lane s).pending = s.pending := by
  simp [degraded]

@[simp] theorem execLaneFailure_keepsQueue (site module dir lane : Nat) (s : State) :
    KeepsQueue s (execLaneFailure site module dir lane s) := by
  simp -implicitDefEqProofs [execLaneFailure]

@[simp] theorem setSession_pending (i : Nat) (x : Session) (s : State) : (setSession i x s).pending = s.pending := (rfl)
@[simp] theorem modSession_pending (i : Nat) (f : Session → Session) (s : State) : (modSession i f s).pending = s.pending := (rfl)
@[simp] theorem countUnauth_pending (s : State) : (countUnauth s).pending = s.pending := by simp [countUnauth]
@[simp] theorem countAuthDrop_pending (i : Nat) (s : State) : (countAuthDrop i s).pending = s.pending := by simp [countAuthDrop]
@[simp] theorem countPlarus_pending (k n : Nat) (s : State) : (countPlarus k n s).pending = s.pending := by simp [countPlarus]
@[simp] theorem transmit_pending (i : Nat) (p : TxPkt) (s : State) : (transmit i p s).pending = s.pending := by simp [transmit]

@[simp] theorem pumpN_pending (i n : Nat) (s : State) : (pumpN i n s).pending = s.pending := by
  fun_induction pumpN i n s <;> simp_all

@[simp] theorem pump_pending (i : Nat) (s : State) : (pump i s).pending = s.pending := by simp [pump]

@[simp] theorem plrSend_pending (i : Nat) (plane : Plane) (h : Header) (units : List Unit256) (s : State) :
    (plrSend i plane h units s).pending = s.pending := by simp [plrSend]

@[simp] theorem plrRequest_pending (i : Nat) (h : Header) (units : List Unit256) (s : State) :
    (plrRequest i h units s).pending = s.pending := by simp [plrRequest]

@[simp] theorem plrControl_pending (i kind : Nat) (body : List Byte) (s : State) :
    (plrControl i kind body s).pending = s.pending := by simp [plrControl]

@[simp] theorem plrAck_pending (i : Nat) (s : State) : (plrAck i s).pending = s.pending := by simp [plrAck]

@[simp] theorem emberUnsent_pending (k : Nat) (h : Header) (s : State) : (emberUnsent k h s).pending = s.pending := by
  unfold emberUnsent
  split <;> simp

@[simp] theorem failWaiting_pending (i : Nat) (s : State) : (failWaiting i s).pending = s.pending := by simp [failWaiting]
@[simp] theorem setEmber_pending (k : Nat) (e : EmberSt) (s : State) : (setEmber k e s).pending = s.pending := (rfl)
@[simp] theorem setEmberState_pending (k v : Nat) (s : State) : (setEmberState k v s).pending = s.pending := (rfl)

@[simp] theorem journalLost_pending (k : Nat) (s : State) : (journalLost k s).pending = s.pending := by
  simp only [journalLost]
  split <;> simp

@[simp] theorem sessionGone_pending (i : Nat) (s : State) : (sessionGone i s).pending = s.pending := by simp [sessionGone]
@[simp] theorem sessionLost_pending (i : Nat) (s : State) : (sessionLost i s).pending = s.pending := by simp [sessionLost]

@[simp] theorem sessionFree_pending (i : Nat) (s : State) : (sessionFree i s).pending = s.pending := by
  unfold sessionFree
  dsimp only
  (repeat' split) <;> simp

@[simp] theorem sessionRelease_pending (i : Nat) (s : State) : (sessionRelease i s).pending = s.pending := by
  unfold sessionRelease
  split <;> simp

@[simp] theorem drawHandshake_pending (i : Nat) (s : State) : (drawHandshake i s).pending = s.pending := (rfl)
@[simp] theorem sendInit_pending (i : Nat) (s : State) : (sendInit i s).pending = s.pending := (rfl)
@[simp] theorem sessionBind_pending (i k : Nat) (s : State) : (sessionBind i k s).pending = s.pending := by simp [sessionBind]

@[simp] theorem sessionOpened_pending (i : Nat) (h : Handshake) (salt : List Byte) (s : State) :
    (sessionOpened i h salt s).pending = s.pending := by simp [sessionOpened]

@[simp] theorem retransmit_pending (i : Nat) (p : TxPkt) (s : State) :
    (retransmit i p s).pending = s.pending := by simp [retransmit]
@[simp] theorem takeAck_pending (i : Nat) (h : PlrHdr) (s : State) : (takeAck i h s).pending = s.pending := by simp [takeAck]

@[simp] theorem plrReceive_pending (h : PlrHdr) {f : State → State} (hf : ∀ s, (f s).pending = s.pending) (s : State) :
    (plrReceive h f s).pending = s.pending := by
  simp only [plrReceive]
  (repeat' split) <;> simp [hf]

end Sys2Proof.Machine
end

section
/-! The queue of commands (log entry 1) is left as it is by
the kiln and the contexts (R295 to R302, R310 to R341). -/

namespace Sys2Proof.Machine

@[simp] theorem setRound_pending (slot : Nat) (r : KilnRound) (s : State) : (setRound slot r s).pending = s.pending := (rfl)

@[simp] theorem modRound_pending (slot : Nat) (f : KilnRound → KilnRound) (s : State) :
    (modRound slot f s).pending = s.pending := (rfl)

@[simp] theorem setKilnPool_pending (e : Nat) (l : List Nat) (s : State) : (setKilnPool e l s).pending = s.pending := (rfl)
@[simp] theorem setKilnQueue_pending (e : Nat) (l : List KilnCommit) (s : State) : (setKilnQueue e l s).pending = s.pending := (rfl)
@[simp] theorem showKiln_pending (e : Nat) (s : State) : (showKiln e s).pending = s.pending := by simp [showKiln]

@[simp] theorem kilnChange_pending (e : Nat) {f : State → State} (hf : ∀ s, (f s).pending = s.pending) (s : State) :
    (kilnChange e f s).pending = s.pending := by
  simp only [kilnChange, showKiln_pending]
  split <;> simp [hf]

@[simp] theorem ashFrameNow_pending (f : Nat) (s : State) : (ashFrameNow f s).pending = s.pending := by simp [ashFrameNow]
@[simp] theorem freeFrame_pending (f : Nat) (s : State) : (freeFrame f s).pending = s.pending := by simp [freeFrame]
@[simp] theorem drawFrames_pending (e n : Nat) (s : State) : (drawFrames e n s).2.pending = s.pending := (rfl)

@[simp] theorem returnFrames_pending (e : Nat) (l : List Nat) (s : State) : (returnFrames e l s).pending = s.pending := by
  simp [returnFrames]

@[simp] theorem poolOp_pending (e op first : Nat) (ok : Nat → State → Bool) {act : List Nat → State → State}
    (hf : ∀ l s, (act l s).pending = s.pending) (s : State) : (poolOp e op first ok act s).pending = s.pending := by
  unfold poolOp
  dsimp only
  (repeat' split)
  · simp
  · simp
  · simp
  · simp
  · simp [kilnChange_pending e (hf _)]

@[simp] theorem kilnPoolAdd_pending (e first : Nat) (s : State) : (kilnPoolAdd e first s).pending = s.pending := by
  simp -implicitDefEqProofs [kilnPoolAdd]

@[simp] theorem kilnPoolRemove_pending (e first : Nat) (s : State) : (kilnPoolRemove e first s).pending = s.pending := by
  simp [kilnPoolRemove]

@[simp] theorem execKilnPoolAdd_keepsQueue (engine first : Nat) (s : State) : KeepsQueue s (execKilnPoolAdd engine first s) := by
  simp -implicitDefEqProofs [execKilnPoolAdd]

@[simp] theorem execKilnPoolRemove_keepsQueue (engine first : Nat) (s : State) :
    KeepsQueue s (execKilnPoolRemove engine first s) := by
  simp -implicitDefEqProofs [execKilnPoolRemove]

@[simp] theorem sendStatus_pending (slot i : Nat) (s : State) : (sendStatus slot i s).pending = s.pending := by simp [sendStatus]
@[simp] theorem sendStatuses_pending (slot : Nat) (s : State) : (sendStatuses slot s).pending = s.pending := by simp [sendStatuses]

@[simp] theorem kilnSend_pending (slot hub op addr opData : Nat) (units : List Unit256) (s : State) :
    (kilnSend slot hub op addr opData units s).pending = s.pending := by
  simp only [kilnSend]
  split <;> simp

@[simp] theorem sendSigs_pending (slot hub : Nat) (s : State) : (sendSigs slot hub s).pending = s.pending := by simp [sendSigs]

@[simp] theorem sendSum_pending (slot hub op kind : Nat) (s : State) : (sendSum slot hub op kind s).pending = s.pending := by
  simp [sendSum]

@[simp] theorem kilnAnswered_pending (h : Header) (s : State) : (kilnAnswered h s).pending = s.pending := by
  simp only [kilnAnswered]
  (repeat' split) <;> simp

@[simp] theorem endPut_pending (id status : Nat) (s : State) : (endPut id status s).pending = s.pending := (rfl)

@[simp] theorem stopCommits_pending (slot : Nat) (s : State) : (stopCommits slot s).pending = s.pending := by
  simp only [stopCommits, returnFrames_pending, modRound_pending]
  refine (foldl_pending (fun s c => ?_) _ _).trans (setKilnQueue_pending ..)
  split <;> simp

@[simp] theorem destroyRound_pending (slot cause : Nat) (s : State) : (destroyRound slot cause s).pending = s.pending := by
  simp [destroyRound]

@[simp] theorem destroyAllRounds_pending (s : State) : (destroyAllRounds s).pending = s.pending := by simp [destroyAllRounds]
@[simp] theorem kilnLeave_pending (k : Nat) (s : State) : (kilnLeave k s).pending = s.pending := (rfl)
@[simp] theorem checkRelease_pending (slot : Nat) (s : State) : (checkRelease slot s).pending = s.pending := by simp [checkRelease]

@[simp] theorem trySendPartial_pending (slot : Nat) (s : State) : (trySendPartial slot s).pending = s.pending := by
  simp only [trySendPartial]
  split <;> simp

@[simp] theorem checkOpen_pending (slot : Nat) (s : State) : (checkOpen slot s).pending = s.pending := by simp [checkOpen]

@[simp] theorem createRound_pending (e : Nat) (pol : List Byte) (s : State) : (createRound e pol s).2.pending = s.pending := by
  simp [createRound]

@[simp] theorem joinRound_pending (i : Nat) (body : List Byte) (s : State) : (joinRound i body s).pending = s.pending := by
  unfold joinRound
  extract_lets pol at_ slot s1 s2 r s3
  have h1 : s1.pending = s.pending := by
    refine (modRound_pending ..).trans ?_
    unfold at_
    split
    · rfl
    · exact createRound_pending ..
  have h2 : s2.pending = s.pending := (sendStatus_pending ..).trans ((showKiln_pending ..).trans h1)
  exact (checkOpen_pending ..).trans ((foldl_pending (by simp) _ _).trans h2)

@[simp] theorem execKilnJoin_keepsQueue (ctx : Nat) (env : Envelope) (body : List Byte) (s : State) :
    KeepsQueue s (execKilnJoin ctx env body s) := by
  refine (keepsQueue_next ..).2 (winAccept_pending _ _ (fun s => ?_) s)
  split <;> simp

@[simp] theorem execKilnQuery_keepsQueue (ctx : Nat) (env : Envelope) (head : List Byte) (s : State) :
    KeepsQueue s (execKilnQuery ctx env head s) := by
  refine (keepsQueue_next ..).2 (winAccept_pending _ _ (fun s => ?_) s)
  (repeat' split) <;> simp

@[simp] theorem kilnDiscard_pending (slot : Option Nat) (s : State) : (kilnDiscard slot s).pending = s.pending := by
  simp [kilnDiscard]

@[simp] theorem kilnTake_pending (h : Header) {f : Nat → Nat → State → Option State}
    (hf : ∀ slot hub s t, f slot hub s = some t → t.pending = s.pending) (s : State) : (kilnTake h f s).pending = s.pending := by
  simp only [kilnTake]
  (repeat' split)
  · simp
  · simp
  · simp
  · simp
  · rename_i ht
    simp [hf _ _ _ _ ht]

@[simp] theorem execKlnSig_keepsQueue (h : Header) (units : List Unit256) (s : State) : KeepsQueue s (execKlnSig h units s) := by
  refine (keepsQueue_next ..).2 (kilnTake_pending _ (fun slot _ s t ht => ?_) s)
  dsimp only at ht
  split at ht
  · nomatch ht
  split at ht <;> cases ht <;> simp

@[simp] theorem execKlnOpen_keepsQueue (h : Header) (s : State) : KeepsQueue s (execKlnOpen h s) := by
  simp -implicitDefEqProofs [execKlnOpen]

@[simp] theorem writeBuf_pending (buf : List Nat) (o : Nat) (d : List Byte) (s : State) :
    (writeBuf buf o d s).pending = s.pending := foldl_pending (by simp) _ _

@[simp] theorem execKlnPart_keepsQueue (h : Header) (units : List Unit256) (s : State) : KeepsQueue s (execKlnPart h units s) := by
  refine (keepsQueue_next ..).2 ?_
  split
  · simp
  dsimp only
  split
  · rfl
  refine kilnTake_pending _ (fun slot hub s t ht => ?_) s
  split at ht
  · nomatch ht
  cases ht
  split <;> simp

@[simp] theorem execKlnPartEnd_keepsQueue (h : Header) (s : State) : KeepsQueue s (execKlnPartEnd h s) := by
  refine (keepsQueue_next ..).2 (kilnTake_pending _ (fun slot hub s t ht => ?_) s)
  dsimp only at ht
  split at ht
  · nomatch ht
  split at ht <;> cases ht
  · simp
  · exact kilnChange_pending _ (fun s => setKilnQueue_pending ..) s

@[simp] theorem enterReleased_pending (slot : Nat) (s : State) :
    (enterReleased slot s).pending = s.pending := by simp [enterReleased]

@[simp] theorem execKlnRel_keepsQueue (h : Header) (units : List Unit256) (s : State) : KeepsQueue s (execKlnRel h units s) := by
  simp -implicitDefEqProofs [execKlnRel]

@[simp] theorem execKlnRelEnd_keepsQueue (h : Header) (s : State) : KeepsQueue s (execKlnRelEnd h s) := by
  simp -implicitDefEqProofs [execKlnRelEnd]

@[simp] theorem execKlnNotice_keepsQueue (h : Header) (s : State) : KeepsQueue s (execKlnNotice h s) := by
  refine (keepsQueue_next ..).2 (kilnTake_pending _ (fun slot hub s t ht => ?_) s)
  split at ht
  · nomatch ht
  · cases ht
    simp

@[simp] theorem kilnPut_pending (slot id : Nat) (s : State) : (kilnPut slot id s).pending = s.pending :=
  (foldl_pending (by simp) _ _).trans (by simp)

@[simp] theorem commitSum_pending (slot map : Nat) (data : List Byte) (s : State) :
    (commitSum slot map data s).pending = s.pending := by simp [commitSum]

@[simp] theorem afterCommit_pending (slot : Nat) (s : State) : (afterCommit slot s).pending = s.pending := by simp [afterCommit]

@[simp] theorem commitPut_pending (slot : Nat) (p : Pass) (s : State) : (commitPut slot p s).pending = s.pending := by
  refine (congrArg State.pending (congr_fun₃ (by delta commitPut; rfl : commitPut = _) slot p s)).trans ?_
  generalize readSlotBy = read
  generalize badInSum = bad
  dsimp only
  split
  · exact accessFailed_pending ..
  split
  · exact (destroyRound_pending ..).trans (uncorrectable_pending ..)
  · refine (afterCommit_pending ..).trans ((sendStatus_pending ..).trans ((modPass_pending ..).trans ((modRound_pending ..).trans
      ((returnFrames_pending ..).trans ((commitSum_pending ..).trans ((drawFrames_pending ..).trans ?_))))))
    exact (foldl_pending (by simp) _ _).trans (drew_pending s)

@[simp] theorem execKilnCommit_keepsQueue (engine : Nat) (s : State) : KeepsQueue s (execKilnCommit engine s) := by
  refine (keepsQueue_next ..).2 ?_
  split
  · rfl
  split
  · rfl
  dsimp only
  split
  · refine kilnChange_pending _ (fun s => ?_) s
    split <;> simp
  split
  · exact kilnChange_pending _ (fun s => setKilnQueue_pending ..) s
  split
  · exact kilnChange_pending _ (fun s => setKilnQueue_pending ..) s
  split
  · rfl
  · refine kilnChange_pending _ (fun s => ?_) s
    split <;> simp

@[simp] theorem execKilnNoiseDone_keepsQueue (slot : Nat) (s : State) : KeepsQueue s (execKilnNoiseDone slot s) := by
  simp only [execKilnNoiseDone]
  (repeat' split) <;> simp

@[simp] theorem execKilnDeadline_keepsQueue (slot : Nat) (s : State) : KeepsQueue s (execKilnDeadline slot s) := by
  simp only [execKilnDeadline]
  (repeat' split) <;> simp

@[simp] theorem execKilnMargin_keepsQueue (slot : Nat) (s : State) : KeepsQueue s (execKilnMargin slot s) := by
  simp -implicitDefEqProofs [execKilnMargin]

@[simp] theorem execKilnWaitExpiry_keepsQueue (slot : Nat) (s : State) : KeepsQueue s (execKilnWaitExpiry slot s) := by
  simp -implicitDefEqProofs [execKilnWaitExpiry]

@[simp] theorem execKilnRetainExpiry_keepsQueue (slot : Nat) (s : State) : KeepsQueue s (execKilnRetainExpiry slot s) := by
  simp -implicitDefEqProofs [execKilnRetainExpiry]

@[simp] theorem execKilnSigResend_keepsQueue (slot : Nat) (s : State) : KeepsQueue s (execKilnSigResend slot s) := by
  simp -implicitDefEqProofs [execKilnSigResend]

@[simp] theorem execKilnRoundAshDone_keepsQueue (slot : Nat) (s : State) : KeepsQueue s (execKilnRoundAshDone slot s) := by
  simp -implicitDefEqProofs [execKilnRoundAshDone]

@[simp] theorem abandonTile_pending (n : Nat) (s : State) : (abandonTile n s).pending = s.pending := by simp [abandonTile]

@[simp] theorem parkTile_pending (k n : Nat) (s : State) : (parkTile k n s).pending = s.pending := by
  obtain ⟨write, hwrite, hw⟩ := vwrite_opaque
  obtain ⟨slot, hslot⟩ : ∃ f, f = freeParkSlot := exists_eq
  refine (congrArg State.pending (congrFun (congr_fun₂ (by delta parkTile; rfl : parkTile = _) k n) s)).trans ?_
  rw [← hwrite, ← hslot]
  dsimp only
  split
  · simp
  split
  · simp
  split
  · simp
  · rename_i h
    simp -implicitDefEqProofs [hw h]

@[simp] theorem ashTile_pending (k n : Nat) (s : State) : (ashTile k n s).pending = s.pending := by simp [ashTile]

@[simp] theorem noteRelease_pending (k kind index cnt gen : Nat) (s : State) :
    (noteRelease k kind index cnt gen s).pending = s.pending := (rfl)

@[simp] theorem beginFrameAsh_pending (f : Nat) (s : State) : (beginFrameAsh f s).pending = s.pending := (rfl)
@[simp] theorem stopCtx_pending (k : Nat) (s : State) : (stopCtx k s).pending = s.pending := by simp [stopCtx]

@[simp] theorem resetCtx_pending (k : Nat) (keepMask : Bool) (s : State) : (resetCtx k keepMask s).pending = s.pending := by
  simp [resetCtx]

@[simp] theorem ctxRefuse_pending (k reason : Nat) (s : State) : (ctxRefuse k reason s).pending = s.pending := by simp [ctxRefuse]
@[simp] theorem enterBuilding_pending (k : Nat) (s : State) : (enterBuilding k s).pending = s.pending := by simp [enterBuilding]
@[simp] theorem cancelStalled_pending (k : Nat) (s : State) : (cancelStalled k s).pending = s.pending := (rfl)
@[simp] theorem pauseWork_pending (k : Nat) (s : State) : (pauseWork k s).pending = s.pending := by simp [pauseWork]

@[simp] theorem parkAway_pending (k n : Nat) (s : State) : (parkAway k n s).pending = s.pending :=
  (noteRelease_pending ..).trans ((unbindPage_pending ..).trans ((ashTile_pending ..).trans ((parkTile_pending ..).trans
    ((freezeArray_pending ..).trans (preempt_pending n s)))))

@[simp] theorem ctxPause_pending (k : Nat) (s : State) : (ctxPause k s).pending = s.pending := by simp [ctxPause]
@[simp] theorem ctxPark_pending (k : Nat) (s : State) : (ctxPark k s).pending = s.pending := by simp [ctxPark]
@[simp] theorem ctxResume_pending (k : Nat) (s : State) : (ctxResume k s).pending = s.pending := by simp [ctxResume]
@[simp] theorem ctxRun_pending (k : Nat) (s : State) : (ctxRun k s).pending = s.pending := by simp [ctxRun]

@[simp] theorem ctxSeal_pending (k : Nat) (s : State) : (ctxSeal k s).pending = s.pending := by
  simp -implicitDefEqProofs [ctxSeal]

@[simp] theorem endSite_pending (n : Nat) (s : State) : (endSite n s).pending = s.pending := by
  simp only [endSite]
  split <;> simp

@[simp] theorem ctxEnd_pending (k : Nat) (s : State) : (ctxEnd k s).pending = s.pending := by
  simp -implicitDefEqProofs [ctxEnd]

@[simp] theorem endFree_pending (e : Nat × Nat) (s : State) : (endFree e s).pending = s.pending := by
  unfold endFree
  split <;> simp

@[simp] theorem endingAshDone_pending (k : Nat) (s : State) : (endingAshDone k s).pending = s.pending := by simp [endingAshDone]

@[simp] theorem ctxCmd_pending (k op : Nat) (s : State) : (ctxCmd k op s).pending = s.pending := by
  simp only [ctxCmd]
  (repeat' split) <;> simp

@[simp] theorem execCtxCreate_keepsQueue (ctx : Nat) (s : State) : KeepsQueue s (execCtxCreate ctx s) := by
  simp -implicitDefEqProofs [execCtxCreate]

@[simp] theorem execCtxSeal_keepsQueue (ctx : Nat) (s : State) : KeepsQueue s (execCtxSeal ctx s) := by
  simp -implicitDefEqProofs [execCtxSeal]

@[simp] theorem execCtxStart_keepsQueue (ctx : Nat) (s : State) : KeepsQueue s (execCtxStart ctx s) := by
  simp -implicitDefEqProofs [execCtxStart]

@[simp] theorem execCtxPause_keepsQueue (ctx : Nat) (s : State) : KeepsQueue s (execCtxPause ctx s) := by
  simp -implicitDefEqProofs [execCtxPause]

@[simp] theorem execCtxPark_keepsQueue (ctx : Nat) (s : State) : KeepsQueue s (execCtxPark ctx s) := by
  simp -implicitDefEqProofs [execCtxPark]

@[simp] theorem execCtxResume_keepsQueue (ctx : Nat) (s : State) : KeepsQueue s (execCtxResume ctx s) := by
  simp -implicitDefEqProofs [execCtxResume]

@[simp] theorem execCtxEnd_keepsQueue (ctx : Nat) (s : State) : KeepsQueue s (execCtxEnd ctx s) := by
  simp -implicitDefEqProofs [execCtxEnd]

@[simp] theorem execEndingAshDone_keepsQueue (ctx : Nat) (s : State) : KeepsQueue s (execEndingAshDone ctx s) := by
  simp -implicitDefEqProofs [execEndingAshDone]

@[simp] theorem countReport_pending (s : State) : (countReport s).pending = s.pending := (rfl)

@[simp] theorem keyExchange_pending (k : Nat) (nonce pub : List Byte) (s : State) :
    (keyExchange k nonce pub s).pending = s.pending := by simp [keyExchange]

@[simp] theorem execKeyExchange_keepsQueue (ctx : Nat) (env : Envelope) (nonce key : List Byte) (s : State) :
    KeepsQueue s (execKeyExchange ctx env nonce key s) := by
  simp -implicitDefEqProofs [execKeyExchange]

@[simp] theorem execTenantStart_keepsQueue (ctx : Nat) (env : Envelope) (s : State) :
    KeepsQueue s (execTenantStart ctx env s) := by
  simp -implicitDefEqProofs [execTenantStart]

@[simp] theorem execReportReq_keepsQueue (ctx : Nat) (env : Envelope) (nonce : List Byte) (s : State) :
    KeepsQueue s (execReportReq ctx env nonce s) := by
  simp -implicitDefEqProofs [execReportReq]

@[simp] theorem execTenantEnd_keepsQueue (ctx : Nat) (env : Envelope) (s : State) : KeepsQueue s (execTenantEnd ctx env s) := by
  simp -implicitDefEqProofs [execTenantEnd]

@[simp] theorem execParkSet_keepsQueue (ctx : Nat) (env : Envelope) (word : Nat) (s : State) :
    KeepsQueue s (execParkSet ctx env word s) := by
  simp -implicitDefEqProofs [execParkSet]

@[simp] theorem execWindowRekey_keepsQueue (ctx : Nat) (env : Envelope) (nonce key : List Byte) (s : State) :
    KeepsQueue s (execWindowRekey ctx env nonce key s) := by
  simp -implicitDefEqProofs [execWindowRekey]

@[simp] theorem execLogReq_keepsQueue (ctx : Nat) (env : Envelope) (first : Nat) (s : State) :
    KeepsQueue s (execLogReq ctx env first s) := by
  simp -implicitDefEqProofs [execLogReq]

@[simp] theorem execOutAckRelease_keepsQueue (fn ctx : Nat) (release : Bool) (s : State) :
    KeepsQueue s (execOutAckRelease fn ctx release s) := by
  simp only [execOutAckRelease]
  (repeat' split) <;> simp

@[simp] theorem execInPostDiscard_keepsQueue (ctx : Nat) (env : Envelope) (s : State) :
    KeepsQueue s (execInPostDiscard ctx env s) := by
  simp -implicitDefEqProofs [execInPostDiscard]

end Sys2Proof.Machine
end

section
/-! The queue of commands (log entry 1) is left as it is by
coppicing and the ember (R305 to R350). -/

namespace Sys2Proof.Machine

@[simp] theorem noteBind_pending (k kind index cnt gen : Nat) (tail : List Byte) (s : State) :
    (noteBind k kind index cnt gen tail s).pending = s.pending := (rfl)

@[simp] theorem takeFrames_pending (k : Nat) (fs : List Nat) (s : State) : (takeFrames k fs s).pending = s.pending := by
  simp [takeFrames]

@[simp] theorem coppiceBind_pending (k kind index cnt : Nat) (s : State) :
    (coppiceBind k kind index cnt s).pending = s.pending := by
  unfold coppiceBind
  split <;> simp

@[simp] theorem setCoppice_pending (k : Nat) (r : Option CoppiceRun) (s : State) : (setCoppice k r s).pending = s.pending := (rfl)

@[simp] theorem coppiceStep_pending (k n : Nat) (s : State) : (coppiceStep k n s).pending = s.pending := by
  unfold coppiceStep
  split <;> simp

@[simp] theorem coppiceEnd_pending (k result reason : Nat) (s : State) : (coppiceEnd k result reason s).pending = s.pending := by
  simp only [coppiceEnd]
  (repeat' split) <;> simp

@[simp] theorem coppiceBegin_pending (k : Nat) (r : CoppiceRun) (s : State) : (coppiceBegin k r s).pending = s.pending := by
  unfold coppiceBegin
  split
  case h_2 => exact (coppiceStep_pending ..).trans ((foldl_pending (by simp) _ _).trans ((dropAll_pending ..).trans (setCoppice_pending ..)))
  case h_6 =>
    refine (coppiceStep_pending ..).trans ?_
    split <;> simp
  all_goals simp

@[simp] theorem coppiceStart_pending (k kind index cnt target : Nat) (park : Bool) (s : State) :
    (coppiceStart k kind index cnt target park s).pending = s.pending := by
  simp only [coppiceStart]
  (repeat' split) <;> simp

@[simp] theorem coppiceOwn_pending (k : Nat) (r : CoppiceRun) (gen : Nat) (s : State) :
    (coppiceOwn k r gen s).pending = s.pending := by simp [coppiceOwn]

@[simp] theorem tileStep_pending (k : Nat) (r : CoppiceRun) (s : State) : (tileStep k r s).pending = s.pending := by
  unfold tileStep
  dsimp only
  split
  · split <;> simp
  · refine (coppiceStep_pending ..).trans ((unbindPage_pending ..).trans ?_)
    split <;> simp
  · split <;> simp

@[simp] theorem siteStep_pending (k : Nat) (r : CoppiceRun) (s : State) : (siteStep k r s).pending = s.pending := by simp [siteStep]

@[simp] theorem coppiceStepDone_pending (k : Nat) (s : State) : (coppiceStepDone k s).pending = s.pending := by
  simp only [coppiceStepDone]
  (repeat' split) <;> simp

@[simp] theorem coppiceForced_pending (k kind index : Nat) (s : State) : (coppiceForced k kind index s).pending = s.pending := by
  simp [coppiceForced]

@[simp] theorem coppiceCmd_pending (k kind index cnt target : Nat) (park : Bool) (s : State) :
    (coppiceCmd k kind index cnt target park s).pending = s.pending := by simp [coppiceCmd]

@[simp] theorem execCoppiceTile_keepsQueue (ctx tile target : Nat) (park : Bool) (s : State) :
    KeepsQueue s (execCoppiceTile ctx tile target park s) := by
  simp -implicitDefEqProofs [execCoppiceTile]

@[simp] theorem execCoppiceFrames_keepsQueue (ctx first count target : Nat) (s : State) :
    KeepsQueue s (execCoppiceFrames ctx first count target s) := by
  simp -implicitDefEqProofs [execCoppiceFrames]

@[simp] theorem execCoppiceWays_keepsQueue (ctx first count target : Nat) (s : State) :
    KeepsQueue s (execCoppiceWays ctx first count target s) := by
  simp -implicitDefEqProofs [execCoppiceWays]

@[simp] theorem execCoppiceSite_keepsQueue (ctx site target : Nat) (s : State) :
    KeepsQueue s (execCoppiceSite ctx site target s) := by
  simp -implicitDefEqProofs [execCoppiceSite]

@[simp] theorem execCoppiceSession_keepsQueue (ctx session target : Nat) (s : State) :
    KeepsQueue s (execCoppiceSession ctx session target s) := by
  simp -implicitDefEqProofs [execCoppiceSession]

@[simp] theorem execCoppiceKilnRound_keepsQueue (ctx handle target : Nat) (s : State) :
    KeepsQueue s (execCoppiceKilnRound ctx handle target s) := by
  simp -implicitDefEqProofs [execCoppiceKilnRound]

@[simp] theorem execCoppiceStepDone_keepsQueue (ctx : Nat) (s : State) : KeepsQueue s (execCoppiceStepDone ctx s) := by
  simp -implicitDefEqProofs [execCoppiceStepDone]

@[simp] theorem ashFailed_pending (h : Header) (status : Nat) (hit : CoppiceRun → Bool) (s : State) :
    (ashFailed h status hit s).pending = s.pending := by
  refine (foldl_pending (fun s k => ?_) _ _).trans ((raiseErr_pending ..).trans (respond_pending h status [] s))
  split
  · split <;> simp
  · rfl

@[simp] theorem ashCommand_pending (h : Header) (inval : Bool) {f : State → State} (hf : ∀ s, (f s).pending = s.pending)
    (s : State) :
    (ashCommand h inval f s).pending = s.pending := by
  simp only [ashCommand]
  split <;> simp [hf]

@[simp] theorem execAshFrames_keepsQueue (h : Header) (s : State) : KeepsQueue s (execAshFrames h s) := by
  simp -implicitDefEqProofs [execAshFrames]

@[simp] theorem execAshInval_keepsQueue (h : Header) (s : State) : KeepsQueue s (execAshInval h s) := by
  unfold execAshInval
  split <;> simp

@[simp] theorem execAshSram_keepsQueue (h : Header) (s : State) : KeepsQueue s (execAshSram h s) := by
  unfold execAshSram
  split <;> simp

@[simp] theorem execAshXlate_keepsQueue (h : Header) (s : State) : KeepsQueue s (execAshXlate h s) := by
  simp -implicitDefEqProofs [execAshXlate]

@[simp] theorem execAshWays_keepsQueue (h : Header) (s : State) : KeepsQueue s (execAshWays h s) := by
  unfold execAshWays
  split <;> simp

@[simp] theorem modEmber_pending (k : Nat) (f : EmberSt → EmberSt) (s : State) : (modEmber k f s).pending = s.pending := (rfl)

@[simp] theorem showLog_pending (k : Nat) (s : State) : (showLog k s).pending = s.pending := by
  simp -implicitDefEqProofs [showLog]

@[simp] theorem sendRun_pending (k op addr : Nat) (d : List Byte) (s : State) : (sendRun k op addr d s).pending = s.pending := by
  unfold sendRun
  split <;> simp

@[simp] theorem streamPage_pending (k : Nat) (p : Nat × Nat × Nat × Nat) (s : State) : (streamPage k p s).pending = s.pending := by
  simp only [streamPage]
  split <;> simp

@[simp] theorem emberStream_pending (k va : Nat) (s : State) : (emberStream k va s).pending = s.pending := by
  unfold emberStream
  split <;> simp

@[simp] theorem execEmberStream_keepsQueue (ctx va : Nat) (s : State) : KeepsQueue s (execEmberStream ctx va s) := by
  simp -implicitDefEqProofs [execEmberStream]

@[simp] theorem loadState_pending (k : Nat) (ws : List Nat) (s : State) : (loadState k ws s).pending = s.pending := by
  simp -implicitDefEqProofs [loadState]

@[simp] theorem emberPointStart_pending (k id : Nat) (s : State) : (emberPointStart k id s).pending = s.pending := by
  simp [emberPointStart]

@[simp] theorem emberPointFail_pending (k : Nat) (s : State) : (emberPointFail k s).pending = s.pending := by
  simp only [emberPointFail]
  split <;> simp

@[simp] theorem emberPointSend_pending (k : Nat) (s : State) : (emberPointSend k s).pending = s.pending := by
  simp only [emberPointSend]
  (repeat' split) <;> simp

@[simp] theorem emberAnswered_pending (h : Header) (status : Nat) (s : State) :
    (emberAnswered h status s).pending = s.pending := by simp [emberAnswered]

@[simp] theorem emberStart_pending (k : Nat) (s : State) : (emberStart k s).pending = s.pending := by simp [emberStart]
@[simp] theorem emberStop_pending (k : Nat) (s : State) : (emberStop k s).pending = s.pending := by simp [emberStop]

@[simp] theorem promoteEnd_pending (k : Nat) (s : State) : (promoteEnd k s).pending = s.pending := by
  simp only [promoteEnd]
  split <;> simp

@[simp] theorem emberPromote_pending (k : Nat) (s : State) : (emberPromote k s).pending = s.pending := by simp [emberPromote]
@[simp] theorem emberOp_pending (k op : Nat) (s : State) : (emberOp k op s).pending = s.pending := by simp [emberOp]

@[simp] theorem execEmberJournalStart_keepsQueue (ctx : Nat) (s : State) : KeepsQueue s (execEmberJournalStart ctx s) := by
  simp -implicitDefEqProofs [execEmberJournalStart]

@[simp] theorem execEmberJournalStop_keepsQueue (ctx : Nat) (s : State) : KeepsQueue s (execEmberJournalStop ctx s) := by
  simp -implicitDefEqProofs [execEmberJournalStop]

@[simp] theorem execEmberPromoteOp_keepsQueue (ctx : Nat) (s : State) : KeepsQueue s (execEmberPromoteOp ctx s) := by
  simp -implicitDefEqProofs [execEmberPromoteOp]

@[simp] theorem winEmber_pending (k type : Nat) (e : Envelope) (reason : State → Nat) {f : State → State}
    (hf : ∀ s, (f s).pending = s.pending) (s : State) : (winEmber k type e reason f s).pending = s.pending := by
  refine winAccept_pending k e (fun s => ?_) s
  dsimp only
  split <;> simp [hf]

@[simp] theorem execEmberSet_keepsQueue (ctx : Nat) (env : Envelope) (cfg log : Nat) (s : State) :
    KeepsQueue s (execEmberSet ctx env cfg log s) := by
  simp -implicitDefEqProofs [execEmberSet]

@[simp] theorem execEmberStart_keepsQueue (ctx : Nat) (env : Envelope) (s : State) : KeepsQueue s (execEmberStart ctx env s) := by
  simp -implicitDefEqProofs [execEmberStart]

@[simp] theorem execEmberStop_keepsQueue (ctx : Nat) (env : Envelope) (s : State) : KeepsQueue s (execEmberStop ctx env s) := by
  simp -implicitDefEqProofs [execEmberStop]

@[simp] theorem execEmberPromote_keepsQueue (ctx : Nat) (env : Envelope) (s : State) :
    KeepsQueue s (execEmberPromote ctx env s) := by
  simp -implicitDefEqProofs [execEmberPromote]

@[simp] theorem embTake_pending (h : Header) {f : Nat → State → Option State}
    (hf : ∀ k s t, f k s = some t → t.pending = s.pending) (s : State) : (embTake h f s).pending = s.pending := by
  unfold embTake
  extract_lets i k id ep drop st bound fresh past u
  have hdrop : (drop s).pending = s.pending := count_pending ..
  split
  · exact hdrop
  split
  · exact hdrop
  split
  · exact hdrop
  have hu : u.pending = s.pending := by
    unfold u
    split <;> simp
  split
  · rename_i ht
    exact (plrSend_pending ..).trans ((hf _ _ _ ht).trans hu)
  · exact (plrSend_pending ..).trans hu

@[simp] theorem countPage_pending (k : Nat) (h : Header) (n : Nat) (s : State) : (countPage k h n s).pending = s.pending := by
  simp [countPage]

@[simp] theorem execEmbData_keepsQueue (h : Header) (units : List Unit256) (s : State) : KeepsQueue s (execEmbData h units s) := by
  obtain ⟨write, hwrite, hw⟩ := vwrite_opaque
  refine (keepsQueue_next ..).2 ?_
  rw [← hwrite]
  dsimp only
  split
  · simp
  refine embTake_pending _ (fun k s t ht => ?_) s
  split at ht
  · split at ht
    · rename_i hd
      cases ht
      simp [hw hd]
    · nomatch ht
  split at ht
  · nomatch ht
  split at ht
  · nomatch ht
  · rename_i hd
    cases ht
    simp [hw hd]

@[simp] theorem execEmbState_keepsQueue (h : Header) (units : List Unit256) (s : State) :
    KeepsQueue s (execEmbState h units s) := by
  simp -implicitDefEqProofs [execEmbState]

@[simp] theorem execEmbCommit_keepsQueue (h : Header) (s : State) : KeepsQueue s (execEmbCommit h s) := by
  simp -implicitDefEqProofs [execEmbCommit]

@[simp] theorem execEmbAck_keepsQueue (h : Header) (s : State) : KeepsQueue s (execEmbAck h s) := by
  simp only [execEmbAck]
  (repeat' split) <;> simp

@[simp] theorem applyEntries_pending (k : Nat) (l : List EmberEnt) (s : State) : (applyEntries k l s).pending = s.pending := by
  fun_induction applyEntries k l s
  case case4 hw ih => exact ih.trans (by simp [vwrite_pending hw])
  all_goals simp

@[simp] theorem execEmberApply_keepsQueue (ctx : Nat) (s : State) : KeepsQueue s (execEmberApply ctx s) := by
  simp only [execEmberApply]
  (repeat' split) <;> simp

end Sys2Proof.Machine
end

section
/-! The queue of commands (log entry 1) is left as it is by
time, the sessions and the port (R399 to R444). -/

namespace Sys2Proof.Machine

@[simp] theorem showTime_pending (s : State) : (showTime s).pending = s.pending := by
  simp only [showTime]
  (repeat' split) <;> simp

@[simp] theorem setTimeSt_pending (n : Nat) (s : State) : (setTimeSt n s).pending = s.pending := by simp [setTimeSt]

@[simp] theorem sourceChange_pending (s : State) : (sourceChange s).pending = s.pending := by
  unfold sourceChange
  split <;> simp

@[simp] theorem addTime_pending (d : Int) (s : State) : (addTime d s).pending = s.pending := (rfl)
@[simp] theorem sendTime_pending (op arg data : Nat) (s : State) : (sendTime op arg data s).pending = s.pending := (rfl)
@[simp] theorem stepTime_pending (d : Int) (s : State) : (stepTime d s).pending = s.pending := by simp [stepTime]

@[simp] theorem phaseError_pending (e : Int) (s : State) : (phaseError e s).pending = s.pending := by
  simp only [phaseError]
  (repeat' split) <;> simp

@[simp] theorem execPpsInEdge_keepsQueue (rawPs : Int) (s : State) : KeepsQueue s (execPpsInEdge rawPs s) := by
  simp -implicitDefEqProofs [execPpsInEdge]

@[simp] theorem execPpsMissed_keepsQueue (s : State) : KeepsQueue s (execPpsMissed s) := by
  simp -implicitDefEqProofs [execPpsMissed]

@[simp] theorem execRef10mInChange_keepsQueue (present : Bool) (s : State) : KeepsQueue s (execRef10mInChange present s) := by
  simp -implicitDefEqProofs [execRef10mInChange]

@[simp] theorem execHoldoverEntry_keepsQueue (s : State) : KeepsQueue s (execHoldoverEntry s) := by
  simp -implicitDefEqProofs [execHoldoverEntry]

@[simp] theorem execLockAchieved_keepsQueue (s : State) : KeepsQueue s (execLockAchieved s) := by
  simp -implicitDefEqProofs [execLockAchieved]

@[simp] theorem execPhaseJump_keepsQueue (s : State) : KeepsQueue s (execPhaseJump s) := by
  simp -implicitDefEqProofs [execPhaseJump]

@[simp] theorem execTimebaseStep_keepsQueue (s : State) : KeepsQueue s (execTimebaseStep s) := by
  unfold execTimebaseStep
  split <;> simp

@[simp] theorem execTimeEpoch_keepsQueue (s : State) : KeepsQueue s (execTimeEpoch s) := by
  simp -implicitDefEqProofs [execTimeEpoch]

@[simp] theorem tbSet_pending (ns sec : Nat) (s : State) : (tbSet ns sec s).pending = s.pending := by simp [tbSet]

@[simp] theorem execTbSet_keepsQueue (ns sec : Nat) (s : State) : KeepsQueue s (execTbSet ns sec s) := by
  simp -implicitDefEqProofs [execTbSet]

@[simp] theorem tbCapture_pending (s : State) : (tbCapture s).pending = s.pending := (rfl)

@[simp] theorem execTbCapture_keepsQueue (s : State) : KeepsQueue s (execTbCapture s) := by
  simp -implicitDefEqProofs [execTbCapture]

@[simp] theorem tbSource_pending (c : Nat) (s : State) : (tbSource c s).pending = s.pending := by simp [tbSource]

@[simp] theorem execTbSourceWrite_keepsQueue (source : Nat) (s : State) : KeepsQueue s (execTbSourceWrite source s) := by
  simp -implicitDefEqProofs [execTbSourceWrite]

@[simp] theorem setRole_pending (p n : Nat) (s : State) : (setRole p n s).pending = s.pending := by simp [setRole]

@[simp] theorem chooseRoles_pending (s : State) : (chooseRoles s).pending = s.pending := by
  simp only [chooseRoles]
  split <;> simp

@[simp] theorem ptpChange_pending (p : Nat) (s : State) : (ptpChange p s).pending = s.pending := by simp [ptpChange]

@[simp] theorem ptpMessage_pending (p domain : Nat) (l2 : Bool) (m : PtpMsg) (s : State) :
    (ptpMessage p domain l2 m s).pending = s.pending := by
  simp only [ptpMessage]
  (repeat' split) <;> simp

@[simp] theorem execPtpMessage_keepsQueue (port domain : Nat) (l2 : Bool) (msg : PtpMsg) (s : State) :
    KeepsQueue s (execPtpMessage port domain l2 msg s) := by
  simp -implicitDefEqProofs [execPtpMessage]

@[simp] theorem execPtpSyncTimer_keepsQueue (port : Nat) (s : State) : KeepsQueue s (execPtpSyncTimer port s) := by
  simp -implicitDefEqProofs [execPtpSyncTimer]

@[simp] theorem execGuestTimeMessage_keepsQueue (site : Nat) (s : State) : KeepsQueue s (execGuestTimeMessage site s) := by
  simp -implicitDefEqProofs [execGuestTimeMessage]

@[simp] theorem execPpsOutPulse_keepsQueue (high : Bool) (s : State) : KeepsQueue s (execPpsOutPulse high s) := by
  simp -implicitDefEqProofs [execPpsOutPulse]

@[simp] theorem portDown_pending (p : Nat) (s : State) : (portDown p s).pending = s.pending := by simp [portDown]
@[simp] theorem portMode_pending (p mode : Nat) (s : State) : (portMode p mode s).pending = s.pending := by simp [portMode]

@[simp] theorem execPortModeWrite_keepsQueue (port mode : Nat) (s : State) : KeepsQueue s (execPortModeWrite port mode s) := by
  simp -implicitDefEqProofs [execPortModeWrite]

@[simp] theorem execPortLinkDown_keepsQueue (port : Nat) (s : State) : KeepsQueue s (execPortLinkDown port s) := by
  simp -implicitDefEqProofs [execPortLinkDown]

@[simp] theorem execPortLinkUp_keepsQueue (port : Nat) (s : State) : KeepsQueue s (execPortLinkUp port s) := by
  simp only [execPortLinkUp]
  (repeat' split) <;> simp

@[simp] theorem execPortRetrain_keepsQueue (port : Nat) (s : State) : KeepsQueue s (execPortRetrain port s) := by
  simp -implicitDefEqProofs [execPortRetrain]

@[simp] theorem execRetrainDrainDone_keepsQueue (port left : Nat) (s : State) :
    KeepsQueue s (execRetrainDrainDone port left s) := by
  simp only [execRetrainDrainDone]
  (repeat' split) <;> simp

/-- The fate of a peer's request keeps a reading of the state. -/
def RemoteFate.queue : RemoteFate → List Instr
  | .stalled t => t.pending
  | .answer _ _ t => t.pending

@[simp] theorem remoteFailed_queue (i k : Nat) (e : UnitErr) (s : State) : (remoteFailed i k e s).queue = s.pending := by
  unfold remoteFailed
  extract_lets t
  have ht : t.pending = s.pending := accessFailed_pending ..
  split <;> exact ht

@[simp] theorem remoteAccess_queue (i : Nat) (h : Header) (units : List Unit256) (s : State) :
    (remoteAccess i h units s).queue = s.pending := by
  unfold remoteAccess
  extract_lets k g sec u reads writes
  have hreads (r : Except UnitErr (List Byte)) (l : List Nat) : (reads r l).queue = s.pending := by
    cases r with
    | ok d => exact foldl_pending (by simp) _ _
    | error e => exact remoteFailed_queue i k e s
  have hwrites (l : List (Nat × List Byte)) : (writes l).queue = s.pending := by
    unfold writes
    split
    · rename_i hw
      exact writeUnits_pending hw
    · exact remoteFailed_queue ..
  clear_value reads writes
  split <;> simp [hreads, hwrites]

@[simp] theorem serveRemote_pending (i : Nat) (h : Header) (units : List Unit256) (s : State) :
    (serveRemote i h units s).pending = s.pending := by
  have hq := remoteAccess_queue i h units s
  unfold serveRemote
  split
  · rename_i ht
    rw [ht] at hq
    exact hq
  · rename_i ht
    rw [ht] at hq
    (repeat' split) <;> exact (plrSend_pending ..).trans hq

@[simp] theorem replayRemote_pending (us : List StalledUnit) (s : State) : (replayRemote us s).pending = s.pending := by
  simp [replayRemote]

@[simp] theorem execResume_keepsQueue (holder : Nat) (h : Header) (s : State) : KeepsQueue s (execResume holder h s) := by
  simp -implicitDefEqProofs [execResume]

@[simp] theorem remote_pending (fromPeer : Bool) (session : Nat) (h : Header) (units : List Unit256) (s : State) :
    (remote fromPeer session h units s).pending = s.pending := by simp [remote]

@[simp] theorem execRmRd_keepsQueue (fromPeer : Bool) (session : Nat) (h : Header) (s : State) :
    KeepsQueue s (execRmRd fromPeer session h s) := by
  simp -implicitDefEqProofs [execRmRd]

@[simp] theorem execRmWr_keepsQueue (fromPeer : Bool) (session : Nat) (h : Header) (units : List Unit256) (s : State) :
    KeepsQueue s (execRmWr fromPeer session h units s) := by
  simp -implicitDefEqProofs [execRmWr]

@[simp] theorem execRmRd32_keepsQueue (fromPeer : Bool) (session : Nat) (h : Header) (s : State) :
    KeepsQueue s (execRmRd32 fromPeer session h s) := by
  simp -implicitDefEqProofs [execRmRd32]

@[simp] theorem execRmWr32_keepsQueue (fromPeer : Bool) (session : Nat) (h : Header) (s : State) :
    KeepsQueue s (execRmWr32 fromPeer session h s) := by
  simp -implicitDefEqProofs [execRmWr32]

@[simp] theorem execCollData_keepsQueue (session group seq rank shape offset : Nat) (total : Option Nat) (units : List Unit256)
    (s : State) :
    KeepsQueue s (execCollData session group seq rank shape offset total units s) := by
  simp -implicitDefEqProofs [execCollData]

@[simp] theorem takeResponse_pending (i : Nat) (h : Header) (units : List Unit256) (s : State) :
    (takeResponse i h units s).pending = s.pending := by
  unfold takeResponse
  split <;> simp

@[simp] theorem passOn_pending (i : Nat) (plane : Plane) (h : Header) (units : List Unit256) (s : State) :
    (passOn i plane h units s).pending = s.pending := by
  unfold passOn
  split <;> simp

@[simp] theorem reassemble_pending (i : Nat) (plane : Plane) (h : Header) (first : Nat) (units : List Unit256) (s : State) :
    (reassemble i plane h first units s).pending = s.pending := by simp [reassemble]

@[simp] theorem execData_keepsQueue (h : PlrHdr) (plane : Plane) (hd : Header) (units : List Unit256) (s : State) :
    KeepsQueue s (execData h plane hd units s) := by
  simp -implicitDefEqProofs [execData]

@[simp] theorem execAck_keepsQueue (h : PlrHdr) (s : State) : KeepsQueue s (execAck h s) := by simp -implicitDefEqProofs [execAck]

@[simp] theorem execInit_keepsQueue (hs : Handshake) (s : State) : KeepsQueue s (execInit hs s) := by
  unfold execInit
  split <;> simp

@[simp] theorem execResp_keepsQueue (session : Nat) (hs : Handshake) (s : State) : KeepsQueue s (execResp session hs s) := by
  simp -implicitDefEqProofs [execResp]

@[simp] theorem execRekey_keepsQueue (h : PlrHdr) (nonce key : List Byte) (s : State) :
    KeepsQueue s (execRekey h nonce key s) := by
  simp -implicitDefEqProofs [execRekey]

@[simp] theorem execRekeyAck_keepsQueue (h : PlrHdr) (nonce key : List Byte) (s : State) :
    KeepsQueue s (execRekeyAck h nonce key s) := by
  simp -implicitDefEqProofs [execRekeyAck]

@[simp] theorem execFin_keepsQueue (h : PlrHdr) (s : State) : KeepsQueue s (execFin h s) := by simp -implicitDefEqProofs [execFin]

@[simp] theorem execFinAck_keepsQueue (h : PlrHdr) (s : State) : KeepsQueue s (execFinAck h s) := by
  simp -implicitDefEqProofs [execFinAck]

@[simp] theorem execInitResend_keepsQueue (session : Nat) (s : State) : KeepsQueue s (execInitResend session s) := by
  simp -implicitDefEqProofs [execInitResend]

@[simp] theorem execHandshakeTimeout_keepsQueue (session : Nat) (s : State) : KeepsQueue s (execHandshakeTimeout session s) := by
  simp -implicitDefEqProofs [execHandshakeTimeout]

@[simp] theorem sessionFails_pending (i : Nat) (s : State) : (sessionFails i s).pending = s.pending := by simp [sessionFails]

@[simp] theorem execRtoExpiry_keepsQueue (session pn : Nat) (s : State) : KeepsQueue s (execRtoExpiry session pn s) := by
  unfold execRtoExpiry
  split <;> simp

@[simp] theorem execTransportAckTimer_keepsQueue (session : Nat) (s : State) : KeepsQueue s (execTransportAckTimer session s) := by
  simp -implicitDefEqProofs [execTransportAckTimer]

@[simp] theorem execCcUpdate_keepsQueue (session : Nat) (s : State) : KeepsQueue s (execCcUpdate session s) := by
  simp -implicitDefEqProofs [execCcUpdate]

@[simp] theorem execClosingTimeout_keepsQueue (session : Nat) (s : State) : KeepsQueue s (execClosingTimeout session s) := by
  simp -implicitDefEqProofs [execClosingTimeout]

@[simp] theorem execRekeyTrigger_keepsQueue (session : Nat) (s : State) : KeepsQueue s (execRekeyTrigger session s) := by
  simp -implicitDefEqProofs [execRekeyTrigger]

@[simp] theorem execKeyLimit_keepsQueue (session : Nat) (s : State) : KeepsQueue s (execKeyLimit session s) := by
  simp -implicitDefEqProofs [execKeyLimit]

@[simp] theorem execOldPhaseExpiry_keepsQueue (session : Nat) (s : State) : KeepsQueue s (execOldPhaseExpiry session s) := by
  simp -implicitDefEqProofs [execOldPhaseExpiry]

@[simp] theorem execKilnSessionBind_keepsQueue (index : Nat) (s : State) : KeepsQueue s (execKilnSessionBind index s) := by
  simp -implicitDefEqProofs [execKilnSessionBind]

@[simp] theorem execKilnSessionRelease_keepsQueue (index : Nat) (s : State) : KeepsQueue s (execKilnSessionRelease index s) := by
  simp -implicitDefEqProofs [execKilnSessionRelease]

@[simp] theorem sessionCfg_pending (i word v : Nat) (s : State) :
    (sessionCfg i word v s).pending = s.pending := by simp [sessionCfg]

@[simp] theorem execSessionCfgWrite_keepsQueue (session word value : Nat) (s : State) :
    KeepsQueue s (execSessionCfgWrite session word value s) := by
  simp -implicitDefEqProofs [execSessionCfgWrite]

@[simp] theorem groupCfg_pending (g v : Nat) (s : State) : (groupCfg g v s).pending = s.pending := by simp [groupCfg]

@[simp] theorem execGroupCfgWrite_keepsQueue (handle value : Nat) (s : State) :
    KeepsQueue s (execGroupCfgWrite handle value s) := by
  simp -implicitDefEqProofs [execGroupCfgWrite]

@[simp] theorem fetchEntry_pending (k r index : Nat) (again : Bool) (s : State) :
    (fetchEntry k r index again s).pending = s.pending := by
  simp only [fetchEntry]
  split <;> simp

@[simp] theorem execDescriptorFetch_keepsQueue (ctx : Nat) (s : State) : KeepsQueue s (execDescriptorFetch ctx s) := by
  simp only [execDescriptorFetch]
  (repeat' split) <;> simp

@[simp] theorem refusePass_pending (p : Pass) (status detail : Nat) (s : State) :
    (refusePass p status detail s).pending = s.pending := by simp [refusePass]

@[simp] theorem dispatchFailed_pending (p : Pass) (e : UnitErr) (s : State) : (dispatchFailed p e s).pending = s.pending := by
  simp [dispatchFailed]

@[simp] theorem waitsSatisfied_pending (p : Pass) (s : State) : (waitsSatisfied p s).pending = s.pending := by
  simp only [waitsSatisfied]
  (repeat' split) <;> simp

@[simp] theorem execFenceWaitSatisfied_keepsQueue (pass : Nat) (s : State) : KeepsQueue s (execFenceWaitSatisfied pass s) := by
  unfold execFenceWaitSatisfied
  split <;> simp

@[simp] theorem sendPiece_pending (p : Pass) (q : Piece) (s : State) : (sendPiece p q s).pending = s.pending := by simp [sendPiece]

@[simp] theorem execPieceDispatch_keepsQueue (ctx exec : Nat) (s : State) : KeepsQueue s (execPieceDispatch ctx exec s) := by
  simp only [execPieceDispatch]
  (repeat' split) <;> simp

@[simp] theorem execPieceReissue_keepsQueue (ctx exec : Nat) (s : State) : KeepsQueue s (execPieceReissue ctx exec s) := by
  simp only [execPieceReissue]
  (repeat' split) <;> simp

@[simp] theorem leaveTiles_pending (p : Pass) (qs : List Piece) (s : State) : (leaveTiles p qs s).pending = s.pending := by
  simp [leaveTiles]

@[simp] theorem pieceComputed_pending (p : Pass) (s : State) (q : Piece) : (pieceComputed p s q).pending = s.pending := by
  simp [pieceComputed]

@[simp] theorem runClass_pending (c : Nat) (f : State → Pass → Except UnitErr ClassOut) (id : Nat) (s : State) :
    (runClass c f id s).pending = s.pending := by
  unfold runClass
  split
  · rfl
  split
  · rfl
  extract_lets running h failed t
  have hfailed (s : State) (e : UnitErr) : (failed s e).pending = s.pending := accessFailed_pending ..
  split
  · split
    · exact hfailed ..
    · exact foldl_pending hfailed _ _
  have ht : t.pending = s.pending := foldl_pending (by simp) _ _
  split
  · exact (foldl_pending hfailed _ _).trans ht
  · rename_i hw
    refine (drew_pending _).trans ((modPass_pending ..).trans ((foldl_pending (by simp) _ _).trans ?_))
    exact (writeUnits_pending hw).trans ht

@[simp] theorem execMatmul_keepsQueue (pass : Nat) (s : State) : KeepsQueue s (execMatmul pass s) := by
  simp -implicitDefEqProofs [execMatmul]

@[simp] theorem execAttend_keepsQueue (pass : Nat) (s : State) : KeepsQueue s (execAttend pass s) := by
  simp -implicitDefEqProofs [execAttend]

@[simp] theorem execVector_keepsQueue (pass : Nat) (s : State) : KeepsQueue s (execVector pass s) := by
  simp -implicitDefEqProofs [execVector]

@[simp] theorem execReduce_keepsQueue (pass : Nat) (s : State) : KeepsQueue s (execReduce pass s) := by
  simp -implicitDefEqProofs [execReduce]

@[simp] theorem execGather_keepsQueue (pass : Nat) (s : State) : KeepsQueue s (execGather pass s) := by
  simp -implicitDefEqProofs [execGather]

@[simp] theorem execScatter_keepsQueue (pass : Nat) (s : State) : KeepsQueue s (execScatter pass s) := by
  simp -implicitDefEqProofs [execScatter]

@[simp] theorem execHisto_keepsQueue (pass : Nat) (s : State) : KeepsQueue s (execHisto pass s) := by
  simp -implicitDefEqProofs [execHisto]

@[simp] theorem execTrees_keepsQueue (pass : Nat) (s : State) : KeepsQueue s (execTrees pass s) := by
  simp -implicitDefEqProofs [execTrees]

@[simp] theorem execConvert_keepsQueue (pass : Nat) (s : State) : KeepsQueue s (execConvert pass s) := by
  simp -implicitDefEqProofs [execConvert]

@[simp] theorem execCopy_keepsQueue (pass : Nat) (s : State) : KeepsQueue s (execCopy pass s) := by
  simp -implicitDefEqProofs [execCopy]

@[simp] theorem execLayout_keepsQueue (pass : Nat) (s : State) : KeepsQueue s (execLayout pass s) := by
  simp -implicitDefEqProofs [execLayout]

@[simp] theorem withPass_pending (c id : Nat) {f : Pass → State → State} (hf : ∀ p s, (f p s).pending = s.pending) (s : State) :
    (withPass c id f s).pending = s.pending := by
  simp only [withPass]
  (repeat' split) <;> simp [hf]

@[simp] theorem beginWhole_pending (p : Pass) (s : State) : (beginWhole p s).pending = s.pending := (rfl)
@[simp] theorem endWhole_pending (id : Nat) (g : Gathered) (s : State) : (endWhole id g s).pending = s.pending := (rfl)

@[simp] theorem collectiveFailed_pending (p : Pass) (e : UnitErr) (s : State) : (collectiveFailed p e s).pending = s.pending := by
  simp [collectiveFailed]

@[simp] theorem sendInput_pending (p : Pass) (g : Group) (d : List Byte) (s : State) :
    (sendInput p g d s).pending = s.pending := by simp [sendInput]

@[simp] theorem collectiveStep_pending (p : Pass) (s : State) : (collectiveStep p s).pending = s.pending := by
  unfold collectiveStep
  split
  · simp
  split
  · simp
  split
  · refine (sendInput_pending ..).trans ((beginWhole_pending ..).trans (foldl_pending (by simp) _ _))
  extract_lets parts others xs out
  split
  · simp
  split
  · rfl
  split
  · simp
  · rename_i t hw
    exact (endWhole_pending ..).trans (show t.pending = _ from writeUnits_pending hw)

@[simp] theorem execCollective_keepsQueue (pass : Nat) (s : State) : KeepsQueue s (execCollective pass s) := by
  simp -implicitDefEqProofs [execCollective]

@[simp] theorem kilnPutStep_pending (p : Pass) (s : State) : (kilnPutStep p s).pending = s.pending := by
  obtain ⟨find, hfind⟩ : ∃ f, f = roundOfHandle := exists_eq
  refine (congrArg State.pending (congr_fun₂ (by delta kilnPutStep; rfl : kilnPutStep = _) p s)).trans ?_
  rw [← hfind]
  (repeat' split) <;> simp

@[simp] theorem execKilnPut_keepsQueue (pass : Nat) (s : State) : KeepsQueue s (execKilnPut pass s) := by
  simp -implicitDefEqProofs [execKilnPut]

@[simp] theorem kilnTakeStep_pending (p : Pass) (s : State) : (kilnTakeStep p s).pending = s.pending := by
  obtain ⟨write, hwrite, hw⟩ : ∃ f, f = writeUnits ∧ ∀ h k us s t, f h k us s = .ok t → t.pending = s.pending :=
    ⟨_, rfl, fun _ _ _ _ _ => writeUnits_pending⟩
  obtain ⟨find, hfind⟩ : ∃ f, f = roundOfHandle := exists_eq
  refine (congrArg State.pending (congr_fun₂ (by delta kilnTakeStep; rfl : kilnTakeStep = _) p s)).trans ?_
  rw [← hfind, ← hwrite]
  dsimp only
  split
  · simp
  split
  · simp
  split
  · simp
  split
  · simp
  · rename_i h
    simp [hw _ _ _ _ _ h]

@[simp] theorem execKilnTake_keepsQueue (pass : Nat) (s : State) : KeepsQueue s (execKilnTake pass s) := by
  simp -implicitDefEqProofs [execKilnTake]

@[simp] theorem execFence_keepsQueue (pass : Nat) (s : State) : KeepsQueue s (execFence pass s) := by
  simp -implicitDefEqProofs [execFence]

@[simp] theorem emberPointStep_pending (p : Pass) (s : State) : (emberPointStep p s).pending = s.pending := by simp [emberPointStep]

@[simp] theorem execEmberPoint_keepsQueue (pass : Nat) (s : State) : KeepsQueue s (execEmberPoint pass s) := by
  simp -implicitDefEqProofs [execEmberPoint]

theorem finishOutputs_pending {p q : Pass} {s t : State} (h : finishOutputs p s = .ok (q, t)) : t.pending = s.pending := by
  unfold finishOutputs at h
  extract_lets hist o tagged at h
  have htagged (u : State) : (tagged u).pending = u.pending := by
    simp only [tagged]
    (repeat' split) <;> simp
  split at h
  · obtain ⟨-, rfl⟩ := Prod.mk.inj (Except.ok.inj h)
    exact htagged s
  split at h
  · cases h
  · rename_i hw
    obtain ⟨-, rfl⟩ := Prod.mk.inj (Except.ok.inj h)
    exact (htagged _).trans (writeUnits_pending hw)

@[simp] theorem execPassComplete_keepsQueue (pass : Nat) (s : State) : KeepsQueue s (execPassComplete pass s) := by
  refine (keepsQueue_next ..).2 ?_
  split
  · rfl
  split
  · rfl
  split
  · simp
  split
  · rfl
  split
  · simp
  split
  · simp
  · rename_i hf
    simp [finishOutputs_pending hf]

end Sys2Proof.Machine
end

section
/-! The queue of commands (log entry 1) is left as it is by
frames, the host port and the peats (R384 to R431). -/

namespace Sys2Proof.Machine

@[simp] theorem after_pending {s : State} {r : Res} (h : KeepsQueue s r) : (after s r).pending = s.pending := by
  unfold after
  split
  · exact h _ rfl
  · rfl

@[simp] theorem plarusFrame_pending (f : Frame) (arrival : Nat) (s : State) : (plarusFrame f arrival s).pending = s.pending := by
  simp only [plarusFrame]
  (repeat' split) <;> simp

@[simp] theorem transit_pending (f : Frame) (full : Bool) (queued : Nat) (s : State) :
    (transit f full queued s).pending = s.pending := by
  simp only [transit]
  (repeat' split) <;> simp

@[simp] theorem execFrameReceive_keepsQueue (port : Nat) (f : Frame) (domain : Nat) (msg : PtpMsg) (full : Bool) (queued : Nat)
    (s : State) :
    KeepsQueue s (execFrameReceive port f domain msg full queued s) := by
  simp -implicitDefEqProofs [execFrameReceive]

@[simp] theorem complete_pending (fn tag status : Nat) (data : List Byte) (s : State) :
    (complete fn tag status data s).pending = s.pending := (rfl)

@[simp] theorem aerLog_pending (n : Nat) (advisory : Bool) (s : State) :
    (aerLog n advisory s).pending = s.pending := by simp [aerLog]
@[simp] theorem answerUr_pending (fn tag : Nat) (s : State) : (answerUr fn tag s).pending = s.pending := by simp [answerUr]
@[simp] theorem answerCa_pending (fn tag : Nat) (s : State) : (answerCa fn tag s).pending = s.pending := by simp [answerCa]
@[simp] theorem setSecure_pending (i : Nat) (b : Bool) (s : State) : (setSecure i b s).pending = s.pending := by simp [setSecure]

@[simp] theorem inbound_pending (stream : Option Nat) {refuse f : State → State} (hr : ∀ s, (refuse s).pending = s.pending)
    (hf : ∀ s, (f s).pending = s.pending) (s : State) : (inbound stream refuse f s).pending = s.pending := by
  simp only [inbound]
  (repeat' split) <;> simp [hf, hr]

@[simp] theorem refuseUr_pending (fn tag : Nat) (posted : Bool) (s : State) : (refuseUr fn tag posted s).pending = s.pending := by
  simp [refuseUr]

@[simp] theorem execIdeIntegrityFailure_keepsQueue (stream : Nat) (s : State) :
    KeepsQueue s (execIdeIntegrityFailure stream s) := by
  simp -implicitDefEqProofs [execIdeIntegrityFailure]

@[simp] theorem physWrite_pending (c : Nat) (l : List (Nat × Nat)) (d : List Byte) (en : List Bool) (s : State) :
    (physWrite c l d en s).pending = s.pending := by
  induction l generalizing d en s with
  | nil => rfl
  | cons p l ih =>
    refine (ih _ _ _).trans ?_
    split
    · simp
    · exact (countBytes_pending ..).trans (foldl_pending (by simp) _ _)

@[simp] theorem execPf0ApertureAccess_keepsQueue (stream : Option Nat) (tag off : Nat) (write : Bool) (len : Nat) (data : List Byte)
    (en : List Bool) (s : State) : KeepsQueue s (execPf0ApertureAccess stream tag off write len data en s) := by
  have hcount (l : List (Nat × Nat)) (t : State) : (l.foldl (fun s p => countBytes 0 p.1 p.2 s) t).pending = t.pending :=
    foldl_pending (fun s p => countBytes_pending ..) l t
  refine (keepsQueue_next ..).2 (inbound_pending _ (fun s => refuseUr_pending ..) (fun s => ?_) s)
  split
  · simp
  dsimp only
  split
  · simp
  split <;> simp [hcount]

@[simp] theorem execVfApertureAccess_keepsQueue (stream : Option Nat) (fn tag off : Nat) (write : Bool) (len : Nat)
    (data : List Byte) (en : List Bool) (s : State) : KeepsQueue s (execVfApertureAccess stream fn tag off write len data en s) := by
  refine (keepsQueue_next ..).2 (inbound_pending _ (fun s => refuseUr_pending ..) (fun s => ?_) s)
  generalize (if write then data.length else len) = n
  split
  · simp
  split
  · split <;> simp
  dsimp only
  split
  · split
    · rename_i hw
      exact writeUnits_pending hw
    · simp
  · split <;> simp

@[simp] theorem execInboundUnsupported_keepsQueue (fn tag : Nat) (what : Unserved) (s : State) :
    KeepsQueue s (execInboundUnsupported fn tag what s) := by
  unfold execInboundUnsupported
  split <;> simp

@[simp] theorem hostFailed_pending (h : Header) (aer tag : Nat) (s : State) : (hostFailed h aer tag s).pending = s.pending := by
  simp [hostFailed]

@[simp] theorem hostIssue_pending (h : Header) (units : List Unit256) (s : State) : (hostIssue h units s).pending = s.pending := by
  unfold hostIssue
  extract_lets sec u
  split
  · exact (respondOk_pending ..).trans (hostWrite_pending ..)
  split
  · exact (respondOk_pending ..).trans (hostWrite_pending ..)
  split
  · exact respond_pending ..
  split
  · rfl
  · exact emit_pending ..

@[simp] theorem drainHost_pending (n : Nat) (s : State) : (drainHost n s).pending = s.pending := by
  fun_induction drainHost n s
  case case3 ih => exact ih.trans ((hostIssue_pending ..).trans rfl)
  all_goals rfl

@[simp] theorem hostArrive_pending (h : Header) (units : List Unit256) (s : State) :
    (hostArrive h units s).pending = s.pending := by simp [hostArrive]

@[simp] theorem execHmRd_keepsQueue (h : Header) (s : State) : KeepsQueue s (execHmRd h s) := by
  simp -implicitDefEqProofs [execHmRd]

@[simp] theorem execHmWr_keepsQueue (h : Header) (units : List Unit256) (s : State) : KeepsQueue s (execHmWr h units s) := by
  simp -implicitDefEqProofs [execHmWr]

@[simp] theorem execHmRdNarrow_keepsQueue (h : Header) (s : State) : KeepsQueue s (execHmRdNarrow h s) := by
  simp -implicitDefEqProofs [execHmRdNarrow]

@[simp] theorem execHmWrNarrow_keepsQueue (h : Header) (s : State) : KeepsQueue s (execHmWrNarrow h s) := by
  simp -implicitDefEqProofs [execHmWrNarrow]

@[simp] theorem execHmAddNarrow_keepsQueue (h : Header) (s : State) : KeepsQueue s (execHmAddNarrow h s) := by
  simp -implicitDefEqProofs [execHmAddNarrow]

@[simp] theorem execHmFlush_keepsQueue (h : Header) (s : State) : KeepsQueue s (execHmFlush h s) := by
  simp -implicitDefEqProofs [execHmFlush]

@[simp] theorem hostDone_pending (t : HostTag) (d : List Byte) (s : State) : (hostDone t d s).pending = s.pending := by
  simp [hostDone]

@[simp] theorem dropTag_pending (tag : Nat) (s : State) : (dropTag tag s).pending = s.pending := (rfl)

@[simp] theorem unexpectedCompletion_pending (s : State) : (unexpectedCompletion s).pending = s.pending := by
  simp [unexpectedCompletion]

@[simp] theorem execHostCompletion_keepsQueue (tag status : Nat) (poisoned : Bool) (byteCount lower : Nat) (data : List Byte)
    (s : State) :
    KeepsQueue s (execHostCompletion tag status poisoned byteCount lower data s) := by
  unfold execHostCompletion
  split <;> simp

@[simp] theorem execCompletionTimeout_keepsQueue (tag : Nat) (s : State) : KeepsQueue s (execCompletionTimeout tag s) := by
  unfold execCompletionTimeout
  split <;> simp

@[simp] theorem execTagQuarantineEnd_keepsQueue (tag : Nat) (s : State) : KeepsQueue s (execTagQuarantineEnd tag s) := by
  simp -implicitDefEqProofs [execTagQuarantineEnd]

@[simp] theorem resetCtx0_pending (s : State) : (resetCtx0 s).pending = s.pending := by simp [resetCtx0]
@[simp] theorem hostReset_pending (code : Nat) (s : State) : (hostReset code s).pending = s.pending := by simp [hostReset]
@[simp] theorem execHotReset_keepsQueue (s : State) : KeepsQueue s (execHotReset s) := by simp -implicitDefEqProofs [execHotReset]

@[simp] theorem execHostLinkDown_keepsQueue (s : State) : KeepsQueue s (execHostLinkDown s) := by
  simp -implicitDefEqProofs [execHostLinkDown]

@[simp] theorem execPf0Flr_keepsQueue (s : State) : KeepsQueue s (execPf0Flr s) := by simp -implicitDefEqProofs [execPf0Flr]
@[simp] theorem vfFlr_pending (k : Nat) (s : State) : (vfFlr k s).pending = s.pending := by simp [vfFlr]

@[simp] theorem execVfFlr_keepsQueue (fn : Nat) (s : State) : KeepsQueue s (execVfFlr fn s) := by
  simp -implicitDefEqProofs [execVfFlr]

@[simp] theorem vfEnableClear_pending (s : State) : (vfEnableClear s).pending = s.pending := by simp [vfEnableClear]

@[simp] theorem execVfEnableClear_keepsQueue (s : State) : KeepsQueue s (execVfEnableClear s) := by
  simp -implicitDefEqProofs [execVfEnableClear]

@[simp] theorem numVfsWrite_pending (v : Nat) (s : State) : (numVfsWrite v s).pending = s.pending := by simp [numVfsWrite]

@[simp] theorem execNumvfsWrite_keepsQueue (value : Nat) (s : State) : KeepsQueue s (execNumvfsWrite value s) := by
  simp -implicitDefEqProofs [execNumvfsWrite]

@[simp] theorem barResize_pending (v : Nat) (s : State) : (barResize v s).pending = s.pending := by simp [barResize]

@[simp] theorem execBarResize_keepsQueue (size : Nat) (s : State) : KeepsQueue s (execBarResize size s) := by
  simp -implicitDefEqProofs [execBarResize]

@[simp] theorem sendPending_pending (fn : Nat) (s : State) : (sendPending fn s).pending = s.pending := by simp [sendPending]

@[simp] theorem cfgWrite_pending (fn off data be : Nat) (s : State) : (cfgWrite fn off data be s).pending = s.pending := by
  simp [cfgWrite]

@[simp] theorem execConfigRequest_keepsQueue (stream : Option Nat) (bus fn tag off : Nat) (write : Bool) (data be : Nat)
    (s : State) :
    KeepsQueue s (execConfigRequest stream bus fn tag off write data be s) := by
  simp -implicitDefEqProofs [execConfigRequest]

@[simp] theorem msixUnmask_pending (fn vec : Nat) (s : State) : (msixUnmask fn vec s).pending = s.pending := by simp [msixUnmask]

@[simp] theorem execMsixUnmask_keepsQueue (fn vec : Nat) (s : State) : KeepsQueue s (execMsixUnmask fn vec s) := by
  simp -implicitDefEqProofs [execMsixUnmask]

@[simp] theorem execPtmRequest_keepsQueue (delay : Nat) (s : State) : KeepsQueue s (execPtmRequest delay s) := by
  simp -implicitDefEqProofs [execPtmRequest]

@[simp] theorem execHostLinkUp_keepsQueue (rate width : Nat) (flit : Bool) (s : State) :
    KeepsQueue s (execHostLinkUp rate width flit s) := by
  simp -implicitDefEqProofs [execHostLinkUp]

@[simp] theorem setPeat_pending (p : Nat) (x : PeatSt) (s : State) : (setPeat p x s).pending = s.pending := (rfl)
@[simp] theorem powerLed_pending (p code : Nat) (s : State) : (powerLed p code s).pending = s.pending := (rfl)

@[simp] theorem peatFailed_pending (c pa cause : Nat) (s : State) : (peatFailed c pa cause s).pending = s.pending := by
  simp [peatFailed]

@[simp] theorem peatWrite_pending (c pa : Nat) (data : List Byte) (en : List Bool) (s : State) :
    (peatWrite c pa data en s).1.pending = s.pending := by
  refine foldl_pair_pending (fun r i => ?_) _ (s, false)
  dsimp only
  split <;> simp

@[simp] theorem peatPerform_pending (h : Header) (data : List Byte) (en : List Bool) (s : State) :
    (peatPerform h data en s).pending = s.pending := by
  simp only [peatPerform]
  (repeat' split) <;> simp

@[simp] theorem peatArrive_pending (port : Nat) (h : Header) (data : List Byte) (en : List Bool) (answer : CxlAnswer) (s : State) :
    (peatArrive port h data en answer s).pending = s.pending := by
  simp only [peatArrive]
  (repeat' split) <;> simp

@[simp] theorem execPtRd_keepsQueue (port : Nat) (h : Header) (answer : CxlAnswer) (s : State) :
    KeepsQueue s (execPtRd port h answer s) := by
  simp -implicitDefEqProofs [execPtRd]

@[simp] theorem execPtWr_keepsQueue (port : Nat) (h : Header) (units : List Unit256) (answer : CxlAnswer) (s : State) :
    KeepsQueue s (execPtWr port h units answer s) := by
  simp -implicitDefEqProofs [execPtWr]

@[simp] theorem execPtRdNarrow_keepsQueue (port : Nat) (h : Header) (answer : CxlAnswer) (s : State) :
    KeepsQueue s (execPtRdNarrow port h answer s) := by
  simp -implicitDefEqProofs [execPtRdNarrow]

@[simp] theorem execPtWrNarrow_keepsQueue (port : Nat) (h : Header) (answer : CxlAnswer) (s : State) :
    KeepsQueue s (execPtWrNarrow port h answer s) := by
  simp -implicitDefEqProofs [execPtWrNarrow]

@[simp] theorem execPtAddNarrow_keepsQueue (port : Nat) (h : Header) (answer : CxlAnswer) (s : State) :
    KeepsQueue s (execPtAddNarrow port h answer s) := by
  simp -implicitDefEqProofs [execPtAddNarrow]

@[simp] theorem execPeatRequestTimeout_keepsQueue (port : Nat) (s : State) : KeepsQueue s (execPeatRequestTimeout port s) := by
  simp only [execPeatRequestTimeout]
  split <;> simp

@[simp] theorem execExpanderEvent_keepsQueue (port : Nat) (s : State) : KeepsQueue s (execExpanderEvent port s) := by
  simp -implicitDefEqProofs [execExpanderEvent]

@[simp] theorem execPeatIdeFailure_keepsQueue (port : Nat) (s : State) : KeepsQueue s (execPeatIdeFailure port s) := by
  simp -implicitDefEqProofs [execPeatIdeFailure]

@[simp] theorem slotOff_pending (p : Nat) (s : State) : (slotOff p s).pending = s.pending := by simp [slotOff]

@[simp] theorem endPeatOp_pending (p op result reason : Nat) (s : State) :
    (endPeatOp p op result reason s).pending = s.pending := by
  unfold endPeatOp
  split <;> simp

@[simp] theorem peatRefused_pending (p reason : Nat) (s : State) : (peatRefused p reason s).pending = s.pending := by
  simp [peatRefused]

@[simp] theorem peatStart_pending (p : Nat) (found : Option PeatStart) (s : State) : (peatStart p found s).pending = s.pending := by
  unfold peatStart
  extract_lets pg s0 top s1
  have h0 : s0.pending = s.pending := by simp [s0]
  have h1 : s1.pending = s.pending := h0
  clear_value s0 s1
  split
  · simp [h0]
  dsimp only
  split
  · simp [h0]
  split
  · simp [h1]
  split
  · simp [h1]
  split
  · simp [h1]
  · exact (refreshPools_pending _).trans ((setPeat_pending ..).trans ((foldl_pending (by simp) _ _).trans (by simp [h1])))

@[simp] theorem execPeatEnterService_keepsQueue (port : Nat) (found : Option PeatStart) (s : State) :
    KeepsQueue s (execPeatEnterService port found s) := by
  simp -implicitDefEqProofs [execPeatEnterService]

@[simp] theorem execPeatFrameAshed_keepsQueue (port : Nat) (s : State) : KeepsQueue s (execPeatFrameAshed port s) := by
  simp only [execPeatFrameAshed]
  (repeat' split) <;> simp

@[simp] theorem framesGone_pending (p : Nat) (s : State) : (framesGone p s).pending = s.pending := foldl_pending (by simp) _ _

@[simp] theorem execPeatRemoval_keepsQueue (port : Nat) (s : State) : KeepsQueue s (execPeatRemoval port s) := by
  simp -implicitDefEqProofs [execPeatRemoval]

@[simp] theorem surprise_pending (p cause : Nat) (s : State) : (surprise p cause s).pending = s.pending := by simp [surprise]

@[simp] theorem execSurpriseRemoval_keepsQueue (port cause : Nat) (s : State) :
    KeepsQueue s (execSurpriseRemoval port cause s) := by
  simp -implicitDefEqProofs [execSurpriseRemoval]

@[simp] theorem execPresenceChange_keepsQueue (port : Nat) (present : Bool) (s : State) :
    KeepsQueue s (execPresenceChange port present s) := by
  simp -implicitDefEqProofs [execPresenceChange]

@[simp] theorem execAttnButton_keepsQueue (port : Nat) (s : State) : KeepsQueue s (execAttnButton port s) := by
  simp -implicitDefEqProofs [execAttnButton]

end Sys2Proof.Machine
end

section
/-! The queue of commands (log entry 1) is left as it is by
Heartwood and the management messages of the sites (R445 to R464). -/

namespace Sys2Proof.Machine

@[simp] theorem modOtp_pending (f : Otp → Otp) (s : State) : (modOtp f s).pending = s.pending := (rfl)

@[simp] theorem showOtp_pending (s : State) : (showOtp s).pending = s.pending := by
  simp -implicitDefEqProofs [showOtp]

@[simp] theorem extendMeas_pending (i : Nat) (v : List Byte) (s : State) : (extendMeas i v s).pending = s.pending := (rfl)

@[simp] theorem mbxEnd_pending (code : Nat) (resp : List Byte) (s : State) : (mbxEnd code resp s).pending = s.pending := by
  simp [mbxEnd]

@[simp] theorem otpEnd_pending (code : Nat) (s : State) : (otpEnd code s).pending = s.pending := by simp [otpEnd]

@[simp] theorem mbxCmd_pending (len : Nat) {f : State → State} (hf : ∀ s, (f s).pending = s.pending) (s : State) :
    (mbxCmd len f s).pending = s.pending := by
  simp only [mbxCmd]
  split <;> simp [hf]

@[simp] theorem consumeNonce_pending (s : State) : (consumeNonce s).pending = s.pending := (rfl)

@[simp] theorem execExtend_keepsQueue (len arg : Nat) (s : State) : KeepsQueue s (execExtend len arg s) := by
  simp -implicitDefEqProofs [execExtend]

@[simp] theorem execRollbackCommit_keepsQueue (len arg : Nat) (s : State) : KeepsQueue s (execRollbackCommit len arg s) := by
  simp -implicitDefEqProofs [execRollbackCommit]

@[simp] theorem execDebugPolicy_keepsQueue (len : Nat) (s : State) : KeepsQueue s (execDebugPolicy len s) := by
  simp -implicitDefEqProofs [execDebugPolicy]

@[simp] theorem execRevokeKey_keepsQueue (len : Nat) (s : State) : KeepsQueue s (execRevokeKey len s) := by
  simp -implicitDefEqProofs [execRevokeKey]

@[simp] theorem execOtpProgram_keepsQueue (item : OtpItem) (s : State) : KeepsQueue s (execOtpProgram item s) := by
  simp -implicitDefEqProofs [execOtpProgram]

@[simp] theorem execGetCert_keepsQueue (len : Nat) (s : State) : KeepsQueue s (execGetCert len s) := by
  simp -implicitDefEqProofs [execGetCert]

@[simp] theorem wipeMem_pending (s : State) : (wipeMem s).pending = s.pending := by
  simp -implicitDefEqProofs [wipeMem]

@[simp] theorem destroyKeys_pending (s : State) : (destroyKeys s).pending = s.pending := by simp [destroyKeys]
@[simp] theorem openDebug_pending (how : Nat) (s : State) : (openDebug how s).pending = s.pending := by simp [openDebug]
@[simp] theorem debugToken_pending (len : Nat) (s : State) : (debugToken len s).pending = s.pending := by simp [debugToken]

@[simp] theorem execDebugToken_keepsQueue (len : Nat) (s : State) : KeepsQueue s (execDebugToken len s) := by
  simp -implicitDefEqProofs [execDebugToken]

@[simp] theorem debugErase_pending (s : State) : (debugErase s).pending = s.pending := by
  simp -implicitDefEqProofs [debugErase]

@[simp] theorem execDebugErase_keepsQueue (s : State) : KeepsQueue s (execDebugErase s) := by
  simp -implicitDefEqProofs [execDebugErase]

@[simp] theorem debugNonce_pending (s : State) : (debugNonce s).pending = s.pending := by simp [debugNonce]

@[simp] theorem execDebugNewNonce_keepsQueue (s : State) : KeepsQueue s (execDebugNewNonce s) := by
  simp -implicitDefEqProofs [execDebugNewNonce]

@[simp] theorem doeReply_pending (d : List Byte) (s : State) : (doeReply d s).pending = s.pending := by simp [doeReply]

@[simp] theorem spdmReply_pending (code p1 p2 : Nat) (items : List Byte) (s : State) :
    (spdmReply code p1 p2 items s).pending = s.pending := by simp [spdmReply]

@[simp] theorem spdmError_pending (code : Nat) (s : State) : (spdmError code s).pending = s.pending := by simp [spdmError]
@[simp] theorem setSpdm_pending (n : Nat) (s : State) : (setSpdm n s).pending = s.pending := (rfl)

@[simp] theorem ideKm_pending (stream : Nat) {f : State → State} (hf : ∀ s, (f s).pending = s.pending) (s : State) :
    (ideKm stream f s).pending = s.pending := by
  simp only [ideKm]
  split <;> simp [hf]

@[simp] theorem doeRequest_pending (r : DoeReq) (s : State) : (doeRequest r s).pending = s.pending := by
  refine (congrArg State.pending (congr_fun₂ (by delta doeRequest; rfl : doeRequest = _) r s)).trans ?_
  obtain ⟨pk, hpk⟩ : ∃ f, f = Config.publicKey := exists_eq
  obtain ⟨chain, hchain⟩ : ∃ f, f = Config.certChain := exists_eq
  obtain ⟨digest, hdigest⟩ : ∃ f, f = Config.sha512 := exists_eq
  rw [← hpk, ← hchain, ← hdigest]
  dsimp only
  split
  case h_11 => exact ideKm_pending _ (fun s => by simp -implicitDefEqProofs) _
  case h_12 => exact ideKm_pending _ (fun s => by split <;> simp) _
  case h_13 => exact ideKm_pending _ (fun s => by simp -implicitDefEqProofs) _
  all_goals (repeat' split) <;> simp -implicitDefEqProofs

@[simp] theorem execDoeRequest_keepsQueue (req : DoeReq) (s : State) : KeepsQueue s (execDoeRequest req s) := by
  simp -implicitDefEqProofs [execDoeRequest]

@[simp] theorem execDoeAbort_keepsQueue (s : State) : KeepsQueue s (execDoeAbort s) := by simp -implicitDefEqProofs [execDoeAbort]

@[simp] theorem pieceDoneMsg_pending (n : Nat) (b : List Byte) (s : State) : (pieceDoneMsg n b s).pending = s.pending := by
  simp [pieceDoneMsg]

@[simp] theorem regRspMsg_pending (n : Nat) (b : List Byte) (s : State) :
    (regRspMsg n b s).pending = s.pending := by simp [regRspMsg]

@[simp] theorem mgmtMessage_pending (n mtype : Nat) (b : List Byte) (s : State) :
    (mgmtMessage n mtype b s).pending = s.pending := by
  unfold mgmtMessage
  split <;> simp

@[simp] theorem mgmtFragment_pending (n : Nat) (payload : List Byte) (s : State) :
    (mgmtFragment n payload s).pending = s.pending := by
  simp only [mgmtFragment]
  (repeat' split) <;> simp

@[simp] theorem execMgmt_keepsQueue (site : Nat) (f : Flit) (s : State) : KeepsQueue s (execMgmt site f s) := by
  simp -implicitDefEqProofs [execMgmt]

@[simp] theorem siteOp_pending (n op : Nat) (force : Bool) {start : State → State} (hf : ∀ s, (start s).pending = s.pending)
    (s : State) :
    (siteOp n op force start s).pending = s.pending := by
  simp only [siteOp]
  split <;> simp [hf]

@[simp] theorem execSiteAttest_keepsQueue (site : Nat) (force : Bool) (s : State) :
    KeepsQueue s (execSiteAttest site force s) := by
  simp -implicitDefEqProofs [execSiteAttest]

@[simp] theorem laneFindings_pending (n : Nat) (modes spares : List Nat) (rechosen : Nat) (s : State) :
    (laneFindings n modes spares rechosen s).pending = s.pending := by simp [laneFindings]

@[simp] theorem execSiteLaneCheck_keepsQueue (site : Nat) (force : Bool) (modes spares : List Nat) (rechosen : Nat) (s : State) :
    KeepsQueue s (execSiteLaneCheck site force modes spares rechosen s) := by
  simp only [execSiteLaneCheck]
  (repeat' split) <;> simp

end Sys2Proof.Machine
end

section
/-! The queue of commands (log entry 1) is left as it is by
power, resets and what a read shows (R465 to R497). -/

namespace Sys2Proof.Machine

@[simp] theorem modPower_pending (f : Power → Power) (s : State) : (modPower f s).pending = s.pending := (rfl)
@[simp] theorem restPins_pending (s : State) : (restPins s).pending = s.pending := foldl_pending (by simp) _ _

@[simp] theorem clearHub_pending (keepSpread : Bool) (s : State) : (clearHub keepSpread s).pending = s.pending := by
  simp -implicitDefEqProofs [clearHub]

@[simp] theorem resetDebug_pending (s : State) : (resetDebug s).pending = s.pending := (rfl)

@[simp] theorem fundamentalReset_pending (cause : Nat) (s : State) : (fundamentalReset cause s).pending = s.pending := by
  simp [fundamentalReset]

@[simp] theorem vauxLoss_pending (s : State) : (vauxLoss s).pending = s.pending := by simp [vauxLoss]
@[simp] theorem phasesOff_pending (r : ErrRec) (s : State) : (phasesOff r s).pending = s.pending := by simp [phasesOff]
@[simp] theorem execPowerOn_keepsQueue (s : State) : KeepsQueue s (execPowerOn s) := by simp -implicitDefEqProofs [execPowerOn]
@[simp] theorem execVauxLoss_keepsQueue (s : State) : KeepsQueue s (execVauxLoss s) := by simp -implicitDefEqProofs [execVauxLoss]

@[simp] theorem execPerstAssert_keepsQueue (s : State) : KeepsQueue s (execPerstAssert s) := by
  simp -implicitDefEqProofs [execPerstAssert]

@[simp] theorem execPerstDeassert_keepsQueue (s : State) : KeepsQueue s (execPerstDeassert s) := by
  simp -implicitDefEqProofs [execPerstDeassert]

@[simp] theorem execRailLoss_keepsQueue (vinIo : Bool) (s : State) : KeepsQueue s (execRailLoss vinIo s) := by
  simp -implicitDefEqProofs [execRailLoss]

@[simp] theorem execRailsRestored_keepsQueue (s : State) : KeepsQueue s (execRailsRestored s) := by
  simp -implicitDefEqProofs [execRailsRestored]

theorem transitionStages_pending {target : Nat} {f : State → State} (hf : f ∈ transitionStages target) (s : State) :
    (f s).pending = s.pending := by
  simp only [transitionStages, List.mem_cons, List.not_mem_nil, or_false] at hf
  rcases hf with rfl | rfl | rfl | rfl | rfl | rfl <;> simp

theorem runStages_pending {l : List (State → State)} (hl : ∀ f ∈ l, ∀ s, (f s).pending = s.pending) (s : State) :
    (l.foldl (fun s f => f s) s).pending = s.pending := by
  induction l generalizing s with
  | nil => rfl
  | cons f l ih =>
    rw [List.foldl_cons, ih (fun g hg => hl g (List.mem_cons_of_mem _ hg)), hl f List.mem_cons_self]

@[simp] theorem execTransition_keepsQueue (len : Nat) (lost : Option Nat) (s : State) :
    KeepsQueue s (execTransition len lost s) := by
  have hall (t : Nat) (s : State) : ((transitionStages t).foldl (fun s f => f s) s).pending = s.pending :=
    runStages_pending (fun f hf => transitionStages_pending hf) s
  have hsome (t n : Nat) (s : State) : (((transitionStages t).take n).foldl (fun s f => f s) s).pending = s.pending :=
    runStages_pending (fun f hf => transitionStages_pending (List.mem_of_mem_take hf)) s
  refine (keepsQueue_next ..).2 (mbxCmd_pending _ (fun s => ?_) s)
  dsimp only
  split
  · simp
  split
  · split <;> simp only [vauxLoss_pending, fundamentalReset_pending, hall, hsome] <;> split <;> simp
  · simp only [fundamentalReset_pending, hall]
    split <;> simp

@[simp] theorem resumeTransition_pending (r : OtpRecord) (s : State) : (resumeTransition r s).pending = s.pending := by
  simp [resumeTransition]

@[simp] theorem runImage_pending (reg : Nat) (i : BootImage) (s : State) : (runImage reg i s).pending = s.pending := by
  simp [runImage]

@[simp] theorem recovery_pending (code : Nat) (s : State) : (recovery code s).pending = s.pending := (rfl)

@[simp] theorem applyOwnerCfg_pending (b : Option (List Byte)) (s : State) : (applyOwnerCfg b s).pending = s.pending := by
  simp -implicitDefEqProofs [applyOwnerCfg]

@[simp] theorem nextStep_pending (n : Nat) (s : State) : (nextStep n s).pending = s.pending := (rfl)

@[simp] theorem bringUp1_pending (b : BringUp) (s : State) : (bringUp1 b s).pending = s.pending := by
  simp only [bringUp1]
  (repeat' split) <;> simp

@[simp] theorem bringUp2_pending (b : BringUp) (s : State) : (bringUp2 b s).pending = s.pending := by
  have hon : ∀ (l : List Nat) (t : State), (l.foldl (fun s d => setDomain d true s) t).pending = t.pending :=
    fun l t => foldl_pending (by simp -implicitDefEqProofs) l t
  have hcores : ∀ (l : List Nat) (t : State), (l.foldl (fun s m =>
      setFld (pageCore m) Reg.CORE_STATE_STATE 1 (setDomain (173 + m) true s)) t).pending = t.pending :=
    fun l t => foldl_pending (by simp -implicitDefEqProofs) l t
  obtain ⟨boot, hboot⟩ : ∃ f, f = bootImage := exists_eq
  refine (congrArg State.pending (congr_fun₂ (by delta bringUp2; rfl : bringUp2 = _) b s)).trans ?_
  rw [← hboot]
  dsimp only
  split
  · simp -implicitDefEqProofs
  · split
    · simp -implicitDefEqProofs [hon]
    · rw [nextStep_pending, hcores]
      split <;> split <;> simp -implicitDefEqProofs [hon]

@[simp] theorem bringUp3_pending (b : BringUp) (s : State) : (bringUp3 b s).pending = s.pending := by simp [bringUp3]

@[simp] theorem applySpread_pending (s : State) : (applySpread s).pending = s.pending := by
  unfold applySpread
  extract_lets l ok l' m r0 stranded s0
  refine (foldl_pair_pending (fun r i => ?_) _ _).trans (setFlds_pending ..)
  dsimp only
  split <;> simp

@[simp] theorem bringUp4_pending (b : BringUp) (s : State) : (bringUp4 b s).pending = s.pending := by
  simp -implicitDefEqProofs [bringUp4]

@[simp] theorem logLatched_pending (s : State) : (logLatched s).pending = s.pending := foldl_pending (by simp) _ _
@[simp] theorem bringUp6_pending (s : State) : (bringUp6 s).pending = s.pending := by simp [bringUp6]

@[simp] theorem bringUp5_pending (b : BringUp) (s : State) : (bringUp5 b s).pending = s.pending := by
  have hstart (t : State) (ht : t.pending = s.pending) : (if (List.range 8).any (siteStarting t) then t
      else match (List.range 8).find? (fun n => decide (t.power.nextSite ≤ n) && startable t n) with
        | some n => startSite n (modPower (fun p => { p with nextSite := n + 1 }) t)
        | none => bringUp6 t).pending = s.pending := by
    split
    · exact ht
    · split <;> simp -implicitDefEqProofs [ht]
  refine (congrArg State.pending (congr_fun₂ (by delta bringUp5; rfl : bringUp5 = _) b s)).trans (hstart _ ?_)
  dsimp only
  split
  · rfl
  · rw [showTime_pending]
    refine (foldl_pending (fun t p => ?_) _ _).trans ?_
    · split <;> simp -implicitDefEqProofs
    · exact (foldl_pending (fun t n => by simp -implicitDefEqProofs) _ _).trans (by simp -implicitDefEqProofs)

@[simp] theorem execBringupStep_keepsQueue (b : BringUp) (s : State) : KeepsQueue s (execBringupStep b s) := by
  simp only [execBringupStep]
  (repeat' split) <;> simp

@[simp] theorem xclkLost_pending (s : State) : (xclkLost s).pending = s.pending := by
  simp -implicitDefEqProofs [xclkLost]

@[simp] theorem pllBlock_pending (i : Nat) (s : State) : (pllBlock i s).pending = s.pending := by simp [pllBlock]

@[simp] theorem execPllLockLoss_keepsQueue (pll : Nat) (s : State) : KeepsQueue s (execPllLockLoss pll s) := by
  simp -implicitDefEqProofs [execPllLockLoss]

@[simp] theorem execPllRelock_keepsQueue (pll : Nat) (s : State) : KeepsQueue s (execPllRelock pll s) := by
  simp -implicitDefEqProofs [execPllRelock]

@[simp] theorem setPoint_pending (n v f : Nat) (s : State) : (setPoint n v f s).pending = s.pending := by simp [setPoint]

@[simp] theorem execTileSetpointLoop_keepsQueue (tile slack : Nat) (s : State) :
    KeepsQueue s (execTileSetpointLoop tile slack s) := by
  simp -implicitDefEqProofs [execTileSetpointLoop]

@[simp] theorem execDroopDetect_keepsQueue (tile : Nat) (s : State) : KeepsQueue s (execDroopDetect tile s) := by
  simp -implicitDefEqProofs [execDroopDetect]

@[simp] theorem execTileIdleGate_keepsQueue (tile : Nat) (s : State) : KeepsQueue s (execTileIdleGate tile s) := by
  simp -implicitDefEqProofs [execTileIdleGate]

@[simp] theorem tileSelfTest_pending (n : Nat) (force : Bool) (s : State) : (tileSelfTest n force s).pending = s.pending := by
  simp only [tileSelfTest]
  (repeat' split) <;> simp

@[simp] theorem execTileSelfTest_keepsQueue (tile : Nat) (force : Bool) (s : State) :
    KeepsQueue s (execTileSelfTest tile force s) := by
  simp -implicitDefEqProofs [execTileSelfTest]

@[simp] theorem execPeriodicSelfTest_keepsQueue (s : State) : KeepsQueue s (execPeriodicSelfTest s) := by
  simp only [execPeriodicSelfTest]
  (repeat' split) <;> simp

@[simp] theorem execPowerLimitDecision_keepsQueue (inputW tileDynW : Nat) (s : State) :
    KeepsQueue s (execPowerLimitDecision inputW tileDynW s) := by
  simp -implicitDefEqProofs [execPowerLimitDecision]

@[simp] theorem takeTemp_pending (i : Nat) (r : Int) (s : State) : (takeTemp i r s).pending = s.pending := by simp [takeTemp]

@[simp] theorem tempSample_pending (readings : List Int) (s : State) : (tempSample readings s).pending = s.pending := by
  unfold tempSample
  split
  · rfl
  · extract_lets +onlyGivenNames s1
    have hs1 : s1.pending = s.pending := foldl_pending (by simp) _ _
    clear_value s1
    extract_lets +onlyGivenNames live shown s2
    have hs2 : s2.pending = s.pending := by
      refine Eq.trans ?_ hs1
      simp only [s2]
      split <;> simp
    clear_value s2
    extract_lets +onlyGivenNames s3
    have hs3 : s3.pending = s.pending := by
      refine Eq.trans ?_ hs2
      simp only [s3]
      split <;> simp
    clear_value s3
    extract_lets +onlyGivenNames high new s4 s5
    have hs5 : s5.pending = s.pending := by
      refine Eq.trans ?_ hs3
      simp only [s5]
      split <;> simp [s4]
    clear_value s5
    extract_lets trip warm all t
    split
    · refine (foldl_pending (fun t i => ?_) _ _).trans hs5
      split <;> simp
    · simp [t, hs5]

@[simp] theorem execTempSample_keepsQueue (readings : List Int) (s : State) : KeepsQueue s (execTempSample readings s) := by
  simp -implicitDefEqProofs [execTempSample]

@[simp] theorem execWatchdogExpiry_keepsQueue (core : Nat) (s : State) : KeepsQueue s (execWatchdogExpiry core s) := by
  simp -implicitDefEqProofs [execWatchdogExpiry]

@[simp] theorem execCoreSramError_keepsQueue (core : Nat) (s : State) : KeepsQueue s (execCoreSramError core s) := by
  simp -implicitDefEqProofs [execCoreSramError]

@[simp] theorem coreRestart_pending (m : Nat) (s : State) : (coreRestart m s).pending = s.pending := by simp [coreRestart]

@[simp] theorem execCoreRestart_keepsQueue (core : Nat) (s : State) : KeepsQueue s (execCoreRestart core s) := by
  simp -implicitDefEqProofs [execCoreRestart]

@[simp] theorem execCoreRestartDone_keepsQueue (core ms : Nat) (s : State) : KeepsQueue s (execCoreRestartDone core ms s) := by
  simp only [execCoreRestartDone]
  (repeat' split) <;> simp

@[simp] theorem execI3cMctpMessage_keepsQueue (msg : BoardMsg) (s : State) : KeepsQueue s (execI3cMctpMessage msg s) := by
  simp only [execI3cMctpMessage]
  (repeat' split) <;> simp

@[simp] theorem execJtagInstruction_keepsQueue (instr : JtagInstr) (s : State) : KeepsQueue s (execJtagInstruction instr s) := by
  simp -implicitDefEqProofs [execJtagInstruction]

end Sys2Proof.Machine
end

section
/-! The queue of commands (log entry 1) is left as it is by
register writes, accesses of the host, and every command. -/

namespace Sys2Proof.Machine

@[simp] theorem plainField_pending (w : RegW) (f : Field) (s : State) : (plainField w f s).pending = s.pending := by
  simp only [plainField]
  (repeat' split) <;> simp

@[simp] theorem plainWrite_pending (w : RegW) (k : PageKind) (s : State) : (plainWrite w k s).pending = s.pending := by
  simp [plainWrite]

@[simp] theorem plainOnly_pending (w : RegW) (l : List Field) (s : State) : (plainOnly w l s).pending = s.pending := by
  simp [plainOnly]

@[simp] theorem opStart_pending (p : Nat) (k : PageKind) (op arg : Nat) (force : Bool) (s : State) :
    (opStart p k op arg force s).pending = s.pending := by
  unfold opStart
  split <;> simp

@[simp] theorem abortSelfTest_pending (n : Nat) (s : State) : (abortSelfTest n s).pending = s.pending := by simp [abortSelfTest]

@[simp] theorem unlistEvac_pending (p ch : Nat) (s : State) : (unlistEvac p ch s).pending = s.pending := by
  simp only [unlistEvac]
  split <;> simp

@[simp] theorem opAbort_pending (p : Nat) (s : State) : (opAbort p s).pending = s.pending := by
  unfold opAbort
  split <;> simp

@[simp] theorem queuedStart_pending (p : Nat) (s : State) : (queuedStart p s).pending = s.pending := by
  simp only [queuedStart]
  (repeat' split) <;> simp

@[simp] theorem opControl_pending (w : RegW) (k : PageKind) (s : State) :
    (opControl w k s).pending = s.pending := by simp [opControl]

@[simp] theorem commonWrite_pending (w : RegW) (k : PageKind) (s : State) : (commonWrite w k s).pending = s.pending := by
  refine (congrArg State.pending (congr_fun₃ (by delta commonWrite; rfl : commonWrite = _) w k s)).trans ?_
  dsimp only
  split
  case h_1 =>
    split <;> simp -implicitDefEqProofs
  case h_3 =>
    split
    · exact watchIrq_pending _ (by simp -implicitDefEqProofs) s
    · rfl
  all_goals (repeat' split) <;> simp -implicitDefEqProofs

@[simp] theorem logConfig_pending (g : LogRegs) (w : RegW) (s : State) :
    (logConfig g w s).pending = s.pending := by simp [logConfig]

@[simp] theorem telemetryWrite_pending (w : RegW) (s : State) : (telemetryWrite w s).pending = s.pending := by
  unfold telemetryWrite
  split <;> simp

@[simp] theorem hbmWrite_pending (w : RegW) (s : State) : (hbmWrite w s).pending = s.pending := by simp [hbmWrite]
@[simp] theorem regulatorWrite_pending (w : RegW) (s : State) : (regulatorWrite w s).pending = s.pending := by simp [regulatorWrite]
@[simp] theorem siteWrite_pending (w : RegW) (s : State) : (siteWrite w s).pending = s.pending := by simp [siteWrite]
@[simp] theorem peatPageWrite_pending (w : RegW) (s : State) : (peatPageWrite w s).pending = s.pending := by simp [peatPageWrite]

@[simp] theorem plarusWrite_pending (w : RegW) (s : State) : (plarusWrite w s).pending = s.pending := by
  simp only [plarusWrite]
  split <;> simp

@[simp] theorem setTaps_pending (key v : Nat) (s : State) : (setTaps key v s).pending = s.pending := (rfl)
@[simp] theorem eqCtrlWrite_pending (w : RegW) (s : State) : (eqCtrlWrite w s).pending = s.pending := by simp [eqCtrlWrite]

@[simp] theorem portWrite_pending (w : RegW) (s : State) : (portWrite w s).pending = s.pending := by
  simp only [portWrite]
  (repeat' split) <;> simp

@[simp] theorem timeWrite_pending (w : RegW) (s : State) : (timeWrite w s).pending = s.pending := by
  unfold timeWrite
  split <;> simp

@[simp] theorem mailboxCommand_pending (op len arg : Nat) (s : State) : (mailboxCommand op len arg s).pending = s.pending := by
  unfold mailboxCommand
  split <;> simp

@[simp] theorem mailboxWrite_pending (w : RegW) (s : State) : (mailboxWrite w s).pending = s.pending := by simp [mailboxWrite]
@[simp] theorem debugWrite_pending (w : RegW) (s : State) : (debugWrite w s).pending = s.pending := by simp [debugWrite]

@[simp] theorem msixWrite_pending (fn vec half : Nat) (w : RegW) (s : State) :
    (msixWrite fn vec half w s).pending = s.pending := by simp [msixWrite]

@[simp] theorem hostPageWrite_pending (w : RegW) (s : State) : (hostPageWrite w s).pending = s.pending := by
  unfold hostPageWrite
  split <;> simp

@[simp] theorem ownerPageWrite_pending (w : RegW) (s : State) : (ownerPageWrite w s).pending = s.pending := by simp [ownerPageWrite]

@[simp] theorem ringCfgWrite_pending (k r : Nat) (w : RegW) (s : State) : (ringCfgWrite k r w s).pending = s.pending := by
  simp [ringCfgWrite]

@[simp] theorem cqCfgWrite_pending (k : Nat) (w : RegW) (s : State) : (cqCfgWrite k w s).pending = s.pending := by simp [cqCfgWrite]
@[simp] theorem fqCfgWrite_pending (k : Nat) (w : RegW) (s : State) : (fqCfgWrite k w s).pending = s.pending := by simp [fqCfgWrite]

@[simp] theorem draughtCmdWrite_pending (k : Nat) (w : RegW) (s : State) : (draughtCmdWrite k w s).pending = s.pending := by
  unfold draughtCmdWrite
  split <;> simp

@[simp] theorem tenantRegs_pending (k : Nat) (w : RegW) (s : State) : (tenantRegs k w s).pending = s.pending := by simp [tenantRegs]

@[simp] theorem inPost_pending (k len : Nat) (s : State) : (inPost k len s).pending = s.pending := by
  simp only [inPost]
  (repeat' split) <;> simp

@[simp] theorem windowWrite_pending (k : Nat) (w : RegW) (s : State) : (windowWrite k w s).pending = s.pending := by
  simp [windowWrite]

@[simp] theorem contextWrite_pending (w : RegW) (s : State) : (contextWrite w s).pending = s.pending := by
  unfold contextWrite
  split <;> simp

@[simp] theorem regWrite_pending (w : RegW) (k : PageKind) (s : State) : (regWrite w k s).pending = s.pending := by
  simp only [regWrite]
  (repeat' split) <;> simp

@[simp] theorem readGuest_pending (fn p off width : Nat) (s : State) : (readGuest fn p off width s).pending = s.pending := by
  simp [readGuest]

@[simp] theorem execRegRd_keepsQueue (fn page off width : Nat) (s : State) : KeepsQueue s (execRegRd fn page off width s) := by
  unfold execRegRd
  dsimp only
  (repeat' split) <;> simp

@[simp] theorem writeEffect_pending (fn page off width data : Nat) (s : State) :
    (writeEffect fn page off width data s).pending = s.pending := by
  unfold writeEffect
  split <;> simp

@[simp] theorem execRegWr_keepsQueue (fn page off width data : Nat) (s : State) :
    KeepsQueue s (execRegWr fn page off width data s) := by
  unfold execRegWr
  (repeat' split) <;> simp

@[simp] theorem execRegisterWrite_keepsQueue (fn page off width data : Nat) (s : State) :
    KeepsQueue s (execRegisterWrite fn page off width data s) := by
  simp -implicitDefEqProofs [execRegisterWrite]

@[simp] theorem execOpAbort_keepsQueue (page : Nat) (s : State) : KeepsQueue s (execOpAbort page s) := by
  simp -implicitDefEqProofs [execOpAbort]

@[simp] theorem execQueuedOpStart_keepsQueue (page : Nat) (s : State) : KeepsQueue s (execQueuedOpStart page s) := by
  simp -implicitDefEqProofs [execQueuedOpStart]

/-- Every command leaves the queue of waiting commands alone. -/
theorem exec_keepsQueue (i : Instr) (s : State) : KeepsQueue s (exec i s) := by
  cases i <;> simp [exec]

/-- Settles O3, command by command: each is made of operations none of which touches the queue. -/
theorem commandsLeaveQueue : Obligations.CommandsLeaveQueue := by
  unfold Obligations.CommandsLeaveQueue
  intro s t h
  cases hq : s.pending with
  | nil =>
    rw [stepRunsFrontCommand.2 s hq] at h
    cases h
    exact hq
  | cons c rest =>
    have hs : s = { { s with pending := rest } with pending := c :: rest } := by rw [← hq]
    rw [hs, stepRunsFrontCommand.1 c { s with pending := rest }] at h
    exact exec_keepsQueue c _ t h

end Sys2Proof.Machine
end

section
/-! The state after reset (R80, R295, R321, R322; log entries 6, 31 and 32): what its fields read, and the settled statement about it. -/

namespace Sys2Proof.Machine

/-- After reset a field reads its reset value. -/
theorem fld_reset (p : Nat) (f : Field) : fld State.reset p f = resetOf p f := rfl

/-- A tile's page, or a site's, starts FREE, with no context. -/
theorem reset_tile_free : ∀ n < 64, bindState State.reset (pageTile n) = 0 ∧ bindCtx State.reset (pageTile n) = 0xFF := by decide

theorem reset_site_free : ∀ n < 8, bindState State.reset (pageSite n) = 0 ∧ bindCtx State.reset (pageSite n) = 0xFF := by decide

/-- Only context 0x00's page starts with a state of its own (R295). -/
theorem reset_ctx_empty {k : Nat} (hk : 0 < k) : ctxState State.reset k = 0 := by
  rw [ctxState, fld_reset, resetOf, if_neg (by simp [pageCtx]; omega), if_pos (.inr (.inl (by decide)))]
  rfl

/-- The cache starts with no line. -/
theorem reset_setSound (pa : Nat) : setSound State.reset pa := by
  have hnone : linesOf State.reset pa = [] := rfl
  simp [setSound, hnone]

/-- Settles O5, from the reset values of the fields. -/
theorem resetIsCanonical : Obligations.ResetIsCanonical := by
  unfold Obligations.ResetIsCanonical
  exact ⟨rfl, wf_reset, rfl, rfl, reset_tile_free, reset_site_free, fun k hk _ => reset_ctx_empty hk, by decide, by decide,
    reset_setSound, by decide, rfl⟩

end Sys2Proof.Machine
end

section
/-! Unassigned pages (R66): what counting an access changes of the register fields, what each access to an unassigned page comes
to, and the settled statement about them. -/

namespace Sys2Proof.Machine

theorem not_assigned {p : Nat} (hk : pageKind p = none) : assigned p = false := by simp [assigned, hk]

/-- A saturating count holds the lesser of the sum and all ones. -/
theorem fld_bump_same (p : Nat) (f : Field) (n : Nat) (s : State) :
    fld (bump p f n s) p f = min (fld s p f + n) (2 ^ f.width - 1) := by
  rw [bump, fld_setFld_same]
  refine Nat.mod_eq_of_lt ?_
  have := Nat.two_pow_pos f.width
  omega

/-- A page of BAR0 fits `LAST_PAGE`. -/
theorem fld_countUnassigned_lastPage {p : Nat} (hp : p < 0x400) (s : State) :
    fld (countUnassigned p s) 0 Reg.UNASSIGNED_ACCESS_LAST_PAGE = p := by
  have hwidth : Reg.UNASSIGNED_ACCESS_LAST_PAGE.width = 10 := rfl
  rw [countUnassigned, fld_setFld_same, hwidth]
  exact Nat.mod_eq_of_lt hp

theorem fld_countUnassigned_count (p : Nat) (s : State) :
    fld (countUnassigned p s) 0 Reg.UNASSIGNED_ACCESS_COUNT = min (fld s 0 Reg.UNASSIGNED_ACCESS_COUNT + 1) 0xFFFFFFFF := by
  rw [countUnassigned, fld_setFld_ne _ _ (fieldKey_ne (by decide)), fld_bump_same]
  rfl

theorem sameFields_countUnassigned (p : Nat) (s : State) :
    sameFields [(0, Reg.UNASSIGNED_ACCESS_COUNT), (0, Reg.UNASSIGNED_ACCESS_LAST_PAGE)] s (countUnassigned p s) :=
  (sameFields_setFld 0 Reg.UNASSIGNED_ACCESS_COUNT _ s).append (sameFields_setFld 0 Reg.UNASSIGNED_ACCESS_LAST_PAGE p _)

theorem execUnassignedAccess_unassigned (fn : Nat) {p : Nat} (off : Nat) (write : Bool) (s : State) (hk : pageKind p = none) :
    execUnassignedAccess fn p off write s = .next (answerAccess fn p off write 0 (countUnassigned p s)) := by
  simp [execUnassignedAccess, not_assigned hk]

theorem execBadAccess_unassigned (fn : Nat) {p : Nat} (off : Nat) (write : Bool) (s : State) (hk : pageKind p = none) :
    execBadAccess fn p off write s =
      .next (answerAccess fn p off write 0 (accessErr 0 Reg.ERR_SUMMARY_BAD_ACCESS (countUnassigned p (dropShadow fn p s)))) := by
  simp [execBadAccess, not_assigned hk]

/-- What the statement says of the state that an access to an unassigned page leaves; `l`: the fields it changes besides. -/
def CountedUnassigned (l : List (Nat × Field)) (p : Nat) (o : Out) (s t : State) : Prop :=
  t.out = o :: s.out ∧ sameBytes s t ∧
    fld t 0 Reg.UNASSIGNED_ACCESS_COUNT = min (fld s 0 Reg.UNASSIGNED_ACCESS_COUNT + 1) 0xFFFFFFFF ∧
    fld t 0 Reg.UNASSIGNED_ACCESS_LAST_PAGE = p ∧
    sameFields ([(0, Reg.UNASSIGNED_ACCESS_COUNT), (0, Reg.UNASSIGNED_ACCESS_LAST_PAGE)] ++ l) s t

theorem countedUnassigned_answer (fn : Nat) {p : Nat} (off : Nat) (write : Bool) (s : State) (hp : p < 0x400) :
    CountedUnassigned [] p (if write then .regDone fn p off else .regData fn p off 0) s
      (answerAccess fn p off write 0 (countUnassigned p s)) :=
  ⟨rfl, sameBytes_of_parts rfl rfl rfl, fld_countUnassigned_count p s, fld_countUnassigned_lastPage hp s,
    sameFields_countUnassigned p s⟩

/-- A request that R67 does not accept is an access error of the global page besides. -/
theorem countedUnassigned_badAccess (fn : Nat) {p : Nat} (off : Nat) (write : Bool) (s : State) (hp : p < 0x400) :
    CountedUnassigned ((0, Reg.ERR_SUMMARY_BAD_ACCESS) :: irqPlaces 0) p
      (if write then .regDone fn p off else .regData fn p off 0) s
      (answerAccess fn p off write 0 (accessErr 0 Reg.ERR_SUMMARY_BAD_ACCESS (countUnassigned p (dropShadow fn p s)))) := by
  have herr := sameFields_accessErr 0 Reg.ERR_SUMMARY_BAD_ACCESS (countUnassigned p (dropShadow fn p s))
  refine ⟨?_, sameBytes_of_parts (accessErr_mem ..) (accessErr_cache ..) (accessErr_coh ..), ?_, ?_, ?_⟩
  · rw [answerAccess_out, accessErr_out]
    rfl
  · exact (herr _ _ (by decide)).trans (fld_countUnassigned_count p _)
  · exact (herr _ _ (by decide)).trans (fld_countUnassigned_lastPage hp _)
  · exact ((sameFields_countUnassigned p (dropShadow fn p s)).append herr).congr_regs rfl rfl

theorem exec_regRd_unassigned {fn p : Nat} (off width : Nat) (s : State) (hpath : hasPath fn p = true) (hp : p < 0x400)
    (hk : pageKind p = none) : exec (.regRd fn p off width) s =
      if readOk off width then execUnassignedAccess fn p off false s else execBadAccess fn p off false s := by
  cases hok : readOk off width <;> simp [exec, execRegRd, hpath, hok, hp, not_assigned hk]

theorem exec_regWr_unassigned {fn p : Nat} (off width data : Nat) (s : State) (hpath : hasPath fn p = true) (hp : p < 0x400)
    (hk : pageKind p = none) : exec (.regWr fn p off width data) s =
      if writeOk off width then execUnassignedAccess fn p off true s else execBadAccess fn p off true s := by
  cases hok : writeOk off width <;> simp [exec, execRegWr, hpath, hok, hp, not_assigned hk]

/-- Settles O8: a read, a write and the command of an unassigned access are one counted access; one that R67 does not accept
is an error of the global page besides. -/
theorem unassignedPageRule : Obligations.UnassignedPageRule := by
  unfold Obligations.UnassignedPageRule
  refine ⟨?read, ?write, ?access⟩
  case read =>
    intro fn p off width s hpath hp hk
    rw [exec_regRd_unassigned off width s hpath hp hk, execUnassignedAccess_unassigned fn off false s hk,
      execBadAccess_unassigned fn off false s hk]
    split
    · exact ⟨_, rfl, countedUnassigned_answer fn off false s hp⟩
    · exact ⟨_, rfl, countedUnassigned_badAccess fn off false s hp⟩
  case write =>
    intro fn p off width data s hpath hp hk
    rw [exec_regWr_unassigned off width data s hpath hp hk, execUnassignedAccess_unassigned fn off true s hk,
      execBadAccess_unassigned fn off true s hk]
    split
    · exact ⟨_, rfl, countedUnassigned_answer fn off true s hp⟩
    · exact ⟨_, rfl, countedUnassigned_badAccess fn off true s hp⟩
  case access =>
    intro fn p off write s hp hk
    obtain ⟨hout, hbytes, hcount, hlast, hfields⟩ := countedUnassigned_answer fn off write s hp
    exact ⟨_, execUnassignedAccess_unassigned fn off write s hk, hbytes, hout, hcount, hlast, hfields⟩

end Sys2Proof.Machine
end

section
/-! The interrupt and error registers of a page, and the operations that wait on it (R73 to R75, R79, R82): what each write leaves. -/

namespace Sys2Proof.Machine

/-! `IRQ_STATUS` as one word (R73, R74) -/

theorem irqWord_congr {s t : State} (h : t.regs = s.regs) (p : Nat) : irqWord t p = irqWord s p := by
  simp only [irqWord, fld_congr h]

theorem irqCond_congr {s t : State} (h : t.regs = s.regs) (p : Nat) : irqCond t p = irqCond s p := by
  simp only [irqCond, irqWord_congr h, fld_congr h, flag_congr h]

/-- The word's 62 source bits and its two others are the three fields. -/
theorem irqWord_setIrqWord (p w : Nat) (s : State) : irqWord (setIrqWord p w s) p = w % 2 ^ 64 := by
  have hblock : Reg.IRQ_STATUS_BLOCK.width = 62 := rfl
  have hdone : Reg.IRQ_STATUS_OP_DONE.width = 1 := rfl
  have herr : Reg.IRQ_STATUS_ERR.width = 1 := rfl
  simp (disch := decide) only [irqWord, setIrqWord, setFlds_cons, setFlds_nil, fld_setFld_same, fld_setFld_field, hblock, hdone,
    herr, bit, Nat.shiftRight_eq_div_pow]
  omega

theorem sameFields_setIrqWord (p w : Nat) (s : State) : sameFields (irqPlaces p) s (setIrqWord p w s) := fun q g h =>
  fld_setFlds_ne _ _ (by simpa using ⟨h (p, Reg.IRQ_STATUS_BLOCK) (by simp [irqPlaces]), h (p, Reg.IRQ_STATUS_OP_DONE) (by simp [irqPlaces]),
    h (p, Reg.IRQ_STATUS_ERR) (by simp [irqPlaces])⟩)

/-- A watched change that takes the condition from false to true queues one message. -/
theorem watchIrq_irqs {p : Nat} {g : State → State} {s : State} (hs : irqCond s p = false) (ht : irqCond (watchIrq p g s) p = true) :
    (watchIrq p g s).errs.irqs = (g s).errs.irqs ++ [p] := by
  rw [irqCond_congr (watchIrq_regs p g s)] at ht
  simp only [watchIrq, hs, ht, Bool.not_false, Bool.and_self, if_true]
  rfl

theorem irqClear_regs (p mask : Nat) (s : State) :
    (irqClear p mask s).regs = (setIrqWord p (irqWord s p &&& (2 ^ 64 - 1 - mask % 2 ^ 64)) s).regs := by
  unfold irqClear
  dsimp only
  split <;> rfl

theorem irqClear_bytes (p mask : Nat) (s : State) : sameBytes s (irqClear p mask s) := by
  unfold irqClear
  dsimp only
  split <;> exact sameBytes_of_parts rfl rfl rfl

/-- A condition that stays true sends a fresh message. -/
theorem irqClear_irqs {p mask : Nat} {s : State} (h : irqCond (irqClear p mask s) p = true) :
    (irqClear p mask s).errs.irqs = s.errs.irqs ++ [p] := by
  rw [irqCond_congr (irqClear_regs p mask s)] at h
  rw [irqClear, if_pos h]
  rfl

theorem irqWord_irqClear (p mask : Nat) (s : State) :
    irqWord (irqClear p mask s) p = irqWord s p % 2 ^ 64 &&& (2 ^ 64 - 1 - mask % 2 ^ 64) := by
  rw [irqWord_congr (irqClear_regs p mask s), irqWord_setIrqWord, Nat.and_mod_two_pow,
    Nat.mod_eq_of_lt (show 2 ^ 64 - 1 - mask % 2 ^ 64 < 2 ^ 64 by omega)]

theorem irqWord_raiseIrq (p mask : Nat) (s : State) : irqWord (raiseIrq p mask s) p = (irqWord s p ||| mask) % 2 ^ 64 := by
  rw [irqWord_congr (raiseIrq_regs p mask s), irqWord_setIrqWord]

theorem raiseIrq_irqs {p mask : Nat} {s : State} (hs : irqCond s p = false) (ht : irqCond (raiseIrq p mask s) p = true) :
    (raiseIrq p mask s).errs.irqs = s.errs.irqs ++ [p] := watchIrq_irqs hs ht

/-! `ERR_SUMMARY` (R75) -/

/-- The clear of one bit where the write has it. -/
def clearWhere (p mask : Nat) (f : Field) (s : State) : State := if tst mask f.lo then setFld p f 0 s else s

theorem clearWhere_eq (p mask : Nat) (f : Field) (s : State) : clearWhere p mask f s = { s with regs := (clearWhere p mask f s).regs } := by
  unfold clearWhere
  split <;> rfl

theorem sameFields_clearWhere (p mask : Nat) (f : Field) (s : State) : sameFields [(p, f)] s (clearWhere p mask f s) := by
  unfold clearWhere
  split
  · exact sameFields_setFld p f 0 s
  · exact fun _ _ _ => rfl

theorem fld_clearWhere_set {p mask : Nat} {f : Field} (s : State) (h : tst mask f.lo = true) : fld (clearWhere p mask f s) p f = 0 := by
  rw [clearWhere, if_pos h, fld_setFld_same, Nat.zero_mod]

theorem fld_clearWhere_kept {p mask q : Nat} {f g : Field} (s : State) (h : tst mask f.lo = false) :
    fld (clearWhere p mask f s) q g = fld s q g := by
  rw [clearWhere, h]
  rfl

theorem fld_clearWhere_ne {p mask : Nat} {f g : Field} (s : State) (h : g.off * 64 + g.lo ≠ f.off * 64 + f.lo) :
    fld (clearWhere p mask f s) p g = fld s p g :=
  sameFields_clearWhere p mask f s p g (by simpa using fieldKey_ne h)

/-- The write's bits of the access errors, of `OVERFLOW` and of `FIRST_VALID`, one after the other. -/
def clearErrBits (p mask : Nat) (s : State) : State :=
  clearWhere p mask Reg.ERR_SUMMARY_LOCKED_WRITE (clearWhere p mask Reg.ERR_SUMMARY_BAD_ACCESS
    (clearWhere p mask Reg.ERR_SUMMARY_OP_REFUSED (clearWhere p mask Reg.ERR_SUMMARY_OVERFLOW
      (clearWhere p mask Reg.ERR_SUMMARY_FIRST_VALID s))))

theorem errSummaryClear_eq (p mask : Nat) (s : State) : errSummaryClear p mask s =
    setFld p Reg.ERR_SUMMARY_SEEN (fld (clearErrBits p mask s) p Reg.ERR_SUMMARY_SEEN &&& (15 - bits mask 11 8))
      (clearErrBits p mask s) := rfl

theorem errSummaryClear_bytes (p mask : Nat) (s : State) : sameBytes s (errSummaryClear p mask s) := by
  have hparts (f : Field) (t : State) : (clearWhere p mask f t).mem = t.mem ∧ (clearWhere p mask f t).cache = t.cache ∧
      (clearWhere p mask f t).coh = t.coh := by
    rw [clearWhere_eq]
    exact ⟨rfl, rfl, rfl⟩
  rw [errSummaryClear_eq]
  exact sameBytes_of_parts (by simp [clearErrBits, hparts]) (by simp [clearErrBits, hparts]) (by simp [clearErrBits, hparts])

theorem sameFields_errSummaryClear (p mask : Nat) (s : State) :
    sameFields [(p, Reg.ERR_SUMMARY_LOCKED_WRITE), (p, Reg.ERR_SUMMARY_BAD_ACCESS), (p, Reg.ERR_SUMMARY_OP_REFUSED),
      (p, Reg.ERR_SUMMARY_OVERFLOW), (p, Reg.ERR_SUMMARY_FIRST_VALID), (p, Reg.ERR_SUMMARY_SEEN)] s (errSummaryClear p mask s) := by
  intro q g h
  simp only [List.mem_cons, List.not_mem_nil, or_false, forall_eq_or_imp, forall_eq] at h
  obtain ⟨hl, hb, ho, hv, hf, hs⟩ := h
  rw [errSummaryClear_eq, fld_setFld_ne _ _ hs]
  unfold clearErrBits
  rw [sameFields_clearWhere _ _ _ _ q g (by simpa using hl), sameFields_clearWhere _ _ _ _ q g (by simpa using hb),
    sameFields_clearWhere _ _ _ _ q g (by simpa using ho), sameFields_clearWhere _ _ _ _ q g (by simpa using hv),
    sameFields_clearWhere _ _ _ _ q g (by simpa using hf)]

/-- Of the write's bits only its own touches `FIRST_VALID`. -/
theorem firstValid_errSummaryClear (p mask : Nat) (s : State) : fld (errSummaryClear p mask s) p Reg.ERR_SUMMARY_FIRST_VALID =
    fld (clearWhere p mask Reg.ERR_SUMMARY_FIRST_VALID s) p Reg.ERR_SUMMARY_FIRST_VALID := by
  rw [errSummaryClear_eq, fld_setFld_field _ _ (by decide)]
  unfold clearErrBits
  simp (disch := decide) only [fld_clearWhere_ne]

theorem overflow_errSummaryClear {p mask : Nat} (s : State) (h : tst mask 3 = true) :
    fld (errSummaryClear p mask s) p Reg.ERR_SUMMARY_OVERFLOW = 0 := by
  rw [errSummaryClear_eq, fld_setFld_field _ _ (by decide)]
  unfold clearErrBits
  simp (disch := decide) only [fld_clearWhere_ne]
  exact fld_clearWhere_set _ h

theorem count_errSummaryClear (p mask : Nat) (s : State) :
    fld (errSummaryClear p mask s) p Reg.ERR_SUMMARY_COUNT = fld s p Reg.ERR_SUMMARY_COUNT := by
  rw [errSummaryClear_eq, fld_setFld_field _ _ (by decide)]
  unfold clearErrBits
  simp (disch := decide) only [fld_clearWhere_ne]

/-! `PAGE_RESET` (R82) -/

theorem regs_resetFlds (p : Nat) (l : List Field) (s : State) (q : Nat) (g : Field) :
    fld (resetFlds p l s) q g = if (∃ f ∈ l, fieldKey q g = fieldKey p f) then resetOf q g else fld s q g := by
  have hkeys (r : Tab Nat) : Tab.get (resetOf q g) (l.foldl (fun r f => Tab.del r (fieldKey p f)) r) (fieldKey q g) =
      if (∃ f ∈ l, fieldKey q g = fieldKey p f) then resetOf q g else Tab.get (resetOf q g) r (fieldKey q g) := by
    induction l generalizing r with
    | nil => simp
    | cons f l ih =>
      rw [List.foldl_cons, ih]
      by_cases hf : fieldKey q g = fieldKey p f
      · simp [hf]
      · simp [hf, Tab.get_del_ne]
  exact hkeys s.regs

/-- A block's counters lie above the common header. -/
theorem counterFields_above (k : PageKind) : ∀ f ∈ counterFields k, 0x100 ≤ f.off ∧ f.off < 0x10000 ∧ f.lo < 64 := by
  cases k
  case telemetry =>
    intro f hf
    obtain ⟨i, hi, rfl⟩ := List.mem_map.mp hf
    have hlt := List.mem_range.mp hi
    have hoff : (Reg.TEMP_PEAK.at 8 i).off = 0x100 + 8 * i := rfl
    exact ⟨by omega, by omega, show (16 : Nat) < 64 by decide⟩
  all_goals decide

/-- What a reset clears of the sessions' counts, on the page of Plarus alone. -/
def resetSessionCounts (k : PageKind) (s : State) : State :=
  if k = .plarus then
    { s with plr := { s.plr with sessions := (s.plr.sessions.map (fun e =>
      (e.1, { e.2 with retransmits := 0, authDrops := 0 }))).filter (fun e => e.2 != {}) } } else s

/-- The fields of the common header that a reset clears, whether an operation is active or not. -/
def resetHeader : List Field := [Reg.IRQ_STATUS_BLOCK, Reg.IRQ_STATUS_OP_DONE, Reg.IRQ_STATUS_ERR] ++ errFields

/-- The fields of an operation that has ended. -/
def endedOpFields : List Field :=
  [Reg.PROGRESS_PERCENT, Reg.PROGRESS_VALID, Reg.PROGRESS_OPCODE, Reg.PROGRESS_POSITION, Reg.OP_CONTROL_RESULT]

theorem resetSessionCounts_eq (k : PageKind) (s : State) :
    resetSessionCounts k s = { s with plr := (resetSessionCounts k s).plr } := by
  unfold resetSessionCounts
  split <;> rfl

theorem pageReset_assigned {p : Nat} {k : PageKind} (s : State) (hp : p < 0x400) (hk : pageKind p = some k) :
    pageReset p s = if (pageOp s p).isSome then resetFlds p (resetHeader ++ counterFields k) (resetSessionCounts k s)
      else resetFlds p endedOpFields (resetFlds p (resetHeader ++ counterFields k) (resetSessionCounts k s)) := by
  have hops : pageOp (resetFlds p (resetHeader ++ counterFields k) (resetSessionCounts k s)) p = pageOp s p := by
    rw [resetSessionCounts_eq]
    rfl
  rw [← hops]
  simp only [pageReset, if_pos hp, hk]
  rfl

/-- A reset leaves every part but the registers, and the sessions' counts. -/
theorem pageReset_parts {p : Nat} (s : State) (hp : assigned p = true) :
    (pageReset p s).ops = s.ops ∧ (pageReset p s).mem = s.mem ∧ (pageReset p s).cache = s.cache ∧ (pageReset p s).coh = s.coh := by
  obtain ⟨hlt, k, hk⟩ := (assigned_iff p).mp hp
  rw [pageReset_assigned s hlt hk, resetSessionCounts_eq]
  split <;> exact ⟨rfl, rfl, rfl, rfl⟩

/-- A field of the header that a reset clears reads its reset value. -/
theorem fld_pageReset_cleared {p : Nat} {f : Field} (s : State) (hp : assigned p = true) (hf : f ∈ resetHeader) :
    fld (pageReset p s) p f = resetOf p f := by
  obtain ⟨hlt, k, hk⟩ := (assigned_iff p).mp hp
  have hfirst : fld (resetFlds p (resetHeader ++ counterFields k) (resetSessionCounts k s)) p f = resetOf p f := by
    rw [regs_resetFlds, if_pos ⟨f, List.mem_append_left _ hf, rfl⟩]
  rw [pageReset_assigned s hlt hk]
  split
  · exact hfirst
  · rw [regs_resetFlds, hfirst, ite_self]

/-- The fields of the header that a reset does not clear read as before. -/
theorem fld_pageReset_kept {p : Nat} {f : Field} (s : State) (hp : assigned p = true) (hoff : f.off < 0x100) (hlo : f.lo < 64)
    (hf : ∀ g ∈ resetHeader ++ endedOpFields, f.off * 64 + f.lo ≠ g.off * 64 + g.lo) : fld (pageReset p s) p f = fld s p f := by
  obtain ⟨hlt, k, hk⟩ := (assigned_iff p).mp hp
  have hkey {g : Field} (hg : g ∈ resetHeader ++ endedOpFields) : fieldKey p f ≠ fieldKey p g := fieldKey_ne (hf g hg)
  have hfirst : fld (resetFlds p (resetHeader ++ counterFields k) (resetSessionCounts k s)) p f = fld s p f := by
    rw [regs_resetFlds, if_neg, resetSessionCounts_eq]
    · rfl
    · rintro ⟨g, hg, he⟩
      rcases List.mem_append.mp hg with hg | hg
      · exact hkey (List.mem_append_left _ hg) he
      · obtain ⟨hlow, hhigh, hglo⟩ := counterFields_above k g hg
        exact fieldKey_ne_head hoff hlow hhigh hglo hlo he.symm
  rw [pageReset_assigned s hlt hk]
  split
  · exact hfirst
  · rw [regs_resetFlds, if_neg (fun ⟨g, hg, he⟩ => hkey (List.mem_append_right _ hg) he), hfirst]

/-- The interrupt and error fields start at 0 on every page. -/
theorem resetOf_resetHeader {p : Nat} {f : Field} (hp : assigned p = true) (hf : f ∈ resetHeader) : resetOf p f = 0 := by
  obtain ⟨hlt, k, hk⟩ := (assigned_iff p).mp hp
  have hoff : f.off < 0x100 ∧ f ≠ Reg.CTX_STATUS_STATE ∧ f ≠ Reg.PAGE_ID_INDEX ∧ f ≠ Reg.PAGE_ID_TYPE ∧ f ≠ Reg.PAGE_ID_INSTANCE ∧
      f ≠ Reg.PAGE_CAP_BINDABLE ∧ f ≠ Reg.PAGE_CAP_HAS_OPS ∧ f ≠ Reg.PAGE_CAP_SEALED_MASKS ∧ f ≠ Reg.PAGE_CAP_IRQ_SOURCES ∧
      f ≠ Reg.BINDING_CTX ∧ f ≠ Reg.BINDING_STATE ∧ f.reset = 0 := by
    revert f
    decide
  obtain ⟨hlow, h0, h1, h2, h3, h4, h5, h6, h7, h8, h9, hreset⟩ := hoff
  have hhead : ¬ (0x500 ≤ p ∨ 0x100 ≤ f.off ∨ 0x400 ≤ p) := by omega
  simp [resetOf, hk, hhead, h0, h1, h2, h3, h4, h5, h6, h7, h8, h9, hreset]

theorem irqWord_pageReset {p : Nat} (s : State) (hp : assigned p = true) : irqWord (pageReset p s) p = 0 := by
  have hzero {f : Field} (hf : f ∈ resetHeader) : fld (pageReset p s) p f = 0 :=
    (fld_pageReset_cleared s hp hf).trans (resetOf_resetHeader hp hf)
  simp only [irqWord, hzero (show Reg.IRQ_STATUS_BLOCK ∈ resetHeader by decide),
    hzero (show Reg.IRQ_STATUS_OP_DONE ∈ resetHeader by decide), hzero (show Reg.IRQ_STATUS_ERR ∈ resetHeader by decide),
    Nat.mul_zero, Nat.add_zero]

/-! Operations that wait on a tile's page (R79) -/

theorem pageKind_pageTile {n : Nat} (hn : n < 64) : pageKind (pageTile n) = some .tile := by
  revert n
  decide

theorem assigned_pageTile {n : Nat} (hn : n < 64) : assigned (pageTile n) = true :=
  (assigned_iff _).mpr ⟨by simp only [pageTile]; omega, _, pageKind_pageTile hn⟩

theorem opAbort_queued_tile {n : Nat} {o : PageOp} {s : State} (hn : n < 64) (ho : pageOp s (pageTile n) = some o)
    (hq : o.queued = true) : opAbort (pageTile n) s = opEnd (pageTile n) 5 s := by
  simp [opAbort, ho, hq, pageKind_pageTile hn]

theorem sameFields_setFlds (p : Nat) (l : List (Field × Nat)) (s : State) :
    sameFields (l.map (fun x => (p, x.1))) s (setFlds p l s) := fun _ _ h =>
  fld_setFlds_ne l s fun x hx => h (p, x.1) (List.mem_map.mpr ⟨x, hx, rfl⟩)

theorem sameFields_opEnd (p result : Nat) (s : State) : sameFields (opPlaces p) s (opEnd p result s) := by
  have hresult : sameFields (opPlaces p) s
      (setFlds p [(Reg.OP_CONTROL_RESULT, result), (Reg.PAGE_STATUS_OP_ACTIVE, 0)] (setPageOp p none s)) :=
    ((sameFields_setFlds p _ (setPageOp p none s)).congr_regs rfl rfl).mono (by simp [opPlaces])
  have hirq (t : State) : sameFields (opPlaces p) t (raiseIrq p (2 ^ 62) t) :=
    (sameFields_raiseIrq p _ t).mono (List.subset_append_left _ _)
  have hpercent (t : State) : sameFields (opPlaces p) t (setFld p Reg.PROGRESS_PERCENT 100 t) :=
    (sameFields_setFld p _ 100 t).mono (by simp [opPlaces])
  unfold opEnd
  dsimp only
  split
  · exact hresult.trans (hirq _)
  · exact (hresult.trans (hpercent _)).trans (hirq _)

/-- `IRQ_STATUS.OP_DONE` is set with its mask (R79). -/
theorem fld_raiseIrq_opDone (p : Nat) (s : State) : fld (raiseIrq p (2 ^ 62) s) p Reg.IRQ_STATUS_OP_DONE = 1 := by
  rw [fld_congr (raiseIrq_regs p _ s)]
  simp (disch := decide) only [setIrqWord, setFlds_cons, setFlds_nil, fld_setFld_field, fld_setFld_same, bit_or_two_pow_self]
  rfl

theorem opEnd_opDone (p result : Nat) (s : State) : fld (opEnd p result s) p Reg.IRQ_STATUS_OP_DONE = 1 := fld_raiseIrq_opDone p _

theorem opEnd_bytes (p result : Nat) (s : State) : sameBytes s (opEnd p result s) :=
  sameBytes_of_parts (opEnd_mem ..) (opEnd_cache ..) (opEnd_coh ..)

theorem queuedStart_selfTest {n arg : Nat} {s : State} (hn : n < 64) (ho : pageOp s (pageTile n) = some ⟨2, arg, true⟩)
    (hfree : bindState s (pageTile n) = 0) : queuedStart (pageTile n) s = startSelfTest n false s := by
  have hn' : pageTile n - pageTile 0 = n := by simp [pageTile]
  simp only [queuedStart, ho, pageKind_pageTile hn, hfree, Bool.not_true, if_true, hn']
  rfl

theorem startSelfTest_coh (n : Nat) (s : State) : (startSelfTest n false s).coh = s.coh := by
  have hwake : (tileWake n s).coh = s.coh := by
    unfold tileWake tileOn
    split
    · rfl
    · dsimp only
      rw [bumpGeneration_coh]
      split <;> rfl
  simp [startSelfTest, clearArray, hwake]

theorem startSelfTest_result (n : Nat) (s : State) : fld (startSelfTest n false s) (pageTile n) Reg.OP_CONTROL_RESULT = 2 :=
  (fld_congr (modTile_regs ..) _ _).trans (opRun_result ..)

end Sys2Proof.Machine
end

section
/-! The messages between the hub's blocks (R70, R282, R384, R489), and the settled statement about them and the registers of a page. -/

namespace Sys2Proof.Machine

/-- With the device log disabled a record is dropped and counted (R489). -/
theorem logWrite_disabled (r : ErrRec) (masked : Bool) {s : State} (h : fld s 0x004 Reg.ERRLOG_CFG_ENABLE = 0) :
    ∃ e : Errs, e.flight = s.errs.flight ∧
      logWrite deviceLog r masked s = (bump 0x004 Reg.ERRLOG_STATUS_DROPPED 1 { s with errs := e }, false) := by
  have hoff : flag s deviceLog.page deviceLog.enable = false := by
    simp only [flag, deviceLog, h]
    rfl
  unfold logWrite
  dsimp only
  rw [hoff, if_pos (.inl rfl)]
  exact ⟨{ s.errs with droppedSince := Tab.put 0 s.errs.droppedSince 0 (Tab.get 0 s.errs.droppedSince 0 + 1) }, rfl, rfl⟩

/-- A record charged to no tenant goes to the device log alone. -/
theorem execErrRecord_dropped {r : ErrRec} {rest : List ErrRec} {s : State} (hf : s.errs.flight = r :: rest) (hctx : r.ctx = 0)
    (h : fld s 0x004 Reg.ERRLOG_CFG_ENABLE = 0) :
    ∃ e : Errs, e.flight = rest ∧ execErrRecord s = .next (bump 0x004 Reg.ERRLOG_STATUS_DROPPED 1 { s with errs := e }) := by
  obtain ⟨e, he, hlog⟩ := logWrite_disabled (if r.masked then r.masking else r) r.masked
    (s := { s with errs := { s.errs with flight := rest } }) h
  refine ⟨e, he, ?_⟩
  simp only [execErrRecord, hf, hlog, hctx, Nat.lt_irrefl, false_and, if_false]
  rfl

/-- A message of an unmasked vector is sent (R384). -/
theorem sendMsix_unmasked {fn v : Nat} {s : State} (hon : tst (cfgDw s fn 0xB0) 31 = true) (hfn : tst (cfgDw s fn 0xB0) 30 = false)
    (hv : (Tab.get {} s.msix (msixKey fn v)).masked = false) : sendMsix fn v s = emit (.msix fn v) s := by
  simp [sendMsix, hon, hfn, hv]

theorem execIrqRaise_unmasked {p : Nat} {rest : List Nat} {s : State} (hi : s.errs.irqs = p :: rest)
    (hon : tst (cfgDw s 0 0xB0) 31 = true) (hfn : tst (cfgDw s 0 0xB0) 30 = false)
    (hv : (Tab.get {} s.msix (msixKey 0 p)).masked = false) :
    execIrqRaise s = .next (emit (.msix 0 p) { s with errs := { s.errs with irqs := rest } }) := by
  simp only [execIrqRaise, hi]
  exact congrArg Host.Outcome.next (sendMsix_unmasked hon hfn hv)

/-! Queue reports (R282) -/

/-- The histories after a report of the queues `l`, each with its occupancy. -/
def reportQueues (page : Nat) (l : List (Nat × Nat)) (t : Tab (List Nat)) : Tab (List Nat) :=
  l.foldl (fun t e => Tab.put [] t (queueKey page e.1) ((min e.2 64 :: Tab.get [] t (queueKey page e.1)).take 4)) t

theorem reportQueues_cons (page : Nat) (e : Nat × Nat) (l : List (Nat × Nat)) (t : Tab (List Nat)) : reportQueues page (e :: l) t =
    reportQueues page l (Tab.put [] t (queueKey page e.1) ((min e.2 64 :: Tab.get [] t (queueKey page e.1)).take 4)) := rfl

theorem reportQueues_other {page i : Nat} {l : List (Nat × Nat)} (t : Tab (List Nat)) (h : ∀ e ∈ l, e.1 ≠ i) :
    Tab.get [] (reportQueues page l t) (queueKey page i) = Tab.get [] t (queueKey page i) := by
  induction l generalizing t with
  | nil => rfl
  | cons e l ih =>
    have hkey : queueKey page i ≠ queueKey page e.1 := by
      have := h e List.mem_cons_self
      simp only [queueKey]
      omega
    exact (ih _ fun x hx => h x (List.mem_cons_of_mem _ hx)).trans (Tab.get_put_ne _ _ _ _ hkey)

/-- A queue reported once holds the new report before its last three. -/
theorem reportQueues_reported {page i o : Nat} {l : List (Nat × Nat)} (t : Tab (List Nat)) (hl : (l.map (·.1)).Nodup) (h : (i, o) ∈ l) :
    Tab.get [] (reportQueues page l t) (queueKey page i) = (min o 64 :: Tab.get [] t (queueKey page i)).take 4 := by
  induction l generalizing t with
  | nil => nomatch h
  | cons e l ih =>
    obtain ⟨hnew, hrest⟩ := List.nodup_cons.mp hl
    rcases List.mem_cons.mp h with rfl | hmem
    · have hother : ∀ e ∈ l, e.1 ≠ i := fun x hx hxi => hnew (List.mem_map.mpr ⟨x, hx, hxi⟩)
      rw [reportQueues_cons, reportQueues_other _ hother, Tab.get_put_same]
    · have hne : i ≠ e.1 := fun he => hnew (List.mem_map.mpr ⟨(i, o), hmem, he⟩)
      have hkey : queueKey page i ≠ queueKey page e.1 := by
        simp only [queueKey]
        omega
      rw [reportQueues_cons, ih _ hrest hmem, Tab.get_put_ne _ _ _ _ hkey]

theorem map_fst_zip_sublist {α β : Type} : ∀ (l : List α) (m : List β), ((l.zip m).map (·.1)).Sublist l
  | [], _ => by simp
  | _ :: _, [] => by simp
  | a :: l, _ :: m => (map_fst_zip_sublist l m).cons_cons a

theorem nodup_zip_range (occ : List Nat) : (((List.range 32).zip occ).map (·.1)).Nodup :=
  List.nodup_range.sublist (map_fst_zip_sublist _ _)

theorem mem_zip_range {occ : List Nat} {i : Nat} (hi : i < 32) (ho : i < occ.length) : (i, occ.getD i 0) ∈ (List.range 32).zip occ := by
  refine List.mem_iff_getElem.mpr ⟨i, by simp [hi, ho], ?_⟩
  simp [ho]

/-- The rates of a pool's classes, held to their bounds after a report. -/
def clampPoolRates (p : Nat) (s : State) : State :=
  (List.range 512).foldl (fun s i =>
    let k := i / 8
    let c := i % 8
    if poolOfClass s c = p ∧ 0 < rateOf s k c then setRate k c (clampRate s k c (rateOf s k c)) s else s) s

theorem clampPoolRates_keeps {β : Type} (φ : State → β) (hset : ∀ k c r s, φ (setRate k c r s) = φ s) (p : Nat) (s : State) :
    φ (clampPoolRates p s) = φ s := by
  refine foldl_keeps φ (fun u i => ?_) _ s
  dsimp only
  split
  · exact hset ..
  · rfl

/-- The host port's report goes into its queues' histories, shows the pool's Q and holds the pool's rates. -/
theorem execQueueReport_hostPort (occ : List Nat) (s : State) : ∃ q, execQueueReport 0x00E occ s =
    .next (clampPoolRates 2 (setFld 0x006 (Reg.POOL_STATUS_Q.at 8 2) q
      { s with regul := { s.regul with qHist := reportQueues 0x00E ((List.range 32).zip occ) s.regul.qHist } })) := ⟨_, rfl⟩

/-! The statement -/

theorem exec_irqStatusClear {p : Nat} (mask : Nat) (s : State) (hp : assigned p = true) :
    exec (.irqStatusClear p mask) s = .next (irqClear p mask (dropShadow 0 p s)) := congrArg Host.Outcome.next (if_pos hp)

theorem exec_irqForce {p : Nat} (mask : Nat) (s : State) (hp : assigned p = true) :
    exec (.irqForce p mask) s = .next (raiseIrq p (mask % 2 ^ 64) (dropShadow 0 p s)) := congrArg Host.Outcome.next (if_pos hp)

theorem exec_errSummaryClear {p : Nat} (mask : Nat) (s : State) (hp : assigned p = true) :
    exec (.errSummaryClear p mask) s = .next (errSummaryClear p mask (dropShadow 0 p s)) := congrArg Host.Outcome.next (if_pos hp)

theorem exec_pageReset {p : Nat} (s : State) (hp : assigned p = true) :
    exec (.pageReset p) s = .next (pageReset p (dropShadow 0 p s)) := congrArg Host.Outcome.next (if_pos hp)

theorem exec_opAbort_queued {n : Nat} {o : PageOp} {s : State} (hn : n < 64) (ho : pageOp s (pageTile n) = some o)
    (hq : o.queued = true) : exec (.opAbort (pageTile n)) s = .next (opEnd (pageTile n) 5 (dropShadow 0 (pageTile n) s)) :=
  congrArg Host.Outcome.next ((if_pos (assigned_pageTile hn)).trans (opAbort_queued_tile (s := dropShadow 0 (pageTile n) s) hn ho hq))

theorem exec_queuedOpStart_selfTest {n arg : Nat} {s : State} (hn : n < 64) (ho : pageOp s (pageTile n) = some ⟨2, arg, true⟩)
    (hfree : bindState s (pageTile n) = 0) : exec (.queuedOpStart (pageTile n)) s = .next (startSelfTest n false s) :=
  congrArg Host.Outcome.next ((if_pos (assigned_pageTile hn)).trans (queuedStart_selfTest hn ho hfree))

/-- Settles O10, clause by clause: a shadow discarded changes nothing that the clauses read, so each is what its operation
leaves of the page. -/
theorem interruptsErrorsAndMessages : Obligations.InterruptsErrorsAndMessages := by
  unfold Obligations.InterruptsErrorsAndMessages
  refine ⟨?clear, ?force, ?summary, ?reset, ?abort, ?start, ?record, ?raise, ?message, ?bulk, ?report⟩
  case clear =>
    intro p mask s hp
    have hfields : sameFields (irqPlaces p) s (irqClear p mask (dropShadow 0 p s)) :=
      (sameFields_setIrqWord p _ (dropShadow 0 p s)).congr_regs rfl (irqClear_regs ..)
    exact ⟨_, exec_irqStatusClear mask s hp, irqClear_bytes p mask (dropShadow 0 p s), irqWord_irqClear p mask _, hfields,
      fun h => irqClear_irqs h⟩
  case force =>
    intro p mask s hp
    refine ⟨_, exec_irqForce mask s hp, sameBytes_of_parts (raiseIrq_mem ..) (raiseIrq_cache ..) (raiseIrq_coh ..), ?_,
      sameFields_raiseIrq p _ (dropShadow 0 p s), fun hs ht => raiseIrq_irqs (s := dropShadow 0 p s) hs ht⟩
    rw [irqWord_raiseIrq, Nat.or_mod_two_pow, Nat.mod_mod, ← Nat.or_mod_two_pow]
    rfl
  case summary =>
    intro p mask s hp
    refine ⟨_, exec_errSummaryClear mask s hp, errSummaryClear_bytes p mask (dropShadow 0 p s), fun h => ?_,
      fun h => overflow_errSummaryClear _ h, fun h => ?_, ?_, sameFields_errSummaryClear p mask (dropShadow 0 p s)⟩
    · rw [firstValid_errSummaryClear, fld_clearWhere_set _ h]
    · rw [firstValid_errSummaryClear, fld_clearWhere_kept _ h]
      rfl
    · exact count_errSummaryClear p mask (dropShadow 0 p s)
  case reset =>
    intro p s hp
    obtain ⟨hops, hmem, hcache, hcoh⟩ := pageReset_parts (dropShadow 0 p s) hp
    have hkept {f : Field} (hoff : f.off < 0x100) (hlo : f.lo < 64)
        (hf : ∀ g ∈ resetHeader ++ endedOpFields, f.off * 64 + f.lo ≠ g.off * 64 + g.lo) :
        fld (pageReset p (dropShadow 0 p s)) p f = fld s p f := fld_pageReset_kept (dropShadow 0 p s) hp hoff hlo hf
    have hcleared {f : Field} (hf : f ∈ resetHeader) : fld (pageReset p (dropShadow 0 p s)) p f = 0 :=
      (fld_pageReset_cleared _ hp hf).trans (resetOf_resetHeader hp hf)
    exact ⟨_, exec_pageReset s hp, sameBytes_of_parts hmem hcache hcoh, irqWord_pageReset _ hp, hcleared (by decide),
      hcleared (by decide), hkept (by decide) (by decide) (by decide), hkept (by decide) (by decide) (by decide),
      hkept (by decide) (by decide) (by decide), hkept (by decide) (by decide) (by decide), hops⟩
  case abort =>
    intro n arg s hn ho
    exact ⟨_, exec_opAbort_queued hn ho rfl, opEnd_pageOp .., opEnd_result _ _ _ (by decide), opEnd_opDone ..,
      opEnd_bytes _ _ (dropShadow 0 _ s), sameFields_opEnd _ _ (dropShadow 0 _ s)⟩
  case start =>
    intro n arg s hn ho hfree
    exact ⟨_, exec_queuedOpStart_selfTest hn ho hfree, (startSelfTest_reads n s).1, startSelfTest_result n s,
      sameBytes_of_parts (startSelfTest_mem n s) (startSelfTest_cache n s) (startSelfTest_coh n s)⟩
  case record =>
    intro r rest s hf hctx h
    obtain ⟨e, he, hexec⟩ := execErrRecord_dropped hf hctx h
    exact ⟨_, hexec, he, sameBytes_of_parts rfl rfl rfl, fld_bump_same .., sameFields_setFld 0x004 _ _ { s with errs := e }⟩
  case raise =>
    intro p rest s hi hon hfn hv
    exact ⟨_, execIrqRaise_unmasked hi hon hfn hv, rfl, rfl, rfl, sameBytes_of_parts rfl rfl rfl⟩
  case message =>
    intro h s
    exact ⟨_, rfl, rfl, sameBytes_of_parts rfl rfl rfl, freeBytes s 32, by simp [freeBytes], rfl⟩
  case bulk =>
    intro h us s hrsp
    have hok : respondOk h s = emit (.response (reply h 0 0) 0 []) (unaccept h s) := by
      simp [respondOk, respond, hrsp]
    refine ⟨_, congrArg Host.Outcome.next hok, rfl, rfl, sameBytes_of_parts rfl rfl rfl⟩
  case report =>
    intro occ s
    obtain ⟨q, hexec⟩ := execQueueReport_hostPort occ s
    refine ⟨_, hexec, sameBytes_of_parts (clampPoolRates_keeps State.mem (fun _ _ _ _ => rfl) _ _)
      (clampPoolRates_keeps State.cache (fun _ _ _ _ => rfl) _ _) (clampPoolRates_keeps State.coh (fun _ _ _ _ => rfl) _ _),
      clampPoolRates_keeps State.out (fun _ _ _ _ => rfl) _ _, fun i hi ho => ?_⟩
    rw [clampPoolRates_keeps (fun t => t.regul.qHist) (fun _ _ _ _ => rfl), setFld_regul,
      reportQueues_reported _ (nodup_zip_range occ) (mem_zip_range hi ho)]

end Sys2Proof.Machine
end

section
/-! A context's page (R71): what the draught window's commands, the rings' registers and the fence counters (R130 to R143) leave,
and the settled statement about them. -/

namespace Sys2Proof.Machine

/-! Which function writes (R71) -/

theorem tenantWrite_open {fn k : Nat} (off : Nat) (f : State → State) {s : State} (h : pageOpen s fn k = true) :
    tenantWrite fn k off f s = f s := by
  simp only [pageOpen, Bool.and_eq_true, decide_eq_true_eq, Bool.or_eq_true, beq_iff_eq, Bool.not_eq_true'] at h
  obtain ⟨hk, rfl | ⟨rfl, hsealed⟩⟩ := h
  · rw [tenantWrite, if_neg (by omega), if_neg (by omega)]
  · rw [tenantWrite, if_neg (by omega), if_neg (by simp [hsealed])]

theorem tenantWrite_sealed {k : Nat} (off : Nat) (f : State → State) {s : State} (hk : 0 < k) (hlt : k < 64) (h : isSealed s k = true) :
    tenantWrite 0 k off f s = sealedDenied k off s := by
  rw [tenantWrite, if_neg (by omega), if_pos ⟨rfl, by omega, h⟩]

theorem sameFields_sealedDenied (k off : Nat) (s : State) :
    sameFields [(pageCtx k, Reg.SEALED_DENIED_COUNT), (pageCtx k, Reg.SEALED_DENIED_LAST)] s (sealedDenied k off s) :=
  (sameFields_setFld (pageCtx k) Reg.SEALED_DENIED_COUNT _ s).append (sameFields_setFld (pageCtx k) Reg.SEALED_DENIED_LAST off _)

/-! The draught window (R130 to R132) -/

theorem tag_setTag_same (k t : Nat) (d : DraughtTag) (s : State) : tag (setTag k t d s) k t = d := Tab.get_put_same ..

theorem tag_congr {s t : State} (h : t.tags = s.tags) (k i : Nat) : tag t k i = tag s k i := by rw [tag, h]; rfl

theorem clampI_le {lo hi : Int} (h : lo ≤ hi) (x : Int) : clampI lo hi x ≤ hi := by
  unfold clampI
  split
  · exact h
  · split <;> omega

theorem le_clampI {lo hi : Int} (h : lo ≤ hi) (x : Int) : lo ≤ clampI lo hi x := by
  unfold clampI
  split
  · exact le_rfl
  · split <;> omega

/-- The owner's bounds hold whatever it wrote: the upper is at least the lower, and that at least -126 (R131). -/
theorem limitBias_bounds (s : State) (k : Nat) (b : Int) : -126 ≤ limitBias s k b ∧ limitBias s k b ≤ biasMax s k := by
  have hmin : -126 ≤ biasMin s k := le_max_left _ _
  have hmax : biasMin s k ≤ biasMax s k := le_max_left _ _
  exact ⟨hmin.trans (le_clampI hmax b), clampI_le hmax b⟩

theorem tag_draughtOverride (k v : Nat) (s : State) : tag (draughtOverride k v s) k (selectedTag s k) =
    { tag s k (selectedTag s k) with nextBias := limitBias s k (sext 8 (v % 256)), overridden := true, frozen := true } := by
  have hset := tag_setTag_same k (selectedTag s k)
    { tag s k (selectedTag s k) with nextBias := limitBias s k (sext 8 (v % 256)), overridden := true, frozen := true } s
  unfold draughtOverride
  dsimp only
  split
  · exact hset
  · exact (tag_congr (count_tags ..) _ _).trans hset

theorem sameFields_draughtOverride (k v : Nat) (s : State) :
    sameFields [(pageCtx k, Reg.DRAUGHT_STATS_CLAMPED)] s (draughtOverride k v s) := by
  unfold draughtOverride
  dsimp only
  split
  · exact fun _ _ _ => rfl
  · exact sameFields.congr_regs (s := modSelected k _ s) (sameFields_count _ _ _ _) rfl rfl

/-- Every running writer of the tag that was reset is told (R130). -/
theorem draughtResetTag_told {k : Nat} {s : State} {p : Pass} (hp : p ∈ (draughtResetTag k s).passes) (hk : p.ctx = k)
    (hrun : p.phase = .running) (htag : tst (p.words.headD 0) 19 = true) (hsel : bits (p.words.headD 0) 31 20 = selectedTag s k) :
    p.tagReset = true := by
  obtain ⟨q, -, hq⟩ := List.mem_map.mp hp
  split at hq
  · rw [← hq]
  · next hnot =>
    subst hq
    exact absurd ⟨hk, hrun, htag, hsel⟩ hnot

/-! Fields of one ring, or of one counter -/

theorem fld_setFld_at {p n i : Nat} {f g : Field} (v : Nat) (s : State) (h : g.off * 64 + g.lo ≠ f.off * 64 + f.lo) :
    fld (setFld p (f.at n i) v s) p (g.at n i) = fld s p (g.at n i) :=
  fld_setFld_field v s (by simp only [Field.at]; omega)

theorem fld_setFld_at_same {p n i v : Nat} {f : Field} (s : State) (h : v < 2 ^ f.width) : fld (setFld p (f.at n i) v s) p (f.at n i) = v :=
  fld_setFld_fits p s h

/-- An enabled ring is empty and of the size written (R135). -/
theorem ringEnable_reads {k r l : Nat} (s : State) (hl : l < 32) {t : State}
    (ht : t = setFlds (pageWin k 0) [(Reg.RING_CFG_LOG2_SIZE.at 32 r, l), (Reg.RING_CFG_ENABLE.at 32 r, 1),
      (Reg.RING_STATUS_HEAD.at 32 r, 0), (Reg.RING_STATUS_TAIL.at 32 r, 0)] s) :
    ringOn t k r = true ∧ ringLog2 t k r = l ∧ ringHead t k r = 0 ∧ ringTail t k r = 0 := by
  subst ht
  simp only [setFlds_cons, setFlds_nil]
  refine ⟨?_, ?_, ?_, ?_⟩
  · rw [ringOn, flag, fld_setFld_at _ _ (by decide), fld_setFld_at _ _ (by decide), fld_setFld_at_same _ (by decide)]
    rfl
  · rw [ringLog2, fld_setFld_at _ _ (by decide), fld_setFld_at _ _ (by decide), fld_setFld_at _ _ (by decide),
      fld_setFld_at_same _ hl]
  · rw [ringHead, fld_setFld_at _ _ (by decide), fld_setFld_at_same _ (by decide)]
  · rw [ringTail, fld_setFld_at_same _ (by decide)]

theorem ringEnable_off {k r l : Nat} {s : State} (hlo : 6 ≤ l) (hhi : l ≤ 16) (hoff : ringOn s k r = false)
    (hcq : flag s (pageWin k 0) Reg.CQ_CFG_ENABLE = true) (hout : ringOutstanding s k r = 0) : ringEnable k r l s =
      setFlds (pageWin k 0) [(Reg.RING_CFG_LOG2_SIZE.at 32 r, l), (Reg.RING_CFG_ENABLE.at 32 r, 1),
        (Reg.RING_STATUS_HEAD.at 32 r, 0), (Reg.RING_STATUS_TAIL.at 32 r, 0)] s := by
  have hlegal : ¬ (l < 6 ∨ 16 < l ∨ (!flag s (pageWin k 0) Reg.CQ_CFG_ENABLE) = true ∨ ringOutstanding s k r ≠ 0) := by
    simp [hcq, hout]
    omega
  simp only [ringEnable, hoff, if_neg hlegal]
  rfl

theorem cqDoorbell_accepted {k h : Nat} {s : State} (hon : flag s (pageWin k 0) Reg.CQ_CFG_ENABLE = true)
    (hok : headOk (fld s (pageWin k 0) Reg.CQ_CFG_LOG2_SIZE) (fld s (pageWin k 0) Reg.CQ_STATUS_TAIL)
      (fld s (pageWin k 0) Reg.CQ_STATUS_HEAD) h = true) :
    cqDoorbell k h s = refreshFull k (setFld (pageWin k 0) Reg.CQ_STATUS_HEAD h s) := by
  simp only [cqDoorbell, hon, hok, Bool.and_self, if_true]

theorem cqEnable_off {k l : Nat} (irqEn : Bool) {s : State} (hlo : 6 ≤ l) (hhi : l ≤ 16)
    (hoff : flag s (pageWin k 0) Reg.CQ_CFG_ENABLE = false) : cqEnable k l irqEn s =
      setFlds (pageWin k 0) [(Reg.CQ_CFG_LOG2_SIZE, l), (Reg.CQ_CFG_ENABLE, 1), (Reg.CQ_STATUS_TAIL, 0), (Reg.CQ_STATUS_HEAD, 0),
        (Reg.CQ_STATUS_PHASE, 1), (Reg.CQ_STATUS_FULL, 0)] (setFld (pageWin k 0) Reg.CQ_CFG_IRQ_EN (b2n irqEn) s) := by
  have hstill : flag (setFld (pageWin k 0) Reg.CQ_CFG_IRQ_EN (b2n irqEn) s) (pageWin k 0) Reg.CQ_CFG_ENABLE = false := by
    rw [flag, fld_setFld_field _ _ (by decide)]
    exact hoff
  have hlegal : ¬ (l < 6 ∨ 16 < l) := by omega
  simp only [cqEnable, hstill, if_neg hlegal]
  rfl

theorem cqDisable_idle {k : Nat} {s : State} (hoff : ∀ r, r < 16 → ringOn s k r = false)
    (hres : fld s (pageWin k 0) Reg.CQ_STATUS_RESERVED = 0) :
    cqDisable k s = setFlds (pageWin k 0) [(Reg.CQ_CFG_ENABLE, 0), (Reg.CQ_STATUS_FULL, 0)] s := by
  have hany : (List.range 16).any (ringOn s k) = false :=
    List.any_eq_false.mpr fun r hr => by simp [hoff r (List.mem_range.mp hr)]
  simp only [cqDisable, hany, hres]
  rfl

theorem ringAbort_empty {k r : Nat} {s : State} (h : s.passes = []) :
    ringAbort k r s = setFld (pageWin k 0) (Reg.RING_STATUS_HEAD.at 32 r) (ringTail s k r) s := by
  simp [ringAbort, h]

theorem ringConfig_base_off {k r : Nat} (v : Nat) {s : State} (hr : r < 16) (hoff : ringOn s k r = false) :
    ringConfig k r true v s = setFld (pageWin k 0) (Reg.RING_BASE_ADDR.at 32 r) v s := by
  simp only [ringConfig, if_pos hr, hoff]
  rfl

theorem ringConfig_size_on {k r v : Nat} {s : State} (hr : r < 16) (hon : ringOn s k r = true) (hv : v < 32)
    (hne : ringLog2 s k r ≠ v) :
    ringConfig k r false v s = setFld (pageWin k 0) (Reg.RING_STATUS_CONFIG_REFUSED.at 32 r) 1 s := by
  have hwidth : (Reg.RING_CFG_LOG2_SIZE.at 32 r).width = 5 := rfl
  have hmod : v % 2 ^ (Reg.RING_CFG_LOG2_SIZE.at 32 r).width = v := by
    rw [hwidth]
    exact Nat.mod_eq_of_lt hv
  rw [ringLog2] at hne
  simp only [ringConfig, if_pos hr, hon, Bool.not_true, Bool.false_eq_true, if_false]
  exact if_neg (by rwa [hmod])

/-! Fence counters (R141) -/

theorem fence_setFence (k i v : Nat) (err : Bool) (s : State) :
    fence (setFence k i v err s) k i = v % 2 ^ 48 ∧ fenceError (setFence k i v err s) k i = err := by
  simp only [setFence, setFlds_cons, setFlds_nil, fence, fenceError, flag]
  refine ⟨?_, ?_⟩
  · rw [fld_setFld_at _ _ (by decide), fld_setFld_same]
    rfl
  · rw [fld_setFld_at_same _ (by cases err <;> decide)]
    cases err <;> rfl

theorem fence_addFence (k i v : Nat) (s : State) : fence (addFence k i v s) k i = (fence s k i + v) % 2 ^ 48 := by
  rw [addFence, fence, fld_setFld_same]
  rfl

/-! The statement -/

theorem exec_tenant {i : Instr} {fn k off : Nat} {f : State → State} {s : State} (hi : exec i s = .next (tenantWrite fn k off f s))
    (h : pageOpen s fn k = true) : exec i s = .next (f s) := by
  rw [hi, tenantWrite_open off f h]

/-- Settles O13, clause by clause: a write of an open page is its effect, and each effect sets the fields of its own ring, tag or
counter. -/
theorem draughtTagsRingsAndFences : Obligations.DraughtTagsRingsAndFences := by
  unfold Obligations.DraughtTagsRingsAndFences
  refine ⟨?freeze, ?unfreeze, ?override, ?reset, ?sealed, ?bell, ?badBell, ?cqBell, ?enable, ?disable, ?abort, ?base, ?size,
    ?cqOn, ?cqOff, ?fenceSet, ?fenceAdd⟩
  case freeze => exact fun fn k s h => exec_tenant (off := draughtCmd) (f := draughtFreeze k) rfl h
  case unfreeze => exact fun fn k s h => exec_tenant (off := draughtCmd) (f := draughtUnfreeze k) rfl h
  case override =>
    intro fn k v s h
    have htag := tag_draughtOverride k v s
    have hbounds := limitBias_bounds s k (sext 8 (v % 256))
    refine ⟨_, exec_tenant (off := draughtCmd) (f := draughtOverride k v) rfl h, htag, ?_, ?_, sameFields_draughtOverride k v s⟩
    · rw [htag]
      exact hbounds.1
    · rw [htag]
      exact hbounds.2
  case reset =>
    intro fn k s h
    exact ⟨_, exec_tenant (off := draughtCmd) (f := draughtResetTag k) rfl h, tag_setTag_same k _ {} s, rfl,
      fun p hp hk hrun htag hsel => draughtResetTag_told hp hk hrun htag hsel⟩
  case sealed =>
    intro k v s hk hlt hs
    exact ⟨_, congrArg Host.Outcome.next (tenantWrite_sealed draughtCmd (draughtOverride k v) hk hlt hs), rfl,
      fld_setFld_same .., sameFields_sealedDenied k draughtCmd s⟩
  case bell =>
    intro fn k r v s h hr hv hon hsize
    have hexec : exec (.ringDoorbell fn k r v) s = .next (tenantWrite fn k (8 * r) (ringDoorbell k r v) s) := by
      simp only [exec, execRingDoorbell, if_neg (Nat.not_le.mpr hr), Nat.mod_eq_of_lt hv]
    rw [exec_tenant hexec h, ringDoorbell, if_pos ⟨hon, hsize⟩]
  case badBell =>
    intro fn k r v s h hr hv hbad
    have hexec : exec (.ringDoorbell fn k r v) s = .next (tenantWrite fn k (8 * r) (ringDoorbell k r v) s) := by
      simp only [exec, execRingDoorbell, if_neg (Nat.not_le.mpr hr), Nat.mod_eq_of_lt hv]
    rw [exec_tenant hexec h, ringDoorbell, if_neg]
    rintro ⟨hon, hsize⟩
    rcases hbad with hoff | hlarge
    · rw [hon] at hoff
      exact absurd hoff (by decide)
    · omega
  case cqBell =>
    intro fn k v s h hv hon hok
    have hexec : exec (.cqDoorbell fn k v) s = .next (tenantWrite fn k 0x80 (cqDoorbell k v) s) := by
      simp only [exec, execCqDoorbell, Nat.mod_eq_of_lt hv]
    refine ⟨_, exec_tenant hexec h, ?_, ?_⟩
    · rw [cqDoorbell_accepted hon hok, refreshFull, fld_setFld_field _ _ (by decide)]
      exact fld_setFld_fits _ _ hv
    · rw [cqDoorbell_accepted hon hok]
      exact (sameFields_setFld (pageWin k 0) Reg.CQ_STATUS_HEAD v s).append (sameFields_setFld (pageWin k 0) Reg.CQ_STATUS_FULL _ _)
  case enable =>
    intro fn k r l s h hr hlo hhi hoff hcq hout
    have hexec : exec (.ringEnable fn k r l) s = .next (tenantWrite fn k (0x108 + 32 * r) (ringEnable k r l) s) := by
      simp only [exec, execRingEnable, if_neg (Nat.not_le.mpr hr), Nat.mod_eq_of_lt (show l < 32 by omega)]
    have heq := ringEnable_off hlo hhi hoff hcq hout
    obtain ⟨hon, hlog, hhead, htail⟩ := ringEnable_reads s (show l < 32 by omega) heq
    refine ⟨_, exec_tenant hexec h, hon, hlog, hhead, htail, ?_⟩
    rw [heq]
    exact sameFields.mono (sameFields_setFlds (pageWin k 0) _ s) (List.Subset.refl _)
  case disable =>
    intro fn k r s h hr
    have hexec : exec (.ringDisable fn k r) s = .next (tenantWrite fn k (0x108 + 32 * r) (ringDisable k r) s) := by
      simp only [exec, execRingDisable, if_neg (Nat.not_le.mpr hr)]
    exact exec_tenant hexec h
  case abort =>
    intro fn k r s h hr hp
    have hexec : exec (.ringAbort fn k r) s = .next (tenantWrite fn k (0x108 + 32 * r) (ringAbort k r) s) := by
      simp only [exec, execRingAbort, if_neg (Nat.not_le.mpr hr)]
    rw [exec_tenant hexec h, ringAbort_empty hp]
  case base =>
    intro fn k r v s h hr hoff
    have hexec : exec (.ringConfigWrite fn k r true v) s = .next (tenantWrite fn k (0x100 + 32 * r) (ringConfig k r true v) s) := by
      simp only [exec, execRingConfigWrite, if_neg (show ¬ 17 ≤ r by omega), if_pos hr, if_true, Nat.add_zero]
    rw [exec_tenant hexec h, ringConfig_base_off v hr hoff]
  case size =>
    intro fn k r v s h hr hon hne hv
    have hexec : exec (.ringConfigWrite fn k r false v) s = .next (tenantWrite fn k (0x100 + 32 * r + 8) (ringConfig k r false v) s) := by
      simp only [exec, execRingConfigWrite, if_neg (show ¬ 17 ≤ r by omega), if_pos hr, Bool.false_eq_true, if_false]
    rw [exec_tenant hexec h, ringConfig_size_on hr hon hv hne]
  case cqOn =>
    intro fn k l irqEn s h hlo hhi hoff
    have hexec : exec (.cqEnable fn k l irqEn) s = .next (tenantWrite fn k 0x308 (cqEnable k l irqEn) s) := by
      simp only [exec, execCqEnable, Nat.mod_eq_of_lt (show l < 32 by omega)]
    have hsize : l < 2 ^ Reg.CQ_CFG_LOG2_SIZE.width := show l < 32 by omega
    have hirq : b2n irqEn < 2 ^ Reg.CQ_CFG_IRQ_EN.width := by cases irqEn <;> decide
    refine ⟨_, exec_tenant hexec h, ?_⟩
    rw [cqEnable_off irqEn hlo hhi hoff]
    simp only [setFlds_cons, setFlds_nil]
    simp (disch := decide) only [fld_setFld_field, fld_setFld_fits, fld_setFld_fits _ _ hsize, fld_setFld_fits _ _ hirq, and_self]
  case cqOff =>
    intro fn k s h hoff hres
    refine ⟨_, exec_tenant (off := 0x308) (f := cqDisable k) rfl h, ?_, ?_⟩
    · rw [cqDisable_idle hoff hres]
      simp (disch := decide) only [setFlds_cons, setFlds_nil, fld_setFld_field, fld_setFld_fits]
    · rw [cqDisable_idle hoff hres]
      exact sameFields.mono (sameFields_setFlds (pageWin k 0) _ s) (List.Subset.refl _)
  case fenceSet =>
    intro fn k i v err s h hi
    have hexec : exec (.fenceValue fn k i v err) s = .next (tenantWrite fn k (0x1000 + 8 * i) (setFence k i v err) s) := by
      simp only [exec, execFenceValue, if_neg (Nat.not_le.mpr hi)]
    obtain ⟨hval, herr⟩ := fence_setFence k i v err s
    have hfields := sameFields_setFlds (pageWin k 0)
      [(Reg.FENCE_VALUE_VALUE.at 8 (i % 64), v), (Reg.FENCE_VALUE_ERROR.at 8 (i % 64), b2n err)] s
    rw [Nat.mod_eq_of_lt hi] at hfields
    refine ⟨_, exec_tenant hexec h, hval, herr, ?_⟩
    rw [setFence, Nat.mod_eq_of_lt hi]
    exact hfields
  case fenceAdd =>
    intro fn k i v s h hi
    have hexec : exec (.fenceAdd fn k i v) s = .next (tenantWrite fn k (0x1200 + 8 * i) (addFence k i v) s) := by
      simp only [exec, execFenceAdd, if_neg (Nat.not_le.mpr hi)]
    refine ⟨_, exec_tenant hexec h, fence_addFence k i v s, ?_⟩
    rw [addFence, Nat.mod_eq_of_lt hi]
    exact sameFields_setFld (pageWin k 0) _ _ s

end Sys2Proof.Machine
end

section
/-! The state of HBM (evacuation, requests for it, channels, queues) past the faults, the answers and the pools (R203 to R228, R284 to
R286), and what a fence of a channel and the end of an evacuation leave of it. -/

namespace Sys2Proof.Machine

@[simp] theorem foldl_hbm {α : Type} {g : State → α → State} (hg : ∀ s a, (g s a).hbm = s.hbm) (l : List α) (s : State) :
    (l.foldl g s).hbm = s.hbm := foldl_keeps State.hbm hg l s

@[simp] theorem ite_hbm (c : Prop) [Decidable c] (s t : State) : (if c then s else t).hbm = if c then s.hbm else t.hbm := apply_ite _ _ _ _

@[simp] theorem discardFaults_hbm (k : Nat) (s : State) : (discardFaults k s).hbm = s.hbm := (rfl)
@[simp] theorem discardMigrations_hbm (k : Nat) (s : State) : (discardMigrations k s).hbm = s.hbm :=
  foldl_hbm (by simp) _ _
@[simp] theorem clearArray_hbm (n st : Nat) (s : State) : (clearArray n st s).hbm = s.hbm := by simp [clearArray]
@[simp] theorem stopJournal_hbm (k : Nat) (s : State) : (stopJournal k s).hbm = s.hbm := by simp [stopJournal]
@[simp] theorem winPut_hbm (k : Nat) (m : WinMsg) (s : State) : (winPut k m s).hbm = s.hbm := by simp [winPut]
@[simp] theorem winSend_hbm (k type : Nat) (body : List Byte) (s : State) : (winSend k type body s).hbm = s.hbm := by
  simp [winSend]
@[simp] theorem failPasses_hbm (n : Nat) (ids : List Nat) (s : State) : (failPasses n ids s).hbm = s.hbm := (rfl)
@[simp] theorem context0Fault_hbm (ids : List Nat) (s : State) : (context0Fault ids s).hbm = s.hbm := (rfl)
@[simp] theorem faultCtx_hbm (k : Nat) (ids : List Nat) (seq sev cls : Nat) (s : State) :
    (faultCtx k ids seq sev cls s).hbm = s.hbm := by simp [faultCtx]
@[simp] theorem raiseAndFault_hbm (r : ErrRec) (ids : List Nat) (s : State) : (raiseAndFault r ids s).hbm = s.hbm := by
  simp [raiseAndFault]
@[simp] theorem markBad_hbm (pa : Nat) (s : State) : (markBad pa s).hbm = s.hbm := (rfl)
@[simp] theorem uncorrectable_hbm (c pa : Nat) (p : Option Pass) (s : State) :
    (uncorrectable c pa p s).hbm = s.hbm := by
  simp only [uncorrectable]
  (repeat' split) <;> simp
@[simp] theorem unreachableData_hbm (c pa : Nat) (p : Option Pass) (s : State) :
    (unreachableData c pa p s).hbm = s.hbm := by simp [unreachableData]
@[simp] theorem ownerViolation_hbm (c pa : Nat) (p : Option Pass) (s : State) :
    (ownerViolation c pa p s).hbm = s.hbm := by simp [ownerViolation]
@[simp] theorem mcRead_hbm (c base mask w : Nat) (s : State) : (mcRead c base mask w s).1.hbm = s.hbm := by
  simp only [mcRead]
  (repeat' split) <;> simp
@[simp] theorem mcWriteSector_hbm (c pa : Nat) (data : List Byte) (en : List Bool) (s : State) :
    (mcWriteSector c pa data en s).1.hbm = s.hbm := by
  simp only [mcWriteSector]
  (repeat' split) <;> simp
@[simp] theorem mcWriteMask_hbm (c base : Nat) (data : List Byte) (mask w : Nat) (s : State) :
    (mcWriteMask c base data mask w s).hbm = s.hbm := by simp [mcWriteMask]
@[simp] theorem mcWrite_hbm (c base : Nat) (data : List Byte) (mask w : Nat) (s : State) :
    (mcWrite c base data mask w s).1.hbm = s.hbm := by
  simp only [mcWrite]
  (repeat' split) <;> simp

theorem hbm_of_pair {β : Type} {x : State × β} {t : State} {b : β} {m : Hbm} (h : x = (t, b)) (hx : x.1.hbm = m) : t.hbm = m := by
  simpa only [h] using hx

@[simp] theorem mcServe_hbm (h : Header) (units : List Unit256) (s : State) : (mcServe h units s).hbm = s.hbm := by
  fun_cases mcServe h units s
  case case1 hr | case3 hr | case4 hr _ => simp [hbm_of_pair hr (mcRead_hbm ..)]
  case case2 hw => simp [hbm_of_pair hw (mcWrite_hbm ..)]
  case case9 hw => simp [hbm_of_pair hw (mcWriteSector_hbm ..)]
  all_goals simp
@[simp] theorem loseMemory_hbm (page : Nat) (ks : List Nat) (s : State) : (loseMemory page ks s).hbm = s.hbm := by
  simp [loseMemory]
@[simp] theorem notice_hbm (p : Nat) (on : Bool) (s : State) : (notice p on s).hbm = s.hbm := by simp [notice]
@[simp] theorem refreshPool_hbm (p : Nat) (s : State) : (refreshPool p s).hbm = s.hbm := by simp [refreshPool]
@[simp] theorem refreshPools_hbm (s : State) : (refreshPools s).hbm = s.hbm := by simp [refreshPools]
@[simp] theorem showEvac_hbm (s : State) : (showEvac s).hbm = s.hbm := foldl_hbm (by simp) _ _
@[simp] theorem showWaiting_hbm (p : Nat) (s : State) : (showWaiting p s).hbm = s.hbm := by
  unfold showWaiting
  split <;> simp
@[simp] theorem endEvacOp_hbm (p result : Nat) (s : State) : (endEvacOp p result s).hbm = s.hbm := by
  unfold endEvacOp
  split <;> simp
@[simp] theorem dropChannelSlots_hbm (ch : Nat) (s : State) : (dropChannelSlots ch s).hbm = s.hbm := (rfl)
@[simp] theorem setLive_hbm (c : Nat) (b : Bool) (s : State) : (setLive c b s).hbm = s.hbm := (rfl)

/-- The requests that waited at a channel are answered; nothing else of HBM changes. -/
theorem failQueue_hbm (ch : Nat) (s : State) : (failQueue ch s).hbm = { s.hbm with queues := Tab.put [] s.hbm.queues ch [] } := by
  rw [failQueue, foldl_hbm (fun s e => mcServe_hbm ..)]
  rfl

/-- A fence of a channel marks it and answers what waited there (R227). -/
theorem fenceChannel_hbm (ch : Nat) (s : State) : (fenceChannel ch s).hbm = { s.hbm with
    channels := Tab.put {} s.hbm.channels ch { channel s ch with fenced := true }, queues := Tab.put [] s.hbm.queues ch [] } := by
  simp only [fenceChannel, refreshPools_hbm, failQueue_hbm, loseMemory_hbm, raiseErr_hbm]
  rfl

theorem channel_congr {s t : State} (h : t.hbm = s.hbm) (c : Nat) : channel t c = channel s c := by rw [channel, h]; rfl

theorem fenced_fenceChannel_same (ch : Nat) (s : State) : (channel (fenceChannel ch s) ch).fenced = true := by
  rw [channel, fenceChannel_hbm, Tab.get_put_same]

/-- A fenced channel stays fenced when another is fenced. -/
theorem fenced_fenceChannel {c : Nat} (ch : Nat) {s : State} (h : (channel s c).fenced = true) :
    (channel (fenceChannel ch s) c).fenced = true := by
  by_cases hc : c = ch
  · rw [hc]
    exact fenced_fenceChannel_same ch s
  · rw [channel, fenceChannel_hbm, Tab.get_put_ne _ _ _ _ hc]
    exact h

end Sys2Proof.Machine
end

section
/-! The evacuation of an HBM channel (R224 to R228): what its request, its start, its copies and its end leave. -/

namespace Sys2Proof.Machine

/-! A request (R224) -/

theorem evacPending_idle {s : State} (he : s.hbm.evac = none) (hw : s.hbm.waiting = []) (ch : Nat) : evacPending s ch = false := by
  simp [evacPending, he, hw]

/-- A request that is not refused begins on the free engine, and waits for the busy one. -/
theorem execChannelEvacuation_accepted {n ch : Nat} {s : State} (hn : n < 12) (hch : ch / 32 = n)
    (hev : (channel s ch).evacuated = false) (hp : evacPending s ch = false) (hop : pageOp s (pageHbm n) = none) :
    execChannelEvacuation n ch s = .next (if s.hbm.evac.isNone ∧ s.hbm.waiting.isEmpty then beginEvac ch true s
      else opQueue (pageHbm n) 4 ch (listEvac ch true s)) := by
  have hfate : startFate s (pageHbm n) false false = .starts := by simp [startFate, hop]
  simp [execChannelEvacuation, Nat.not_le.mpr hn, hch, hev, hp, hfate]

theorem opQueue_result (p op arg : Nat) (s : State) : fld (opQueue p op arg s) p Reg.OP_CONTROL_RESULT = 1 := by
  simp (disch := decide) [opQueue, setProgress, fld_setFld_field, fld_setFld_fits, -fld_setFld_same]

theorem sameFields_opQueue (p op arg : Nat) (s : State) : sameFields (opPlaces p) s (opQueue p op arg s) := by
  have hset (l : List (Field × Nat)) (t : State) (hl : l.map (fun x => (p, x.1)) ⊆ opPlaces p) :
      sameFields (opPlaces p) t (setFlds p l t) := (sameFields_setFlds p l t).mono hl
  have hop : sameFields (opPlaces p) s (setPageOp p (some ⟨op, arg, true⟩) s) := fun _ _ _ => rfl
  exact (hop.trans (hset _ _ (by simp [opPlaces]))).trans (hset _ _ (by simp [opPlaces]))

/-! What the remap of a channel depends on (R225) -/

section
variable {s t : State} (hhbm : t.hbm = s.hbm)
  (hregs : ∀ p f, 0x100 ≤ f.off → f.off < 0x10000 → f.lo < 64 → fld t p f = fld s p f)
include hregs

theorem regions_congr : regions t = regions s := by
  have hat {f : Field} (i : Nat) (hlo : 0x100 ≤ f.off) (hhi : f.off < 0x1000) (hl : f.lo < 64) (hi : i < 8) :
      fld t 0 (f.at 8 i) = fld s 0 (f.at 8 i) :=
    hregs 0 _ (by simp only [Field.at]; omega) (by simp only [Field.at]; omega) hl
  simp only [regions, hregs 0 Reg.MEM_SPREAD_STATUS_REGION0_GIB (by decide) (by decide) (by decide)]
  refine congrArg _ (List.filterMap_congr fun i hi => ?_)
  have hlt := List.mem_range.mp hi
  rw [hat (i + 1) (by decide) (by decide) (by decide) (by omega), hat (i + 1) (by decide) (by decide) (by decide) (by omega),
    hat (i + 1) (by decide) (by decide) (by decide) (by omega)]

include hhbm

theorem serves_congr (c : Nat) : serves t c = serves s c := by
  have hstack : stack t (c / 32) = stack s (c / 32) := by rw [stack, hhbm]; rfl
  have hlive : channelLive t c = channelLive s c := by
    simp only [channelLive, hregs _ Reg.CHANNEL_LIVE (by decide) (by decide) (by decide)]
  rw [serves, serves, hlive, channel_congr hhbm, hstack]

theorem remapOf_congr (ch : Nat) : remapOf t ch = remapOf s ch := by
  have htargets (r : Region) : targetsOf t r ch = targetsOf s r ch := by
    simp only [targetsOf, serves_congr hhbm hregs, channel_congr hhbm]
  simp only [remapOf, channelShares, regions_congr hregs, channel_congr hhbm, htargets]

end

end Sys2Proof.Machine
end

section
/-! The runs of an evacuation (R224 to R228): its start, its copied blocks, its end and its switch; and the page headers past what the
pools and the engine's status registers write. -/

namespace Sys2Proof.Machine

section
variable {q : Nat} {g : Field} (hg : g.off < 0x100) (hl : g.lo < 64)
include hg hl

theorem fld_setFld_own {p : Nat} {f : Field} (v : Nat) (s : State) (hf : 0x100 ≤ f.off) (hf' : f.off < 0x10000) (hfl : f.lo < 64) :
    fld (setFld p f v s) q g = fld s q g := fld_setFld_ne v s (fieldKey_ne_head hg hf hf' hfl hl).symm

theorem fld_notice_head (p : Nat) (on : Bool) (s : State) : fld (notice p on s) q g = fld s q g := by
  refine foldl_keeps (fun s => fld s q g) (fun s k => ?_) _ _
  dsimp only
  split
  · rfl
  · rw [fld_congr (ctxMsg_regs ..), bump_eq, fld_setFld_own hg hl _ _ (by decide) (by decide) (by decide),
      fld_setFld_own hg hl _ _ (by decide) (by decide) (by decide)]

/-- The pools are kept in the page 0x006: no other page's header changes with them (R284). -/
theorem fld_refreshPool_head {p : Nat} (hp : p < 3) (hq : q ≠ 6) (s : State) : fld (refreshPool p s) q g = fld s q g := by
  have hset {f : Field} (v : Nat) (t : State) (hf : f.off = 0x220) (hfl : f.lo < 64) :
      fld (setFld 6 (f.at 8 p) v t) q g = fld t q g :=
    fld_setFld_own hg hl _ _ (by simp only [Field.at]; omega) (by simp only [Field.at]; omega) hfl
  have hsrc (i : Nat) (t : State) : fld (raiseSrc 6 i t) q g = fld t q g := by
    have hne {f : Field} (hf : f.off < 0x10000) (hfl : f.lo < 64) : fieldKey q g ≠ fieldKey 6 f :=
      fieldKey_ne_page hq hf (by omega) hfl hl
    rw [raiseSrc]
    exact fld_raiseIrq_ne t (hne (by decide) (by decide)) (hne (by decide) (by decide)) (hne (by decide) (by decide))
  simp only [refreshPool, setFlds_cons, setFlds_nil]
  generalize poolFactor _ _ _ = f
  split
  · simp (disch := decide) only [hset]
  · rw [fld_notice_head hg hl, hsrc]
    simp (disch := decide) only [hset]

theorem fld_refreshPools_head (hq : q ≠ 6) (s : State) : fld (refreshPools s) q g = fld s q g := by
  simp (disch := decide) only [refreshPools, fld_refreshPool_head hg hl _ hq]

theorem fld_showEvac_head (s : State) : fld (showEvac s) q g = fld s q g := by
  refine foldl_keeps (fun s => fld s q g) (fun s k => ?_) _ _
  simp only [setFlds_cons, setFlds_nil]
  rw [fld_setFld_own hg hl _ _ (by decide) (by decide) (by decide), fld_setFld_own hg hl _ _ (by decide) (by decide) (by decide)]

end

/-- The reserve taken at the targets of a remap changes the channels only. -/
theorem takeReserve_keeps {β : Type} (φ : State → β) (hset : ∀ c x s, φ (setChannel c x s) = φ s) (ts : List (Nat × Nat))
    (s : State) : φ (ts.foldl (fun s t => setChannel t.1 { channel s t.1 with held := t.2 } s) s) = φ s :=
  foldl_keeps φ (fun _ _ => hset _ _ _) ts s

/-- What the start of an evacuation comes to (R225): its operation runs on the page (as `u` has it), and the channel is fenced where
no remap has room; otherwise the engine holds a run with no block copied, the targets those of the remap. -/
theorem beginEvac_cases (ch : Nat) (owner : Bool) (s : State) :
    ∃ u, u.hbm = s.hbm ∧ (pageOp s (pageHbm (ch / 32)) = none → u = opRun (pageHbm (ch / 32)) 4 ch s) ∧
      ((remapOf s ch = none ∧ beginEvac ch owner s = fenceChannel ch (endEvacOp (pageHbm (ch / 32)) 4 u)) ∨
        ∃ ts e v, remapOf s ch = some ts ∧ beginEvac ch owner s = refreshPools (showEvac v) ∧ v.regs = u.regs ∧
          v.hbm.waiting = s.hbm.waiting ∧ v.hbm.evac = some e ∧ e.channel = ch ∧ e.owner = owner ∧ e.doneBits = [] ∧
          e.targets = ts.map (fun t => t.1)) := by
  unfold beginEvac
  extract_lets p u
  have hu : u.hbm = s.hbm ∧ remapOf u ch = remapOf s ch := by
    have hrun (arg : Nat) : (opRun p 4 arg s).hbm = s.hbm ∧ remapOf (opRun p 4 arg s) ch = remapOf s ch :=
      ⟨opRun_hbm .., remapOf_congr (opRun_hbm ..) (fun _ _ hf hf' hl => fld_opRun_own s hf hf' hl) ch⟩
    simp only [u]
    split
    · split
      · exact hrun _
      · exact ⟨rfl, rfl⟩
    · exact hrun ch
  obtain ⟨hhbm, hremap⟩ := hu
  refine ⟨u, hhbm, fun hop => by simp only [u, p, hop], ?_⟩
  rw [hremap]
  cases hts : remapOf s ch with
  | none => exact .inl ⟨rfl, rfl⟩
  | some ts =>
    have hregs := takeReserve_keeps State.regs (fun _ _ _ => rfl) ts u
    have hwait := takeReserve_keeps (·.hbm.waiting) (fun _ _ _ => rfl) ts u
    exact .inr ⟨ts, _, _, rfl, rfl, hregs, hwait.trans (congrArg Hbm.waiting hhbm), rfl, rfl, rfl, rfl, rfl⟩

/-- The start on a page with no operation shows the operation as running. -/
theorem beginEvac_started {ch : Nat} {owner : Bool} {ts : List (Nat × Nat)} {s : State}
    (hop : pageOp s (pageHbm (ch / 32)) = none) (hremap : remapOf s ch = some ts) :
    fld (beginEvac ch owner s) (pageHbm (ch / 32)) Reg.OP_CONTROL_RESULT = 2 ∧
      ∃ e, (beginEvac ch owner s).hbm.evac = some e ∧ e.channel = ch ∧ e.owner = owner ∧ e.doneBits = [] ∧
        e.targets = ts.map (fun t => t.1) := by
  obtain ⟨u, -, hu, ⟨hnone, -⟩ | ⟨ts', e, v, hts', heq, hregs, -, hevac, hrun⟩⟩ := beginEvac_cases ch owner s
  · simp [hremap] at hnone
  · cases hremap.symm.trans hts'
    have hpage : pageHbm (ch / 32) ≠ 6 := by simp only [pageHbm]; omega
    rw [heq, fld_refreshPools_head (by decide) (by decide) hpage, fld_showEvac_head (by decide) (by decide), fld_congr hregs, hu hop]
    exact ⟨opRun_result .., e, by simp [hevac], hrun⟩

/-- The free engine takes the earliest request: it runs, or its channel has nowhere to go and is fenced. -/
theorem beginEvac_taken (ch : Nat) (owner : Bool) (s : State) : (beginEvac ch owner s).hbm.waiting = s.hbm.waiting ∧
    ((∃ e, (beginEvac ch owner s).hbm.evac = some e ∧ e.channel = ch) ∨ (channel (beginEvac ch owner s) ch).fenced = true) := by
  obtain ⟨u, hu, -, ⟨-, heq⟩ | ⟨ts, e, v, -, heq, -, hwait, hevac, hrun, -⟩⟩ := beginEvac_cases ch owner s
  · rw [heq]
    exact ⟨by simp [fenceChannel_hbm, hu], .inr (fenced_fenceChannel_same ch _)⟩
  · rw [heq]
    exact ⟨by simp [hwait], .inl ⟨e, by simp [hevac], hrun⟩⟩

theorem execEvacuationDequeue_taken {r : EvacReq} {rest : List EvacReq} {s : State} (he : s.hbm.evac = none)
    (hw : s.hbm.waiting = r :: rest) (hev : (channel s r.channel).evacuated = false) :
    execEvacuationDequeue s = .next (beginEvac r.channel r.owner { s with hbm := { s.hbm with waiting := rest } }) := by
  simp only [execEvacuationDequeue, he, hw]
  exact congrArg Host.Outcome.next (if_neg (ne_true_of_eq_false hev))

theorem execEvacBlockCopied_copied {b : Nat} {e : EvacRun} {s : State} (he : s.hbm.evac = some e) (hp : e.paused = false)
    (hb : b < e.blocks) (hd : e.doneBits.contains b = false) : execEvacBlockCopied b none s =
      .next (opStep (pageHbm (e.channel / 32)) (100 * (e.doneBits.length + 1) / e.blocks) (e.doneBits.length + 1)
        { s with hbm := { s.hbm with evac := some { e with doneBits := b :: e.doneBits } } }) := by
  simp only [execEvacBlockCopied, he, hp, hd, Nat.not_le.mpr hb, Bool.false_eq_true, or_self, if_false]

theorem execEvacBlockCopied_lost {b x : Nat} {e : EvacRun} {s : State} (he : s.hbm.evac = some e) (hx : e.targets.contains x = true) :
    execEvacBlockCopied b (some x) s = .next (refreshPools (showEvac (fenceChannel x (fenceChannel e.channel
      (endEvacOp (pageHbm (e.channel / 32)) 4 { s with hbm := { s.hbm with evac := none } }))))) := by
  simp only [execEvacBlockCopied, he, hx, if_true]

theorem sameFields_opStep (p percent position : Nat) (s : State) :
    sameFields [(p, Reg.PROGRESS_PERCENT), (p, Reg.PROGRESS_POSITION)] s (opStep p percent position s) :=
  sameFields_setFlds p [(_, _), (_, _)] s

/-- The switch (R225): the engine is free, the remap permanent, the channel out of the interleave. -/
theorem execEvacSwitch_copied {e : EvacRun} {s : State} (he : s.hbm.evac = some e) (hdone : e.blocks ≤ e.doneBits.length) :
    ∃ t, execEvacSwitch s = .next t ∧ t.hbm.evac = none ∧ t.hbm.remaps = s.hbm.remaps ++ [(e.channel, e.targets)] ∧
      (channel t e.channel).evacuated = true := by
  simp only [execEvacSwitch, he, Nat.not_lt.mpr hdone, if_false]
  refine ⟨_, rfl, ?_⟩
  simp only [channel, refreshPools_hbm, showEvac_hbm, endEvacOp_hbm, failQueue_hbm, foldl_hbm (fun _ _ => setFld_hbm ..),
    dropChannelSlots_hbm, setLive_hbm, setChannel, Tab.get_put_same, true_and]

end Sys2Proof.Machine
end

section
/-! What the accesses of the hub's own agents keep (R257, R258, R272): table entries and counters are bytes, and what else an access
leaves are register counts, requests, translations held and walks. -/

namespace Sys2Proof.Machine

section
variable {β : Type} {φ : State → β} (hbytes : ∀ s m c h, φ { s with mem := m, cache := c, coh := h } = φ s)
include hbytes

theorem markAccessed_keeps (l : Leaf) (s : State) : φ (markAccessed l s) = φ s := by
  unfold markAccessed
  dsimp only
  split
  · rfl
  · exact writeBytes_keeps hbytes _ _ s

theorem markAllDirty_keeps (l : Leaf) (s : State) : φ (markAllDirty l s) = φ s := by
  unfold markAllDirty
  split
  · exact foldl_keeps φ (fun s j => markDirty_keeps hbytes _ s) _ _
  · exact markDirty_keeps hbytes _ s

theorem markRange_keeps (k va n : Nat) (s : State) : φ (markRange k va n s) = φ s := by
  refine foldl_keeps φ (fun s p => ?_) _ s
  split
  · exact (markDirty_keeps hbytes _ _).trans (markAccessed_keeps hbytes _ s)
  · rfl

theorem copyFrame_keeps (a b : Nat) (s : State) : φ (copyFrame a b s) = φ s := writeBytes_keeps hbytes _ _ s

theorem remapRegion_keeps (k region f : Nat) (s : State) : φ (remapRegion k region f s) = φ s := by
  unfold remapRegion
  split
  · rfl
  · exact foldl_keeps φ (fun s j => writeBytes_keeps hbytes _ _ s) _ s

variable (hout : ∀ s o, φ { s with out := o } = φ s)
include hout

theorem hostWrite_keeps (fn pa : Nat) (data : List Byte) (en : List Bool) (s : State) : φ (hostWrite fn pa data en s) = φ s := by
  refine (hbytes _ _ _ _).trans ?_
  exact foldl_keeps φ (fun s i => hout s _) _ s

theorem writeParts_keeps (c : Nat) (l : List (Nat × Nat)) (d : List Byte) (s : State) : φ (writeParts c l d s) = φ s := by
  induction l generalizing d s with
  | nil => rfl
  | cons p l ih =>
    refine (ih _ _).trans ?_
    split
    · exact foldl_keeps φ (fun s g => hostWrite_keeps hbytes hout _ _ _ _ s) _ s
    · refine (writeBytes_keeps hbytes _ _ _).trans ?_
      unfold clearCovered
      split
      · rfl
      · exact hbytes s _ _ _

theorem vwrite_keeps {h c va : Nat} {data : List Byte} {s t : State} (hw : vwrite h c va data s = .ok t) : φ t = φ s := by
  unfold vwrite at hw
  split at hw
  · cases hw
  · cases hw
    exact writeParts_keeps hbytes hout _ _ _ s

theorem setCountEntry_keeps (k frameNo v : Nat) (s : State) : φ (setCountEntry k frameNo v s) = φ s := by
  unfold setCountEntry
  split
  · rfl
  · split
    next hw => exact (markRange_keeps hbytes _ _ _ _).trans (vwrite_keeps hbytes hout hw)
    · rfl

theorem addCount_keeps (k frameNo n : Nat) (s : State) : φ (addCount k frameNo n s) = φ s := by
  unfold addCount
  split
  · rfl
  · exact setCountEntry_keeps hbytes hout _ _ _ s

theorem noteRegion_keeps (k va pa : Nat) (s : State) : φ (noteRegion k va pa s) = φ s := by
  fun_cases noteRegion k va pa s
  case case1 | case4 => rfl
  all_goals exact setCountEntry_keeps hbytes hout _ _ _ s

theorem moveCounts_keeps (k region a b : Nat) (s : State) : φ (moveCounts k region a b s) = φ s :=
  (setCountEntry_keeps hbytes hout _ _ _ _).trans (setCountEntry_keeps hbytes hout _ _ _ s)

theorem dropStale_keeps (k : Nat) (s : State) : φ (dropStale k s) = φ s := by
  refine foldl_keeps φ (fun s f => ?_) _ s
  split
  · split
    · exact setCountEntry_keeps hbytes hout _ _ _ s
    · rfl
  · rfl

theorem halveCounts_keeps (k : Nat) (s : State) : φ (halveCounts k s) = φ s := by
  refine foldl_keeps φ (fun s f => ?_) _ s
  split
  · split
    · rfl
    · exact setCountEntry_keeps hbytes hout _ _ _ s
  · rfl

theorem flushCount_keeps (h : Nat) (e : TlbEnt) (s : State) : φ (flushCount h e s) = φ s := by
  unfold flushCount
  split
  · split
    · exact hout s _
    · exact addCount_keeps hbytes hout _ _ _ s
  · rfl

end

/-- What a reading must not depend on to pass an access of one of the hub's holders: bytes, messages, register fields, free values,
translations held and the walk cache. -/
structure PastAccess {β : Type} (φ : State → β) : Prop where
  bytes : ∀ s m c h, φ { s with mem := m, cache := c, coh := h } = φ s
  out : ∀ s o, φ { s with out := o } = φ s
  regs : ∀ s r, φ { s with regs := r } = φ s
  fresh : ∀ s f, φ { s with fresh := f } = φ s
  holders : ∀ s x, φ { s with xlate := { s.xlate with holders := x } } = φ s
  walks : ∀ s x, φ { s with xlate := { s.xlate with walkCache := x } } = φ s

namespace PastAccess
variable {β : Type} {φ : State → β} (hφ : PastAccess φ)
include hφ

theorem setTlb (h : Nat) (l : List TlbEnt) (s : State) : φ (setTlb h l s) = φ s := hφ.holders s _

theorem setFld (p : Nat) (f : Field) (v : Nat) (s : State) : φ (setFld p f v s) = φ s := hφ.regs s _

theorem count (p : Nat) (f : Field) (n : Nat) (s : State) : φ (count p f n s) = φ s := by
  unfold Machine.count
  split
  · rfl
  · exact hφ.setFld _ _ _ s

theorem install (h : Nat) (e : TlbEnt) (s : State) : φ (install h e s) = φ s :=
  (foldl_keeps φ (fun s _ => flushCount_keeps hφ.bytes hφ.out _ _ s) _ _).trans (hφ.setTlb _ _ s)

theorem countWalk (k va : Nat) (fault mismatch : Bool) (s : State) : φ (countWalk k va fault mismatch s) = φ s := by
  have hdrew (s : State) : φ (drew s) = φ s := hφ.fresh s _
  unfold Machine.countWalk
  extract_lets w0 w1 hit s₁ s₂ s₃ s₄ ns s₅ c
  refine (hφ.walks s₅ _).trans ?_
  simp only [s₅, s₄, s₃, s₂, s₁, hdrew]
  (repeat' split) <;> simp only [hφ.setFld, hφ.count]

theorem serveXlate (h k va access : Nat) (s : State) : φ (serveXlate h k va access s).2 = φ s := by
  unfold Machine.serveXlate
  dsimp only
  split
  · exact hφ.countWalk ..
  · exact hφ.countWalk ..
  · dsimp only
    rw [hφ.install]
    (repeat' split) <;> simp only [noteRegion_keeps hφ.bytes hφ.out, markAllDirty_keeps hφ.bytes, hφ.countWalk,
      markAccessed_keeps hφ.bytes]

theorem countBytes (k pa n : Nat) (s : State) : φ (countBytes k pa n s) = φ s := by
  unfold Machine.countBytes
  dsimp only
  split
  · rfl
  · exact hφ.setFld _ _ _ s

theorem useEntry (h k va n : Nat) (write : Bool) (s : State) : φ (useEntry h k va n write s) = φ s := by
  unfold Machine.useEntry
  dsimp only
  (repeat' split) <;> simp only [hφ.setTlb, flushCount_keeps hφ.bytes hφ.out, markDirty_keeps hφ.bytes]

theorem accessPage (h k : Nat) (write : Bool) (s : State) (p : Nat × Nat) : φ (accessPage h k write s p) = φ s := by
  unfold Machine.accessPage
  (repeat' split) <;>
    simp only [hφ.countBytes, hφ.useEntry, hφ.serveXlate, markDirty_keeps hφ.bytes, markAccessed_keeps hφ.bytes]

theorem accessed (h k va n : Nat) (write : Bool) (s : State) : φ (accessed h k va n write s) = φ s :=
  foldl_keeps φ (hφ.accessPage h k write) _ s

theorem swapListed (k a b : Nat) (s : State) : φ (swapListed k a b s) = φ s := by
  unfold Machine.swapListed
  split
  · rfl
  · split
    next hw => exact (hφ.accessed ..).trans (vwrite_keeps hφ.bytes hφ.out hw)
    · rfl

end PastAccess

end Sys2Proof.Machine
end

section
/-! The placement loop (R231, R232, R236, R270): what an interval, the first copy of a migration, its installation and the owner's
commands leave. -/

namespace Sys2Proof.Machine

/-! Decisions (R231) -/

/-- The state takes up at most `n` migrations of context `k`, none of them withdrawn yet, and nothing else changes. -/
def AddsMigrations (k n : Nat) (s t : State) : Prop :=
  ∃ ms : List Migration, t = { s with xlate := { s.xlate with migrations := s.xlate.migrations ++ ms } } ∧ ms.length ≤ n ∧
    ∀ m ∈ ms, m.ctx = k ∧ m.withdrawn = false

theorem AddsMigrations.refl (k n : Nat) (s : State) : AddsMigrations k n s s := ⟨[], by simp, by simp, by simp⟩

theorem AddsMigrations.trans {k a b : Nat} {s t u : State} (hst : AddsMigrations k a s t) (htu : AddsMigrations k b t u) :
    AddsMigrations k (a + b) s u := by
  obtain ⟨ms, rfl, hms, hall⟩ := hst
  obtain ⟨ns, rfl, hns, hall'⟩ := htu
  refine ⟨ms ++ ns, by simp, by simp; omega, fun m hm => ?_⟩
  rcases List.mem_append.mp hm with h | h
  · exact hall m h
  · exact hall' m h

theorem AddsMigrations.mono {k a b : Nat} {s t : State} (h : AddsMigrations k a s t) (hab : a ≤ b) : AddsMigrations k b s t := by
  obtain ⟨ms, ht, hms, hall⟩ := h
  exact ⟨ms, ht, hms.trans hab, hall⟩

theorem addMigration_adds (k region a b : Nat) (promote : Bool) (s : State) : AddsMigrations k 1 s (addMigration k region a b promote s) :=
  ⟨[_], rfl, by simp, by simp⟩

/-- A candidate costs one migration, or two where a region of HBM gives way to it. -/
theorem decide231_adds (k minCount hyst n : Nat) (l : List Placed) (s : State) :
    AddsMigrations k (2 * n) s (decide231 k minCount hyst n l s) := by
  obtain ⟨free, hfree⟩ : ∃ f, f = freeIn := exists_eq
  obtain ⟨regions, hregions⟩ : ∃ f, f = regionsIn := exists_eq
  delta decide231 decide231._f
  rw [← hfree, ← hregions]
  induction n generalizing l s with
  | zero => exact .refl ..
  | succ n ih =>
    cases l with
    | nil => exact .refl ..
    | cons c cs =>
      dsimp only [Nat.brecOn] at ih ⊢
      split
      · exact .refl ..
      split
      · exact ((addMigration_adds ..).trans (ih _ _)).mono (by omega)
      split
      · exact .refl ..
      split
      · exact .refl ..
      split
      · exact .refl ..
      · exact (((addMigration_adds ..).trans (addMigration_adds ..)).trans (ih _ _)).mono (by omega)

/-- An interval of the loop changes bytes (the counters) and takes up migrations. -/
theorem execPlacementInterval_adds {k : Nat} {s : State} (hk : k < 64) (hon : fld s (pageCtx k) Reg.PLACE_CTRL_ENABLE = 1)
    (hfreeze : fld s (pageCtx k) Reg.PLACE_CTRL_FREEZE = 0) (hrun : ctxState s k = 2)
    (hcount : fld s (pageCtx k) Reg.PLACE_COUNT_ADDR ≠ 0) : ∃ t, execPlacementInterval k s = .next t ∧ t.regs = s.regs ∧
      ∃ ms, t.xlate.migrations = s.xlate.migrations ++ ms ∧ ms.length ≤ 2 * fld s (pageCtx k) Reg.PLACE_CTRL_MIGRATE_MAX ∧
        ∀ m ∈ ms, m.ctx = k ∧ m.withdrawn = false := by
  have hregs : (dropStale k s).regs = s.regs := dropStale_keeps (φ := State.regs) (fun _ _ _ _ => rfl) (fun _ _ => rfl) k s
  have hmigr : (dropStale k s).xlate.migrations = s.xlate.migrations :=
    dropStale_keeps (φ := (·.xlate.migrations)) (fun _ _ _ _ => rfl) (fun _ _ => rfl) k s
  rw [execPlacementInterval, if_neg (by simp [flag, hk, hon, hfreeze, hrun, hcount])]
  refine ⟨_, rfl, ?_⟩
  dsimp only
  obtain ⟨ms, ht, hlen, hall⟩ := decide231_adds k (fld (dropStale k s) (pageCtx k) Reg.PLACE_CTRL_PROMOTE_MIN)
    (fld (dropStale k s) (pageCtx k) Reg.PLACE_CTRL_HYSTERESIS) (fld (dropStale k s) (pageCtx k) Reg.PLACE_CTRL_MIGRATE_MAX)
    (regionsIn (dropStale k s) k false) (dropStale k s)
  rw [ht, halveCounts_keeps (φ := State.regs) (fun _ _ _ _ => rfl) (fun _ _ => rfl),
    halveCounts_keeps (φ := (·.xlate.migrations)) (fun _ _ _ _ => rfl) (fun _ _ => rfl)]
  refine ⟨hregs, ms, congrArg (· ++ ms) hmigr, ?_, hall⟩
  rwa [fld_congr hregs] at hlen

/-! Migrations (R232, R270) -/

theorem setMigrations_xlate (l : List Migration) (s : State) : (setMigrations l s).xlate = { s.xlate with migrations := l } := rfl

/-- A message for each holder changes nothing but what is on its way. -/
theorem startInval_xlate (i : Inval) (s : State) : (startInval i s).xlate = { s.xlate with
    walkCache := (dropWalks i.ctx i.base i.pages s).xlate.walkCache
    invals := s.xlate.invals ++ [{ i with waiting := holdersOf s i.ctx }] } :=
  foldl_keeps State.xlate (fun s h => by split <;> rfl) _ _

/-- The oldest migration of a context, after it was marked as withdrawn. -/
theorem find_withdrawn {k e : Nat} {m : Migration} {l : List Migration} (h : l.find? (fun m => m.ctx == k) = some m) :
    (l.map (fun n => if n = m then { n with withdrawn := true, epoch := e } else n)).find? (fun m => m.ctx == k) =
      some { m with withdrawn := true, epoch := e } := by
  have hctx : (fun m => m.ctx == k) ∘ (fun n : Migration => if n = m then { n with withdrawn := true, epoch := e } else n) =
      fun m => m.ctx == k := by
    funext n
    simp only [Function.comp]
    split <;> rfl
  rw [List.find?_map, hctx, h]
  simp

theorem execMigrationCopyDone_withdrawn {k : Nat} {m : Migration} {s : State} (hm : firstMigration s k = some m)
    (hw : m.withdrawn = false) (ha : (frame s m.frameA).state ≠ .gone) (hb : (frame s m.frameB).state ≠ .gone)
    (hbad : badIn s m.frameA = none) : ∃ t, execMigrationCopyDone k s = .next t ∧
      t.xlate.placementEpoch = s.xlate.placementEpoch + 1 ∧ t.xlate.heldRanges = s.xlate.heldRanges ++ [(k, m.region * 32, 32)] ∧
      firstMigration t k = some { m with withdrawn := true, epoch := s.xlate.placementEpoch + 1 } := by
  have hcopy : (copyFrame m.frameA m.frameB s).xlate = s.xlate := copyFrame_keeps (φ := State.xlate) (fun _ _ _ _ => rfl) _ _ s
  simp only [execMigrationCopyDone, hm, hw, ha, hb, hbad, Bool.false_eq_true, or_self, if_false]
  generalize copyFrame m.frameA m.frameB s = c at hcopy ⊢
  refine ⟨_, rfl, ?_, ?_, ?_⟩
  · rw [startInval_xlate]
  · rw [startInval_xlate]
    dsimp only
    rw [setMigrations_xlate, hcopy]
  · rw [firstMigration, startInval_xlate]
    refine Eq.trans ?_ (find_withdrawn hm)
    exact congrArg (fun x : Xlate => (x.migrations.map _).find? _) hcopy

/-- Which requests wait and which withdrawals of translations are open. -/
def openWithdrawals (s : State) : List (Nat × Nat × Header) × List (Nat × Header × List Unit256) × List Inval :=
  (s.xlate.heldReqs, s.xlate.heldGuest, s.xlate.invals)

theorem pastAccess_openWithdrawals : PastAccess openWithdrawals :=
  ⟨fun _ _ _ _ => rfl, fun _ _ => rfl, fun _ _ => rfl, fun _ _ => rfl, fun _ _ => rfl, fun _ _ => rfl⟩

/-- The copy, the table entries, the counters and the free list are bytes and accesses. -/
theorem openWithdrawals_moved (k region a b : Nat) (s : State) :
    openWithdrawals (swapListed k a b (moveCounts k region a b (remapRegion k region b (copyFrame a b s)))) = openWithdrawals s := by
  have hφ := pastAccess_openWithdrawals
  rw [hφ.swapListed, moveCounts_keeps hφ.bytes hφ.out, remapRegion_keeps hφ.bytes, copyFrame_keeps hφ.bytes]

theorem releaseHeld_none {s : State} (hr : s.xlate.heldReqs = []) (hg : s.xlate.heldGuest = []) :
    releaseHeld s = { s with xlate := { s.xlate with heldReqs := [], heldGuest := [] } } := by
  rw [releaseHeld, hr, hg, List.foldl_nil, List.foldl_nil]

/-! What a frame's bad sectors depend on. The kernel would evaluate what these definitions match on, so they are unfolded as
functions, with the parts they call kept closed. -/

theorem regionOf_congr {s t : State} (h : regions t = regions s) : regionOf t = regionOf s := by
  funext pa
  rw [regionOf, h, regionOf]

theorem regionOffset_congr {s t : State} (h : regions t = regions s) : regionOffset t = regionOffset s := by
  funext r n
  rw [regionOffset, h, regionOffset]

theorem placeOf_congr {s t : State} (h : regions t = regions s) : placeOf t = placeOf s := by
  obtain ⟨f, hf⟩ : ∃ g, g = placeOf := exists_eq
  rw [← hf]
  obtain ⟨region, hregion⟩ : ∃ g, g = regionOf := exists_eq
  obtain ⟨offset, hoffset⟩ : ∃ g, g = regionOffset := exists_eq
  have hr := regionOf_congr h
  have ho := regionOffset_congr h
  delta placeOf at hf
  rw [← hregion, ← hoffset] at hf
  rw [← hregion] at hr
  rw [← hoffset] at ho
  subst hf
  beta_reduce
  rw [hr, ho]

/-- Which memory is out of reach depends on the registers and HBM (R227). -/
theorem unreachable_congr {s t : State} (hregs : t.regs = s.regs) (hhbm : t.hbm = s.hbm) : unreachable t = unreachable s := by
  obtain ⟨f, hf⟩ : ∃ g, g = unreachable := exists_eq
  rw [← hf]
  obtain ⟨place, hplace⟩ : ∃ g, g = placeOf := exists_eq
  have hp := placeOf_congr (regions_congr (s := s) (t := t) fun p f _ _ _ => fld_congr hregs p f)
  have hstack (n : Nat) : stack t n = stack s n := by rw [stack, hhbm]; rfl
  delta unreachable at hf
  rw [← hplace] at hf hp
  subst hf
  funext pa
  simp only [hp, channel_congr hhbm, hstack]

theorem firstBad_congr {s t : State} (hregs : t.regs = s.regs) (hmem : t.mem = s.mem) (hhbm : t.hbm = s.hbm) :
    firstBad t = firstBad s := by
  obtain ⟨f, hf⟩ : ∃ g, g = firstBad := exists_eq
  rw [← hf]
  obtain ⟨reach, hreach⟩ : ∃ g, g = unreachable := exists_eq
  have hu := unreachable_congr hregs hhbm
  delta firstBad at hf
  rw [← hreach] at hf hu
  subst hf
  beta_reduce
  rw [hu, hmem]

/-- Which sectors of a frame are bad or out of reach depends on the registers, the memory and HBM (R210, R227). -/
theorem badIn_congr {s t : State} (hregs : t.regs = s.regs) (hmem : t.mem = s.mem) (hhbm : t.hbm = s.hbm) (f : Nat) :
    badIn t f = badIn s f := by rw [badIn, firstBad_congr hregs hmem hhbm, badIn]

/-- After the last installation at a range no request waits there (R270): the register fields name the region and the direction. -/
theorem releaseHeld_installed {k region kind : Nat} {u : State} (hreqs : u.xlate.heldReqs = []) (hguest : u.xlate.heldGuest = [])
    (hkind : kind < 4) : ∃ t, releaseHeld (setFlds (pageCtx k) [(Reg.PLACE_LAST_REGION, region), (Reg.PLACE_LAST_KIND, kind)] u) = t ∧
      t.xlate.migrations = u.xlate.migrations ∧ t.xlate.invals = u.xlate.invals ∧
      fld t (pageCtx k) Reg.PLACE_LAST_REGION = region % 2 ^ 34 ∧ fld t (pageCtx k) Reg.PLACE_LAST_KIND = kind := by
  refine ⟨_, releaseHeld_none (by simpa using hreqs) (by simpa using hguest), by simp, by simp, ?_, ?_⟩
  · refine (fld_congr rfl _ _).trans ((fld_setFld_field (f := Reg.PLACE_LAST_KIND) kind _ (by decide)).trans (fld_setFld_same ..))
  · exact (fld_congr rfl _ _).trans (fld_setFld_fits _ _ hkind)

theorem execMigrationInstall_done {k : Nat} {m : Migration} {i : Inval} {s : State} (hm : firstMigration s k = some m)
    (hw : m.withdrawn = true) (hi : s.xlate.invals.find? (fun i => i.ctx == k && i.placement && i.epoch == m.epoch) = some i)
    (hacks : i.waiting = []) (ha : (frame s m.frameA).state ≠ .gone) (hb : (frame s m.frameB).state ≠ .gone)
    (hbad : badIn s m.frameA = none) (hreqs : s.xlate.heldReqs = []) (hguest : s.xlate.heldGuest = []) :
    ∃ t, execMigrationInstall k s = .next t ∧ (∀ n ∈ t.xlate.migrations, n ≠ m) ∧ (∀ j ∈ t.xlate.invals, j ≠ i) ∧
      fld t (pageCtx k) Reg.PLACE_LAST_REGION = m.region % 2 ^ 34 ∧
      fld t (pageCtx k) Reg.PLACE_LAST_KIND = (if m.promote then 1 else 2) := by
  obtain ⟨u, hu⟩ : ∃ u, u = { s with xlate := { s.xlate with invals := s.xlate.invals.filter (fun j => j != i) } } := exists_eq
  have hbad' : badIn u m.frameA = none := (badIn_congr (by rw [hu]) (by rw [hu]) (by rw [hu]) m.frameA).trans hbad
  have hframe (f : Nat) : frame u f = frame s f := by rw [hu]; rfl
  obtain ⟨install, hinstall⟩ : ∃ g, g = execMigrationInstall := exists_eq
  obtain ⟨bad, hbadIn⟩ : ∃ g, g = badIn := exists_eq
  rw [← hinstall]
  delta execMigrationInstall at hinstall
  rw [← hbadIn] at hinstall hbad'
  subst hinstall
  simp only [hm, hi, hw, hacks, List.isEmpty_nil, Bool.not_true, Bool.false_eq_true, or_self, if_false, ← hu, hframe, ha, hb, hbad']
  have hmoved := openWithdrawals_moved k m.region m.frameA m.frameB u
  generalize swapListed k m.frameA m.frameB (moveCounts k m.region m.frameA m.frameB
    (remapRegion k m.region m.frameB (copyFrame m.frameA m.frameB u))) = w at hmoved ⊢
  simp only [openWithdrawals, Prod.mk.injEq] at hmoved
  obtain ⟨hr, hg, hv⟩ := hmoved
  generalize hx : count (pageCtx k) _ 1 _ = v
  have hvx := congrArg State.xlate hx
  rw [count_xlate] at hvx
  obtain ⟨t, ht, hmigr, hinv, hregion, hkind⟩ := releaseHeld_installed (k := k) (region := m.region)
    (kind := if m.promote then 1 else 2) (u := v) (by rw [← hvx, hr, hu, hreqs]) (by rw [← hvx, hg, hu, hguest]) (by split <;> omega)
  refine ⟨t, congrArg Host.Outcome.next ht, fun n hn => ?_, fun j hj => ?_, hregion, hkind⟩
  · rw [hmigr, ← hvx] at hn
    simpa using (List.mem_filter.mp hn).2
  · rw [hinv, ← hvx, hv, hu] at hj
    simpa using (List.mem_filter.mp hj).2

/-! The owner's commands (R236) -/

theorem ownerWrite_open {k off : Nat} {f : State → State} {s : State} (h : pageOpen s 0 k = true) : ownerWrite k off f s = f s := by
  simp only [pageOpen, Bool.and_eq_true, decide_eq_true_eq, Bool.or_eq_true, beq_iff_eq, Bool.not_eq_true'] at h
  obtain ⟨hk, rfl | ⟨-, hsealed⟩⟩ := h
  · rw [ownerWrite, if_neg (by omega), if_neg (by omega)]
  · rw [ownerWrite, if_neg (by omega), if_neg (by simp [hsealed])]

/-- A hold to a tier is the region's only one. -/
theorem mem_hold {l : List (Nat × Nat × Nat)} {k r tier : Nat} :
    (k, r, tier) ∈ l.filter (fun h => !(h.1 == k && h.2.1 == r)) ++ [(k, r, tier)] ∧
      ∀ x, (k, r, x) ∈ l.filter (fun h => !(h.1 == k && h.2.1 == r)) ++ [(k, r, tier)] → x = tier := by
  refine ⟨by simp, fun x hx => ?_⟩
  simpa [List.mem_filter] using hx

/-- A hold to HBM may begin a promotion of the region. -/
theorem placeCmd_holdHbm (k r : Nat) (s : State) : (placeCmd k r 1 s).xlate.placeHolds =
    s.xlate.placeHolds.filter (fun h => !(h.1 == k && h.2.1 == r)) ++ [(k, r, 1)] ∧ (placeCmd k r 1 s).regs = s.regs := by
  simp only [placeCmd, if_true]
  split
  · split
    · exact ⟨rfl, rfl⟩
    · exact ⟨rfl, rfl⟩
  · exact ⟨rfl, rfl⟩

theorem placeCmd_holdPeat (k r : Nat) (s : State) : placeCmd k r 2 s = { s with xlate := { s.xlate with
    placeHolds := s.xlate.placeHolds.filter (fun h => !(h.1 == k && h.2.1 == r)) ++ [(k, r, 2)] } } := rfl

theorem placeCmd_release (k r : Nat) (s : State) : placeCmd k r 3 s = { s with xlate := { s.xlate with
    placeHolds := s.xlate.placeHolds.filter (fun h => !(h.1 == k && h.2.1 == r)) } } := rfl

/-- The owner's command on an open page: its region field has 34 bits. -/
theorem exec_placeCmd {i : Instr} {k r op : Nat} {s : State} (hi : exec i s = .next (ownerWrite k 0x990 (placeCmd k (r % 2 ^ 34) op) s))
    (h : pageOpen s 0 k = true) (hr : r < 2 ^ 34) : exec i s = .next (placeCmd k r op s) := by
  rw [hi, ownerWrite_open h, Nat.mod_eq_of_lt hr]

/-! Way masks (R217) -/

theorem execWayMaskWrite_empty {k m : Nat} {s : State} (hk : k < 64) (hm : m < 65536) (hempty : bindState s (pageCtx k) = 0)
    (hok : maskOk s k m = true) : execWayMaskWrite k m s = .next (setFld (pageCtx k) Reg.CACHE_POLICY_WAY_MASK m s) := by
  rw [execWayMaskWrite, if_neg (by omega), Nat.mod_eq_of_lt hm, wayMaskWrite, if_neg (by simp [hempty]), if_pos hok]

theorem execWayMaskWrite_bound {k : Nat} (m : Nat) {s : State} (hk : k < 64) (hbound : bindState s (pageCtx k) ≠ 0) :
    execWayMaskWrite k m s = .next (accessErr (pageCtx k) Reg.ERR_SUMMARY_LOCKED_WRITE s) := by
  rw [execWayMaskWrite, if_neg (by omega), wayMaskWrite, if_pos hbound]

end Sys2Proof.Machine
end

section
/-! The settled statement about evacuations, the placement loop and way masks. -/

namespace Sys2Proof.Machine

/-- Settles O21, clause by clause: the evacuation's request, start, copies and end, the placement loop's interval and migrations, the
owner's commands and the way masks. -/
theorem evacuationPlacementAndWays : Obligations.EvacuationPlacementAndWays := by
  unfold Obligations.EvacuationPlacementAndWays
  refine ⟨?queued, ?starts, ?taken, ?copied, ?lost, ?switched, ?interval, ?copyDone, ?installed, ?holdHbm, ?holdPeat, ?release,
    ?maskTaken, ?maskLocked⟩
  case queued =>
    intro n ch s hn hch hev hp hop hbusy
    have hengine : ¬(s.hbm.evac.isNone = true ∧ s.hbm.waiting.isEmpty = true) := by
      simp [Option.isNone_iff_eq_none, Option.isSome_iff_ne_none.mp hbusy]
    refine ⟨_, execChannelEvacuation_accepted hn hch hev hp hop, ?_⟩
    rw [if_neg hengine]
    exact ⟨by rw [opQueue_hbm]; rfl, opQueue_result .., sameFields_opQueue _ _ _ (listEvac ch true s)⟩
  case starts =>
    intro n ch ts s hn hch hev hop he hw hremap
    refine ⟨_, execChannelEvacuation_accepted hn hch hev (evacPending_idle he hw ch) hop, ?_⟩
    rw [if_pos (by simp [he, hw])]
    subst hch
    exact beginEvac_started hop hremap
  case taken =>
    intro r rest s he hw hev
    exact ⟨_, execEvacuationDequeue_taken he hw hev, beginEvac_taken ..⟩
  case copied =>
    intro b e s he hp hb hd
    refine ⟨_, execEvacBlockCopied_copied he hp hb hd, by rw [opStep_hbm], ?_, ?_⟩
    · exact sameBytes_of_parts (by rw [opStep_mem]) (by rw [opStep_cache]) (by rw [opStep_coh])
    · exact sameFields_opStep _ _ _ { s with hbm := { s.hbm with evac := some { e with doneBits := b :: e.doneBits } } }
  case lost =>
    intro b x e s he hx
    refine ⟨_, execEvacBlockCopied_lost (b := b) he hx, ?_, ?_, ?_⟩
    · simp [fenceChannel_hbm]
    · rw [channel_congr (refreshPools_hbm _), channel_congr (showEvac_hbm _)]
      exact fenced_fenceChannel_same x _
    · rw [channel_congr (refreshPools_hbm _), channel_congr (showEvac_hbm _)]
      exact fenced_fenceChannel x (fenced_fenceChannel_same e.channel _)
  case switched => exact fun e s he hdone => execEvacSwitch_copied he hdone
  case interval => exact fun k s hk hon hfreeze hrun hcount => execPlacementInterval_adds hk hon hfreeze hrun hcount
  case copyDone => exact fun k m s hm hw ha hb hbad => execMigrationCopyDone_withdrawn hm hw ha hb hbad
  case installed =>
    exact fun k m i s hm hw hi hacks ha hb hbad hreqs hguest => execMigrationInstall_done hm hw hi hacks ha hb hbad hreqs hguest
  case holdHbm =>
    intro k r s h hr
    obtain ⟨hholds, hregs⟩ := placeCmd_holdHbm k r s
    refine ⟨_, exec_placeCmd (op := 1) rfl h hr, ?_, ?_, hregs⟩ <;> rw [hholds]
    · exact mem_hold.1
    · exact mem_hold.2
  case holdPeat =>
    intro k r s h hr
    refine ⟨_, exec_placeCmd (op := 2) rfl h hr, ?_, ?_, ?_, ?_⟩ <;> rw [placeCmd_holdPeat]
    · exact mem_hold.1
    · exact mem_hold.2
  case release =>
    intro k r s h hr
    refine ⟨_, exec_placeCmd (op := 3) rfl h hr, fun x hx => ?_, ?_, ?_⟩
    · rw [placeCmd_release] at hx
      simpa using (List.mem_filter.mp hx).2
    · rw [placeCmd_release]
    · rw [placeCmd_release]
  case maskTaken => exact fun k m s hk hm hempty hok => execWayMaskWrite_empty hk hm hempty hok
  case maskLocked => exact fun k m s hk hbound => execWayMaskWrite_bound m hk hbound

end Sys2Proof.Machine
end

section
/-! The array of a tile, slot by slot (R86 to R92, R97): what a load, an issue slot, a row that arrives, a row of the epilogue and a
window boundary leave of the tile, and the settled statement about them. -/

namespace Sys2Proof.Machine

@[simp] theorem tile_showArray (n m : Nat) (s : State) : tile (showArray n s) m = tile s m := tile_congr (showArray_tiles ..) m

/-! A stationary load (R87 to R89) -/

/-- Slots that pass move the feeder's counter, take duties at the boundaries, and nothing else. -/
theorem feederTicks_eq (l : List Nat) (t : TileSt) : ∃ d, l.foldl (fun t _ => feederTick t) t =
    { t with feederSlot := t.feederSlot + l.length, feederDuty := d } := by
  induction l generalizing t with
  | nil => exact ⟨t.feederDuty, rfl⟩
  | cons i l ih =>
    obtain ⟨d, hd⟩ := ih (feederTick t)
    refine ⟨d, ?_⟩
    rw [List.foldl_cons, hd]
    simp only [feederTick, List.length_cons, TileSt.mk.injEq, and_true, true_and]
    omega

/-- The bank not in use takes a block and comes into use. -/
def TileSt.load (t : TileSt) (b : Bank) : TileSt :=
  if t.bankInUse = 0 then { t with bank1 := b, bankInUse := 1 } else { t with bank0 := b, bankInUse := 0 }

theorem TileSt.bank_load (t : TileSt) (b : Bank) : (t.load b).bank = b := by
  unfold TileSt.load
  split <;> simp [TileSt.bank]

theorem TileSt.load_parts (t : TileSt) (b : Bank) : (t.load b).feederSlot = t.feederSlot ∧ (t.load b).lead = t.lead ∧
    (t.load b).acc = t.acc := by
  unfold TileSt.load
  split <;> exact ⟨rfl, rfl, rfl⟩

section
variable {n : Nat} {a : ArrayPass} {s : State}

/-- A command of a working array does not stop at its first check. -/
theorem arrayGoes (hn : n < 64) (hw : arrayWorks s n = true) : ¬ (64 ≤ n ∨ (!arrayWorks s n) = true) := by
  simp [hw]; omega

theorem stationaryLoad_missing (rows scales : List (List Nat)) (hn : n < 64) (hw : arrayWorks s n = true)
    (hl : (tile s n).lead = some a) (hk : a.kBlock ≠ a.kBlocks) (hb : (tile s n).bank.holds a = false) :
    exec (.stationaryLoad n rows scales) s = .next (showArray n (setTile n
      (((List.range 128).foldl (fun t _ => feederTick t) (tile s n)).load
        { passId := a.passId, col0 := a.col0, kBlock := a.kBlock, rows := rows, scales := scales, valid := true }) s)) := by
  refine congrArg Host.Outcome.next ((if_neg (arrayGoes hn hw)).trans ?_)
  rw [hl]
  exact if_neg (by simp [hk, hb])

/-! An issue slot (R90, R97) -/

/-- The bank in use holds the block that a pass in progress needs, as its four marks say. -/
theorem Bank.holds_of_eq {b : Bank} (hv : b.valid = true) (hp : b.passId = a.passId) (hk : b.kBlock = a.kBlock)
    (hc : b.col0 = a.col0) : b.holds a = true := by
  simp [Bank.holds, hv, hp, hk, hc]

theorem feederIssue_ready (codes scales : List Nat) (hn : n < 64) (hw : arrayWorks s n = true) (hl : (tile s n).lead = some a)
    (hk : a.kBlock ≠ a.kBlocks) (hb : (tile s n).bank.holds a = true) (hi : issues (tile s n).feederSlot (tile s n).feederDuty = true)
    (hfree : tagBusy (tile s n) a = false) :
    exec (.feederIssue n true codes scales) s =
      .next (showArray n (modTile n (fun t => issueRow a codes scales (feederTick t)) s)) := by
  refine congrArg Host.Outcome.next ((if_neg (arrayGoes hn hw)).trans ?_)
  rw [hl]
  simp [hk, hb, hi, hfree]

theorem feederIssue_bubble (codes scales : List Nat) (hn : n < 64) (hw : arrayWorks s n = true) (hl : (tile s n).lead = some a)
    (hk : a.kBlock ≠ a.kBlocks) (hb : (tile s n).bank.holds a = true) (hi : issues (tile s n).feederSlot (tile s n).feederDuty = true) :
    exec (.feederIssue n false codes scales) s =
      .next (count (pageTile n) Reg.BUBBLES_FEEDER 1 (modTile n feederTick s)) := by
  refine congrArg Host.Outcome.next ((if_neg (arrayGoes hn hw)).trans ?_)
  rw [hl]
  simp [hk, hb, hi]

end

/-- A row of a K block that is not its last leaves the pass leading, one row on. -/
theorem issueRow_within {a : ArrayPass} (codes scales : List Nat) (t : TileSt) (hk : a.kBlock ≠ a.kBlocks) (hr : a.mRow + 1 < a.rows) :
    (issueRow a codes scales t).lead = some { a with mRow := a.mRow + 1 } ∧
    (issueRow a codes scales t).feederSlot = t.feederSlot ∧
    ∃ f : InFlight, (issueRow a codes scales t).flight = t.flight ++ [f] ∧ f.passId = a.passId ∧ f.tag = a.mRow ∧
      f.first = (a.kBlock == 0) ∧ f.last = (a.kBlock + 1 == a.kBlocks) := by
  have hrow : a.mRow + 1 ≠ a.rows := by omega
  simp only [issueRow, hrow, if_false, hk, false_and]
  exact ⟨trivial, trivial, _, rfl, rfl, rfl, rfl, rfl⟩

/-! A row that arrives (R86, R117, R118) -/

/-- Positions noted on the tile leave the rest of it alone. -/
theorem foldl_mark_eq (r c : Nat) (l : List (Nat × Num.Conv)) (t : TileSt) : ∃ u v,
    l.foldl (fun t e => t.mark r (c + e.1) false e.2.saturated) t = { t with nonfinite := u, saturated := v } := by
  induction l generalizing t with
  | nil => exact ⟨t.nonfinite, t.saturated, rfl⟩
  | cons e l ih =>
    obtain ⟨u, v, hl⟩ := ih (t.mark r (c + e.1) false e.2.saturated)
    exact ⟨u, v, hl⟩

/-- A row that arrives is written to the accumulator row of its tag, with all its entries. -/
theorem accumulate_eq (f : InFlight) (t : TileSt) : ∃ u v row, accumulate f t =
      { t with nonfinite := u, saturated := v, acc := Tab.put {} t.acc f.tag row } ∧
    row.passId = f.passId ∧ row.final = f.last ∧ row.unread = true ∧ row.cells.length = f.wides.length := by
  obtain ⟨u, v, hmark⟩ := foldl_mark_eq ((t.origin f.passId f.piece).1 + f.tag) (t.origin f.passId f.piece).2 _ t
  exact ⟨u, v, _, by rw [accumulate, hmark], rfl, rfl, rfl, by simp⟩

theorem accumulatorWrite_oldest {n : Nat} {f : InFlight} {fs : List InFlight} {s : State} (hn : n < 64)
    (hf : (tile s n).flight = f :: fs) :
    exec (.accumulatorWrite n) s = .next (modTile n (fun t => accumulate f { t with flight := fs }) s) := by
  refine congrArg Host.Outcome.next ((if_neg (by omega)).trans ?_)
  simp only [modTile, retireRow, hf]

/-! The epilogue (R92) -/

/-- The epilogue of a pass that is no MATMUL reads a finished row that is not its last. -/
theorem epilogueRow_reads {n : Nat} {a : ArrayPass} {p : Pass} {s : State} (hn : n < 64) (hw : arrayWorks s n = true)
    (ht : (tile s n).trail = some a) (hr : a.epiRow + 1 < a.rows) (hid : (Tab.get {} (tile s n).acc a.epiRow).passId = a.passId)
    (hpiece : (Tab.get {} (tile s n).acc a.epiRow).piece = a.piece) (hfin : (Tab.get {} (tile s n).acc a.epiRow).final = true)
    (hi : issues (tile s n).vectorSlot (tile s n).vectorDuty = true) (hp : pass s a.passId = some p) (hc : p.opclass ≠ 1) :
    exec (.epilogueRow n) s = .next (showArray n (modTile n (fun t => { vectorTick t with
      acc := Tab.put {} t.acc a.epiRow { Tab.get {} (tile s n).acc a.epiRow with unread := false },
      trail := some { a with epiRow := a.epiRow + 1 } }) s)) := by
  have hrow : ¬ a.rows ≤ a.epiRow := by omega
  have hlast : a.epiRow + 1 ≠ a.rows := by omega
  refine congrArg Host.Outcome.next ((if_neg (arrayGoes hn hw)).trans ?_)
  simp [ht, hrow, hid, hpiece, hfin, hi, hp, hc, hlast]

/-! Window boundaries (R97) -/

theorem throttleWindow_vector {n : Nat} {s : State} (hn : n < 64) : exec (.throttleWindow n true) s =
    .next (modTile n (fun t => { t with vectorSlot := (t.vectorSlot / 64 + 1) * 64, vectorDuty := t.nextDuty }) s) :=
  congrArg Host.Outcome.next (if_neg (by omega))

theorem throttleWindow_feeder {n : Nat} {s : State} (hn : n < 64) : exec (.throttleWindow n false) s =
    .next (setFld (pageTile n) Reg.THROTTLE_DUTY (tile s n).nextDuty
      (modTile n (fun t => { t with feederSlot := (t.feederSlot / 64 + 1) * 64, feederDuty := t.nextDuty }) s)) := by
  refine congrArg Host.Outcome.next ((if_neg (by omega)).trans ?_)
  simp

/-- Settles O11, command by command: each comes to one change of the tile, whose parts are read off. -/
theorem tileRowsAndBanks : Obligations.TileRowsAndBanks := by
  unfold Obligations.TileRowsAndBanks
  refine ⟨?load, ?issue, ?bubble, ?arrives, ?epilogue, ?vector, ?feeder⟩
  case load =>
    intro n rows scales a s hn hw hl hk hb
    obtain ⟨d, hticks⟩ := feederTicks_eq (List.range 128) (tile s n)
    obtain ⟨hslot, hlead, hacc⟩ := TileSt.load_parts ((List.range 128).foldl (fun t _ => feederTick t) (tile s n))
      { passId := a.passId, col0 := a.col0, kBlock := a.kBlock, rows := rows, scales := scales, valid := true }
    refine ⟨_, stationaryLoad_missing rows scales hn hw hl hk hb, ?_⟩
    rw [tile_showArray, tile_setTile_same, TileSt.bank_load, hslot, hlead, hacc, hticks]
    exact ⟨rfl, by rw [List.length_range], hl, rfl⟩
  case issue =>
    intro n codes scales a s hn hw hl hk hv hp hkb hc hi hfree hr
    obtain ⟨hlead, hslot, hflight⟩ := issueRow_within codes scales (feederTick (tile s n)) hk hr
    refine ⟨_, feederIssue_ready codes scales hn hw hl hk (Bank.holds_of_eq hv hp hkb hc) hi hfree, ?_⟩
    rw [tile_showArray, tile_modTile_same]
    exact ⟨hlead, hslot, hflight⟩
  case bubble =>
    exact fun n codes scales a s hn hw hl hk hv hp hkb hc hi =>
      feederIssue_bubble codes scales hn hw hl hk (Bank.holds_of_eq hv hp hkb hc) hi
  case arrives =>
    intro n f fs s hn hf
    obtain ⟨u, v, row, hacc, hid, hlast, hunread, hlen⟩ := accumulate_eq f { tile s n with flight := fs }
    refine ⟨_, accumulatorWrite_oldest hn hf, ?_⟩
    rw [tile_modTile_same, hacc]
    refine ⟨rfl, rfl, ?_⟩
    dsimp only
    rw [Tab.get_put_same]
    exact ⟨hid, hlast, hunread, hlen⟩
  case epilogue =>
    intro n a p s hn hw ht hr hid hpiece hfin hi hp hc
    refine ⟨_, epilogueRow_reads hn hw ht hr hid hpiece hfin hi hp hc, ?_⟩
    rw [tile_showArray, tile_modTile_same]
    exact ⟨rfl, by dsimp only; rw [Tab.get_put_same], rfl⟩
  case vector => exact fun n s hn => throttleWindow_vector hn
  case feeder =>
    intro n s hn
    refine ⟨_, throttleWindow_feeder hn, ?_, ?_, fld_setFld_same .., (sameFields_setFld _ _ _ _).congr_regs rfl rfl⟩
    · rw [tile_congr (setFld_tiles ..), tile_modTile_same]
    · rw [tile_congr (setFld_tiles ..), tile_modTile_same]

end Sys2Proof.Machine
end

section
/-! `ARRAY_STATE` and the pre-emption of a tile (R98 to R100): what the array's state reads past the operations that set it and those
that leave it alone, and what each step from the request to the freeze and back leaves of the tile. -/

namespace Sys2Proof.Machine

/-! The array's state -/

theorem arrayState_congr {s t : State} (h : t.regs = s.regs) (n : Nat) : arrayState t n = arrayState s n := fld_congr h ..

/-- A binding leaves the registers beyond the common header alone. -/
theorem fld_unbindPage_own {p q st : Nat} {f : Field} (s : State) (hf : 0x100 ≤ f.off) (hf' : f.off < 0x10000) (hl : f.lo < 64) :
    fld (unbindPage q st s) p f = fld s p f := by
  have hne {g : Field} (hg : g.off < 0x100) (hgl : g.lo < 64) : fieldKey p f ≠ fieldKey q g := fieldKey_ne_head hg hf hf' hl hgl
  simp (disch := decide) only [unbindPage, setFlds_cons, setFlds_nil, fld_setFld_ne _ _ (hne _ _)]

section
variable (n : Nat) (s : State)

theorem arrayState_setArrayState {v : Nat} (h : v < 16) : arrayState (setArrayState n v s) n = v := fld_setFld_fits _ s h

theorem arrayState_setFld {f : Field} (v : Nat)
    (h : Reg.ARRAY_STATE_STATE.off * 64 + Reg.ARRAY_STATE_STATE.lo ≠ f.off * 64 + f.lo) :
    arrayState (setFld (pageTile n) f v s) n = arrayState s n := fld_setFld_field v s h

theorem arrayState_clearArray {st : Nat} (h : st < 16) : arrayState (clearArray n st s) n = st := by
  simp only [clearArray, setFlds_cons, setFlds_nil]
  simp (disch := decide) only [arrayState_setFld]
  exact fld_setFld_fits _ _ h

@[simp] theorem arrayState_unbindPage (p st : Nat) : arrayState (unbindPage p st s) n = arrayState s n :=
  fld_unbindPage_own s (by decide) (by decide) (by decide)

/-- `ARRAY_STATE` is refreshed in its two counts and, where the array works, in its state. -/
theorem showArray_eq : ∃ x y, showArray n s =
    if arrayWorks s n then setArrayState n (if (tile s n).lead.isNone && (tile s n).trail.isNone then 1 else 3)
      (setFld (pageTile n) Reg.ARRAY_STATE_EPILOGUE y (setFld (pageTile n) Reg.ARRAY_STATE_PASSES x s))
    else setFld (pageTile n) Reg.ARRAY_STATE_EPILOGUE y (setFld (pageTile n) Reg.ARRAY_STATE_PASSES x s) := by
  have hworks (x y : Nat) : arrayWorks (setFld (pageTile n) Reg.ARRAY_STATE_EPILOGUE y
      (setFld (pageTile n) Reg.ARRAY_STATE_PASSES x s)) n = arrayWorks s n := by
    simp (disch := decide) only [arrayWorks, arrayState_setFld]
  exact ⟨_, _, by rw [← hworks]; rfl⟩

/-- A working array shows whether it holds a pass: IDLE with none, STREAMING with one or two. -/
theorem arrayState_showArray (hw : arrayWorks s n = true) :
    arrayState (showArray n s) n = if (tile s n).lead.isNone && (tile s n).trail.isNone then 1 else 3 := by
  obtain ⟨x, y, h⟩ := showArray_eq n s
  rw [h, if_pos hw, arrayState_setArrayState]
  split <;> decide

theorem fld_showArray_ne {f : Field} (hs : f.off * 64 + f.lo ≠ Reg.ARRAY_STATE_STATE.off * 64 + Reg.ARRAY_STATE_STATE.lo)
    (hp : f.off * 64 + f.lo ≠ Reg.ARRAY_STATE_PASSES.off * 64 + Reg.ARRAY_STATE_PASSES.lo)
    (he : f.off * 64 + f.lo ≠ Reg.ARRAY_STATE_EPILOGUE.off * 64 + Reg.ARRAY_STATE_EPILOGUE.lo) :
    fld (showArray n s) (pageTile n) f = fld s (pageTile n) f := by
  obtain ⟨x, y, h⟩ := showArray_eq n s
  rw [h]
  split
  · rw [setArrayState, fld_setFld_field _ _ hs, fld_setFld_field _ _ he, fld_setFld_field _ _ hp]
  · rw [fld_setFld_field _ _ he, fld_setFld_field _ _ hp]

end

/-! The request (R98) -/

theorem preempt_working {n : Nat} {s : State} (h : arrayWorks s n = true) :
    preempt n s = setArrayState n 4 (modTile n (fun t => { t with draining := true }) s) := if_pos h

/-! The drain (R98) -/

theorem foldl_accumulate_eq (l : List InFlight) (t : TileSt) : ∃ u v acc, l.foldl (fun t f => accumulate f t) t =
    { t with nonfinite := u, saturated := v, acc := acc } := by
  induction l generalizing t with
  | nil => exact ⟨t.nonfinite, t.saturated, t.acc, rfl⟩
  | cons f l ih =>
    obtain ⟨u, v, row, hf, -⟩ := accumulate_eq f t
    obtain ⟨u', v', acc, hl⟩ := ih (accumulate f t)
    exact ⟨u', v', acc, by rw [List.foldl_cons, hl, hf]⟩

theorem drainArray_regs (n : Nat) (s : State) : (drainArray n s).regs = s.regs := by
  unfold drainArray
  split <;> rfl

theorem tile_drainArray {n : Nat} {s : State} (h : (tile s n).draining = true) : ∃ u v acc, tile (drainArray n s) n =
    { tile s n with nonfinite := u, saturated := v, acc := acc, flight := [], parkValid := true } := by
  obtain ⟨u, v, acc, hfold⟩ := foldl_accumulate_eq (tile s n).flight (tile s n)
  exact ⟨u, v, acc, by rw [drainArray, if_pos h, tile_modTile_same, hfold]⟩

/-! The freeze (R99) -/

@[simp] theorem movePieces_regs (x : Nat) (a b : PieceState) (s : State) : (movePieces x a b s).regs = s.regs := rfl
@[simp] theorem movePieces_tiles (x : Nat) (a b : PieceState) (s : State) : (movePieces x a b s).tiles = s.tiles := rfl

/-- The position registers of a tile that freezes. -/
def frozenPositions (t : TileSt) : List (Field × Nat) :=
  (match t.lead with
    | some a => [(Reg.LEAD_POSITION_K_BLOCK, a.kBlock), (Reg.LEAD_POSITION_M_ROW, a.mRow), (Reg.LEAD_POSITION_VALID, 1)]
    | none => [(Reg.LEAD_POSITION_VALID, 0)]) ++
  (match t.trail with
    | some a => [(Reg.TRAIL_POSITION_ROW, a.epiRow), (Reg.TRAIL_POSITION_VALID, 1)]
    | none => [(Reg.TRAIL_POSITION_VALID, 0)])

/-- A freeze is counted on the tile's page and for the context that holds it. -/
def countFreeze (n : Nat) (s : State) : State :=
  let s := count (pageTile n) Reg.PREEMPT_LAST_COUNT 1 s
  if bindState s (pageTile n) = 1 ∨ bindState s (pageTile n) = 2
    then bump (pageWin (bindCtx s (pageTile n)) 3) Reg.CT_COPPICE_PREEMPTS 1 s else s

theorem freezeArray_draining {n : Nat} {s : State} (h : (tile s n).draining = true) : freezeArray n s =
    movePieces n .running .parked (setArrayState n 5 (modTile n (fun t => { t with draining := false })
      (countFreeze n (setFlds (pageTile n)
        (frozenPositions (tile (drainArray n s) n) ++ [(Reg.PREEMPT_LAST_CYCLES, freezeCycles (drainArray n s) n)]) (drainArray n s))))) :=
  if_neg (by simp [h])

theorem fld_countFreeze {n : Nat} {f : Field} (s : State) (hn : n < 64) (ho : f.off < 0x10000) (hl : f.lo < 64)
    (hc : f.off * 64 + f.lo ≠ Reg.PREEMPT_LAST_COUNT.off * 64 + Reg.PREEMPT_LAST_COUNT.lo) :
    fld (countFreeze n s) (pageTile n) f = fld s (pageTile n) f := by
  have hpage (k : Nat) : pageTile n ≠ pageWin k 3 := by simp only [pageTile, pageWin]; omega
  unfold countFreeze
  dsimp only
  split
  · rw [bump_eq, fld_setFld_page _ _ (hpage _) (by decide) ho (by decide) hl, fld_count_ne _ (fieldKey_ne hc)]
  · exact fld_count_ne _ (fieldKey_ne hc)

/-- The leading pass's position stands in its registers, whether a pass trails it or not. -/
theorem fld_frozenPositions_lead {n c : Nat} {a : ArrayPass} {t : TileSt} (s : State) (h : t.lead = some a) :
    fld (setFlds (pageTile n) (frozenPositions t ++ [(Reg.PREEMPT_LAST_CYCLES, c)]) s) (pageTile n) Reg.LEAD_POSITION_VALID = 1 ∧
    fld (setFlds (pageTile n) (frozenPositions t ++ [(Reg.PREEMPT_LAST_CYCLES, c)]) s) (pageTile n) Reg.LEAD_POSITION_M_ROW =
      a.mRow % 2 ^ Reg.LEAD_POSITION_M_ROW.width ∧
    fld (setFlds (pageTile n) (frozenPositions t ++ [(Reg.PREEMPT_LAST_CYCLES, c)]) s) (pageTile n) Reg.LEAD_POSITION_K_BLOCK =
      a.kBlock % 2 ^ Reg.LEAD_POSITION_K_BLOCK.width := by
  unfold frozenPositions
  rw [h]
  cases t.trail <;>
    simp (disch := decide) only [List.cons_append, List.nil_append, setFlds_cons, setFlds_nil, fld_setFld_field, fld_setFld_same] <;>
    decide +revert

/-- A frozen array stands with its leading pass's position in the registers. -/
theorem freezeArray_reads {n : Nat} {a : ArrayPass} {s : State} (hn : n < 64) (hd : (tile s n).draining = true)
    (hl : (tile s n).lead = some a) : arrayState (freezeArray n s) n = 5 ∧ (tile (freezeArray n s) n).draining = false ∧
    fld (freezeArray n s) (pageTile n) Reg.LEAD_POSITION_VALID = 1 ∧
    fld (freezeArray n s) (pageTile n) Reg.LEAD_POSITION_M_ROW = a.mRow % 2 ^ Reg.LEAD_POSITION_M_ROW.width ∧
    fld (freezeArray n s) (pageTile n) Reg.LEAD_POSITION_K_BLOCK = a.kBlock % 2 ^ Reg.LEAD_POSITION_K_BLOCK.width := by
  obtain ⟨u, v, acc, hdrained⟩ := tile_drainArray hd
  have hlead : (tile (drainArray n s) n).lead = some a := by rw [hdrained]; exact hl
  obtain ⟨hvalid, hrow, hblock⟩ := fld_frozenPositions_lead (n := n) (c := freezeCycles (drainArray n s) n) (drainArray n s) hlead
  have hkept {f : Field} (ho : f.off < 0x10000) (hlo : f.lo < 64)
      (hs : f.off * 64 + f.lo ≠ Reg.ARRAY_STATE_STATE.off * 64 + Reg.ARRAY_STATE_STATE.lo)
      (hc : f.off * 64 + f.lo ≠ Reg.PREEMPT_LAST_COUNT.off * 64 + Reg.PREEMPT_LAST_COUNT.lo) :
      fld (freezeArray n s) (pageTile n) f = fld (setFlds (pageTile n)
        (frozenPositions (tile (drainArray n s) n) ++ [(Reg.PREEMPT_LAST_CYCLES, freezeCycles (drainArray n s) n)]) (drainArray n s))
          (pageTile n) f := by
    rw [freezeArray_draining hd, fld_congr (movePieces_regs ..), setArrayState, fld_setFld_field _ _ hs, fld_congr (modTile_regs ..),
      fld_countFreeze _ hn ho hlo hc]
  refine ⟨?_, ?_, ?_, ?_, ?_⟩
  · rw [freezeArray_draining hd, arrayState_congr (movePieces_regs ..), arrayState_setArrayState _ _ (by decide)]
  · rw [freezeArray_draining hd, tile_congr (movePieces_tiles ..), tile_congr (setArrayState_tiles ..), tile_modTile_same]
  · exact (hkept (by decide) (by decide) (by decide) (by decide)).trans hvalid
  · exact (hkept (by decide) (by decide) (by decide) (by decide)).trans hrow
  · exact (hkept (by decide) (by decide) (by decide) (by decide)).trans hblock

/-! Back to work (R100) -/

/-- The tile as it goes on: both banks must be loaded again. -/
def TileSt.goOn (t : TileSt) : TileSt :=
  { t with bank0 := { t.bank0 with valid := false }, bank1 := { t.bank1 with valid := false }, parkValid := false }

theorem TileSt.bank_goOn (t : TileSt) : t.goOn.bank.valid = false := by
  by_cases h : t.bankInUse = 0 <;> simp [TileSt.bank, TileSt.goOn, h]

/-- The array as it stands when it goes on, before it shows its passes. -/
def unfrozen (n : Nat) (s : State) : State :=
  movePieces n .parked .running (setFlds (pageTile n) [(Reg.LEAD_POSITION_VALID, 0), (Reg.TRAIL_POSITION_VALID, 0)]
    (setArrayState n 1 (modTile n (fun t => { t with
      bank0 := { t.bank0 with valid := false }, bank1 := { t.bank1 with valid := false }, parkValid := false }) s)))

theorem continueArray_eq (n : Nat) (s : State) : continueArray n s = showArray n (unfrozen n s) := rfl

theorem tile_unfrozen (n : Nat) (s : State) : tile (unfrozen n s) n = (tile s n).goOn := by
  rw [unfrozen, tile_congr (movePieces_tiles ..), tile_congr (setFlds_tiles ..), tile_congr (setArrayState_tiles ..), tile_modTile_same]
  rfl

theorem arrayState_unfrozen (n : Nat) (s : State) : arrayState (unfrozen n s) n = 1 := by
  rw [unfrozen, arrayState_congr (movePieces_regs ..)]
  simp (disch := decide) only [setFlds_cons, setFlds_nil, arrayState_setFld, arrayState_setArrayState]

theorem leadValid_unfrozen (n : Nat) (s : State) : fld (unfrozen n s) (pageTile n) Reg.LEAD_POSITION_VALID = 0 := by
  rw [unfrozen, fld_congr (movePieces_regs ..)]
  simp (disch := decide) [fld_setFld_field]

theorem tile_continueArray (n : Nat) (s : State) : tile (continueArray n s) n = (tile s n).goOn := by
  rw [continueArray_eq, tile_showArray, tile_unfrozen]

theorem leadValid_continueArray (n : Nat) (s : State) : fld (continueArray n s) (pageTile n) Reg.LEAD_POSITION_VALID = 0 := by
  rw [continueArray_eq, fld_showArray_ne _ _ (by decide) (by decide) (by decide), leadValid_unfrozen]

theorem arrayState_continueArray (n : Nat) (s : State) :
    arrayState (continueArray n s) n = if (tile s n).lead.isNone && (tile s n).trail.isNone then 1 else 3 := by
  rw [continueArray_eq, arrayState_showArray _ _ (by simp [arrayWorks, arrayState_unfrozen]), tile_unfrozen]
  rfl

section
variable {n : Nat} {s : State}

/-- A tile bound to a running context passes the checks of a resumption. -/
theorem resumeGoes (hn : n < 64) (hb : bindState s (pageTile n) = 1) (hc : ctxState s (bindCtx s (pageTile n)) = 2) :
    ¬ (64 ≤ n ∨ bindState s (pageTile n) ≠ 1 ∨ ctxState s (bindCtx s (pageTile n)) ≠ 2) := by
  simp [hb, hc]; omega

theorem arrayResume_frozen (hn : n < 64) (hb : bindState s (pageTile n) = 1) (hc : ctxState s (bindCtx s (pageTile n)) = 2)
    (ha : arrayState s n = 5) : exec (.arrayResume n none) s = .next (continueArray n s) :=
  congrArg Host.Outcome.next ((if_neg (resumeGoes hn hb hc)).trans (if_pos ha))

/-- What an image restores of the tile. -/
def TileSt.restore (t i : TileSt) : TileSt :=
  { t with lead := i.lead, trail := i.trail, acc := i.acc, hist := i.hist, nonfinite := i.nonfinite, saturated := i.saturated,
           gated := i.gated, products := i.products, leadGated := i.leadGated, leadProducts := i.leadProducts }

/-- An idle tile of the image's context takes it up (R100; the image is the tile's saved state, log entry 64). -/
theorem arrayResume_image {slot : Nat} {i : ParkImg} (hn : n < 64) (hb : bindState s (pageTile n) = 1)
    (hc : ctxState s (bindCtx s (pageTile n)) = 2)
    (hi : (ctx s (bindCtx s (pageTile n))).parks.find? (fun i => i.slot == slot) = some i) (hv : i.valid = true)
    (ha : arrayState s n ≤ 1) (hl : (tile s n).lead = none) (ht : (tile s n).trail = none) (hw : i.tile.width ≤ tileColumns s n) :
    ∃ t, exec (.arrayResume n (some slot)) s = .next t ∧ tile t n = ((tile s n).restore i.tile).goOn := by
  refine ⟨restoreImage (bindCtx s (pageTile n)) slot n s, congrArg Host.Outcome.next (if_neg (resumeGoes hn hb hc)), ?_⟩
  simp only [restoreImage, hi, hv, Bool.not_true, Bool.false_eq_true, if_false]
  rw [if_pos ⟨hb, trivial, ha, by simp [hl], by simp [ht], hw⟩, tile_continueArray]
  exact congrArg TileSt.goOn (tile_modTile_same n (fun t => t.restore i.tile) _)

end

end Sys2Proof.Machine
end

section
/-! Faults and self-tests of a tile (R101 to R105, R79): what a stopped array, a replacement, a retirement and the steps of a self-test
leave of a tile, and the settled statement about them and about pre-emption. -/

namespace Sys2Proof.Machine

/-! Operations on another tile -/

/-- A step leaves tile n as it is, and every register field of its page. -/
def leavesTile (n : Nat) (s t : State) : Prop :=
  tile t n = tile s n ∧ ∀ f : Field, f.off < 0x10000 → f.lo < 64 → fld t (pageTile n) f = fld s (pageTile n) f

section
variable {n m : Nat} {s t u : State}

theorem leavesTile.trans (hst : leavesTile n s t) (htu : leavesTile n t u) : leavesTile n s u :=
  ⟨htu.1.trans hst.1, fun f ho hl => (htu.2 f ho hl).trans (hst.2 f ho hl)⟩

theorem leavesTile_of_parts (htiles : t.tiles = s.tiles) (hregs : t.regs = s.regs) : leavesTile n s t :=
  ⟨tile_congr htiles n, fun _ _ _ => fld_congr hregs ..⟩

theorem leavesTile_setFld {p : Nat} {g : Field} (v : Nat) (s : State) (hp : pageTile n ≠ p) (ho : g.off < 0x10000) (hl : g.lo < 64) :
    leavesTile n s (setFld p g v s) :=
  ⟨rfl, fun _ ho' hl' => fld_setFld_page v s hp ho ho' hl hl'⟩

theorem leavesTile_modTile (f : TileSt → TileSt) (s : State) (h : m ≠ n) : leavesTile n s (modTile m f s) :=
  ⟨tile_modTile_ne f s (Ne.symm h), fun _ _ _ => rfl⟩

theorem pageTile_ne (h : m ≠ n) : pageTile n ≠ pageTile m := by simp only [pageTile]; omega

/-- A domain that comes on for one tile is nothing to another. -/
theorem leavesTile_tileWake (s : State) (h : m ≠ n) : leavesTile n s (tileWake m s) := by
  have hset (g : Field) (v : Nat) (u : State) (ho : g.off < 0x10000) (hl : g.lo < 64) :
      leavesTile n u (setFld (pageTile m) g v u) := leavesTile_setFld v u (pageTile_ne h) ho hl
  have hon (f : TileSt → TileSt) : leavesTile n s (modTile m f (setDomain m true s)) :=
    .trans (leavesTile_of_parts rfl rfl) (leavesTile_modTile f _ h)
  unfold tileWake tileOn bumpGeneration
  split
  · exact leavesTile_of_parts rfl rfl
  · dsimp only
    split
    · exact ((hon _).trans (hset _ _ _ (by decide) (by decide))).trans (hset _ _ _ (by decide) (by decide))
    · exact (hon _).trans (hset _ _ _ (by decide) (by decide))

/-- A tile that is bound leaves the others as they are. -/
theorem leavesTile_bindTile (k : Nat) (s : State) (hn : n < 64) (h : m ≠ n) : leavesTile n s (bindTile k m s) := by
  have hwin : pageTile n ≠ pageWin k 3 := by simp only [pageTile, pageWin]; omega
  have hset (g : Field) (v : Nat) (u : State) (ho : g.off < 0x10000) (hl : g.lo < 64) :
      leavesTile n u (setFld (pageTile m) g v u) := leavesTile_setFld v u (pageTile_ne h) ho hl
  have hbound (u : State) : leavesTile n u (bindPage (pageTile m) k u) :=
    ((hset Reg.BINDING_CTX _ _ (by decide) (by decide)).trans (hset Reg.BINDING_STATE _ _ (by decide) (by decide))).trans
      (hset Reg.BINDING_SEALED _ _ (by decide) (by decide))
  have hsetting (u : State) : leavesTile n u (tileSetting m (isSealed s k) u) := leavesTile_modTile _ u h
  unfold bindTile
  dsimp only
  exact ((((leavesTile_tileWake s h).trans (hsetting _)).trans (hbound _)).trans
    (leavesTile_setFld _ _ hwin (by decide) (by decide))).trans
      (leavesTile_of_parts (by rw [bindEvent, modCtx_tiles]; rfl) (bindEvent_regs ..))

/-- A replacement is found among the FREE tiles: a tile that is not FREE stays as it is (R493). -/
theorem leavesTile_autoReplace (k lost : Nat) (hn : n < 64) (hb : bindState s (pageTile n) ≠ 0) :
    leavesTile n s (autoReplace k lost s) := by
  have hctx : pageTile n ≠ pageCtx k := by simp only [pageTile, pageCtx]; omega
  unfold autoReplace
  split
  · exact leavesTile_of_parts rfl rfl
  · split
    next m hm =>
      have hfree := List.find?_some hm
      simp only [Bool.and_eq_true, beq_iff_eq] at hfree
      obtain ⟨⟨⟨hzero, -⟩, -⟩, -⟩ := hfree
      exact leavesTile_bindTile k s hn fun hmn => hb (hmn ▸ hzero)
    next => exact leavesTile_setFld _ s hctx (by decide) (by decide)

end

/-! A fault (R101, R103) -/

theorem tile_clearArray (n st : Nat) (s : State) :
    (tile (clearArray n st s) n).lead = none ∧ (tile (clearArray n st s) n).flight = [] := by
  rw [clearArray, tile_congr (setFlds_tiles ..), tile_modTile_same]
  exact ⟨rfl, rfl⟩

theorem tileCoppice_congr {s t : State} (h : t.ctxs = s.ctxs) (n : Nat) : tileCoppice t n = tileCoppice s n := by
  have hctx (k : Nat) : ctx t k = ctx s k := by simp only [ctx, h]
  simp only [tileCoppice, hctx]

/-- The fault is counted, its source raised, the array stopped and the record sent. -/
def faultStopped (n check detail : Nat) (s : State) : State :=
  raiseErr { page := pageTile n, ctx := 0, sev := 2, cls := if check < 2 then 0x010 else 0x011, detail := detail }
    (failExecutor n true (clearArray n 6 (if check < 2 then raiseSrc (pageTile n) 0 (count (pageTile n) Reg.CHECK_COUNTS_RESIDUE 1 s)
      else raiseSrc (pageTile n) 1 (count (pageTile n) Reg.CHECK_COUNTS_SRAM_UNCORRECTED 1 s))))

theorem faultStopped_ctxs (n check detail : Nat) (s : State) : (faultStopped n check detail s).ctxs = s.ctxs := by
  have hfail (u : State) : (failExecutor n true u).ctxs = u.ctxs := rfl
  simp only [faultStopped, raiseErr_ctxs, hfail, clearArray, setFlds_ctxs, modTile_ctxs]
  split <;> simp

theorem faultStopped_reads {n : Nat} (check detail : Nat) (s : State) (hn : n < 64) :
    arrayState (faultStopped n check detail s) n = 6 ∧ (tile (faultStopped n check detail s) n).lead = none ∧
    (tile (faultStopped n check detail s) n).flight = [] := by
  have htile (u : State) : tile (failExecutor n true u) n = tile u n := rfl
  constructor
  · rw [arrayState, faultStopped, fld_raiseErr_own _ _ (by simp only [pageTile]; omega) (by decide) (by decide) (by decide),
      fld_congr (failExecutor_regs ..)]
    exact arrayState_clearArray n _ (by decide)
  · rw [faultStopped, tile_congr (raiseErr_tiles ..), htile]
    exact tile_clearArray n 6 _

/-- A fault on a tile that no coppice holds: its page is FAULTED, and a context that held it may get another. -/
theorem tileFault_free {n : Nat} (check detail : Nat) {s : State} (h : tileCoppice s n = none) : tileFault n check detail s =
    if bindState s (pageTile n) == 1
      then autoReplace (bindCtx s (pageTile n)) n
        (ctxMsg (bindCtx s (pageTile n)) 2 (unbindPage (pageTile n) 5 (faultStopped n check detail s)))
      else unbindPage (pageTile n) 5 (faultStopped n check detail s) := by
  rw [← tileCoppice_congr (faultStopped_ctxs n check detail s)] at h
  unfold tileFault
  dsimp only
  split
  next o ho => exact absurd (h.symm.trans ho) nofun
  next => rfl

theorem tileFault_reads {n : Nat} (check detail : Nat) {s : State} (hn : n < 64) (h : tileCoppice s n = none) :
    bindState (tileFault n check detail s) (pageTile n) = 5 ∧ arrayState (tileFault n check detail s) n = 6 ∧
    (tile (tileFault n check detail s) n).lead = none ∧ (tile (tileFault n check detail s) n).flight = [] := by
  obtain ⟨hstate, hlead, hflight⟩ := faultStopped_reads check detail s hn
  have hunbound : bindState (unbindPage (pageTile n) 5 (faultStopped n check detail s)) (pageTile n) = 5 ∧
      arrayState (unbindPage (pageTile n) 5 (faultStopped n check detail s)) n = 6 ∧
      tile (unbindPage (pageTile n) 5 (faultStopped n check detail s)) n = tile (faultStopped n check detail s) n :=
    ⟨bindState_unbindPage _ _ (by decide), (arrayState_unbindPage ..).trans hstate, tile_congr (unbindPage_tiles ..) n⟩
  rw [tileFault_free check detail h]
  generalize unbindPage (pageTile n) 5 (faultStopped n check detail s) = u at hunbound ⊢
  obtain ⟨hbind, harray, htile⟩ := hunbound
  rw [← htile] at hlead hflight
  split
  · have hmsg : leavesTile n u (ctxMsg (bindCtx s (pageTile n)) 2 u) := leavesTile_of_parts (ctxMsg_tiles ..) (ctxMsg_regs ..)
    have hfaulted : bindState (ctxMsg (bindCtx s (pageTile n)) 2 u) (pageTile n) ≠ 0 := by
      rw [bindState, hmsg.2 _ (by decide) (by decide)]
      exact ne_of_eq_of_ne hbind (by decide)
    obtain ⟨hsame, hfld⟩ := hmsg.trans (leavesTile_autoReplace (bindCtx s (pageTile n)) n hn hfaulted)
    rw [bindState, arrayState, hfld _ (by decide) (by decide), hfld _ (by decide) (by decide), hsame]
    exact ⟨hbind, harray, hlead, hflight⟩
  · exact ⟨hbind, harray, hlead, hflight⟩

/-! After a fault (R102) -/

theorem retireTile_reads (n : Nat) (s : State) : bindState (retireTile n s) (pageTile n) = 6 ∧ arrayState (retireTile n s) n = 0 ∧
    fld (retireTile n s) (pageTile n) Reg.TILE_CAP_ARRAY_PRESENT = 0 := by
  have hpage : pageTile n ≠ 0 := by simp only [pageTile]; omega
  have hkept {f : Field} (ho : f.off < 0x10000) (hl : f.lo < 64)
      (hne : f.off * 64 + f.lo ≠ Reg.TILE_CAP_ARRAY_PRESENT.off * 64 + Reg.TILE_CAP_ARRAY_PRESENT.lo) :
      fld (retireTile n s) (pageTile n) f = fld (unbindPage (pageTile n) 6 (clearArray n 0 (setDomain n false s))) (pageTile n) f := by
    rw [retireTile, fld_setFld_field _ _ hne, fld_setFld_page _ _ hpage (by decide) ho (by decide) hl]
  refine ⟨?_, ?_, fld_setFld_same ..⟩
  · exact (hkept (by decide) (by decide) (by decide)).trans (bindState_unbindPage _ _ (by decide))
  · exact (hkept (by decide) (by decide) (by decide)).trans
      ((arrayState_unbindPage ..).trans (arrayState_clearArray n _ (by decide)))

/-- Where a self-test comes from is noted on the tile alone. -/
theorem startSelfTest_regs (n : Nat) (fromFault : Bool) (s : State) :
    (startSelfTest n fromFault s).regs = (startSelfTest n false s).regs := rfl

theorem startSelfTest_states (n : Nat) (fromFault : Bool) (s : State) :
    bindState (startSelfTest n fromFault s) (pageTile n) = 4 ∧ arrayState (startSelfTest n fromFault s) n = 7 := by
  obtain ⟨hbind, harray, -⟩ := startSelfTest_reads n s
  exact ⟨(fld_congr (startSelfTest_regs ..) _ _).trans hbind, (fld_congr (startSelfTest_regs ..) _ _).trans harray⟩

theorem startSelfTest_fromFault (n : Nat) (fromFault : Bool) (s : State) :
    (tile (startSelfTest n fromFault s) n).testFromFault = fromFault := by
  rw [startSelfTest, tile_modTile_same]

theorem tileFaultAsh_faulted {n : Nat} {s : State} (hn : n < 64) (hb : bindState s (pageTile n) = 5) :
    exec (.tileFaultAsh n) s = .next (afterFault n s) := congrArg Host.Outcome.next (if_pos ⟨hn, hb⟩)

/-! Corrected errors (R105) -/

/-- The block sources are the low 62 bits of `IRQ_STATUS`. -/
theorem tst_irqWord (s : State) (p : Nat) {i : Nat} (hi : i < 62) : tst (irqWord s p) i = tst (fld s p Reg.IRQ_STATUS_BLOCK) i := by
  have hmod : irqWord s p % 2 ^ 62 = fld s p Reg.IRQ_STATUS_BLOCK % 2 ^ 62 := by
    simp only [irqWord]; omega
  rw [← tst_mod_two_pow _ hi, hmod, tst_mod_two_pow _ hi]

/-- A source stands where it stood before or is among those raised. -/
theorem source_raiseIrq (p mask : Nat) (s : State) {i : Nat} (hi : i < 62) :
    tst (fld (raiseIrq p mask s) p Reg.IRQ_STATUS_BLOCK) i = (tst (fld s p Reg.IRQ_STATUS_BLOCK) i || tst mask i) := by
  rw [← tst_irqWord _ _ hi, irqWord_raiseIrq, tst_mod_two_pow _ (by omega), ← tst_irqWord s p hi]
  simp [tst_eq_testBit]

theorem source_raiseSrc (p : Nat) (s : State) {i : Nat} (hi : i < 62) : tst (fld (raiseSrc p i s) p Reg.IRQ_STATUS_BLOCK) i = true := by
  rw [raiseSrc, source_raiseIrq p _ s hi]
  simp [tst_eq_testBit]

/-- An error's record raises `ERR` and leaves the sources of its page. -/
theorem source_capture (r : ErrRec) (s : State) {i : Nat} (hi : i < 62) :
    tst (fld (capture r s) r.page Reg.IRQ_STATUS_BLOCK) i = tst (fld s r.page Reg.IRQ_STATUS_BLOCK) i := by
  have herr : tst (2 ^ 63) i = false := by
    rw [tst_eq_testBit, Nat.testBit_two_pow]
    simp; omega
  unfold capture
  dsimp only
  rw [source_raiseIrq _ _ _ hi, herr, Bool.or_false]
  split <;> simp (disch := decide) only [bump_eq, setFlds_cons, setFlds_nil, fld_setFld_field]

theorem source_raiseErr {r : ErrRec} (s : State) {i : Nat} (hctx : r.ctx = 0) (hi : i < 62) :
    tst (fld (raiseErr r s) r.page Reg.IRQ_STATUS_BLOCK) i = tst (fld s r.page Reg.IRQ_STATUS_BLOCK) i := by
  have hnone : ¬ (0 < (stamp r s).ctx ∧ (stamp r s).ctx < 0x40) := by simp [stamp, hctx]
  have hpage : (stamp r s).page = r.page := rfl
  unfold raiseErr
  split
  · rw [bump_eq, fld_setFld_field _ _ (by decide)]
  · dsimp only
    rw [if_neg hnone]
    have hcapture (v : State) (hv : v.regs = s.regs) : tst (fld (capture (stamp r s) v) r.page Reg.IRQ_STATUS_BLOCK) i =
        tst (fld s r.page Reg.IRQ_STATUS_BLOCK) i := by
      rw [← hpage, source_capture _ _ hi, fld_congr hv]
    split <;> exact hcapture _ rfl

/-- The record of a corrected word: severity CORRECTED, charged to no tenant. -/
def correctedRecord (n : Nat) (accumulator : Bool) (accRow word : Nat) : ErrRec :=
  { page := pageTile n, ctx := 0, sev := 0, cls := 0x012,
    detail := arrayDetail (if accumulator then 3 else 2) 0 0 (if accumulator then accRow else 0) word }

theorem sramCorrected_eq {n : Nat} (accumulator : Bool) (accRow word : Nat) (s : State) (hn : n < 64) :
    exec (.sramCorrected n accumulator accRow word) s = .next (raiseErr (correctedRecord n accumulator accRow word)
      (raiseSrc (pageTile n) 2 (count (pageTile n) Reg.CHECK_COUNTS_SRAM_CORRECTED 1 s))) :=
  congrArg Host.Outcome.next (if_neg (by omega))

/-! Self-tests (R105) -/

theorem tileSelfTest_starts {n : Nat} (force : Bool) {s : State} (hn : n < 64) (hop : pageOp s (pageTile n) = none)
    (hb : bindState s (pageTile n) = 0) : exec (.tileSelfTest n force) s = .next (startSelfTest n false s) := by
  refine congrArg Host.Outcome.next ((if_neg (by omega)).trans ?_)
  simp [tileSelfTest, startFate, hop, hb]

theorem tileSelfTest_waits {n : Nat} {s : State} (hn : n < 64) (hop : pageOp s (pageTile n) = none)
    (hb : bindState s (pageTile n) = 1) : exec (.tileSelfTest n false) s = .next (opQueue (pageTile n) 2 0 s) := by
  refine congrArg Host.Outcome.next ((if_neg (by omega)).trans ?_)
  simp [tileSelfTest, startFate, hop, hb]

theorem tileSelfTest_retired {n : Nat} (force : Bool) {s : State} (hn : n < 64) (hb : bindState s (pageTile n) = 6) :
    exec (.tileSelfTest n force) s = .next (opRefused (pageTile n) s) :=
  congrArg Host.Outcome.next ((if_neg (by omega)).trans (if_pos hb))

theorem selfTestEnd_tested {n : Nat} (passed : Bool) {s : State} (hn : n < 64) (hb : bindState s (pageTile n) = 4) :
    exec (.selfTestEnd n passed) s = .next (endSelfTest n passed s) := congrArg Host.Outcome.next (if_pos ⟨hn, hb⟩)

/-- A self-test that passed ends with the tile FREE and its array idle; one that failed ends with the tile retired. -/
theorem endSelfTest_eq (n : Nat) (passed : Bool) (s : State) : ∃ u, endSelfTest n passed s =
    opEnd (pageTile n) (if passed then 3 else 4)
      (if passed then setArrayState n 1 (unbindPage (pageTile n) 0 u) else retireTile n u) := by
  cases passed with
  | true => exact ⟨_, rfl⟩
  | false => exact ⟨_, rfl⟩

theorem opEnd_percent {p result : Nat} (s : State) (h : result ≠ 5) : fld (opEnd p result s) p Reg.PROGRESS_PERCENT = 100 := by
  unfold opEnd
  dsimp only
  rw [if_neg h, fld_raiseIrq_ne _ (fieldKey_ne (by decide)) (fieldKey_ne (by decide)) (fieldKey_ne (by decide)), fld_setFld_same]
  rfl

/-- What the end of a self-test shows of the tile's page (R105). -/
theorem endSelfTest_reads (n : Nat) (passed : Bool) (s : State) :
    bindState (endSelfTest n passed s) (pageTile n) = (if passed then 0 else 6) ∧
    arrayState (endSelfTest n passed s) n = (if passed then 1 else 0) ∧
    fld (endSelfTest n passed s) (pageTile n) Reg.OP_CONTROL_RESULT = (if passed then 3 else 4) ∧
    fld (endSelfTest n passed s) (pageTile n) Reg.PROGRESS_PERCENT = 100 ∧ pageOp (endSelfTest n passed s) (pageTile n) = none := by
  obtain ⟨u, hu⟩ := endSelfTest_eq n passed s
  have hresult : (if passed then 3 else 4) < 8 ∧ (if passed then 3 else 4) ≠ 5 := by cases passed <;> decide
  have hstates (v : State) : bindState (opEnd (pageTile n) (if passed then 3 else 4) v) (pageTile n) = bindState v (pageTile n) ∧
      arrayState (opEnd (pageTile n) (if passed then 3 else 4) v) n = arrayState v n :=
    ⟨bindState_opEnd .., fld_opEnd_own v (by decide) (by decide) (by decide)⟩
  rw [hu, (hstates _).1, (hstates _).2]
  refine ⟨?_, ?_, opEnd_result _ _ _ hresult.1, opEnd_percent _ hresult.2, opEnd_pageOp ..⟩
  · cases passed with
    | true => exact (bindState_setFld _ _ (by decide)).trans (bindState_unbindPage _ _ (by decide))
    | false => exact (retireTile_reads n u).1
  · cases passed with
    | true => exact arrayState_setArrayState n _ (by decide)
    | false => exact (retireTile_reads n u).2.1

/-- Settles O12, command by command: each comes to one operation on the tile (drain, freeze, going on, fault stop, retirement,
self-test), whose reads are those of the lemmas above. -/
theorem tilePreemptionAndFaults : Obligations.TilePreemptionAndFaults := by
  unfold Obligations.TilePreemptionAndFaults
  refine ⟨?request, ?drain, ?freeze, ?resume, ?image, ?fault, ?ash, ?retired, ?corrected, ?starts, ?waits, ?refused, ?ends⟩
  case request =>
    intro n s hn hw
    refine ⟨_, congrArg Host.Outcome.next ((if_neg (by omega)).trans (preempt_working hw)), arrayState_setArrayState n _ (by decide),
      ?_, (sameFields_setFld _ _ _ _).congr_regs rfl rfl⟩
    rw [tile_congr (setArrayState_tiles ..), tile_modTile_same]
  case drain =>
    intro n s hn hd
    obtain ⟨u, v, acc, htile⟩ := tile_drainArray hd
    refine ⟨_, congrArg Host.Outcome.next (if_neg (by omega)), ?_⟩
    rw [htile]
    exact ⟨rfl, rfl, rfl, rfl, drainArray_regs n s⟩
  case freeze => exact fun n a s hn hd hl => ⟨_, congrArg Host.Outcome.next (if_neg (by omega)), freezeArray_reads hn hd hl⟩
  case resume =>
    intro n s hn hb hc ha
    refine ⟨_, arrayResume_frozen hn hb hc ha, leadValid_continueArray n s, ?_, ?_, arrayState_continueArray n s⟩
    · rw [tile_continueArray]
      rfl
    · rw [tile_continueArray, TileSt.bank_goOn]
  case image =>
    intro n slot i s hn hb hc hi hv ha hl ht hw
    obtain ⟨t, hexec, htile⟩ := arrayResume_image hn hb hc hi hv ha hl ht hw
    refine ⟨t, hexec, ?_⟩
    rw [htile]
    exact ⟨rfl, rfl, rfl⟩
  case fault =>
    exact fun n check row col accRow word s hn hcheck h0 h6 hcop =>
      ⟨_, congrArg Host.Outcome.next (if_neg (by omega)), tileFault_reads check _ hn hcop⟩
  case ash =>
    intro n s hn hb hr
    refine ⟨_, (tileFaultAsh_faulted hn hb).trans (congrArg Host.Outcome.next (if_neg (by simp [hr]))), ?_⟩
    obtain ⟨hbind, harray⟩ := startSelfTest_states n true
      (setTile n { tile s n with bank0 := {}, bank1 := {}, acc := [] } (unbindPage (pageTile n) 3 s))
    exact ⟨hbind, harray, startSelfTest_fromFault ..⟩
  case retired =>
    intro n s hn hb hr hhour
    obtain ⟨hbind, -, hpresent⟩ := retireTile_reads n s
    exact ⟨_, (tileFaultAsh_faulted hn hb).trans (congrArg Host.Outcome.next (if_pos ⟨hr, hhour⟩)), hbind, hpresent⟩
  case corrected =>
    intro n accRow word accumulator s hn hfreeze
    refine ⟨_, sramCorrected_eq accumulator accRow word s hn, ?_, ?_, ?_⟩
    · exact (source_raiseErr (r := correctedRecord n accumulator accRow word) _ rfl (by decide)).trans (source_raiseSrc _ _ (by decide))
    · rw [fld_raiseErr_own _ _ (by simp only [pageTile]; omega) (by decide) (by decide) (by decide), raiseSrc,
        fld_raiseIrq_own _ (by decide) (by decide) (by decide), count_running _ _ 1 s hfreeze]
    · exact (sameFields_count _ Reg.CHECK_COUNTS_SRAM_CORRECTED 1 s).append
        (((sameFields_raiseIrq (pageTile n) (2 ^ 2) _).mono (List.subset_append_left _ _)).trans
          (sameFields_raiseErr (r := correctedRecord n accumulator accRow word) _ rfl))
  case starts =>
    intro n force s hn hop hb
    obtain ⟨hbind, harray⟩ := startSelfTest_states n false s
    exact ⟨_, tileSelfTest_starts force hn hop hb, hbind, harray, startSelfTest_result n s⟩
  case waits => exact fun n s hn hop hb => tileSelfTest_waits hn hop hb
  case refused => exact fun n force s hn hb => tileSelfTest_retired force hn hb
  case ends => exact fun n passed s hn hb => ⟨_, selfTestEnd_tested passed hn hb, endSelfTest_reads n passed s⟩

end Sys2Proof.Machine
end

section
/-! What a step leaves of the hub's own parts (R128, R203, R397, R427): the reading that a frame is stated by, and the common
operations on the state, none of which changes it. -/

namespace Sys2Proof.Machine

/-- The parts of the hub that have a frame of their own. -/
inductive HubPart where
  | tags | time | hbm | peats | heart | cores

/-- What a state holds in its parts, apart from the parts of `ps`. -/
def apart (ps : HubPart → Bool) (s : State) :
    Option (Tab DraughtTag) × Option TimeSt × Option Hbm × Option (Tab PeatSt) × Option Heart × Option CoresSt :=
  (bif ps .tags then none else some s.tags, bif ps .time then none else some s.time, bif ps .hbm then none else some s.hbm,
    bif ps .peats then none else some s.peats, bif ps .heart then none else some s.heart, bif ps .cores then none else some s.cores)

/-- The state that a command answers holds what `s` holds, apart from the parts of `ps`. -/
def KeepsApart (ps : HubPart → Bool) (s : State) (r : Res) : Prop := ∀ t, r = .next t → apart ps t = apart ps s

variable {ps : HubPart → Bool}

@[simp] theorem apart_update (s : State) (pending out fresh regs mem cache torus errs ops shadows tiles passes nextPass xlate coh
    regul ctxs msix sites plr kiln ember host power) :
    apart ps (.mk pending out fresh regs mem cache torus errs ops shadows tiles passes nextPass s.tags s.hbm xlate coh regul ctxs msix
      s.time sites s.heart s.cores plr kiln ember host s.peats power) = apart ps s := (rfl)

@[simp] theorem apart_ite (c : Prop) [Decidable c] (s t : State) :
    apart ps (if c then s else t) = if c then apart ps s else apart ps t := apply_ite _ _ _ _

@[simp] theorem keepsApart_next (s t : State) : KeepsApart ps s (.next t) ↔ apart ps t = apart ps s :=
  ⟨fun h => h t rfl, fun h _ ht => by cases ht; exact h⟩

@[simp] theorem keepsApart_fault (s : State) (f : Fault) : KeepsApart ps s (.fault f) := fun _ ht => nomatch ht
@[simp] theorem keepsApart_refused (s : State) (f : Refusal) : KeepsApart ps s (.refused f) := fun _ ht => nomatch ht

@[simp] theorem keepsApart_ite (c : Prop) [Decidable c] (s : State) (a b : Res) :
    KeepsApart ps s (if c then a else b) ↔ (c → KeepsApart ps s a) ∧ (¬c → KeepsApart ps s b) := by
  split <;> simp_all

@[simp] theorem foldl_apart {α : Type} {g : State → α → State} (hg : ∀ s a, apart ps (g s a) = apart ps s) (l : List α) (s : State) :
    apart ps (l.foldl g s) = apart ps s :=
  foldl_keeps (apart ps) hg l s

theorem foldl_pair_apart {α β : Type} {g : State × β → α → State × β} (hg : ∀ r a, apart ps (g r a).1 = apart ps r.1) (l : List α)
    (r : State × β) : apart ps (l.foldl g r).1 = apart ps r.1 := by
  induction l generalizing r with
  | nil => rfl
  | cons a l ih => rw [List.foldl_cons, ih, hg]

@[simp] theorem apart_update_tags [h : Fact (ps .tags = true)] (s : State) (pending out fresh regs mem cache torus errs ops shadows
    tiles passes nextPass tags xlate coh regul ctxs msix sites plr kiln ember host power) :
    apart ps (.mk pending out fresh regs mem cache torus errs ops shadows tiles passes nextPass tags s.hbm xlate coh regul ctxs msix
      s.time sites s.heart s.cores plr kiln ember host s.peats power) = apart ps s := by simp [apart, h.out]

@[simp] theorem apart_update_time [h : Fact (ps .time = true)] (s : State) (pending out fresh regs mem cache torus errs ops shadows
    tiles passes nextPass xlate coh regul ctxs msix time sites plr kiln ember host power) :
    apart ps (.mk pending out fresh regs mem cache torus errs ops shadows tiles passes nextPass s.tags s.hbm xlate coh regul ctxs msix
      time sites s.heart s.cores plr kiln ember host s.peats power) = apart ps s := by simp [apart, h.out]

@[simp] theorem apart_update_hbm [h : Fact (ps .hbm = true)] (s : State) (pending out fresh regs mem cache torus errs ops shadows
    tiles passes nextPass hbm xlate coh regul ctxs msix sites plr kiln ember host power) :
    apart ps (.mk pending out fresh regs mem cache torus errs ops shadows tiles passes nextPass s.tags hbm xlate coh regul ctxs msix
      s.time sites s.heart s.cores plr kiln ember host s.peats power) = apart ps s := by simp [apart, h.out]

@[simp] theorem apart_update_peats [h : Fact (ps .peats = true)] (s : State) (pending out fresh regs mem cache torus errs ops shadows
    tiles passes nextPass xlate coh regul ctxs msix sites plr kiln ember host peats power) :
    apart ps (.mk pending out fresh regs mem cache torus errs ops shadows tiles passes nextPass s.tags s.hbm xlate coh regul ctxs msix
      s.time sites s.heart s.cores plr kiln ember host peats power) = apart ps s := by simp [apart, h.out]

@[simp] theorem apart_update_heart [h : Fact (ps .heart = true)] (s : State) (pending out fresh regs mem cache torus errs ops shadows
    tiles passes nextPass xlate coh regul ctxs msix sites heart plr kiln ember host power) :
    apart ps (.mk pending out fresh regs mem cache torus errs ops shadows tiles passes nextPass s.tags s.hbm xlate coh regul ctxs msix
      s.time sites heart s.cores plr kiln ember host s.peats power) = apart ps s := by simp [apart, h.out]

@[simp] theorem apart_update_cores [h : Fact (ps .cores = true)] (s : State) (pending out fresh regs mem cache torus errs ops shadows
    tiles passes nextPass xlate coh regul ctxs msix sites cores plr kiln ember host power) :
    apart ps (.mk pending out fresh regs mem cache torus errs ops shadows tiles passes nextPass s.tags s.hbm xlate coh regul ctxs msix
      s.time sites s.heart cores plr kiln ember host s.peats power) = apart ps s := by simp [apart, h.out]

/-- The state that an access of a remote holder leaves (R397). -/
def RemoteFate.state : RemoteFate → State
  | .answer _ _ s => s
  | .stalled s => s

theorem pastAccess_apart : PastAccess (apart ps) where
  bytes _ _ _ _ := rfl
  out _ _ := rfl
  regs _ _ := rfl
  fresh _ _ := rfl
  holders _ _ := rfl
  walks _ _ := rfl

/-! The common operations -/

variable (p v n fn k i a percent position op arg : Nat) (f : Field) (b : Bool) (r : ErrRec) (h : Header) (units : List Unit256)
  (plane : Plane) (s : State)

@[simp] theorem setFld_apart : apart ps (setFld p f v s) = apart ps s := by simp [apart]
@[simp] theorem resetFlds_apart (l : List Field) : apart ps (resetFlds p l s) = apart ps s := by simp [apart]
@[simp] theorem emit_apart (o : Out) : apart ps (emit o s) = apart ps s := by simp [apart]
@[simp] theorem drew_apart : apart ps (drew s) = apart ps s := by simp [apart]
@[simp] theorem setPin_apart : apart ps (setPin n b s) = apart ps s := by simp [apart]
@[simp] theorem setDomain_apart (d : Nat) : apart ps (setDomain d b s) = apart ps s := by simp [apart]
@[simp] theorem setCfg_apart (o : Nat) : apart ps (setCfg fn o v s) = apart ps s := by simp [apart]
@[simp] theorem setTile_apart (x : TileSt) : apart ps (setTile n x s) = apart ps s := by simp [apart]
@[simp] theorem modTile_apart (f : TileSt → TileSt) : apart ps (modTile n f s) = apart ps s := by simp [apart]
@[simp] theorem setCtx_apart (c : CtxSt) : apart ps (setCtx k c s) = apart ps s := by simp [apart]
@[simp] theorem modCtx_apart (f : CtxSt → CtxSt) : apart ps (modCtx k f s) = apart ps s := by simp [apart]
@[simp] theorem modPass_apart (f : Pass → Pass) : apart ps (modPass i f s) = apart ps s := by simp [apart]
@[simp] theorem setMem_apart (m : Mem) : apart ps (setMem m s) = apart ps s := by simp [apart]
@[simp] theorem setFrame_apart (f : Nat) (e : FrameEnt) : apart ps (setFrame f e s) = apart ps s := by simp [apart]
@[simp] theorem clearBad_apart : apart ps (clearBad a s) = apart ps s := by simp [apart]
@[simp] theorem setLines_apart (l : List Line) : apart ps (setLines a l s) = apart ps s := by simp [apart]
@[simp] theorem setAgLine_apart (pa : Nat) (l : AgLine) : apart ps (setAgLine a pa l s) = apart ps s := by simp [apart]
@[simp] theorem setPageOp_apart (o : Option PageOp) : apart ps (setPageOp p o s) = apart ps s := by simp [apart]
@[simp] theorem sendIrq_apart : apart ps (sendIrq p s) = apart ps s := by simp [apart]
@[simp] theorem setFlds_apart (l : List (Field × Nat)) : apart ps (setFlds p l s) = apart ps s := by simp [apart]
@[simp] theorem bump_apart : apart ps (bump p f n s) = apart ps s := by simp [apart]
@[simp] theorem count_apart : apart ps (count p f n s) = apart ps s := by simp [apart]
@[simp] theorem countLane_apart (lane : Nat) : apart ps (countLane p f lane n s) = apart ps s := by simp [apart]
@[simp] theorem setIrqWord_apart (w : Nat) : apart ps (setIrqWord p w s) = apart ps s := by simp [apart]
@[simp] theorem raiseIrq_apart (mask : Nat) : apart ps (raiseIrq p mask s) = apart ps s := by simp [apart]
@[simp] theorem raiseSrc_apart : apart ps (raiseSrc p i s) = apart ps s := by simp [apart]
@[simp] theorem accessErr_apart : apart ps (accessErr p f s) = apart ps s := by simp [apart]
@[simp] theorem opRefused_apart : apart ps (opRefused p s) = apart ps s := by simp [apart]
@[simp] theorem sendMsix_apart : apart ps (sendMsix fn v s) = apart ps s := by simp [apart]
@[simp] theorem ctxMsg_apart (which : Nat) : apart ps (ctxMsg k which s) = apart ps s := by simp [apart]
@[simp] theorem hubFault_apart : apart ps (hubFault s) = apart ps s := by simp [apart]
@[simp] theorem latch_apart : apart ps (latch r s) = apart ps s := by simp [apart]
@[simp] theorem capture_apart : apart ps (capture r s) = apart ps s := by simp [apart]
@[simp] theorem raiseErr_apart : apart ps (raiseErr r s) = apart ps s := by simp [apart]
@[simp] theorem setProgress_apart (code : Nat) : apart ps (setProgress p code percent position s) = apart ps s := by simp [apart]
@[simp] theorem opQueue_apart : apart ps (opQueue p op arg s) = apart ps s := by simp [apart]
@[simp] theorem opRun_apart : apart ps (opRun p op arg s) = apart ps s := by simp [apart]
@[simp] theorem opStep_apart : apart ps (opStep p percent position s) = apart ps s := by simp [apart]
@[simp] theorem opEnd_apart (result : Nat) : apart ps (opEnd p result s) = apart ps s := by simp [apart]
@[simp] theorem setCtxState_apart : apart ps (setCtxState k v s) = apart ps s := by simp [apart]
@[simp] theorem bindPage_apart : apart ps (bindPage p k s) = apart ps s := by simp [apart]
@[simp] theorem unbindPage_apart (st : Nat) : apart ps (unbindPage p st s) = apart ps s := by simp [apart]
@[simp] theorem bumpGeneration_apart : apart ps (bumpGeneration p s) = apart ps s := by simp [apart]
@[simp] theorem setArrayState_apart : apart ps (setArrayState n v s) = apart ps s := by simp [apart]
@[simp] theorem unaccept_apart : apart ps (unaccept h s) = apart ps s := by simp [apart]

@[simp] theorem respond_apart (h : Header) (status : Nat) (units : List Unit256) (s : State) :
    apart ps (respond h status units s) = apart ps s := by simp [apart]

@[simp] theorem respondOk_apart : apart ps (respondOk h s) = apart ps s := by simp [apart]

@[simp] theorem respondInline_apart (data : List Byte) (opData : Nat) : apart ps (respondInline h data opData s) = apart ps s := by
  simp [apart]

@[simp] theorem request_apart : apart ps (request h units s) = apart ps s := by simp [apart]

@[simp] theorem malformedReject_apart (src : Nat) (permitted : Bool) :
    apart ps (malformedReject plane src permitted h s) = apart ps s := by simp [apart]

@[simp] theorem nodeDownAnswer_apart (r : Nat) : apart ps (nodeDownAnswer r plane h s) = apart ps s := by simp [apart]
@[simp] theorem countUnassigned_apart : apart ps (countUnassigned p s) = apart ps s := by simp [apart]
@[simp] theorem dropShadow_apart : apart ps (dropShadow fn p s) = apart ps s := by simp [apart]
@[simp] theorem showArray_apart : apart ps (showArray n s) = apart ps s := by simp [apart]
@[simp] theorem modSite_apart (f : SiteSt → SiteSt) : apart ps (modSite n f s) = apart ps s := by simp [apart]
@[simp] theorem setSite_apart (x : SiteSt) : apart ps (setSite n x s) = apart ps s := by simp [apart]

end Sys2Proof.Machine
end

section
/-! The frames of the hub's own parts (R128, R203, R397, R427): registers, pages, operations and bytes. -/

namespace Sys2Proof.Machine

variable {ps : HubPart → Bool} (pa c n : Nat) (l : Line) (s : State)

@[simp] theorem watchIrq_apart (p : Nat) {f : State → State} (hf : ∀ s, apart ps (f s) = apart ps s) (s : State) :
    apart ps (watchIrq p f s) = apart ps s := by simp [hf, watchIrq]

@[simp] theorem markBad_apart : apart ps (markBad pa s) = apart ps s := (rfl)
@[simp] theorem putLine_apart : apart ps (putLine l s) = apart ps s := (rfl)
@[simp] theorem dropLine_apart : apart ps (dropLine pa s) = apart ps s := (rfl)
@[simp] theorem recallLine_apart : apart ps (recallLine l s) = apart ps s := by simp [recallLine]
@[simp] theorem writeByte_apart (b : Byte) : apart ps (writeByte pa b s) = apart ps s := writeByte_keeps (fun _ _ _ _ => rfl) pa b s

@[simp] theorem writeBytes_apart (l : List Byte) : apart ps (writeBytes pa l s) = apart ps s :=
  writeBytes_keeps (φ := apart ps) (fun _ _ _ _ => rfl) pa l s

@[simp] theorem setChannel_apart [Fact (ps .hbm = true)] (x : Channel) : apart ps (setChannel c x s) = apart ps s := by simp [setChannel]
@[simp] theorem setStack_apart [Fact (ps .hbm = true)] (x : StackSt) : apart ps (setStack n x s) = apart ps s := by simp [setStack]

@[simp] theorem hostWrite_apart (fn : Nat) (data : List Byte) (en : List Bool) : apart ps (hostWrite fn pa data en s) = apart ps s := by
  simp [hostWrite]

@[simp] theorem clearCovered_apart (p : Nat × Nat) : apart ps (clearCovered p s) = apart ps s := by simp [clearCovered]

@[simp] theorem writeParts_apart (l : List (Nat × Nat)) (d : List Byte) : apart ps (writeParts c l d s) = apart ps s :=
  writeParts_keeps (fun _ _ _ _ => rfl) (fun _ _ => rfl) ..

theorem vwrite_apart {h c va : Nat} {data : List Byte} {s t : State} (hw : vwrite h c va data s = .ok t) : apart ps t = apart ps s :=
  vwrite_keeps (fun _ _ _ _ => rfl) (fun _ _ => rfl) hw

/-- `vwrite` as a function of which only that is known: a proof that goes on from it has no call of it to evaluate. -/
theorem vwrite_apart_opaque : ∃ write, write = vwrite ∧
    ∀ {h c va : Nat} {data : List Byte} {s t : State}, write h c va data s = .ok t → apart ps t = apart ps s :=
  ⟨_, rfl, vwrite_apart⟩

@[simp] theorem setEntry_apart (e : Nat) : apart ps (setEntry pa e s) = apart ps s := by simp [setEntry]
@[simp] theorem markAccessed_apart (l : Leaf) : apart ps (markAccessed l s) = apart ps s := by simp [markAccessed]
@[simp] theorem markDirty_apart : apart ps (markDirty pa s) = apart ps s := by simp [markDirty]
@[simp] theorem markRange_apart (k va : Nat) : apart ps (markRange k va n s) = apart ps s := markRange_keeps (fun _ _ _ _ => rfl) k va n s

end Sys2Proof.Machine
end

section
/-! The frames of the hub's own parts (R128, R203, R397, R427): containment, the regulator and the torus (R45 to R61, R279 to R294). -/

namespace Sys2Proof.Machine

variable {ps : HubPart → Bool} (k type code seq n c pa src r out router node : Nat) (ids : List Nat) (p : Option Pass)
  (plane : Plane) (h : Header) (units : List Unit256) (s : State)

@[simp] theorem winPut_apart (m : WinMsg) : apart ps (winPut k m s) = apart ps s := by simp [winPut]
@[simp] theorem winSend_apart (body : List Byte) : apart ps (winSend k type body s) = apart ps s := by simp [winSend]
@[simp] theorem winError_apart (reason : Nat) : apart ps (winError k code reason type seq s) = apart ps s := by simp [winError]
@[simp] theorem discardFaults_apart : apart ps (discardFaults k s) = apart ps s := (rfl)
@[simp] theorem failPasses_apart : apart ps (failPasses n ids s) = apart ps s := (rfl)
@[simp] theorem clearArray_apart (st : Nat) : apart ps (clearArray n st s) = apart ps s := by simp [clearArray]
@[simp] theorem discardMigrations_apart : apart ps (discardMigrations k s) = apart ps s := foldl_apart (by simp) _ _
@[simp] theorem context0Fault_apart : apart ps (context0Fault ids s) = apart ps s := (rfl)
@[simp] theorem stopJournal_apart : apart ps (stopJournal k s) = apart ps s := by simp [stopJournal]
@[simp] theorem faultCtx_apart (sev cls : Nat) : apart ps (faultCtx k ids seq sev cls s) = apart ps s := by simp [faultCtx]
@[simp] theorem raiseAndFault_apart (r : ErrRec) : apart ps (raiseAndFault r ids s) = apart ps s := by simp [raiseAndFault]
@[simp] theorem ownerViolation_apart : apart ps (ownerViolation c pa p s) = apart ps s := by simp [ownerViolation]

@[simp] theorem uncorrectable_apart : apart ps (uncorrectable c pa p s) = apart ps s := by
  simp only [uncorrectable]
  (repeat' split) <;> simp

@[simp] theorem unreachableData_apart : apart ps (unreachableData c pa p s) = apart ps s := by simp [unreachableData]
@[simp] theorem hostRefused_apart : apart ps (hostRefused c pa p s) = apart ps s := by simp [hostRefused]
@[simp] theorem dataError_apart : apart ps (dataError c pa p s) = apart ps s := by simp [dataError]
@[simp] theorem queueUnusable_apart : apart ps (queueUnusable k ids s) = apart ps s := by simp [queueUnusable]
@[simp] theorem countFault_apart : apart ps (countFault k s) = apart ps s := (rfl)
@[simp] theorem takeFaultSeq_apart : apart ps (takeFaultSeq k s) = apart ps s := (rfl)

theorem writeFaultRecord_apart {k code level entry page id seq : Nat} {noStall : Bool} {u : StalledUnit} {s t : State}
    (h : writeFaultRecord k code level entry page id seq noStall u s = .written t) :
    apart ps t = apart ps s := by
  simp only [writeFaultRecord] at h
  split at h
  · obtain rfl := RecordFate.written.inj h
    simp
  split at h
  · cases h
  split at h
  · cases h
  split at h
  · cases h
  rename_i hw
  obtain rfl := RecordFate.written.inj h
  split <;> simp [vwrite_apart hw]

@[simp] theorem translationFault_apart (level entry page : Nat) (u : StalledUnit) :
    apart ps (translationFault k code level entry page u s) = apart ps s := by
  fun_cases translationFault k code level entry page u s
  case case2 hw => simp [writeFaultRecord_apart hw]
  case case9 t hw _ _ => exact (setFld_apart ..).trans (show apart ps t = _ from writeFaultRecord_apart hw)
  case case4 | case7 => simp
  all_goals rfl

@[simp] theorem retryUnrecorded_apart : apart ps (retryUnrecorded k s) = apart ps s := by simp [retryUnrecorded]
@[simp] theorem setLive_apart (b : Bool) : apart ps (setLive c b s) = apart ps s := (rfl)
@[simp] theorem notice_apart (p : Nat) (on : Bool) : apart ps (notice p on s) = apart ps s := by simp [notice]
@[simp] theorem refreshPool_apart (p : Nat) : apart ps (refreshPool p s) = apart ps s := by simp [refreshPool]
@[simp] theorem refreshPools_apart : apart ps (refreshPools s) = apart ps s := by simp [refreshPools]
@[simp] theorem latencySample_apart (ns : Nat) : apart ps (latencySample src k c ns s) = apart ps s := (rfl)
@[simp] theorem setRate_apart : apart ps (setRate k c r s) = apart ps s := (rfl)
@[simp] theorem updateRate_apart : apart ps (updateRate k c s) = apart ps s := (rfl)
@[simp] theorem showSlots_apart : apart ps (showSlots k s) = apart ps s := by simp [showSlots]
@[simp] theorem allotSlots_apart (chs : List Nat) : apart ps (allotSlots k n chs s) = apart ps s := by simp [allotSlots]
@[simp] theorem releaseSlots_apart : apart ps (releaseSlots k s) = apart ps s := by simp [releaseSlots]
@[simp] theorem dropChannelSlots_apart (ch : Nat) : apart ps (dropChannelSlots ch s) = apart ps s := (rfl)
@[simp] theorem enterTorus_apart : apart ps (enterTorus plane src h units s) = apart ps s := (rfl)

theorem tryAdmit_apart {src : Nat} {plane : Plane} {h : Header} {units : List Unit256} {s t : State}
    (ht : tryAdmit src plane h units s = some t) :
    apart ps t = apart ps s := by
  simp only [tryAdmit] at ht
  split at ht
  · cases ht
  split at ht
  · split at ht
    · cases ht
    · obtain rfl := Option.some.inj ht
      rw [enterTorus_apart]
      split <;> simp
  · obtain rfl := Option.some.inj ht
    simp

@[simp] theorem admitWaiting_apart : apart ps (admitWaiting s) = apart ps s := by
  refine (foldl_apart (fun s e => ?_) _ _).trans rfl
  split
  · rename_i ht
    exact tryAdmit_apart ht
  · rfl

@[simp] theorem guestFlits_apart (p : NetPkt) : apart ps (guestFlits p s) = apart ps s := by
  unfold guestFlits
  split <;> simp

@[simp] theorem deliverPkt_apart (p : NetPkt) : apart ps (deliverPkt p s) = apart ps s := by simp [deliverPkt]

@[simp] theorem grant_apart (starvedOnly : Bool) : apart ps (grant r out plane starvedOnly s) = apart ps s := by
  simp only [grant]
  split <;> simp

@[simp] theorem accept_apart : apart ps (accept src plane h units s) = apart ps s := by
  unfold accept
  extract_lets key g t
  have ht : apart ps t = apart ps s := by
    unfold t
    split <;> rfl
  split
  · rename_i hadm
    exact (tryAdmit_apart hadm).trans ht
  · exact ht

@[simp] theorem inject_apart : apart ps (inject src plane h units s) = apart ps s := by simp [inject]
@[simp] theorem execInjectHeader_keepsApart : KeepsApart ps s (execInjectHeader src plane h units s) := by simp [execInjectHeader]

@[simp] theorem execRouterArbitrate_keepsApart : KeepsApart ps s (execRouterArbitrate router out plane s) := by
  simp [execRouterArbitrate]

@[simp] theorem execArbitrationStarvation_keepsApart : KeepsApart ps s (execArbitrationStarvation router out plane s) := by
  simp [execArbitrationStarvation]

@[simp] theorem execEndpointDown_keepsApart (cause : DownCause) : KeepsApart ps s (execEndpointDown node cause s) := by
  simp only [execEndpointDown]
  (repeat' split) <;> simp

@[simp] theorem execLinkBeatReceive_keepsApart (dir : Nat) (check : BeatCheck) :
    KeepsApart ps s (execLinkBeatReceive router dir check s) := by
  simp only [execLinkBeatReceive]
  (repeat' split) <;> simp

@[simp] theorem execCreditReturn_keepsApart (buffer : Nat) : KeepsApart ps s (execCreditReturn buffer s) := by simp [execCreditReturn]

@[simp] theorem restoreTag_apart : apart ps (restoreTag node h s).2 = apart ps s := by
  unfold restoreTag
  split <;> rfl

@[simp] theorem execResponseArrival_keepsApart (clock age : Nat) : KeepsApart ps s (execResponseArrival node h units clock age s) := by
  simp only [execResponseArrival]
  (repeat' split) <;> simp

end Sys2Proof.Machine
end

section
/-! The frames of the hub's own parts (R128, R203, R397, R427): the hub cache, the draught tags and the holders of translations
(R203 to R217, R271). -/

namespace Sys2Proof.Machine

variable {ps : HubPart → Bool} (ch c pa base mask w agents hint got n st a dirty k off fn t value ctx frameNo va : Nat)
  (check : SectorCheck) (data : List Byte) (en : List Bool) (h : Header) (units : List Unit256) (r : HomeReq) (l : Line)
  (inv withData write : Bool) (e : TlbEnt) (s : State)

@[simp] theorem countCorrected_apart [Fact (ps .hbm = true)] : apart ps (countCorrected ch s) = apart ps s := by simp [countCorrected]

@[simp] theorem eccCorrected_apart [Fact (ps .hbm = true)] (symbol : Nat) : apart ps (eccCorrected c pa symbol s) = apart ps s := by
  refine (congrArg (apart ps) (congrFun (congr_fun₃ (by delta eccCorrected; rfl : eccCorrected = _) c pa symbol) s)).trans ?_
  split
  · rfl
  · simp

@[simp] theorem senseSector_apart [Fact (ps .hbm = true)] : apart ps (senseSector c pa check s) = apart ps s := by
  unfold senseSector
  split <;> simp

@[simp] theorem mcRead_apart : apart ps (mcRead c base mask w s).1 = apart ps s := by
  simp only [mcRead]
  (repeat' split) <;> simp

@[simp] theorem mcWriteSector_apart : apart ps (mcWriteSector c pa data en s).1 = apart ps s := by
  simp only [mcWriteSector]
  (repeat' split) <;> simp

@[simp] theorem mcWriteMask_apart : apart ps (mcWriteMask c base data mask w s) = apart ps s := by simp [mcWriteMask]

@[simp] theorem mcWrite_apart : apart ps (mcWrite c base data mask w s).1 = apart ps s := by
  simp only [mcWrite]
  (repeat' split) <;> simp

theorem apart_of_pair {β : Type} {x : State × β} {t : State} {b : β} {u : State} (h : x = (t, b)) (hx : apart ps x.1 = apart ps u) :
    apart ps t = apart ps u := by
  simpa only [h] using hx

theorem apart_of_pair' {β : Type} {x : β × State} {t : State} {b : β} {u : State} (h : x = (b, t)) (hx : apart ps x.2 = apart ps u) :
    apart ps t = apart ps u := by
  simpa only [h] using hx

@[simp] theorem mcServe_apart : apart ps (mcServe h units s) = apart ps s := by
  fun_cases mcServe h units s
  case case1 hr | case3 hr | case4 hr _ => simp [apart_of_pair hr (mcRead_apart ..)]
  case case2 hw => simp [apart_of_pair hw (mcWrite_apart ..)]
  case case9 hw => simp [apart_of_pair hw (mcWriteSector_apart ..)]
  all_goals simp

@[simp] theorem setQueue_apart [Fact (ps .hbm = true)] (q : List (Header × List Unit256)) : apart ps (setQueue ch q s) = apart ps s := by
  simp [setQueue]

@[simp] theorem mcArrive_apart [Fact (ps .hbm = true)] : apart ps (mcArrive h units check s) = apart ps s := by
  refine (congrArg (apart ps) (congrFun (congr_fun₃ (by delta mcArrive; rfl : mcArrive = _) h units check) s)).trans ?_
  have hsense : apart ps (senseSector h.ctx (h.addr / 32 * 32) check s) = apart ps s := senseSector_apart ..
  split
  · split <;> simp
  · dsimp only
    split
    · exact (mcServe_apart ..).trans hsense
    · exact (setQueue_apart ..).trans hsense

@[simp] theorem drainChannel_apart [Fact (ps .hbm = true)] : apart ps (drainChannel ch s) = apart ps s := by simp [drainChannel]
@[simp] theorem setHomeLine_apart (h : HomeLine) : apart ps (setHomeLine pa h s) = apart ps s := by simp [setHomeLine]
@[simp] theorem queueHome_apart : apart ps (queueHome pa r s) = apart ps s := by simp [queueHome]

@[simp] theorem beginHome_apart (st : HomeState) (pending : Nat) : apart ps (beginHome pa st pending r s) = apart ps s := by
  simp [beginHome]

@[simp] theorem sendSnoops_apart : apart ps (sendSnoops l agents inv s) = apart ps s := by simp [sendSnoops]
@[simp] theorem snoopFor_apart : apart ps (snoopFor l agents inv r s) = apart ps s := by simp [snoopFor]

@[simp] theorem markKeep_apart : apart ps (markKeep l s) = apart ps s := by
  simp only [markKeep]
  (repeat' split) <;> simp

@[simp] theorem touchLine_apart : apart ps (touchLine l hint s) = apart ps s := by simp [touchLine]
@[simp] theorem freeLine_apart : apart ps (freeLine l s) = apart ps s := by simp [freeLine]

theorem makeRoom_apart {pa c w : Nat} {s t : State} (h : makeRoom pa c s = .way w t) : apart ps t = apart ps s := by
  unfold makeRoom at h
  dsimp only at h
  split at h
  · obtain ⟨-, rfl⟩ := Room.way.inj h
    rfl
  split at h
  · split at h
    · obtain ⟨-, rfl⟩ := Room.way.inj h
      exact freeLine_apart _ s
    · cases h
  · split at h <;> cases h

@[simp] theorem addLine_apart : apart ps (addLine l hint s) = apart ps s := by simp [addLine]

@[simp] theorem awaitRoom_apart (room : Room) : apart ps (awaitRoom room r s) = apart ps s := by
  unfold awaitRoom
  split <;> simp

@[simp] theorem askFill_apart : apart ps (askFill h pa mask r s) = apart ps s := by simp [askFill]

@[simp] theorem answerRead_apart (h : Header) (data : List Byte) (s : State) : apart ps (answerRead h data s) = apart ps s := by
  simp [answerRead]

@[simp] theorem discardRead_apart : apart ps (discardRead l mask s) = apart ps s := by simp [discardRead]

/-- One sector of a read keeps what the rest of the read (`below`) keeps. The kernel cannot check the equation of `serveRead`, so
the recursion is opened by `delta`. -/
theorem serveRead_sector_apart (h : Header) {i : Nat} {rest : List Nat}
    (below : List.below (motive := fun _ => Nat → List Byte → State → State) (i :: rest))
    (hrest : ∀ got data s, apart ps (below.1 got data s) = apart ps s) (got : Nat) (data : List Byte) (s : State) :
    apart ps (serveRead._f h (i :: rest) below got data s) = apart ps s := by
  obtain ⟨next, status, hpair, hnext⟩ := step_as_pair (apart ps) mcRead_apart
  delta serveRead._f
  rw [hpair]
  clear hpair
  dsimp only
  split
  · exact hrest got data s
  split
  · simp
  split
  · split
    · simp
    split
    · simp
    split
    · refine (hrest _ _ _).trans ?_
      (repeat' split) <;> simp
    split
    · split <;> simp [hnext]
    · simp
  · split
    · split <;> simp [hnext]
    split
    · simp
    split
    · rename_i hroom
      simp [makeRoom_apart hroom]
    · simp
    · simp

@[simp] theorem serveRead_apart (h : Header) (l : List Nat) (got : Nat) (data : List Byte) (s : State) :
    apart ps (serveRead h l got data s) = apart ps s := by
  delta serveRead
  induction l generalizing got data s with
  | nil => exact answerRead_apart h data s
  | cons i rest ih => exact serveRead_sector_apart h (List.brecOn.go rest (serveRead._f h)) ih got data s

@[simp] theorem writeInLine_apart : apart ps (writeInLine c pa data en s).1 = apart ps s := by
  simp only [writeInLine]
  refine foldl_pair_apart (fun r i => ?_) _ (s, false)
  (repeat' split) <;> simp

@[simp] theorem serveWrite_apart (bad : Bool) : apart ps (serveWrite h n pa data en bad s) = apart ps s := by
  fun_induction serveWrite h n pa data en bad s
  case case6 hw ih | case9 hw ih | case11 hw ih =>
    exact (ih _ _).trans ((apart_of_pair hw (writeInLine_apart ..)).trans (by simp))
  case case10 hroom _ _ hw ih =>
    exact (ih _ _).trans ((apart_of_pair hw (writeInLine_apart ..)).trans (by simp [makeRoom_apart hroom]))
  all_goals simp

@[simp] theorem serveAdd_apart : apart ps (serveAdd h s) = apart ps s := by
  fun_cases serveAdd h s
  case case1 | case2 | case3 => simp
  case case4 hw => simp [apart_of_pair hw (writeInLine_apart ..)]
  case case5 hr _ | case6 hr _ | case7 hr _ | case8 hr _ => simp [apart_of_pair hr (mcRead_apart ..)]

@[simp] theorem servePte_apart : apart ps (servePte h s) = apart ps s := by
  obtain ⟨next, status, hpair, hnext⟩ := step_as_pair (apart ps) mcRead_apart
  unfold servePte
  rw [hpair]
  dsimp only at hnext ⊢
  (repeat' split) <;> simp [hnext]

@[simp] theorem grantTo_apart : apart ps (grantTo h st l withData s) = apart ps s := by
  unfold grantTo
  split <;> simp

@[simp] theorem breach_apart : apart ps (breach a pa st h s) = apart ps s := by simp [breach]
@[simp] theorem grantOwner_apart : apart ps (grantOwner a l h st withData s) = apart ps s := by simp [grantOwner]

@[simp] theorem fillThen_apart (own : Bool) : apart ps (fillThen a pa h r own s) = apart ps s := by
  unfold fillThen
  split
  · split <;> simp
  · split
    · rename_i hroom
      simp [makeRoom_apart hroom]
    · simp
    · simp

@[simp] theorem serveCoherent_apart (kind : Nat) : apart ps (serveCoherent kind a h s) = apart ps s := by
  fun_cases serveCoherent kind a h s
  all_goals simp

@[simp] theorem withdrawLine_apart : apart ps (withdrawLine r l s) = apart ps s := by
  simp only [withdrawLine]
  (repeat' split) <;> simp

@[simp] theorem withdrawAt_apart : apart ps (withdrawAt r pa s) = apart ps s := by
  unfold withdrawAt
  split <;> simp

@[simp] theorem homeArrive_apart : apart ps (homeArrive r s) = apart ps s := by
  unfold homeArrive
  split <;> simp

@[simp] theorem drainHome_apart (q : List HomeReq) : apart ps (drainHome q s) = apart ps s := by simp [drainHome]

@[simp] theorem completeHome_apart : apart ps (completeHome pa s) = apart ps s := by
  simp only [completeHome]
  (repeat' split) <;> simp

@[simp] theorem snoopAnswer_apart (keepsS lost : Bool) : apart ps (snoopAnswer a pa keepsS lost dirty data s) = apart ps s := by
  have hbad (pa : Nat) (s : State) : apart ps ((List.range 4).foldl (fun s i => markBad (pa + 32 * i) s) s) = apart ps s :=
    foldl_apart (by simp) _ s
  unfold snoopAnswer
  dsimp only
  split
  · split
    · simp
    · (repeat' split) <;> simp [hbad]
  · simp

@[simp] theorem fillData_apart (status : Nat) : apart ps (fillData pa status mask data s) = apart ps s := by
  simp only [fillData]
  (repeat' split) <;> simp

@[simp] theorem evictNotice_apart : apart ps (evictNotice a h dirty data s) = apart ps s := by
  simp only [evictNotice]
  split <;> simp

@[simp] theorem engineSnoop_apart : apart ps (engineSnoop pa inv s) = apart ps s := by
  unfold engineSnoop
  split
  · rfl
  · extract_lets h
    split
    · rfl
    · exact snoopFor_apart ..

@[simp] theorem accessFailed_apart (e : AccErr) (u : StalledUnit) (p : Option Pass) : apart ps (accessFailed k e u p s) = apart ps s := by
  unfold accessFailed
  split <;> simp

@[simp] theorem ashLines_apart (f : Nat) : apart ps (ashLines f s) = apart ps s := by simp [ashLines]
@[simp] theorem recallAgents_apart : apart ps (recallAgents mask s) = apart ps s := by simp [recallAgents]

@[simp] theorem withdrawWays_apart (slice? : Option Nat) (ways : Nat) (c? : Option Nat) :
    apart ps (withdrawWays slice? ways c? s) = apart ps s := by simp [withdrawWays]

@[simp] theorem sealedDenied_apart : apart ps (sealedDenied k off s) = apart ps s := (rfl)

@[simp] theorem tenantWrite_apart (fn k off : Nat) {f : State → State} (hf : ∀ s, apart ps (f s) = apart ps s) (s : State) :
    apart ps (tenantWrite fn k off f s) = apart ps s := by simp [hf, tenantWrite]

@[simp] theorem setTag_apart [Fact (ps .tags = true)] (d : DraughtTag) : apart ps (setTag k t d s) = apart ps s := by simp [setTag]

@[simp] theorem tagWritten_apart [Fact (ps .tags = true)] (applied base emax : Int) (hist : List Nat) (reset : Bool) :
    apart ps (tagWritten k t applied base emax hist reset s) = apart ps s := by simp [tagWritten]

@[simp] theorem modSelected_apart [Fact (ps .tags = true)] (f : DraughtTag → DraughtTag) : apart ps (modSelected k f s) = apart ps s := by
  simp [modSelected]

@[simp] theorem draughtFreeze_apart [Fact (ps .tags = true)] : apart ps (draughtFreeze k s) = apart ps s := by simp [draughtFreeze]
@[simp] theorem draughtUnfreeze_apart [Fact (ps .tags = true)] : apart ps (draughtUnfreeze k s) = apart ps s := by simp [draughtUnfreeze]

@[simp] theorem draughtOverride_apart [Fact (ps .tags = true)] : apart ps (draughtOverride k value s) = apart ps s := by
  simp [draughtOverride]

@[simp] theorem draughtResetTag_apart [Fact (ps .tags = true)] : apart ps (draughtResetTag k s) = apart ps s := by simp [draughtResetTag]

@[simp] theorem execDraughtFreeze_keepsApart [Fact (ps .tags = true)] : KeepsApart ps s (execDraughtFreeze fn ctx s) := by
  simp [execDraughtFreeze]

@[simp] theorem execDraughtUnfreeze_keepsApart [Fact (ps .tags = true)] : KeepsApart ps s (execDraughtUnfreeze fn ctx s) := by
  simp [execDraughtUnfreeze]

@[simp] theorem execDraughtOverride_keepsApart [Fact (ps .tags = true)] : KeepsApart ps s (execDraughtOverride fn ctx value s) := by
  simp [execDraughtOverride]

@[simp] theorem execDraughtResetTag_keepsApart [Fact (ps .tags = true)] : KeepsApart ps s (execDraughtResetTag fn ctx s) := by
  simp [execDraughtResetTag]

@[simp] theorem setTlb_apart (h : Nat) (l : List TlbEnt) : apart ps (setTlb h l s) = apart ps s := by simp [setTlb]

@[simp] theorem setCountEntry_apart (v : Nat) : apart ps (setCountEntry k frameNo v s) = apart ps s :=
  setCountEntry_keeps (fun _ _ _ _ => rfl) (fun _ _ => rfl) ..

@[simp] theorem addCount_apart : apart ps (addCount k frameNo n s) = apart ps s := addCount_keeps (fun _ _ _ _ => rfl) (fun _ _ => rfl) ..

@[simp] theorem noteRegion_apart : apart ps (noteRegion k va pa s) = apart ps s :=
  noteRegion_keeps (fun _ _ _ _ => rfl) (fun _ _ => rfl) ..

@[simp] theorem flushCount_apart (h : Nat) : apart ps (flushCount h e s) = apart ps s :=
  flushCount_keeps (fun _ _ _ _ => rfl) (fun _ _ => rfl) ..

@[simp] theorem install_apart (h : Nat) : apart ps (install h e s) = apart ps s := by simp [install]
@[simp] theorem markAllDirty_apart (l : Leaf) : apart ps (markAllDirty l s) = apart ps s := by simp [markAllDirty]

@[simp] theorem countWalk_apart (fault mismatch : Bool) : apart ps (countWalk k va fault mismatch s) = apart ps s :=
  pastAccess_apart.countWalk ..

@[simp] theorem serveXlate_apart (h : Nat) (access : Nat) : apart ps (serveXlate h k va access s).2 = apart ps s :=
  pastAccess_apart.serveXlate ..

@[simp] theorem countBytes_apart : apart ps (countBytes k pa n s) = apart ps s := by simp [countBytes]
@[simp] theorem useEntry_apart (h : Nat) : apart ps (useEntry h k va n write s) = apart ps s := pastAccess_apart.useEntry ..

@[simp] theorem accessPage_apart (h : Nat) (p : Nat × Nat) : apart ps (accessPage h k write s p) = apart ps s :=
  pastAccess_apart.accessPage ..

@[simp] theorem accessed_apart (h : Nat) : apart ps (accessed h k va n write s) = apart ps s := by simp [accessed]

end Sys2Proof.Machine
end

section
/-! The frames of the hub's own parts (R128, R203, R397, R427): the register pages, the queues and the operations (R66 to R189). -/

namespace Sys2Proof.Machine

variable {ps : HubPart → Bool} (p mask fn off page l h log2Size head ctx k r v i ring value num : Nat) (write irqEn isBase : Bool)
  (g : LogRegs) (s : State)

@[simp] theorem pageReset_apart : apart ps (pageReset p s) = apart ps s := by
  unfold pageReset
  split <;> simp

@[simp] theorem irqClear_apart : apart ps (irqClear p mask s) = apart ps s := by simp [irqClear]
@[simp] theorem errSummaryClear_apart : apart ps (errSummaryClear p mask s) = apart ps s := by simp [errSummaryClear]
@[simp] theorem answerAccess_apart (data : Nat) : apart ps (answerAccess fn p off write data s) = apart ps s := (rfl)
@[simp] theorem execBadAccess_keepsApart : KeepsApart ps s (execBadAccess fn page off write s) := by simp [execBadAccess]

@[simp] theorem execUnassignedAccess_keepsApart : KeepsApart ps s (execUnassignedAccess fn page off write s) := by
  simp [execUnassignedAccess]

@[simp] theorem execProgressShadowRead_keepsApart : KeepsApart ps s (execProgressShadowRead fn page s) := by simp [execProgressShadowRead]
@[simp] theorem execProgressUpperRead_keepsApart : KeepsApart ps s (execProgressUpperRead fn page s) := by simp [execProgressUpperRead]
@[simp] theorem execIrqStatusClear_keepsApart : KeepsApart ps s (execIrqStatusClear page mask s) := by simp [execIrqStatusClear]
@[simp] theorem execIrqForce_keepsApart : KeepsApart ps s (execIrqForce page mask s) := by simp [execIrqForce]
@[simp] theorem execErrSummaryClear_keepsApart : KeepsApart ps s (execErrSummaryClear page mask s) := by simp [execErrSummaryClear]
@[simp] theorem execPageReset_keepsApart : KeepsApart ps s (execPageReset page s) := by simp [execPageReset]

@[simp] theorem logWrite_apart (r : ErrRec) (masked : Bool) : apart ps (logWrite g r masked s).1 = apart ps s := by
  simp only [logWrite]
  split
  · simp
  · split
    · simp
    · rename_i hw
      simp [vwrite_apart hw]

@[simp] theorem logEnable_apart : apart ps (logEnable g l s) = apart ps s := by simp [logEnable]
@[simp] theorem logDoorbell_apart : apart ps (logDoorbell g h s) = apart ps s := by simp [logDoorbell]

@[simp] theorem execErrRecord_keepsApart : KeepsApart ps s (execErrRecord s) := by
  simp only [execErrRecord]
  (repeat' split) <;> simp

@[simp] theorem execIrqRaise_keepsApart : KeepsApart ps s (execIrqRaise s) := by
  unfold execIrqRaise
  split <;> simp

@[simp] theorem execErrlogEnable_keepsApart : KeepsApart ps s (execErrlogEnable log2Size s) := by simp [execErrlogEnable]
@[simp] theorem execErrlogDisable_keepsApart : KeepsApart ps s (execErrlogDisable s) := by simp [execErrlogDisable]
@[simp] theorem execErrlogDoorbell_keepsApart : KeepsApart ps s (execErrlogDoorbell head s) := by simp [execErrlogDoorbell]
@[simp] theorem execErrqEnable_keepsApart : KeepsApart ps s (execErrqEnable ctx log2Size irqEn s) := by simp [execErrqEnable]
@[simp] theorem execErrqDisable_keepsApart : KeepsApart ps s (execErrqDisable ctx s) := by simp [execErrqDisable]
@[simp] theorem execErrqDoorbell_keepsApart : KeepsApart ps s (execErrqDoorbell ctx head s) := by simp [execErrqDoorbell]
@[simp] theorem execErrLatchClear_keepsApart : KeepsApart ps s (execErrLatchClear s) := by simp [execErrLatchClear]
@[simp] theorem execMgmtMsg_keepsApart (h : Header) : KeepsApart ps s (execMgmtMsg h s) := by simp [execMgmtMsg]

@[simp] theorem execMgmtBulk_keepsApart (h : Header) (_units : List Unit256) : KeepsApart ps s (execMgmtBulk h _units s) := by
  simp [execMgmtBulk]

@[simp] theorem execQueueReport_keepsApart (occupancy : List Nat) : KeepsApart ps s (execQueueReport page occupancy s) := by
  unfold execQueueReport
  split <;> simp

@[simp] theorem ringRefused_apart : apart ps (ringRefused k r s) = apart ps s := (rfl)
@[simp] theorem cqRefused_apart : apart ps (cqRefused k s) = apart ps s := (rfl)
@[simp] theorem refreshFull_apart : apart ps (refreshFull k s) = apart ps s := (rfl)
@[simp] theorem ringDoorbell_apart : apart ps (ringDoorbell k r v s) = apart ps s := by simp [ringDoorbell]
@[simp] theorem cqDoorbell_apart : apart ps (cqDoorbell k h s) = apart ps s := by simp [cqDoorbell]
@[simp] theorem ringEnable_apart : apart ps (ringEnable k r l s) = apart ps s := by simp [ringEnable]
@[simp] theorem ringDisable_apart : apart ps (ringDisable k r s) = apart ps s := (rfl)

@[simp] theorem ringConfig_apart : apart ps (ringConfig k r isBase v s) = apart ps s := by
  unfold ringConfig
  split <;> simp

@[simp] theorem cqEnable_apart : apart ps (cqEnable k l irqEn s) = apart ps s := by simp [cqEnable]
@[simp] theorem cqDisable_apart : apart ps (cqDisable k s) = apart ps s := by simp [cqDisable]
@[simp] theorem setFence_apart (err : Bool) : apart ps (setFence k i v err s) = apart ps s := (rfl)
@[simp] theorem addFence_apart : apart ps (addFence k i v s) = apart ps s := (rfl)
@[simp] theorem signalFence_apart (ok : Bool) : apart ps (signalFence k i ok s) = apart ps s := by simp [signalFence]
@[simp] theorem countOutcome_apart (status : Nat) : apart ps (countOutcome k status s) = apart ps s := by simp [countOutcome]

@[simp] theorem completePass_apart (p : Pass) : apart ps (completePass p s) = apart ps s := by
  unfold completePass
  extract_lets
  split
  · rfl
  split
  · exact (accessFailed_apart ..).trans rfl
  · rename_i hw
    simp [vwrite_apart hw]

@[simp] theorem ringAbort_apart : apart ps (ringAbort k r s) = apart ps s := by simp [ringAbort]

@[simp] theorem execRingDoorbell_keepsApart (tail : Nat) : KeepsApart ps s (execRingDoorbell fn ctx ring tail s) := by
  simp [execRingDoorbell]

@[simp] theorem execCqDoorbell_keepsApart : KeepsApart ps s (execCqDoorbell fn ctx head s) := by simp [execCqDoorbell]
@[simp] theorem execRingEnable_keepsApart : KeepsApart ps s (execRingEnable fn ctx ring log2Size s) := by simp [execRingEnable]
@[simp] theorem execRingDisable_keepsApart : KeepsApart ps s (execRingDisable fn ctx ring s) := by simp [execRingDisable]
@[simp] theorem execRingAbort_keepsApart : KeepsApart ps s (execRingAbort fn ctx ring s) := by simp [execRingAbort]

@[simp] theorem execRingConfigWrite_keepsApart : KeepsApart ps s (execRingConfigWrite fn ctx ring isBase value s) := by
  simp [execRingConfigWrite]

@[simp] theorem execCqEnable_keepsApart : KeepsApart ps s (execCqEnable fn ctx log2Size irqEn s) := by simp [execCqEnable]
@[simp] theorem execCqDisable_keepsApart : KeepsApart ps s (execCqDisable fn ctx s) := by simp [execCqDisable]

@[simp] theorem execFenceValue_keepsApart (error : Bool) : KeepsApart ps s (execFenceValue fn ctx num value error s) := by
  simp [execFenceValue]

@[simp] theorem execFenceAdd_keepsApart (add : Nat) : KeepsApart ps s (execFenceAdd fn ctx num add s) := by simp [execFenceAdd]

theorem writeUnits_apart {h k : Nat} {us : List (Nat × List Byte)} {s t : State} (hw : writeUnits h k us s = .ok t) :
    apart ps t = apart ps s := by
  unfold writeUnits at hw
  split at hw
  · cases hw
  · obtain rfl := Except.ok.inj hw
    exact foldl_apart (by simp) _ _

@[simp] theorem spansRead_apart (p : Pass) (l : List (Nat × Nat)) : apart ps (spansRead h p s l) = apart ps s := by
  simp only [spansRead]
  split <;> simp

end Sys2Proof.Machine
end

section
/-! The frames of the hub's own parts (R128, R203, R397, R427): the tiles and their windows (R71 to R109). -/

namespace Sys2Proof.Machine

variable {ps : HubPart → Bool} (k n x tile check accRow word : Nat) (passed : Bool) (s : State)

@[simp] theorem bindEvent_apart (ev kind index count gen : Nat) (tail : List Byte) :
    apart ps (bindEvent k ev kind index count gen tail s) = apart ps s := (rfl)

@[simp] theorem tileSetting_apart (sealedNow : Bool) : apart ps (tileSetting n sealedNow s) = apart ps s := (rfl)
@[simp] theorem tileOn_apart : apart ps (tileOn n s) = apart ps s := by simp [tileOn]
@[simp] theorem tileWake_apart : apart ps (tileWake n s) = apart ps s := by simp [tileWake]
@[simp] theorem bindTile_apart : apart ps (bindTile k n s) = apart ps s := by simp [bindTile]
@[simp] theorem retireTile_apart : apart ps (retireTile n s) = apart ps s := by simp [retireTile]

@[simp] theorem autoReplace_apart (lost : Nat) : apart ps (autoReplace k lost s) = apart ps s := by
  simp only [autoReplace]
  (repeat' split) <;> simp

@[simp] theorem failExecutor_apart (counts : Bool) : apart ps (failExecutor x counts s) = apart ps s := (rfl)
@[simp] theorem movePieces_apart (a b : PieceState) : apart ps (movePieces x a b s) = apart ps s := (rfl)

@[simp] theorem execFeederIssue_keepsApart (ready : Bool) (codes scales : List Nat) :
    KeepsApart ps s (execFeederIssue tile ready codes scales s) := by
  simp only [execFeederIssue]
  (repeat' split) <;> simp

@[simp] theorem execStationaryLoad_keepsApart (rows scales : List (List Nat)) :
    KeepsApart ps s (execStationaryLoad tile rows scales s) := by
  simp only [execStationaryLoad]
  (repeat' split) <;> simp

@[simp] theorem execAccumulatorWrite_keepsApart : KeepsApart ps s (execAccumulatorWrite tile s) := by simp [execAccumulatorWrite]
@[simp] theorem passDone_apart : apart ps (passDone n s) = apart ps s := by simp [passDone]

@[simp] theorem execEpilogueRow_keepsApart : KeepsApart ps s (execEpilogueRow tile s) := by
  refine (keepsApart_next ..).2 ?_
  extract_lets +onlyGivenNames t
  split
  · rfl
  split
  · rfl
  extract_lets +onlyGivenNames row
  split
  · rfl
  split
  · simp
  extract_lets +onlyGivenNames step
  have hstep (u : State) : apart ps (step u) = apart ps u := by
    simp only [step]
    split <;> simp
  clear_value step
  split
  · exact hstep s
  split
  · exact hstep s
  split
  · simp
  dsimp only
  split
  · simp [hstep]
  split
  · simp
  · rename_i hw
    simp [hstep, writeUnits_apart hw]

@[simp] theorem execThrottleWindow_keepsApart (vector : Bool) : KeepsApart ps s (execThrottleWindow tile vector s) := by
  simp [execThrottleWindow]

@[simp] theorem preempt_apart : apart ps (preempt n s) = apart ps s := by simp [preempt]
@[simp] theorem drainArray_apart : apart ps (drainArray n s) = apart ps s := by simp [drainArray]
@[simp] theorem freezeArray_apart : apart ps (freezeArray n s) = apart ps s := by simp [freezeArray]
@[simp] theorem execPreemptRequest_keepsApart : KeepsApart ps s (execPreemptRequest tile s) := by simp [execPreemptRequest]
@[simp] theorem execArrayDrainDone_keepsApart : KeepsApart ps s (execArrayDrainDone tile s) := by simp [execArrayDrainDone]
@[simp] theorem execArrayFrozen_keepsApart : KeepsApart ps s (execArrayFrozen tile s) := by simp [execArrayFrozen]
@[simp] theorem continueArray_apart : apart ps (continueArray n s) = apart ps s := by simp [continueArray]

@[simp] theorem restoreImage_apart (slot : Nat) : apart ps (restoreImage k slot n s) = apart ps s := by
  unfold restoreImage
  split <;> simp

@[simp] theorem execArrayResume_keepsApart (slot : Option Nat) : KeepsApart ps s (execArrayResume tile slot s) := by
  unfold execArrayResume
  split <;> simp

@[simp] theorem tileFault_apart (detail : Nat) : apart ps (tileFault n check detail s) = apart ps s := by
  simp only [tileFault]
  split <;> simp

@[simp] theorem execArrayFault_keepsApart (row col : Nat) : KeepsApart ps s (execArrayFault tile check row col accRow word s) := by
  simp [execArrayFault]

@[simp] theorem startSelfTest_apart (fromFault : Bool) : apart ps (startSelfTest n fromFault s) = apart ps s := by simp [startSelfTest]
@[simp] theorem afterFault_apart : apart ps (afterFault n s) = apart ps s := by simp [afterFault]
@[simp] theorem execTileFaultAsh_keepsApart : KeepsApart ps s (execTileFaultAsh tile s) := by simp [execTileFaultAsh]

@[simp] theorem execSramCorrected_keepsApart (accumulator : Bool) :
    KeepsApart ps s (execSramCorrected tile accumulator accRow word s) := by simp [execSramCorrected]

@[simp] theorem endSelfTest_apart : apart ps (endSelfTest n passed s) = apart ps s := by simp [endSelfTest]
@[simp] theorem execSelfTestEnd_keepsApart : KeepsApart ps s (execSelfTestEnd tile passed s) := by simp [execSelfTestEnd]
@[simp] theorem winDrop_apart : apart ps (winDrop k s) = apart ps s := (rfl)

@[simp] theorem winAccept_apart (k : Nat) (e : Envelope) {f : State → State} (hf : ∀ s, apart ps (f s) = apart ps s) (s : State) :
    apart ps (winAccept k e f s) = apart ps s := by simp [hf, winAccept]

@[simp] theorem winRefuse_apart (reason type seq : Nat) : apart ps (winRefuse k reason type seq s) = apart ps s := by simp [winRefuse]

@[simp] theorem sealedWrite_apart (fn k off : Nat) {f : State → State} (hf : ∀ s, apart ps (f s) = apart ps s) (s : State) :
    apart ps (sealedWrite fn k off f s) = apart ps s := by simp [hf, sealedWrite]

end Sys2Proof.Machine
end

section
/-! The frames of the hub's own parts (R128, R203, R397, R427): translation, the caching agents and the homes (R218, R238 to R276). -/

namespace Sys2Proof.Machine

variable {ps : HubPart → Bool} (k op arg base pages sub epoch signal id action table n mask cause pa agent status state a core
    holder fn ctx word : Nat) (viaWindow signalEn placement valid withData inv irqEn : Bool) (h : Header) (units : List Unit256)
  (check : SectorCheck) (data : List Byte) (env : Envelope) (s : State)

@[simp] theorem tellHolder_apart (h : Nat) (data : Nat) : apart ps (tellHolder h k op arg data s) = apart ps s := by
  unfold tellHolder
  split <;> simp

@[simp] theorem dropRange_apart (h : Nat) : apart ps (dropRange h k base pages s) = apart ps s := by simp [dropRange]
@[simp] theorem dropWalks_apart : apart ps (dropWalks k base pages s) = apart ps s := (rfl)
@[simp] theorem dropHolder_apart (h : Nat) : apart ps (dropHolder h k s) = apart ps s := (rfl)
@[simp] theorem dropAll_apart : apart ps (dropAll k s) = apart ps s := by simp [dropAll]

@[simp] theorem xlateReq_apart (h : Nat) (hd : Header) : apart ps (xlateReq h sub hd s) = apart ps s := by
  fun_cases xlateReq h sub hd s
  case case1 => rfl
  case case2 hx | case3 hx => simp [apart_of_pair' hx (serveXlate_apart ..)]

@[simp] theorem xlateErr_apart (bitNo : Nat) : apart ps (xlateErr k bitNo viaWindow s) = apart ps s := by simp [xlateErr]

@[simp] theorem startInval_apart (i : Inval) : apart ps (startInval i s) = apart ps s :=
  (foldl_apart (fun s h => by split <;> simp) _ _).trans (dropWalks_apart i.ctx i.base i.pages s)

@[simp] theorem postInval_apart : apart ps (postInval k epoch base pages signal signalEn viaWindow s) = apart ps s := by simp [postInval]
@[simp] theorem ackInval_apart (h : Nat) : apart ps (ackInval h k epoch placement s) = apart ps s := (rfl)
@[simp] theorem ackAll_apart (h : Nat) : apart ps (ackAll h s) = apart ps s := (rfl)

@[simp] theorem completeInval_apart : apart ps (completeInval k s) = apart ps s := by
  unfold completeInval
  split <;> simp

@[simp] theorem replayUnit_apart (u : StalledUnit) : apart ps (replayUnit k u s) = apart ps s := by
  simp only [replayUnit]
  (repeat' split) <;> simp

@[simp] theorem faultResume_apart : apart ps (faultResume k id action viaWindow s) = apart ps s := by
  unfold faultResume
  split <;> simp

@[simp] theorem resumeHolder_apart (h : Nat) : apart ps (resumeHolder h k id s) = apart ps s := by simp [resumeHolder]
@[simp] theorem rootWrite_apart : apart ps (rootWrite k valid table viaWindow s) = apart ps s := by simp [rootWrite]
@[simp] theorem setSiteLink_apart (v : Nat) : apart ps (setSiteLink n v s) = apart ps s := (rfl)
@[simp] theorem siteOff_apart : apart ps (siteOff n s) = apart ps s := by simp [siteOff]
@[simp] theorem loseSnoops_apart : apart ps (loseSnoops mask s) = apart ps s := by simp [loseSnoops]
@[simp] theorem clearBreaches_apart : apart ps (clearBreaches mask s) = apart ps s := (rfl)
@[simp] theorem siteNotice_apart (f : Field) : apart ps (siteNotice k n f s) = apart ps s := by simp [siteNotice]

@[simp] theorem fenceSite_apart (detail : Nat) : apart ps (fenceSite n cause detail s) = apart ps s := by
  simp only [fenceSite]
  (repeat' split) <;> simp

@[simp] theorem restartCore_apart [Fact (ps .cores = true)] (m : Nat) : apart ps (restartCore m cause s) = apart ps s := by
  simp [restartCore]

@[simp] theorem containOne_apart [Fact (ps .cores = true)] (b : Nat × Bool) : apart ps (containOne b s) = apart ps s := by
  simp [containOne]

@[simp] theorem settle_apart [Fact (ps .cores = true)] : apart ps (settle s) = apart ps s := by simp [settle]

@[simp] theorem sendMgmt_apart (mtype : Nat) (args : List Nat) (body : List Byte) :
    apart ps (sendMgmt n mtype args body s) = apart ps s := (rfl)

@[simp] theorem kppError_apart : apart ps (kppError n s) = apart ps s := by simp [kppError]
@[simp] theorem kppDrop_apart : apart ps (kppDrop n s) = apart ps s := by simp [kppDrop]
@[simp] theorem guestAdmit_apart : apart ps (guestAdmit n h units s) = apart ps s := by simp [guestAdmit]

@[simp] theorem guestSubmit_apart : apart ps (guestSubmit n h units s) = apart ps s := by
  fun_cases guestSubmit n h units s
  case case5 => rfl
  case case6 hx _ _ _ =>
    exact (guestAdmit_apart ..).trans ((useEntry_apart ..).trans (apart_of_pair' hx (serveXlate_apart ..)))
  case case7 t hx _ _ _ _ => exact (accessFailed_apart ..).trans (show apart ps t = _ from apart_of_pair' hx (serveXlate_apart ..))
  case case3 | case4 => exact (guestAdmit_apart ..).trans (useEntry_apart ..)
  all_goals simp

@[simp] theorem releaseHeld_apart : apart ps (releaseHeld s) = apart ps s := by simp [releaseHeld]
@[simp] theorem replayGuest_apart (us : List StalledUnit) : apart ps (replayGuest n us s) = apart ps s := by simp [replayGuest]
@[simp] theorem guestPacket_apart : apart ps (guestPacket n h units s) = apart ps s := by simp [guestPacket]

@[simp] theorem homeRequest_apart [Fact (ps .cores = true)] (h : Header) {f : State → State} (hf : ∀ s, apart ps (f s) = apart ps s)
    (s : State) :
    apart ps (homeRequest h f s) = apart ps s := by simp [hf, homeRequest]

@[simp] theorem execRd_keepsApart [Fact (ps .cores = true)] : KeepsApart ps s (execRd h s) :=
  (keepsApart_next ..).2 (homeRequest_apart _ (fun _ => homeArrive_apart ..) s)

@[simp] theorem execWr_keepsApart [Fact (ps .cores = true)] : KeepsApart ps s (execWr h units s) := by
  simp only [execWr]
  split <;> simp

@[simp] theorem execRdNarrow_keepsApart [Fact (ps .cores = true)] : KeepsApart ps s (execRdNarrow h s) :=
  (keepsApart_next ..).2 (homeRequest_apart _ (fun _ => homeArrive_apart ..) s)

@[simp] theorem execWrNarrow_keepsApart [Fact (ps .cores = true)] : KeepsApart ps s (execWrNarrow h s) := by simp [execWrNarrow]
@[simp] theorem execAddNarrow_keepsApart [Fact (ps .cores = true)] : KeepsApart ps s (execAddNarrow h s) := by simp [execAddNarrow]
@[simp] theorem execFill_keepsApart [Fact (ps .hbm = true)] : KeepsApart ps s (execFill h check s) := by simp [execFill]
@[simp] theorem execWriteback_keepsApart [Fact (ps .hbm = true)] : KeepsApart ps s (execWriteback h units s) := by simp [execWriteback]
@[simp] theorem execMcRd32_keepsApart [Fact (ps .hbm = true)] : KeepsApart ps s (execMcRd32 h check s) := by simp [execMcRd32]

@[simp] theorem execMcWr32_keepsApart [Fact (ps .hbm = true)] (add : Bool) : KeepsApart ps s (execMcWr32 h add check s) := by
  simp [execMcWr32]

@[simp] theorem execPatrolScrub_keepsApart [Fact (ps .hbm = true)] : KeepsApart ps s (execPatrolScrub pa check s) := by
  obtain ⟨place, hplace⟩ : ∃ f, f = placeOf := exists_eq
  refine (keepsApart_next ..).2 ?_
  rw [← hplace]
  split
  · rfl
  · simp
  · split <;> simp -implicitDefEqProofs

@[simp] theorem coherent_apart [Fact (ps .cores = true)] (h : Header) {f : Nat → State → State}
    (hf : ∀ a s, apart ps (f a s) = apart ps s) (s : State) :
    apart ps (coherent h f s) = apart ps s := by
  simp only [coherent]
  (repeat' split) <;> simp [hf]

@[simp] theorem execRdShared_keepsApart [Fact (ps .cores = true)] : KeepsApart ps s (execRdShared h s) := by simp [execRdShared]
@[simp] theorem execRdOwn_keepsApart [Fact (ps .cores = true)] : KeepsApart ps s (execRdOwn h s) := by simp [execRdOwn]
@[simp] theorem execUpgrade_keepsApart [Fact (ps .cores = true)] : KeepsApart ps s (execUpgrade h s) := by simp [execUpgrade]
@[simp] theorem execEvictClean_keepsApart [Fact (ps .cores = true)] : KeepsApart ps s (execEvictClean h s) := by simp [execEvictClean]

@[simp] theorem execEvictDirty_keepsApart [Fact (ps .cores = true)] : KeepsApart ps s (execEvictDirty h units s) := by
  simp [execEvictDirty]

@[simp] theorem execSnoopAnswer_keepsApart [Fact (ps .cores = true)] (dirty : Nat) :
    KeepsApart ps s (execSnoopAnswer agent pa status state withData dirty data s) := by simp [execSnoopAnswer]

@[simp] theorem execFillData_keepsApart [Fact (ps .cores = true)] : KeepsApart ps s (execFillData pa status mask data s) := by
  simp [execFillData]

@[simp] theorem agentSend_apart : apart ps (agentSend a pa op arg units s) = apart ps s := (rfl)

@[simp] theorem execCoreLoad_keepsApart : KeepsApart ps s (execCoreLoad core pa s) := by
  simp only [execCoreLoad]
  (repeat' split) <;> simp

@[simp] theorem execCoreStore_keepsApart : KeepsApart ps s (execCoreStore core pa data s) := by
  simp only [execCoreStore]
  (repeat' split) <;> simp

@[simp] theorem execCoreReplace_keepsApart : KeepsApart ps s (execCoreReplace core pa s) := by
  simp only [execCoreReplace]
  (repeat' split) <;> simp

@[simp] theorem answerSnoop_apart (keeps : Bool) (g : Option AgLine) : apart ps (answerSnoop a pa inv keeps g s) = apart ps s := (rfl)

@[simp] theorem actSnoop_apart : apart ps (actSnoop a pa inv s) = apart ps s := by
  simp only [actSnoop]
  (repeat' split) <;> simp

@[simp] theorem setPortHold_apart (p : PortHold) : apart ps (setPortHold a pa p s) = apart ps s := (rfl)
@[simp] theorem snoopArrives_apart : apart ps (snoopArrives a pa inv s) = apart ps s := by simp [snoopArrives]
@[simp] theorem execSnpShared_keepsApart : KeepsApart ps s (execSnpShared agent pa s) := by simp [execSnpShared]
@[simp] theorem execSnpInv_keepsApart : KeepsApart ps s (execSnpInv agent pa s) := by simp [execSnpInv]

@[simp] theorem execGrant_keepsApart : KeepsApart ps s (execGrant agent pa status state withData data s) := by
  simp only [execGrant]
  (repeat' split) <;> simp

@[simp] theorem execEvictionAck_keepsApart : KeepsApart ps s (execEvictionAck agent pa s) := by
  unfold execEvictionAck
  split <;> simp

@[simp] theorem execHoldRelease_keepsApart : KeepsApart ps s (execHoldRelease agent pa s) := by simp [execHoldRelease]

@[simp] theorem execSnoopAnswerTimeout_keepsApart [Fact (ps .cores = true)] : KeepsApart ps s (execSnoopAnswerTimeout agent pa s) := by
  simp [execSnoopAnswerTimeout]

@[simp] theorem execWalkRd_keepsApart [Fact (ps .cores = true)] : KeepsApart ps s (execWalkRd h s) :=
  (keepsApart_next ..).2 (homeRequest_apart _ (fun _ => homeArrive_apart ..) s)

@[simp] theorem execPteUpdate_keepsApart [Fact (ps .cores = true)] : KeepsApart ps s (execPteUpdate h s) := by simp [execPteUpdate]
@[simp] theorem execXlateReq_keepsApart : KeepsApart ps s (execXlateReq holder sub h s) := by simp [execXlateReq]

@[simp] theorem execXlateInv_keepsApart : KeepsApart ps s (execXlateInv holder h placement s) := by
  simp only [execXlateInv]
  split <;> simp

@[simp] theorem execDirtySet_keepsApart : KeepsApart ps s (execDirtySet holder sub h s) := by
  simp only [execDirtySet]
  (repeat' split) <;> simp

@[simp] theorem execCountAdd_keepsApart : KeepsApart ps s (execCountAdd h s) := by simp [execCountAdd]
@[simp] theorem execFaultResume_keepsApart : KeepsApart ps s (execFaultResume fn ctx id action s) := by simp [execFaultResume]
@[simp] theorem execInvCmd_keepsApart : KeepsApart ps s (execInvCmd fn ctx epoch signal signalEn s) := by simp [execInvCmd]
@[simp] theorem execInvComplete_keepsApart : KeepsApart ps s (execInvComplete ctx s) := by simp [execInvComplete]
@[simp] theorem execXlateRootWrite_keepsApart : KeepsApart ps s (execXlateRootWrite fn ctx valid table s) := by simp [execXlateRootWrite]
@[simp] theorem fqEnable_apart (l : Nat) : apart ps (fqEnable k l irqEn s) = apart ps s := by simp [fqEnable]
@[simp] theorem fqDisable_apart : apart ps (fqDisable k s) = apart ps s := by simp [fqDisable]
@[simp] theorem fqDoorbell_apart (h : Nat) : apart ps (fqDoorbell k h s) = apart ps s := by simp [fqDoorbell]

@[simp] theorem execFqEnable_keepsApart (log2Size : Nat) : KeepsApart ps s (execFqEnable fn ctx log2Size irqEn s) := by
  simp [execFqEnable]

@[simp] theorem execFqDisable_keepsApart : KeepsApart ps s (execFqDisable fn ctx s) := by simp [execFqDisable]
@[simp] theorem execFqDoorbell_keepsApart (head : Nat) : KeepsApart ps s (execFqDoorbell fn ctx head s) := by simp [execFqDoorbell]

@[simp] theorem execFaultTimeout_keepsApart : KeepsApart ps s (execFaultTimeout ctx id s) := by
  simp only [execFaultTimeout]
  (repeat' split) <;> simp

@[simp] theorem execGuestInvLate_keepsApart (site : Nat) : KeepsApart ps s (execGuestInvLate site ctx epoch s) := by
  simp [execGuestInvLate]

@[simp] theorem winXlate_apart (k : Nat) (e : Envelope) {f : State → State} (hf : ∀ s, apart ps (f s) = apart ps s) (s : State) :
    apart ps (winXlate k e f s) = apart ps s := by simp [hf, winXlate]

@[simp] theorem execRootSet_keepsApart : KeepsApart ps s (execRootSet ctx env word s) := by simp [execRootSet]

@[simp] theorem execInvalidate_keepsApart (cmd : Nat) : KeepsApart ps s (execInvalidate ctx env base pages cmd s) := by
  simp [execInvalidate]

@[simp] theorem execSealedResume_keepsApart : KeepsApart ps s (execSealedResume ctx env word s) := by simp [execSealedResume]

end Sys2Proof.Machine
end

section
/-! The frames of the hub's own parts (R128, R203, R397, R427): the regulator, HBM and the placement loop (R222 to R236, R279 to R293). -/

namespace Sys2Proof.Machine

variable {ps : HubPart → Bool} (k c page ctx cls base ch slot channel n stack p result read write failed a b region off : Nat)
  (owner : Bool) (s : State)

@[simp] theorem shareRate_apart : apart ps (shareRate k c s) = apart ps s := by simp [shareRate]
@[simp] theorem execRateRecompute_keepsApart : KeepsApart ps s (execRateRecompute s) := by simp [execRateRecompute]

@[simp] theorem execQueueStarvation_keepsApart [Fact (ps .hbm = true)] (queue : Nat) :
    KeepsApart ps s (execQueueStarvation page queue s) := by
  simp only [execQueueStarvation]
  (repeat' split) <;> simp

@[simp] theorem guaranteeWrite_apart (g : Nat) : apart ps (guaranteeWrite k c g s) = apart ps s := by simp [guaranteeWrite]

@[simp] theorem execGuaranteeWrite_keepsApart (gbs : Nat) : KeepsApart ps s (execGuaranteeWrite ctx cls gbs s) := by
  simp [execGuaranteeWrite]

@[simp] theorem rangeEnable_apart (i : Nat) : apart ps (rangeEnable i c base s) = apart ps s := by simp [rangeEnable]

@[simp] theorem execRangeEnableWrite_keepsApart (range : Nat) : KeepsApart ps s (execRangeEnableWrite range cls base s) := by
  simp [execRangeEnableWrite]

@[simp] theorem classPoolWrite_apart (v : Nat) : apart ps (classPoolWrite v s) = apart ps s := by simp [classPoolWrite]

@[simp] theorem execClassPoolWrite_keepsApart (value : Nat) : KeepsApart ps s (execClassPoolWrite value s) := by
  simp [execClassPoolWrite]

@[simp] theorem enterSlot_apart [Fact (ps .hbm = true)] : apart ps (enterSlot ch slot s) = apart ps s := by
  unfold enterSlot
  dsimp only
  split
  · simp
  · refine (foldl_pair_apart (fun r e => ?_) _ _).trans (by simp)
    split <;> simp

@[simp] theorem execSlotBoundary_keepsApart [Fact (ps .hbm = true)] : KeepsApart ps s (execSlotBoundary channel slot s) := by
  simp [execSlotBoundary]

@[simp] theorem execSealedResponseRelease_keepsApart (tag age : Nat) : KeepsApart ps s (execSealedResponseRelease ctx tag age s) := by
  simp only [execSealedResponseRelease]
  split <;> simp

@[simp] theorem loseMemory_apart (ks : List Nat) : apart ps (loseMemory page ks s) = apart ps s := by simp [loseMemory]
@[simp] theorem failQueue_apart [Fact (ps .hbm = true)] : apart ps (failQueue ch s) = apart ps s := by simp [failQueue]

@[simp] theorem fenceStack_apart [Fact (ps .hbm = true)] : apart ps (fenceStack n s) = apart ps s := by
  simp only [fenceStack]
  (repeat' split) <;> simp

@[simp] theorem execHbmTempRead_keepsApart [Fact (ps .hbm = true)] (reading : Option Int) :
    KeepsApart ps s (execHbmTempRead stack reading s) := by
  simp only [execHbmTempRead]
  (repeat' split) <;> simp

@[simp] theorem execHbmThrottleDecision_keepsApart [Fact (ps .hbm = true)] : KeepsApart ps s (execHbmThrottleDecision stack s) := by
  simp only [execHbmThrottleDecision]
  split <;> simp

@[simp] theorem execHbmStackReturn_keepsApart [Fact (ps .hbm = true)] : KeepsApart ps s (execHbmStackReturn stack s) := by
  simp only [execHbmStackReturn]
  (repeat' split) <;> simp

@[simp] theorem showEvac_apart : apart ps (showEvac s) = apart ps s := by simp [showEvac]

@[simp] theorem showWaiting_apart : apart ps (showWaiting p s) = apart ps s := by
  unfold showWaiting
  split <;> simp

@[simp] theorem endEvacOp_apart : apart ps (endEvacOp p result s) = apart ps s := by
  unfold endEvacOp
  split <;> simp

@[simp] theorem fenceChannel_apart [Fact (ps .hbm = true)] : apart ps (fenceChannel ch s) = apart ps s := by simp [fenceChannel]

@[simp] theorem beginEvac_apart [Fact (ps .hbm = true)] : apart ps (beginEvac ch owner s) = apart ps s := by
  simp only [beginEvac]
  (repeat' split) <;> simp

@[simp] theorem listEvac_apart [Fact (ps .hbm = true)] : apart ps (listEvac ch owner s) = apart ps s := by simp [listEvac]
@[simp] theorem hubEvac_apart [Fact (ps .hbm = true)] : apart ps (hubEvac ch s) = apart ps s := by simp [hubEvac]

@[simp] theorem execChannelEvacuation_keepsApart [Fact (ps .hbm = true)] : KeepsApart ps s (execChannelEvacuation stack channel s) := by
  simp [execChannelEvacuation]

@[simp] theorem execEvacuationDequeue_keepsApart [Fact (ps .hbm = true)] : KeepsApart ps s (execEvacuationDequeue s) := by
  unfold execEvacuationDequeue
  split <;> simp

@[simp] theorem execEvacBlockCopied_keepsApart [Fact (ps .hbm = true)] (block : Nat) (lost : Option Nat) :
    KeepsApart ps s (execEvacBlockCopied block lost s) := by
  simp only [execEvacBlockCopied]
  (repeat' split) <;> simp

@[simp] theorem execEvacSwitch_keepsApart [Fact (ps .hbm = true)] : KeepsApart ps s (execEvacSwitch s) := by
  have hdone (l : List Nat) (t : State) : apart ps (l.foldl (fun s k =>
      setFld (pageHbm k) Reg.EVAC_STATUS_DONE (fld s (pageHbm k) Reg.EVAC_STATUS_DONE + 1) s) t) = apart ps t :=
    foldl_apart (fun s k => setFld_apart ..) l t
  refine (keepsApart_next ..).2 ?_
  split
  · rfl
  split
  · rfl
  · dsimp only
    simp -implicitDefEqProofs [hdone]

@[simp] theorem execCeThreshold_keepsApart [Fact (ps .hbm = true)] : KeepsApart ps s (execCeThreshold channel s) := by
  simp [execCeThreshold]

@[simp] theorem announce_apart [Fact (ps .hbm = true)] : apart ps (announce ch s) = apart ps s := by simp [announce]

@[simp] theorem execPeriodicRetrain_keepsApart [Fact (ps .hbm = true)] : KeepsApart ps s (execPeriodicRetrain stack s) := by
  simp only [execPeriodicRetrain]
  (repeat' split) <;> simp

@[simp] theorem execRetrainPause_keepsApart [Fact (ps .hbm = true)] : KeepsApart ps s (execRetrainPause channel s) := by
  simp [execRetrainPause]

@[simp] theorem endPause_apart [Fact (ps .hbm = true)] : apart ps (endPause ch s) = apart ps s := by
  simp only [endPause]
  split <;> simp

@[simp] theorem endRetrainOp_apart : apart ps (endRetrainOp ch result s) = apart ps s := by simp [endRetrainOp]
@[simp] theorem retrainOverrun_apart [Fact (ps .hbm = true)] : apart ps (retrainOverrun ch s) = apart ps s := by simp [retrainOverrun]

@[simp] theorem execRetrainOverrun_keepsApart [Fact (ps .hbm = true)] : KeepsApart ps s (execRetrainOverrun channel s) := by
  simp [execRetrainOverrun]

@[simp] theorem execRetrainEnd_keepsApart [Fact (ps .hbm = true)] : KeepsApart ps s (execRetrainEnd channel read write s) := by
  simp [execRetrainEnd]

@[simp] theorem calTrimWrite_apart [Fact (ps .hbm = true)] (override : Bool) :
    apart ps (calTrimWrite stack read write override s) = apart ps s := by simp [calTrimWrite]

@[simp] theorem execCalTrimOverride_keepsApart [Fact (ps .hbm = true)] : KeepsApart ps s (execCalTrimOverride stack read write s) := by
  simp [execCalTrimOverride]

@[simp] theorem execImmediateRetrain_keepsApart [Fact (ps .hbm = true)] : KeepsApart ps s (execImmediateRetrain stack channel s) := by
  simp [execImmediateRetrain]

@[simp] theorem laneCheck_apart [Fact (ps .hbm = true)] : apart ps (laneCheck ch failed s) = apart ps s := by simp [laneCheck]

@[simp] theorem execHbmLaneCheck_keepsApart [Fact (ps .hbm = true)] : KeepsApart ps s (execHbmLaneCheck stack channel failed s) := by
  simp only [execHbmLaneCheck]
  (repeat' split) <;> simp

@[simp] theorem swapListed_apart : apart ps (swapListed k a b s) = apart ps s := pastAccess_apart.swapListed ..
@[simp] theorem addMigration_apart (promote : Bool) : apart ps (addMigration k region a b promote s) = apart ps s := (rfl)

@[simp] theorem decide231_apart (minCount hyst : Nat) (l : List Placed) : apart ps (decide231 k minCount hyst n l s) = apart ps s := by
  obtain ⟨free, hfree⟩ : ∃ f, f = freeIn := exists_eq
  obtain ⟨regions, hregions⟩ : ∃ f, f = regionsIn := exists_eq
  delta decide231 decide231._f
  rw [← hfree, ← hregions]
  induction n generalizing l s with
  | zero => rfl
  | succ n ih =>
    cases l with
    | nil => rfl
    | cons c cs =>
      dsimp only [Nat.brecOn] at ih ⊢
      split
      · rfl
      split
      · exact ih _ _
      split
      · rfl
      split
      · rfl
      split
      · rfl
      · exact ih _ _

@[simp] theorem dropStale_apart : apart ps (dropStale k s) = apart ps s := foldl_apart (fun s f => by split <;> simp) _ s
@[simp] theorem halveCounts_apart : apart ps (halveCounts k s) = apart ps s := foldl_apart (fun s f => by split <;> simp) _ s
@[simp] theorem execPlacementInterval_keepsApart : KeepsApart ps s (execPlacementInterval ctx s) := by simp [execPlacementInterval]
@[simp] theorem setMigrations_apart (l : List Migration) : apart ps (setMigrations l s) = apart ps s := (rfl)
@[simp] theorem dropMigration_apart (m : Migration) : apart ps (dropMigration m s) = apart ps s := by simp [dropMigration]
@[simp] theorem copyFrame_apart : apart ps (copyFrame a b s) = apart ps s := by simp [copyFrame]

@[simp] theorem execMigrationCopyDone_keepsApart : KeepsApart ps s (execMigrationCopyDone ctx s) := by
  obtain ⟨bad, hbad⟩ : ∃ f, f = badIn := exists_eq
  obtain ⟨copy, hcopy, hc⟩ : ∃ f, f = copyFrame ∧ ∀ a b s, apart ps (f a b s) = apart ps s := ⟨_, rfl, copyFrame_apart⟩
  refine (keepsApart_next ..).2 ?_
  rw [← hbad, ← hcopy]
  split
  · rfl
  split
  · rfl
  split
  · simp -implicitDefEqProofs
  split
  · simp -implicitDefEqProofs
  · exact (startInval_apart _ _).trans (hc ..)

@[simp] theorem remapRegion_apart (f : Nat) : apart ps (remapRegion k region f s) = apart ps s := by
  unfold remapRegion
  split <;> simp

@[simp] theorem moveCounts_apart : apart ps (moveCounts k region a b s) = apart ps s := by simp [moveCounts]

@[simp] theorem execMigrationInstall_keepsApart : KeepsApart ps s (execMigrationInstall ctx s) := by
  obtain ⟨bad, hbad⟩ : ∃ f, f = badIn := exists_eq
  refine (keepsApart_next ..).2 ?_
  rw [← hbad]
  split
  · rfl
  split
  · rfl
  split
  · rfl
  dsimp only
  split
  · simp -implicitDefEqProofs
  split
  · simp -implicitDefEqProofs
  · simp -implicitDefEqProofs

@[simp] theorem ownerWrite_apart (k off : Nat) {f : State → State} (hf : ∀ s, apart ps (f s) = apart ps s) (s : State) :
    apart ps (ownerWrite k off f s) = apart ps s := by simp [hf, ownerWrite]

@[simp] theorem placeCmd_apart (op : Nat) : apart ps (placeCmd k region op s) = apart ps s := by
  simp only [placeCmd]
  (repeat' split) <;> simp

@[simp] theorem execPlaceHoldHbm_keepsApart : KeepsApart ps s (execPlaceHoldHbm ctx region s) := by simp [execPlaceHoldHbm]
@[simp] theorem execPlaceHoldPeat_keepsApart : KeepsApart ps s (execPlaceHoldPeat ctx region s) := by simp [execPlaceHoldPeat]
@[simp] theorem execPlaceReleaseHold_keepsApart : KeepsApart ps s (execPlaceReleaseHold ctx region s) := by simp [execPlaceReleaseHold]
@[simp] theorem writeWord_apart (k : PageKind) (w : Nat) : apart ps (writeWord p k off w s) = apart ps s := by simp [writeWord]

@[simp] theorem execPlaceSet_keepsApart (env : Envelope) (present ctrl list cnt cmd : Nat) :
    KeepsApart ps s (execPlaceSet ctx env present ctrl list cnt cmd s) := by simp [execPlaceSet]

@[simp] theorem wayMaskWrite_apart (m : Nat) : apart ps (wayMaskWrite k m s) = apart ps s := by simp [wayMaskWrite]
@[simp] theorem execWayMaskWrite_keepsApart (mask : Nat) : KeepsApart ps s (execWayMaskWrite ctx mask s) := by simp [execWayMaskWrite]

end Sys2Proof.Machine
end

section
/-! The frames of the hub's own parts (R128, R203, R397, R427): the guest sites and the sessions of Plarus (R303 to R342). -/

namespace Sys2Proof.Machine

variable {ps : HubPart → Bool} (n clock site step gen id status fn off width v severity dir lane i k : Nat) (f : Flit)
  (modes hist : List Nat) (body : List Byte) (data : Option Nat) (write : Bool) (p : TxPkt) (h : Header) (units : List Unit256)
  (s : State)

@[simp] theorem retrainSite_apart (detail : Nat) : apart ps (retrainSite n detail s) = apart ps s := by simp [retrainSite]
@[simp] theorem flitFailed_apart : apart ps (flitFailed n s) = apart ps s := by simp [flitFailed]
@[simp] theorem flitOutOfOrder_apart : apart ps (flitOutOfOrder n s) = apart ps s := by simp [flitOutOfOrder]
@[simp] theorem takeReturns_apart : apart ps (takeReturns n f s).1 = apart ps s := by simp [takeReturns]

@[simp] theorem flitIn_apart (n : Nat) (f : Flit) (numbered : Bool) {act : State → State} (hf : ∀ s, apart ps (act s) = apart ps s)
    (s : State) :
    apart ps (flitIn n f numbered act s) = apart ps s := by
  have hret : apart ps (takeReturns n f s).1 = apart ps s := takeReturns_apart ..
  unfold flitIn
  split
  · rfl
  split
  · simp
  split
  · rename_i h
    rw [h] at hret
    simpa using hret
  · rename_i h
    rw [h] at hret
    (repeat' split) <;> simpa [hf] using hret

@[simp] theorem parsePackets_apart (fuel : Nat) : apart ps (parsePackets n clock fuel s) = apart ps s := by
  fun_induction parsePackets n clock fuel s
  case case4 ih => exact ih.trans ((guestPacket_apart ..).trans rfl)
  all_goals rfl

@[simp] theorem execIdle_keepsApart : KeepsApart ps s (execIdle site f s) := by simp [execIdle]
@[simp] theorem execPacket_keepsApart : KeepsApart ps s (execPacket site clock f s) := by simp [execPacket]
@[simp] theorem execKppAckTimer_keepsApart : KeepsApart ps s (execKppAckTimer site s) := by simp [execKppAckTimer]
@[simp] theorem execKppRetrain_keepsApart : KeepsApart ps s (execKppRetrain site s) := by simp [execKppRetrain]

@[simp] theorem startFailed_apart (reason : Nat) : apart ps (startFailed n reason s) = apart ps s := by
  simp only [startFailed]
  split <;> simp

@[simp] theorem startSite_apart : apart ps (startSite n s) = apart ps s := by simp [startSite]
@[simp] theorem execSiteReturn_keepsApart (present : Bool) : KeepsApart ps s (execSiteReturn site present s) := by simp [execSiteReturn]
@[simp] theorem execSiteRailGood_keepsApart (mv : Nat) : KeepsApart ps s (execSiteRailGood site mv s) := by simp [execSiteRailGood]
@[simp] theorem execSiteResetRelease_keepsApart : KeepsApart ps s (execSiteResetRelease site s) := by simp [execSiteResetRelease]
@[simp] theorem execSiteSidebandUp_keepsApart : KeepsApart ps s (execSiteSidebandUp site s) := by simp [execSiteSidebandUp]
@[simp] theorem showLanes_apart : apart ps (showLanes n modes s) = apart ps s := by simp [showLanes]

@[simp] theorem execSiteLinkTrained_keepsApart (rate : Nat) (spares : List Nat) (rechosen : Nat) :
    KeepsApart ps s (execSiteLinkTrained site rate modes spares rechosen s) := by simp [execSiteLinkTrained]

@[simp] theorem execSiteStartTimeout_keepsApart : KeepsApart ps s (execSiteStartTimeout site s) := by simp [execSiteStartTimeout]
@[simp] theorem attestSend_apart : apart ps (attestSend n step s) = apart ps s := by simp [attestSend]
@[simp] theorem attestStart_apart (why : AttestWhy) : apart ps (attestStart n why step s) = apart ps s := by simp [attestStart]

@[simp] theorem enterService_apart : apart ps (enterService n s) = apart ps s := by
  simp only [enterService]
  split <;> simp

@[simp] theorem attestEnd_apart (digest : Option Nat) : apart ps (attestEnd n digest s) = apart ps s := by
  unfold attestEnd
  extract_lets p why s1 d s2 s3 s4
  have h2 : apart ps s2 = apart ps s := (foldl_apart (by simp) _ _).trans rfl
  have h4 : apart ps s4 = apart ps s := by
    unfold s4 s3
    split <;> simp [h2]
  clear_value s4 why
  cases why
  case op =>
    dsimp only
    split
    · split <;> simp [h4]
    · exact h4
  all_goals simp [h4]

@[simp] theorem spdmStep_apart (a : SpdmAnswer) : apart ps (spdmStep n a s) = apart ps s := by
  simp only [spdmStep]
  (repeat' split) <;> simp

@[simp] theorem execSpdm_keepsApart (answer : SpdmAnswer) : KeepsApart ps s (execSpdm site answer s) := by simp [execSpdm]
@[simp] theorem execSpdmTimeout_keepsApart : KeepsApart ps s (execSpdmTimeout site s) := by simp [execSpdmTimeout]
@[simp] theorem hello_apart (b : List Byte) : apart ps (hello n b s) = apart ps s := by simp [hello]
@[simp] theorem execHello_keepsApart : KeepsApart ps s (execHello site body s) := by simp [execHello]
@[simp] theorem sendClear_apart : apart ps (sendClear n s) = apart ps s := by simp [sendClear]
@[simp] theorem clearDone_apart : apart ps (clearDone n gen s) = apart ps s := by simp [clearDone]
@[simp] theorem execClearDone_keepsApart : KeepsApart ps s (execClearDone site gen s) := by simp [execClearDone]
@[simp] theorem pauseGuest_apart : apart ps (pauseGuest n s) = apart ps s := by simp [pauseGuest]
@[simp] theorem resumeGuest_apart : apart ps (resumeGuest n s) = apart ps s := by simp [resumeGuest]

@[simp] theorem unlessClearing_apart (n : Nat) {f : State → State} (hf : ∀ s, apart ps (f s) = apart ps s) (s : State) :
    apart ps (unlessClearing n f s) = apart ps s := by simp [hf, unlessClearing]

@[simp] theorem pausedMsg_apart : apart ps (pausedMsg n s) = apart ps s := by simp [pausedMsg]
@[simp] theorem execPaused_keepsApart : KeepsApart ps s (execPaused site s) := by simp [execPaused]

@[simp] theorem pieceDone_apart (nf sat : Option (Nat × Nat)) : apart ps (pieceDone n id status nf sat hist s) = apart ps s := by
  simp only [pieceDone]
  (repeat' split) <;> simp

@[simp] theorem execPieceDone_keepsApart (nonfinite saturated : Option (Nat × Nat)) :
    KeepsApart ps s (execPieceDone site id status nonfinite saturated hist s) := by simp [execPieceDone]

@[simp] theorem pieceBeat_apart : apart ps (pieceBeat n id s) = apart ps s := by simp [pieceBeat]
@[simp] theorem execPieceBeat_keepsApart : KeepsApart ps s (execPieceBeat site id s) := by simp [execPieceBeat]
@[simp] theorem preemptGuest_apart : apart ps (preemptGuest n s) = apart ps s := by simp [preemptGuest]
@[simp] theorem execPieceBeatTimeout_keepsApart : KeepsApart ps s (execPieceBeatTimeout site s) := by simp [execPieceBeatTimeout]
@[simp] theorem execStopBoundTimeout_keepsApart : KeepsApart ps s (execStopBoundTimeout site s) := by simp [execStopBoundTimeout]
@[simp] theorem execClearBoundTimeout_keepsApart : KeepsApart ps s (execClearBoundTimeout site s) := by simp [execClearBoundTimeout]

@[simp] theorem endGuestRead_apart : apart ps (endGuestRead n data s) = apart ps s := by
  simp only [endGuestRead]
  split <;> simp

@[simp] theorem execRegRsp_keepsApart : KeepsApart ps s (execRegRsp site data s) := by simp [execRegRsp]
@[simp] theorem guestReg_apart (data : Nat) : apart ps (guestReg fn n off width write data s) = apart ps s := by simp [guestReg]

@[simp] theorem execGuestRegAccess_keepsApart (data : Nat) : KeepsApart ps s (execGuestRegAccess fn site off width write data s) := by
  simp [execGuestRegAccess]

@[simp] theorem execGuestRegTimeout_keepsApart : KeepsApart ps s (execGuestRegTimeout site s) := by simp [execGuestRegTimeout]
@[simp] theorem sendPwr_apart : apart ps (sendPwr n v s) = apart ps s := by simp [sendPwr]
@[simp] theorem pwrAck_apart : apart ps (pwrAck n v s) = apart ps s := by simp [pwrAck]
@[simp] theorem execPwrAck_keepsApart (state : Nat) : KeepsApart ps s (execPwrAck site state s) := by simp [execPwrAck]
@[simp] theorem execSiteIdle_keepsApart : KeepsApart ps s (execSiteIdle site s) := by simp [execSiteIdle]
@[simp] theorem kppErrorMsg_apart : apart ps (kppErrorMsg n severity s) = apart ps s := by simp [kppErrorMsg]
@[simp] theorem execKppError_keepsApart (code : Nat) : KeepsApart ps s (execKppError site severity code s) := by simp [execKppError]
@[simp] theorem execGsTherm_keepsApart : KeepsApart ps s (execGsTherm site s) := by simp [execGsTherm]
@[simp] theorem execSiteOvercurrent_keepsApart : KeepsApart ps s (execSiteOvercurrent site s) := by simp [execSiteOvercurrent]
@[simp] theorem execSiteUndervoltage_keepsApart : KeepsApart ps s (execSiteUndervoltage site s) := by simp [execSiteUndervoltage]
@[simp] theorem degraded_apart (m : Nat) : apart ps (degraded n m dir lane s) = apart ps s := by simp [degraded]

@[simp] theorem execLaneFailure_keepsApart (module : Nat) : KeepsApart ps s (execLaneFailure site module dir lane s) := by
  simp [execLaneFailure]

@[simp] theorem setSession_apart (x : Session) : apart ps (setSession i x s) = apart ps s := (rfl)
@[simp] theorem modSession_apart (f : Session → Session) : apart ps (modSession i f s) = apart ps s := (rfl)
@[simp] theorem countUnauth_apart : apart ps (countUnauth s) = apart ps s := by simp [countUnauth]
@[simp] theorem countAuthDrop_apart : apart ps (countAuthDrop i s) = apart ps s := by simp [countAuthDrop]
@[simp] theorem countPlarus_apart : apart ps (countPlarus k n s) = apart ps s := by simp [countPlarus]
@[simp] theorem transmit_apart : apart ps (transmit i p s) = apart ps s := by simp [transmit]
@[simp] theorem pumpN_apart : apart ps (pumpN i n s) = apart ps s := by fun_induction pumpN i n s <;> simp_all
@[simp] theorem pump_apart : apart ps (pump i s) = apart ps s := by simp [pump]
@[simp] theorem plrSend_apart (plane : Plane) : apart ps (plrSend i plane h units s) = apart ps s := by simp [plrSend]
@[simp] theorem plrRequest_apart : apart ps (plrRequest i h units s) = apart ps s := by simp [plrRequest]
@[simp] theorem plrControl_apart (kind : Nat) : apart ps (plrControl i kind body s) = apart ps s := by simp [plrControl]
@[simp] theorem plrAck_apart : apart ps (plrAck i s) = apart ps s := by simp [plrAck]

@[simp] theorem emberUnsent_apart : apart ps (emberUnsent k h s) = apart ps s := by
  unfold emberUnsent
  split <;> simp

@[simp] theorem failWaiting_apart : apart ps (failWaiting i s) = apart ps s := by simp [failWaiting]
@[simp] theorem setEmber_apart (e : EmberSt) : apart ps (setEmber k e s) = apart ps s := (rfl)
@[simp] theorem setEmberState_apart : apart ps (setEmberState k v s) = apart ps s := (rfl)

@[simp] theorem journalLost_apart : apart ps (journalLost k s) = apart ps s := by
  simp only [journalLost]
  split <;> simp

@[simp] theorem sessionGone_apart : apart ps (sessionGone i s) = apart ps s := by simp [sessionGone]
@[simp] theorem sessionLost_apart : apart ps (sessionLost i s) = apart ps s := by simp [sessionLost]

@[simp] theorem sessionFree_apart : apart ps (sessionFree i s) = apart ps s := by
  unfold sessionFree
  dsimp only
  (repeat' split) <;> simp

@[simp] theorem sessionRelease_apart : apart ps (sessionRelease i s) = apart ps s := by
  unfold sessionRelease
  split <;> simp

@[simp] theorem drawHandshake_apart : apart ps (drawHandshake i s) = apart ps s := (rfl)
@[simp] theorem sendInit_apart : apart ps (sendInit i s) = apart ps s := (rfl)
@[simp] theorem sessionBind_apart : apart ps (sessionBind i k s) = apart ps s := by simp [sessionBind]

@[simp] theorem sessionOpened_apart (h : Handshake) (salt : List Byte) : apart ps (sessionOpened i h salt s) = apart ps s := by
  simp [sessionOpened]

@[simp] theorem retransmit_apart : apart ps (retransmit i p s) = apart ps s := by simp [retransmit]
@[simp] theorem takeAck_apart (h : PlrHdr) : apart ps (takeAck i h s) = apart ps s := by simp [takeAck]

@[simp] theorem plrReceive_apart (h : PlrHdr) {f : State → State} (hf : ∀ s, apart ps (f s) = apart ps s) (s : State) :
    apart ps (plrReceive h f s) = apart ps s := by simp [hf, plrReceive]

end Sys2Proof.Machine
end

section
/-! The frames of the hub's own parts (R128, R203, R397, R427): the kiln and the contexts (R295 to R302, R310 to R341). -/

namespace Sys2Proof.Machine

variable {ps : HubPart → Bool} (slot e f n op first engine i hub kind id k ctx : Nat) (l : List Nat) (units : List Unit256)
  (h : Header) (body nonce key : List Byte) (env : Envelope) (s : State)

@[simp] theorem setRound_apart (r : KilnRound) : apart ps (setRound slot r s) = apart ps s := (rfl)
@[simp] theorem modRound_apart (f : KilnRound → KilnRound) : apart ps (modRound slot f s) = apart ps s := (rfl)
@[simp] theorem setKilnPool_apart : apart ps (setKilnPool e l s) = apart ps s := (rfl)
@[simp] theorem setKilnQueue_apart (l : List KilnCommit) : apart ps (setKilnQueue e l s) = apart ps s := (rfl)
@[simp] theorem showKiln_apart : apart ps (showKiln e s) = apart ps s := by simp [showKiln]

@[simp] theorem kilnChange_apart (e : Nat) {f : State → State} (hf : ∀ s, apart ps (f s) = apart ps s) (s : State) :
    apart ps (kilnChange e f s) = apart ps s := by simp [hf, kilnChange]

@[simp] theorem ashFrameNow_apart : apart ps (ashFrameNow f s) = apart ps s := by simp [ashFrameNow]
@[simp] theorem freeFrame_apart : apart ps (freeFrame f s) = apart ps s := by simp [freeFrame]
@[simp] theorem drawFrames_apart : apart ps (drawFrames e n s).2 = apart ps s := (rfl)
@[simp] theorem returnFrames_apart : apart ps (returnFrames e l s) = apart ps s := by simp [returnFrames]

@[simp] theorem poolOp_apart (e op first : Nat) (ok : Nat → State → Bool) {act : List Nat → State → State}
    (hf : ∀ l s, apart ps (act l s) = apart ps s) (s : State) :
    apart ps (poolOp e op first ok act s) = apart ps s := by simp [hf, poolOp]

@[simp] theorem kilnPoolAdd_apart : apart ps (kilnPoolAdd e first s) = apart ps s := by simp [kilnPoolAdd]
@[simp] theorem kilnPoolRemove_apart : apart ps (kilnPoolRemove e first s) = apart ps s := by simp [kilnPoolRemove]
@[simp] theorem execKilnPoolAdd_keepsApart : KeepsApart ps s (execKilnPoolAdd engine first s) := by simp [execKilnPoolAdd]
@[simp] theorem execKilnPoolRemove_keepsApart : KeepsApart ps s (execKilnPoolRemove engine first s) := by simp [execKilnPoolRemove]
@[simp] theorem sendStatus_apart : apart ps (sendStatus slot i s) = apart ps s := by simp [sendStatus]
@[simp] theorem sendStatuses_apart : apart ps (sendStatuses slot s) = apart ps s := by simp [sendStatuses]

@[simp] theorem kilnSend_apart (addr opData : Nat) : apart ps (kilnSend slot hub op addr opData units s) = apart ps s := by
  simp only [kilnSend]
  split <;> simp

@[simp] theorem sendSigs_apart : apart ps (sendSigs slot hub s) = apart ps s := by simp [sendSigs]
@[simp] theorem sendSum_apart : apart ps (sendSum slot hub op kind s) = apart ps s := by simp [sendSum]

@[simp] theorem kilnAnswered_apart : apart ps (kilnAnswered h s) = apart ps s := by
  simp only [kilnAnswered]
  (repeat' split) <;> simp

@[simp] theorem endPut_apart (status : Nat) : apart ps (endPut id status s) = apart ps s := (rfl)

@[simp] theorem stopCommits_apart : apart ps (stopCommits slot s) = apart ps s := by
  simp only [stopCommits, returnFrames_apart, modRound_apart]
  refine (foldl_apart (fun s c => ?_) _ _).trans (setKilnQueue_apart ..)
  split <;> simp

@[simp] theorem destroyRound_apart (cause : Nat) : apart ps (destroyRound slot cause s) = apart ps s := by simp [destroyRound]
@[simp] theorem destroyAllRounds_apart : apart ps (destroyAllRounds s) = apart ps s := by simp [destroyAllRounds]
@[simp] theorem kilnLeave_apart : apart ps (kilnLeave k s) = apart ps s := (rfl)
@[simp] theorem checkRelease_apart : apart ps (checkRelease slot s) = apart ps s := by simp [checkRelease]

@[simp] theorem trySendPartial_apart : apart ps (trySendPartial slot s) = apart ps s := by
  simp only [trySendPartial]
  split <;> simp

@[simp] theorem checkOpen_apart : apart ps (checkOpen slot s) = apart ps s := by simp [checkOpen]
@[simp] theorem createRound_apart (pol : List Byte) : apart ps (createRound e pol s).2 = apart ps s := by simp [createRound]

@[simp] theorem joinRound_apart : apart ps (joinRound i body s) = apart ps s := by
  unfold joinRound
  extract_lets pol at_ slot s1 s2 r s3
  have h1 : apart ps s1 = apart ps s := by
    refine (modRound_apart ..).trans ?_
    unfold at_
    split
    · rfl
    · exact createRound_apart ..
  have h2 : apart ps s2 = apart ps s := (sendStatus_apart ..).trans ((showKiln_apart ..).trans h1)
  exact (checkOpen_apart ..).trans ((foldl_apart (by simp) _ _).trans h2)

@[simp] theorem execKilnJoin_keepsApart : KeepsApart ps s (execKilnJoin ctx env body s) := by
  refine (keepsApart_next ..).2 (winAccept_apart _ _ (fun s => ?_) s)
  split <;> simp

@[simp] theorem execKilnQuery_keepsApart (head : List Byte) : KeepsApart ps s (execKilnQuery ctx env head s) := by
  refine (keepsApart_next ..).2 (winAccept_apart _ _ (fun s => ?_) s)
  (repeat' split) <;> simp

@[simp] theorem kilnDiscard_apart (slot : Option Nat) : apart ps (kilnDiscard slot s) = apart ps s := by simp [kilnDiscard]

@[simp] theorem kilnTake_apart (h : Header) {f : Nat → Nat → State → Option State}
    (hf : ∀ slot hub s t, f slot hub s = some t → apart ps t = apart ps s) (s : State) :
    apart ps (kilnTake h f s) = apart ps s := by
  simp only [kilnTake]
  (repeat' split)
  · simp
  · simp
  · simp
  · simp
  · rename_i ht
    simp [hf _ _ _ _ ht]

@[simp] theorem execKlnSig_keepsApart : KeepsApart ps s (execKlnSig h units s) := by
  refine (keepsApart_next ..).2 (kilnTake_apart _ (fun slot _ s t ht => ?_) s)
  dsimp only at ht
  split at ht
  · nomatch ht
  split at ht <;> cases ht <;> simp

@[simp] theorem execKlnOpen_keepsApart : KeepsApart ps s (execKlnOpen h s) := by simp [execKlnOpen]

@[simp] theorem writeBuf_apart (buf : List Nat) (o : Nat) (d : List Byte) : apart ps (writeBuf buf o d s) = apart ps s := by
  simp [writeBuf]

@[simp] theorem execKlnPart_keepsApart : KeepsApart ps s (execKlnPart h units s) := by
  refine (keepsApart_next ..).2 ?_
  split
  · simp
  dsimp only
  split
  · rfl
  refine kilnTake_apart _ (fun slot hub s t ht => ?_) s
  split at ht
  · nomatch ht
  cases ht
  split <;> simp

@[simp] theorem execKlnPartEnd_keepsApart : KeepsApart ps s (execKlnPartEnd h s) := by
  refine (keepsApart_next ..).2 (kilnTake_apart _ (fun slot hub s t ht => ?_) s)
  dsimp only at ht
  split at ht
  · nomatch ht
  split at ht <;> cases ht
  · simp
  · exact kilnChange_apart _ (fun s => setKilnQueue_apart ..) s

@[simp] theorem enterReleased_apart : apart ps (enterReleased slot s) = apart ps s := by simp [enterReleased]
@[simp] theorem execKlnRel_keepsApart : KeepsApart ps s (execKlnRel h units s) := by simp [execKlnRel]
@[simp] theorem execKlnRelEnd_keepsApart : KeepsApart ps s (execKlnRelEnd h s) := by simp [execKlnRelEnd]

@[simp] theorem execKlnNotice_keepsApart : KeepsApart ps s (execKlnNotice h s) := by
  refine (keepsApart_next ..).2 (kilnTake_apart _ (fun slot hub s t ht => ?_) s)
  split at ht
  · nomatch ht
  · cases ht
    simp

@[simp] theorem kilnPut_apart : apart ps (kilnPut slot id s) = apart ps s := by simp [kilnPut]
@[simp] theorem commitSum_apart (map : Nat) (data : List Byte) : apart ps (commitSum slot map data s) = apart ps s := by simp [commitSum]
@[simp] theorem afterCommit_apart : apart ps (afterCommit slot s) = apart ps s := by simp [afterCommit]

@[simp] theorem commitPut_apart (p : Pass) : apart ps (commitPut slot p s) = apart ps s := by
  refine (congrArg (apart ps) (congr_fun₃ (by delta commitPut; rfl : commitPut = _) slot p s)).trans ?_
  generalize readSlotBy = read
  generalize badInSum = bad
  dsimp only
  split
  · exact accessFailed_apart ..
  split
  · exact (destroyRound_apart ..).trans (uncorrectable_apart ..)
  · refine (afterCommit_apart ..).trans ((sendStatus_apart ..).trans ((modPass_apart ..).trans ((modRound_apart ..).trans
      ((returnFrames_apart ..).trans ((commitSum_apart ..).trans ((drawFrames_apart ..).trans ?_))))))
    exact (foldl_apart (by simp) _ _).trans (drew_apart s)

@[simp] theorem execKilnCommit_keepsApart : KeepsApart ps s (execKilnCommit engine s) := by
  refine (keepsApart_next ..).2 ?_
  split
  · rfl
  split
  · rfl
  dsimp only
  split
  · refine kilnChange_apart _ (fun s => ?_) s
    split <;> simp
  split
  · exact kilnChange_apart _ (fun s => setKilnQueue_apart ..) s
  split
  · exact kilnChange_apart _ (fun s => setKilnQueue_apart ..) s
  split
  · rfl
  · refine kilnChange_apart _ (fun s => ?_) s
    split <;> simp

@[simp] theorem execKilnNoiseDone_keepsApart : KeepsApart ps s (execKilnNoiseDone slot s) := by
  simp only [execKilnNoiseDone]
  (repeat' split) <;> simp

@[simp] theorem execKilnDeadline_keepsApart : KeepsApart ps s (execKilnDeadline slot s) := by
  simp only [execKilnDeadline]
  (repeat' split) <;> simp

@[simp] theorem execKilnMargin_keepsApart : KeepsApart ps s (execKilnMargin slot s) := by simp [execKilnMargin]
@[simp] theorem execKilnWaitExpiry_keepsApart : KeepsApart ps s (execKilnWaitExpiry slot s) := by simp [execKilnWaitExpiry]
@[simp] theorem execKilnRetainExpiry_keepsApart : KeepsApart ps s (execKilnRetainExpiry slot s) := by simp [execKilnRetainExpiry]
@[simp] theorem execKilnSigResend_keepsApart : KeepsApart ps s (execKilnSigResend slot s) := by simp [execKilnSigResend]
@[simp] theorem execKilnRoundAshDone_keepsApart : KeepsApart ps s (execKilnRoundAshDone slot s) := by simp [execKilnRoundAshDone]
@[simp] theorem abandonTile_apart : apart ps (abandonTile n s) = apart ps s := by simp [abandonTile]

@[simp] theorem parkTile_apart : apart ps (parkTile k n s) = apart ps s := by
  obtain ⟨write, hwrite, hw⟩ := vwrite_apart_opaque (ps := ps)
  obtain ⟨slot, hslot⟩ : ∃ f, f = freeParkSlot := exists_eq
  refine (congrArg (apart ps) (congrFun (congr_fun₂ (by delta parkTile; rfl : parkTile = _) k n) s)).trans ?_
  rw [← hwrite, ← hslot]
  dsimp only
  split
  · simp
  split
  · simp
  split
  · simp
  · rename_i h
    simp -implicitDefEqProofs [hw h]

@[simp] theorem ashTile_apart : apart ps (ashTile k n s) = apart ps s := by simp [ashTile]
@[simp] theorem noteRelease_apart (index cnt gen : Nat) : apart ps (noteRelease k kind index cnt gen s) = apart ps s := (rfl)
@[simp] theorem beginFrameAsh_apart : apart ps (beginFrameAsh f s) = apart ps s := (rfl)
@[simp] theorem stopCtx_apart : apart ps (stopCtx k s) = apart ps s := by simp [stopCtx]

@[simp] theorem resetCtx_apart [Fact (ps .tags = true)] (keepMask : Bool) : apart ps (resetCtx k keepMask s) = apart ps s := by
  simp [resetCtx]

@[simp] theorem ctxRefuse_apart (reason : Nat) : apart ps (ctxRefuse k reason s) = apart ps s := by simp [ctxRefuse]
@[simp] theorem enterBuilding_apart [Fact (ps .tags = true)] : apart ps (enterBuilding k s) = apart ps s := by simp [enterBuilding]
@[simp] theorem cancelStalled_apart : apart ps (cancelStalled k s) = apart ps s := (rfl)
@[simp] theorem pauseWork_apart : apart ps (pauseWork k s) = apart ps s := by simp [pauseWork]
@[simp] theorem parkAway_apart : apart ps (parkAway k n s) = apart ps s := by simp [parkAway]
@[simp] theorem ctxPause_apart : apart ps (ctxPause k s) = apart ps s := by simp [ctxPause]
@[simp] theorem ctxPark_apart : apart ps (ctxPark k s) = apart ps s := by simp [ctxPark]
@[simp] theorem ctxResume_apart : apart ps (ctxResume k s) = apart ps s := by simp [ctxResume]
@[simp] theorem ctxRun_apart : apart ps (ctxRun k s) = apart ps s := by simp [ctxRun]
@[simp] theorem ctxSeal_apart : apart ps (ctxSeal k s) = apart ps s := by simp [ctxSeal]

@[simp] theorem endSite_apart : apart ps (endSite n s) = apart ps s := by
  simp only [endSite]
  split <;> simp

@[simp] theorem ctxEnd_apart : apart ps (ctxEnd k s) = apart ps s := by simp [ctxEnd]

@[simp] theorem endFree_apart (e : Nat × Nat) : apart ps (endFree e s) = apart ps s := by
  unfold endFree
  split <;> simp

@[simp] theorem endingAshDone_apart [Fact (ps .tags = true)] : apart ps (endingAshDone k s) = apart ps s := by simp [endingAshDone]

@[simp] theorem ctxCmd_apart [Fact (ps .tags = true)] : apart ps (ctxCmd k op s) = apart ps s := by
  simp only [ctxCmd]
  (repeat' split) <;> simp

@[simp] theorem execCtxCreate_keepsApart [Fact (ps .tags = true)] : KeepsApart ps s (execCtxCreate ctx s) := by simp [execCtxCreate]
@[simp] theorem execCtxSeal_keepsApart [Fact (ps .tags = true)] : KeepsApart ps s (execCtxSeal ctx s) := by simp [execCtxSeal]
@[simp] theorem execCtxStart_keepsApart [Fact (ps .tags = true)] : KeepsApart ps s (execCtxStart ctx s) := by simp [execCtxStart]
@[simp] theorem execCtxPause_keepsApart [Fact (ps .tags = true)] : KeepsApart ps s (execCtxPause ctx s) := by simp [execCtxPause]
@[simp] theorem execCtxPark_keepsApart [Fact (ps .tags = true)] : KeepsApart ps s (execCtxPark ctx s) := by simp [execCtxPark]
@[simp] theorem execCtxResume_keepsApart [Fact (ps .tags = true)] : KeepsApart ps s (execCtxResume ctx s) := by simp [execCtxResume]
@[simp] theorem execCtxEnd_keepsApart [Fact (ps .tags = true)] : KeepsApart ps s (execCtxEnd ctx s) := by simp [execCtxEnd]

@[simp] theorem execEndingAshDone_keepsApart [Fact (ps .tags = true)] : KeepsApart ps s (execEndingAshDone ctx s) := by
  simp [execEndingAshDone]

@[simp] theorem countReport_apart [Fact (ps .heart = true)] : apart ps (countReport s) = apart ps s := by simp [countReport]

@[simp] theorem keyExchange_apart [Fact (ps .heart = true)] (pub : List Byte) : apart ps (keyExchange k nonce pub s) = apart ps s := by
  simp [keyExchange]

@[simp] theorem execKeyExchange_keepsApart [Fact (ps .heart = true)] : KeepsApart ps s (execKeyExchange ctx env nonce key s) := by
  simp [execKeyExchange]

@[simp] theorem execTenantStart_keepsApart : KeepsApart ps s (execTenantStart ctx env s) := by simp [execTenantStart]

@[simp] theorem execReportReq_keepsApart [Fact (ps .heart = true)] : KeepsApart ps s (execReportReq ctx env nonce s) := by
  simp [execReportReq]

@[simp] theorem execTenantEnd_keepsApart : KeepsApart ps s (execTenantEnd ctx env s) := by simp [execTenantEnd]
@[simp] theorem execParkSet_keepsApart (word : Nat) : KeepsApart ps s (execParkSet ctx env word s) := by simp [execParkSet]

@[simp] theorem execWindowRekey_keepsApart [Fact (ps .heart = true)] : KeepsApart ps s (execWindowRekey ctx env nonce key s) := by
  simp [execWindowRekey]

@[simp] theorem execLogReq_keepsApart : KeepsApart ps s (execLogReq ctx env first s) := by simp [execLogReq]

@[simp] theorem execOutAckRelease_keepsApart (fn : Nat) (release : Bool) : KeepsApart ps s (execOutAckRelease fn ctx release s) := by
  simp only [execOutAckRelease]
  (repeat' split) <;> simp

@[simp] theorem execInPostDiscard_keepsApart : KeepsApart ps s (execInPostDiscard ctx env s) := by simp [execInPostDiscard]

end Sys2Proof.Machine
end

section
/-! The frames of the hub's own parts (R128, R203, R397, R427): coppicing and the ember (R305 to R350). -/

namespace Sys2Proof.Machine

variable {ps : HubPart → Bool} (k kind index cnt gen n target ctx first count status op va : Nat) (r : CoppiceRun) (park : Bool)
  (h : Header) (env : Envelope) (units : List Unit256) (s : State)

@[simp] theorem noteBind_apart (tail : List Byte) : apart ps (noteBind k kind index cnt gen tail s) = apart ps s := (rfl)
@[simp] theorem takeFrames_apart (fs : List Nat) : apart ps (takeFrames k fs s) = apart ps s := by simp [takeFrames]

@[simp] theorem coppiceBind_apart : apart ps (coppiceBind k kind index cnt s) = apart ps s := by
  unfold coppiceBind
  split <;> simp

@[simp] theorem setCoppice_apart (r : Option CoppiceRun) : apart ps (setCoppice k r s) = apart ps s := (rfl)

@[simp] theorem coppiceStep_apart : apart ps (coppiceStep k n s) = apart ps s := by
  unfold coppiceStep
  split <;> simp

@[simp] theorem coppiceEnd_apart (result reason : Nat) : apart ps (coppiceEnd k result reason s) = apart ps s := by
  simp only [coppiceEnd]
  (repeat' split) <;> simp

@[simp] theorem coppiceBegin_apart : apart ps (coppiceBegin k r s) = apart ps s := by
  unfold coppiceBegin
  split
  case h_2 => exact (coppiceStep_apart ..).trans ((foldl_apart (by simp) _ _).trans ((dropAll_apart ..).trans (setCoppice_apart ..)))
  case h_6 =>
    refine (coppiceStep_apart ..).trans ?_
    split <;> simp
  all_goals simp

@[simp] theorem coppiceStart_apart : apart ps (coppiceStart k kind index cnt target park s) = apart ps s := by
  simp only [coppiceStart]
  (repeat' split) <;> simp

@[simp] theorem coppiceOwn_apart : apart ps (coppiceOwn k r gen s) = apart ps s := by simp [coppiceOwn]

@[simp] theorem tileStep_apart : apart ps (tileStep k r s) = apart ps s := by
  unfold tileStep
  dsimp only
  split
  · split <;> simp
  · refine (coppiceStep_apart ..).trans ((unbindPage_apart ..).trans ?_)
    split <;> simp
  · split <;> simp

@[simp] theorem siteStep_apart : apart ps (siteStep k r s) = apart ps s := by simp [siteStep]

@[simp] theorem coppiceStepDone_apart : apart ps (coppiceStepDone k s) = apart ps s := by
  simp only [coppiceStepDone]
  (repeat' split) <;> simp

@[simp] theorem coppiceForced_apart : apart ps (coppiceForced k kind index s) = apart ps s := by simp [coppiceForced]
@[simp] theorem coppiceCmd_apart : apart ps (coppiceCmd k kind index cnt target park s) = apart ps s := by simp [coppiceCmd]

@[simp] theorem execCoppiceTile_keepsApart (tile : Nat) : KeepsApart ps s (execCoppiceTile ctx tile target park s) := by
  simp [execCoppiceTile]

@[simp] theorem execCoppiceFrames_keepsApart : KeepsApart ps s (execCoppiceFrames ctx first count target s) := by simp [execCoppiceFrames]
@[simp] theorem execCoppiceWays_keepsApart : KeepsApart ps s (execCoppiceWays ctx first count target s) := by simp [execCoppiceWays]
@[simp] theorem execCoppiceSite_keepsApart (site : Nat) : KeepsApart ps s (execCoppiceSite ctx site target s) := by simp [execCoppiceSite]

@[simp] theorem execCoppiceSession_keepsApart (session : Nat) : KeepsApart ps s (execCoppiceSession ctx session target s) := by
  simp [execCoppiceSession]

@[simp] theorem execCoppiceKilnRound_keepsApart (handle : Nat) : KeepsApart ps s (execCoppiceKilnRound ctx handle target s) := by
  simp [execCoppiceKilnRound]

@[simp] theorem execCoppiceStepDone_keepsApart : KeepsApart ps s (execCoppiceStepDone ctx s) := by simp [execCoppiceStepDone]

@[simp] theorem ashFailed_apart (hit : CoppiceRun → Bool) : apart ps (ashFailed h status hit s) = apart ps s := by
  refine (foldl_apart (fun s k => ?_) _ _).trans ((raiseErr_apart ..).trans (respond_apart h status [] s))
  split
  · split <;> simp
  · rfl

@[simp] theorem ashCommand_apart (h : Header) (inval : Bool) {f : State → State} (hf : ∀ s, apart ps (f s) = apart ps s) (s : State) :
    apart ps (ashCommand h inval f s) = apart ps s := by simp [hf, ashCommand]

@[simp] theorem execAshFrames_keepsApart : KeepsApart ps s (execAshFrames h s) := by simp [execAshFrames]

@[simp] theorem execAshInval_keepsApart : KeepsApart ps s (execAshInval h s) := by
  unfold execAshInval
  split <;> simp

@[simp] theorem execAshSram_keepsApart : KeepsApart ps s (execAshSram h s) := by
  unfold execAshSram
  split <;> simp

@[simp] theorem execAshXlate_keepsApart : KeepsApart ps s (execAshXlate h s) := by simp [execAshXlate]

@[simp] theorem execAshWays_keepsApart : KeepsApart ps s (execAshWays h s) := by
  unfold execAshWays
  split <;> simp

@[simp] theorem modEmber_apart (f : EmberSt → EmberSt) : apart ps (modEmber k f s) = apart ps s := (rfl)
@[simp] theorem showLog_apart : apart ps (showLog k s) = apart ps s := by simp [showLog]

@[simp] theorem sendRun_apart (addr : Nat) (d : List Byte) : apart ps (sendRun k op addr d s) = apart ps s := by
  unfold sendRun
  split <;> simp

@[simp] theorem streamPage_apart (p : Nat × Nat × Nat × Nat) : apart ps (streamPage k p s) = apart ps s := by
  simp only [streamPage]
  split <;> simp

@[simp] theorem emberStream_apart : apart ps (emberStream k va s) = apart ps s := by
  unfold emberStream
  split <;> simp

@[simp] theorem execEmberStream_keepsApart : KeepsApart ps s (execEmberStream ctx va s) := by simp [execEmberStream]
@[simp] theorem loadState_apart [Fact (ps .tags = true)] (ws : List Nat) : apart ps (loadState k ws s) = apart ps s := by simp [loadState]
@[simp] theorem emberPointStart_apart (id : Nat) : apart ps (emberPointStart k id s) = apart ps s := by simp [emberPointStart]

@[simp] theorem emberPointFail_apart : apart ps (emberPointFail k s) = apart ps s := by
  simp only [emberPointFail]
  split <;> simp

@[simp] theorem emberPointSend_apart : apart ps (emberPointSend k s) = apart ps s := by
  simp only [emberPointSend]
  (repeat' split) <;> simp

@[simp] theorem emberAnswered_apart : apart ps (emberAnswered h status s) = apart ps s := by simp [emberAnswered]
@[simp] theorem emberStart_apart : apart ps (emberStart k s) = apart ps s := by simp [emberStart]
@[simp] theorem emberStop_apart : apart ps (emberStop k s) = apart ps s := by simp [emberStop]

@[simp] theorem promoteEnd_apart [Fact (ps .tags = true)] : apart ps (promoteEnd k s) = apart ps s := by
  simp only [promoteEnd]
  split <;> simp

@[simp] theorem emberPromote_apart [Fact (ps .tags = true)] : apart ps (emberPromote k s) = apart ps s := by simp [emberPromote]
@[simp] theorem emberOp_apart [Fact (ps .tags = true)] : apart ps (emberOp k op s) = apart ps s := by simp [emberOp]

@[simp] theorem execEmberJournalStart_keepsApart [Fact (ps .tags = true)] : KeepsApart ps s (execEmberJournalStart ctx s) := by
  simp [execEmberJournalStart]

@[simp] theorem execEmberJournalStop_keepsApart [Fact (ps .tags = true)] : KeepsApart ps s (execEmberJournalStop ctx s) := by
  simp [execEmberJournalStop]

@[simp] theorem execEmberPromoteOp_keepsApart [Fact (ps .tags = true)] : KeepsApart ps s (execEmberPromoteOp ctx s) := by
  simp [execEmberPromoteOp]

@[simp] theorem winEmber_apart (k type : Nat) (e : Envelope) (reason : State → Nat) {f : State → State}
    (hf : ∀ s, apart ps (f s) = apart ps s) (s : State) :
    apart ps (winEmber k type e reason f s) = apart ps s := by simp [hf, winEmber]

@[simp] theorem execEmberSet_keepsApart (cfg log : Nat) : KeepsApart ps s (execEmberSet ctx env cfg log s) := by simp [execEmberSet]
@[simp] theorem execEmberStart_keepsApart : KeepsApart ps s (execEmberStart ctx env s) := by simp [execEmberStart]
@[simp] theorem execEmberStop_keepsApart : KeepsApart ps s (execEmberStop ctx env s) := by simp [execEmberStop]

@[simp] theorem execEmberPromote_keepsApart [Fact (ps .tags = true)] : KeepsApart ps s (execEmberPromote ctx env s) := by
  simp [execEmberPromote]

@[simp] theorem embTake_apart (h : Header) {f : Nat → State → Option State} (hf : ∀ k s t, f k s = some t → apart ps t = apart ps s)
    (s : State) :
    apart ps (embTake h f s) = apart ps s := by
  unfold embTake
  extract_lets i k id ep drop st bound fresh past u
  have hdrop : apart ps (drop s) = apart ps s := count_apart ..
  split
  · exact hdrop
  split
  · exact hdrop
  split
  · exact hdrop
  have hu : apart ps u = apart ps s := by
    unfold u
    split <;> simp
  split
  · rename_i ht
    exact (plrSend_apart ..).trans ((hf _ _ _ ht).trans hu)
  · exact (plrSend_apart ..).trans hu

@[simp] theorem countPage_apart : apart ps (countPage k h n s) = apart ps s := by simp [countPage]

@[simp] theorem execEmbData_keepsApart : KeepsApart ps s (execEmbData h units s) := by
  refine (keepsApart_next ..).2 ?_
  dsimp only
  split
  · simp
  refine embTake_apart _ (fun k s t ht => ?_) s
  split at ht
  · split at ht
    · rename_i hw
      cases ht
      simp [vwrite_apart hw]
    · nomatch ht
  split at ht
  · nomatch ht
  split at ht
  · nomatch ht
  · rename_i hw
    cases ht
    simp [vwrite_apart hw]

@[simp] theorem execEmbState_keepsApart : KeepsApart ps s (execEmbState h units s) := by simp [execEmbState]
@[simp] theorem execEmbCommit_keepsApart : KeepsApart ps s (execEmbCommit h s) := by simp [execEmbCommit]

@[simp] theorem execEmbAck_keepsApart : KeepsApart ps s (execEmbAck h s) := by
  simp only [execEmbAck]
  (repeat' split) <;> simp

@[simp] theorem applyEntries_apart (l : List EmberEnt) : apart ps (applyEntries k l s) = apart ps s := by
  fun_induction applyEntries k l s
  case case4 hw ih => exact ih.trans (by simp [vwrite_apart hw])
  all_goals simp

@[simp] theorem execEmberApply_keepsApart [Fact (ps .tags = true)] : KeepsApart ps s (execEmberApply ctx s) := by
  simp only [execEmberApply]
  (repeat' split) <;> simp

end Sys2Proof.Machine
end

section
/-! The frames of the hub's own parts (R128, R203, R397, R427): time, the sessions and the port (R399 to R444). -/

namespace Sys2Proof.Machine

variable {ps : HubPart → Bool} (n ns sec c domain port mode i k session index word v value ctx pass exec id : Nat) (d : Int)
  (l2 fromPeer : Bool) (e : UnitErr) (h : Header) (units : List Unit256) (plane : Plane) (hs : Handshake) (nonce key : List Byte)
  (p : Pass) (q : Piece) (s : State)

@[simp] theorem showTime_apart : apart ps (showTime s) = apart ps s := by
  simp only [showTime]
  (repeat' split) <;> simp

@[simp] theorem setTimeSt_apart [Fact (ps .time = true)] : apart ps (setTimeSt n s) = apart ps s := by simp [setTimeSt]

@[simp] theorem sourceChange_apart [Fact (ps .time = true)] : apart ps (sourceChange s) = apart ps s := by
  unfold sourceChange
  split <;> simp

@[simp] theorem addTime_apart [Fact (ps .time = true)] : apart ps (addTime d s) = apart ps s := by simp [addTime]
@[simp] theorem sendTime_apart (op arg data : Nat) : apart ps (sendTime op arg data s) = apart ps s := by simp [sendTime]
@[simp] theorem stepTime_apart [Fact (ps .time = true)] : apart ps (stepTime d s) = apart ps s := by simp [stepTime]

@[simp] theorem phaseError_apart [Fact (ps .time = true)] (e : Int) : apart ps (phaseError e s) = apart ps s := by
  simp only [phaseError]
  (repeat' split) <;> simp

@[simp] theorem execPpsInEdge_keepsApart [Fact (ps .time = true)] (rawPs : Int) : KeepsApart ps s (execPpsInEdge rawPs s) := by
  simp [execPpsInEdge]

@[simp] theorem execPpsMissed_keepsApart [Fact (ps .time = true)] : KeepsApart ps s (execPpsMissed s) := by simp [execPpsMissed]

@[simp] theorem execRef10mInChange_keepsApart [Fact (ps .time = true)] (present : Bool) :
    KeepsApart ps s (execRef10mInChange present s) := by simp [execRef10mInChange]

@[simp] theorem execHoldoverEntry_keepsApart [Fact (ps .time = true)] : KeepsApart ps s (execHoldoverEntry s) := by
  simp [execHoldoverEntry]

@[simp] theorem execLockAchieved_keepsApart [Fact (ps .time = true)] : KeepsApart ps s (execLockAchieved s) := by simp [execLockAchieved]
@[simp] theorem execPhaseJump_keepsApart [Fact (ps .time = true)] : KeepsApart ps s (execPhaseJump s) := by simp [execPhaseJump]

@[simp] theorem execTimebaseStep_keepsApart [Fact (ps .time = true)] : KeepsApart ps s (execTimebaseStep s) := by
  unfold execTimebaseStep
  split <;> simp

@[simp] theorem execTimeEpoch_keepsApart [Fact (ps .time = true)] : KeepsApart ps s (execTimeEpoch s) := by simp [execTimeEpoch]
@[simp] theorem tbSet_apart [Fact (ps .time = true)] : apart ps (tbSet ns sec s) = apart ps s := by simp [tbSet]
@[simp] theorem execTbSet_keepsApart [Fact (ps .time = true)] : KeepsApart ps s (execTbSet ns sec s) := by simp [execTbSet]
@[simp] theorem tbCapture_apart : apart ps (tbCapture s) = apart ps s := by simp [tbCapture]
@[simp] theorem execTbCapture_keepsApart : KeepsApart ps s (execTbCapture s) := by simp [execTbCapture]
@[simp] theorem tbSource_apart [Fact (ps .time = true)] : apart ps (tbSource c s) = apart ps s := by simp [tbSource]

@[simp] theorem execTbSourceWrite_keepsApart [Fact (ps .time = true)] (source : Nat) : KeepsApart ps s (execTbSourceWrite source s) := by
  simp [execTbSourceWrite]

@[simp] theorem setRole_apart (p : Nat) : apart ps (setRole p n s) = apart ps s := by simp [setRole]

@[simp] theorem chooseRoles_apart [Fact (ps .time = true)] : apart ps (chooseRoles s) = apart ps s := by
  simp only [chooseRoles]
  split <;> simp

@[simp] theorem ptpChange_apart [Fact (ps .time = true)] (p : Nat) : apart ps (ptpChange p s) = apart ps s := by simp [ptpChange]

@[simp] theorem ptpMessage_apart [Fact (ps .time = true)] (p : Nat) (m : PtpMsg) :
    apart ps (ptpMessage p domain l2 m s) = apart ps s := by
  simp only [ptpMessage]
  (repeat' split) <;> simp

@[simp] theorem execPtpMessage_keepsApart [Fact (ps .time = true)] (msg : PtpMsg) :
    KeepsApart ps s (execPtpMessage port domain l2 msg s) := by simp [execPtpMessage]

@[simp] theorem execPtpSyncTimer_keepsApart : KeepsApart ps s (execPtpSyncTimer port s) := by simp [execPtpSyncTimer]

@[simp] theorem execGuestTimeMessage_keepsApart [Fact (ps .time = true)] (site : Nat) : KeepsApart ps s (execGuestTimeMessage site s)
    := by
  simp [execGuestTimeMessage]

@[simp] theorem execPpsOutPulse_keepsApart [Fact (ps .time = true)] (high : Bool) : KeepsApart ps s (execPpsOutPulse high s) := by
  simp [execPpsOutPulse]

@[simp] theorem portDown_apart [Fact (ps .time = true)] (p : Nat) : apart ps (portDown p s) = apart ps s := by simp [portDown]
@[simp] theorem portMode_apart [Fact (ps .time = true)] (p : Nat) : apart ps (portMode p mode s) = apart ps s := by simp [portMode]

@[simp] theorem execPortModeWrite_keepsApart [Fact (ps .time = true)] : KeepsApart ps s (execPortModeWrite port mode s) := by
  simp [execPortModeWrite]

@[simp] theorem execPortLinkDown_keepsApart [Fact (ps .time = true)] : KeepsApart ps s (execPortLinkDown port s) := by
  simp [execPortLinkDown]

@[simp] theorem execPortLinkUp_keepsApart [Fact (ps .time = true)] : KeepsApart ps s (execPortLinkUp port s) := by
  simp only [execPortLinkUp]
  (repeat' split) <;> simp

@[simp] theorem execPortRetrain_keepsApart : KeepsApart ps s (execPortRetrain port s) := by simp [execPortRetrain]

@[simp] theorem execRetrainDrainDone_keepsApart [Fact (ps .time = true)] (left : Nat) :
    KeepsApart ps s (execRetrainDrainDone port left s) := by
  simp only [execRetrainDrainDone]
  (repeat' split) <;> simp

@[simp] theorem remoteFailed_state : apart ps (remoteFailed i k e s).state = apart ps s := by
  have ht : apart ps (accessFailed k e.err (plainUnit 81 i e.va e.len e.access) none s) = apart ps s := accessFailed_apart ..
  unfold remoteFailed
  split <;> exact ht

@[simp] theorem remoteAccess_state : apart ps (remoteAccess i h units s).state = apart ps s := by
  unfold remoteAccess
  extract_lets k g sec u reads writes
  have hreads (r : Except UnitErr (List Byte)) (l : List Nat) : apart ps (reads r l).state = apart ps s := by
    cases r with
    | ok d => exact foldl_apart (by simp) _ _
    | error e => exact remoteFailed_state i k e s
  have hwrites (l : List (Nat × List Byte)) : apart ps (writes l).state = apart ps s := by
    unfold writes
    split
    · rename_i hw
      exact writeUnits_apart hw
    · exact remoteFailed_state ..
  clear_value reads writes
  split <;> simp [hreads, hwrites]

@[simp] theorem serveRemote_apart : apart ps (serveRemote i h units s) = apart ps s := by
  have hq : apart ps (remoteAccess i h units s).state = apart ps s := remoteAccess_state ..
  unfold serveRemote
  split
  · rename_i ht
    rw [ht] at hq
    exact hq
  · rename_i ht
    rw [ht] at hq
    (repeat' split) <;> exact (plrSend_apart ..).trans hq

@[simp] theorem replayRemote_apart (us : List StalledUnit) : apart ps (replayRemote us s) = apart ps s := by simp [replayRemote]
@[simp] theorem execResume_keepsApart (holder : Nat) : KeepsApart ps s (execResume holder h s) := by simp [execResume]
@[simp] theorem remote_apart : apart ps (remote fromPeer session h units s) = apart ps s := by simp [remote]
@[simp] theorem execRmRd_keepsApart : KeepsApart ps s (execRmRd fromPeer session h s) := by simp [execRmRd]
@[simp] theorem execRmWr_keepsApart : KeepsApart ps s (execRmWr fromPeer session h units s) := by simp [execRmWr]
@[simp] theorem execRmRd32_keepsApart : KeepsApart ps s (execRmRd32 fromPeer session h s) := by simp [execRmRd32]
@[simp] theorem execRmWr32_keepsApart : KeepsApart ps s (execRmWr32 fromPeer session h s) := by simp [execRmWr32]

@[simp] theorem execCollData_keepsApart (group seq rank shape offset : Nat) (total : Option Nat) :
    KeepsApart ps s (execCollData session group seq rank shape offset total units s) := by simp [execCollData]

@[simp] theorem takeResponse_apart : apart ps (takeResponse i h units s) = apart ps s := by
  unfold takeResponse
  split <;> simp

@[simp] theorem passOn_apart : apart ps (passOn i plane h units s) = apart ps s := by
  unfold passOn
  split <;> simp

@[simp] theorem reassemble_apart (first : Nat) : apart ps (reassemble i plane h first units s) = apart ps s := by simp [reassemble]
@[simp] theorem execData_keepsApart (h : PlrHdr) (hd : Header) : KeepsApart ps s (execData h plane hd units s) := by simp [execData]
@[simp] theorem execAck_keepsApart (h : PlrHdr) : KeepsApart ps s (execAck h s) := by simp [execAck]

@[simp] theorem execInit_keepsApart : KeepsApart ps s (execInit hs s) := by
  unfold execInit
  split <;> simp

@[simp] theorem execResp_keepsApart : KeepsApart ps s (execResp session hs s) := by simp [execResp]
@[simp] theorem execRekey_keepsApart (h : PlrHdr) : KeepsApart ps s (execRekey h nonce key s) := by simp [execRekey]
@[simp] theorem execRekeyAck_keepsApart (h : PlrHdr) : KeepsApart ps s (execRekeyAck h nonce key s) := by simp [execRekeyAck]
@[simp] theorem execFin_keepsApart (h : PlrHdr) : KeepsApart ps s (execFin h s) := by simp [execFin]
@[simp] theorem execFinAck_keepsApart (h : PlrHdr) : KeepsApart ps s (execFinAck h s) := by simp [execFinAck]
@[simp] theorem execInitResend_keepsApart : KeepsApart ps s (execInitResend session s) := by simp [execInitResend]
@[simp] theorem execHandshakeTimeout_keepsApart : KeepsApart ps s (execHandshakeTimeout session s) := by simp [execHandshakeTimeout]
@[simp] theorem sessionFails_apart : apart ps (sessionFails i s) = apart ps s := by simp [sessionFails]

@[simp] theorem execRtoExpiry_keepsApart (pn : Nat) : KeepsApart ps s (execRtoExpiry session pn s) := by
  unfold execRtoExpiry
  split <;> simp

@[simp] theorem execTransportAckTimer_keepsApart : KeepsApart ps s (execTransportAckTimer session s) := by simp [execTransportAckTimer]
@[simp] theorem execCcUpdate_keepsApart : KeepsApart ps s (execCcUpdate session s) := by simp [execCcUpdate]
@[simp] theorem execClosingTimeout_keepsApart : KeepsApart ps s (execClosingTimeout session s) := by simp [execClosingTimeout]
@[simp] theorem execRekeyTrigger_keepsApart : KeepsApart ps s (execRekeyTrigger session s) := by simp [execRekeyTrigger]
@[simp] theorem execKeyLimit_keepsApart : KeepsApart ps s (execKeyLimit session s) := by simp [execKeyLimit]
@[simp] theorem execOldPhaseExpiry_keepsApart : KeepsApart ps s (execOldPhaseExpiry session s) := by simp [execOldPhaseExpiry]
@[simp] theorem execKilnSessionBind_keepsApart : KeepsApart ps s (execKilnSessionBind index s) := by simp [execKilnSessionBind]
@[simp] theorem execKilnSessionRelease_keepsApart : KeepsApart ps s (execKilnSessionRelease index s) := by simp [execKilnSessionRelease]
@[simp] theorem sessionCfg_apart : apart ps (sessionCfg i word v s) = apart ps s := by simp [sessionCfg]

@[simp] theorem execSessionCfgWrite_keepsApart : KeepsApart ps s (execSessionCfgWrite session word value s) := by
  simp [execSessionCfgWrite]

@[simp] theorem groupCfg_apart (g : Nat) : apart ps (groupCfg g v s) = apart ps s := by simp [groupCfg]

@[simp] theorem execGroupCfgWrite_keepsApart (handle : Nat) : KeepsApart ps s (execGroupCfgWrite handle value s) := by
  simp [execGroupCfgWrite]

@[simp] theorem fetchEntry_apart (r : Nat) (again : Bool) : apart ps (fetchEntry k r index again s) = apart ps s := by
  simp only [fetchEntry]
  split <;> simp

@[simp] theorem execDescriptorFetch_keepsApart : KeepsApart ps s (execDescriptorFetch ctx s) := by
  simp only [execDescriptorFetch]
  (repeat' split) <;> simp

@[simp] theorem refusePass_apart (status detail : Nat) : apart ps (refusePass p status detail s) = apart ps s := by simp [refusePass]
@[simp] theorem dispatchFailed_apart : apart ps (dispatchFailed p e s) = apart ps s := by simp [dispatchFailed]

@[simp] theorem waitsSatisfied_apart : apart ps (waitsSatisfied p s) = apart ps s := by
  simp only [waitsSatisfied]
  (repeat' split) <;> simp

@[simp] theorem execFenceWaitSatisfied_keepsApart : KeepsApart ps s (execFenceWaitSatisfied pass s) := by
  unfold execFenceWaitSatisfied
  split <;> simp

@[simp] theorem sendPiece_apart : apart ps (sendPiece p q s) = apart ps s := by simp [sendPiece]

@[simp] theorem execPieceDispatch_keepsApart : KeepsApart ps s (execPieceDispatch ctx exec s) := by
  simp only [execPieceDispatch]
  (repeat' split) <;> simp

@[simp] theorem execPieceReissue_keepsApart : KeepsApart ps s (execPieceReissue ctx exec s) := by
  simp only [execPieceReissue]
  (repeat' split) <;> simp

@[simp] theorem leaveTiles_apart (qs : List Piece) : apart ps (leaveTiles p qs s) = apart ps s := by simp [leaveTiles]
@[simp] theorem pieceComputed_apart : apart ps (pieceComputed p s q) = apart ps s := by simp [pieceComputed]

@[simp] theorem runClass_apart (f : State → Pass → Except UnitErr ClassOut) : apart ps (runClass c f id s) = apart ps s := by
  unfold runClass
  split
  · rfl
  split
  · rfl
  extract_lets running h failed t
  have hfailed (s : State) (e : UnitErr) : apart ps (failed s e) = apart ps s := accessFailed_apart ..
  split
  · split
    · exact hfailed ..
    · exact foldl_apart hfailed _ _
  have ht : apart ps t = apart ps s := foldl_apart (by simp) _ _
  split
  · exact (foldl_apart hfailed _ _).trans ht
  · rename_i hw
    refine (drew_apart _).trans ((modPass_apart ..).trans ((foldl_apart (by simp) _ _).trans ?_))
    exact (writeUnits_apart hw).trans ht

@[simp] theorem execMatmul_keepsApart : KeepsApart ps s (execMatmul pass s) := by simp [execMatmul]
@[simp] theorem execAttend_keepsApart : KeepsApart ps s (execAttend pass s) := by simp [execAttend]
@[simp] theorem execVector_keepsApart : KeepsApart ps s (execVector pass s) := by simp [execVector]
@[simp] theorem execReduce_keepsApart : KeepsApart ps s (execReduce pass s) := by simp [execReduce]
@[simp] theorem execGather_keepsApart : KeepsApart ps s (execGather pass s) := by simp [execGather]
@[simp] theorem execScatter_keepsApart : KeepsApart ps s (execScatter pass s) := by simp [execScatter]
@[simp] theorem execHisto_keepsApart : KeepsApart ps s (execHisto pass s) := by simp [execHisto]
@[simp] theorem execTrees_keepsApart : KeepsApart ps s (execTrees pass s) := by simp [execTrees]
@[simp] theorem execConvert_keepsApart : KeepsApart ps s (execConvert pass s) := by simp [execConvert]
@[simp] theorem execCopy_keepsApart : KeepsApart ps s (execCopy pass s) := by simp [execCopy]
@[simp] theorem execLayout_keepsApart : KeepsApart ps s (execLayout pass s) := by simp [execLayout]

@[simp] theorem withPass_apart (c id : Nat) {f : Pass → State → State} (hf : ∀ p s, apart ps (f p s) = apart ps s) (s : State) :
    apart ps (withPass c id f s) = apart ps s := by
  simp only [withPass]
  (repeat' split) <;> simp [hf]

@[simp] theorem beginWhole_apart : apart ps (beginWhole p s) = apart ps s := (rfl)
@[simp] theorem endWhole_apart (g : Gathered) : apart ps (endWhole id g s) = apart ps s := (rfl)
@[simp] theorem collectiveFailed_apart : apart ps (collectiveFailed p e s) = apart ps s := by simp [collectiveFailed]
@[simp] theorem sendInput_apart (g : Group) (d : List Byte) : apart ps (sendInput p g d s) = apart ps s := by simp [sendInput]

@[simp] theorem collectiveStep_apart : apart ps (collectiveStep p s) = apart ps s := by
  unfold collectiveStep
  split
  · simp
  split
  · simp
  split
  · refine (sendInput_apart ..).trans ((beginWhole_apart ..).trans (foldl_apart (by simp) _ _))
  extract_lets parts others xs out
  split
  · simp
  split
  · rfl
  split
  · simp
  · rename_i t hw
    exact (endWhole_apart ..).trans (show apart ps t = _ from writeUnits_apart hw)

@[simp] theorem execCollective_keepsApart : KeepsApart ps s (execCollective pass s) := by simp [execCollective]

@[simp] theorem kilnPutStep_apart : apart ps (kilnPutStep p s) = apart ps s := by
  obtain ⟨find, hfind⟩ : ∃ f, f = roundOfHandle := exists_eq
  refine (congrArg (apart ps) (congr_fun₂ (by delta kilnPutStep; rfl : kilnPutStep = _) p s)).trans ?_
  rw [← hfind]
  (repeat' split) <;> simp

@[simp] theorem execKilnPut_keepsApart : KeepsApart ps s (execKilnPut pass s) := by simp [execKilnPut]

@[simp] theorem kilnTakeStep_apart : apart ps (kilnTakeStep p s) = apart ps s := by
  obtain ⟨write, hwrite, hw⟩ : ∃ f, f = writeUnits ∧ ∀ h k us s t, f h k us s = .ok t → apart ps t = apart ps s :=
    ⟨_, rfl, fun _ _ _ _ _ => writeUnits_apart⟩
  obtain ⟨find, hfind⟩ : ∃ f, f = roundOfHandle := exists_eq
  refine (congrArg (apart ps) (congr_fun₂ (by delta kilnTakeStep; rfl : kilnTakeStep = _) p s)).trans ?_
  rw [← hfind, ← hwrite]
  dsimp only
  split
  · simp
  split
  · simp
  split
  · simp
  split
  · simp
  · rename_i h
    simp [hw _ _ _ _ _ h]

@[simp] theorem execKilnTake_keepsApart : KeepsApart ps s (execKilnTake pass s) := by simp [execKilnTake]
@[simp] theorem execFence_keepsApart : KeepsApart ps s (execFence pass s) := by simp [execFence]
@[simp] theorem emberPointStep_apart : apart ps (emberPointStep p s) = apart ps s := by simp [emberPointStep]
@[simp] theorem execEmberPoint_keepsApart : KeepsApart ps s (execEmberPoint pass s) := by simp [execEmberPoint]

theorem finishOutputs_apart [Fact (ps .tags = true)] {p q : Pass} {s t : State} (h : finishOutputs p s = .ok (q, t)) :
    apart ps t = apart ps s := by
  unfold finishOutputs at h
  extract_lets hist o tagged at h
  have htagged (u : State) : apart ps (tagged u) = apart ps u := by
    simp only [tagged]
    (repeat' split) <;> simp
  split at h
  · obtain ⟨-, rfl⟩ := Prod.mk.inj (Except.ok.inj h)
    exact htagged s
  split at h
  · cases h
  · rename_i hw
    obtain ⟨-, rfl⟩ := Prod.mk.inj (Except.ok.inj h)
    exact (htagged _).trans (writeUnits_apart hw)

@[simp] theorem execPassComplete_keepsApart [Fact (ps .tags = true)] : KeepsApart ps s (execPassComplete pass s) := by
  refine (keepsApart_next ..).2 ?_
  split
  · rfl
  split
  · rfl
  split
  · simp
  split
  · rfl
  split
  · simp
  split
  · simp
  · rename_i hf
    simp [finishOutputs_apart hf]

end Sys2Proof.Machine
end

section
/-! The frames of the hub's own parts (R128, R203, R397, R427): frames, the host port and the peats (R384 to R431). -/

namespace Sys2Proof.Machine

variable {ps : HubPart → Bool} (f : Frame) (full write : Bool)
  (queued port fn tag status n c off len code v be vec p pa cause reason : Nat) (data d : List Byte) (stream : Option Nat)
  (en : List Bool) (h : Header) (units : List Unit256) (answer : CxlAnswer) (found : Option PeatStart) (s : State)

@[simp] theorem after_apart {s : State} {r : Res} (h : KeepsApart ps s r) : apart ps (after s r) = apart ps s := by
  unfold after
  split
  · exact h _ rfl
  · rfl

@[simp] theorem plarusFrame_apart (arrival : Nat) : apart ps (plarusFrame f arrival s) = apart ps s := by
  simp only [plarusFrame]
  (repeat' split) <;> simp

@[simp] theorem transit_apart : apart ps (transit f full queued s) = apart ps s := by
  simp only [transit]
  (repeat' split) <;> simp

@[simp] theorem execFrameReceive_keepsApart [Fact (ps .time = true)] (domain : Nat) (msg : PtpMsg) :
    KeepsApart ps s (execFrameReceive port f domain msg full queued s) := by simp [execFrameReceive]

@[simp] theorem complete_apart : apart ps (complete fn tag status data s) = apart ps s := (rfl)
@[simp] theorem aerLog_apart (advisory : Bool) : apart ps (aerLog n advisory s) = apart ps s := by simp [aerLog]
@[simp] theorem answerUr_apart : apart ps (answerUr fn tag s) = apart ps s := by simp [answerUr]
@[simp] theorem answerCa_apart : apart ps (answerCa fn tag s) = apart ps s := by simp [answerCa]
@[simp] theorem setSecure_apart (i : Nat) (b : Bool) : apart ps (setSecure i b s) = apart ps s := by simp [setSecure]

@[simp] theorem inbound_apart (stream : Option Nat) {refuse f : State → State} (hr : ∀ s, apart ps (refuse s) = apart ps s)
    (hf : ∀ s, apart ps (f s) = apart ps s) (s : State) :
    apart ps (inbound stream refuse f s) = apart ps s := by
  simp only [inbound]
  (repeat' split) <;> simp [hf, hr]

@[simp] theorem refuseUr_apart (posted : Bool) : apart ps (refuseUr fn tag posted s) = apart ps s := by simp [refuseUr]

@[simp] theorem execIdeIntegrityFailure_keepsApart (stream : Nat) : KeepsApart ps s (execIdeIntegrityFailure stream s) := by
  simp [execIdeIntegrityFailure]

@[simp] theorem physWrite_apart (l : List (Nat × Nat)) : apart ps (physWrite c l d en s) = apart ps s := by
  induction l generalizing d en s with
  | nil => rfl
  | cons p l ih =>
    refine (ih _ _ _).trans ?_
    split
    · simp
    · exact (countBytes_apart ..).trans (foldl_apart (by simp) _ _)

@[simp] theorem execPf0ApertureAccess_keepsApart : KeepsApart ps s (execPf0ApertureAccess stream tag off write len data en s) := by
  have hcount (l : List (Nat × Nat)) (t : State) : apart ps (l.foldl (fun s p => countBytes 0 p.1 p.2 s) t) = apart ps t :=
    foldl_apart (fun s p => countBytes_apart ..) l t
  refine (keepsApart_next ..).2 (inbound_apart _ (fun s => refuseUr_apart ..) (fun s => ?_) s)
  split
  · simp
  dsimp only
  split
  · simp
  split <;> simp [hcount]

@[simp] theorem execVfApertureAccess_keepsApart : KeepsApart ps s (execVfApertureAccess stream fn tag off write len data en s) := by
  refine (keepsApart_next ..).2 (inbound_apart _ (fun s => refuseUr_apart ..) (fun s => ?_) s)
  generalize (if write then data.length else len) = n
  split
  · simp
  split
  · split <;> simp
  dsimp only
  split
  · split
    · rename_i hw
      exact writeUnits_apart hw
    · simp
  · split <;> simp

@[simp] theorem execInboundUnsupported_keepsApart (what : Unserved) : KeepsApart ps s (execInboundUnsupported fn tag what s) := by
  unfold execInboundUnsupported
  split <;> simp

@[simp] theorem hostFailed_apart (aer : Nat) : apart ps (hostFailed h aer tag s) = apart ps s := by simp [hostFailed]

@[simp] theorem hostIssue_apart : apart ps (hostIssue h units s) = apart ps s := by
  unfold hostIssue
  extract_lets sec u
  split
  · exact (respondOk_apart ..).trans (hostWrite_apart ..)
  split
  · exact (respondOk_apart ..).trans (hostWrite_apart ..)
  split
  · exact respond_apart ..
  split
  · rfl
  · exact emit_apart ..

@[simp] theorem drainHost_apart : apart ps (drainHost n s) = apart ps s := by
  fun_induction drainHost n s
  case case3 ih => exact ih.trans ((hostIssue_apart ..).trans rfl)
  all_goals rfl

@[simp] theorem hostArrive_apart : apart ps (hostArrive h units s) = apart ps s := by simp [hostArrive]
@[simp] theorem execHmRd_keepsApart : KeepsApart ps s (execHmRd h s) := by simp [execHmRd]
@[simp] theorem execHmWr_keepsApart : KeepsApart ps s (execHmWr h units s) := by simp [execHmWr]
@[simp] theorem execHmRdNarrow_keepsApart : KeepsApart ps s (execHmRdNarrow h s) := by simp [execHmRdNarrow]
@[simp] theorem execHmWrNarrow_keepsApart : KeepsApart ps s (execHmWrNarrow h s) := by simp [execHmWrNarrow]
@[simp] theorem execHmAddNarrow_keepsApart : KeepsApart ps s (execHmAddNarrow h s) := by simp [execHmAddNarrow]
@[simp] theorem execHmFlush_keepsApart : KeepsApart ps s (execHmFlush h s) := by simp [execHmFlush]
@[simp] theorem hostDone_apart (t : HostTag) : apart ps (hostDone t d s) = apart ps s := by simp [hostDone]
@[simp] theorem dropTag_apart : apart ps (dropTag tag s) = apart ps s := (rfl)
@[simp] theorem unexpectedCompletion_apart : apart ps (unexpectedCompletion s) = apart ps s := by simp [unexpectedCompletion]

@[simp] theorem execHostCompletion_keepsApart (poisoned : Bool) (byteCount lower : Nat) :
    KeepsApart ps s (execHostCompletion tag status poisoned byteCount lower data s) := by
  unfold execHostCompletion
  split <;> simp

@[simp] theorem execCompletionTimeout_keepsApart : KeepsApart ps s (execCompletionTimeout tag s) := by
  unfold execCompletionTimeout
  split <;> simp

@[simp] theorem execTagQuarantineEnd_keepsApart : KeepsApart ps s (execTagQuarantineEnd tag s) := by simp [execTagQuarantineEnd]
@[simp] theorem resetCtx0_apart : apart ps (resetCtx0 s) = apart ps s := by simp [resetCtx0, -foldl_hbm, -discardFaults_hbm]
@[simp] theorem hostReset_apart [Fact (ps .heart = true)] : apart ps (hostReset code s) = apart ps s := by simp [hostReset]
@[simp] theorem execHotReset_keepsApart [Fact (ps .heart = true)] : KeepsApart ps s (execHotReset s) := by simp [execHotReset]
@[simp] theorem execHostLinkDown_keepsApart [Fact (ps .heart = true)] : KeepsApart ps s (execHostLinkDown s) := by simp [execHostLinkDown]
@[simp] theorem execPf0Flr_keepsApart [Fact (ps .heart = true)] : KeepsApart ps s (execPf0Flr s) := by simp [execPf0Flr]
@[simp] theorem vfFlr_apart (k : Nat) : apart ps (vfFlr k s) = apart ps s := by simp [vfFlr]
@[simp] theorem execVfFlr_keepsApart : KeepsApart ps s (execVfFlr fn s) := by simp [execVfFlr]
@[simp] theorem vfEnableClear_apart : apart ps (vfEnableClear s) = apart ps s := by simp [vfEnableClear]
@[simp] theorem execVfEnableClear_keepsApart : KeepsApart ps s (execVfEnableClear s) := by simp [execVfEnableClear]
@[simp] theorem numVfsWrite_apart : apart ps (numVfsWrite v s) = apart ps s := by simp [numVfsWrite]
@[simp] theorem execNumvfsWrite_keepsApart (value : Nat) : KeepsApart ps s (execNumvfsWrite value s) := by simp [execNumvfsWrite]
@[simp] theorem barResize_apart : apart ps (barResize v s) = apart ps s := by simp [barResize]
@[simp] theorem execBarResize_keepsApart (size : Nat) : KeepsApart ps s (execBarResize size s) := by simp [execBarResize]
@[simp] theorem sendPending_apart : apart ps (sendPending fn s) = apart ps s := by simp [sendPending]

@[simp] theorem cfgWrite_apart [Fact (ps .heart = true)] (data : Nat) : apart ps (cfgWrite fn off data be s) = apart ps s := by
  simp [cfgWrite]

@[simp] theorem execConfigRequest_keepsApart [Fact (ps .heart = true)] (bus : Nat) (data : Nat) :
    KeepsApart ps s (execConfigRequest stream bus fn tag off write data be s) := by simp [execConfigRequest]

@[simp] theorem msixUnmask_apart : apart ps (msixUnmask fn vec s) = apart ps s := by simp [msixUnmask]
@[simp] theorem execMsixUnmask_keepsApart : KeepsApart ps s (execMsixUnmask fn vec s) := by simp [execMsixUnmask]
@[simp] theorem execPtmRequest_keepsApart (delay : Nat) : KeepsApart ps s (execPtmRequest delay s) := by simp [execPtmRequest]

@[simp] theorem execHostLinkUp_keepsApart (rate width : Nat) (flit : Bool) : KeepsApart ps s (execHostLinkUp rate width flit s) := by
  simp [execHostLinkUp]

@[simp] theorem setPeat_apart [Fact (ps .peats = true)] (x : PeatSt) : apart ps (setPeat p x s) = apart ps s := by simp [setPeat]
@[simp] theorem powerLed_apart : apart ps (powerLed p code s) = apart ps s := (rfl)
@[simp] theorem peatFailed_apart : apart ps (peatFailed c pa cause s) = apart ps s := by simp [peatFailed]

@[simp] theorem peatWrite_apart : apart ps (peatWrite c pa data en s).1 = apart ps s := by
  refine foldl_pair_apart (fun r i => ?_) _ (s, false)
  dsimp only
  split <;> simp

@[simp] theorem peatPerform_apart : apart ps (peatPerform h data en s) = apart ps s := by
  simp only [peatPerform]
  (repeat' split) <;> simp

@[simp] theorem peatArrive_apart [Fact (ps .peats = true)] : apart ps (peatArrive port h data en answer s) = apart ps s := by
  simp only [peatArrive]
  (repeat' split) <;> simp

@[simp] theorem execPtRd_keepsApart [Fact (ps .peats = true)] : KeepsApart ps s (execPtRd port h answer s) := by simp [execPtRd]
@[simp] theorem execPtWr_keepsApart [Fact (ps .peats = true)] : KeepsApart ps s (execPtWr port h units answer s) := by simp [execPtWr]

@[simp] theorem execPtRdNarrow_keepsApart [Fact (ps .peats = true)] : KeepsApart ps s (execPtRdNarrow port h answer s) := by
  simp [execPtRdNarrow]

@[simp] theorem execPtWrNarrow_keepsApart [Fact (ps .peats = true)] : KeepsApart ps s (execPtWrNarrow port h answer s) := by
  simp [execPtWrNarrow]

@[simp] theorem execPtAddNarrow_keepsApart [Fact (ps .peats = true)] : KeepsApart ps s (execPtAddNarrow port h answer s) := by
  simp [execPtAddNarrow]

@[simp] theorem execPeatRequestTimeout_keepsApart [Fact (ps .peats = true)] : KeepsApart ps s (execPeatRequestTimeout port s) := by
  simp only [execPeatRequestTimeout]
  split <;> simp

@[simp] theorem execExpanderEvent_keepsApart : KeepsApart ps s (execExpanderEvent port s) := by simp [execExpanderEvent]
@[simp] theorem execPeatIdeFailure_keepsApart : KeepsApart ps s (execPeatIdeFailure port s) := by simp [execPeatIdeFailure]
@[simp] theorem slotOff_apart [Fact (ps .peats = true)] : apart ps (slotOff p s) = apart ps s := by simp [slotOff]

@[simp] theorem endPeatOp_apart (op result : Nat) : apart ps (endPeatOp p op result reason s) = apart ps s := by
  unfold endPeatOp
  split <;> simp

@[simp] theorem peatRefused_apart [Fact (ps .peats = true)] : apart ps (peatRefused p reason s) = apart ps s := by simp [peatRefused]

@[simp] theorem peatStart_apart [Fact (ps .peats = true)] : apart ps (peatStart p found s) = apart ps s := by
  unfold peatStart
  extract_lets pg s0 top s1
  have h0 : apart ps s0 = apart ps s := by simp [s0]
  have h1 : apart ps s1 = apart ps s := h0
  clear_value s0 s1
  split
  · simp [h0]
  dsimp only
  split
  · simp [h0]
  split
  · simp [h1]
  split
  · simp [h1]
  split
  · simp [h1]
  · exact (refreshPools_apart _).trans ((setPeat_apart ..).trans ((foldl_apart (by simp) _ _).trans (by simp [h1])))

@[simp] theorem execPeatEnterService_keepsApart [Fact (ps .peats = true)] : KeepsApart ps s (execPeatEnterService port found s) := by
  simp [execPeatEnterService]

@[simp] theorem execPeatFrameAshed_keepsApart [Fact (ps .peats = true)] : KeepsApart ps s (execPeatFrameAshed port s) := by
  simp only [execPeatFrameAshed]
  (repeat' split) <;> simp

@[simp] theorem framesGone_apart : apart ps (framesGone p s) = apart ps s := by simp [framesGone]

@[simp] theorem execPeatRemoval_keepsApart [Fact (ps .peats = true)] : KeepsApart ps s (execPeatRemoval port s) := by
  simp [execPeatRemoval]

@[simp] theorem surprise_apart [Fact (ps .peats = true)] : apart ps (surprise p cause s) = apart ps s := by simp [surprise]

@[simp] theorem execSurpriseRemoval_keepsApart [Fact (ps .peats = true)] : KeepsApart ps s (execSurpriseRemoval port cause s) := by
  simp [execSurpriseRemoval]

@[simp] theorem execPresenceChange_keepsApart [Fact (ps .peats = true)] (present : Bool) :
    KeepsApart ps s (execPresenceChange port present s) := by simp [execPresenceChange]

@[simp] theorem execAttnButton_keepsApart : KeepsApart ps s (execAttnButton port s) := by simp [execAttnButton]

end Sys2Proof.Machine
end

section
/-! The frames of the hub's own parts (R128, R203, R397, R427): Heartwood and the management messages of the sites (R445 to R464). -/

namespace Sys2Proof.Machine

variable {ps : HubPart → Bool} (code len arg n site rechosen : Nat) (b : List Byte) (force : Bool) (modes spares : List Nat)
  (s : State)

@[simp] theorem modOtp_apart [Fact (ps .heart = true)] (f : Otp → Otp) : apart ps (modOtp f s) = apart ps s := by simp [modOtp]
@[simp] theorem showOtp_apart : apart ps (showOtp s) = apart ps s := by simp [showOtp]

@[simp] theorem extendMeas_apart [Fact (ps .heart = true)] (i : Nat) (v : List Byte) : apart ps (extendMeas i v s) = apart ps s :=
  apart_update_heart ..

@[simp] theorem mbxEnd_apart [Fact (ps .heart = true)] (resp : List Byte) : apart ps (mbxEnd code resp s) = apart ps s := by
  simp [mbxEnd]

@[simp] theorem otpEnd_apart [Fact (ps .heart = true)] : apart ps (otpEnd code s) = apart ps s := by simp [otpEnd]

@[simp] theorem mbxCmd_apart [Fact (ps .heart = true)] (len : Nat) {f : State → State} (hf : ∀ s, apart ps (f s) = apart ps s)
    (s : State) :
    apart ps (mbxCmd len f s) = apart ps s := by simp [hf, mbxCmd]

@[simp] theorem consumeNonce_apart : apart ps (consumeNonce s) = apart ps s := (rfl)
@[simp] theorem execExtend_keepsApart [Fact (ps .heart = true)] : KeepsApart ps s (execExtend len arg s) := by simp [execExtend]

@[simp] theorem execRollbackCommit_keepsApart [Fact (ps .heart = true)] : KeepsApart ps s (execRollbackCommit len arg s) := by
  simp [execRollbackCommit]

@[simp] theorem execDebugPolicy_keepsApart [Fact (ps .heart = true)] : KeepsApart ps s (execDebugPolicy len s) := by
  simp [execDebugPolicy]

@[simp] theorem execRevokeKey_keepsApart [Fact (ps .heart = true)] : KeepsApart ps s (execRevokeKey len s) := by simp [execRevokeKey]

@[simp] theorem execOtpProgram_keepsApart [Fact (ps .heart = true)] (item : OtpItem) : KeepsApart ps s (execOtpProgram item s) := by
  simp [execOtpProgram]

@[simp] theorem execGetCert_keepsApart [Fact (ps .heart = true)] : KeepsApart ps s (execGetCert len s) := by simp [execGetCert]
@[simp] theorem wipeMem_apart : apart ps (wipeMem s) = apart ps s := by simp [wipeMem]
@[simp] theorem destroyKeys_apart : apart ps (destroyKeys s) = apart ps s := by simp [destroyKeys]
@[simp] theorem openDebug_apart (how : Nat) : apart ps (openDebug how s) = apart ps s := by simp [openDebug]
@[simp] theorem debugToken_apart [Fact (ps .heart = true)] : apart ps (debugToken len s) = apart ps s := by simp [debugToken]
@[simp] theorem execDebugToken_keepsApart [Fact (ps .heart = true)] : KeepsApart ps s (execDebugToken len s) := by simp [execDebugToken]
@[simp] theorem debugErase_apart [Fact (ps .heart = true)] : apart ps (debugErase s) = apart ps s := by simp [debugErase]
@[simp] theorem execDebugErase_keepsApart [Fact (ps .heart = true)] : KeepsApart ps s (execDebugErase s) := by simp [execDebugErase]
@[simp] theorem debugNonce_apart : apart ps (debugNonce s) = apart ps s := by simp [debugNonce]
@[simp] theorem execDebugNewNonce_keepsApart : KeepsApart ps s (execDebugNewNonce s) := by simp [execDebugNewNonce]
@[simp] theorem doeReply_apart (d : List Byte) : apart ps (doeReply d s) = apart ps s := by simp [doeReply]

@[simp] theorem spdmReply_apart (p1 p2 : Nat) (items : List Byte) : apart ps (spdmReply code p1 p2 items s) = apart ps s := by
  simp [spdmReply]

@[simp] theorem spdmError_apart : apart ps (spdmError code s) = apart ps s := by simp [spdmError]
@[simp] theorem setSpdm_apart [Fact (ps .heart = true)] : apart ps (setSpdm n s) = apart ps s := by simp [setSpdm]

@[simp] theorem ideKm_apart (stream : Nat) {f : State → State} (hf : ∀ s, apart ps (f s) = apart ps s) (s : State) :
    apart ps (ideKm stream f s) = apart ps s := by simp [hf, ideKm]

@[simp] theorem doeRequest_apart [Fact (ps .heart = true)] (r : DoeReq) : apart ps (doeRequest r s) = apart ps s := by
  refine (congrArg (apart ps) (congr_fun₂ (by delta doeRequest; rfl : doeRequest = _) r s)).trans ?_
  obtain ⟨pk, hpk⟩ : ∃ f, f = Config.publicKey := exists_eq
  obtain ⟨chain, hchain⟩ : ∃ f, f = Config.certChain := exists_eq
  obtain ⟨digest, hdigest⟩ : ∃ f, f = Config.sha512 := exists_eq
  rw [← hpk, ← hchain, ← hdigest]
  dsimp only
  split
  case h_11 => exact ideKm_apart _ (fun s => by simp -implicitDefEqProofs) _
  case h_12 => exact ideKm_apart _ (fun s => by split <;> simp) _
  case h_13 => exact ideKm_apart _ (fun s => by simp -implicitDefEqProofs) _
  all_goals (repeat' split) <;> simp -implicitDefEqProofs

@[simp] theorem execDoeRequest_keepsApart [Fact (ps .heart = true)] (req : DoeReq) : KeepsApart ps s (execDoeRequest req s) := by
  simp [execDoeRequest]

@[simp] theorem execDoeAbort_keepsApart : KeepsApart ps s (execDoeAbort s) := by simp [execDoeAbort]
@[simp] theorem pieceDoneMsg_apart : apart ps (pieceDoneMsg n b s) = apart ps s := by simp [pieceDoneMsg]
@[simp] theorem regRspMsg_apart : apart ps (regRspMsg n b s) = apart ps s := by simp [regRspMsg]

@[simp] theorem mgmtMessage_apart (mtype : Nat) : apart ps (mgmtMessage n mtype b s) = apart ps s := by
  unfold mgmtMessage
  split <;> simp

@[simp] theorem mgmtFragment_apart (payload : List Byte) : apart ps (mgmtFragment n payload s) = apart ps s := by
  simp only [mgmtFragment]
  (repeat' split) <;> simp

@[simp] theorem execMgmt_keepsApart (f : Flit) : KeepsApart ps s (execMgmt site f s) := by simp [execMgmt]

@[simp] theorem siteOp_apart (n op : Nat) (force : Bool) {start : State → State} (hf : ∀ s, apart ps (start s) = apart ps s) (s : State) :
    apart ps (siteOp n op force start s) = apart ps s := by
  simp only [siteOp]
  split <;> simp [hf]

@[simp] theorem execSiteAttest_keepsApart : KeepsApart ps s (execSiteAttest site force s) := by simp [execSiteAttest]
@[simp] theorem laneFindings_apart : apart ps (laneFindings n modes spares rechosen s) = apart ps s := by simp [laneFindings]

@[simp] theorem execSiteLaneCheck_keepsApart : KeepsApart ps s (execSiteLaneCheck site force modes spares rechosen s) := by
  simp only [execSiteLaneCheck]
  (repeat' split) <;> simp

end Sys2Proof.Machine
end

section
/-! The frames of the hub's own parts (R128, R203, R397, R427): power, resets and what a read shows (R465 to R497). -/

namespace Sys2Proof.Machine

variable {ps : HubPart → Bool} (n pll tile core : Nat) (b : BringUp) (force : Bool) (s : State)

@[simp] theorem modPower_apart (f : Power → Power) : apart ps (modPower f s) = apart ps s := (rfl)
@[simp] theorem resetDebug_apart : apart ps (resetDebug s) = apart ps s := (rfl)
@[simp] theorem execPerstDeassert_keepsApart : KeepsApart ps s (execPerstDeassert s) := by simp [execPerstDeassert]

@[simp] theorem resumeTransition_apart [Fact (ps .heart = true)] (r : OtpRecord) : apart ps (resumeTransition r s) = apart ps s := by
  simp [resumeTransition]

@[simp] theorem runImage_apart [Fact (ps .heart = true)] (reg : Nat) (i : BootImage) : apart ps (runImage reg i s) = apart ps s := by
  simp [runImage]

@[simp] theorem recovery_apart (code : Nat) : apart ps (recovery code s) = apart ps s := (rfl)

@[simp] theorem applyOwnerCfg_apart [Fact (ps .heart = true)] (b : Option (List Byte)) : apart ps (applyOwnerCfg b s) = apart ps s := by
  unfold applyOwnerCfg
  exact (apart_update_heart ..).trans (by simp)

@[simp] theorem nextStep_apart : apart ps (nextStep n s) = apart ps s := (rfl)

@[simp] theorem bringUp1_apart [Fact (ps .heart = true)] : apart ps (bringUp1 b s) = apart ps s := by
  simp only [bringUp1]
  (repeat' split) <;> simp

@[simp] theorem bringUp2_apart [Fact (ps .heart = true)] : apart ps (bringUp2 b s) = apart ps s := by
  have hon (l : List Nat) (t : State) : apart ps (l.foldl (fun s d => setDomain d true s) t) = apart ps t := foldl_apart (by simp) l t
  have hcores (l : List Nat) (t : State) : apart ps (l.foldl (fun s m =>
      setFld (pageCore m) Reg.CORE_STATE_STATE 1 (setDomain (173 + m) true s)) t) = apart ps t := foldl_apart (by simp) l t
  obtain ⟨boot, hboot⟩ : ∃ f, f = bootImage := exists_eq
  refine (congrArg (apart ps) (congr_fun₂ (by delta bringUp2; rfl : bringUp2 = _) b s)).trans ?_
  rw [← hboot]
  dsimp only
  split
  · simp
  · split
    · simp -implicitDefEqProofs [hon, -foldl_hbm]
    · rw [nextStep_apart, hcores]
      split <;> split <;> simp -implicitDefEqProofs [hon, -foldl_hbm]

@[simp] theorem bringUp3_apart : apart ps (bringUp3 b s) = apart ps s := by simp [bringUp3]

@[simp] theorem applySpread_apart : apart ps (applySpread s) = apart ps s := by
  unfold applySpread
  extract_lets l ok l' m r0 stranded s0
  refine (foldl_pair_apart (fun r i => ?_) _ _).trans (setFlds_apart ..)
  dsimp only
  split <;> simp

@[simp] theorem bringUp4_apart [Fact (ps .hbm = true)] : apart ps (bringUp4 b s) = apart ps s := by simp [bringUp4]
@[simp] theorem logLatched_apart : apart ps (logLatched s) = apart ps s := foldl_apart (by simp) _ _
@[simp] theorem bringUp6_apart : apart ps (bringUp6 s) = apart ps s := by simp [bringUp6]

@[simp] theorem bringUp5_apart [Fact (ps .peats = true)] : apart ps (bringUp5 b s) = apart ps s := by
  have hstart (t : State) (ht : apart ps t = apart ps s) : apart ps (if (List.range 8).any (siteStarting t) then t
      else match (List.range 8).find? (fun n => decide (t.power.nextSite ≤ n) && startable t n) with
        | some n => startSite n (modPower (fun p => { p with nextSite := n + 1 }) t)
        | none => bringUp6 t) = apart ps s := by
    split
    · exact ht
    · split <;> simp -implicitDefEqProofs [ht]
  refine (congrArg (apart ps) (congr_fun₂ (by delta bringUp5; rfl : bringUp5 = _) b s)).trans (hstart _ ?_)
  dsimp only
  split
  · rfl
  · rw [showTime_apart]
    refine (foldl_apart (fun t p => ?_) _ _).trans ?_
    · split <;> simp -implicitDefEqProofs
    · exact (foldl_apart (fun t n => by simp -implicitDefEqProofs) _ _).trans (by simp -implicitDefEqProofs)

@[simp] theorem execBringupStep_keepsApart [Fact (ps .hbm = true)] [Fact (ps .heart = true)] [Fact (ps .peats = true)] :
    KeepsApart ps s (execBringupStep b s) := by
  simp only [execBringupStep]
  (repeat' split) <;> simp

@[simp] theorem xclkLost_apart [Fact (ps .time = true)] : apart ps (xclkLost s) = apart ps s := by simp [xclkLost]

@[simp] theorem pllBlock_apart [Fact (ps .time = true)] [Fact (ps .heart = true)] [Fact (ps .hbm = true)] [Fact (ps .peats = true)]
    (i : Nat) :
    apart ps (pllBlock i s) = apart ps s := by simp [pllBlock]

@[simp] theorem execPllLockLoss_keepsApart [Fact (ps .time = true)] [Fact (ps .heart = true)] [Fact (ps .hbm = true)]
    [Fact (ps .peats = true)] :
    KeepsApart ps s (execPllLockLoss pll s) := by simp [execPllLockLoss]

@[simp] theorem execPllRelock_keepsApart [Fact (ps .time = true)] : KeepsApart ps s (execPllRelock pll s) := by simp [execPllRelock]
@[simp] theorem setPoint_apart (v f : Nat) : apart ps (setPoint n v f s) = apart ps s := by simp [setPoint]

@[simp] theorem execTileSetpointLoop_keepsApart (slack : Nat) : KeepsApart ps s (execTileSetpointLoop tile slack s) := by
  simp [execTileSetpointLoop]

@[simp] theorem execDroopDetect_keepsApart : KeepsApart ps s (execDroopDetect tile s) := by simp [execDroopDetect]
@[simp] theorem execTileIdleGate_keepsApart : KeepsApart ps s (execTileIdleGate tile s) := by simp [execTileIdleGate]

@[simp] theorem tileSelfTest_apart : apart ps (tileSelfTest n force s) = apart ps s := by
  simp only [tileSelfTest]
  (repeat' split) <;> simp

@[simp] theorem execTileSelfTest_keepsApart : KeepsApart ps s (execTileSelfTest tile force s) := by simp [execTileSelfTest]

@[simp] theorem execPeriodicSelfTest_keepsApart : KeepsApart ps s (execPeriodicSelfTest s) := by
  simp only [execPeriodicSelfTest]
  (repeat' split) <;> simp

@[simp] theorem execPowerLimitDecision_keepsApart (inputW tileDynW : Nat) :
    KeepsApart ps s (execPowerLimitDecision inputW tileDynW s) := by simp [execPowerLimitDecision]

@[simp] theorem execWatchdogExpiry_keepsApart [Fact (ps .cores = true)] : KeepsApart ps s (execWatchdogExpiry core s) := by
  simp [execWatchdogExpiry]

@[simp] theorem execCoreSramError_keepsApart [Fact (ps .cores = true)] : KeepsApart ps s (execCoreSramError core s) := by
  simp [execCoreSramError]

@[simp] theorem coreRestart_apart [Fact (ps .cores = true)] (m : Nat) : apart ps (coreRestart m s) = apart ps s := by simp [coreRestart]

@[simp] theorem execCoreRestart_keepsApart [Fact (ps .cores = true)] : KeepsApart ps s (execCoreRestart core s) := by
  simp [execCoreRestart]

@[simp] theorem execCoreRestartDone_keepsApart (ms : Nat) : KeepsApart ps s (execCoreRestartDone core ms s) := by
  simp only [execCoreRestartDone]
  (repeat' split) <;> simp

@[simp] theorem execI3cMctpMessage_keepsApart (msg : BoardMsg) : KeepsApart ps s (execI3cMctpMessage msg s) := by
  simp only [execI3cMctpMessage]
  (repeat' split) <;> simp

@[simp] theorem execJtagInstruction_keepsApart (instr : JtagInstr) : KeepsApart ps s (execJtagInstruction instr s) := by
  simp [execJtagInstruction]

end Sys2Proof.Machine
end

section
/-! The frames of the hub's own parts (R128, R203, R397, R427): register writes, accesses of the host, and every command. -/

namespace Sys2Proof.Machine

variable {ps : HubPart → Bool} (p fn off width page : Nat) (s : State)

@[simp] theorem abortSelfTest_apart (n : Nat) : apart ps (abortSelfTest n s) = apart ps s := by simp [abortSelfTest]

@[simp] theorem unlistEvac_apart [Fact (ps .hbm = true)] (ch : Nat) : apart ps (unlistEvac p ch s) = apart ps s := by
  simp only [unlistEvac]
  split <;> simp

@[simp] theorem opAbort_apart [Fact (ps .hbm = true)] : apart ps (opAbort p s) = apart ps s := by
  unfold opAbort
  split <;> simp

@[simp] theorem queuedStart_apart [Fact (ps .hbm = true)] : apart ps (queuedStart p s) = apart ps s := by
  simp only [queuedStart]
  (repeat' split) <;> simp

@[simp] theorem readGuest_apart : apart ps (readGuest fn p off width s) = apart ps s := by simp [readGuest]
@[simp] theorem execRegRd_keepsApart : KeepsApart ps s (execRegRd fn page off width s) := by simp [execRegRd]
@[simp] theorem execOpAbort_keepsApart [Fact (ps .hbm = true)] : KeepsApart ps s (execOpAbort page s) := by simp [execOpAbort]

@[simp] theorem execQueuedOpStart_keepsApart [Fact (ps .hbm = true)] : KeepsApart ps s (execQueuedOpStart page s) := by
  simp [execQueuedOpStart]

end Sys2Proof.Machine
end

section
/-! What a command may change of the tags, the timebase, HBM, the peats, Heartwood and the cores (R128, R203, R397, R427), and the
settled statement about it. -/

namespace Sys2Proof.Machine

variable {ps : HubPart → Bool}

/-- The parts that a command may change. -/
def touched (i : Instr) : HubPart → Bool
  | .tags => mayTouchTags i
  | .time => mayTouchTime i
  | .hbm => mayTouchHbm i
  | .peats => mayTouchPeats i
  | .heart => mayTouchHeart i
  | .cores => mayTouchCores i

/-- Apart from every part, all states agree. -/
theorem keepsApart_all (hall : ∀ p, ps p = true) (s : State) (r : Res) : KeepsApart ps s r := fun t _ => by simp [apart, hall]

/-- Every command changes the parts it may touch only. -/
theorem exec_keepsApart {i : Instr} (hi : ∀ p, touched i p = true → ps p = true) (s : State) : KeepsApart ps s (exec i s) := by
  cases i
  case registerWrite | regWr | transition | powerOn | vauxLoss | perstAssert | railLoss | railsRestored | tempSample =>
    exact keepsApart_all (fun p => hi p (by cases p <;> rfl)) s _
  case opAbort | queuedOpStart | fill | writeback | mcRd32 | mcWr32 | patrolScrub | ceThreshold | hbmTempRead | hbmThrottleDecision |
      hbmStackReturn | periodicRetrain | retrainPause | retrainOverrun | calTrimOverride | immediateRetrain | hbmLaneCheck |
      channelEvacuation | evacuationDequeue | evacBlockCopied | evacSwitch | queueStarvation | slotBoundary | retrainEnd =>
    have hhbm : Fact (ps .hbm = true) := ⟨hi .hbm rfl⟩
    simp [exec]
  case draughtFreeze | draughtUnfreeze | draughtOverride | draughtResetTag | passComplete | ctxCreate | ctxSeal | ctxStart | ctxPause |
      ctxPark | ctxResume | ctxEnd | endingAshDone | emberJournalStart | emberJournalStop | emberPromoteOp | emberPromote | emberApply =>
    have htags : Fact (ps .tags = true) := ⟨hi .tags rfl⟩
    simp [exec]
  case rd | wr | rdNarrow | wrNarrow | addNarrow | rdShared | rdOwn | upgrade | evictClean | evictDirty | snoopAnswer | fillData |
      snoopAnswerTimeout | walkRd | pteUpdate | watchdogExpiry | coreRestart | coreSramError =>
    have hcores : Fact (ps .cores = true) := ⟨hi .cores rfl⟩
    simp [exec]
  case keyExchange | reportReq | windowRekey | configRequest | hotReset | hostLinkDown | pf0Flr | doeRequest | extend | rollbackCommit |
      debugPolicy | revokeKey | debugToken | otpProgram | getCert | debugErase =>
    have hheart : Fact (ps .heart = true) := ⟨hi .heart rfl⟩
    simp [exec]
  case ptRd | ptWr | ptRdNarrow | ptWrNarrow | ptAddNarrow | peatEnterService | peatFrameAshed | peatRemoval | surpriseRemoval |
      presenceChange | peatRequestTimeout =>
    have hpeats : Fact (ps .peats = true) := ⟨hi .peats rfl⟩
    simp [exec]
  case portModeWrite | portLinkDown | portLinkUp | retrainDrainDone | frameReceive | ppsInEdge | ppsMissed | holdoverEntry |
      lockAchieved | phaseJump | timebaseStep | timeEpoch | tbSet | tbSourceWrite | ptpMessage | guestTimeMessage | ppsOutPulse |
      pllRelock | ref10mInChange =>
    have htime : Fact (ps .time = true) := ⟨hi .time rfl⟩
    simp [exec]
  case bringupStep =>
    have hhbm : Fact (ps .hbm = true) := ⟨hi .hbm rfl⟩
    have hpeats : Fact (ps .peats = true) := ⟨hi .peats rfl⟩
    have hheart : Fact (ps .heart = true) := ⟨hi .heart rfl⟩
    simp [exec]
  case pllLockLoss =>
    have htime : Fact (ps .time = true) := ⟨hi .time rfl⟩
    have hhbm : Fact (ps .hbm = true) := ⟨hi .hbm rfl⟩
    have hpeats : Fact (ps .peats = true) := ⟨hi .peats rfl⟩
    have hheart : Fact (ps .heart = true) := ⟨hi .heart rfl⟩
    simp [exec]
  all_goals simp [exec]

/-- Where two states agree apart from `ps`, each part outside `ps` is the same in both. -/
theorem parts_of_apart {s t : State} (h : apart ps t = apart ps s) :
    (ps .tags = false → t.tags = s.tags) ∧ (ps .time = false → t.time = s.time) ∧ (ps .hbm = false → t.hbm = s.hbm) ∧
      (ps .peats = false → t.peats = s.peats) ∧ (ps .heart = false → t.heart = s.heart) ∧ (ps .cores = false → t.cores = s.cores) := by
  simp only [apart, Prod.mk.injEq] at h
  obtain ⟨htags, htime, hhbm, hpeats, hheart, hcores⟩ := h
  exact ⟨fun hp => by simpa [hp] using htags, fun hp => by simpa [hp] using htime, fun hp => by simpa [hp] using hhbm,
    fun hp => by simpa [hp] using hpeats, fun hp => by simpa [hp] using hheart, fun hp => by simpa [hp] using hcores⟩

/-- What a command may not touch it leaves. -/
theorem exec_parts {i : Instr} {s t : State} (ht : exec i s = .next t) :
    (mayTouchTags i = false → t.tags = s.tags) ∧ (mayTouchTime i = false → t.time = s.time) ∧ (mayTouchHbm i = false → t.hbm = s.hbm) ∧
      (mayTouchPeats i = false → t.peats = s.peats) ∧ (mayTouchHeart i = false → t.heart = s.heart) ∧
      (mayTouchCores i = false → t.cores = s.cores) :=
  parts_of_apart (exec_keepsApart (ps := touched i) (fun _ hp => hp) s t ht)

/-- Settles O60: each frame is the part of `exec_parts` about its unit. -/
theorem frameOfTagsTimeHbmAndPeats : Obligations.FrameOfTagsTimeHbmAndPeats := by
  unfold Obligations.FrameOfTagsTimeHbmAndPeats
  refine ⟨fun i s t hi ht => ?_, fun i s t hi ht => ?_, fun i s t hi ht => ?_, fun i s t hi ht => ?_⟩
  all_goals obtain ⟨htags, htime, hhbm, hpeats, -, -⟩ := exec_parts ht
  · exact htags hi
  · exact htime hi
  · exact hhbm hi
  · exact hpeats hi

end Sys2Proof.Machine
end

section
/-! Exact arithmetic on special and finite values (R113, R114): products, sums, and the NaN of a scale. -/

namespace Sys2Proof.Num

open Machine (valueOf minusZero)

/-! NaN -/

@[simp] theorem nan_add (a : Val) : add .nan a = .nan := rfl

@[simp] theorem add_nan (a : Val) : add a .nan = .nan := by cases a <;> rfl

theorem mul_nan (a : Val) : mul a .nan = .nan := by cases a <;> rfl

@[simp] theorem sum_cons (v : Val) (l : List Val) : sum (v :: l) = l.foldl add v := rfl

/-- A fold through which NaN passes is NaN where its start or one of its terms is. -/
theorem foldl_of_nan {g : Val → Val → Val} (hl : ∀ a, g .nan a = .nan) (hr : ∀ a, g a .nan = .nan) {l : List Val} {v : Val}
    (h : .nan ∈ v :: l) : l.foldl g v = .nan := by
  induction l generalizing v with
  | nil => exact (List.mem_singleton.mp h).symm
  | cons a l ih =>
    refine ih ?_
    rcases List.mem_cons.mp h with rfl | h
    · simp [hl]
    · rcases List.mem_cons.mp h with rfl | h
      · simp [hr]
      · exact List.mem_cons_of_mem _ h

theorem sum_of_nan {l : List Val} (h : .nan ∈ l) : sum l = .nan := by
  cases l with
  | nil => cases h
  | cons v l => exact foldl_of_nan nan_add add_nan h

/-! Infinities -/

theorem inf_add (b : Bool) (a : Val) : add (.inf b) a = .inf b ∨ add (.inf b) a = .nan := by
  cases a with
  | nan => exact .inr rfl
  | inf c => cases b <;> cases c <;> simp [add]
  | fin n m e => exact .inl rfl

theorem add_inf (b : Bool) (a : Val) : add a (.inf b) = .inf b ∨ add a (.inf b) = .nan := by
  cases a with
  | nan => exact .inr rfl
  | inf c => cases b <;> cases c <;> simp [add]
  | fin n m e => exact .inl rfl

/-- An infinity among the terms can only turn into NaN. -/
theorem foldl_add_of_inf {b : Bool} {l : List Val} {v : Val} (h : .inf b ∈ v :: l) :
    l.foldl add v = .inf b ∨ l.foldl add v = .nan := by
  induction l generalizing v with
  | nil => exact .inl (List.mem_singleton.mp h).symm
  | cons a l ih =>
    have hhead (hw : add v a = .inf b ∨ add v a = .nan) : (a :: l).foldl add v = .inf b ∨ (a :: l).foldl add v = .nan := by
      rcases hw with hw | hw
      · exact ih (by simp [hw])
      · exact .inr (foldl_of_nan (v := add v a) nan_add add_nan (by simp [hw]))
    rcases List.mem_cons.mp h with rfl | h
    · exact hhead (inf_add b a)
    · rcases List.mem_cons.mp h with rfl | h
      · exact hhead (add_inf b v)
      · exact ih (List.mem_cons_of_mem _ h)

theorem sum_of_inf {b : Bool} {l : List Val} (h : .inf b ∈ l) : sum l = .inf b ∨ sum l = .nan := by
  cases l with
  | nil => cases h
  | cons v l => exact foldl_add_of_inf h

/-- Without NaN and without one of the infinities, no sum makes either. -/
theorem add_ne {b : Bool} {u v : Val} (hu : u ≠ .nan ∧ u ≠ .inf b) (hv : v ≠ .nan ∧ v ≠ .inf b) :
    add u v ≠ .nan ∧ add u v ≠ .inf b := by
  cases u with
  | nan => exact absurd rfl hu.1
  | inf c =>
    cases v with
    | nan => exact absurd rfl hv.1
    | inf d => cases b <;> cases c <;> cases d <;> simp_all [add]
    | fin n m e => simpa [add] using hu
  | fin n m e =>
    cases v with
    | nan => exact absurd rfl hv.1
    | inf d => simpa [add] using hv
    | fin n' m' e' => simp only [add]; split <;> simp

theorem sum_ne_nan {b : Bool} {l : List Val} (hnan : .nan ∉ l) (hinf : .inf b ∉ l) : sum l ≠ .nan := by
  have hl : ∀ x ∈ l, x ≠ .nan ∧ x ≠ .inf b := fun x hx => ⟨fun h => hnan (h ▸ hx), fun h => hinf (h ▸ hx)⟩
  cases l with
  | nil => simp [sum, Val.zero]
  | cons v l =>
    rw [List.forall_mem_cons] at hl
    exact (List.foldlRecOn (motive := fun x => x ≠ .nan ∧ x ≠ .inf b) l add hl.1 (fun x hx a ha => add_ne hx (hl.2 a ha))).1

/-! Zeros -/

theorem isZero_iff {v : Val} : isZero v = true ↔ ∃ n e, v = .fin n 0 e := by
  fun_cases isZero v <;> simp_all

theorem add_zeros {u v : Val} (hu : isZero u = true) (hv : isZero v = true) :
    isZero (add u v) = true ∧ minusZero (add u v) = (minusZero u && minusZero v) := by
  obtain ⟨n, e, rfl⟩ := isZero_iff.mp hu
  obtain ⟨k, f, rfl⟩ := isZero_iff.mp hv
  simp [add, atExp, isZero, minusZero]

theorem foldl_add_zeros {l : List Val} {v : Val} (h : ∀ w ∈ v :: l, isZero w = true) :
    isZero (l.foldl add v) = true ∧ minusZero (l.foldl add v) = (v :: l).all minusZero := by
  induction l generalizing v with
  | nil => simpa using h
  | cons a l ih =>
    simp only [List.forall_mem_cons] at h
    obtain ⟨hv, ha, hl⟩ := h
    obtain ⟨hz, hm⟩ := add_zeros hv ha
    simpa [hm, Bool.and_assoc] using ih (v := add v a) (List.forall_mem_cons.mpr ⟨hz, hl⟩)

/-! Finite values -/

theorem valueOf_eq_some {v : Val} {x : ℚ} (h : valueOf v = some x) :
    ∃ n m e, v = .fin n m e ∧ (if n then -1 else 1) * (m : ℚ) * 2 ^ e = x := by
  cases v with
  | nan | inf => cases h
  | fin n m e => exact ⟨n, m, e, rfl, Option.some.inj h⟩

/-- A finite value as a multiple of a smaller power of 2 is that value. -/
theorem atExp_mul (n : Bool) (m : Nat) {e q : Int} (h : q ≤ e) :
    (atExp n m e q : ℚ) * 2 ^ q = (if n then -1 else 1) * (m : ℚ) * 2 ^ e := by
  have hpow : ((2 : ℚ) ^ (e - q).toNat) * 2 ^ q = 2 ^ e := by
    rw [← zpow_natCast, ← zpow_add₀ two_ne_zero]
    congr 1
    omega
  simp only [atExp, Nat.shiftLeft_eq]
  cases n <;> simp [← hpow, mul_assoc]

theorem valueOf_ofSign (x q : Int) : valueOf (.fin (decide (x < 0)) x.natAbs q) = some ((x : ℚ) * 2 ^ q) := by
  have hx : (if x < 0 then -1 else 1) * (x.natAbs : ℚ) = x := by
    rw [Nat.cast_natAbs]
    split
    · rw [abs_of_neg ‹_›]; simp
    · rw [abs_of_nonneg (not_lt.mp ‹_›)]; simp
  simp only [valueOf, decide_eq_true_eq, hx]

theorem valueOf_mul {a b : Val} {x y : ℚ} (ha : valueOf a = some x) (hb : valueOf b = some y) : valueOf (mul a b) = some (x * y) := by
  obtain ⟨n, m, e, rfl, rfl⟩ := valueOf_eq_some ha
  obtain ⟨k, p, f, rfl, rfl⟩ := valueOf_eq_some hb
  simp only [mul, valueOf, zpow_add₀ (two_ne_zero (α := ℚ))]
  cases n <;> cases k <;> simp <;> ring

theorem valueOf_add {a b : Val} {x y : ℚ} (ha : valueOf a = some x) (hb : valueOf b = some y) : valueOf (add a b) = some (x + y) := by
  obtain ⟨n, m, e, rfl, rfl⟩ := valueOf_eq_some ha
  obtain ⟨k, p, f, rfl, rfl⟩ := valueOf_eq_some hb
  rw [← atExp_mul n m (min_le_left e f), ← atExp_mul k p (min_le_right e f), ← add_mul, ← Int.cast_add]
  simp only [add]
  split
  next h => simp [h, valueOf]
  · exact valueOf_ofSign ..

theorem valueOf_foldl_add {l : List Val} {xs : List ℚ} (h : l.map valueOf = xs.map some) {v : Val} {x : ℚ} (hv : valueOf v = some x) :
    valueOf (l.foldl add v) = some (x + xs.sum) := by
  induction l generalizing v x xs with
  | nil =>
    obtain rfl : xs = [] := by simpa using h.symm
    simpa using hv
  | cons a l ih =>
    cases xs with
    | nil => cases h
    | cons y ys =>
      obtain ⟨ha, hl⟩ := List.cons.inj h
      rw [List.foldl_cons, ih hl (valueOf_add hv ha), List.sum_cons, add_assoc]

theorem valueOf_sum {l : List Val} {xs : List ℚ} (h : l.map valueOf = xs.map some) : valueOf (sum l) = some xs.sum := by
  cases l with
  | nil =>
    obtain rfl : xs = [] := by simpa using h.symm
    simp [sum, Val.zero, valueOf]
  | cons v l =>
    cases xs with
    | nil => cases h
    | cons x xs =>
      obtain ⟨hv, hl⟩ := List.cons.inj h
      rw [List.sum_cons]
      exact valueOf_foldl_add hl hv

/-! Scales -/

theorem segment_nanScale (md : Mode) {sa sb : Nat} (xs ws : List Val) (h : sa = 0xFF ∨ sb = 0xFF) : segment md sa sb xs ws = .nan :=
  if_pos h

theorem columnWide_of_nan {md : Mode} {segs : List (Nat × Nat × List Val × List Val)}
    (h : .nan ∈ segs.map (fun g => segment md g.1 g.2.1 g.2.2.1 g.2.2.2)) : columnWide md segs = .nan := by
  simp only [columnWide]
  split
  next hnil => simp [hnil] at h
  next hcons =>
    rw [hcons] at h
    exact foldl_of_nan (fun a => by split <;> rfl) (fun a => by split <;> simp [roundSig]) h

end Sys2Proof.Num

namespace Sys2Proof.Machine

open Sys2Proof.Num

/-- Settles O57: NaN and an infinity are followed through a sum term by term; a finite sum is taken over a common power of 2. -/
theorem specialOperandsAndScales : Obligations.SpecialOperandsAndScales := by
  unfold Obligations.SpecialOperandsAndScales
  refine ⟨fun a b x y ha hb => ⟨valueOf_mul ha hb, valueOf_add ha hb⟩, fun l xs h => valueOf_sum h, fun a => ⟨rfl, mul_nan a⟩,
    fun b n e => ⟨rfl, rfl⟩, fun b n m e hm => ⟨if_neg hm, if_neg hm⟩, fun l h => sum_of_nan h, fun l htrue hfalse => ?_,
    fun l b hnan hinf hother => (sum_of_inf hinf).resolve_right (sum_ne_nan hnan hother), fun v l h => foldl_add_zeros h,
    fun v => rfl, fun md segs ⟨g, hg, hscale⟩ => ?_, fun sat entry => ⟨rfl, ?_⟩⟩
  case refine_1 =>
    rcases sum_of_inf htrue with h | h
    · rcases sum_of_inf hfalse with h' | h'
      · cases h.symm.trans h'
      · exact h'
    · exact h
  case refine_2 => exact columnWide_of_nan (List.mem_map.mpr ⟨g, hg, segment_nanScale md _ _ hscale⟩)
  case refine_3 =>
    rw [accWrite, if_neg Bool.false_ne_true, add_nan]
    rfl

end Sys2Proof.Machine
end

section
/-! What an engine's access leaves (R257, R272, R277): the register fields of other pages than the walker pool's and the context's
scoped telemetry, and the passes. -/

namespace Sys2Proof.Machine

section
variable {q : Nat} {f : Field} (ho : f.off < 0x10000) (hl : f.lo < 64)
include ho hl

theorem fld_countBytes_page {k : Nat} (hscope : q ≠ pageWin k 3) (pa n : Nat) (s : State) :
    fld (countBytes k pa n s) q f = fld s q f := by
  have hset {g : Field} (hg : g.off < 0x10000) (hgl : g.lo < 64) (v : Nat) : fld (setFld (pageWin k 3) g v s) q f = fld s q f :=
    fld_setFld_page v s hscope hg ho hgl hl
  unfold countBytes
  dsimp only
  split
  · rfl
  · (repeat' split) <;> exact hset (by decide) (by decide) _

variable (hwalk : q ≠ 0x007)
include hwalk

/-- A walk writes the walker pool's counts (R276). -/
theorem fld_countWalk_page (k va : Nat) (fault mismatch : Bool) (s : State) : fld (countWalk k va fault mismatch s) q f = fld s q f := by
  have hset {g : Field} (hg : g.off < 0x10000) (hgl : g.lo < 64) (v : Nat) (t : State) : fld (setFld 0x007 g v t) q f = fld t q f :=
    fld_setFld_page v t hwalk hg ho hgl hl
  have hcount {g : Field} (hg : g.off < 0x10000) (hgl : g.lo < 64) (t : State) : fld (count 0x007 g 1 t) q f = fld t q f :=
    fld_count_ne t (fieldKey_ne_page hwalk hg ho hgl hl)
  unfold countWalk
  extract_lets w0 w1 hit s₁ s₂ s₃ s₄ ns s₅ c
  refine (fld_congr (s := s₅) rfl q f).trans ?_
  simp only [s₅, s₄, s₃, s₂, s₁, fld_drew]
  (repeat' split) <;> simp (disch := decide) only [hset, hcount]

theorem fld_serveXlate_page (h k va access : Nat) (s : State) : fld (serveXlate h k va access s).2 q f = fld s q f := by
  have hcount (fault mismatch : Bool) (t : State) := fld_countWalk_page ho hl hwalk k (va % 2 ^ 55) fault mismatch t
  unfold serveXlate
  dsimp only
  split
  · exact hcount ..
  · exact hcount ..
  · dsimp only
    rw [fld_congr (install_regs ..)]
    (repeat' split) <;> simp only [fld_congr (noteRegion_regs _ _ _ _), fld_congr (markAllDirty_regs _ _), hcount,
      fld_congr (markAccessed_regs _ _)]

variable {k : Nat} (hscope : q ≠ pageWin k 3)
include hscope

theorem fld_accessPage_page (h : Nat) (write : Bool) (s : State) (p : Nat × Nat) : fld (accessPage h k write s p) q f = fld s q f := by
  unfold accessPage
  split
  · rw [fld_countBytes_page ho hl hscope, fld_congr (useEntry_regs ..)]
  · split
    · rfl
    · rw [fld_countBytes_page ho hl hscope]
      split
      · split <;> simp only [fld_congr (markDirty_regs _ _), fld_congr (markAccessed_regs _ _)]
      · rw [fld_congr (useEntry_regs ..), fld_serveXlate_page ho hl hwalk]

theorem fld_accessed_page (h va n : Nat) (write : Bool) (s : State) : fld (accessed h k va n write s) q f = fld s q f :=
  foldl_keeps (fun s => fld s q f) (fld_accessPage_page ho hl hwalk hscope h write) _ s

end

/-- A context's own control page is neither. -/
theorem fld_accessed_window {k : Nat} {f : Field} (ho : f.off < 0x10000) (hl : f.lo < 64) (h va n : Nat) (write : Bool) (s : State) :
    fld (accessed h k va n write s) (pageWin k 0) f = fld s (pageWin k 0) f :=
  fld_accessed_page ho hl (by simp only [pageWin]; omega) (by simp only [pageWin]; omega) h va n write s

theorem pastAccess_passes : PastAccess (fun s => (s.passes, s.nextPass)) where
  bytes _ _ _ _ := rfl
  out _ _ := rfl
  regs _ _ := rfl
  fresh _ _ := rfl
  holders _ _ := rfl
  walks _ _ := rfl

@[simp] theorem accessed_passes (h k va n : Nat) (write : Bool) (s : State) : (accessed h k va n write s).passes = s.passes :=
  congrArg Prod.fst (pastAccess_passes.accessed h k va n write s)

@[simp] theorem accessed_nextPass (h k va n : Nat) (write : Bool) (s : State) : (accessed h k va n write s).nextPass = s.nextPass :=
  congrArg Prod.snd (pastAccess_passes.accessed h k va n write s)

theorem vwrite_passes {h c va : Nat} {data : List Byte} {s t : State} (hw : vwrite h c va data s = .ok t) : t.passes = s.passes :=
  vwrite_keeps (φ := State.passes) (fun _ _ _ _ => rfl) (fun _ _ => rfl) hw

end Sys2Proof.Machine
end

section
/-! The dispatcher's steps (R137, R142, R145, R157, R492): the entry fetched, the pass made ready, the piece placed, the record
written, and the settled statement about them. -/

namespace Sys2Proof.Machine

/-! Fetch (R137) -/

/-- A field of an array has another key than a field that begins at another bit, wherever both lie. -/
theorem fieldKey_at_ne_bit {p q n i : Nat} {f g : Field} (h : g.lo ≠ f.lo) (hf : f.lo < 64) (hg : g.lo < 64) :
    fieldKey q (g.at n i) ≠ fieldKey p f := by
  simp only [fieldKey, Field.at]
  omega

/-- The fetch of an entry as far as the pass: it is read, and its pass takes the next number. -/
def entryRead (k r index : Nat) (b : List Byte) (s : State) : State :=
  accessed 80 k (fld s (pageWin k 0) (Reg.RING_BASE_ADDR.at 32 r) * 4096 + 128 * index) 128 false
    { s with
      passes := s.passes ++ [{ ctx := k, id := s.nextPass, ring := r, index := index, words := (List.range 16).map (word64 b) }]
      nextPass := s.nextPass + 1 }

/-- The ring was the one served, and its head moves on by one. -/
def headMoved (k r index : Nat) (s : State) : State :=
  modCtx k (fun c => { c with lastRing := r })
    (setFld (pageWin k 0) (Reg.RING_STATUS_HEAD.at 32 r) ((index + 1) % 2 ^ ringLog2 s k r) s)

/-- One more entry of the ring is outstanding, and one more slot of the completion ring reserved. -/
def slotReserved (k r : Nat) (s : State) : State :=
  refreshFull k (setFlds (pageWin k 0) [(Reg.RING_STATUS_OUTSTANDING.at 32 r, ringOutstanding s k r + 1),
    (Reg.CQ_STATUS_RESERVED, fld s (pageWin k 0) Reg.CQ_STATUS_RESERVED + 1)] s)

theorem fetchEntry_of_read {k r index : Nat} {b : List Byte} {s : State}
    (hb : vread s 80 k (fld s (pageWin k 0) (Reg.RING_BASE_ADDR.at 32 r) * 4096 + 128 * index) 128 = .ok b) :
    fetchEntry k r index false s = slotReserved k r (headMoved k r index (entryRead k r index b s)) := by
  simp only [fetchEntry, hb]
  rfl

theorem slotReserved_parts (k r : Nat) (s : State) : (slotReserved k r s).passes = s.passes ∧
    (slotReserved k r s).nextPass = s.nextPass ∧ ctx (slotReserved k r s) k = ctx s k := by
  refine ⟨?_, ?_, ?_⟩
  · exact setFlds_passes ..
  · exact setFlds_nextPass ..
  · exact congrArg (fun l => Tab.get {} l k) (setFlds_ctxs ..)

theorem ringHead_slotReserved (k r : Nat) (s : State) : ringHead (slotReserved k r s) k r = ringHead s k r := by
  simp only [ringHead, slotReserved, refreshFull, setFlds_cons, setFlds_nil]
  rw [fld_setFld_ne _ _ (fieldKey_at_ne_bit (by decide) (by decide) (by decide)),
    fld_setFld_ne _ _ (fieldKey_at_ne_bit (by decide) (by decide) (by decide)), fld_setFld_at _ _ (by decide)]

theorem ringHead_headMoved (k r index : Nat) (s : State) :
    ringHead (headMoved k r index s) k r = (index + 1) % 2 ^ ringLog2 s k r % 2 ^ 16 :=
  (fld_congr (modCtx_regs ..) _ _).trans (fld_setFld_same ..)

theorem ringLog2_entryRead {k r : Nat} (index : Nat) (b : List Byte) (s : State) (hr : r < 16) :
    ringLog2 (entryRead k r index b s) k r = ringLog2 s k r :=
  fld_accessed_window (by simp only [Field.at, Reg.RING_CFG_LOG2_SIZE]; omega) (show 0 < 64 by decide) ..

theorem entryRead_passes (k r index : Nat) (b : List Byte) (s : State) : (entryRead k r index b s).passes =
    s.passes ++ [{ ctx := k, id := s.nextPass, ring := r, index := index, words := (List.range 16).map (word64 b) }] :=
  accessed_passes ..

theorem entryRead_nextPass (k r index : Nat) (b : List Byte) (s : State) : (entryRead k r index b s).nextPass = s.nextPass + 1 :=
  accessed_nextPass ..

/-- The ring served next is one of the sixteen. -/
theorem nextRing_lt {s : State} {k r : Nat}
    (h : ((List.range 16).map (fun i => ((ctx s k).lastRing + 1 + i) % 16)).find? (ringReady s k) = some r) : r < 16 := by
  obtain ⟨i, -, rfl⟩ := List.mem_map.mp (List.mem_of_find?_eq_some h)
  exact Nat.mod_lt _ (by decide)

theorem exec_descriptorFetch {k r : Nat} {s : State} (hk : k < 64) (hrun : ctxState s k = 2) (hdisp : s.errs.dispatchStopped = false)
    (hcq : flag s (pageWin k 0) Reg.CQ_CFG_ENABLE = true) (hfree : cqFree s k ≠ 0) (hre : (ctx s k).refetch = [])
    (hring : ((List.range 16).map (fun i => ((ctx s k).lastRing + 1 + i) % 16)).find? (ringReady s k) = some r) :
    exec (.descriptorFetch k) s = .next (fetchEntry k r (ringHead s k r) false s) := by
  have hgo : ¬ (64 ≤ k ∨ ctxState s k ≠ 2 ∨ s.errs.dispatchStopped = true ∨ (!flag s (pageWin k 0) Reg.CQ_CFG_ENABLE) = true ∨
      cqFree s k = 0) := by
    simp [hk, hrun, hdisp, hcq, hfree]
  simp only [exec, execDescriptorFetch, if_neg hgo, hre, hring]

/-! Waits (R142) -/

/-- Met waits, readable descriptors and no failed check: the pass is the last of those ready. -/
theorem waitsSatisfied_passes {p : Pass} {tds : List (Option (List Nat))} {s : State}
    (herr : ∀ w ∈ passWaits p, fenceError s p.ctx w.1 = false) (htds : readTds s p = .ok tds)
    (hcheck : checkPass (((List.range 6).filter p.present).foldl
      (fun s i => accessed 80 p.ctx (bits (p.word (8 + i)) 54 6 * 64) 64 false s) s) { p with tds := tds, phase := .ready } = none) :
    (waitsSatisfied p s).passes = s.passes.filter (fun x => x.id != p.id) ++ [{ p with tds := tds, phase := .ready }] := by
  have hnone : (passWaits p).find? (fun w => fenceError s p.ctx w.1) = none := List.find?_eq_none.mpr fun w hw => by simp [herr w hw]
  have hread : (((List.range 6).filter p.present).foldl
      (fun s i => accessed 80 p.ctx (bits (p.word (8 + i)) 54 6 * 64) 64 false s) s).passes = s.passes :=
    foldl_keeps State.passes (fun s i => accessed_passes ..) _ s
  simp only [waitsSatisfied, hnone, htds, hcheck, hread]

theorem exec_fenceWaitSatisfied {id : Nat} {p : Pass} {s : State} (hp : pass s id = some p) (hphase : p.phase = .waiting)
    (hrun : ctxState s p.ctx = 2) (hstall : passStalled s p = false)
    (hmet : ∀ w ∈ passWaits p, waitMet (fence s p.ctx w.1) w.2 = true) :
    exec (.fenceWaitSatisfied id) s = .next (waitsSatisfied p s) := by
  have hall : (passWaits p).all (fun w => waitMet (fence s p.ctx w.1) w.2) = true := List.all_eq_true.mpr hmet
  have hgo : ¬ (p.phase ≠ .waiting ∨ ctxState s p.ctx ≠ 2 ∨ passStalled s p = true ∨
      (!(passWaits p).all (fun w => waitMet (fence s p.ctx w.1) w.2)) = true) := by
    simp only [hphase, hrun, hstall, hall]
    decide
  simp only [exec, execFenceWaitSatisfied, hp, if_neg hgo]

/-! Pieces (R157, R492) -/

theorem sendPiece_passes (p : Pass) (q : Piece) (s : State) : (sendPiece p q s).passes = s.passes := by
  unfold sendPiece
  split
  · split
    · simp
    · rfl
  · rfl

/-- A pass that is replaced by one of its own number is found by that number. -/
theorem pass_modPass_const {p r : Pass} {s : State} (hp : p ∈ s.passes) (hr : r.id = p.id) :
    pass (modPass p.id (fun _ => r) s) p.id = some r := by
  have hmem : r ∈ (modPass p.id (fun _ => r) s).passes := List.mem_map.mpr ⟨p, hp, if_pos rfl⟩
  have hfound : (pass (modPass p.id (fun _ => r) s) p.id).isSome = true := List.find?_isSome.mpr ⟨r, hmem, beq_iff_eq.mpr hr⟩
  obtain ⟨x, hx⟩ := Option.isSome_iff_exists.mp hfound
  have hid : x.id = p.id := beq_iff_eq.mp (List.find?_some (p := fun y : Pass => y.id == p.id) hx)
  refine hx.trans (congrArg some ?_)
  obtain ⟨y, -, rfl⟩ := List.mem_map.mp (List.mem_of_find?_eq_some hx)
  by_cases hy : y.id = p.id
  · exact if_pos hy
  · rw [if_neg hy] at hid
    exact absurd hid hy

/-- A piece that goes to its executor leaves the pass as it was set. -/
theorem pass_sendPiece {p r : Pass} {s : State} (q : Piece) (hp : p ∈ s.passes) (hr : r.id = p.id) :
    pass (sendPiece r q (modPass p.id (fun _ => r) s)) p.id = some r := by
  rw [pass, sendPiece_passes]
  exact pass_modPass_const hp hr

theorem nextPiece_some {s : State} {p p' : Pass} {x n : Nat} {q : Piece} (h : nextPiece s p x = some (p', q, n)) :
    p' = p ∧ (p.phase = .ready ∨ p.phase = .running) := by
  unfold nextPiece at h
  split at h
  · cases h
  · next hgo =>
    dsimp only at h
    split at h
    · cases h
    · have hphase : ¬ (p.phase ≠ .ready ∧ p.phase ≠ .running) := fun hp => hgo (.inl hp)
      cases h
      exact ⟨rfl, by tauto⟩

theorem reissuePiece_some {s : State} {p p' : Pass} {x : Nat} {q : Piece} (h : reissuePiece s p x = some (p', q)) :
    p' = p ∧ q.exec = x ∧ q.state = .running := by
  unfold reissuePiece at h
  split at h
  · cases h
  · obtain ⟨y, -, hy⟩ := Option.map_eq_some_iff.mp h
    cases hy
    exact ⟨rfl, rfl, rfl⟩

/-- What a choice among the passes of a context finds, it finds at one of the passes. -/
theorem exists_pass_of_findSome {α : Type} {g : Pass → Option α} {k : Nat} {a : α} {s : State}
    (h : (s.passes.filter (fun p => p.ctx == k)).findSome? g = some a) : ∃ p ∈ s.passes, g p = some a := by
  obtain ⟨p, hp, ha⟩ := List.exists_of_findSome?_eq_some h
  exact ⟨p, List.mem_of_mem_filter hp, ha⟩

/-- A pass to which a piece of n positions is given: it starts where it was ready. -/
def piecePlaced (p : Pass) (q : Piece) (n : Nat) (s : State) : Pass :=
  let r := if p.phase = .ready then startPass p s else p
  { r with pieces := r.pieces ++ [q], placed := r.placed + n, total := passTotal p }

theorem piecePlaced_parts {p : Pass} (q : Piece) (n : Nat) (s : State) (h : p.phase = .ready ∨ p.phase = .running) :
    (piecePlaced p q n s).id = p.id ∧ (piecePlaced p q n s).phase = .running ∧ (piecePlaced p q n s).pieces = p.pieces ++ [q] ∧
      (piecePlaced p q n s).placed = p.placed + n ∧ (piecePlaced p q n s).total = passTotal p := by
  unfold piecePlaced
  split
  · exact ⟨rfl, rfl, rfl, rfl, rfl⟩
  · next hready => exact ⟨rfl, h.resolve_left hready, rfl, rfl, rfl⟩

/-- A pass whose piece q is issued again: it takes its biases afresh where nothing of it runs or has run. -/
def pieceAgain (p : Pass) (q : Piece) (s : State) : Pass :=
  setPiece (if p.pieces.all (fun x => x.state == .waiting) then startPass p s else p) q.id (fun _ => q)

theorem pieceAgain_parts (p : Pass) (q : Piece) (s : State) : (pieceAgain p q s).id = p.id ∧
    (pieceAgain p q s).pieces = p.pieces.map (fun y => if y.id = q.id then q else y) := by
  unfold pieceAgain
  split <;> exact ⟨rfl, rfl⟩

theorem exec_pieceDispatch {k x n : Nat} {p : Pass} {q : Piece} {s : State} (hmay : mayDispatch s k = true)
    (hbound : executorBound s k x = true)
    (hfirst : (s.passes.filter (fun p => p.ctx == k)).any (fun p => (reissuePiece s p x).isSome) = false)
    (hnext : (s.passes.filter (fun p => p.ctx == k)).findSome? (fun p => nextPiece s p x) = some (p, q, n)) :
    exec (.pieceDispatch k x) s =
      .next (sendPiece (piecePlaced p q n s) q (modPass p.id (fun _ => piecePlaced p q n s) s)) := by
  simp only [exec, execPieceDispatch, hmay, hbound, hfirst, hnext]
  rfl

theorem exec_pieceReissue {k x : Nat} {p : Pass} {q : Piece} {s : State} (hmay : mayDispatch s k = true)
    (hbound : executorBound s k x = true)
    (hfound : (s.passes.filter (fun p => p.ctx == k)).findSome? (fun p => reissuePiece s p x) = some (p, q)) :
    exec (.pieceReissue k x) s = .next (sendPiece (pieceAgain p q s) q (modPass p.id (fun _ => pieceAgain p q s) s)) := by
  simp only [exec, execPieceReissue, hmay, hbound, hfound]
  rfl

/-! Completion (R145) -/

/-- The end of a pass once its record stands in memory: the pass leaves, the ring's tail moves on, the slot and the entry are given
back. -/
def recordTaken (p : Pass) (s u : State) : State :=
  let w := pageWin p.ctx 0
  let nt := (fld s w Reg.CQ_STATUS_TAIL + 1) % 2 ^ fld s w Reg.CQ_CFG_LOG2_SIZE
  let v := accessed 80 p.ctx (fld s w Reg.CQ_BASE_ADDR * 4096 + 32 * fld s w Reg.CQ_STATUS_TAIL) 32 true u
  let t := { v with passes := v.passes.filter (fun q => q.id != p.id) }
  setFlds w [(Reg.CQ_STATUS_TAIL, nt), (Reg.CQ_STATUS_PHASE, b2n (flag s w Reg.CQ_STATUS_PHASE ^^ (nt == 0))),
    (Reg.CQ_STATUS_RESERVED, fld t w Reg.CQ_STATUS_RESERVED - 1),
    (Reg.RING_STATUS_OUTSTANDING.at 32 p.ring, ringOutstanding t p.ctx p.ring - 1)] t

/-- The fence counter that the pass names is signalled. -/
def passSignalled (p : Pass) (t : State) : State :=
  if tst (p.word 4) 7 then signalFence p.ctx (p.word 4 % 64) (p.status == 0) t else t

/-- The completion message, where the pass and the ring ask for one. -/
def passNoticed (p : Pass) (t : State) : State :=
  if tst (p.word 0) 17 ∧ flag t (pageWin p.ctx 0) Reg.CQ_CFG_IRQ_EN then ctxMsg p.ctx 0 t else t

section
variable {p : Pass} {s u : State} (hctx : ctxState s p.ctx ≠ 5)
  (hw : vwrite 80 p.ctx (fld s (pageWin p.ctx 0) Reg.CQ_BASE_ADDR * 4096 + 32 * fld s (pageWin p.ctx 0) Reg.CQ_STATUS_TAIL)
    (recordBytes p (flag s (pageWin p.ctx 0) Reg.CQ_STATUS_PHASE)) s = .ok u)
include hctx hw

theorem completePass_of_write : completePass p s =
    passNoticed p (passSignalled p (refreshFull p.ctx (countOutcome p.ctx p.status (recordTaken p s u)))) := by
  unfold completePass
  rw [if_neg hctx]
  dsimp only
  rw [hw]
  rfl

/-- What the telemetry, `FULL`, the signal and the message leave alone reads after the end of a pass as it read with the record. -/
theorem completePass_keeps {β : Type} {φ : State → β}
    (hcount : ∀ t, φ (countOutcome p.ctx p.status t) = φ t) (hfull : ∀ t, φ (refreshFull p.ctx t) = φ t)
    (hsig : ∀ i ok t, φ (signalFence p.ctx i ok t) = φ t) (hmsg : ∀ t, φ (ctxMsg p.ctx 0 t) = φ t) :
    φ (completePass p s) = φ (recordTaken p s u) := by
  have hsignalled (t : State) : φ (passSignalled p t) = φ t := by
    unfold passSignalled
    split
    · exact hsig _ _ t
    · rfl
  have hnoticed (t : State) : φ (passNoticed p t) = φ t := by
    unfold passNoticed
    split
    · exact hmsg t
    · rfl
  rw [completePass_of_write hctx hw, hnoticed, hsignalled, hfull, hcount]

theorem completePass_passes : (completePass p s).passes = s.passes.filter (fun q => q.id != p.id) := by
  have hcount (t : State) : (countOutcome p.ctx p.status t).passes = t.passes := by simp only [countOutcome]; (repeat' split) <;> simp
  have hsig (i : Nat) (ok : Bool) (t : State) : (signalFence p.ctx i ok t).passes = t.passes := by cases ok <;> rfl
  refine (completePass_keeps (φ := State.passes) hctx hw hcount (fun _ => rfl) hsig (fun _ => ctxMsg_passes ..)).trans ?_
  rw [recordTaken, setFlds_passes]
  exact congrArg (List.filter _) ((accessed_passes ..).trans (vwrite_passes hw))

theorem completePass_tail : fld (completePass p s) (pageWin p.ctx 0) Reg.CQ_STATUS_TAIL =
    (fld s (pageWin p.ctx 0) Reg.CQ_STATUS_TAIL + 1) % 2 ^ fld s (pageWin p.ctx 0) Reg.CQ_CFG_LOG2_SIZE % 2 ^ 16 := by
  have hscope : pageWin p.ctx 0 ≠ pageWin p.ctx 3 := by simp only [pageWin]; omega
  have hcount (t : State) : fld (countOutcome p.ctx p.status t) (pageWin p.ctx 0) Reg.CQ_STATUS_TAIL =
      fld t (pageWin p.ctx 0) Reg.CQ_STATUS_TAIL := by
    simp only [countOutcome, bump_eq]
    (repeat' split) <;> exact fld_setFld_page _ t hscope (by decide) (by decide) (by decide) (by decide)
  have hfence {f : Field} (hf : 0x1000 ≤ f.off) (i v : Nat) (t : State) :
      fld (setFld (pageWin p.ctx 0) (f.at 8 i) v t) (pageWin p.ctx 0) Reg.CQ_STATUS_TAIL = fld t (pageWin p.ctx 0) Reg.CQ_STATUS_TAIL :=
    fld_setFld_field v t (by simp only [Field.at, Reg.CQ_STATUS_TAIL]; omega)
  have hsig (i : Nat) (ok : Bool) (t : State) : fld (signalFence p.ctx i ok t) (pageWin p.ctx 0) Reg.CQ_STATUS_TAIL =
      fld t (pageWin p.ctx 0) Reg.CQ_STATUS_TAIL := by
    cases ok
    · exact (hfence (by decide) _ _ _).trans (hfence (by decide) _ _ t)
    · exact hfence (by decide) _ _ t
  refine (completePass_keeps (φ := fun t => fld t (pageWin p.ctx 0) Reg.CQ_STATUS_TAIL) hctx hw hcount
    (fun t => fld_setFld_field _ t (by decide)) hsig (fun t => fld_congr (ctxMsg_regs ..) _ _)).trans ?_
  simp only [recordTaken, setFlds_cons, setFlds_nil]
  rw [fld_setFld_ne _ _ (fieldKey_at_ne_bit (by decide) (by decide) (by decide)).symm, fld_setFld_field _ _ (by decide),
    fld_setFld_field _ _ (by decide), fld_setFld_same]
  rfl

end

theorem exec_passComplete {id : Nat} {p : Pass} {s : State} (hp : pass s id = some p) (hstall : passStalled s p = false)
    (hphase : p.phase = .ended) : exec (.passComplete id) s = .next (completePass p s) := by
  simp only [exec, execPassComplete, hp, hstall, Bool.false_eq_true, if_false, if_pos hphase]

/-! The statement -/

/-- Settles O14, clause by clause: each step of the dispatcher is the operation its conditions allow, and that operation changes the
list of passes as stated. -/
theorem dispatchOfPasses : Obligations.DispatchOfPasses := by
  unfold Obligations.DispatchOfPasses
  refine ⟨?fetch, ?waits, ?dispatch, ?reissue, ?complete⟩
  case fetch =>
    intro k r b s hk hrun hdisp hcq hfree hre hring hb
    have hr := nextRing_lt hring
    refine ⟨_, exec_descriptorFetch hk hrun hdisp hcq hfree hre hring, ?_⟩
    rw [fetchEntry_of_read hb]
    obtain ⟨hpasses, hnumber, hctx⟩ := slotReserved_parts k r (headMoved k r (ringHead s k r) (entryRead k r (ringHead s k r) b s))
    refine ⟨hnumber.trans (entryRead_nextPass ..), ?_, ?_, hpasses.trans (entryRead_passes ..)⟩
    · rw [hctx, headMoved, ctx_modCtx_same]
    · rw [ringHead_slotReserved, ringHead_headMoved, ringLog2_entryRead _ _ _ hr]
  case waits =>
    intro id p tds s hp hphase hrun hstall hwaits htds hcheck
    exact ⟨_, exec_fenceWaitSatisfied hp hphase hrun hstall fun w hw => (hwaits w hw).1,
      waitsSatisfied_passes (fun w hw => (hwaits w hw).2) htds hcheck⟩
  case dispatch =>
    intro k x n p q s hmay hbound hfirst hnext
    obtain ⟨p', hp, hpiece⟩ := exists_pass_of_findSome hnext
    obtain ⟨rfl, hphase⟩ := nextPiece_some hpiece
    obtain ⟨hid, hparts⟩ := piecePlaced_parts q n s hphase
    exact ⟨_, exec_pieceDispatch hmay hbound hfirst hnext, _, pass_sendPiece q hp hid, hparts⟩
  case reissue =>
    intro k x p q s hmay hbound hfound
    obtain ⟨p', hp, hpiece⟩ := exists_pass_of_findSome hfound
    obtain ⟨rfl, hx, hrun⟩ := reissuePiece_some hpiece
    obtain ⟨hid, hpieces⟩ := pieceAgain_parts p q s
    exact ⟨_, exec_pieceReissue hmay hbound hfound, hx, hrun, _, pass_sendPiece q hp hid, hpieces⟩
  case complete =>
    intro id p s u hp hstall hphase hctx hw
    exact ⟨_, exec_passComplete hp hstall hphase, completePass_passes hctx hw, completePass_tail hctx hw⟩

end Sys2Proof.Machine
end

section
/-! The error logs and the management cores (R489, R494 to R497, R506): what a log's registers hold after each write, what a core's
restart leaves, and the settled statement about them. -/

namespace Sys2Proof.Machine

/-! The logs (R489) -/

theorem b2n_lt_two (b : Bool) : b2n b < 2 := by cases b <;> decide

theorem flag_of_fld_one {p : Nat} {f : Field} {s : State} (h : fld s p f = 1) : flag s p f = true := by simp [flag, h]

theorem flag_of_fld_zero {p : Nat} {f : Field} {s : State} (h : fld s p f = 0) : flag s p f = false := by simp [flag, h]

theorem logEnable_off {g : LogRegs} {l : Nat} {s : State} (hoff : fld s g.page g.enable = 0) (hlo : g.lo ≤ l) (hhi : l ≤ g.hi) :
    logEnable g l s = setFlds g.page [(g.size, l), (g.enable, 1), (g.tail, 0), (g.head, 0), (g.phase, 1)] s := by
  rw [logEnable, flag_of_fld_zero hoff, if_neg Bool.false_ne_true, if_pos ⟨hlo, hhi⟩]

theorem logEnable_ignored {g : LogRegs} {l : Nat} {s : State} (h : fld s g.page g.enable = 1 ∨ l < g.lo ∨ g.hi < l) :
    logEnable g l s = s := by
  unfold logEnable
  split
  · rfl
  · next hoff =>
    have hsize : ¬ (g.lo ≤ l ∧ l ≤ g.hi) := by
      rcases h with hon | hbad
      · exact absurd (flag_of_fld_one hon) hoff
      · omega
    exact if_neg hsize

/-- A head that R138 takes moves the log's head and nothing else. -/
theorem logDoorbell_taken {g : LogRegs} {h : Nat} {s : State} (hon : fld s g.page g.enable = 1)
    (hok : headOk (fld s g.page g.size) (fld s g.page g.tail) (fld s g.page g.head) h = true) :
    logDoorbell g h s = setFld g.page g.head h s := by
  rw [logDoorbell, flag_of_fld_one hon, hok]
  rfl

theorem logDoorbell_off {g : LogRegs} {h : Nat} {s : State} (hoff : fld s g.page g.enable = 0) :
    logDoorbell g h s = setFld g.page g.bad 1 s := by
  rw [logDoorbell, flag_of_fld_zero hoff]
  rfl

theorem sameBytes_setFld (p : Nat) (f : Field) (v : Nat) (s : State) : sameBytes s (setFld p f v s) := fun _ => rfl

theorem sameBytes_setFlds (p : Nat) (l : List (Field × Nat)) (s : State) : sameBytes s (setFlds p l s) :=
  sameBytes_of_parts (setFlds_mem ..) (setFlds_cache ..) (setFlds_coh ..)

/-! Recalls (R249): what a core's restart writes of the tiles' registers -/

/-- Fields of different places have different keys on any two pages. -/
theorem fieldKey_ne_place {p q : Nat} {f g : Field} (h : g.off * 64 + g.lo ≠ f.off * 64 + f.lo) (hf : f.off < 0x10000)
    (hg : g.off < 0x10000) (hfl : f.lo < 64) (hgl : g.lo < 64) : fieldKey q g ≠ fieldKey p f := by
  simp only [fieldKey]
  omega

section
variable {q : Nat} {g : Field} (hpeak : ∀ p, fieldKey q g ≠ fieldKey p Reg.COH_TABLE_PEAK)
include hpeak

theorem fld_setHomeLine_ne (pa : Nat) (h : HomeLine) (s : State) : fld (setHomeLine pa h s) q g = fld s q g := by
  unfold setHomeLine
  dsimp only
  split
  · exact fld_setFld_ne _ _ (hpeak _)
  · rfl

variable (hsnoop : ∀ p, fieldKey q g ≠ fieldKey p Reg.COH_COUNTS_SNOOPS)
include hsnoop

theorem fld_snoopFor_ne (l : Line) (agents : Nat) (inv : Bool) (r : HomeReq) (s : State) :
    fld (snoopFor l agents inv r s) q g = fld s q g :=
  (foldl_keeps (fun s => fld s q g) (fun s _ => (fld_congr (request_regs ..) q g).trans (fld_count_ne s (hsnoop _))) _ _).trans
    (fld_setHomeLine_ne hpeak _ _ s)

/-- A recall waits at its line's home or starts a snoop phase there: it writes the home's two counts. -/
theorem fld_recallAgents_ne (mask : Nat) (s : State) : fld (recallAgents mask s) q g = fld s q g := by
  refine foldl_keeps (fun s => fld s q g) (fun s l => ?_) _ s
  unfold withdrawLine
  split
  · exact fld_setHomeLine_ne hpeak _ _ s
  · split
    · exact fld_snoopFor_ne hpeak hsnoop _ _ _ _ s
    · rfl

end

/-! A core's restart (R494, R496) -/

/-- The times of a core's restarts within the last ten minutes, one that happens now left out. -/
def recentRestarts (m : Nat) (s : State) : List Nat :=
  (Tab.get [] s.cores.restarts m).filter (fun t => decide (nowNs s < t + 600000000000))

/-- A core's restart as far as it does not depend on how many came before: counted, its lines recalled, its record raised. -/
def restartRecorded (m cause : Nat) (s : State) : State :=
  raiseErr { page := pageCore m, sev := 0, cls := 0x0B0, detail := cause } (raiseSrc (pageCore m) 0
    (setFld (pageCore m) Reg.CORE_CAUSE_LAST cause (bump (pageCore m) Reg.CORE_COUNTS_RESTARTS 1
      (recallAgents (2 ^ (32 + m)) (clearBreaches (2 ^ (32 + m))
        { s with cores := { s.cores with restarts := Tab.put [] s.cores.restarts m (nowNs s :: recentRestarts m s) } })))))

/-- The third restart within ten minutes: the core is off, RETIRED, and a record says so. -/
def coreRetired (m cause : Nat) (s : State) : State :=
  raiseErr { page := pageCore m, sev := 2, cls := 0x0B1, detail := cause }
    (raiseSrc (pageCore m) 1 (setFld (pageCore m) Reg.CORE_STATE_STATE 3 (setDomain (173 + m) false (restartRecorded m cause s))))

/-- A core's page is one of BAR0's (R65). -/
theorem pageCore_lt {m : Nat} (hm : m < 8) : pageCore m < 0x400 := by
  simp only [pageCore]
  omega

theorem restartCore_stopped {m cause : Nat} {s : State} (h : coreState s m = 3) : restartCore m cause s = s := by
  rw [restartCore, if_pos (by omega)]

/-- The restart under way is one of those that R496 counts. -/
theorem restartsNow (m : Nat) (s : State) :
    (nowNs s :: Tab.get [] s.cores.restarts m).filter (fun t => decide (nowNs s < t + 600000000000)) = nowNs s :: recentRestarts m s :=
  List.filter_cons_of_pos (by simp)

theorem restartCore_few {m cause : Nat} {s : State} (hrun : coreState s m = 1) (h : (recentRestarts m s).length < 2) :
    restartCore m cause s = setFld (pageCore m) Reg.CORE_STATE_STATE 2 (restartRecorded m cause s) := by
  have hlen : (nowNs s :: recentRestarts m s).length < 3 := by
    rw [List.length_cons]
    omega
  simp only [restartCore, restartsNow, if_neg (show ¬ (coreState s m ≠ 1 ∧ coreState s m ≠ 2) by omega), if_pos hlen]
  rfl

/-- A core that is retired stays so, whether or not it was the last in service. -/
theorem restartCore_third {m cause : Nat} {s : State} (hrun : coreState s m = 1) (h : 2 ≤ (recentRestarts m s).length) :
    restartCore m cause s = coreRetired m cause s ∨
      restartCore m cause s = raiseErr { page := pageCore m, sev := 3, cls := 0x0B2, detail := cause } (coreRetired m cause s) := by
  have hlen : ¬ (nowNs s :: recentRestarts m s).length < 3 := by
    rw [List.length_cons]
    omega
  simp only [restartCore, restartsNow, if_neg (show ¬ (coreState s m ≠ 1 ∧ coreState s m ≠ 2) by omega), if_neg hlen]
  exact ite_eq_or_eq _ _ _

theorem fld_restartRecorded_cause {m cause : Nat} (s : State) (hm : m < 8) (hc : cause < 8) :
    fld (restartRecorded m cause s) (pageCore m) Reg.CORE_CAUSE_LAST = cause := by
  rw [restartRecorded, fld_raiseErr_own _ _ (pageCore_lt hm) (by decide) (by decide) (by decide), raiseSrc,
    fld_raiseIrq_own _ (by decide) (by decide) (by decide), fld_setFld_fits _ _ hc]

/-- A restart leaves the result of its page's operation as it is. -/
theorem fld_restartRecorded_result (m cause : Nat) (s : State) :
    fld (restartRecorded m cause s) (pageCore m) Reg.OP_CONTROL_RESULT = fld s (pageCore m) Reg.OP_CONTROL_RESULT := by
  have hraise {r : ErrRec} (hpage : r.page = pageCore m) (hctx : r.ctx = 0) (t : State) :
      fld (raiseErr r t) (pageCore m) Reg.OP_CONTROL_RESULT = fld t (pageCore m) Reg.OP_CONTROL_RESULT := by
    refine sameFields_raiseErr t hctx _ _ fun x hx => ?_
    rw [errPlaces_eq, hpage] at hx
    obtain ⟨f, hf, rfl⟩ := List.mem_map.mp hx
    have hplace : ∀ f ∈ pageErrFields, Reg.OP_CONTROL_RESULT.off * 64 + Reg.OP_CONTROL_RESULT.lo ≠ f.off * 64 + f.lo := by decide
    exact fieldKey_ne (hplace f hf)
  rw [restartRecorded, hraise rfl rfl, raiseSrc, fld_raiseIrq_ne _ (fieldKey_ne (by decide)) (fieldKey_ne (by decide))
      (fieldKey_ne (by decide)), fld_setFld_field _ _ (by decide), bump_eq, fld_setFld_field _ _ (by decide),
    fld_recallAgents_ne (fun _ => fieldKey_ne_place (by decide) (by decide) (by decide) (by decide) (by decide))
      (fun _ => fieldKey_ne_place (by decide) (by decide) (by decide) (by decide) (by decide))]
  rfl

/-- The first and the second restart within ten minutes: the core is RESTARTING, and its cause stands. -/
theorem restartCore_few_reads {m cause : Nat} {s : State} (hm : m < 8) (hrun : coreState s m = 1) (h : (recentRestarts m s).length < 2)
    (hc : cause < 8) :
    coreState (restartCore m cause s) m = 2 ∧ fld (restartCore m cause s) (pageCore m) Reg.CORE_CAUSE_LAST = cause ∧
      fld (restartCore m cause s) (pageCore m) Reg.OP_CONTROL_RESULT = fld s (pageCore m) Reg.OP_CONTROL_RESULT := by
  rw [restartCore_few hrun h]
  refine ⟨fld_setFld_fits _ _ (by decide), ?_, ?_⟩
  · rw [fld_setFld_field _ _ (by decide), fld_restartRecorded_cause s hm hc]
  · rw [fld_setFld_field _ _ (by decide), fld_restartRecorded_result]

/-- A block error switches no domain. -/
theorem domainOn_raiseErr (r : ErrRec) (s : State) (d : Nat) : domainOn (raiseErr r s) d = domainOn s d := by
  refine domainOn_congr ?_ d
  simp only [raiseErr]
  (repeat' split) <;> simp [hubFault, setPin, latch, emit]

theorem coreRetired_reads {m : Nat} (cause : Nat) (s : State) (hm : m < 8) :
    coreState (coreRetired m cause s) m = 3 ∧ domainOn (coreRetired m cause s) (173 + m) = false := by
  refine ⟨?_, ?_⟩
  · rw [coreRetired, coreState, fld_raiseErr_own _ _ (pageCore_lt hm) (by decide) (by decide) (by decide), raiseSrc,
      fld_raiseIrq_own _ (by decide) (by decide) (by decide), fld_setFld_fits _ _ (by decide)]
  · rw [coreRetired, domainOn_raiseErr, domainOn_congr (congrArg Power.domains (raiseSrc_power ..))]
    exact domainOn_setDomain_same ..

theorem restartCore_third_reads {m cause : Nat} {s : State} (hm : m < 8) (hrun : coreState s m = 1)
    (h : 2 ≤ (recentRestarts m s).length) :
    coreState (restartCore m cause s) m = 3 ∧ domainOn (restartCore m cause s) (173 + m) = false := by
  obtain ⟨hstate, hdom⟩ := coreRetired_reads cause s hm
  rcases restartCore_third (cause := cause) hrun h with heq | heq
  · rw [heq]
    exact ⟨hstate, hdom⟩
  · rw [heq]
    exact ⟨(fld_raiseErr_own _ _ (pageCore_lt hm) (by decide) (by decide) (by decide)).trans hstate, (domainOn_raiseErr ..).trans hdom⟩

theorem coreRestart_free {m : Nat} {s : State} (hop : pageOp s (pageCore m) = none)
    (h : coreState (restartCore m 4 (opRun (pageCore m) 0x10 0 s)) m = 2) :
    coreRestart m s = restartCore m 4 (opRun (pageCore m) 0x10 0 s) := by
  simp only [coreRestart, hop, Option.isSome_none, Bool.false_eq_true, if_false, h, if_true]

/-- What a core's restart looks at stands as before once the operation runs. -/
theorem restartPremises_opRun {m : Nat} (p op arg : Nat) (s : State) :
    coreState (opRun p op arg s) m = coreState s m ∧ recentRestarts m (opRun p op arg s) = recentRestarts m s := by
  refine ⟨fld_opRun_own s (by decide) (by decide) (by decide), ?_⟩
  simp only [recentRestarts, nowNs_congr (opRun_time p op arg s), opRun_cores]

/-- The restart that PF0 asked for is over: the core runs, and its operation has passed. -/
theorem exec_coreRestartDone {m ms : Nat} {o : PageOp} {s : State} (hm : m < 8) (hst : coreState s m = 2)
    (hop : pageOp s (pageCore m) = some o) (ho : o.op = 0x10) :
    exec (.coreRestartDone m ms) s = .next (opEnd (pageCore m) 3
      (setFlds (pageCore m) [(Reg.CORE_STATE_STATE, 1), (Reg.CORE_COUNTS_LAST_MS, ms)] s)) := by
  have hop' : pageOp (setFlds (pageCore m) [(Reg.CORE_STATE_STATE, 1), (Reg.CORE_COUNTS_LAST_MS, ms)] s) (pageCore m) = some o :=
    (pageOp_congr (setFlds_ops ..) _).trans hop
  simp only [exec, execCoreRestartDone, if_neg (show ¬ (8 ≤ m ∨ coreState s m ≠ 2) by omega), hop', ho, if_true]

/-! The commands on a log or a core that exists -/

section
variable {k m : Nat} (s : State)

theorem exec_errqEnable (l : Nat) (irq : Bool) (hk : k < 64) : exec (.errqEnable k l irq) s =
    .next (setFld (pageWin k 0) Reg.ERRQ_CFG_IRQ_EN (b2n irq) (logEnable (tenantLog k) l s)) := if_neg (Nat.not_le.mpr hk)

theorem exec_errqDisable (hk : k < 64) : exec (.errqDisable k) s = .next (setFld (pageWin k 0) Reg.ERRQ_CFG_ENABLE 0 s) :=
  congrArg Host.Outcome.next (if_neg (Nat.not_le.mpr hk))

theorem exec_errqDoorbell (h : Nat) (hk : k < 64) : exec (.errqDoorbell k h) s = .next (logDoorbell (tenantLog k) h s) :=
  congrArg Host.Outcome.next (if_neg (Nat.not_le.mpr hk))

theorem exec_watchdogExpiry (hm : m < 8) : exec (.watchdogExpiry m) s = .next (restartCore m 1 s) :=
  congrArg Host.Outcome.next (if_neg (Nat.not_le.mpr hm))

theorem exec_coreSramError (hm : m < 8) : exec (.coreSramError m) s = .next (restartCore m 3 s) :=
  congrArg Host.Outcome.next (if_neg (Nat.not_le.mpr hm))

theorem exec_coreRestart (hm : m < 8) : exec (.coreRestart m) s = .next (coreRestart m s) :=
  congrArg Host.Outcome.next (if_neg (Nat.not_le.mpr hm))

end

/-! The statement -/

/-- Settles O50, clause by clause: a log's command sets registers of its log; a core's restart reaches RESTARTING or RETIRED by the
number of restarts within ten minutes. -/
theorem logsAndCores : Obligations.LogsAndCores := by
  unfold Obligations.LogsAndCores
  refine ⟨?enable, ?ignored, ?disable, ?bell, ?badBell, ?queueOn, ?queueOff, ?queueBell, ?latch, ?few, ?third, ?retired, ?restart,
    ?refused, ?done⟩
  case enable =>
    intro l s hoff hlo hhi
    have hsize : l < 2 ^ Reg.ERRLOG_CFG_LOG2_SIZE.width := show l < 32 by omega
    have heq := logEnable_off (g := deviceLog) hoff hlo hhi
    refine ⟨_, congrArg Host.Outcome.next heq, ?_, ?_, ?_, ?_, ?_, sameBytes_setFlds 0x004 _ s⟩ <;>
      simp (disch := decide) only [deviceLog, setFlds_cons, setFlds_nil, fld_setFld_field, fld_setFld_fits, fld_setFld_fits _ _ hsize]
  case ignored => exact fun l s h => congrArg Host.Outcome.next (logEnable_ignored (g := deviceLog) h)
  case disable =>
    exact fun s => ⟨_, rfl, fld_setFld_fits _ _ (by decide), sameFields_setFld 0x004 _ _ s, sameBytes_setFld 0x004 _ _ s⟩
  case bell =>
    intro h s hon hh hok
    exact ⟨_, congrArg Host.Outcome.next (logDoorbell_taken (g := deviceLog) hon hok), fld_setFld_fits _ _ hh,
      sameFields_setFld 0x004 _ _ s⟩
  case badBell =>
    intro h s hoff
    exact ⟨_, congrArg Host.Outcome.next (logDoorbell_off (g := deviceLog) hoff), fld_setFld_fits _ _ (by decide),
      sameFields_setFld 0x004 _ _ s⟩
  case queueOn =>
    intro k l irq s hk hoff hlo hhi
    have hsize : l < 2 ^ Reg.ERRQ_CFG_LOG2_SIZE.width := show l < 16 by omega
    have hirq : b2n irq < 2 ^ Reg.ERRQ_CFG_IRQ_EN.width := b2n_lt_two irq
    have hexec := exec_errqEnable s l irq hk
    rw [logEnable_off (g := tenantLog k) hoff hlo hhi] at hexec
    refine ⟨_, hexec, ?_, ?_, ?_, ?_, fun a => (sameBytes_setFld _ _ _ _ a).trans (sameBytes_setFlds _ _ s a)⟩ <;>
      simp (disch := decide) only [tenantLog, setFlds_cons, setFlds_nil, fld_setFld_field, fld_setFld_fits, fld_setFld_fits _ _ hsize,
        fld_setFld_fits _ _ hirq]
  case queueOff =>
    exact fun k s hk => ⟨_, exec_errqDisable s hk, fld_setFld_fits _ _ (by decide), sameFields_setFld _ _ _ s, sameBytes_setFld _ _ _ s⟩
  case queueBell =>
    intro k h s hk hh hon hok
    have hexec := exec_errqDoorbell s h hk
    rw [logDoorbell_taken (g := tenantLog k) hon hok] at hexec
    exact ⟨_, hexec, fld_setFld_fits _ _ hh, sameFields_setFld _ _ _ s⟩
  case latch => exact fun s => ⟨_, rfl, rfl, rfl, fun _ => rfl⟩
  case few =>
    intro m s hm hrun _ hfew
    obtain ⟨hstate, hcause, -⟩ := restartCore_few_reads (cause := 1) hm hrun hfew (by decide)
    obtain ⟨hstate', hcause', -⟩ := restartCore_few_reads (cause := 3) hm hrun hfew (by decide)
    exact ⟨⟨_, exec_watchdogExpiry s hm, hstate, hcause⟩, ⟨_, exec_coreSramError s hm, hstate', hcause'⟩⟩
  case third => exact fun m s hm hrun _ hmany => ⟨_, exec_watchdogExpiry s hm, restartCore_third_reads hm hrun hmany⟩
  case retired =>
    intro m s hm h
    rw [exec_watchdogExpiry s hm, exec_coreSramError s hm, restartCore_stopped h, restartCore_stopped h]
    exact ⟨rfl, rfl⟩
  case restart =>
    intro m s hm hrun _ hop hfew
    obtain ⟨hrun', hrecent⟩ := restartPremises_opRun (m := m) (pageCore m) 0x10 0 s
    rw [← recentRestarts, ← hrecent] at hfew
    obtain ⟨hstate, hcause, hresult⟩ := restartCore_few_reads (cause := 4) hm (hrun'.trans hrun) hfew (by decide)
    have hexec := exec_coreRestart s hm
    rw [coreRestart_free hop hstate] at hexec
    exact ⟨_, hexec, hstate, hresult.trans (opRun_result ..), hcause⟩
  case refused =>
    intro m s hm hop
    rw [exec_coreRestart s hm, coreRestart, if_pos hop]
  case done =>
    intro m ms o s hm hst hop ho hms
    have hfits : ms < 2 ^ Reg.CORE_COUNTS_LAST_MS.width := hms
    refine ⟨_, exec_coreRestartDone hm hst hop ho, ?_, ?_, opEnd_result _ _ _ (by decide), ?_⟩
    · simp (disch := decide) only [coreState, fld_opEnd_own, setFlds_cons, setFlds_nil, fld_setFld_field, fld_setFld_fits]
    · simp (disch := decide) only [fld_opEnd_own, setFlds_cons, setFlds_nil, fld_setFld_fits _ _ hfits]
    · exact fun a => (opEnd_bytes _ _ _ a).trans (sameBytes_setFlds (pageCore m) _ s a)

end Sys2Proof.Machine
end
